-- ==== Sys2Proof/Word.lean ====
section
/-! DEFINITION. The word types of the hub and the plainest views of them.  Register contents, header
fields and line data are bit vectors; addresses are kept as natural numbers below 2^52. -/

namespace Sys2Proof

/-- One byte. -/
abbrev Byte := BitVec 8
/-- One register (R59). -/
abbrev W32 := BitVec 32
/-- The 64-byte payload of a line or data unit; byte `i` is bits `8i+7 : 8i` (R112). -/
abbrev LineData := BitVec 512
/-- A byte mask over one line: bit `i` selects byte `i` (R112). -/
abbrev ByteMask := BitVec 64

end Sys2Proof
end

