-- ==== Sys2Proof/Machine/Tab.lean ====
section
/-! DEFINITION. The sparse tables of the model: lists of (key, value) in strictly rising key order, and the
small bit-field and list operations every block uses. -/

namespace Sys2Proof.Machine

/-- A sparse table, kept in strictly rising key order (`Tab.wf`). -/
abbrev Tab (α : Type) := List (Nat × α)

/-- The canonical form of a table: keys strictly rising. -/
def Tab.wf {α : Type} : Tab α → Bool
  | [] => true
  | (k, _) :: t => t.all (fun e => decide (k < e.1)) && Tab.wf t

/-- The entry of key `k`. -/
def Tab.get? {α : Type} (k : Nat) : Tab α → Option α
  | [] => none
  | (k', v) :: t => if k' = k then some v else Tab.get? k t

/-- The entry of key `k`, or `d` where the table lists none. -/
def Tab.getD {α : Type} (k : Nat) (d : α) (t : Tab α) : α := (Tab.get? k t).getD d

/-- Insert or replace the entry of key `k`. -/
def Tab.put {α : Type} (k : Nat) (v : α) : Tab α → Tab α
  | [] => [(k, v)]
  | (k', v') :: t =>
    if k < k' then (k, v) :: (k', v') :: t
    else if k = k' then (k, v) :: t
    else (k', v') :: Tab.put k v t

/-- Remove every entry of key `k`. -/
def Tab.del {α : Type} (k : Nat) : Tab α → Tab α
  | [] => []
  | (k', v') :: t => if k' = k then Tab.del k t else (k', v') :: Tab.del k t

/-- Set key `k` to `v` where an unlisted key reads as `d`: writing `d` removes the entry. -/
def Tab.putD {α : Type} [DecidableEq α] (d : α) (k : Nat) (v : α) (t : Tab α) : Tab α :=
  if v = d then Tab.del k t else Tab.put k v t

/-- Change the entry of key `k`, where there is one. -/
def Tab.upd {α : Type} (k : Nat) (f : α → α) : Tab α → Tab α
  | [] => []
  | (k', v') :: t => if k' = k then (k', f v') :: Tab.upd k f t else (k', v') :: Tab.upd k f t

/-- The smallest key below `n` (counting from `i`) that the table does not list. -/
def Tab.freeKey {α : Type} (t : Tab α) (n : Nat) : Option Nat :=
  (List.range n).find? fun k => (Tab.get? k t).isNone

/-- Bits `lo + w - 1 : lo` of `v`. -/
def bits (v lo w : Nat) : Nat := v / 2 ^ lo % 2 ^ w

/-- Replace bits `lo + w - 1 : lo` of `v` by `x`. -/
def setBits (v lo w x : Nat) : Nat :=
  v - bits v lo w * 2 ^ lo + x % 2 ^ w * 2 ^ lo

/-- Bit `i` of `v`. -/
def bitN (v i : Nat) : Bool := v / 2 ^ i % 2 == 1

/-- 1 for true, 0 for false. -/
def b2n (b : Bool) : Nat := if b then 1 else 0

/-- A mask with the bits of the listed positions set. -/
def maskOf (l : List Nat) : Nat := l.eraseDups.foldl (fun a i => a + 2 ^ i) 0

/-- Count up, stopping at `m` (a saturating counter). -/
def satAdd (v n m : Nat) : Nat := min (v + n) m

/-- Element `i` of a list, or `d` past its end. -/
def nthD {α : Type} (l : List α) (i : Nat) (d : α) : α := l.getD i d

/-- Replace element `i` of a list by `f` of it. -/
def modNth {α : Type} (l : List α) (i : Nat) (f : α → α) : List α := l.modify i f

/-- Replace element `i` of a row of `n` like things by `f` of it; a thing the list does not reach is `d`. -/
def modOf {α : Type} (n : Nat) (d : α) (l : List α) (i : Nat) (f : α → α) : List α :=
  if i < l.length then l.modify i f
  else if i < n then (l ++ List.replicate (n - l.length) d).modify i f
  else l

/-- Run `f` for each element of a list in turn. -/
def forAll {α σ : Type} (l : List α) (f : α → σ → σ) (s : σ) : σ := l.foldl (fun s a => f a s) s

/-- Byte `i` of a line. -/
def lineByte (d : LineData) (i : Nat) : Byte := d.extractLsb' (8 * i) 8

/-- A line from its 64 bytes. -/
def lineOfBytes (f : Nat → Byte) : LineData :=
  BitVec.ofNat 512 ((List.range 64).foldl (fun a i => a + (f i).toNat * 2 ^ (8 * i)) 0)

/-- The mask that selects bytes `off .. off + n - 1`. -/
def maskRun (off n : Nat) : ByteMask := BitVec.ofNat 64 ((2 ^ n - 1) * 2 ^ off)

/-- Spread a byte mask to a bit mask over the line: bit `8i + j` is mask bit `i`. -/
def maskBits (m : ByteMask) : LineData :=
  BitVec.ofNat 512 ((List.range 64).foldl (fun a i => if m.getLsbD i then a + 255 * 2 ^ (8 * i) else a) 0)

/-- The line `old` with the bytes that `m` selects taken from `new` (R112). -/
def mergeLine (old new : LineData) (m : ByteMask) : LineData :=
  (old &&& ~~~ (maskBits m)) ||| (new &&& maskBits m)

/-- `n` bytes of the line from byte `off`, as a little-endian number. -/
def lineField (d : LineData) (off n : Nat) : Nat := d.toNat / 2 ^ (8 * off) % 2 ^ (8 * n)

/-- Put the `n`-byte little-endian number `v` at byte `off` of the line. -/
def setLineField (d : LineData) (off n v : Nat) : LineData :=
  BitVec.ofNat 512 (setBits d.toNat (8 * off) (8 * n) v)

/-- The bytes a mask selects, as (first byte, number), where it selects one contiguous run. -/
def maskRun? (m : ByteMask) : Option (Nat × Nat) :=
  match (List.range 64).find? fun i => m.getLsbD i with
  | none => none
  | some off =>
    let n := ((List.range 64).filter fun i => m.getLsbD i).length
    if m = maskRun off n then some (off, n) else none

end Sys2Proof.Machine
end

