-- ==== Sys2Proof/Machine/Operands.lean ====
section
/-! DEFINITION. Every operand form the commands carry: the fabric unit (R108, R112), the link
frames, the error kinds a receiver finds, and the small enumerations the rows name. -/

namespace Sys2Proof.Machine

/-- One packet of the hub fabric: the header unit of R108 and, where `hasData`, the data unit of R112.
`dst` is no header field: it is the destination node the sending interface determined (R122), which the
route table turns into ROUTE; `inj` is the node whose interface injects it where that is not SRC's own (R268, R408: the module that
carried a die's unit); `rpar` is the side-band parity of the ROUTE selectors (R113). -/
structure Pkt where
  route : BitVec 40 := 0
  vc : BitVec 3 := 0
  op : BitVec 7
  src : BitVec 8
  txn : BitVec 12 := 0
  addr : BitVec 46 := 0
  cls : BitVec 2 := 0
  rsv : Bool := false
  psn : Bool := false
  na : Bool := false
  last : Bool := false
  hasData : Bool := false
  size : BitVec 3 := 0
  data : LineData := 0
  mask : ByteMask := 0
  dst : BitVec 8 := 0
  inj : Option (BitVec 8) := none
  rpar : BitVec 10 := 0
  deriving DecidableEq, Repr

/-- The node whose interface injects a packet: SRC's, or the module that carried a die's unit. -/
def Pkt.by (p : Pkt) : BitVec 8 := p.inj.getD p.src

/-- The virtual channel an opcode travels on (R110). -/
def vcOfOp (op : BitVec 7) : BitVec 3 :=
  if op.toNat < 0x20 then 0 else if op.toNat < 0x40 then 1 else if op.toNat < 0x50 then 2
  else if op.toNat < 0x60 then 3 else if op.toNat < 0x68 then 4 else if op.toNat < 0x70 then 5
  else if op.toNat < 0x78 then 6 else 7

/-- The opcodes of R110 that are assigned. -/
def opAssigned (op : BitVec 7) : Bool :=
  let n := op.toNat
  (1 ≤ n && n ≤ 0x0B) || (0x20 ≤ n && n ≤ 0x24) || (0x40 ≤ n && n ≤ 0x45) || (0x50 ≤ n && n ≤ 0x54) ||
  n == 0x60 || n == 0x61 || n == 0x68 || n == 0x70 || n == 0x71 || n == 0x78 || n == 0x79

/-- What one crossing of a link does to a unit and its side band (R113, R114): bits flipped in the code word of HECC (header bits
127:40 are 0 to 87, the check bits 88 to 95), bits flipped in ROUTE and in RPAR, the SVC received where it differs, and the bits flipped
in each of the nine DECC code words of the data unit (0 to 63 data, 64 to 71 check bits). -/
structure LaneErr where
  hecc : List Nat := []
  route : List Nat := []
  rpar : List Nat := []
  svc : Option (BitVec 3) := none
  words : List (List Nat) := []
  deriving DecidableEq, Repr

/-- The kind of error that a memory or Hearth word carries when it is read (R345, R358, R359). -/
inductive EccOutcome where
  | clean | corrected | uncorrectable
  deriving DecidableEq, Repr

/-- What a Smith firmware image carries to admit dies and Ember modules by (R451, R534, R652): the registry root public key, and the
revoked vendor IDs, vendor keys and serial numbers. -/
structure Trust where
  root : List Byte := []
  vendors : List Nat := []
  keys : List (List Byte) := []
  serials : List (List Byte) := []
  deriving DecidableEq, Repr, Inhabited

/-- VENDOR, VENDOR_KEY or SERIAL is revoked (R456, R535). -/
def Trust.revoked (t : Trust) (vendor : Nat) (key serial : List Byte) : Bool :=
  t.vendors.contains vendor || t.keys.contains key || t.serials.contains serial

/-- A store of a die's core to one line: the bytes `mask` selects take their value from `data`. -/
structure Store where
  data : LineData
  mask : ByteMask
  deriving DecidableEq, Repr

/-- The two ends of a link module, which the rules of the link chapter bind alike (R397): LNK[s], and the die. -/
inductive LinkEnd where
  | hub | die
  deriving DecidableEq, Repr

/-- The other end of a module. -/
def LinkEnd.other : LinkEnd → LinkEnd
  | .hub => .die
  | .die => .hub

/-- The header of a link frame (R405): TYPE, SEQ, ACK and the two credit slots, each a VC with the header and data credits freed
for it. -/
structure FrameHdr where
  typ : Nat := 4
  seq : Nat
  ack : Nat
  cvc0 : Nat := 0
  ch0 : Nat := 0
  cd0 : Nat := 0
  cvc1 : Nat := 1
  ch1 : Nat := 0
  cd1 : Nat := 0
  deriving DecidableEq, Repr

/-- A link-management message (R418, R453, R634, R691): its code, and its fields in the order of the tables. -/
structure Lm where
  code : Nat
  args : List Nat := []
  deriving DecidableEq, Repr

/-- A frame on its way to the partner: its header, and its link-management message (code 0x101 stands for an RPL frame and 0x102
for an ACK frame, which carry none). -/
structure LinkFrame where
  hdr : FrameHdr
  lm : Lm
  deriving DecidableEq, Repr

/-- The Chain part of a packet (R553, R554), its fields as numbers: the header, the extension header's fields, and what follows them:
the payload, or, while it is sealed, the ciphertext with its tag (R561). -/
structure ChainPkt where
  typ : Nat
  flags : Nat := 0
  op : Nat := 0
  status : Nat := 0
  dcid : Nat
  psn : Nat
  apsn : Nat := 0
  sack : Nat := 0
  ts : Nat := 0
  tse : Nat := 0
  iv : Nat := 0
  msn : Nat := 0
  off : Nat := 0
  va : Nat := 0
  key : Nat := 0
  len : Nat := 0
  operand : Nat := 0
  compare : Nat := 0
  data : List Byte := []
  deriving DecidableEq, Repr

/-- An Ethernet frame as the key fields of R549 and R550 read it: length with its FCS, outer VLAN ID with the tagged bit (bit 12),
destination MAC, EtherType, IP protocol, L4 ports, IP addresses (IPv4 in mapped form); the IP traffic class with DSCP and ECN (R552), the
UDP payload, and the frame's bytes; whether its FCS is good and no FEC codeword was uncorrectable (R544). -/
structure Frame where
  len : Nat
  vid : Nat := 0
  dmac : Nat := 0
  etype : Nat := 0
  proto : Nat := 0
  sport : Nat := 0
  dport : Nat := 0
  sip : Nat := 0
  dip : Nat := 0
  tos : Nat := 0
  udp : List Byte := []
  data : List Byte := []
  fcs : Bool := true
  fec : Bool := true
  deriving DecidableEq, Repr

end Sys2Proof.Machine
end

