-- ==== Sys2Proof/Syntax.lean ====
section
/-! DEFINITION. The commands the hub takes: one constructor per row of the table of operations and events
(spec/opcode_table.json), with the operands that say which block, unit, frame or register it concerns and
what the outside world (a die, a device, a pin, a memory array) answers. -/

namespace Sys2Proof

open Sys2Proof.Machine

/-- One command of the table; each constructor names its row and the rule that governs it. -/
inductive Instr where
  /-- COLD_RESET (R655): PWROK rises: TIME starts at 0, PROFILE_SEL is sampled and the cold start-up sequence runs. -/
  | coldReset (sel : Nat) (straps : Nat) (part : Nat) (pop : Nat) (rails : Bool) (good : List Bool) (bad : Nat) (load : Nat) (image : List Byte) (trust : List Trust)
  /-- POWER_FAIL (R629): PWROK falls and the package enters Off. -/
  | powerFail
  /-- SUPPLY_FAULT (R734): A rail leaves its range for 5 us while PWROK is high: lasers go off, clocks stop and ALERT_N is asserted. -/
  | supplyFault
  /-- THERMAL_TRIP (R741): A sensor reaches its trip temperature: THERMTRIP_N is asserted, lasers go off, clocks stop and a fatal error is raised. -/
  | thermalTrip (sensor : Nat)
  /-- PKG_RESET_ASSERT (R660): Filtered assertion of PKG_RESET_N starts a warm reset, or joins one already running. -/
  | pkgResetAssert
  /-- WARM_DRAIN_EXPIRE (R660): The 1 ms warm-reset drain ends: held writes are discarded and counted, the Hearth writes back, memory enters self-refresh and the hub resets. -/
  | warmDrainExpire
  /-- SMITH_WATCHDOG (R648): Smith firmware fails to service the watchdog for 1 ms, and Smith restarts from the image in force. -/
  | smithWatchdog
  /-- SMITH_RESUME (R649): Smith firmware is running again, records events from the pause and completes or abandons an interrupted operation. -/
  | smithResume
  /-- ROOT_PLL_LOSS_OF_LOCK (R632): The root PLL loses lock: SCLK moves to REFCLK, a fatal error is raised and ALERT_N is asserted. -/
  | rootPllLossOfLock
  /-- REGISTER_WRITE (R68): A write to a register with no row of its own applies its field types, or is refused and sets ACC_ERR. -/
  | registerWrite (src : BitVec 8) (page : Nat) (off : Nat) (n : Nat) (data : Nat)
  /-- STATUS_CLEARING_READ (R70): A read of a page with CLRMODE = 1 returns status bits and clears those it returns as 1. -/
  | statusClearingRead (src : BitVec 8) (page : Nat) (off : Nat) (n : Nat) (e : EccOutcome)
  /-- BIT_ALIAS_WRITE (R82): A write to an alias word changes exactly one bit according to its field type. -/
  | bitAliasWrite (src : BitVec 8) (page : Nat) (off : Nat) (b : Nat) (v : Bool)
  /-- SHADOW_WRITE (R86): A write to an RWQ register replaces its shadow value and marks it pending, or is held while a quench is busy. -/
  | shadowWrite (page : Nat) (off : Nat) (data : Nat) (view : Bool)
  /-- PAGE_QGRP_WRITE (R78): A write to PAGE_QGRP changes the page's quench group, or is ignored while values are pending or a quench runs. -/
  | pageQgrpWrite (page : Nat) (g : Nat)
  /-- QUENCH (R92): A QUENCH write with CANCEL = 0 is accepted and every page of the selected groups validates its pending values. -/
  | quench (gmask : Nat)
  /-- QUENCH_CANCEL (R97): A QUENCH write with CANCEL = 1 discards every pending value of the selected groups. -/
  | quenchCancel (gmask : Nat)
  /-- QUENCH_APPLY (R94): On the apply edge, the pending values of every selected group that was not rejected become live across the hub. -/
  | quenchApply
  /-- QUENCH_DONE (R98): The quench completes: DONE is set, BUSY cleared, REJ written, SEQ incremented and held writes released. -/
  | quenchDone
  /-- RT_ENTRY_WRITE (R146): A write to RT_ENTRY_LO or RT_ENTRY_HI updates the pending value of the route entry that RT_SEL selects. -/
  | rtEntryWrite (k : Nat) (hi : Bool) (data : Nat)
  /-- RTR_WEIGHT_WRITE (R146): A write to RTR_CLASS or RTR_WEIGHT updates the pending value of the router that RTR_SEL selects. -/
  | rtrWeightWrite (k : Nat) (word : Nat) (data : Nat)
  /-- PACKET_INJECT (R122): A network interface injects a packet, copying ROUTE from its route table while it holds credits. -/
  | packetInject (p : Pkt)
  /-- UNIT_RECEIVE (R114): A router or interface receives a unit and corrects, discards or poisons it on header and data errors. -/
  | unitReceive (p : Pkt) (router : Nat) (port : Nat) (e : LaneErr)
  /-- OUTPUT_ARBITRATION (R137): A router output grants one requesting input for the next cycle by class, pointer and weight. -/
  | outputArbitration (router : Nat)
  /-- CREDIT_RETURN (R117): A receiver returns the credits of a packet leaving its queue on the reverse side band. -/
  | creditReturn
  /-- PACKET_TO_ABSENT_AGENT (R131): A packet reaches an unpopulated, fenced or off agent and is discarded, counted and its credits returned. -/
  | packetToAbsentAgent (p : Pkt)
  /-- RD_SHARED (R187): A RdShared issues at its home, passes the admission checks and is served by directory state. -/
  | rdShared (p : Pkt)
  /-- RD_OWN (R187): A RdOwn issues at its home and is admitted or refused, then snoops Lead and sharers or owner. -/
  | rdOwn (p : Pkt)
  /-- UPGRADE (R187): An Upgrade issues at its home and is granted by invalidating sharers, or converted to RdOwn. -/
  | upgrade (p : Pkt)
  /-- RD_ONCE (R187): A RdOnce issues at its home and returns a snapshot of the line with DataRd. -/
  | rdOnce (p : Pkt)
  /-- STRIKE (R187): A Strike issues at its home, invalidates every copy with DISCARD = 1 and writes the full line. -/
  | strike (p : Pkt)
  /-- STRIKE_PART (R187): A StrikePart issues at its home, invalidates copies and merges the masked bytes into the line. -/
  | strikePart (p : Pkt)
  /-- FAR_ATOMIC (R162): A FarAtomic issues at its home, which performs the operation on the target field and returns DataRd. -/
  | farAtomic (p : Pkt)
  /-- EVICT_CLEAN (R187): An EvictClean issues at its home and clears the evicting die from the directory, or is acknowledged as stale. -/
  | evictClean (p : Pkt)
  /-- WB_DATA (R190): A WbData arrives at its home and is written through the Hearth, then acknowledged with WbAck. -/
  | wbData (p : Pkt)
  /-- SNP_ACK (R187): The home applies a SnpAck answer to the transaction it belongs to. -/
  | snpAck (p : Pkt)
  /-- WB_SNP (R187): The home applies a WbSnp answer and writes its dirty data through the Hearth. -/
  | wbSnp (p : Pkt)
  /-- HEARTH_RETURN (R312): A Hearth lookup result returns to the home step, with allocation, lock and eviction handled under the line's mode. -/
  | hearthReturn (h : Nat) (k : Nat) (wb : Bool) (ecc : EccOutcome)
  /-- MEMORY_RETURN (R188): A memory read returns to the home, which sources data once it also holds the Lead or owner answer. -/
  | memoryReturn (h : Nat) (k : Nat) (wb : Bool)
  /-- TRANSACTION_CONTINUE (R215): A transaction waiting in the tracker or a reservation entry becomes able to continue and issues its next step. -/
  | transactionContinue (h : Nat) (k : Nat)
  /-- RSV_LAPSE (R231): No matching request issues within the lapse time, so the reservation lapses and the line passes to the next one. -/
  | rsvLapse (h : Nat) (line : Nat)
  /-- SNP_TO (R241): A snoop timer reaches 20 us: SNP_TO is set, the location recorded, a record written and the event raised. -/
  | snpTo (h : Nat) (k : Nat) (site : Nat)
  /-- SITE_FENCE (R243): Smith firmware or SITE fences a site on one edge that every home observes. -/
  | siteFence (site : Nat)
  /-- CONTAIN_VISIT (R248): The containment walk visits its next directory set and removes fenced sites from its entries. -/
  | containVisit (h : Nat)
  /-- HOME_CNT_CLR (R257): A write of CLR zeroes HOME_NACK_CNT, HOME_OVL_REF and HOME_OVL_DLY. -/
  | homeCntClr (h : Nat)
  /-- SNP_SHARE (R184): A die receives a SnpShare and forwards, downgrades or answers it by its state, holding it under R179. -/
  | snpShare (p : Pkt)
  /-- SNP_OWN (R184): A die receives a SnpOwn and forwards the line to the requester and invalidates it. -/
  | snpOwn (p : Pkt)
  /-- SNP_INV (R184): A die receives a SnpInv and invalidates its copy, writing back or discarding dirty data by DISCARD. -/
  | snpInv (p : Pkt)
  /-- SNP_BACK (R184): A die receives a SnpBack for a directory victim and gives up its copy. -/
  | snpBack (p : Pkt)
  /-- DATA_S (R186): A requester receives DataS and installs the line in S. -/
  | dataS (p : Pkt) (w : Option Store)
  /-- DATA_L (R186): A requester receives DataL and installs the line in L. -/
  | dataL (p : Pkt) (w : Option Store)
  /-- DATA_E (R186): A requester receives DataE and installs the line in E. -/
  | dataE (p : Pkt) (w : Option Store)
  /-- DATA_M (R186): A requester receives forwarded DataM and installs the line in M. -/
  | dataM (p : Pkt) (w : Option Store)
  /-- DATA_RD (R186): An uncached requester receives DataRd and installs nothing. -/
  | dataRd (p : Pkt) (w : Option Store)
  /-- GRANT_UP (R186): An upgrading die receives GrantUp and moves from S or L to E. -/
  | grantUp (p : Pkt) (w : Option Store)
  /-- CMP (R171): A requester receives Cmp, marking completion once any data has also arrived. -/
  | cmp (p : Pkt) (w : Option Store)
  /-- NACK (R173): A requester receives a Nack, which ends its transaction with no change to the line. -/
  | nack (p : Pkt)
  /-- WB_ACK (R186): An evicting die receives WbAck and moves to I. -/
  | wbAck (p : Pkt)
  /-- RETRY_SEND (R301): A requester sends a retry after a Nack, within the spacing of R174 and R301, with RSV set after four Nacks. -/
  | retrySend (site : Nat) (line : Nat) (asOwn : Bool)
  /-- DEV_WR (R282): A DevWr is consumed at its target, and a PCIe group records its target block for later flushing. -/
  | devWr (p : Pkt)
  /-- DEV_RD (R169): A DevRd reaches its claimant, which returns DevCplD. -/
  | devRd (p : Pkt) (e : EccOutcome)
  /-- DEV_WR_N (R270): A DevWrN reaches its claimant, which applies or accepts it and returns DevCpl. -/
  | devWrN (p : Pkt)
  /-- DEV_CPL (R169): A requester receives DevCpl for a DevWrN. -/
  | devCpl (p : Pkt)
  /-- DEV_CPLD (R169): A requester receives DevCplD with the read data. -/
  | devCpld (p : Pkt)
  /-- SMITH_REQUEST (R765): Smith serves a device request to the control region, answers coherent opcodes as R38 gives and discards other units. -/
  | smithRequest (p : Pkt) (e : EccOutcome)
  /-- DRAIN (R280): SITE receives a Drain covering the site's earlier device writes and starts their flushes. -/
  | drain (p : Pkt)
  /-- FLUSH_READ_COMPLETE (R282): A flushing read completes, advancing its Drain toward completion. -/
  | flushReadComplete (n : Nat) (site : Nat) (addr : Nat)
  /-- FLUSH_READ_TIMEOUT (R286): A flushing read reaches CPL_TO, is abandoned, reported through AER and fails its flush. -/
  | flushReadTimeout (n : Nat) (site : Nat) (addr : Nat)
  /-- PCIE_LINK_DOWN (R287): A port's link goes down or is contained by DPC, failing its flushes and discarding its posted writes. -/
  | pcieLinkDown (n : Nat) (port : Nat) (dpc : Bool)
  /-- DRAIN_COMPLETE (R285): SITE completes a Drain with Cmp STATUS OK or ERR, in arrival order. -/
  | drainComplete (site : Nat)
  /-- PCIE_CPL_TIMEOUT (R291): A DevRd or far-memory access gets no completion within CPL_TO and is answered with STATUS ERR. -/
  | pcieCplTimeout (n : Nat) (src : BitVec 8) (txn : BitVec 12)
  /-- LATE_COMPLETION (R606): A completion arrives for a tag already answered with ERR and is discarded, counted and recorded. -/
  | lateCompletion (n : Nat) (rid : Nat) (tag : Nat)
  /-- DEVICE_DMA (R272): A PCIe group or the NE sends a device's DMA request to a home once the ordering of R272 allows. -/
  | deviceDma (id : Nat)
  /-- VB_WRITE_ACCEPT (R317): The memory controller accepts a victim buffer write, and the entry becomes clean. -/
  | vbWriteAccept (h : Nat) (ecc : EccOutcome)
  /-- INVALIDATE (R331): ROP_CMD OP 1 starts a range operation that invalidates Hearth lines of the range, discarding dirty data. -/
  | invalidate
  /-- CLEAN (R331): ROP_CMD OP 2 starts a range operation that writes dirty lines of the range to memory. -/
  | clean
  /-- CLEAN_INV (R331): ROP_CMD OP 3 starts a range operation that writes back and invalidates lines of the range. -/
  | cleanInv
  /-- ROP_INV_ALL (R331): ROP_CMD OP 4 starts a write-back and invalidation of every Hearth line. -/
  | ropInvAll
  /-- ROP_SET_VISIT (R332): A slice visits its next set for the running range operation at the PACE interval. -/
  | ropSetVisit (h : Nat) (es : List (Nat×EccOutcome))
  /-- ROP_COMPLETE (R334): The range operation completes with its STATUS, DONE is set and HRTH_ROP_DONE is raised. -/
  | ropComplete
  /-- HRTH_CLEAN_DONE (R336): A cleaning slice finishes writing dirty lines and enters bypass, setting STALE_RISK. -/
  | hrthCleanDone (h : Nat) (es : List (Nat×EccOutcome))
  /-- MEM_READ (R358): A memory controller reads a line, correcting errors or returning it poisoned. -/
  | memRead (line : Nat) (groups : Nat)
  /-- MEM_WRITE (R360): A memory controller writes a whole line with fresh check bits, or with the poison mark. -/
  | memWrite (line : Nat)
  /-- SCRUB_READ (R362): Patrol scrub reads its next line, rewriting or poisoning it as needed. -/
  | scrubRead (n : Nat) (groups : Nat)
  /-- GO (R364): MC_ROWSPARE_CMD.GO starts sparing the row of MC_ROWSPARE_ADDR, or is ignored while busy. -/
  | go (n : Nat)
  /-- ROW_SPARE_DONE (R365): The row copy ends and the row is redirected to its spare, or NOSPARE is reported. -/
  | rowSpareDone (n : Nat) (bad : List Nat)
  /-- SPARE_AUTO_START (R368): Smith firmware starts channel sparing when a channel exceeds SPARE_THR corrected errors in an hour. -/
  | spareAutoStart (st : Nat) (k : Nat)
  /-- CHAN_SPARE_SWITCH (R371): The channel copy ends and the channel switches to the spare. -/
  | chanSpareSwitch (st : Nat) (bad : List Nat)
  /-- CHAN_SPARE_ABANDON (R372): The spare fails during the copy, and the channel sparing is abandoned. -/
  | chanSpareAbandon (st : Nat)
  /-- REFRESH_DUE (R378): A bank's refresh falls due and is performed, postponed into debt, forced or repaid. -/
  | refreshDue (n : Nat) (chan : Nat) (bank : Nat) (busy : Bool)
  /-- STACK_TEMP_CHANGE (R377): A stack's temperature crosses 85 or 95 C, changing tREFI or setting HOT. -/
  | stackTempChange (st : Nat) (temp : Nat)
  /-- REF_FORCED_POLL (R383): Smith firmware reads every MC_REF_FORCED every 10 ms and records increases. -/
  | refForcedPoll
  /-- FAR_MEM_RETURN (R390): A CXL device answers a far-memory read or write, with its data and Poison bit applied. -/
  | farMemReturn (line : Nat) (write : Bool) (data : LineData) (psn : Bool)
  /-- FAR_MEM_FAIL (R389): A far-memory access fails by timeout, link down, error or domain off, and is counted and recorded. -/
  | farMemFail (line : Nat) (write : Bool) (cause : Nat)
  /-- DATA_FRAME (R414): A side receives a DATA frame and accepts it in sequence, discards it, or asks for replay with RPL. -/
  | dataFrame (site : Nat) (m : Nat) (e : LinkEnd) (units : List Pkt) (w : List (List Nat))
  /-- ACK_FRAME (R406): A side receives an ACK frame and applies its ACK and credit slots. -/
  | ackFrame (site : Nat) (m : Nat) (e : LinkEnd) (w : List (List Nat))
  /-- RPL_FRAME (R415): A side receives an RPL frame and sends again every unacknowledged DATA frame after its ACK. -/
  | rplFrame (site : Nat) (m : Nat) (e : LinkEnd) (w : List (List Nat))
  /-- REPLAY_TIMEOUT (R415): The oldest unacknowledged DATA frame passes 500 ns, and the side replays from it. -/
  | replayTimeout (site : Nat) (m : Nat) (e : LinkEnd)
  /-- HEARTBEAT_SEND (R441): A side in ACTIVE that has sent no frame for 1 us sends an ACK frame. -/
  | heartbeatSend (site : Nat) (m : Nat) (e : LinkEnd)
  /-- HEARTBEAT_LOSS (R441): No good frame or TRK edge arrives within HB_TO, so the side enters RETRAIN and HB_LOSS is raised. -/
  | heartbeatLoss (site : Nat) (m : Nat) (e : LinkEnd)
  /-- ERROR_WINDOW_END (R442): The 1 ms error window ends and the lane and CRC failure counts restart. -/
  | errorWindowEnd (site : Nat) (m : Nat) (e : LinkEnd)
  /-- HELLO (R421): A side in SURVEY receives a HELLO and answers it, learning RESUME and MAPSEQ. -/
  | hello (site : Nat) (m : Nat) (e : LinkEnd) (resume : Bool) (answer : Bool) (mapSeq : Nat) (w : List (List Nat))
  /-- HELLO_REPEAT (R421): A side repeats its HELLO every 10 us until it receives the partner's. -/
  | helloRepeat (site : Nat) (m : Nat) (e : LinkEnd)
  /-- SURVEY_DONE (R420): SURVEY_DONE is received, and once exchanged in both directions the module enters CALIBRATE. -/
  | surveyDone (site : Nat) (m : Nat) (e : LinkEnd) (w : List (List Nat))
  /-- CAL_DONE (R764): CAL_DONE is received, and once both sides have calibrated the module enters MAP. -/
  | calDone (site : Nat) (m : Nat) (e : LinkEnd) (w : List (List Nat))
  /-- MAP_PROPOSE (R425): A side receives the partner's failed-lane set and computes the width and map records. -/
  | mapPropose (site : Nat) (m : Nat) (e : LinkEnd) (seq : Nat) (failed : Nat) (w : List (List Nat))
  /-- MAP_CONFIRM (R426): A matching MAP_CONFIRM applies the map and enters ACTIVE, while a mismatch returns to SURVEY. -/
  | mapConfirm (site : Nat) (m : Nat) (e : LinkEnd) (seq : Nat) (dh : Nat) (hd : Nat) (w : List (List Nat))
  /-- TRAINING_TIMEOUT (R420): SURVEY, CALIBRATE, MAP or RETRAIN exceeds its timeout, and the state machine falls back or retires. -/
  | trainingTimeout (site : Nat) (m : Nat) (e : LinkEnd)
  /-- CRED_INIT (R409): A side receives the partner's per-VC link credit grants. -/
  | credInit (site : Nat) (m : Nat) (e : LinkEnd) (grantH : List Nat) (grantD : List Nat) (w : List (List Nat))
  /-- REPAIR_REQ (R428): The transmitting side pauses DATA frames, copies the failed lane onto the spare and sends REPAIR_GO. -/
  | repairReq (site : Nat) (m : Nat) (e : LinkEnd) (seq : Nat) (rec : Nat) (lane : Nat) (w : List (List Nat))
  /-- REPAIR_GO (R428): The receiving side decodes REPAIR_GO under the new record, applies it and sends REPAIR_DONE. -/
  | repairGo (site : Nat) (m : Nat) (e : LinkEnd) (seq : Nat) (w : List (List Nat))
  /-- REPAIR_DONE (R428): The transmitting side applies the new record, ends the pause and replays. -/
  | repairDone (site : Nat) (m : Nat) (e : LinkEnd) (seq : Nat) (w : List (List Nat))
  /-- REPAIR_REQ_RESEND (R429): No REPAIR_GO has been accepted 500 ns after REPAIR_REQ, so REPAIR_REQ is sent again. -/
  | repairReqResend (site : Nat) (m : Nat) (e : LinkEnd)
  /-- REPAIR_PAUSE_TIMEOUT (R429): The repair pause reaches 2 us, and both sides enter RETRAIN. -/
  | repairPauseTimeout (site : Nat) (m : Nat) (e : LinkEnd)
  /-- MODULE_RETIRE_TIMER (R432): A module outside ACTIVE and IDLE for 12 us is retired while another module of the site is active. -/
  | moduleRetireTimer (site : Nat) (m : Nat)
  /-- RETIRE_SYNC (R433): A side receives RETIRE_SYNC and sends again the units of the retired module's unacknowledged frames. -/
  | retireSync (site : Nat) (m : Nat) (e : LinkEnd) (retired : Nat) (last : Nat) (w : List (List Nat))
  /-- RETIRE_SYNC_REPEAT (R433): A side repeats RETIRE_SYNC every 200 ns until it receives the partner's. -/
  | retireSyncRepeat (site : Nat) (m : Nat) (e : LinkEnd)
  /-- IDLE_ENTRY_START (R437): A side that has been idle past its threshold with nothing pending sends IDLE_REQ. -/
  | idleEntryStart (site : Nat) (m : Nat) (e : LinkEnd)
  /-- IDLE_REQ (R438): A side receives IDLE_REQ and answers IDLE_ACK or IDLE_NAK. -/
  | idleReq (site : Nat) (m : Nat) (e : LinkEnd) (w : List (List Nat))
  /-- IDLE_ACK (R439): The requester receives IDLE_ACK, stops CLK and its data lanes, and the module enters IDLE. -/
  | idleAck (site : Nat) (m : Nat) (e : LinkEnd) (w : List (List Nat))
  /-- IDLE_NAK (R437): The requester receives IDLE_NAK and stays ACTIVE. -/
  | idleNak (site : Nat) (m : Nat) (e : LinkEnd) (w : List (List Nat))
  /-- IDLE_TIMEOUT (R439): No IDLE answer, or no CLK stop, arrives within 200 ns, and the side stays ACTIVE. -/
  | idleTimeout (site : Nat) (m : Nat) (e : LinkEnd)
  /-- MODULE_WAKE (R440): A side drives VLD to 1 and wakes an IDLE module to ACTIVE. -/
  | moduleWake (site : Nat) (m : Nat)
  /-- RETRAIN_REQ (R442): A side receives RETRAIN_REQ and enters RETRAIN. -/
  | retrainReq (site : Nat) (m : Nat) (e : LinkEnd) (w : List (List Nat))
  /-- RETRAIN (R442): A write of LNK_CTL.RETRAIN makes the module enter RETRAIN and send RETRAIN_REQ. -/
  | retrain (site : Nat) (m : Nat)
  /-- LNK_ENABLE (R420): Smith firmware sets LNK_CTL.EN, and the module leaves RESET for SURVEY. -/
  | lnkEnable (site : Nat) (m : Nat)
  /-- FIRST_ACTIVE_TIMEOUT (R670): A module not ACTIVE 5 ms after EN goes to RETIRED. -/
  | firstActiveTimeout (site : Nat) (m : Nat)
  /-- TRAVERSE (R454): Smith firmware starts Traverse of a site by voting its domain on and enabling module 0. -/
  | traverse (site : Nat)
  /-- DATUM_REQ (R453): A die receives DATUM_REQ and answers with the requested chunk. -/
  | datumReq (site : Nat) (m : Nat) (c : Nat) (data : List Byte) (w : List (List Nat))
  /-- DATUM_DATA (R456): The hub receives a Datum chunk and, after the last, runs the Datum, vendor, signature, placement, level, core and power checks. -/
  | datumData (site : Nat) (m : Nat) (c : Nat) (data : List Byte) (registered : Bool) (w : List (List Nat))
  /-- TRAV_FENCE (R453): A die receives TRAV_FENCE with its Traverse result. -/
  | travFence (site : Nat) (m : Nat) (result : Nat) (w : List (List Nat))
  /-- CHAL (R453): A die receives CHAL and signs the nonce with DIE_KEY. -/
  | chal (site : Nat) (m : Nat) (sig : Nat) (w : List (List Nat))
  /-- CHAL_RSP (R456): The hub verifies CHAL_RSP against DIE_KEY and sends ASSIGN. -/
  | chalRsp (site : Nat) (m : Nat) (sig : Nat) (w : List (List Nat))
  /-- ASSIGN (R459): A die receives its node IDs and core numbers and echoes them in ASSIGN_ACK. -/
  | assign (site : Nat) (m : Nat) (no : Nat) (node : Nat) (core : Nat) (cores : Nat) (w : List (List Nat))
  /-- ASSIGN_ACK (R456): The hub checks ASSIGN_ACK against ASSIGN and sends NEG_OFFER. -/
  | assignAck (site : Nat) (m : Nat) (args : List Nat) (w : List (List Nat))
  /-- NEG_OFFER (R458): A die receives the offered levels and capabilities and answers NEG_ANSWER. -/
  | negOffer (site : Nat) (m : Nat) (level : Nat) (caps : Nat) (w : List (List Nat))
  /-- NEG_ANSWER (R458): The hub checks the die's chosen level and capabilities and sends NEG_COMMIT. -/
  | negAnswer (site : Nat) (m : Nat) (level : Nat) (caps : Nat) (w : List (List Nat))
  /-- NEG_COMMIT (R458): The committed level and capabilities are received and echoed, ending negotiation. -/
  | negCommit (site : Nat) (m : Nat) (e : LinkEnd) (level : Nat) (caps : Nat) (w : List (List Nat))
  /-- TRAVERSE_ANSWER_TIMEOUT (R455): A die answer exceeds its bound by more than 5 us, and Traverse ends with the step's result. -/
  | traverseAnswerTimeout (site : Nat)
  /-- TRAVERSE_ADMIT (R460): Every module has trained, and Smith firmware loads and quenches the site's Boundary configuration, then lifts the fence. -/
  | traverseAdmit (site : Nat)
  /-- DIE_UNIT (R469): A unit from a die passes Boundary checks in order before it enters the fabric. -/
  | dieUnit (site : Nat) (m : Nat) (p : Pkt)
  /-- METER_RELEASE (R472): A token-bucket meter accrues tokens, and a held unit proceeds. -/
  | meterRelease (site : Nat) (m : Nat) (vc : Nat)
  /-- SNOOP_LATE_TIMEOUT (R473): A snoop or XlatInvFwd to a die passes 2 us or 10 us without an answer, and is recorded as SNOOP_LATE or XLAT_LATE. -/
  | snoopLateTimeout (site : Nat)
  /-- SINK_TIMEOUT (R473): A sink-channel unit for a die waits 100 us without link credit, and is recorded as kind SINK. -/
  | sinkTimeout (site : Nat) (m : Nat)
  /-- DEV_CPL_TIMEOUT (R468): A Class D die does not complete a DevRd or DevWrN within DEV_CPL_US, and LNK answers STATUS ERR. -/
  | devCplTimeout (site : Nat) (src : BitVec 8) (txn : BitVec 12)
  /-- XLAT_INV (R504): SITE receives an XlatInv and forwards an XlatInvFwd to every target, or answers ERR. -/
  | xlatInv (p : Pkt)
  /-- XLAT_SYNC (R507): SITE receives an XlatSync and, after earlier XlatInvs, broadcasts a SYNC command. -/
  | xlatSync (p : Pkt)
  /-- XLAT_INV_FWD (R505): A target executes the forwarded invalidation or SYNC and answers XlatAck. -/
  | xlatInvFwd (p : Pkt)
  /-- XLAT_ACK (R506): SITE counts a target's XlatAck and, when all have answered, sends the final XlatAck or Cmp. -/
  | xlatAck (p : Pkt)
  /-- XLAT_TARGET_TIMEOUT (R506): A die target has not answered 20 us after its XlatInvFwd and is counted as STATUS ERR. -/
  | xlatTargetTimeout (src : BitVec 8) (txn : BitVec 12) (target : Nat)
  /-- DMA_TRANSLATE (R482): The IXU receives a DMA address and translates it through its caches or starts a walk. -/
  | dmaTranslate (who : Nat) (rid : Nat) (va : Nat) (acc : Nat) (ro : Bool) (data : LineData) (mask : ByteMask) (op : Nat) (translated : Bool) (ep : Bool)
  /-- WALK_READ_RETURN (R488): A walk read of a binding record or table entry returns, and the walk continues, faults or completes. -/
  | walkReadReturn (p : Pkt)
  /-- AD_UPDATE_RETURN (R492): The FarAtomic of an A or D update returns, and the walk proceeds, restarts or faults. -/
  | adUpdateReturn (p : Pkt)
  /-- FAULT_RECORD_CMP (R495): The Cmp of a fault record write arrives, FQ_TAIL advances and IXU_FAULT is raised. -/
  | faultRecordCmp (p : Pkt)
  /-- CQ_FETCH (R501): The IXU reads the command at CQ_HEAD and executes it, or halts the queue. -/
  | cqFetch (p : Pkt)
  /-- INV_SPACE (R500): The IXU removes entries of a SPACE and VMID from its caches and forwards the command. -/
  | invSpace
  /-- INV_VA_RANGE (R500): The IXU removes leaf entries of a range and forwards the command. -/
  | invVaRange
  /-- INV_VMID (R500): The IXU removes every entry of a VMID and forwards the command. -/
  | invVmid
  /-- INV_WALK (R500): The IXU removes leaf and walk-cache entries of a range and forwards the command. -/
  | invWalk
  /-- INV_BIND (R500): The IXU removes a stream's binding record and SOFT-mode entries. -/
  | invBind
  /-- IXU_INV_ALL (R500): The IXU removes every cached translation and forwards the command. -/
  | ixuInvAll
  /-- IXU_SYNC (R503): The IXU completes a SYNC once earlier commands and DMAs are done, then optionally writes DATA and raises IXU_CQ_SYNC. -/
  | ixuSync
  /-- RESUME (R502): A write of CQ_CMD.RESUME clears CQ_HALT and executes the halted command again. -/
  | resume
  /-- CQ_TAIL_WRITE (R501): A write of CQ_TAIL makes new commands available for execution. -/
  | cqTailWrite (v : Nat)
  /-- ATS_TRANSLATION_REQUEST (R513): The IXU answers an ATS Translation Request with the leaf's PA and permissions, or with R = W = 0. -/
  | atsTranslationRequest (who : Nat) (rid : Nat) (va : Nat)
  /-- ATS_INV_COMPLETE (R514): An ATS Invalidate Completion arrives for an outstanding invalidation. -/
  | atsInvComplete (id : Nat)
  /-- ATS_INV_TIMEOUT (R514): An Invalidate Completion is missing after TO_MS, so the stream is blocked and the SYNC answers ERR. -/
  | atsInvTimeout (id : Nat)
  /-- SOFT_MISS_TIMEOUT (R518): A stalled SOFT-mode DMA finds no loaded entry within 1 ms and faults with MISS_TIMEOUT. -/
  | softMissTimeout (id : Nat)
  /-- LOAD (R519): LOAD_CMD.LOAD installs a software-loaded entry, releasing matching stalled DMAs, or sets FULL. -/
  | load
  /-- LOAD_INV_ALL (R519): LOAD_CMD.INV_ALL removes every loaded entry. -/
  | loadInvAll
  /-- RX_FRAME (R548): The NE takes a received or raw-sent frame and drops it, hands it to Chain receive, or looks it up in the flow table. -/
  | rxFrame (i : Nat) (fr : Frame) (fcsOk : Bool) (fecOk : Bool) (corr : Nat) (buf : EccOutcome)
  /-- CHAIN_DATA (R569): The responder receives a DATA packet, checks it and performs its SEND, WRITE, READ or atomic. -/
  | chainData (id : Nat)
  /-- CHAIN_ACK (R558): The sender receives an ACK, releases PSNs, retransmits gaps and updates its rate. -/
  | chainAck (id : Nat)
  /-- READ_RESP (R572): The requester places READ_RESP data and completes the READ when all is placed. -/
  | readResp (id : Nat)
  /-- ATOMIC_RESP (R572): The requester receives the value before the atomic operation. -/
  | atomicResp (id : Nat)
  /-- CHAIN_NAK (R559): The sender receives a NAK and completes the operation with its reason, or schedules an RNR retry. -/
  | chainNak (id : Nat)
  /-- CHAIN_RTO (R558): The retransmission timer expires, and the oldest PSN is sent again or the connection enters ERROR. -/
  | chainRto (c : Nat)
  /-- ACK_TIMER (R557): 2 us after the oldest unacknowledged packet, the receiver sends an ACK. -/
  | ackTimer (c : Nat)
  /-- RNR_RETRY (R559): After RNR_DELAY, the sender sends the RNR-refused PSN again. -/
  | rnrRetry (c : Nat) (psn : Nat)
  /-- CHAIN_SEND (R560): The pacer sends the next Chain packet of a connection at its rate. -/
  | chainSend (c : Nat) (buf : EccOutcome)
  /-- CTX_FILL (R567): A context fill from the in-memory table completes, and waiting packets proceed. -/
  | ctxFill (c : Nat)
  /-- ALIGNMENT_LOST (R524): An interface's PCS loses alignment and starts the LD_HOLD timer. -/
  | alignmentLost (i : Nat)
  /-- INTERFACE_DOWN (R524): Alignment stays lost for LD_HOLD, and the interface is reported down. -/
  | interfaceDown (i : Nat)
  /-- INTERFACE_UP (R524): An interface's PCS gains alignment, and the interface comes up. -/
  | interfaceUp (i : Nat)
  /-- SQ_PI (R593): A doorbell write of SQ_PI posts send descriptors, or puts the queue pair in error. -/
  | sqPi (f : Nat) (q : Nat) (v : Nat)
  /-- RQ_PI (R593): A doorbell write of RQ_PI posts receive descriptors. -/
  | rqPi (f : Nat) (q : Nat) (v : Nat)
  /-- CQ_CI (R596): A doorbell write of CQ_CI frees CQ entries and arms the vector. -/
  | cqCi (f : Nat) (q : Nat) (v : Nat)
  /-- DESCRIPTOR_FETCH (R591): A fetched send descriptor returns and its operation starts. -/
  | descriptorFetch (p : Pkt)
  /-- NOP (R585): A NOP descriptor does nothing but complete. -/
  | nop (f : Nat) (q : Nat)
  /-- SEND (R585): A SEND descriptor starts a message send on its context. -/
  | send (f : Nat) (q : Nat)
  /-- WRITE (R585): A WRITE descriptor starts a one-sided write into a remote window. -/
  | write (f : Nat) (q : Nat)
  /-- READ (R585): A READ descriptor starts a one-sided read from a remote window. -/
  | read (f : Nat) (q : Nat)
  /-- FADD (R585): A FADD descriptor starts a remote fetch-and-add. -/
  | fadd (f : Nat) (q : Nat)
  /-- CSWAP (R585): A CSWAP descriptor starts a remote compare-and-swap. -/
  | cswap (f : Nat) (q : Nat)
  /-- RAW (R584): A RAW descriptor sends an Ethernet frame through the flow table. -/
  | raw (f : Nat) (q : Nat)
  /-- COMPLETION_WRITE (R589): The NE writes a completion entry with the pass's PHASE and sends the armed MSI-X message. -/
  | completionWrite (f : Nat) (q : Nat)
  /-- AQ_PI (R598): A write of AQ_PI posts admin commands for execution in ring order. -/
  | aqPi (f : Nat) (v : Nat)
  /-- AQ_BASE_WRITE (R610): A write of AQ_BASE or ACQ_BASE resets the admin indices, or is discarded while commands are pending. -/
  | aqBaseWrite (f : Nat) (acq : Bool) (hi : Bool) (v : Nat)
  /-- QP_CREATE (R599): The admin command creates a queue pair, or refuses with BADARG or BUSY. -/
  | qpCreate (f : Nat)
  /-- QP_DESTROY (R599): The admin command destroys a queue pair, flushing its descriptors. -/
  | qpDestroy (f : Nat)
  /-- CTX_CREATE (R565): The admin command creates a context in INIT from its parameter block. -/
  | ctxCreate (f : Nat)
  /-- CTX_ACTIVATE (R565): The admin command moves a context from INIT to ACTIVE. -/
  | ctxActivate (f : Nat)
  /-- CTX_MODIFY (R564): The admin command changes DSCP, INIT_RATE or the inactive key, and can rotate the key phase. -/
  | ctxModify (f : Nat)
  /-- CTX_CLOSE (R565): The admin command moves an ACTIVE context to DRAIN. -/
  | ctxClose (f : Nat)
  /-- CTX_DESTROY (R565): The admin command frees a context in INIT or ERROR and advances its GEN. -/
  | ctxDestroy (f : Nat)
  /-- CTX_QUERY (R599): The admin command writes a context's state, PSNs and rate to memory. -/
  | ctxQuery (f : Nat)
  /-- WIN_SET (R599): The admin command writes a memory window entry owned by the issuing function. -/
  | winSet (f : Nat)
  /-- WIN_CLEAR (R599): The admin command clears a window's VALID and invalidates it. -/
  | winClear (f : Nat)
  /-- VF_CONFIG (R600): The admin command provisions a VF's resources, or is refused. -/
  | vfConfig (f : Nat)
  /-- CTX_DRAIN_DONE (R565): A DRAIN context completes every operation and becomes FREE with GEN advanced. -/
  | ctxDrainDone (c : Nat)
  /-- WINDOW (R571): NE_INV kind WINDOW removes a cached window once operations checked against it are performed. -/
  | window (index : Nat)
  /-- FLOW_BUCKET (R551): NE_INV kind FLOW_BUCKET removes the cached entries of one flow bucket. -/
  | flowBucket (index : Nat)
  /-- FLOW_ALL (R551): NE_INV kind FLOW_ALL removes every cached flow entry. -/
  | flowAll
  /-- NE_INV_COMPLETE (R571): The NE invalidation completes and DONE is set. -/
  | neInvComplete
  /-- FLR_START (R602): Initiate Function Level Reset starts an FLR that advances FGEN and ends the function's contexts. -/
  | flrStart (f : Nat)
  /-- FLR_COMPLETE (R602): The FLR completes once no DMA is in flight, and the function returns to reset state. -/
  | flrComplete (f : Nat)
  /-- VF_ENABLE (R601): A write of VF Enable makes VFs appear with their configuration, or resets and removes them. -/
  | vfEnable (on : Bool)
  /-- CONFIG_WRITE (R578): A configuration write changes a function's enables or power state, or is discarded for an absent function. -/
  | configWrite (rid : Nat) (off : Nat) (data : Nat) (mask : Nat)
  /-- NE_DMA_RESPONSE (R605): An NE DMA response arrives and is used, or discarded as stale by FGEN. -/
  | neDmaResponse (p : Pkt)
  /-- NE_DMA_TIMEOUT (R607): An NE device access reaches DMA_TO and fails with a record. -/
  | neDmaTimeout (id : Nat)
  /-- EMBER_INSERT (R535): EMBER_PRESENT_N has been asserted for 100 ms, and Smith firmware reads and checks the ROM and issues the challenge. -/
  | emberInsert (e : Nat) (rom : List Byte) (ack : Bool) (registered : Bool)
  /-- EMBER_CHALLENGE_DONE (R535): The challenge completes, and RESULT is set to VERIFIED or a failure code. -/
  | emberChallengeDone (e : Nat) (sig : List Byte) (ready : Bool)
  /-- EMBER_REMOVE (R548): Raw EMBER_PRESENT_N deasserts, the hardware gate drives LASER_EN low and the removal is treated as a fault. -/
  | emberRemove (e : Nat)
  /-- EMBER_FAULT (R540): Filtered EMBER_FAULT_N asserts, every channel of the module is at fault and its lanes fail over. -/
  | emberFault (e : Nat)
  /-- EMBER_FAULT_CLEAR (R645): Filtered EMBER_FAULT_N deasserts, and healthy channels return to standby. -/
  | emberFaultClear (e : Nat) (chFault : Nat)
  /-- EMBER_POLL (R538): Smith firmware reads each verified module's status map every 10 ms and checks life and end of life. -/
  | emberPoll (e : Nat) (ready : Bool) (fault : Bool) (chFault : Nat) (bias : List Nat) (power : List Nat) (hours : List Nat)
  /-- LANE_SWITCH (R530): The new channel reports CH_NOMINAL, and the lane selector switches while the old channel goes to standby or off. -/
  | laneSwitch (o : Nat) (k : Nat)
  /-- LANE_APPLY (R529): A write of LANE_APPLY moves lanes back to their preferred module when it is healthy. -/
  | laneApply (o : Nat) (mask : Nat)
  /-- VOTE_WRITE (R615): A write to PWR.VOTE changes the permitted slots and recomputes each domain's target. -/
  | voteWrite (d : Nat) (data : Nat) (host : Bool)
  /-- DOMAIN_DROP (R617): A domain's target becomes OFF, and it enters DRAIN. -/
  | domainDrop (d : Nat)
  /-- DOMAIN_DRAIN_DONE (R617): A domain's drain work ends, or its wait expires, and it enters ISOLATE then COMMIT. -/
  | domainDrainDone (d : Nat)
  /-- DOMAIN_DRAIN_EXPIRE (R296): A PCIe or NE drain wait expires, and held writes are discarded, counted and recorded. -/
  | domainDrainExpire (d : Nat)
  /-- DOMAIN_COMMIT_END (R617): The COMMIT window ends, and the domain's supply is switched off. -/
  | domainCommitEnd (d : Nat)
  /-- DOMAIN_RISE (R619): A domain's target becomes ON, and the supply, clocks and reset are released. -/
  | domainRise (d : Nat)
  /-- DOMAIN_RISE_DONE (R619): The rise completes, and the domain is ON with registers under R67. -/
  | domainRiseDone (d : Nat)
  /-- WAKE_N_ASSERT (R620): Filtered WAKE_N asserts and wakes the package from Banked. -/
  | wakeNAssert
  /-- PCIE_WAKE_ASSERT (R620): Filtered PCIE_WAKE_N asserts, sets slot 9 of its group's domain and leaves Banked. -/
  | pcieWakeAssert (n : Nat)
  /-- WAKE_MATCH (R620): A port receives a wake frame and sets slot 9 of the NE core domain. -/
  | wakeMatch (n : Nat) (fr : Frame)
  /-- TIME_CMP (R620): TIME reaches CMP: HIT is set, TIME_CMP is raised and the optional edge wake occurs. -/
  | timeCmp
  /-- WAKE_STUCK (R644): Filtered WAKE_N has been asserted for 1 s, and WAKE_STUCK is set. -/
  | wakeStuck
  /-- BANKED_ENTER (R624): The mailbox command starts Banked entry by cleaning memory, or is refused. -/
  | bankedEnter (bmc : Bool) (tag : Nat) (args : List Nat)
  /-- BANKED_CLEAN_DONE (R625): The CLEAN ends, and the memory controllers enter self-refresh. -/
  | bankedCleanDone
  /-- SELF_REFRESH_DONE (R384): The controllers have completed writes, repaid debt and entered self-refresh, and the commit window starts. -/
  | selfRefreshDone
  /-- BANKED_COMMIT_END (R625): The commit window ends, clocks stop and STATE reads BANKED. -/
  | bankedCommitEnd
  /-- BANKED_EXIT_DONE (R627): Exit completes within 40 us: STATE returns to RUN and held die units are released. -/
  | bankedExitDone
  /-- TIME_SYNC (R634): LNK sends TIME_SYNC every SYNC_MS, and the die aligns its timebase. -/
  | timeSync (site : Nat) (m : Nat) (t : Nat) (d : Nat) (w : List (List Nat))
  /-- POWER_PERIOD (R638): A power control period measures package power and adjusts FCEIL, then sends FMAX. -/
  | powerPeriod (energy : Nat) (hot : Bool)
  /-- PWR_SET (R636): A die receives PWR_SET, applies FMAX and IMAX within 10 us and answers PWR_ACK. -/
  | pwrSet (site : Nat) (m : Nat) (seq : Nat) (fmax : Nat) (imax : Nat) (w : List (List Nat))
  /-- PWR_ACK (R637): Smith firmware accepts a PWR_ACK for its PWR_SET. -/
  | pwrAck (site : Nat) (m : Nat) (seq : Nat) (w : List (List Nat))
  /-- PWR_ACK_TIMEOUT (R637): No PWR_ACK arrives within 10 us: PWRSET_LATE is set and the frame is resent. -/
  | pwrAckTimeout (site : Nat)
  /-- THROTTLE_ASSERT (R642): Filtered THROTTLE_N asserts, and the PWR block sends every site FMAX at most FLOOR. -/
  | throttleAssert
  /-- THROTTLE_DEASSERT (R642): Filtered THROTTLE_N deasserts, and the PWR block sends FCEIL. -/
  | throttleDeassert
  /-- THROTTLE_LONG (R643): Filtered THROTTLE_N has been asserted for 1 s, and THR_LONG is set. -/
  | throttleLong
  /-- PING (R664): The mailbox command returns SMITH_VER. -/
  | ping (bmc : Bool) (tag : Nat) (args : List Nat)
  /-- MB_UNKNOWN_CMD (R664): A mailbox command with an unlisted code, or from a disallowed client, ends with BADCMD. -/
  | mbUnknownCmd (bmc : Bool) (code : Nat) (tag : Nat) (args : List Nat)
  /-- PROFILE_NEXT (R44): The command selects a profile for the next warm reset. -/
  | profileNext (bmc : Bool) (tag : Nat) (args : List Nat)
  /-- PROFILE_LIVE (R48): The command changes power limit, frequency cap and fabric weights with one quench of groups 0 and 1. -/
  | profileLive (bmc : Bool) (tag : Nat) (args : List Nat)
  /-- PROFILE_WRITE (R654): The command validates a profile record and writes both flash copies. -/
  | profileWrite (bmc : Bool) (tag : Nat) (args : List Nat)
  /-- WARM_RESET (R660): The command starts a warm reset. -/
  | warmReset (bmc : Bool) (tag : Nat) (args : List Nat)
  /-- POWER_OFF (R629): The command takes the package to Off. -/
  | powerOff (bmc : Bool) (tag : Nat) (args : List Nat)
  /-- SITE_OFFLINE (R667): The command starts taking a site offline with the quiesce step. -/
  | siteOffline (bmc : Bool) (tag : Nat) (args : List Nat)
  /-- SITE_QUIESCE_DONE (R667): The site has no outstanding requests or owed completions, and SITE runs a Drain for it. -/
  | siteQuiesceDone
  /-- SITE_DRAIN_DONE (R667): The site's Drain completes, and every home starts the recall walk. -/
  | siteDrainDone
  /-- RECALL_VISIT (R667): The recall walk visits its next set and sends SnpBack to the site for each entry naming it. -/
  | recallVisit (h : Nat)
  /-- RECALL_DONE (R667): Every slice has visited every set, and the site is fenced, powered off and published offline. -/
  | recallDone
  /-- SITE_ONLINE (R669): The command traverses a site again and reloads Boundary defaults for a different die. -/
  | siteOnline (bmc : Bool) (tag : Nat) (args : List Nat)
  /-- MODULE_RETIRE (R671): The command retires a module and applies the alternate route set. -/
  | moduleRetire (bmc : Bool) (tag : Nat) (args : List Nat)
  /-- ALTERNATE_ROUTE_APPLY (R671): After a spontaneous retirement, Smith firmware applies the alternate routes and weights. -/
  | alternateRouteApply (site : Nat) (m : Nat)
  /-- MODULE_REPAIR (R671): The command clears LNK_RXFAIL, re-enables the module and restores the primary routes. -/
  | moduleRepair (bmc : Bool) (tag : Nat) (args : List Nat)
  /-- ROUTE_SWAP (R673): The command applies host software's pending route tables through a fabric quiesce. -/
  | routeSwap (bmc : Bool) (tag : Nat) (args : List Nat)
  /-- ROUTE_QUIESCE_DONE (R672): The fabric is empty, so group 1 is quenched and held injections are released. -/
  | routeQuiesceDone
  /-- ROUTE_QUIESCE_TIMEOUT (R672): The fabric is not empty after 20 us, so the hold is released and the command ends TIMEOUT. -/
  | routeQuiesceTimeout
  /-- FW_STAGE (R674): The command reads, verifies and writes a new Smith image into the idle slot. -/
  | fwStage (bmc : Bool) (tag : Nat) (args : List Nat)
  /-- FW_ACTIVATE (R674): The command marks the staged image as a trial and restarts Smith firmware from it. -/
  | fwActivate (bmc : Bool) (tag : Nat) (args : List Nat)
  /-- FW_TRIAL_TIMEOUT (R675): The new image has not cleared TRIAL within 2 ms, and the previous image is restored. -/
  | fwTrialTimeout
  /-- SMITH_RESTART (R647): The command restarts the Smith processor. -/
  | smithRestart (bmc : Bool) (tag : Nat) (args : List Nat)
  /-- CHAN_SPARE (R370): The command starts channel sparing of a stack's channel. -/
  | chanSpare (bmc : Bool) (tag : Nat) (args : List Nat)
  /-- HEARTH_OFFLINE (R343): The command cleans and isolates a Hearth bank group, then drops its domain. -/
  | hearthOffline (bmc : Bool) (tag : Nat) (args : List Nat)
  /-- HEARTH_ONLINE (R344): The command votes a Hearth bank group on, and its slices start empty. -/
  | hearthOnline (bmc : Bool) (tag : Nat) (args : List Nat)
  /-- PORT_MODE (R526): The command writes a port's MODE and quenches group 8. -/
  | portMode (bmc : Bool) (tag : Nat) (args : List Nat)
  /-- EMBER_RELEASE (R541): The command moves every lane of a module to its partner and turns the module dark. -/
  | emberRelease (bmc : Bool) (tag : Nat) (args : List Nat)
  /-- VOTE (R664): The BMC command sets one of slots 4 to 7 of a domain's vote. -/
  | vote (bmc : Bool) (tag : Nat) (args : List Nat)
  /-- BMC_HEARTBEAT (R676): Smith firmware sends the BMC an In-Band Interrupt every 100 ms with the package state. -/
  | bmcHeartbeat
  /-- PLAT_UPDATE (R767): Smith firmware updates the package Plat within 1 ms of a change, bracketing it with PLAT_SEQ. -/
  | platUpdate
  /-- EVENT_FIRE (R684): An event source fires: a copy goes to Smith firmware, EVT_PEND is set and a message is sent if eligible. -/
  | eventFire (n : Nat)
  /-- STORM_END (R694): The hold-off ends: the storm bit clears and a STORM_END record is written. -/
  | stormEnd (n : Nat)
  /-- EVT_SW_TRIG (R682): A write of EVT_SW_TRIG fires a software source, or sets ACC_ERR below 1,280. -/
  | evtSwTrig (source : Nat)
  /-- EVT_MASK_WRITE (R687): A mask, route or pending change makes a pending bit eligible, and a message is sent for the group. -/
  | evtMaskWrite (off : Nat) (data : Nat)
  /-- INTERRUPT_MESSAGE (R689): LNK consumes an interrupt message for a core and queues it for delivery as INTR. -/
  | interruptMessage (p : Pkt)
  /-- INTR (R691): A die receives INTR, delivers the vector to its core once and answers INTR_ACK. -/
  | intr (site : Nat) (m : Nat) (seq : Nat) (core : Nat) (vector : Nat) (w : List (List Nat))
  /-- INTR_ACK (R692): LNK receives INTR_ACK and retires the message. -/
  | intrAck (site : Nat) (m : Nat) (seq : Nat) (w : List (List Nat))
  /-- INTR_RESEND (R692): An unacknowledged INTR is sent again every 1 us. -/
  | intrResend (site : Nat)
  /-- INTR_TIMEOUT (R692): A message unacknowledged 20 us after consumption is discarded under R690. -/
  | intrTimeout (site : Nat)
  /-- FB_RECORD (R700): The capture stage opens a record, writes its words and closes it, or drops it whole when no bank has room. -/
  | fbRecord (cut : Option Nat)
  /-- FB_BANK_HANDOFF (R701): The capture stage hands its bank to the drain side between records. -/
  | fbBankHandoff (es : List (Nat×EccOutcome))
  /-- FB_TRUNC (R704): An open record receives no word for 10 us and is closed truncated. -/
  | fbTrunc
  /-- FB_POP (R706): A read of FB_DATA3 samples and pops the drain FIFO head, or sets UNDERRUN when empty. -/
  | fbPop (wide : Bool) (e : EccOutcome)
  /-- FB_RING_WRITE (R708): With DMA on, the Field Book writes the head drain word into the ring while it has room. -/
  | fbRingWrite (e : EccOutcome)
  /-- FB_RING_CMP (R710): A ring write completes and TAIL advances, or RING_ERR stops the DMA. -/
  | fbRingCmp (p : Pkt)
  /-- FB_DATA_TIMER (R709): 100 us after the first unreported ring entry, FB_DATA_EV fires. -/
  | fbDataTimer
  /-- FREEZE (R718): PMU_CTL.FREEZE changing from 0 to 1 freezes every counter at edge E. -/
  | freeze (snap : Bool) (clear : Bool) (dies : Bool)
  /-- UNFREEZE (R718): PMU_CTL.FREEZE changing from 1 to 0 resumes counting after edge E. -/
  | unfreeze (snap : Bool) (clear : Bool) (dies : Bool)
  /-- SNAP (R718): PMU_CTL.SNAP copies every counter into PMC_SNAP at edge E. -/
  | snap (clear : Bool) (dies : Bool)
  /-- CLEAR (R718): PMU_CTL.CLEAR zeroes every counter and PMC_OVF at edge E. -/
  | clear (snap : Bool) (dies : Bool)
  /-- PMU_EDGE (R721): TIME reaches T, and the frozen, snapshot or clear actions take effect on edge E. -/
  | pmuEdge
  /-- PMU (R722): A die receives a PMU frame and applies its actions at T, then answers PMU_ACK. -/
  | pmu (site : Nat) (m : Nat) (seq : Nat) (acts : Nat) (t : Nat) (w : List (List Nat))
  /-- PMU_ACK (R723): The hub receives PMU_ACK and notes a late die in PMU_LATE. -/
  | pmuAck (site : Nat) (m : Nat) (seq : Nat) (late : Bool) (w : List (List Nat))
  /-- PMU_ACK_TIMEOUT (R723): A site has not answered by T + 10 us, and its PMU_LATE bit is set. -/
  | pmuAckTimeout (site : Nat)
  /-- PMC_CNT_WRITE (R717): A write to PMC_CNT sets the counter, discarding that edge's increment. -/
  | pmcCntWrite (page : Nat) (i : Nat) (hi : Bool) (v : Nat)
  /-- PKG_RESET_DEASSERT (R661): Filtered PKG_RESET_N deasserts and a warm reset held after the hub reset continues with profile application and start-up. -/
  | pkgResetDeassert
  /-- CLK_LOST (R442): A receiver loses CLK, or sees VLD or TRK depart from R403 for 64 consecutive UI, and the module enters RETRAIN. -/
  | clkLost (site : Nat) (m : Nat) (e : LinkEnd) (clk : Bool) (busy : List Bool) (vld : List Bool) (trk : List Bool) (phyReset : Bool)
  /-- CALIBRATION_COMPLETE (R764): A side finishes calibrating every lane of its receive direction, sends CAL_DONE, and enters MAP if CAL_DONE was already received, or RETIRED if CLK, VLD or TRK is unusable. -/
  | calibrationComplete (site : Nat) (m : Nat) (e : LinkEnd) (failed : Nat) (clkOk : Bool) (delay : Nat)
  /-- CLK_STOP_SEEN (R439): The answering side of an IDLE handshake sees CLK stop, stops its own CLK and data lanes and enters IDLE. -/
  | clkStopSeen (site : Nat) (m : Nat) (e : LinkEnd)
  /-- WAKE_N_DEASSERT (R644): Filtered WAKE_N deasserts, ending its level wake, clearing PWR_STAT.WAKE and stopping the 1 s stuck count. -/
  | wakeNDeassert
  /-- PCIE_WAKE_DEASSERT (R622): Filtered PCIE_WAKE_N of a group deasserts, and the level wake stops holding slot 9 of that group's domain. -/
  | pcieWakeDeassert (n : Nat)
  /-- RAW_FALLING_EDGE (R641): A raw falling edge on THROTTLE_N, WAKE_N, PCIE_WAKE_N or EMBER_FAULT_N is counted in THR_EDGES or PIN_EDGES and advances the pin filter. -/
  | rawFallingEdge (i : Nat)
  /-- EMBER_PRESENT_ASSERT (R535): Raw EMBER_PRESENT_N asserts, EMB_STAT.PRESENT is set, and the 100 ms insertion count starts. -/
  | emberPresentAssert (e : Nat)
  /-- PCIE_LINK_UP (R612): Link training of a PCIe port completes and the link comes up, raising LINK_UP. -/
  | pcieLinkUp (n : Nat) (port : Nat)
  /-- STORM_WINDOW_END (R693): An event source's storm-control window of WINDOW ends without a storm, and its firing count restarts. -/
  | stormWindowEnd (n : Nat)
  /-- SILENT_DROP (R149): A Class F die drops a line held in S to I without any message. -/
  | silentDrop (site : Nat) (line : Nat)
  /-- DIE_WRITE (R149): A die writes a line held in E or M, and the first such write makes an E line M without any message. -/
  | dieWrite (site : Nat) (line : Nat) (w : Store)
  /-- DEVICE_COMPLETION (R273): A PCIe device returns a completion for a DevRd or DevWrN, and the group sends DevCplD or DevCpl to the requester. -/
  | deviceCompletion (n : Nat) (src : BitVec 8) (txn : BitVec 12) (data : LineData) (ok : Bool)
  /-- START_RECEIVED (R657): The boot die receives the START frame, and a Qorsy C32 starts core 0 at the start PA. -/
  | startReceived (site : Nat) (m : Nat) (pa : Nat) (w : List (List Nat))
  /-- TRK_BEACON (R440): In IDLE, each side toggles TRK once every 1 us as a beacon for the partner's monitor. -/
  | trkBeacon (site : Nat) (m : Nat) (e : LinkEnd)
  /-- SPARE_FAILED (R442): An unused spare lane reaches LANE_THR errors in its PRBS15 pattern within one window and is marked failed. -/
  | spareFailed (site : Nat) (m : Nat) (e : LinkEnd) (k : Nat) (seen : List Bool)
  /-- COUNTER_WRAP (R716): A counting increment carries a counter past 0xFFFF_FFFF_FFFF; the counter keeps the low 48 bits and sets its PMC_OVF bit. -/
  | counterWrap (page : Nat) (i : Nat) (q : Nat)
  /-- BMC_MB_STAT_READ (R663): The BMC's private I3C read of MB_STAT returns, once, STATUS BUSY for a BMC command refused while Smith was busy. -/
  | bmcMbStatRead
  deriving DecidableEq, Repr

end Sys2Proof
end

