-- ==== Sys2Proof/Decode.lean ====
section
/-! DEFINITION. Decoding of table words.  No row of the table of operations gives a command any bits, so no word spells
one. -/

namespace Sys2Proof

/-- The command a word spells by the table's bits: the table gives none. -/
def decodeTableWord (_nbits _w : Nat) : Option Instr := none

end Sys2Proof
end

