-- ==== Sys2Proof/Config.lean ====
section
/-! DEFINITION. What an implementation fixes and the spec does not give, as constants without a body: the
fabric's topology and the Beymos route and weight sets, the cryptographic checks of the boot, die and Ember
images, and the free values (values the spec leaves undefined, drawn by a counter in State). -/

namespace Sys2Proof.Config

open Sys2Proof.Machine

/-- KIND of a router port (RTR_PORT, R106): 0 unconnected, 1 router, 2 agent, 3 odd-VC die-link port. -/
opaque portKind : Nat → Nat → BitVec 2
/-- PEER of a router port: the peer router, or the agent's node ID. -/
opaque portPeer : Nat → Nat → BitVec 8
/-- PEER_PORT of a router port. -/
opaque portPeerPort : Nat → Nat → BitVec 4
/-- Port of a router that leads to its parent in the fabric's spanning tree (R106). -/
opaque rtrParentPort : Nat → BitVec 4
/-- Router and port at which a node attaches; a die-link module's even VCs (R105). -/
opaque attachRouter : Nat → BitVec 7
opaque attachPort : Nat → BitVec 4
/-- The Beymos-supplied primary route set (R128): ROUTE from source to destination. -/
opaque primaryRoute : Nat → Nat → BitVec 40
/-- The precomputed alternate route set for site and retired module (R128). -/
opaque alternateRoute : Nat → Nat → Nat → Nat → BitVec 40
/-- A 32-bit free value: `freeWord n` is the n-th one drawn. -/
opaque freeWord : Nat → BitVec 32

/-- What a SECDED check makes of three or more wrong bits of one code word, which R113 and R114 leave open: 0 it finds none, 1 it finds
one bit wrong and changes bit `secdedBit`, else it finds the word uncorrectable. -/
opaque secdedMany : List Nat → BitVec 2
opaque secdedBit : List Nat → Nat

/-- Bytes that a message does not carry: those of its data unit whose mask bit is 0 (R112), where the receiver takes the whole line. -/
opaque freeBytes : Nat → BitVec 512

/-- The bytes a line found uncorrectable is returned with (R359): the spec gives no value. -/
opaque freeLine : Nat → BitVec 512

/-- What becomes of an error in three or more lane groups of a memory line (R357: it may go undetected), by line and draw: bits 1:0 are 0
undetected, 1 miscorrected, else detected; bit 2: the poison mark is read wrong (log 145). -/
opaque eccMany : Nat → Nat → BitVec 3

/-- Rate of a stack's channel copy, in steps of 0.1 GB/s above 0.1 (R370: at most 12.8 GB/s; log 16). -/
opaque spareRate : Nat → BitVec 7

/-- A port (group, port) of PCIE0 or PCIE1 has a CXL Type 3 device (R386, R392): the board says so. -/
opaque fmPort : Nat → Nat → Bool

/-- The PCIe group and port whose windows claim an address of the PCIe and NE MMIO range (R36): the PCI configuration
space that programs them is the PCI specification's, not the spec's. Port of a group for an address it claims. -/
opaque pcieClaim : Nat → Option Nat
opaque pciePort : Nat → Nat → Nat
/-- The port of a group behind which a requester ID stands: the PCI bus numbers that software gives say so. -/
opaque ridPort : Nat → Nat → Nat

/-- Contents of boot flash and of the component registry's numbers that the spec names and does not give: the MAC address of an
interface (R581), the Vendor ID in a function's configuration space (R577). -/
opaque portMac : Nat → BitVec 48
opaque neVendor : BitVec 16

/-- Whether the image bytes that FW_STAGE reads carry a good signature and a security version not below the fused minimum (R652), and
the version they name. -/
opaque imageOk : List Byte → Bool
opaque imageVer : List Byte → BitVec 16
/-- The registry root key and the revocation list that an image carries (R652). -/
opaque imageTrust : List Byte → Trust

end Sys2Proof.Config
end

