-- ==== Sys2Proof/Machine/RegMap.lean ====
section
/-! DEFINITION. The register tables of the spec: for every block, each register's page offset,
its repetition, and each field's bit positions, access type (R68), retention (R69) and reset
value (R75).  `Reg.X` is the page offset of register X, `Fld.X_F` the place of its field F.
The generator of this table read the register tables of spec/02 to spec/18. -/

namespace Sys2Proof.Machine

/-- Access types of register fields (R68); `w1c` is every status bit (R70). -/
inductive Acc where
  | rw | ro | wo | rwq | w1c
  deriving DecidableEq, Repr

/-- One field of a register: bits `hi:lo`, access type, whether it is retained (R69), reset value. -/
structure FieldDef where
  lo : Nat
  hi : Nat
  acc : Acc
  rws : Bool
  reset : Nat
  deriving DecidableEq, Repr

/-- One register of a block's page: offset, stride and count of its repetition, the inclusive range of
the block's pages that hold it, and its fields. -/
structure RegDef where
  off : Nat
  stride : Nat
  count : Nat
  instLo : Nat
  instHi : Nat
  fields : List FieldDef
  deriving DecidableEq, Repr

/-- The place of one field: byte offset within the page, lowest bit, width. -/
structure FRef where
  off : Nat
  lo : Nat
  width : Nat
  deriving DecidableEq, Repr

/-- 02/R90 -/
def Reg.QUENCH : Nat := 0x100
def Fld.QUENCH_GMASK : FRef := ⟨0x100, 0, 16⟩
def Fld.QUENCH_CANCEL : FRef := ⟨0x100, 31, 1⟩
/-- 02/R98 -/
def Reg.QUENCH_STAT : Nat := 0x104
def Fld.QUENCH_STAT_REJ : FRef := ⟨0x104, 0, 16⟩
def Fld.QUENCH_STAT_BUSY : FRef := ⟨0x104, 16, 1⟩
def Fld.QUENCH_STAT_DONE : FRef := ⟨0x104, 17, 1⟩
def Fld.QUENCH_STAT_OVERLAP : FRef := ⟨0x104, 18, 1⟩
def Fld.QUENCH_STAT_SEQ : FRef := ⟨0x104, 24, 8⟩
/-- 16/R45 -/
def Reg.PROFILE : Nat := 0x110
def Fld.PROFILE_IN_FORCE : FRef := ⟨0x110, 0, 2⟩
def Fld.PROFILE_PINS : FRef := ⟨0x110, 2, 2⟩
def Fld.PROFILE_NEXT : FRef := ⟨0x110, 4, 2⟩
def Fld.PROFILE_NEXT_V : FRef := ⟨0x110, 6, 1⟩
/-- 16/R662 -/
def Reg.RESET_CAUSE : Nat := 0x114
def Fld.RESET_CAUSE_LAST : FRef := ⟨0x114, 0, 2⟩
def Fld.RESET_CAUSE_OP_ABORT : FRef := ⟨0x114, 2, 1⟩
def Fld.RESET_CAUSE_SMITH_RST : FRef := ⟨0x114, 16, 16⟩
/-- 16/R652 -/
def Reg.FW_STAT : Nat := 0x118
def Fld.FW_STAT_SLOT : FRef := ⟨0x118, 0, 1⟩
def Fld.FW_STAT_FALLBACK : FRef := ⟨0x118, 1, 1⟩
def Fld.FW_STAT_STAGED : FRef := ⟨0x118, 2, 1⟩
def Fld.FW_STAT_TRIAL : FRef := ⟨0x118, 3, 1⟩
def Fld.FW_STAT_VERSION : FRef := ⟨0x118, 16, 16⟩
/-- 18/R718 -/
def Reg.PMU_CTL : Nat := 0x120
def Fld.PMU_CTL_FREEZE : FRef := ⟨0x120, 0, 1⟩
def Fld.PMU_CTL_SNAP : FRef := ⟨0x120, 1, 1⟩
def Fld.PMU_CTL_CLEAR : FRef := ⟨0x120, 2, 1⟩
def Fld.PMU_CTL_DIES : FRef := ⟨0x120, 3, 1⟩
/-- 18/R724 -/
def Reg.PMU_STAT : Nat := 0x124
def Fld.PMU_STAT_BUSY : FRef := ⟨0x124, 0, 1⟩
def Fld.PMU_STAT_DONE : FRef := ⟨0x124, 1, 1⟩
def Fld.PMU_STAT_OVERLAP : FRef := ⟨0x124, 2, 1⟩
def Fld.PMU_STAT_SEQ : FRef := ⟨0x124, 24, 8⟩
/-- 18/R723 -/
def Reg.PMU_LATE : Nat := 0x128
def Fld.PMU_LATE_SITE : FRef := ⟨0x128, 0, 16⟩
/-- 18/R718 -/
def Reg.SNAP_TIME_LO : Nat := 0x130
def Fld.SNAP_TIME_LO_TIME : FRef := ⟨0x130, 0, 32⟩
/-- 18/R718 -/
def Reg.SNAP_TIME_HI : Nat := 0x134
def Fld.SNAP_TIME_HI_TIME : FRef := ⟨0x134, 0, 32⟩
/-- 16/R662 -/
def Reg.MB_CMD : Nat := 0x200
def Fld.MB_CMD_CODE : FRef := ⟨0x200, 0, 8⟩
def Fld.MB_CMD_TAG : FRef := ⟨0x200, 8, 8⟩
/-- 16/R662 -/
def Reg.MB_ARG (i : Nat) : Nat := 0x204 + 0x4 * i
def Fld.MB_ARG_ARG (i : Nat) : FRef := ⟨0x204 + 0x4 * i, 0, 32⟩
/-- 16/R662 -/
def Reg.MB_STAT : Nat := 0x220
def Fld.MB_STAT_BUSY : FRef := ⟨0x220, 0, 1⟩
def Fld.MB_STAT_DONE : FRef := ⟨0x220, 1, 1⟩
def Fld.MB_STAT_OVERLAP : FRef := ⟨0x220, 2, 1⟩
def Fld.MB_STAT_STATUS : FRef := ⟨0x220, 4, 3⟩
def Fld.MB_STAT_TAG : FRef := ⟨0x220, 8, 8⟩
def Fld.MB_STAT_CODE : FRef := ⟨0x220, 16, 8⟩
def Fld.MB_STAT_SEQ : FRef := ⟨0x220, 24, 8⟩
/-- 16/R662 -/
def Reg.MB_RES (i : Nat) : Nat := 0x224 + 0x4 * i
def Fld.MB_RES_RES (i : Nat) : FRef := ⟨0x224 + 0x4 * i, 0, 32⟩
/-- 16/R648 -/
def Reg.HB : Nat := 0x230
def Fld.HB_COUNT : FRef := ⟨0x230, 0, 32⟩
/-- 15/R646 -/
def Reg.PWR_STAT : Nat := 0x100
def Fld.PWR_STAT_STATE : FRef := ⟨0x100, 0, 2⟩
def Fld.PWR_STAT_THR : FRef := ⟨0x100, 2, 1⟩
def Fld.PWR_STAT_WAKE : FRef := ⟨0x100, 3, 1⟩
def Fld.PWR_STAT_THR_LONG : FRef := ⟨0x100, 4, 1⟩
def Fld.PWR_STAT_WAKE_LOST : FRef := ⟨0x100, 5, 1⟩
def Fld.PWR_STAT_PWRSET_LATE : FRef := ⟨0x100, 6, 1⟩
def Fld.PWR_STAT_LOOP_LATE : FRef := ⟨0x100, 7, 1⟩
def Fld.PWR_STAT_WAKE_STUCK : FRef := ⟨0x100, 8, 1⟩
/-- 15/R646 -/
def Reg.PWR_LIMIT : Nat := 0x104
def Fld.PWR_LIMIT_PLIMIT : FRef := ⟨0x104, 0, 11⟩
def Fld.PWR_LIMIT_FCAP : FRef := ⟨0x104, 16, 12⟩
/-- 15/R646 -/
def Reg.PWR_FLOOR : Nat := 0x108
def Fld.PWR_FLOOR_FLOOR : FRef := ⟨0x108, 0, 12⟩
/-- 15/R639 -/
def Reg.LOOP_STAT : Nat := 0x10c
def Fld.LOOP_STAT_FCEIL : FRef := ⟨0x10c, 0, 12⟩
def Fld.LOOP_STAT_LAG : FRef := ⟨0x10c, 16, 16⟩
/-- 15/R638 -/
def Reg.PKG_POWER : Nat := 0x110
def Fld.PKG_POWER_POWER : FRef := ⟨0x110, 0, 16⟩
/-- 15/R620 -/
def Reg.WAKE_EN : Nat := 0x114
def Fld.WAKE_EN_PORT : FRef := ⟨0x114, 0, 4⟩
def Fld.WAKE_EN_PCIE : FRef := ⟨0x114, 4, 6⟩
def Fld.WAKE_EN_PIN : FRef := ⟨0x114, 10, 1⟩
/-- 15/R614 -/
def Reg.VOTE (i : Nat) : Nat := 0x200 + 0x4 * i
def Fld.VOTE_SLOT_LO (i : Nat) : FRef := ⟨0x200 + 0x4 * i, 0, 10⟩
def Fld.VOTE_SLOT_HI (i : Nat) : FRef := ⟨0x200 + 0x4 * i, 16, 16⟩
/-- 15/R641 -/
def Reg.THR_EDGES : Nat := 0x400
def Fld.THR_EDGES_COUNT : FRef := ⟨0x400, 0, 32⟩
/-- 15/R621 -/
def Reg.WAKE_LOST_CNT : Nat := 0x404
def Fld.WAKE_LOST_CNT_COUNT : FRef := ⟨0x404, 0, 32⟩
/-- 15/R641 -/
def Reg.PIN_EDGES (i : Nat) : Nat := 0x408 + 0x4 * i
def Fld.PIN_EDGES_COUNT (i : Nat) : FRef := ⟨0x408 + 0x4 * i, 0, 32⟩
/-- 15/R617 -/
def Reg.DOM_STAT (i : Nat) : Nat := 0x500 + 0x4 * i
def Fld.DOM_STAT_STATE (i : Nat) : FRef := ⟨0x500 + 0x4 * i, 0, 3⟩
def Fld.DOM_STAT_TARGET (i : Nat) : FRef := ⟨0x500 + 0x4 * i, 3, 1⟩
def Fld.DOM_STAT_ABANDONS (i : Nat) : FRef := ⟨0x500 + 0x4 * i, 8, 8⟩
def Fld.DOM_STAT_DROPS (i : Nat) : FRef := ⟨0x500 + 0x4 * i, 16, 16⟩
/-- 15/R636 -/
def Reg.SITE_FMAX (i : Nat) : Nat := 0x600 + 0x4 * i
def Fld.SITE_FMAX_FMAX (i : Nat) : FRef := ⟨0x600 + 0x4 * i, 0, 12⟩
def Fld.SITE_FMAX_ACKED (i : Nat) : FRef := ⟨0x600 + 0x4 * i, 12, 1⟩
/-- 15/R632 -/
def Reg.CLK_STAT : Nat := 0x100
def Fld.CLK_STAT_ROOT_LOCK : FRef := ⟨0x100, 0, 1⟩
def Fld.CLK_STAT_ROOT_LOL : FRef := ⟨0x100, 1, 1⟩
def Fld.CLK_STAT_LNK_LOCK : FRef := ⟨0x100, 16, 16⟩
/-- 15/R632 -/
def Reg.CLK_LOL_CNT : Nat := 0x400
def Fld.CLK_LOL_CNT_COUNT : FRef := ⟨0x400, 0, 32⟩
/-- 15/R633 -/
def Reg.TIME_LO : Nat := 0x100
def Fld.TIME_LO_TIME : FRef := ⟨0x100, 0, 32⟩
/-- 15/R633 -/
def Reg.TIME_HI : Nat := 0x104
def Fld.TIME_HI_TIME : FRef := ⟨0x104, 0, 32⟩
/-- 15/R620 -/
def Reg.TIME_CMP_LO : Nat := 0x108
def Fld.TIME_CMP_LO_CMP : FRef := ⟨0x108, 0, 32⟩
/-- 15/R620 -/
def Reg.TIME_CMP_HI : Nat := 0x10c
def Fld.TIME_CMP_HI_CMP : FRef := ⟨0x10c, 0, 32⟩
/-- 15/R620 -/
def Reg.TIME_CMP_CTL : Nat := 0x110
def Fld.TIME_CMP_CTL_EN : FRef := ⟨0x110, 0, 1⟩
def Fld.TIME_CMP_CTL_WAKE : FRef := ⟨0x110, 1, 1⟩
def Fld.TIME_CMP_CTL_DOM : FRef := ⟨0x110, 2, 6⟩
def Fld.TIME_CMP_CTL_HIT : FRef := ⟨0x110, 8, 1⟩
/-- 15/R634 -/
def Reg.TIME_CFG : Nat := 0x114
def Fld.TIME_CFG_SYNC_MS : FRef := ⟨0x114, 0, 8⟩
/-- 15/R634 -/
def Reg.TIME_DLY (i : Nat) : Nat := 0x400 + 0x4 * i
def Fld.TIME_DLY_DELAY (i : Nat) : FRef := ⟨0x400 + 0x4 * i, 0, 16⟩
/-- 17/R708 -/
def Reg.FB_CTL : Nat := 0x100
def Fld.FB_CTL_DMA : FRef := ⟨0x100, 0, 1⟩
/-- 17/R702 -/
def Reg.FB_STAT : Nat := 0x104
def Fld.FB_STAT_UNDERRUN : FRef := ⟨0x104, 0, 1⟩
def Fld.FB_STAT_DROP : FRef := ⟨0x104, 1, 1⟩
def Fld.FB_STAT_UE : FRef := ⟨0x104, 2, 1⟩
def Fld.FB_STAT_CE : FRef := ⟨0x104, 3, 1⟩
def Fld.FB_STAT_TRUNC : FRef := ⟨0x104, 4, 1⟩
def Fld.FB_STAT_RING_ERR : FRef := ⟨0x104, 5, 1⟩
def Fld.FB_STAT_LEVEL : FRef := ⟨0x104, 16, 11⟩
/-- 17/R706 -/
def Reg.FB_TAG : Nat := 0x108
def Fld.FB_TAG_VBYTES : FRef := ⟨0x108, 0, 5⟩
def Fld.FB_TAG_SOR : FRef := ⟨0x108, 5, 1⟩
def Fld.FB_TAG_UE : FRef := ⟨0x108, 6, 1⟩
def Fld.FB_TAG_V : FRef := ⟨0x108, 31, 1⟩
/-- 17/R706 -/
def Reg.FB_DATA (i : Nat) : Nat := 0x110 + 0x4 * i
def Fld.FB_DATA_DATA (i : Nat) : FRef := ⟨0x110 + 0x4 * i, 0, 32⟩
/-- 17/R705 -/
def Reg.FB_CE_COUNT : Nat := 0x120
def Fld.FB_CE_COUNT_COUNT : FRef := ⟨0x120, 0, 32⟩
/-- 17/R702 -/
def Reg.FB_DROP_CNT : Nat := 0x124
def Fld.FB_DROP_CNT_COUNT : FRef := ⟨0x124, 0, 32⟩
/-- 17/R704 -/
def Reg.FB_TRUNC_CNT : Nat := 0x128
def Fld.FB_TRUNC_CNT_COUNT : FRef := ⟨0x128, 0, 32⟩
/-- 17/R708 -/
def Reg.FB_RING_BASE_LO : Nat := 0x200
def Fld.FB_RING_BASE_LO_LOG2 : FRef := ⟨0x200, 0, 5⟩
def Fld.FB_RING_BASE_LO_ADDR_LO : FRef := ⟨0x200, 12, 20⟩
/-- 17/R708 -/
def Reg.FB_RING_BASE_HI : Nat := 0x204
def Fld.FB_RING_BASE_HI_ADDR_HI : FRef := ⟨0x204, 0, 20⟩
/-- 17/R709 -/
def Reg.FB_RING_HEAD : Nat := 0x208
def Fld.FB_RING_HEAD_INDEX : FRef := ⟨0x208, 0, 16⟩
/-- 17/R709 -/
def Reg.FB_RING_TAIL : Nat := 0x20c
def Fld.FB_RING_TAIL_INDEX : FRef := ⟨0x20c, 0, 16⟩
/-- 17/R709 -/
def Reg.FB_RING_WM : Nat := 0x210
def Fld.FB_RING_WM_WM : FRef := ⟨0x210, 0, 16⟩
/-- 17/R693 -/
def Reg.EVT_STORM_CFG : Nat := 0x100
def Fld.EVT_STORM_CFG_COUNT : FRef := ⟨0x100, 0, 10⟩
def Fld.EVT_STORM_CFG_WINDOW : FRef := ⟨0x100, 10, 10⟩
def Fld.EVT_STORM_CFG_HOLDOFF : FRef := ⟨0x100, 20, 10⟩
/-- 17/R682 -/
def Reg.EVT_SW_TRIG : Nat := 0x104
def Fld.EVT_SW_TRIG_SOURCE : FRef := ⟨0x104, 0, 11⟩
/-- 17/R679 -/
def Reg.EVT_STAT : Nat := 0x108
def Fld.EVT_STAT_FATAL : FRef := ⟨0x108, 0, 1⟩
def Fld.EVT_STAT_MSG_DROP : FRef := ⟨0x108, 1, 1⟩
def Fld.EVT_STAT_STORM : FRef := ⟨0x108, 2, 1⟩
/-- 17/R679 -/
def Reg.EVT_FATAL_SRC : Nat := 0x10c
def Fld.EVT_FATAL_SRC_SOURCE : FRef := ⟨0x10c, 0, 11⟩
def Fld.EVT_FATAL_SRC_V : FRef := ⟨0x10c, 31, 1⟩
/-- 17/R690 -/
def Reg.EVT_MSG_DROP_CNT : Nat := 0x110
def Fld.EVT_MSG_DROP_CNT_COUNT : FRef := ⟨0x110, 0, 32⟩
/-- 17/R685 -/
def Reg.EVT_MASK (i : Nat) : Nat := 0x200 + 0x4 * i
def Fld.EVT_MASK_MASK (i : Nat) : FRef := ⟨0x200 + 0x4 * i, 0, 32⟩
/-- 17/R684 -/
def Reg.EVT_PEND (i : Nat) : Nat := 0x300 + 0x4 * i
def Fld.EVT_PEND_PEND (i : Nat) : FRef := ⟨0x300 + 0x4 * i, 0, 32⟩
/-- 17/R685 -/
def Reg.EVT_ROUTE (i : Nat) : Nat := 0x400 + 0x4 * i
def Fld.EVT_ROUTE_CORE (i : Nat) : FRef := ⟨0x400 + 0x4 * i, 0, 10⟩
def Fld.EVT_ROUTE_VECTOR (i : Nat) : FRef := ⟨0x400 + 0x4 * i, 10, 12⟩
def Fld.EVT_ROUTE_EN (i : Nat) : FRef := ⟨0x400 + 0x4 * i, 31, 1⟩
/-- 17/R693 -/
def Reg.EVT_STORM (i : Nat) : Nat := 0x500 + 0x4 * i
def Fld.EVT_STORM_STORM (i : Nat) : FRef := ⟨0x500 + 0x4 * i, 0, 32⟩
/-- 16/R659 -/
def Reg.PLAT_SEQ : Nat := 0x100
def Fld.PLAT_SEQ_SEQ : FRef := ⟨0x100, 0, 32⟩
/-- 16/R658 -/
def Reg.PLAT (i : Nat) : Nat := 0x400 + 0x4 * i
def Fld.PLAT_BYTES (i : Nat) : FRef := ⟨0x400 + 0x4 * i, 0, 32⟩
/-- 03/R146 -/
def Reg.RT_SEL : Nat := 0x100
def Fld.RT_SEL_DST : FRef := ⟨0x100, 0, 8⟩
def Fld.RT_SEL_SRC : FRef := ⟨0x100, 8, 5⟩
/-- 03/R146 -/
def Reg.RT_ENTRY_LO : Nat := 0x108
def Fld.RT_ENTRY_LO_ROUTE_LO : FRef := ⟨0x108, 0, 32⟩
/-- 03/R146 -/
def Reg.RT_ENTRY_HI : Nat := 0x10c
def Fld.RT_ENTRY_HI_ROUTE_HI : FRef := ⟨0x10c, 0, 8⟩
def Fld.RT_ENTRY_HI_VALID : FRef := ⟨0x10c, 8, 1⟩
/-- 03/R127 -/
def Reg.RT_REJ : Nat := 0x110
def Fld.RT_REJ_DST : FRef := ⟨0x110, 0, 8⟩
def Fld.RT_REJ_SRC : FRef := ⟨0x110, 8, 5⟩
def Fld.RT_REJ_REASON : FRef := ⟨0x110, 13, 3⟩
def Fld.RT_REJ_V : FRef := ⟨0x110, 31, 1⟩
/-- 03/R146 -/
def Reg.RTR_SEL : Nat := 0x100
def Fld.RTR_SEL_RTR : FRef := ⟨0x100, 0, 6⟩
/-- 03/R106 -/
def Reg.RTR_INFO : Nat := 0x104
def Fld.RTR_INFO_LEVEL : FRef := ⟨0x104, 0, 4⟩
def Fld.RTR_INFO_PARENT : FRef := ⟨0x104, 4, 7⟩
def Fld.RTR_INFO_PARENT_PORT : FRef := ⟨0x104, 11, 4⟩
def Fld.RTR_INFO_NPORTS : FRef := ⟨0x104, 15, 4⟩
/-- 03/R142 -/
def Reg.RTR_CLASS : Nat := 0x108
def Fld.RTR_CLASS_CLASS : FRef := ⟨0x108, 0, 30⟩
/-- 03/R142 -/
def Reg.RTR_WEIGHT_LO : Nat := 0x10c
def Fld.RTR_WEIGHT_LO_WEIGHT_LO : FRef := ⟨0x10c, 0, 32⟩
/-- 03/R142 -/
def Reg.RTR_WEIGHT_HI : Nat := 0x110
def Fld.RTR_WEIGHT_HI_WEIGHT_HI : FRef := ⟨0x110, 0, 28⟩
/-- 03/R106 -/
def Reg.RTR_PORT (i : Nat) : Nat := 0x400 + 0x4 * i
def Fld.RTR_PORT_KIND (i : Nat) : FRef := ⟨0x400 + 0x4 * i, 0, 2⟩
def Fld.RTR_PORT_PEER (i : Nat) : FRef := ⟨0x400 + 0x4 * i, 2, 8⟩
def Fld.RTR_PORT_PEER_PORT (i : Nat) : FRef := ⟨0x400 + 0x4 * i, 10, 4⟩
/-- 03/R114 -/
def Reg.ERR_STAT : Nat := 0x120
def Fld.ERR_STAT_HDR_CE : FRef := ⟨0x120, 0, 1⟩
def Fld.ERR_STAT_HDR_UE : FRef := ⟨0x120, 1, 1⟩
def Fld.ERR_STAT_DATA_CE : FRef := ⟨0x120, 2, 1⟩
def Fld.ERR_STAT_DATA_UE : FRef := ⟨0x120, 3, 1⟩
def Fld.ERR_STAT_DISC : FRef := ⟨0x120, 4, 1⟩
/-- 03/R114 -/
def Reg.ERR_LOC : Nat := 0x124
def Fld.ERR_LOC_RTR : FRef := ⟨0x124, 0, 7⟩
def Fld.ERR_LOC_PORT : FRef := ⟨0x124, 7, 4⟩
def Fld.ERR_LOC_V : FRef := ⟨0x124, 31, 1⟩
/-- 03/R131 -/
def Reg.DISCARD : Nat := 0x128
def Fld.DISCARD_COUNT : FRef := ⟨0x128, 0, 32⟩
/-- 11/R479 -/
def Reg.SITE_STAT : Nat := 0x100
def Fld.SITE_STAT_FENCED : FRef := ⟨0x100, 0, 1⟩
def Fld.SITE_STAT_ADMITTED : FRef := ⟨0x100, 1, 1⟩
/-- 11/R456 -/
def Reg.TRAV_RESULT : Nat := 0x104
def Fld.TRAV_RESULT_RESULT : FRef := ⟨0x104, 0, 4⟩
def Fld.TRAV_RESULT_CLASS : FRef := ⟨0x104, 4, 2⟩
def Fld.TRAV_RESULT_LEVEL : FRef := ⟨0x104, 6, 4⟩
def Fld.TRAV_RESULT_CORES : FRef := ⟨0x104, 16, 6⟩
def Fld.TRAV_RESULT_SEQ : FRef := ⟨0x104, 24, 8⟩
/-- 11/R458 -/
def Reg.TRAV_CAP_LO : Nat := 0x108
def Fld.TRAV_CAP_LO_CAP : FRef := ⟨0x108, 0, 32⟩
/-- 11/R458 -/
def Reg.TRAV_CAP_HI : Nat := 0x10c
def Fld.TRAV_CAP_HI_CAP : FRef := ⟨0x10c, 0, 32⟩
/-- 11/R469 -/
def Reg.BND_CTL : Nat := 0x110
def Fld.BND_CTL_EN : FRef := ⟨0x110, 0, 1⟩
def Fld.BND_CTL_CLASS_OK : FRef := ⟨0x110, 1, 3⟩
/-- 11/R474 -/
def Reg.BND_ACT : Nat := 0x114
def Fld.BND_ACT_ACT : FRef := ⟨0x114, 0, 20⟩
/-- 11/R475 -/
def Reg.BND_VIOL : Nat := 0x120
def Fld.BND_VIOL_KIND : FRef := ⟨0x120, 0, 10⟩
def Fld.BND_VIOL_HELD : FRef := ⟨0x120, 10, 1⟩
/-- 11/R475 -/
def Reg.BND_VIOL_LOC_LO : Nat := 0x124
def Fld.BND_VIOL_LOC_LO_ADDR_LO : FRef := ⟨0x124, 6, 26⟩
/-- 11/R475 -/
def Reg.BND_VIOL_LOC_HI : Nat := 0x128
def Fld.BND_VIOL_LOC_HI_ADDR_HI : FRef := ⟨0x128, 0, 20⟩
def Fld.BND_VIOL_LOC_HI_OPCODE : FRef := ⟨0x128, 20, 7⟩
def Fld.BND_VIOL_LOC_HI_KIND : FRef := ⟨0x128, 27, 4⟩
def Fld.BND_VIOL_LOC_HI_V : FRef := ⟨0x128, 31, 1⟩
/-- 11/R464 -/
def Reg.BND_OUT : Nat := 0x12c
def Fld.BND_OUT_COUNT : FRef := ⟨0x12c, 0, 12⟩
def Fld.BND_OUT_MAX : FRef := ⟨0x12c, 16, 12⟩
/-- 11/R466 -/
def Reg.DEVWIN_BASE_LO : Nat := 0x140
def Fld.DEVWIN_BASE_LO_EN : FRef := ⟨0x140, 0, 1⟩
def Fld.DEVWIN_BASE_LO_ADDR_LO : FRef := ⟨0x140, 12, 20⟩
/-- 11/R466 -/
def Reg.DEVWIN_BASE_HI : Nat := 0x144
def Fld.DEVWIN_BASE_HI_ADDR_HI : FRef := ⟨0x144, 0, 20⟩
/-- 11/R466 -/
def Reg.DEVWIN_LIMIT_LO : Nat := 0x148
def Fld.DEVWIN_LIMIT_LO_ADDR_LO : FRef := ⟨0x148, 12, 20⟩
/-- 11/R466 -/
def Reg.DEVWIN_LIMIT_HI : Nat := 0x14c
def Fld.DEVWIN_LIMIT_HI_ADDR_HI : FRef := ⟨0x14c, 0, 20⟩
/-- 06/R288 -/
def Reg.DRAIN_STAT : Nat := 0x300
def Fld.DRAIN_STAT_DRAIN_ERR : FRef := ⟨0x300, 0, 1⟩
def Fld.DRAIN_STAT_FLUSH_OVF : FRef := ⟨0x300, 1, 1⟩
def Fld.DRAIN_STAT_PEND : FRef := ⟨0x300, 8, 5⟩
/-- 06/R288 -/
def Reg.DRAIN_ERR_LOC : Nat := 0x304
def Fld.DRAIN_ERR_LOC_CAUSE : FRef := ⟨0x304, 0, 4⟩
def Fld.DRAIN_ERR_LOC_TARGET : FRef := ⟨0x304, 4, 4⟩
def Fld.DRAIN_ERR_LOC_V : FRef := ⟨0x304, 31, 1⟩
/-- 06/R288 -/
def Reg.DRAIN_ERR_CNT : Nat := 0x308
def Fld.DRAIN_ERR_CNT_COUNT : FRef := ⟨0x308, 0, 32⟩
/-- 11/R470 -/
def Reg.BND_WIN_BASE_LO (i : Nat) : Nat := 0x400 + 0x10 * i
def Fld.BND_WIN_BASE_LO_EN (i : Nat) : FRef := ⟨0x400 + 0x10 * i, 0, 1⟩
def Fld.BND_WIN_BASE_LO_R (i : Nat) : FRef := ⟨0x400 + 0x10 * i, 1, 1⟩
def Fld.BND_WIN_BASE_LO_W (i : Nat) : FRef := ⟨0x400 + 0x10 * i, 2, 1⟩
def Fld.BND_WIN_BASE_LO_C (i : Nat) : FRef := ⟨0x400 + 0x10 * i, 3, 1⟩
def Fld.BND_WIN_BASE_LO_ADDR_LO (i : Nat) : FRef := ⟨0x400 + 0x10 * i, 12, 20⟩
/-- 11/R470 -/
def Reg.BND_WIN_BASE_HI (i : Nat) : Nat := 0x404 + 0x10 * i
def Fld.BND_WIN_BASE_HI_ADDR_HI (i : Nat) : FRef := ⟨0x404 + 0x10 * i, 0, 20⟩
/-- 11/R470 -/
def Reg.BND_WIN_LIMIT_LO (i : Nat) : Nat := 0x408 + 0x10 * i
def Fld.BND_WIN_LIMIT_LO_ADDR_LO (i : Nat) : FRef := ⟨0x408 + 0x10 * i, 12, 20⟩
/-- 11/R470 -/
def Reg.BND_WIN_LIMIT_HI (i : Nat) : Nat := 0x40c + 0x10 * i
def Fld.BND_WIN_LIMIT_HI_ADDR_HI (i : Nat) : FRef := ⟨0x40c + 0x10 * i, 0, 20⟩
/-- 11/R471 -/
def Reg.BND_ALLOW (i : Nat) : Nat := 0x500 + 0x4 * i
def Fld.BND_ALLOW_OP (i : Nat) : FRef := ⟨0x500 + 0x4 * i, 0, 32⟩
/-- 11/R472 -/
def Reg.BND_METER (i : Nat) : Nat := 0x520 + 0x4 * i
def Fld.BND_METER_RATE (i : Nat) : FRef := ⟨0x520 + 0x4 * i, 0, 12⟩
def Fld.BND_METER_BURST (i : Nat) : FRef := ⟨0x520 + 0x4 * i, 16, 12⟩
def Fld.BND_METER_EN (i : Nat) : FRef := ⟨0x520 + 0x4 * i, 31, 1⟩
/-- 11/R475 -/
def Reg.BND_CNT (i : Nat) : Nat := 0x580 + 0x4 * i
def Fld.BND_CNT_COUNT (i : Nat) : FRef := ⟨0x580 + 0x4 * i, 0, 32⟩
/-- 11/R472 -/
def Reg.BND_HELD (i : Nat) : Nat := 0x5c0 + 0x4 * i
def Fld.BND_HELD_COUNT (i : Nat) : FRef := ⟨0x5c0 + 0x4 * i, 0, 32⟩
/-- 11/R468 -/
def Reg.LATE_CPL : Nat := 0x5d0
def Fld.LATE_CPL_COUNT : FRef := ⟨0x5d0, 0, 32⟩
/-- 11/R479 -/
def Reg.DATUM (i : Nat) : Nat := 0x800 + 0x4 * i
def Fld.DATUM_BYTES (i : Nat) : FRef := ⟨0x800 + 0x4 * i, 0, 32⟩
/-- 10/R444 -/
def Reg.LNK_CTL (i : Nat) : Nat := 0x100 + 0x20 * i
def Fld.LNK_CTL_EN (i : Nat) : FRef := ⟨0x100 + 0x20 * i, 0, 1⟩
def Fld.LNK_CTL_RETRAIN (i : Nat) : FRef := ⟨0x100 + 0x20 * i, 1, 1⟩
def Fld.LNK_CTL_REPAIR_AUTO (i : Nat) : FRef := ⟨0x100 + 0x20 * i, 2, 1⟩
def Fld.LNK_CTL_IDLE_EN (i : Nat) : FRef := ⟨0x100 + 0x20 * i, 3, 1⟩
/-- 10/R420 -/
def Reg.LNK_STAT (i : Nat) : Nat := 0x104 + 0x20 * i
def Fld.LNK_STAT_STATE (i : Nat) : FRef := ⟨0x104 + 0x20 * i, 0, 4⟩
def Fld.LNK_STAT_WIDTH (i : Nat) : FRef := ⟨0x104 + 0x20 * i, 4, 2⟩
def Fld.LNK_STAT_PAUSE (i : Nat) : FRef := ⟨0x104 + 0x20 * i, 6, 1⟩
def Fld.LNK_STAT_REPAIRED (i : Nat) : FRef := ⟨0x104 + 0x20 * i, 8, 1⟩
def Fld.LNK_STAT_DEGRADED (i : Nat) : FRef := ⟨0x104 + 0x20 * i, 9, 1⟩
def Fld.LNK_STAT_RETIRED (i : Nat) : FRef := ⟨0x104 + 0x20 * i, 10, 1⟩
def Fld.LNK_STAT_HB_LOSS (i : Nat) : FRef := ⟨0x104 + 0x20 * i, 11, 1⟩
def Fld.LNK_STAT_MISMATCH (i : Nat) : FRef := ⟨0x104 + 0x20 * i, 12, 1⟩
def Fld.LNK_STAT_RETRAINED (i : Nat) : FRef := ⟨0x104 + 0x20 * i, 13, 1⟩
def Fld.LNK_STAT_LOST (i : Nat) : FRef := ⟨0x104 + 0x20 * i, 14, 1⟩
def Fld.LNK_STAT_MMCNT (i : Nat) : FRef := ⟨0x104 + 0x20 * i, 16, 2⟩
def Fld.LNK_STAT_SVCNT (i : Nat) : FRef := ⟨0x104 + 0x20 * i, 18, 2⟩
/-- 10/R419 -/
def Reg.LNK_MAP_DH (i : Nat) : Nat := 0x108 + 0x20 * i
def Fld.LNK_MAP_DH_RECORD (i : Nat) : FRef := ⟨0x108 + 0x20 * i, 0, 32⟩
/-- 10/R419 -/
def Reg.LNK_MAP_HD (i : Nat) : Nat := 0x10c + 0x20 * i
def Fld.LNK_MAP_HD_RECORD (i : Nat) : FRef := ⟨0x10c + 0x20 * i, 0, 32⟩
/-- 10/R423 -/
def Reg.LNK_MAPINFO (i : Nat) : Nat := 0x110 + 0x20 * i
def Fld.LNK_MAPINFO_MAPSEQ (i : Nat) : FRef := ⟨0x110 + 0x20 * i, 0, 8⟩
/-- 10/R424 -/
def Reg.LNK_RXFAIL0 (i : Nat) : Nat := 0x114 + 0x20 * i
def Fld.LNK_RXFAIL0_FAIL (i : Nat) : FRef := ⟨0x114 + 0x20 * i, 0, 32⟩
/-- 10/R424 -/
def Reg.LNK_RXFAIL1 (i : Nat) : Nat := 0x118 + 0x20 * i
def Fld.LNK_RXFAIL1_FAIL (i : Nat) : FRef := ⟨0x118 + 0x20 * i, 0, 32⟩
/-- 10/R424 -/
def Reg.LNK_RXFAIL2 (i : Nat) : Nat := 0x11c + 0x20 * i
def Fld.LNK_RXFAIL2_FAIL (i : Nat) : FRef := ⟨0x11c + 0x20 * i, 0, 4⟩
/-- 10/R444 -/
def Reg.LNK_LCFG : Nat := 0x200
def Fld.LNK_LCFG_IDLE_THRESH : FRef := ⟨0x200, 0, 8⟩
def Fld.LNK_LCFG_LANE_THR : FRef := ⟨0x200, 8, 8⟩
def Fld.LNK_LCFG_CRC_THR : FRef := ⟨0x200, 16, 8⟩
def Fld.LNK_LCFG_HB_TO : FRef := ⟨0x200, 24, 4⟩
/-- 10/R442 -/
def Reg.LNK_CRC_CNT (i : Nat) : Nat := 0x400 + 0x10 * i
def Fld.LNK_CRC_CNT_COUNT (i : Nat) : FRef := ⟨0x400 + 0x10 * i, 0, 32⟩
/-- 10/R415 -/
def Reg.LNK_RPL_CNT (i : Nat) : Nat := 0x404 + 0x10 * i
def Fld.LNK_RPL_CNT_COUNT (i : Nat) : FRef := ⟨0x404 + 0x10 * i, 0, 32⟩
/-- 10/R428 -/
def Reg.LNK_REPAIR_CNT (i : Nat) : Nat := 0x408 + 0x10 * i
def Fld.LNK_REPAIR_CNT_COUNT (i : Nat) : FRef := ⟨0x408 + 0x10 * i, 0, 32⟩
/-- 10/R442 -/
def Reg.LNK_RETRAIN_CNT (i : Nat) : Nat := 0x40c + 0x10 * i
def Fld.LNK_RETRAIN_CNT_COUNT (i : Nat) : FRef := ⟨0x40c + 0x10 * i, 0, 32⟩
/-- 05/R207 -/
def Reg.HOME_CFG : Nat := 0x100
def Fld.HOME_CFG_HASH : FRef := ⟨0x100, 0, 1⟩
/-- 05/R223 -/
def Reg.HOME_TRK_CFG : Nat := 0x104
def Fld.HOME_TRK_CFG_CLASS_RES : FRef := ⟨0x104, 0, 8⟩
/-- 05/R224 -/
def Reg.HOME_TRK_CAP : Nat := 0x108
def Fld.HOME_TRK_CAP_CAP0 : FRef := ⟨0x108, 0, 8⟩
def Fld.HOME_TRK_CAP_CAP1 : FRef := ⟨0x108, 8, 8⟩
def Fld.HOME_TRK_CAP_CAP2 : FRef := ⟨0x108, 16, 8⟩
def Fld.HOME_TRK_CAP_CAP3 : FRef := ⟨0x108, 24, 8⟩
/-- 05/R231 -/
def Reg.HOME_RSV_CFG : Nat := 0x10c
def Fld.HOME_RSV_CFG_LAPSE : FRef := ⟨0x10c, 0, 8⟩
/-- 05/R248 -/
def Reg.HOME_WALK_CFG : Nat := 0x110
def Fld.HOME_WALK_CFG_INTERVAL : FRef := ⟨0x110, 0, 16⟩
/-- 05/R252 -/
def Reg.HOME_DLY_CFG : Nat := 0x114
def Fld.HOME_DLY_CFG_THRESH : FRef := ⟨0x114, 0, 16⟩
/-- 05/R257 -/
def Reg.HOME_STAT : Nat := 0x120
def Fld.HOME_STAT_SNP_TO : FRef := ⟨0x120, 0, 1⟩
def Fld.HOME_STAT_PROTO : FRef := ⟨0x120, 1, 1⟩
def Fld.HOME_STAT_MISROUTE : FRef := ⟨0x120, 2, 1⟩
def Fld.HOME_STAT_RSV_FULL : FRef := ⟨0x120, 3, 1⟩
def Fld.HOME_STAT_RSV_LAPSE : FRef := ⟨0x120, 4, 1⟩
def Fld.HOME_STAT_DIRSET : FRef := ⟨0x120, 5, 1⟩
def Fld.HOME_STAT_WALK_DONE : FRef := ⟨0x120, 6, 1⟩
def Fld.HOME_STAT_POISON : FRef := ⟨0x120, 7, 1⟩
/-- 05/R241 -/
def Reg.HOME_SNP_TO_LOC : Nat := 0x124
def Fld.HOME_SNP_TO_LOC_SITE : FRef := ⟨0x124, 0, 4⟩
def Fld.HOME_SNP_TO_LOC_ENTRY : FRef := ⟨0x124, 4, 10⟩
def Fld.HOME_SNP_TO_LOC_RSVE : FRef := ⟨0x124, 30, 1⟩
def Fld.HOME_SNP_TO_LOC_V : FRef := ⟨0x124, 31, 1⟩
/-- 05/R249 -/
def Reg.HOME_LOSS_STAT : Nat := 0x128
def Fld.HOME_LOSS_STAT_WALK_MASK : FRef := ⟨0x128, 0, 16⟩
def Fld.HOME_LOSS_STAT_ACTIVE : FRef := ⟨0x128, 16, 1⟩
def Fld.HOME_LOSS_STAT_RECALL : FRef := ⟨0x128, 17, 1⟩
def Fld.HOME_LOSS_STAT_RSITE : FRef := ⟨0x128, 18, 4⟩
/-- 05/R248 -/
def Reg.HOME_LOSS_SET : Nat := 0x12c
def Fld.HOME_LOSS_SET_SET : FRef := ⟨0x12c, 0, 14⟩
def Fld.HOME_LOSS_SET_RSET : FRef := ⟨0x12c, 16, 14⟩
/-- 05/R225 -/
def Reg.HOME_TRK_OCC0 : Nat := 0x130
def Fld.HOME_TRK_OCC0_CLASS0 : FRef := ⟨0x130, 0, 11⟩
def Fld.HOME_TRK_OCC0_CLASS1 : FRef := ⟨0x130, 16, 11⟩
/-- 05/R225 -/
def Reg.HOME_TRK_OCC1 : Nat := 0x134
def Fld.HOME_TRK_OCC1_CLASS2 : FRef := ⟨0x134, 0, 11⟩
def Fld.HOME_TRK_OCC1_CLASS3 : FRef := ⟨0x134, 16, 11⟩
/-- 05/R223 -/
def Reg.HOME_POOL : Nat := 0x138
def Fld.HOME_POOL_POOL_FREE : FRef := ⟨0x138, 0, 11⟩
def Fld.HOME_POOL_RSV_USED : FRef := ⟨0x138, 16, 4⟩
def Fld.HOME_POOL_WB_USED : FRef := ⟨0x138, 20, 7⟩
/-- 05/R257 -/
def Reg.HOME_CNT_CLR : Nat := 0x13c
def Fld.HOME_CNT_CLR_CLR : FRef := ⟨0x13c, 0, 1⟩
/-- 05/R259 -/
def Reg.HOME_DIR_SEL : Nat := 0x140
def Fld.HOME_DIR_SEL_SET : FRef := ⟨0x140, 0, 14⟩
def Fld.HOME_DIR_SEL_WAY : FRef := ⟨0x140, 16, 4⟩
/-- 05/R259 -/
def Reg.HOME_DIR_ENTRY0 : Nat := 0x144
def Fld.HOME_DIR_ENTRY0_TAG_LO : FRef := ⟨0x144, 0, 32⟩
/-- 05/R259 -/
def Reg.HOME_DIR_ENTRY1 : Nat := 0x148
def Fld.HOME_DIR_ENTRY1_TAG_HI : FRef := ⟨0x148, 0, 10⟩
def Fld.HOME_DIR_ENTRY1_ST : FRef := ⟨0x148, 10, 2⟩
def Fld.HOME_DIR_ENTRY1_BUSY : FRef := ⟨0x148, 12, 1⟩
def Fld.HOME_DIR_ENTRY1_REPL : FRef := ⟨0x148, 13, 1⟩
def Fld.HOME_DIR_ENTRY1_AGE : FRef := ⟨0x148, 14, 4⟩
/-- 05/R259 -/
def Reg.HOME_DIR_ENTRY2 : Nat := 0x14c
def Fld.HOME_DIR_ENTRY2_PV : FRef := ⟨0x14c, 0, 16⟩
def Fld.HOME_DIR_ENTRY2_LEAD : FRef := ⟨0x14c, 16, 4⟩
def Fld.HOME_DIR_ENTRY2_LV : FRef := ⟨0x14c, 20, 1⟩
/-- 05/R222 -/
def Reg.SRC_CLASS (i : Nat) : Nat := 0x400 + 0x4 * i
def Fld.SRC_CLASS_CLASS (i : Nat) : FRef := ⟨0x400 + 0x4 * i, 0, 32⟩
/-- 05/R222 -/
def Reg.SRC_CLASS_A : Nat := 0x428
def Fld.SRC_CLASS_A_CLASS : FRef := ⟨0x428, 0, 32⟩
/-- 05/R222 -/
def Reg.SRC_CLASS_B : Nat := 0x42c
def Fld.SRC_CLASS_B_CLASS : FRef := ⟨0x42c, 0, 32⟩
/-- 05/R222 -/
def Reg.SRC_CLASS_C (i : Nat) : Nat := 0x430 + 0x4 * i
def Fld.SRC_CLASS_C_CLASS (i : Nat) : FRef := ⟨0x430 + 0x4 * i, 0, 32⟩
/-- 05/R253 -/
def Reg.HOME_NACK_CNT (i : Nat) : Nat := 0x480 + 0x4 * i
def Fld.HOME_NACK_CNT_COUNT (i : Nat) : FRef := ⟨0x480 + 0x4 * i, 0, 32⟩
/-- 05/R253 -/
def Reg.HOME_OVL_REF (i : Nat) : Nat := 0x4a0 + 0x4 * i
def Fld.HOME_OVL_REF_COUNT (i : Nat) : FRef := ⟨0x4a0 + 0x4 * i, 0, 32⟩
/-- 05/R252 -/
def Reg.HOME_OVL_DLY (i : Nat) : Nat := 0x4b0 + 0x4 * i
def Fld.HOME_OVL_DLY_COUNT (i : Nat) : FRef := ⟨0x4b0 + 0x4 * i, 0, 32⟩
/-- 05/R250 -/
def Reg.HOME_POISON_CNT : Nat := 0x4c0
def Fld.HOME_POISON_CNT_COUNT : FRef := ⟨0x4c0, 0, 32⟩
/-- 08/R350 -/
def Reg.HRTH_CTL : Nat := 0x100
def Fld.HRTH_CTL_EN : FRef := ⟨0x100, 0, 1⟩
def Fld.HRTH_CTL_DEF_NA : FRef := ⟨0x100, 1, 1⟩
def Fld.HRTH_CTL_LOCK_WAYS : FRef := ⟨0x100, 4, 4⟩
def Fld.HRTH_CTL_SCR_WAYS : FRef := ⟨0x100, 8, 4⟩
/-- 08/R336 -/
def Reg.HRTH_GSTAT : Nat := 0x104
def Fld.HRTH_GSTAT_MODE : FRef := ⟨0x104, 0, 2⟩
def Fld.HRTH_GSTAT_STALE_RISK : FRef := ⟨0x104, 2, 1⟩
def Fld.HRTH_GSTAT_STALE_EN : FRef := ⟨0x104, 3, 1⟩
def Fld.HRTH_GSTAT_OFFLINE : FRef := ⟨0x104, 8, 8⟩
/-- 08/R331 -/
def Reg.ROP_BASE_LO : Nat := 0x200
def Fld.ROP_BASE_LO_ADDR_LO : FRef := ⟨0x200, 12, 20⟩
/-- 08/R331 -/
def Reg.ROP_BASE_HI : Nat := 0x204
def Fld.ROP_BASE_HI_ADDR_HI : FRef := ⟨0x204, 0, 20⟩
/-- 08/R331 -/
def Reg.ROP_LIMIT_LO : Nat := 0x208
def Fld.ROP_LIMIT_LO_ADDR_LO : FRef := ⟨0x208, 12, 20⟩
/-- 08/R331 -/
def Reg.ROP_LIMIT_HI : Nat := 0x20c
def Fld.ROP_LIMIT_HI_ADDR_HI : FRef := ⟨0x20c, 0, 20⟩
/-- 08/R332 -/
def Reg.ROP_CMD : Nat := 0x210
def Fld.ROP_CMD_OP : FRef := ⟨0x210, 0, 3⟩
/-- 08/R332 -/
def Reg.ROP_CFG : Nat := 0x214
def Fld.ROP_CFG_PACE : FRef := ⟨0x214, 0, 8⟩
/-- 08/R334 -/
def Reg.ROP_STAT : Nat := 0x218
def Fld.ROP_STAT_BUSY : FRef := ⟨0x218, 0, 1⟩
def Fld.ROP_STAT_DONE : FRef := ⟨0x218, 1, 1⟩
def Fld.ROP_STAT_OVERLAP : FRef := ⟨0x218, 2, 1⟩
def Fld.ROP_STAT_STATUS : FRef := ⟨0x218, 4, 3⟩
def Fld.ROP_STAT_OP : FRef := ⟨0x218, 8, 3⟩
def Fld.ROP_STAT_SEQ : FRef := ⟨0x218, 24, 8⟩
/-- 08/R345 -/
def Reg.HRTH_SSTAT : Nat := 0x120
def Fld.HRTH_SSTAT_CE : FRef := ⟨0x120, 0, 1⟩
def Fld.HRTH_SSTAT_UE : FRef := ⟨0x120, 1, 1⟩
def Fld.HRTH_SSTAT_VB_STALL : FRef := ⟨0x120, 2, 1⟩
def Fld.HRTH_SSTAT_LOCK_OVF : FRef := ⟨0x120, 3, 1⟩
/-- 08/R345 -/
def Reg.HRTH_ERR_CNT : Nat := 0x124
def Fld.HRTH_ERR_CNT_CE : FRef := ⟨0x124, 0, 16⟩
def Fld.HRTH_ERR_CNT_UE : FRef := ⟨0x124, 16, 16⟩
/-- 08/R316 -/
def Reg.HRTH_VB : Nat := 0x128
def Fld.HRTH_VB_USED : FRef := ⟨0x128, 0, 7⟩
def Fld.HRTH_VB_DIRTY : FRef := ⟨0x128, 8, 7⟩
/-- 08/R323 -/
def Reg.HRTH_LOCK_OVF : Nat := 0x12c
def Fld.HRTH_LOCK_OVF_COUNT : FRef := ⟨0x12c, 0, 32⟩
/-- 08/R311 -/
def Reg.RANGE_BASE_LO (i : Nat) : Nat := 0x400 + 0x10 * i
def Fld.RANGE_BASE_LO_MODE (i : Nat) : FRef := ⟨0x400 + 0x10 * i, 0, 2⟩
def Fld.RANGE_BASE_LO_BASE_LO (i : Nat) : FRef := ⟨0x400 + 0x10 * i, 12, 20⟩
/-- 08/R311 -/
def Reg.RANGE_BASE_HI (i : Nat) : Nat := 0x404 + 0x10 * i
def Fld.RANGE_BASE_HI_BASE_HI (i : Nat) : FRef := ⟨0x404 + 0x10 * i, 0, 20⟩
/-- 08/R311 -/
def Reg.RANGE_LIMIT_LO (i : Nat) : Nat := 0x408 + 0x10 * i
def Fld.RANGE_LIMIT_LO_LIMIT_LO (i : Nat) : FRef := ⟨0x408 + 0x10 * i, 12, 20⟩
/-- 08/R311 -/
def Reg.RANGE_LIMIT_HI (i : Nat) : Nat := 0x40c + 0x10 * i
def Fld.RANGE_LIMIT_HI_LIMIT_HI (i : Nat) : FRef := ⟨0x40c + 0x10 * i, 0, 20⟩
/-- 08/R324 -/
def Reg.RANGE_LOCK (i : Nat) : Nat := 0x500 + 0x8 * i
def Fld.RANGE_LOCK_WAYS (i : Nat) : FRef := ⟨0x500 + 0x8 * i, 0, 18⟩
/-- 08/R324 -/
def Reg.RANGE_STAT (i : Nat) : Nat := 0x504 + 0x8 * i
def Fld.RANGE_STAT_EMPTY (i : Nat) : FRef := ⟨0x504 + 0x8 * i, 0, 18⟩
/-- 09/R394 -/
def Reg.MC_CTL : Nat := 0x100
def Fld.MC_CTL_SCRUB_HRS : FRef := ⟨0x100, 0, 8⟩
def Fld.MC_CTL_REF_POSTPONE : FRef := ⟨0x100, 8, 4⟩
def Fld.MC_CTL_ROW_AUTO : FRef := ⟨0x100, 12, 1⟩
def Fld.MC_CTL_ROW_CE_THR : FRef := ⟨0x100, 16, 8⟩
/-- 09/R358 -/
def Reg.MC_STAT : Nat := 0x104
def Fld.MC_STAT_CE : FRef := ⟨0x104, 0, 1⟩
def Fld.MC_STAT_UE : FRef := ⟨0x104, 1, 1⟩
def Fld.MC_STAT_REF_FORCED : FRef := ⟨0x104, 2, 1⟩
def Fld.MC_STAT_ROW_NOSPARE : FRef := ⟨0x104, 3, 1⟩
def Fld.MC_STAT_SR : FRef := ⟨0x104, 4, 1⟩
def Fld.MC_STAT_SCRUB_PASS : FRef := ⟨0x104, 5, 1⟩
/-- 09/R359 -/
def Reg.MC_ERR_LOC_LO : Nat := 0x108
def Fld.MC_ERR_LOC_LO_ADDR_LO : FRef := ⟨0x108, 6, 26⟩
/-- 09/R359 -/
def Reg.MC_ERR_LOC_HI : Nat := 0x10c
def Fld.MC_ERR_LOC_HI_ADDR_HI : FRef := ⟨0x10c, 0, 20⟩
def Fld.MC_ERR_LOC_HI_CHAN : FRef := ⟨0x10c, 20, 3⟩
def Fld.MC_ERR_LOC_HI_V : FRef := ⟨0x10c, 31, 1⟩
/-- 09/R364 -/
def Reg.MC_ROWSPARE_ADDR_LO : Nat := 0x110
def Fld.MC_ROWSPARE_ADDR_LO_ADDR_LO : FRef := ⟨0x110, 6, 26⟩
/-- 09/R364 -/
def Reg.MC_ROWSPARE_ADDR_HI : Nat := 0x114
def Fld.MC_ROWSPARE_ADDR_HI_ADDR_HI : FRef := ⟨0x114, 0, 20⟩
/-- 09/R364 -/
def Reg.MC_ROWSPARE_CMD : Nat := 0x118
def Fld.MC_ROWSPARE_CMD_GO : FRef := ⟨0x118, 0, 1⟩
/-- 09/R365 -/
def Reg.MC_ROWSPARE_STAT : Nat := 0x11c
def Fld.MC_ROWSPARE_STAT_BUSY : FRef := ⟨0x11c, 0, 1⟩
def Fld.MC_ROWSPARE_STAT_DONE : FRef := ⟨0x11c, 1, 1⟩
def Fld.MC_ROWSPARE_STAT_STATUS : FRef := ⟨0x11c, 2, 3⟩
def Fld.MC_ROWSPARE_STAT_LEFT : FRef := ⟨0x11c, 8, 4⟩
/-- 09/R361 -/
def Reg.MC_SCRUB_POS : Nat := 0x120
def Fld.MC_SCRUB_POS_O : FRef := ⟨0x120, 0, 23⟩
def Fld.MC_SCRUB_POS_CHAN : FRef := ⟨0x120, 23, 3⟩
/-- 09/R378 -/
def Reg.MC_REF_DEBT : Nat := 0x124
def Fld.MC_REF_DEBT_MAX : FRef := ⟨0x124, 0, 4⟩
/-- 09/R358 -/
def Reg.MC_CE_CNT (i : Nat) : Nat := 0x400 + 0x4 * i
def Fld.MC_CE_CNT_COUNT (i : Nat) : FRef := ⟨0x400 + 0x4 * i, 0, 32⟩
/-- 09/R359 -/
def Reg.MC_UE_CNT : Nat := 0x420
def Fld.MC_UE_CNT_COUNT : FRef := ⟨0x420, 0, 32⟩
/-- 09/R379 -/
def Reg.MC_REF_FORCED : Nat := 0x424
def Fld.MC_REF_FORCED_COUNT : FRef := ⟨0x424, 0, 32⟩
/-- 09/R368 -/
def Reg.STK_CFG : Nat := 0x100
def Fld.STK_CFG_SPARE_AUTO : FRef := ⟨0x100, 0, 1⟩
def Fld.STK_CFG_SPARE_THR : FRef := ⟨0x100, 16, 16⟩
/-- 09/R371 -/
def Reg.STK_STAT : Nat := 0x104
def Fld.STK_STAT_SPARE_BUSY : FRef := ⟨0x104, 0, 1⟩
def Fld.STK_STAT_SPARE_USED : FRef := ⟨0x104, 1, 1⟩
def Fld.STK_STAT_SPARED_CHAN : FRef := ⟨0x104, 2, 4⟩
def Fld.STK_STAT_SPARE_DONE : FRef := ⟨0x104, 6, 1⟩
def Fld.STK_STAT_SPARE_ERR : FRef := ⟨0x104, 7, 1⟩
def Fld.STK_STAT_HOT : FRef := ⟨0x104, 8, 1⟩
def Fld.STK_STAT_PROGRESS : FRef := ⟨0x104, 16, 16⟩
/-- 09/R377 -/
def Reg.STK_TEMP : Nat := 0x108
def Fld.STK_TEMP_TEMP : FRef := ⟨0x108, 0, 8⟩
def Fld.STK_TEMP_REF2X : FRef := ⟨0x108, 8, 1⟩
/-- 09/R374 -/
def Reg.STK_RET_LO (i : Nat) : Nat := 0x400 + 0x8 * i
def Fld.STK_RET_LO_V (i : Nat) : FRef := ⟨0x400 + 0x8 * i, 0, 1⟩
def Fld.STK_RET_LO_PAGE_LO (i : Nat) : FRef := ⟨0x400 + 0x8 * i, 12, 20⟩
/-- 09/R374 -/
def Reg.STK_RET_HI (i : Nat) : Nat := 0x404 + 0x8 * i
def Fld.STK_RET_HI_PAGE_HI (i : Nat) : FRef := ⟨0x404 + 0x8 * i, 0, 20⟩
/-- 12/R516 -/
def Reg.IXU_CTL : Nat := 0x100
def Fld.IXU_CTL_MODE : FRef := ⟨0x100, 0, 2⟩
/-- 12/R502 -/
def Reg.IXU_STAT : Nat := 0x104
def Fld.IXU_STAT_CQ_HALT : FRef := ⟨0x104, 0, 1⟩
def Fld.IXU_STAT_CQ_ERR : FRef := ⟨0x104, 1, 1⟩
def Fld.IXU_STAT_FQ_OVF : FRef := ⟨0x104, 2, 1⟩
def Fld.IXU_STAT_FQ_NE : FRef := ⟨0x104, 3, 1⟩
def Fld.IXU_STAT_ATS_TO : FRef := ⟨0x104, 4, 1⟩
def Fld.IXU_STAT_SOFT_MISS : FRef := ⟨0x104, 5, 1⟩
def Fld.IXU_STAT_BLOCKED : FRef := ⟨0x104, 6, 1⟩
/-- 12/R481 -/
def Reg.BIND_TAB_LO (i : Nat) : Nat := 0x110 + 0x8 * i
def Fld.BIND_TAB_LO_LOG2 (i : Nat) : FRef := ⟨0x110 + 0x8 * i, 0, 5⟩
def Fld.BIND_TAB_LO_ADDR_LO (i : Nat) : FRef := ⟨0x110 + 0x8 * i, 12, 20⟩
/-- 12/R481 -/
def Reg.BIND_TAB_HI (i : Nat) : Nat := 0x114 + 0x8 * i
def Fld.BIND_TAB_HI_ADDR_HI (i : Nat) : FRef := ⟨0x114 + 0x8 * i, 0, 20⟩
/-- 12/R501 -/
def Reg.CQ_BASE_LO : Nat := 0x120
def Fld.CQ_BASE_LO_LOG2 : FRef := ⟨0x120, 0, 5⟩
def Fld.CQ_BASE_LO_ADDR_LO : FRef := ⟨0x120, 12, 20⟩
/-- 12/R501 -/
def Reg.CQ_BASE_HI : Nat := 0x124
def Fld.CQ_BASE_HI_ADDR_HI : FRef := ⟨0x124, 0, 20⟩
/-- 12/R501 -/
def Reg.CQ_TAIL : Nat := 0x128
def Fld.CQ_TAIL_INDEX : FRef := ⟨0x128, 0, 16⟩
/-- 12/R501 -/
def Reg.CQ_HEAD : Nat := 0x12c
def Fld.CQ_HEAD_INDEX : FRef := ⟨0x12c, 0, 16⟩
/-- 12/R502 -/
def Reg.CQ_CMD : Nat := 0x130
def Fld.CQ_CMD_RESUME : FRef := ⟨0x130, 0, 1⟩
/-- 12/R502 -/
def Reg.CQ_ERR : Nat := 0x134
def Fld.CQ_ERR_CAUSE : FRef := ⟨0x134, 0, 4⟩
def Fld.CQ_ERR_V : FRef := ⟨0x134, 31, 1⟩
/-- 12/R495 -/
def Reg.FQ_BASE_LO : Nat := 0x140
def Fld.FQ_BASE_LO_LOG2 : FRef := ⟨0x140, 0, 5⟩
def Fld.FQ_BASE_LO_EN : FRef := ⟨0x140, 5, 1⟩
def Fld.FQ_BASE_LO_ADDR_LO : FRef := ⟨0x140, 12, 20⟩
/-- 12/R495 -/
def Reg.FQ_BASE_HI : Nat := 0x144
def Fld.FQ_BASE_HI_ADDR_HI : FRef := ⟨0x144, 0, 20⟩
/-- 12/R495 -/
def Reg.FQ_HEAD : Nat := 0x148
def Fld.FQ_HEAD_INDEX : FRef := ⟨0x148, 0, 16⟩
/-- 12/R495 -/
def Reg.FQ_TAIL : Nat := 0x14c
def Fld.FQ_TAIL_INDEX : FRef := ⟨0x14c, 0, 16⟩
/-- 12/R495 -/
def Reg.FQ_OVF_CNT : Nat := 0x150
def Fld.FQ_OVF_CNT_COUNT : FRef := ⟨0x150, 0, 32⟩
/-- 12/R514 -/
def Reg.ATS_CFG : Nat := 0x160
def Fld.ATS_CFG_TO_MS : FRef := ⟨0x160, 0, 14⟩
/-- 12/R518 -/
def Reg.SOFT_MISS_INFO : Nat := 0x170
def Fld.SOFT_MISS_INFO_STREAM : FRef := ⟨0x170, 0, 17⟩
def Fld.SOFT_MISS_INFO_ACC : FRef := ⟨0x170, 17, 2⟩
def Fld.SOFT_MISS_INFO_PEND : FRef := ⟨0x170, 19, 5⟩
def Fld.SOFT_MISS_INFO_V : FRef := ⟨0x170, 31, 1⟩
/-- 12/R518 -/
def Reg.SOFT_MISS_VA_LO : Nat := 0x174
def Fld.SOFT_MISS_VA_LO_VA_LO : FRef := ⟨0x174, 12, 20⟩
/-- 12/R518 -/
def Reg.SOFT_MISS_VA_HI : Nat := 0x178
def Fld.SOFT_MISS_VA_HI_VA_HI : FRef := ⟨0x178, 0, 25⟩
/-- 12/R519 -/
def Reg.LOAD_STREAM : Nat := 0x180
def Fld.LOAD_STREAM_STREAM : FRef := ⟨0x180, 0, 17⟩
/-- 12/R519 -/
def Reg.LOAD_VA_LO : Nat := 0x184
def Fld.LOAD_VA_LO_VA_LO : FRef := ⟨0x184, 12, 20⟩
/-- 12/R519 -/
def Reg.LOAD_VA_HI : Nat := 0x188
def Fld.LOAD_VA_HI_VA_HI : FRef := ⟨0x188, 0, 25⟩
/-- 12/R519 -/
def Reg.LOAD_PA_LO : Nat := 0x18c
def Fld.LOAD_PA_LO_R : FRef := ⟨0x18c, 0, 1⟩
def Fld.LOAD_PA_LO_W : FRef := ⟨0x18c, 1, 1⟩
def Fld.LOAD_PA_LO_MTI : FRef := ⟨0x18c, 2, 3⟩
def Fld.LOAD_PA_LO_SIZE : FRef := ⟨0x18c, 5, 2⟩
def Fld.LOAD_PA_LO_PA_LO : FRef := ⟨0x18c, 12, 20⟩
/-- 12/R519 -/
def Reg.LOAD_PA_HI : Nat := 0x190
def Fld.LOAD_PA_HI_PA_HI : FRef := ⟨0x190, 0, 20⟩
/-- 12/R519 -/
def Reg.LOAD_CMD : Nat := 0x194
def Fld.LOAD_CMD_LOAD : FRef := ⟨0x194, 0, 1⟩
def Fld.LOAD_CMD_INV_ALL : FRef := ⟨0x194, 1, 1⟩
/-- 12/R519 -/
def Reg.LOAD_STAT : Nat := 0x198
def Fld.LOAD_STAT_COUNT : FRef := ⟨0x198, 0, 14⟩
def Fld.LOAD_STAT_FULL : FRef := ⟨0x198, 14, 1⟩
/-- 12/R513 -/
def Reg.ATS_STREAM (i : Nat) : Nat := 0x400 + 0x4 * i
def Fld.ATS_STREAM_STREAM (i : Nat) : FRef := ⟨0x400 + 0x4 * i, 0, 17⟩
def Fld.ATS_STREAM_V (i : Nat) : FRef := ⟨0x400 + 0x4 * i, 31, 1⟩
/-- 13/R574 -/
def Reg.NE_CFG : Nat := 0x100
def Fld.NE_CFG_CHAIN_PORT : FRef := ⟨0x100, 0, 16⟩
def Fld.NE_CFG_MTU : FRef := ⟨0x100, 16, 2⟩
def Fld.NE_CFG_EXC_EN : FRef := ⟨0x100, 18, 1⟩
/-- 13/R567 -/
def Reg.CTX_BASE_LO : Nat := 0x104
def Fld.CTX_BASE_LO_LOG2 : FRef := ⟨0x104, 0, 5⟩
def Fld.CTX_BASE_LO_ADDR_LO : FRef := ⟨0x104, 12, 20⟩
/-- 13/R567 -/
def Reg.CTX_BASE_HI : Nat := 0x108
def Fld.CTX_BASE_HI_ADDR_HI : FRef := ⟨0x108, 0, 20⟩
/-- 13/R568 -/
def Reg.WIN_BASE_LO : Nat := 0x10c
def Fld.WIN_BASE_LO_LOG2 : FRef := ⟨0x10c, 0, 5⟩
def Fld.WIN_BASE_LO_ADDR_LO : FRef := ⟨0x10c, 12, 20⟩
/-- 13/R568 -/
def Reg.WIN_BASE_HI : Nat := 0x110
def Fld.WIN_BASE_HI_ADDR_HI : FRef := ⟨0x110, 0, 20⟩
/-- 13/R549 -/
def Reg.FLOW_BASE_LO : Nat := 0x114
def Fld.FLOW_BASE_LO_LOG2 : FRef := ⟨0x114, 0, 5⟩
def Fld.FLOW_BASE_LO_EN : FRef := ⟨0x114, 5, 1⟩
def Fld.FLOW_BASE_LO_ADDR_LO : FRef := ⟨0x114, 12, 20⟩
/-- 13/R549 -/
def Reg.FLOW_BASE_HI : Nat := 0x118
def Fld.FLOW_BASE_HI_ADDR_HI : FRef := ⟨0x118, 0, 20⟩
/-- 13/R550 -/
def Reg.FLOW_MASK : Nat := 0x11c
def Fld.FLOW_MASK_FIELDS : FRef := ⟨0x11c, 0, 9⟩
/-- 13/R560 -/
def Reg.CC_CFG : Nat := 0x120
def Fld.CC_CFG_ALPHA : FRef := ⟨0x120, 0, 8⟩
def Fld.CC_CFG_BETA_SHIFT : FRef := ⟨0x120, 8, 4⟩
def Fld.CC_CFG_DELAY_TGT : FRef := ⟨0x120, 12, 16⟩
/-- 13/R558 -/
def Reg.REL_CFG : Nat := 0x124
def Fld.REL_CFG_RTO_MIN : FRef := ⟨0x124, 0, 8⟩
def Fld.REL_CFG_RETRY_MAX : FRef := ⟨0x124, 8, 4⟩
def Fld.REL_CFG_RNR_DELAY : FRef := ⟨0x124, 12, 8⟩
def Fld.REL_CFG_RNR_MAX : FRef := ⟨0x124, 20, 3⟩
/-- 13/R571 -/
def Reg.NE_INV : Nat := 0x130
def Fld.NE_INV_INDEX : FRef := ⟨0x130, 0, 24⟩
def Fld.NE_INV_KIND : FRef := ⟨0x130, 24, 2⟩
/-- 13/R571 -/
def Reg.NE_INV_STAT : Nat := 0x134
def Fld.NE_INV_STAT_BUSY : FRef := ⟨0x134, 0, 1⟩
def Fld.NE_INV_STAT_DONE : FRef := ⟨0x134, 1, 1⟩
/-- 13/R574 -/
def Reg.NE_STAT : Nat := 0x140
def Fld.NE_STAT_CTX_ERR : FRef := ⟨0x140, 0, 1⟩
def Fld.NE_STAT_IV_LOW : FRef := ⟨0x140, 1, 1⟩
def Fld.NE_STAT_TAG_FAIL : FRef := ⟨0x140, 2, 1⟩
def Fld.NE_STAT_PW_DISC : FRef := ⟨0x140, 3, 1⟩
/-- 14/R611 -/
def Reg.DMA_TO : Nat := 0x150
def Fld.DMA_TO_MS : FRef := ⟨0x150, 0, 11⟩
/-- 13/R548 -/
def Reg.CHAIN_DROP : Nat := 0x400
def Fld.CHAIN_DROP_COUNT : FRef := ⟨0x400, 0, 32⟩
/-- 13/R563 -/
def Reg.TAG_FAIL : Nat := 0x404
def Fld.TAG_FAIL_COUNT : FRef := ⟨0x404, 0, 32⟩
/-- 13/R548 -/
def Reg.FLOW_MISS : Nat := 0x408
def Fld.FLOW_MISS_COUNT : FRef := ⟨0x408, 0, 32⟩
/-- 13/R574 -/
def Reg.CTX_ERR_CNT : Nat := 0x40c
def Fld.CTX_ERR_CNT_COUNT : FRef := ⟨0x40c, 0, 32⟩
/-- 13/R296 -/
def Reg.NE_PW_DISC : Nat := 0x410
def Fld.NE_PW_DISC_COUNT : FRef := ⟨0x410, 0, 32⟩
/-- 14/R605 -/
def Reg.STALE_CPL : Nat := 0x414
def Fld.STALE_CPL_COUNT : FRef := ⟨0x414, 0, 32⟩
/-- 14/R607 -/
def Reg.NE_LATE_CPL : Nat := 0x418
def Fld.NE_LATE_CPL_COUNT : FRef := ⟨0x418, 0, 32⟩
/-- 13/R522 -/
def Reg.PORT_CFG : Nat := 0x100
def Fld.PORT_CFG_MODE : FRef := ⟨0x100, 0, 2⟩
def Fld.PORT_CFG_PFC_EN : FRef := ⟨0x100, 4, 8⟩
def Fld.PORT_CFG_PAUSE_EN : FRef := ⟨0x100, 12, 1⟩
def Fld.PORT_CFG_MAXFRAME : FRef := ⟨0x100, 16, 14⟩
/-- 13/R524 -/
def Reg.PORT_STAT : Nat := 0x104
def Fld.PORT_STAT_UP : FRef := ⟨0x104, 0, 4⟩
def Fld.PORT_STAT_LFAULT : FRef := ⟨0x104, 4, 4⟩
def Fld.PORT_STAT_RFAULT : FRef := ⟨0x104, 8, 4⟩
def Fld.PORT_STAT_DOWN : FRef := ⟨0x104, 12, 4⟩
def Fld.PORT_STAT_BUF_UE : FRef := ⟨0x104, 16, 1⟩
def Fld.PORT_STAT_BUF_CE : FRef := ⟨0x104, 17, 1⟩
/-- 13/R524 -/
def Reg.PORT_TIMING : Nat := 0x108
def Fld.PORT_TIMING_LD_HOLD : FRef := ⟨0x108, 0, 16⟩
/-- 13/R546 -/
def Reg.PFC_THR : Nat := 0x10c
def Fld.PFC_THR_XOFF : FRef := ⟨0x10c, 0, 14⟩
def Fld.PFC_THR_XON : FRef := ⟨0x10c, 16, 14⟩
/-- 13/R574 -/
def Reg.RX_FRAMES (i : Nat) : Nat := 0x400 + 0x20 * i
def Fld.RX_FRAMES_COUNT (i : Nat) : FRef := ⟨0x400 + 0x20 * i, 0, 32⟩
/-- 13/R574 -/
def Reg.TX_FRAMES (i : Nat) : Nat := 0x404 + 0x20 * i
def Fld.TX_FRAMES_COUNT (i : Nat) : FRef := ⟨0x404 + 0x20 * i, 0, 32⟩
/-- 13/R574 -/
def Reg.RX_FCS_ERR (i : Nat) : Nat := 0x408 + 0x20 * i
def Fld.RX_FCS_ERR_COUNT (i : Nat) : FRef := ⟨0x408 + 0x20 * i, 0, 32⟩
/-- 13/R545 -/
def Reg.RX_DROP_BUF (i : Nat) : Nat := 0x40c + 0x20 * i
def Fld.RX_DROP_BUF_COUNT (i : Nat) : FRef := ⟨0x40c + 0x20 * i, 0, 32⟩
/-- 13/R525 -/
def Reg.TX_DOWN (i : Nat) : Nat := 0x410 + 0x20 * i
def Fld.TX_DOWN_COUNT (i : Nat) : FRef := ⟨0x410 + 0x20 * i, 0, 32⟩
/-- 13/R574 -/
def Reg.FEC_CORR (i : Nat) : Nat := 0x414 + 0x20 * i
def Fld.FEC_CORR_COUNT (i : Nat) : FRef := ⟨0x414 + 0x20 * i, 0, 32⟩
/-- 13/R574 -/
def Reg.FEC_UNCORR (i : Nat) : Nat := 0x418 + 0x20 * i
def Fld.FEC_UNCORR_COUNT (i : Nat) : FRef := ⟨0x418 + 0x20 * i, 0, 32⟩
/-- 13/R547 -/
def Reg.BUF_UE (i : Nat) : Nat := 0x41c + 0x20 * i
def Fld.BUF_UE_COUNT (i : Nat) : FRef := ⟨0x41c + 0x20 * i, 0, 32⟩
/-- 13/R528 -/
def Reg.LANE_PREF : Nat := 0x100
def Fld.LANE_PREF_PREF : FRef := ⟨0x100, 0, 8⟩
/-- 13/R528 -/
def Reg.LANE_SRC : Nat := 0x104
def Fld.LANE_SRC_SRC : FRef := ⟨0x104, 0, 8⟩
def Fld.LANE_SRC_DARK : FRef := ⟨0x104, 8, 8⟩
def Fld.LANE_SRC_DEGRADED : FRef := ⟨0x104, 16, 8⟩
/-- 13/R529 -/
def Reg.LANE_APPLY : Nat := 0x108
def Fld.LANE_APPLY_APPLY : FRef := ⟨0x108, 0, 8⟩
/-- 13/R529 -/
def Reg.OPT_STAT : Nat := 0x10c
def Fld.OPT_STAT_FAILOVER : FRef := ⟨0x10c, 0, 1⟩
def Fld.OPT_STAT_DARK : FRef := ⟨0x10c, 1, 1⟩
/-- 13/R529 -/
def Reg.FAILOVER_CNT : Nat := 0x400
def Fld.FAILOVER_CNT_COUNT : FRef := ⟨0x400, 0, 32⟩
/-- 13/R535 -/
def Reg.EMB_STAT : Nat := 0x100
def Fld.EMB_STAT_PRESENT : FRef := ⟨0x100, 0, 1⟩
def Fld.EMB_STAT_RESULT : FRef := ⟨0x100, 1, 4⟩
def Fld.EMB_STAT_LIT : FRef := ⟨0x100, 5, 1⟩
def Fld.EMB_STAT_RELEASED : FRef := ⟨0x100, 6, 1⟩
def Fld.EMB_STAT_LIFE_WARN : FRef := ⟨0x100, 7, 1⟩
def Fld.EMB_STAT_FAULT : FRef := ⟨0x100, 8, 1⟩
def Fld.EMB_STAT_EOL : FRef := ⟨0x100, 9, 1⟩
def Fld.EMB_STAT_INSERT : FRef := ⟨0x100, 10, 1⟩
def Fld.EMB_STAT_REMOVE : FRef := ⟨0x100, 11, 1⟩
/-- 13/R539 -/
def Reg.EMB_CHAN_STAT : Nat := 0x104
def Fld.EMB_CHAN_STAT_CH_USED : FRef := ⟨0x104, 0, 8⟩
def Fld.EMB_CHAN_STAT_CH_STBY : FRef := ⟨0x104, 8, 8⟩
def Fld.EMB_CHAN_STAT_CH_EOL : FRef := ⟨0x104, 16, 8⟩
def Fld.EMB_CHAN_STAT_CH_FAULT : FRef := ⟨0x104, 24, 8⟩
/-- 13/R538 -/
def Reg.EMB_LIFE : Nat := 0x108
def Fld.EMB_LIFE_HOURS : FRef := ⟨0x108, 0, 24⟩
def Fld.EMB_LIFE_PCT : FRef := ⟨0x108, 24, 8⟩
/-- 13/R538 -/
def Reg.EMB_CHAN (i : Nat) : Nat := 0x400 + 0x8 * i
def Fld.EMB_CHAN_BIAS (i : Nat) : FRef := ⟨0x400 + 0x8 * i, 0, 16⟩
def Fld.EMB_CHAN_POWER (i : Nat) : FRef := ⟨0x400 + 0x8 * i, 16, 16⟩
/-- 13/R538 -/
def Reg.EMB_CHAN_HOURS (i : Nat) : Nat := 0x404 + 0x8 * i
def Fld.EMB_CHAN_HOURS_HOURS (i : Nat) : FRef := ⟨0x404 + 0x8 * i, 0, 32⟩
/-- 13/R535 -/
def Reg.EMB_ROM (i : Nat) : Nat := 0x800 + 0x4 * i
def Fld.EMB_ROM_BYTES (i : Nat) : FRef := ⟨0x800 + 0x4 * i, 0, 32⟩
/-- 06/R286 -/
def Reg.CPL_TO : Nat := 0x200
def Fld.CPL_TO_VALUE : FRef := ⟨0x200, 0, 20⟩
/-- 06/R287 -/
def Reg.PW_DISC : Nat := 0x408
def Fld.PW_DISC_COUNT : FRef := ⟨0x408, 0, 32⟩
/-- 14/R606 -/
def Reg.PCIE_LATE_CPL : Nat := 0x40c
def Fld.PCIE_LATE_CPL_COUNT : FRef := ⟨0x40c, 0, 32⟩
/-- 09/R386 -/
def Reg.FM_BASE_LO (i : Nat) : Nat := 0x600 + 0x10 * i
def Fld.FM_BASE_LO_EN (i : Nat) : FRef := ⟨0x600 + 0x10 * i, 0, 1⟩
def Fld.FM_BASE_LO_BASE_LO (i : Nat) : FRef := ⟨0x600 + 0x10 * i, 28, 4⟩
/-- 09/R386 -/
def Reg.FM_BASE_HI (i : Nat) : Nat := 0x604 + 0x10 * i
def Fld.FM_BASE_HI_BASE_HI (i : Nat) : FRef := ⟨0x604 + 0x10 * i, 0, 20⟩
/-- 09/R386 -/
def Reg.FM_SIZE (i : Nat) : Nat := 0x608 + 0x10 * i
def Fld.FM_SIZE_SIZE (i : Nat) : FRef := ⟨0x608 + 0x10 * i, 0, 17⟩
/-- 09/R391 -/
def Reg.FM_RD_FAIL (i : Nat) : Nat := 0x640 + 0x8 * i
def Fld.FM_RD_FAIL_COUNT (i : Nat) : FRef := ⟨0x640 + 0x8 * i, 0, 32⟩
/-- 09/R391 -/
def Reg.FM_WR_FAIL (i : Nat) : Nat := 0x644 + 0x8 * i
def Fld.FM_WR_FAIL_COUNT (i : Nat) : FRef := ⟨0x644 + 0x8 * i, 0, 32⟩
/-- 18/R726 -/
def Reg.PMC_CTL (i : Nat) : Nat := 0x3000 + 0x4 * i
def Fld.PMC_CTL_EVENT (i : Nat) : FRef := ⟨0x3000 + 0x4 * i, 0, 10⟩
def Fld.PMC_CTL_MODE (i : Nat) : FRef := ⟨0x3000 + 0x4 * i, 10, 1⟩
def Fld.PMC_CTL_EN (i : Nat) : FRef := ⟨0x3000 + 0x4 * i, 11, 1⟩
/-- 18/R726 -/
def Reg.PMC_FILT (i : Nat) : Nat := 0x3020 + 0x4 * i
def Fld.PMC_FILT_SRC (i : Nat) : FRef := ⟨0x3020 + 0x4 * i, 0, 8⟩
def Fld.PMC_FILT_SRC_EN (i : Nat) : FRef := ⟨0x3020 + 0x4 * i, 8, 1⟩
def Fld.PMC_FILT_CLASS (i : Nat) : FRef := ⟨0x3020 + 0x4 * i, 9, 4⟩
def Fld.PMC_FILT_SUB (i : Nat) : FRef := ⟨0x3020 + 0x4 * i, 16, 7⟩
def Fld.PMC_FILT_SUB_EN (i : Nat) : FRef := ⟨0x3020 + 0x4 * i, 23, 1⟩
/-- 18/R726 -/
def Reg.PMC_CNT_LO (i : Nat) : Nat := 0x3040 + 0x8 * i
def Fld.PMC_CNT_LO_CNT_LO (i : Nat) : FRef := ⟨0x3040 + 0x8 * i, 0, 32⟩
/-- 18/R726 -/
def Reg.PMC_CNT_HI (i : Nat) : Nat := 0x3044 + 0x8 * i
def Fld.PMC_CNT_HI_CNT_HI (i : Nat) : FRef := ⟨0x3044 + 0x8 * i, 0, 16⟩
/-- 18/R726 -/
def Reg.PMC_SNAP_LO (i : Nat) : Nat := 0x3080 + 0x8 * i
def Fld.PMC_SNAP_LO_SNAP_LO (i : Nat) : FRef := ⟨0x3080 + 0x8 * i, 0, 32⟩
/-- 18/R726 -/
def Reg.PMC_SNAP_HI (i : Nat) : Nat := 0x3084 + 0x8 * i
def Fld.PMC_SNAP_HI_SNAP_HI (i : Nat) : FRef := ⟨0x3084 + 0x8 * i, 0, 16⟩
/-- 18/R726 -/
def Reg.PMC_OVF : Nat := 0x30c0
def Fld.PMC_OVF_OVF : FRef := ⟨0x30c0, 0, 8⟩
/-- 02/R76 -/
def Reg.PAGE_CFG : Nat := 0xc
def Fld.PAGE_CFG_CLRMODE : FRef := ⟨0xc, 0, 1⟩
/-- 02/R76 -/
def Reg.PAGE_STAT : Nat := 0x10
def Fld.PAGE_STAT_SUMMARY : FRef := ⟨0x10, 0, 1⟩
def Fld.PAGE_STAT_SHADOW_PEND : FRef := ⟨0x10, 1, 1⟩
def Fld.PAGE_STAT_DOMAIN_OFF : FRef := ⟨0x10, 2, 1⟩
def Fld.PAGE_STAT_ACC_ERR : FRef := ⟨0x10, 3, 1⟩
def Fld.PAGE_STAT_QREJ : FRef := ⟨0x10, 4, 1⟩
/-- 02/R78 -/
def Reg.PAGE_QGRP : Nat := 0x14
def Fld.PAGE_QGRP_GROUP : FRef := ⟨0x14, 0, 4⟩

def smithRegs0 : List RegDef := [
  ⟨0x100, 0x4, 1, 0, 0, [⟨0, 15, .wo, false, 0x0⟩, ⟨31, 31, .wo, false, 0x0⟩]⟩,
  ⟨0x104, 0x4, 1, 0, 0, [⟨0, 15, .ro, false, 0x0⟩, ⟨16, 16, .ro, false, 0x0⟩, ⟨17, 17, .ro, false, 0x0⟩, ⟨18, 18, .w1c, false, 0x0⟩, ⟨24, 31, .ro, false, 0x0⟩]⟩,
  ⟨0x110, 0x4, 1, 0, 0, [⟨0, 1, .ro, false, 0x0⟩, ⟨2, 3, .ro, false, 0x0⟩, ⟨4, 5, .ro, false, 0x0⟩, ⟨6, 6, .ro, false, 0x0⟩]⟩,
  ⟨0x114, 0x4, 1, 0, 0, [⟨0, 1, .ro, false, 0x0⟩, ⟨2, 2, .ro, false, 0x0⟩, ⟨16, 31, .ro, true, 0x0⟩]⟩,
  ⟨0x118, 0x4, 1, 0, 0, [⟨0, 0, .ro, false, 0x0⟩, ⟨1, 1, .ro, true, 0x0⟩, ⟨2, 2, .ro, false, 0x0⟩, ⟨3, 3, .ro, false, 0x0⟩, ⟨16, 31, .ro, false, 0x0⟩]⟩,
  ⟨0x120, 0x4, 1, 0, 0, [⟨0, 0, .rw, false, 0x0⟩, ⟨1, 1, .wo, false, 0x0⟩, ⟨2, 2, .wo, false, 0x0⟩, ⟨3, 3, .rw, false, 0x1⟩]⟩,
  ⟨0x124, 0x4, 1, 0, 0, [⟨0, 0, .ro, false, 0x0⟩, ⟨1, 1, .ro, false, 0x0⟩, ⟨2, 2, .w1c, false, 0x0⟩, ⟨24, 31, .ro, false, 0x0⟩]⟩,
  ⟨0x128, 0x4, 1, 0, 0, [⟨0, 15, .ro, false, 0x0⟩]⟩,
  ⟨0x130, 0x4, 1, 0, 0, [⟨0, 31, .ro, false, 0x0⟩]⟩,
  ⟨0x134, 0x4, 1, 0, 0, [⟨0, 31, .ro, false, 0x0⟩]⟩,
  ⟨0x200, 0x4, 1, 0, 0, [⟨0, 7, .wo, false, 0x0⟩, ⟨8, 15, .wo, false, 0x0⟩]⟩,
  ⟨0x204, 0x4, 4, 0, 0, [⟨0, 31, .rw, false, 0x0⟩]⟩]

def smithRegs1 : List RegDef := [
  ⟨0x220, 0x4, 1, 0, 0, [⟨0, 0, .ro, false, 0x0⟩, ⟨1, 1, .ro, false, 0x0⟩, ⟨2, 2, .w1c, false, 0x0⟩, ⟨4, 6, .ro, false, 0x0⟩, ⟨8, 15, .ro, false, 0x0⟩, ⟨16, 23, .ro, false, 0x0⟩, ⟨24, 31, .ro, false, 0x0⟩]⟩,
  ⟨0x224, 0x4, 2, 0, 0, [⟨0, 31, .ro, false, 0x0⟩]⟩,
  ⟨0x230, 0x4, 1, 0, 0, [⟨0, 31, .ro, false, 0x0⟩]⟩]

/-- The registers of the `smith` pages. -/
def smithRegs : List RegDef := smithRegs0 ++ smithRegs1

def pwrRegs0 : List RegDef := [
  ⟨0x100, 0x4, 1, 0, 0, [⟨0, 1, .ro, false, 0x0⟩, ⟨2, 2, .ro, false, 0x0⟩, ⟨3, 3, .ro, false, 0x0⟩, ⟨4, 4, .w1c, false, 0x0⟩, ⟨5, 5, .w1c, false, 0x0⟩, ⟨6, 6, .w1c, false, 0x0⟩, ⟨7, 7, .w1c, false, 0x0⟩, ⟨8, 8, .w1c, false, 0x0⟩]⟩,
  ⟨0x104, 0x4, 1, 0, 0, [⟨0, 10, .rwq, false, 0x0⟩, ⟨16, 27, .rwq, false, 0x0⟩]⟩,
  ⟨0x108, 0x4, 1, 0, 0, [⟨0, 11, .rwq, false, 0x0⟩]⟩,
  ⟨0x10c, 0x4, 1, 0, 0, [⟨0, 11, .ro, false, 0x0⟩, ⟨16, 31, .ro, false, 0x0⟩]⟩,
  ⟨0x110, 0x4, 1, 0, 0, [⟨0, 15, .ro, false, 0x0⟩]⟩,
  ⟨0x114, 0x4, 1, 0, 0, [⟨0, 3, .rw, false, 0x0⟩, ⟨4, 9, .rw, false, 0x3f⟩, ⟨10, 10, .rw, false, 0x1⟩]⟩,
  ⟨0x200, 0x4, 50, 0, 0, [⟨0, 9, .rw, false, 0x0⟩, ⟨16, 31, .rw, false, 0x0⟩]⟩,
  ⟨0x400, 0x4, 1, 0, 0, [⟨0, 31, .ro, false, 0x0⟩]⟩,
  ⟨0x404, 0x4, 1, 0, 0, [⟨0, 31, .ro, false, 0x0⟩]⟩,
  ⟨0x408, 0x4, 11, 0, 0, [⟨0, 31, .ro, false, 0x0⟩]⟩,
  ⟨0x500, 0x4, 50, 0, 0, [⟨0, 2, .ro, false, 0x0⟩, ⟨3, 3, .ro, false, 0x0⟩, ⟨8, 15, .ro, false, 0x0⟩, ⟨16, 31, .ro, false, 0x0⟩]⟩,
  ⟨0x600, 0x4, 16, 0, 0, [⟨0, 11, .ro, false, 0x0⟩, ⟨12, 12, .ro, false, 0x0⟩]⟩]

/-- The registers of the `pwr` pages. -/
def pwrRegs : List RegDef := pwrRegs0

def clkRegs0 : List RegDef := [
  ⟨0x100, 0x4, 1, 0, 0, [⟨0, 0, .ro, false, 0x0⟩, ⟨1, 1, .w1c, true, 0x0⟩, ⟨16, 31, .ro, false, 0x0⟩]⟩,
  ⟨0x400, 0x4, 1, 0, 0, [⟨0, 31, .ro, true, 0x0⟩]⟩]

/-- The registers of the `clk` pages. -/
def clkRegs : List RegDef := clkRegs0

def timeRegs0 : List RegDef := [
  ⟨0x100, 0x4, 1, 0, 0, [⟨0, 31, .ro, false, 0x0⟩]⟩,
  ⟨0x104, 0x4, 1, 0, 0, [⟨0, 31, .ro, false, 0x0⟩]⟩,
  ⟨0x108, 0x4, 1, 0, 0, [⟨0, 31, .rw, false, 0x0⟩]⟩,
  ⟨0x10c, 0x4, 1, 0, 0, [⟨0, 31, .rw, false, 0x0⟩]⟩,
  ⟨0x110, 0x4, 1, 0, 0, [⟨0, 0, .rw, false, 0x0⟩, ⟨1, 1, .rw, false, 0x0⟩, ⟨2, 7, .rw, false, 0x0⟩, ⟨8, 8, .w1c, false, 0x0⟩]⟩,
  ⟨0x114, 0x4, 1, 0, 0, [⟨0, 7, .rwq, false, 0x1⟩]⟩,
  ⟨0x400, 0x4, 16, 0, 0, [⟨0, 15, .ro, false, 0x0⟩]⟩]

/-- The registers of the `time` pages. -/
def timeRegs : List RegDef := timeRegs0

def fbRegs0 : List RegDef := [
  ⟨0x100, 0x4, 1, 0, 0, [⟨0, 0, .rwq, false, 0x0⟩]⟩,
  ⟨0x104, 0x4, 1, 0, 0, [⟨0, 0, .w1c, false, 0x0⟩, ⟨1, 1, .w1c, false, 0x0⟩, ⟨2, 2, .w1c, false, 0x0⟩, ⟨3, 3, .w1c, false, 0x0⟩, ⟨4, 4, .w1c, false, 0x0⟩, ⟨5, 5, .w1c, false, 0x0⟩, ⟨16, 26, .ro, false, 0x0⟩]⟩,
  ⟨0x108, 0x4, 1, 0, 0, [⟨0, 4, .ro, false, 0x0⟩, ⟨5, 5, .ro, false, 0x0⟩, ⟨6, 6, .ro, false, 0x0⟩, ⟨31, 31, .ro, false, 0x0⟩]⟩,
  ⟨0x110, 0x4, 4, 0, 0, [⟨0, 31, .ro, false, 0x0⟩]⟩,
  ⟨0x120, 0x4, 1, 0, 0, [⟨0, 31, .ro, false, 0x0⟩]⟩,
  ⟨0x124, 0x4, 1, 0, 0, [⟨0, 31, .ro, false, 0x0⟩]⟩,
  ⟨0x128, 0x4, 1, 0, 0, [⟨0, 31, .ro, false, 0x0⟩]⟩,
  ⟨0x200, 0x4, 1, 0, 0, [⟨0, 4, .rwq, false, 0xa⟩, ⟨12, 31, .rwq, false, 0x0⟩]⟩,
  ⟨0x204, 0x4, 1, 0, 0, [⟨0, 19, .rwq, false, 0x0⟩]⟩,
  ⟨0x208, 0x4, 1, 0, 0, [⟨0, 15, .rw, false, 0x0⟩]⟩,
  ⟨0x20c, 0x4, 1, 0, 0, [⟨0, 15, .ro, false, 0x0⟩]⟩,
  ⟨0x210, 0x4, 1, 0, 0, [⟨0, 15, .rw, false, 0x10⟩]⟩]

/-- The registers of the `fb` pages. -/
def fbRegs : List RegDef := fbRegs0

def evtRegs0 : List RegDef := [
  ⟨0x100, 0x4, 1, 0, 0, [⟨0, 9, .rwq, false, 0x40⟩, ⟨10, 19, .rwq, false, 0xa⟩, ⟨20, 29, .rwq, false, 0x64⟩]⟩,
  ⟨0x104, 0x4, 1, 0, 0, [⟨0, 10, .wo, false, 0x0⟩]⟩,
  ⟨0x108, 0x4, 1, 0, 0, [⟨0, 0, .w1c, true, 0x0⟩, ⟨1, 1, .w1c, false, 0x0⟩, ⟨2, 2, .w1c, false, 0x0⟩]⟩,
  ⟨0x10c, 0x4, 1, 0, 0, [⟨0, 10, .ro, true, 0x0⟩, ⟨31, 31, .ro, true, 0x0⟩]⟩,
  ⟨0x110, 0x4, 1, 0, 0, [⟨0, 31, .ro, false, 0x0⟩]⟩,
  ⟨0x200, 0x4, 64, 0, 0, [⟨0, 31, .rw, false, 0xffffffff⟩]⟩,
  ⟨0x300, 0x4, 64, 0, 0, [⟨0, 31, .w1c, false, 0x0⟩]⟩,
  ⟨0x400, 0x4, 64, 0, 0, [⟨0, 9, .rw, false, 0x0⟩, ⟨10, 21, .rw, false, 0x0⟩, ⟨31, 31, .rw, false, 0x0⟩]⟩,
  ⟨0x500, 0x4, 64, 0, 0, [⟨0, 31, .ro, false, 0x0⟩]⟩]

/-- The registers of the `evt` pages. -/
def evtRegs : List RegDef := evtRegs0

def pkgRegs0 : List RegDef := [
  ⟨0x100, 0x4, 1, 0, 0, [⟨0, 31, .ro, false, 0x0⟩]⟩,
  ⟨0x400, 0x4, 80, 0, 0, [⟨0, 31, .ro, false, 0x0⟩]⟩]

/-- The registers of the `pkg` pages. -/
def pkgRegs : List RegDef := pkgRegs0

def fabRegs0 : List RegDef := [
  ⟨0x100, 0x4, 1, 0, 5, [⟨0, 7, .rw, false, 0x0⟩, ⟨8, 12, .rw, false, 0x0⟩]⟩,
  ⟨0x108, 0x4, 1, 0, 5, [⟨0, 31, .rwq, false, 0x0⟩]⟩,
  ⟨0x10c, 0x4, 1, 0, 5, [⟨0, 7, .rwq, false, 0x0⟩, ⟨8, 8, .rwq, false, 0x0⟩]⟩,
  ⟨0x110, 0x4, 1, 0, 5, [⟨0, 7, .ro, false, 0x0⟩, ⟨8, 12, .ro, false, 0x0⟩, ⟨13, 15, .ro, false, 0x0⟩, ⟨31, 31, .ro, false, 0x0⟩]⟩,
  ⟨0x100, 0x4, 1, 6, 7, [⟨0, 5, .rw, false, 0x0⟩]⟩,
  ⟨0x104, 0x4, 1, 6, 7, [⟨0, 3, .ro, false, 0x0⟩, ⟨4, 10, .ro, false, 0x0⟩, ⟨11, 14, .ro, false, 0x0⟩, ⟨15, 18, .ro, false, 0x0⟩]⟩,
  ⟨0x108, 0x4, 1, 6, 7, [⟨0, 29, .rwq, false, 0x0⟩]⟩,
  ⟨0x10c, 0x4, 1, 6, 7, [⟨0, 31, .rwq, false, 0x0⟩]⟩,
  ⟨0x110, 0x4, 1, 6, 7, [⟨0, 27, .rwq, false, 0x0⟩]⟩,
  ⟨0x400, 0x4, 15, 6, 7, [⟨0, 1, .ro, false, 0x0⟩, ⟨2, 9, .ro, false, 0x0⟩, ⟨10, 13, .ro, false, 0x0⟩]⟩,
  ⟨0x120, 0x4, 1, 7, 7, [⟨0, 0, .w1c, false, 0x0⟩, ⟨1, 1, .w1c, false, 0x0⟩, ⟨2, 2, .w1c, false, 0x0⟩, ⟨3, 3, .w1c, false, 0x0⟩, ⟨4, 4, .w1c, false, 0x0⟩]⟩,
  ⟨0x124, 0x4, 1, 7, 7, [⟨0, 6, .ro, false, 0x0⟩, ⟨7, 10, .ro, false, 0x0⟩, ⟨31, 31, .ro, false, 0x0⟩]⟩]

def fabRegs1 : List RegDef := [
  ⟨0x128, 0x4, 1, 7, 7, [⟨0, 31, .ro, false, 0x0⟩]⟩]

/-- The registers of the `fab` pages. -/
def fabRegs : List RegDef := fabRegs0 ++ fabRegs1

def siteRegs0 : List RegDef := [
  ⟨0x100, 0x4, 1, 0, 15, [⟨0, 0, .ro, false, 0x1⟩, ⟨1, 1, .ro, false, 0x0⟩]⟩,
  ⟨0x104, 0x4, 1, 0, 15, [⟨0, 3, .ro, false, 0x0⟩, ⟨4, 5, .ro, false, 0x0⟩, ⟨6, 9, .ro, false, 0x0⟩, ⟨16, 21, .ro, false, 0x0⟩, ⟨24, 31, .ro, false, 0x0⟩]⟩,
  ⟨0x108, 0x4, 1, 0, 15, [⟨0, 31, .ro, false, 0x0⟩]⟩,
  ⟨0x10c, 0x4, 1, 0, 15, [⟨0, 31, .ro, false, 0x0⟩]⟩,
  ⟨0x110, 0x4, 1, 0, 15, [⟨0, 0, .rwq, false, 0x1⟩, ⟨1, 3, .ro, false, 0x0⟩]⟩,
  ⟨0x114, 0x4, 1, 0, 15, [⟨0, 19, .rwq, false, 0x0⟩]⟩,
  ⟨0x120, 0x4, 1, 0, 15, [⟨0, 9, .w1c, false, 0x0⟩, ⟨10, 10, .w1c, false, 0x0⟩]⟩,
  ⟨0x124, 0x4, 1, 0, 15, [⟨6, 31, .ro, false, 0x0⟩]⟩,
  ⟨0x128, 0x4, 1, 0, 15, [⟨0, 19, .ro, false, 0x0⟩, ⟨20, 26, .ro, false, 0x0⟩, ⟨27, 30, .ro, false, 0x0⟩, ⟨31, 31, .ro, false, 0x0⟩]⟩,
  ⟨0x12c, 0x4, 1, 0, 15, [⟨0, 11, .ro, false, 0x0⟩, ⟨16, 27, .ro, false, 0x0⟩]⟩,
  ⟨0x140, 0x4, 1, 0, 15, [⟨0, 0, .rwq, false, 0x0⟩, ⟨12, 31, .rwq, false, 0x0⟩]⟩,
  ⟨0x144, 0x4, 1, 0, 15, [⟨0, 19, .rwq, false, 0x0⟩]⟩]

def siteRegs1 : List RegDef := [
  ⟨0x148, 0x4, 1, 0, 15, [⟨12, 31, .rwq, false, 0x0⟩]⟩,
  ⟨0x14c, 0x4, 1, 0, 15, [⟨0, 19, .rwq, false, 0x0⟩]⟩,
  ⟨0x300, 0x4, 1, 0, 15, [⟨0, 0, .w1c, true, 0x0⟩, ⟨1, 1, .w1c, false, 0x0⟩, ⟨8, 12, .ro, false, 0x0⟩]⟩,
  ⟨0x304, 0x4, 1, 0, 15, [⟨0, 3, .ro, true, 0x0⟩, ⟨4, 7, .ro, true, 0x0⟩, ⟨31, 31, .ro, true, 0x0⟩]⟩,
  ⟨0x308, 0x4, 1, 0, 15, [⟨0, 31, .ro, true, 0x0⟩]⟩,
  ⟨0x400, 0x10, 16, 0, 15, [⟨0, 0, .rwq, false, 0x0⟩, ⟨1, 1, .rwq, false, 0x0⟩, ⟨2, 2, .rwq, false, 0x0⟩, ⟨3, 3, .rwq, false, 0x0⟩, ⟨12, 31, .rwq, false, 0x0⟩]⟩,
  ⟨0x404, 0x10, 16, 0, 15, [⟨0, 19, .rwq, false, 0x0⟩]⟩,
  ⟨0x408, 0x10, 16, 0, 15, [⟨12, 31, .rwq, false, 0x0⟩]⟩,
  ⟨0x40c, 0x10, 16, 0, 15, [⟨0, 19, .rwq, false, 0x0⟩]⟩,
  ⟨0x500, 0x4, 4, 0, 15, [⟨0, 31, .rwq, false, 0x0⟩]⟩,
  ⟨0x520, 0x4, 4, 0, 15, [⟨0, 11, .rwq, false, 0x0⟩, ⟨16, 27, .rwq, false, 0x0⟩, ⟨31, 31, .rwq, false, 0x0⟩]⟩,
  ⟨0x580, 0x4, 10, 0, 15, [⟨0, 31, .ro, false, 0x0⟩]⟩]

def siteRegs2 : List RegDef := [
  ⟨0x5c0, 0x4, 4, 0, 15, [⟨0, 31, .ro, false, 0x0⟩]⟩,
  ⟨0x5d0, 0x4, 1, 0, 15, [⟨0, 31, .ro, false, 0x0⟩]⟩,
  ⟨0x800, 0x4, 128, 0, 15, [⟨0, 31, .ro, false, 0x0⟩]⟩]

/-- The registers of the `site` pages. -/
def siteRegs : List RegDef := siteRegs0 ++ siteRegs1 ++ siteRegs2

def lnkRegs0 : List RegDef := [
  ⟨0x100, 0x20, 4, 0, 15, [⟨0, 0, .rw, false, 0x0⟩, ⟨1, 1, .wo, false, 0x0⟩, ⟨2, 2, .rw, false, 0x1⟩, ⟨3, 3, .rw, false, 0x1⟩]⟩,
  ⟨0x104, 0x20, 4, 0, 15, [⟨0, 3, .ro, false, 0x0⟩, ⟨4, 5, .ro, false, 0x0⟩, ⟨6, 6, .ro, false, 0x0⟩, ⟨8, 8, .w1c, false, 0x0⟩, ⟨9, 9, .w1c, false, 0x0⟩, ⟨10, 10, .w1c, false, 0x0⟩, ⟨11, 11, .w1c, false, 0x0⟩, ⟨12, 12, .w1c, false, 0x0⟩, ⟨13, 13, .w1c, false, 0x0⟩, ⟨14, 14, .w1c, false, 0x0⟩, ⟨16, 17, .ro, false, 0x0⟩, ⟨18, 19, .ro, false, 0x0⟩]⟩,
  ⟨0x108, 0x20, 4, 0, 15, [⟨0, 31, .ro, false, 0x0⟩]⟩,
  ⟨0x10c, 0x20, 4, 0, 15, [⟨0, 31, .ro, false, 0x0⟩]⟩,
  ⟨0x110, 0x20, 4, 0, 15, [⟨0, 7, .ro, false, 0x0⟩]⟩,
  ⟨0x114, 0x20, 4, 0, 15, [⟨0, 31, .ro, true, 0x0⟩]⟩,
  ⟨0x118, 0x20, 4, 0, 15, [⟨0, 31, .ro, true, 0x0⟩]⟩,
  ⟨0x11c, 0x20, 4, 0, 15, [⟨0, 3, .ro, true, 0x0⟩]⟩,
  ⟨0x200, 0x4, 1, 0, 15, [⟨0, 7, .rwq, false, 0x3⟩, ⟨8, 15, .rwq, false, 0x8⟩, ⟨16, 23, .rwq, false, 0x40⟩, ⟨24, 27, .rwq, false, 0x4⟩]⟩,
  ⟨0x400, 0x10, 4, 0, 15, [⟨0, 31, .ro, false, 0x0⟩]⟩,
  ⟨0x404, 0x10, 4, 0, 15, [⟨0, 31, .ro, false, 0x0⟩]⟩,
  ⟨0x408, 0x10, 4, 0, 15, [⟨0, 31, .ro, false, 0x0⟩]⟩]

def lnkRegs1 : List RegDef := [
  ⟨0x40c, 0x10, 4, 0, 15, [⟨0, 31, .ro, false, 0x0⟩]⟩]

/-- The registers of the `lnk` pages. -/
def lnkRegs : List RegDef := lnkRegs0 ++ lnkRegs1

def homeRegs0 : List RegDef := [
  ⟨0x100, 0x4, 1, 0, 63, [⟨0, 0, .ro, false, 0x0⟩]⟩,
  ⟨0x104, 0x4, 1, 0, 63, [⟨0, 7, .rwq, false, 0x40⟩]⟩,
  ⟨0x108, 0x4, 1, 0, 63, [⟨0, 7, .rwq, false, 0x40⟩, ⟨8, 15, .rwq, false, 0x40⟩, ⟨16, 23, .rwq, false, 0x40⟩, ⟨24, 31, .rwq, false, 0x40⟩]⟩,
  ⟨0x10c, 0x4, 1, 0, 63, [⟨0, 7, .rwq, false, 0xa⟩]⟩,
  ⟨0x110, 0x4, 1, 0, 63, [⟨0, 15, .rwq, false, 0x1e0⟩]⟩,
  ⟨0x114, 0x4, 1, 0, 63, [⟨0, 15, .rwq, false, 0xf0⟩]⟩,
  ⟨0x120, 0x4, 1, 0, 63, [⟨0, 0, .w1c, false, 0x0⟩, ⟨1, 1, .w1c, false, 0x0⟩, ⟨2, 2, .w1c, false, 0x0⟩, ⟨3, 3, .w1c, false, 0x0⟩, ⟨4, 4, .w1c, false, 0x0⟩, ⟨5, 5, .w1c, false, 0x0⟩, ⟨6, 6, .w1c, false, 0x0⟩, ⟨7, 7, .w1c, false, 0x0⟩]⟩,
  ⟨0x124, 0x4, 1, 0, 63, [⟨0, 3, .ro, false, 0x0⟩, ⟨4, 13, .ro, false, 0x0⟩, ⟨30, 30, .ro, false, 0x0⟩, ⟨31, 31, .ro, false, 0x0⟩]⟩,
  ⟨0x128, 0x4, 1, 0, 63, [⟨0, 15, .ro, false, 0x0⟩, ⟨16, 16, .ro, false, 0x0⟩, ⟨17, 17, .ro, false, 0x0⟩, ⟨18, 21, .ro, false, 0x0⟩]⟩,
  ⟨0x12c, 0x4, 1, 0, 63, [⟨0, 13, .ro, false, 0x0⟩, ⟨16, 29, .ro, false, 0x0⟩]⟩,
  ⟨0x130, 0x4, 1, 0, 63, [⟨0, 10, .ro, false, 0x0⟩, ⟨16, 26, .ro, false, 0x0⟩]⟩,
  ⟨0x134, 0x4, 1, 0, 63, [⟨0, 10, .ro, false, 0x0⟩, ⟨16, 26, .ro, false, 0x0⟩]⟩]

def homeRegs1 : List RegDef := [
  ⟨0x138, 0x4, 1, 0, 63, [⟨0, 10, .ro, false, 0x300⟩, ⟨16, 19, .ro, false, 0x0⟩, ⟨20, 26, .ro, false, 0x0⟩]⟩,
  ⟨0x13c, 0x4, 1, 0, 63, [⟨0, 0, .wo, false, 0x0⟩]⟩,
  ⟨0x140, 0x4, 1, 0, 63, [⟨0, 13, .rw, false, 0x0⟩, ⟨16, 19, .rw, false, 0x0⟩]⟩,
  ⟨0x144, 0x4, 1, 0, 63, [⟨0, 31, .ro, false, 0x0⟩]⟩,
  ⟨0x148, 0x4, 1, 0, 63, [⟨0, 9, .ro, false, 0x0⟩, ⟨10, 11, .ro, false, 0x0⟩, ⟨12, 12, .ro, false, 0x0⟩, ⟨13, 13, .ro, false, 0x0⟩, ⟨14, 17, .ro, false, 0x0⟩]⟩,
  ⟨0x14c, 0x4, 1, 0, 63, [⟨0, 15, .ro, false, 0x0⟩, ⟨16, 19, .ro, false, 0x0⟩, ⟨20, 20, .ro, false, 0x0⟩]⟩,
  ⟨0x400, 0x4, 10, 0, 0, [⟨0, 31, .rwq, false, 0x0⟩]⟩,
  ⟨0x428, 0x4, 1, 0, 0, [⟨0, 31, .rwq, false, 0xaaa01⟩]⟩,
  ⟨0x42c, 0x4, 1, 0, 0, [⟨0, 31, .rwq, false, 0x3030002⟩]⟩,
  ⟨0x430, 0x4, 4, 0, 0, [⟨0, 31, .rwq, false, 0x0⟩]⟩,
  ⟨0x480, 0x4, 6, 0, 63, [⟨0, 31, .ro, false, 0x0⟩]⟩,
  ⟨0x4a0, 0x4, 4, 0, 63, [⟨0, 31, .ro, false, 0x0⟩]⟩]

def homeRegs2 : List RegDef := [
  ⟨0x4b0, 0x4, 4, 0, 63, [⟨0, 31, .ro, false, 0x0⟩]⟩,
  ⟨0x4c0, 0x4, 1, 0, 63, [⟨0, 31, .ro, true, 0x0⟩]⟩]

/-- The registers of the `home` pages. -/
def homeRegs : List RegDef := homeRegs0 ++ homeRegs1 ++ homeRegs2

def hrthRegs0 : List RegDef := [
  ⟨0x100, 0x4, 1, 0, 0, [⟨0, 0, .rwq, false, 0x1⟩, ⟨1, 1, .rwq, false, 0x0⟩, ⟨4, 7, .rwq, false, 0x0⟩, ⟨8, 11, .ro, false, 0x0⟩]⟩,
  ⟨0x104, 0x4, 1, 0, 0, [⟨0, 1, .ro, false, 0x0⟩, ⟨2, 2, .ro, false, 0x0⟩, ⟨3, 3, .w1c, false, 0x0⟩, ⟨8, 15, .ro, false, 0x0⟩]⟩,
  ⟨0x200, 0x4, 1, 0, 0, [⟨12, 31, .rw, false, 0x0⟩]⟩,
  ⟨0x204, 0x4, 1, 0, 0, [⟨0, 19, .rw, false, 0x0⟩]⟩,
  ⟨0x208, 0x4, 1, 0, 0, [⟨12, 31, .rw, false, 0x0⟩]⟩,
  ⟨0x20c, 0x4, 1, 0, 0, [⟨0, 19, .rw, false, 0x0⟩]⟩,
  ⟨0x210, 0x4, 1, 0, 0, [⟨0, 2, .wo, false, 0x0⟩]⟩,
  ⟨0x214, 0x4, 1, 0, 0, [⟨0, 7, .rw, false, 0x48⟩]⟩,
  ⟨0x218, 0x4, 1, 0, 0, [⟨0, 0, .ro, false, 0x0⟩, ⟨1, 1, .ro, false, 0x0⟩, ⟨2, 2, .w1c, false, 0x0⟩, ⟨4, 6, .ro, false, 0x0⟩, ⟨8, 10, .ro, false, 0x0⟩, ⟨24, 31, .ro, false, 0x0⟩]⟩,
  ⟨0x120, 0x4, 1, 0, 63, [⟨0, 0, .w1c, false, 0x0⟩, ⟨1, 1, .w1c, false, 0x0⟩, ⟨2, 2, .w1c, false, 0x0⟩, ⟨3, 3, .w1c, false, 0x0⟩]⟩,
  ⟨0x124, 0x4, 1, 0, 63, [⟨0, 15, .ro, false, 0x0⟩, ⟨16, 31, .ro, false, 0x0⟩]⟩,
  ⟨0x128, 0x4, 1, 0, 63, [⟨0, 6, .ro, false, 0x0⟩, ⟨8, 14, .ro, false, 0x0⟩]⟩]

def hrthRegs1 : List RegDef := [
  ⟨0x12c, 0x4, 1, 0, 63, [⟨0, 31, .ro, false, 0x0⟩]⟩,
  ⟨0x400, 0x10, 8, 0, 0, [⟨0, 1, .rwq, false, 0x0⟩, ⟨12, 31, .rwq, false, 0x0⟩]⟩,
  ⟨0x404, 0x10, 8, 0, 0, [⟨0, 19, .rwq, false, 0x0⟩]⟩,
  ⟨0x408, 0x10, 8, 0, 0, [⟨12, 31, .rwq, false, 0x0⟩]⟩,
  ⟨0x40c, 0x10, 8, 0, 0, [⟨0, 19, .rwq, false, 0x0⟩]⟩,
  ⟨0x500, 0x8, 8, 0, 63, [⟨0, 17, .ro, false, 0x0⟩]⟩,
  ⟨0x504, 0x8, 8, 0, 63, [⟨0, 17, .ro, false, 0x0⟩]⟩]

/-- The registers of the `hrth` pages. -/
def hrthRegs : List RegDef := hrthRegs0 ++ hrthRegs1

def mcRegs0 : List RegDef := [
  ⟨0x100, 0x4, 1, 0, 23, [⟨0, 7, .rw, false, 0x18⟩, ⟨8, 11, .rw, false, 0x8⟩, ⟨12, 12, .rw, false, 0x1⟩, ⟨16, 23, .rw, false, 0x10⟩]⟩,
  ⟨0x104, 0x4, 1, 0, 23, [⟨0, 0, .w1c, false, 0x0⟩, ⟨1, 1, .w1c, false, 0x0⟩, ⟨2, 2, .w1c, false, 0x0⟩, ⟨3, 3, .w1c, false, 0x0⟩, ⟨4, 4, .ro, false, 0x0⟩, ⟨5, 5, .w1c, false, 0x0⟩]⟩,
  ⟨0x108, 0x4, 1, 0, 23, [⟨6, 31, .ro, false, 0x0⟩]⟩,
  ⟨0x10c, 0x4, 1, 0, 23, [⟨0, 19, .ro, false, 0x0⟩, ⟨20, 22, .ro, false, 0x0⟩, ⟨31, 31, .ro, false, 0x0⟩]⟩,
  ⟨0x110, 0x4, 1, 0, 23, [⟨6, 31, .rw, false, 0x0⟩]⟩,
  ⟨0x114, 0x4, 1, 0, 23, [⟨0, 19, .rw, false, 0x0⟩]⟩,
  ⟨0x118, 0x4, 1, 0, 23, [⟨0, 0, .wo, false, 0x0⟩]⟩,
  ⟨0x11c, 0x4, 1, 0, 23, [⟨0, 0, .ro, false, 0x0⟩, ⟨1, 1, .ro, false, 0x0⟩, ⟨2, 4, .ro, false, 0x0⟩, ⟨8, 11, .ro, false, 0x0⟩]⟩,
  ⟨0x120, 0x4, 1, 0, 23, [⟨0, 22, .ro, false, 0x0⟩, ⟨23, 25, .ro, false, 0x0⟩]⟩,
  ⟨0x124, 0x4, 1, 0, 23, [⟨0, 3, .ro, false, 0x0⟩]⟩,
  ⟨0x400, 0x4, 8, 0, 23, [⟨0, 31, .ro, false, 0x0⟩]⟩,
  ⟨0x420, 0x4, 1, 0, 23, [⟨0, 31, .ro, false, 0x0⟩]⟩]

def mcRegs1 : List RegDef := [
  ⟨0x424, 0x4, 1, 0, 23, [⟨0, 31, .ro, false, 0x0⟩]⟩]

/-- The registers of the `mc` pages. -/
def mcRegs : List RegDef := mcRegs0 ++ mcRegs1

def stkRegs0 : List RegDef := [
  ⟨0x100, 0x4, 1, 0, 11, [⟨0, 0, .rw, false, 0x1⟩, ⟨16, 31, .rw, false, 0x3e8⟩]⟩,
  ⟨0x104, 0x4, 1, 0, 11, [⟨0, 0, .ro, false, 0x0⟩, ⟨1, 1, .ro, false, 0x0⟩, ⟨2, 5, .ro, false, 0x0⟩, ⟨6, 6, .w1c, false, 0x0⟩, ⟨7, 7, .w1c, false, 0x0⟩, ⟨8, 8, .w1c, false, 0x0⟩, ⟨16, 31, .ro, false, 0x0⟩]⟩,
  ⟨0x108, 0x4, 1, 0, 11, [⟨0, 7, .ro, false, 0x0⟩, ⟨8, 8, .ro, false, 0x0⟩]⟩,
  ⟨0x400, 0x8, 16, 0, 11, [⟨0, 0, .rwq, false, 0x0⟩, ⟨12, 31, .rwq, false, 0x0⟩]⟩,
  ⟨0x404, 0x8, 16, 0, 11, [⟨0, 19, .rwq, false, 0x0⟩]⟩]

/-- The registers of the `stk` pages. -/
def stkRegs : List RegDef := stkRegs0

def ixuRegs0 : List RegDef := [
  ⟨0x100, 0x4, 1, 0, 0, [⟨0, 1, .rwq, false, 0x0⟩]⟩,
  ⟨0x104, 0x4, 1, 0, 0, [⟨0, 0, .ro, false, 0x0⟩, ⟨1, 1, .w1c, false, 0x0⟩, ⟨2, 2, .w1c, false, 0x0⟩, ⟨3, 3, .ro, false, 0x0⟩, ⟨4, 4, .w1c, false, 0x0⟩, ⟨5, 5, .w1c, false, 0x0⟩, ⟨6, 6, .w1c, false, 0x0⟩]⟩,
  ⟨0x110, 0x8, 2, 0, 0, [⟨0, 4, .rwq, false, 0x0⟩, ⟨12, 31, .rwq, false, 0x0⟩]⟩,
  ⟨0x114, 0x8, 2, 0, 0, [⟨0, 19, .rwq, false, 0x0⟩]⟩,
  ⟨0x120, 0x4, 1, 0, 0, [⟨0, 4, .rwq, false, 0x4⟩, ⟨12, 31, .rwq, false, 0x0⟩]⟩,
  ⟨0x124, 0x4, 1, 0, 0, [⟨0, 19, .rwq, false, 0x0⟩]⟩,
  ⟨0x128, 0x4, 1, 0, 0, [⟨0, 15, .rw, false, 0x0⟩]⟩,
  ⟨0x12c, 0x4, 1, 0, 0, [⟨0, 15, .ro, false, 0x0⟩]⟩,
  ⟨0x130, 0x4, 1, 0, 0, [⟨0, 0, .wo, false, 0x0⟩]⟩,
  ⟨0x134, 0x4, 1, 0, 0, [⟨0, 3, .ro, false, 0x0⟩, ⟨31, 31, .ro, false, 0x0⟩]⟩,
  ⟨0x140, 0x4, 1, 0, 0, [⟨0, 4, .rwq, false, 0x4⟩, ⟨5, 5, .rwq, false, 0x0⟩, ⟨12, 31, .rwq, false, 0x0⟩]⟩,
  ⟨0x144, 0x4, 1, 0, 0, [⟨0, 19, .rwq, false, 0x0⟩]⟩]

def ixuRegs1 : List RegDef := [
  ⟨0x148, 0x4, 1, 0, 0, [⟨0, 15, .rw, false, 0x0⟩]⟩,
  ⟨0x14c, 0x4, 1, 0, 0, [⟨0, 15, .ro, false, 0x0⟩]⟩,
  ⟨0x150, 0x4, 1, 0, 0, [⟨0, 31, .ro, false, 0x0⟩]⟩,
  ⟨0x160, 0x4, 1, 0, 0, [⟨0, 13, .rw, false, 0xa⟩]⟩,
  ⟨0x170, 0x4, 1, 0, 0, [⟨0, 16, .ro, false, 0x0⟩, ⟨17, 18, .ro, false, 0x0⟩, ⟨19, 23, .ro, false, 0x0⟩, ⟨31, 31, .ro, false, 0x0⟩]⟩,
  ⟨0x174, 0x4, 1, 0, 0, [⟨12, 31, .ro, false, 0x0⟩]⟩,
  ⟨0x178, 0x4, 1, 0, 0, [⟨0, 24, .ro, false, 0x0⟩]⟩,
  ⟨0x180, 0x4, 1, 0, 0, [⟨0, 16, .rw, false, 0x0⟩]⟩,
  ⟨0x184, 0x4, 1, 0, 0, [⟨12, 31, .rw, false, 0x0⟩]⟩,
  ⟨0x188, 0x4, 1, 0, 0, [⟨0, 24, .rw, false, 0x0⟩]⟩,
  ⟨0x18c, 0x4, 1, 0, 0, [⟨0, 0, .rw, false, 0x0⟩, ⟨1, 1, .rw, false, 0x0⟩, ⟨2, 4, .rw, false, 0x0⟩, ⟨5, 6, .rw, false, 0x0⟩, ⟨12, 31, .rw, false, 0x0⟩]⟩,
  ⟨0x190, 0x4, 1, 0, 0, [⟨0, 19, .rw, false, 0x0⟩]⟩]

def ixuRegs2 : List RegDef := [
  ⟨0x194, 0x4, 1, 0, 0, [⟨0, 0, .wo, false, 0x0⟩, ⟨1, 1, .wo, false, 0x0⟩]⟩,
  ⟨0x198, 0x4, 1, 0, 0, [⟨0, 13, .ro, false, 0x0⟩, ⟨14, 14, .w1c, false, 0x0⟩]⟩,
  ⟨0x400, 0x4, 64, 0, 0, [⟨0, 16, .rwq, false, 0x0⟩, ⟨31, 31, .rwq, false, 0x0⟩]⟩]

/-- The registers of the `ixu` pages. -/
def ixuRegs : List RegDef := ixuRegs0 ++ ixuRegs1 ++ ixuRegs2

def neRegs0 : List RegDef := [
  ⟨0x100, 0x4, 1, 0, 0, [⟨0, 15, .rwq, false, 0x5a3c⟩, ⟨16, 17, .rwq, false, 0x2⟩, ⟨18, 18, .rwq, false, 0x1⟩]⟩,
  ⟨0x104, 0x4, 1, 0, 0, [⟨0, 4, .rwq, false, 0xe⟩, ⟨12, 31, .rwq, false, 0x0⟩]⟩,
  ⟨0x108, 0x4, 1, 0, 0, [⟨0, 19, .rwq, false, 0x0⟩]⟩,
  ⟨0x10c, 0x4, 1, 0, 0, [⟨0, 4, .rwq, false, 0xa⟩, ⟨12, 31, .rwq, false, 0x0⟩]⟩,
  ⟨0x110, 0x4, 1, 0, 0, [⟨0, 19, .rwq, false, 0x0⟩]⟩,
  ⟨0x114, 0x4, 1, 0, 0, [⟨0, 4, .rwq, false, 0xa⟩, ⟨5, 5, .rwq, false, 0x0⟩, ⟨12, 31, .rwq, false, 0x0⟩]⟩,
  ⟨0x118, 0x4, 1, 0, 0, [⟨0, 19, .rwq, false, 0x0⟩]⟩,
  ⟨0x11c, 0x4, 1, 0, 0, [⟨0, 8, .rwq, false, 0x1ff⟩]⟩,
  ⟨0x120, 0x4, 1, 0, 0, [⟨0, 7, .rwq, false, 0xa⟩, ⟨8, 11, .rwq, false, 0x3⟩, ⟨12, 27, .rwq, false, 0x2710⟩]⟩,
  ⟨0x124, 0x4, 1, 0, 0, [⟨0, 7, .rwq, false, 0x14⟩, ⟨8, 11, .rwq, false, 0x8⟩, ⟨12, 19, .rwq, false, 0xa⟩, ⟨20, 22, .rwq, false, 0x7⟩]⟩,
  ⟨0x130, 0x4, 1, 0, 0, [⟨0, 23, .wo, false, 0x0⟩, ⟨24, 25, .wo, false, 0x0⟩]⟩,
  ⟨0x134, 0x4, 1, 0, 0, [⟨0, 0, .ro, false, 0x0⟩, ⟨1, 1, .ro, false, 0x0⟩]⟩]

def neRegs1 : List RegDef := [
  ⟨0x140, 0x4, 1, 0, 0, [⟨0, 0, .w1c, false, 0x0⟩, ⟨1, 1, .w1c, false, 0x0⟩, ⟨2, 2, .w1c, false, 0x0⟩, ⟨3, 3, .w1c, false, 0x0⟩]⟩,
  ⟨0x150, 0x4, 1, 0, 0, [⟨0, 10, .rwq, false, 0x20⟩]⟩,
  ⟨0x400, 0x4, 1, 0, 0, [⟨0, 31, .ro, false, 0x0⟩]⟩,
  ⟨0x404, 0x4, 1, 0, 0, [⟨0, 31, .ro, false, 0x0⟩]⟩,
  ⟨0x408, 0x4, 1, 0, 0, [⟨0, 31, .ro, false, 0x0⟩]⟩,
  ⟨0x40c, 0x4, 1, 0, 0, [⟨0, 31, .ro, false, 0x0⟩]⟩,
  ⟨0x410, 0x4, 1, 0, 0, [⟨0, 31, .ro, true, 0x0⟩]⟩,
  ⟨0x414, 0x4, 1, 0, 0, [⟨0, 31, .ro, false, 0x0⟩]⟩,
  ⟨0x418, 0x4, 1, 0, 0, [⟨0, 31, .ro, false, 0x0⟩]⟩]

/-- The registers of the `ne` pages. -/
def neRegs : List RegDef := neRegs0 ++ neRegs1

def nepRegs0 : List RegDef := [
  ⟨0x100, 0x4, 1, 0, 3, [⟨0, 1, .rwq, false, 0x0⟩, ⟨4, 11, .rwq, false, 0x0⟩, ⟨12, 12, .rwq, false, 0x0⟩, ⟨16, 29, .rwq, false, 0x2400⟩]⟩,
  ⟨0x104, 0x4, 1, 0, 3, [⟨0, 3, .ro, false, 0x0⟩, ⟨4, 7, .ro, false, 0x0⟩, ⟨8, 11, .ro, false, 0x0⟩, ⟨12, 15, .w1c, false, 0x0⟩, ⟨16, 16, .w1c, false, 0x0⟩, ⟨17, 17, .w1c, false, 0x0⟩]⟩,
  ⟨0x108, 0x4, 1, 0, 3, [⟨0, 15, .rwq, false, 0x3e8⟩]⟩,
  ⟨0x10c, 0x4, 1, 0, 3, [⟨0, 13, .rwq, false, 0x800⟩, ⟨16, 29, .rwq, false, 0x1000⟩]⟩,
  ⟨0x400, 0x20, 4, 0, 3, [⟨0, 31, .ro, false, 0x0⟩]⟩,
  ⟨0x404, 0x20, 4, 0, 3, [⟨0, 31, .ro, false, 0x0⟩]⟩,
  ⟨0x408, 0x20, 4, 0, 3, [⟨0, 31, .ro, false, 0x0⟩]⟩,
  ⟨0x40c, 0x20, 4, 0, 3, [⟨0, 31, .ro, false, 0x0⟩]⟩,
  ⟨0x410, 0x20, 4, 0, 3, [⟨0, 31, .ro, false, 0x0⟩]⟩,
  ⟨0x414, 0x20, 4, 0, 3, [⟨0, 31, .ro, false, 0x0⟩]⟩,
  ⟨0x418, 0x20, 4, 0, 3, [⟨0, 31, .ro, false, 0x0⟩]⟩,
  ⟨0x41c, 0x20, 4, 0, 3, [⟨0, 31, .ro, false, 0x0⟩]⟩]

/-- The registers of the `nep` pages. -/
def nepRegs : List RegDef := nepRegs0

def optRegs0 : List RegDef := [
  ⟨0x100, 0x4, 1, 0, 1, [⟨0, 7, .rw, false, 0xf0⟩]⟩,
  ⟨0x104, 0x4, 1, 0, 1, [⟨0, 7, .ro, false, 0x0⟩, ⟨8, 15, .ro, false, 0x0⟩, ⟨16, 23, .ro, false, 0x0⟩]⟩,
  ⟨0x108, 0x4, 1, 0, 1, [⟨0, 7, .wo, false, 0x0⟩]⟩,
  ⟨0x10c, 0x4, 1, 0, 1, [⟨0, 0, .w1c, false, 0x0⟩, ⟨1, 1, .w1c, false, 0x0⟩]⟩,
  ⟨0x400, 0x4, 1, 0, 1, [⟨0, 31, .ro, false, 0x0⟩]⟩]

/-- The registers of the `opt` pages. -/
def optRegs : List RegDef := optRegs0

def embRegs0 : List RegDef := [
  ⟨0x100, 0x4, 1, 0, 3, [⟨0, 0, .ro, false, 0x0⟩, ⟨1, 4, .ro, false, 0x0⟩, ⟨5, 5, .ro, false, 0x0⟩, ⟨6, 6, .ro, false, 0x0⟩, ⟨7, 7, .w1c, true, 0x0⟩, ⟨8, 8, .w1c, false, 0x0⟩, ⟨9, 9, .w1c, false, 0x0⟩, ⟨10, 10, .w1c, false, 0x0⟩, ⟨11, 11, .w1c, false, 0x0⟩]⟩,
  ⟨0x104, 0x4, 1, 0, 3, [⟨0, 7, .ro, false, 0x0⟩, ⟨8, 15, .ro, false, 0x0⟩, ⟨16, 23, .ro, false, 0x0⟩, ⟨24, 31, .ro, false, 0x0⟩]⟩,
  ⟨0x108, 0x4, 1, 0, 3, [⟨0, 23, .ro, false, 0x0⟩, ⟨24, 31, .ro, false, 0x0⟩]⟩,
  ⟨0x400, 0x8, 8, 0, 3, [⟨0, 15, .ro, false, 0x0⟩, ⟨16, 31, .ro, false, 0x0⟩]⟩,
  ⟨0x404, 0x8, 8, 0, 3, [⟨0, 31, .ro, false, 0x0⟩]⟩,
  ⟨0x800, 0x4, 128, 0, 3, [⟨0, 31, .ro, false, 0x0⟩]⟩]

/-- The registers of the `emb` pages. -/
def embRegs : List RegDef := embRegs0

def pcieRegs0 : List RegDef := [
  ⟨0x200, 0x4, 1, 0, 5, [⟨0, 19, .rw, false, 0x3e80⟩]⟩,
  ⟨0x408, 0x4, 1, 0, 5, [⟨0, 31, .ro, true, 0x0⟩]⟩,
  ⟨0x40c, 0x4, 1, 0, 5, [⟨0, 31, .ro, false, 0x0⟩]⟩,
  ⟨0x600, 0x10, 4, 0, 1, [⟨0, 0, .rwq, false, 0x0⟩, ⟨28, 31, .rwq, false, 0x0⟩]⟩,
  ⟨0x604, 0x10, 4, 0, 1, [⟨0, 19, .rwq, false, 0x0⟩]⟩,
  ⟨0x608, 0x10, 4, 0, 1, [⟨0, 16, .rwq, false, 0x0⟩]⟩,
  ⟨0x640, 0x8, 4, 0, 1, [⟨0, 31, .ro, false, 0x0⟩]⟩,
  ⟨0x644, 0x8, 4, 0, 1, [⟨0, 31, .ro, false, 0x0⟩]⟩]

/-- The registers of the `pcie` pages. -/
def pcieRegs : List RegDef := pcieRegs0

def pmcRegs0 : List RegDef := [
  ⟨0x3000, 0x4, 8, 0, 0, [⟨0, 9, .rw, false, 0x0⟩, ⟨10, 10, .rw, false, 0x0⟩, ⟨11, 11, .rw, false, 0x0⟩]⟩,
  ⟨0x3020, 0x4, 8, 0, 0, [⟨0, 7, .rw, false, 0x0⟩, ⟨8, 8, .rw, false, 0x0⟩, ⟨9, 12, .rw, false, 0xf⟩, ⟨16, 22, .rw, false, 0x0⟩, ⟨23, 23, .rw, false, 0x0⟩]⟩,
  ⟨0x3040, 0x8, 8, 0, 0, [⟨0, 31, .rw, false, 0x0⟩]⟩,
  ⟨0x3044, 0x8, 8, 0, 0, [⟨0, 15, .rw, false, 0x0⟩]⟩,
  ⟨0x3080, 0x8, 8, 0, 0, [⟨0, 31, .ro, false, 0x0⟩]⟩,
  ⟨0x3084, 0x8, 8, 0, 0, [⟨0, 15, .ro, false, 0x0⟩]⟩,
  ⟨0x30c0, 0x4, 1, 0, 0, [⟨0, 7, .w1c, false, 0x0⟩]⟩]

/-- The registers of the `pmc` pages. -/
def pmcRegs : List RegDef := pmcRegs0

def hdrRegs0 : List RegDef := [
  ⟨0xc, 0x4, 1, 0, 0, [⟨0, 0, .rw, false, 0x0⟩]⟩,
  ⟨0x10, 0x4, 1, 0, 0, [⟨0, 0, .ro, false, 0x0⟩, ⟨1, 1, .ro, false, 0x0⟩, ⟨2, 2, .ro, false, 0x0⟩, ⟨3, 3, .w1c, false, 0x0⟩, ⟨4, 4, .w1c, false, 0x0⟩]⟩,
  ⟨0x14, 0x4, 1, 0, 0, [⟨0, 3, .rw, false, 0x0⟩]⟩]

/-- The registers of the `hdr` pages. -/
def hdrRegs : List RegDef := hdrRegs0

end Sys2Proof.Machine
end

