-- ==== Sys2Proof/Machine/State.lean ====
section
/-! DEFINITION. The state of the hub: every register, queue, buffer, cache, table, counter, mode and pin
that the spec gives it, as plain data, and the queue of waiting commands. -/

namespace Sys2Proof.Machine

/-! ### Records and events (R678 to R711) -/

/-- The content of one Field Book record before it is written (R696): words 0 to 3 come from the named
fields, words 4 and 5 from `addr`, words 6 onward from `words`; `fires` says that writing it raises its
SOURCE (last paragraph under R698). -/
structure Rec where
  typ : Nat
  cls : Nat
  source : Nat
  page : Nat
  node : Nat := 0xFF
  opcode : Nat := 0
  sub : Nat := 0
  addr : Option Nat := none
  words : List Nat := []
  fires : Bool := false
  deriving DecidableEq, Repr

/-! ### The fabric (R104 to R148) -/

/-- Where a packet in flight stands: at its source's interface waiting for injection, in an input queue of a router, in the receiving
queue of its destination's interface, at a die that has not yet sent it on a module, accepted from a module by LNK and not yet through
Boundary, delivered to the die on a module, or handed to site control (R160). -/
inductive Loc where
  | out
  | rtr (router port : Nat)
  | rx
  | die (site module : Nat)
  | link (site module : Nat)
  | dlv (site module : Nat)
  | site (site : Nat)
  deriving DecidableEq, Repr

/-- A packet in flight, where it is, and the TIME at which it got there. -/
structure InFlight where
  p : Pkt
  at_ : Loc
  since : Nat
  deriving DecidableEq, Repr

/-- A write held while a quench is busy (R99), with the selection it captured (R146), or Smith firmware's
values of a whole route set for the page (`set`, R671). -/
structure HeldWrite where
  page : Nat
  off : Nat
  data : Nat
  lanes : Nat
  sel : Nat
  set : Option Nat := none
  deriving DecidableEq, Repr

/-- The fabric's own state: arbitration pointers (port, count) per router output and class, the grants
decided for the next cycle, round-robin positions, credits in use per link and VC, credits owed. -/
structure Fabric where
  ptr : Tab (Nat × Nat) := []
  grant : Tab Nat := []
  rr : Tab Nat := []
  used : Tab Nat := []
  owed : List (Nat × Nat × Bool) := []
  hold : Bool := false
  deriving DecidableEq, Repr

/-- The quench in progress: whether one is, its mask, whether it is a cancel, whether its apply edge
has passed, and the groups it rejects. -/
structure Quench where
  busy : Bool := false
  cancel : Bool := false
  applied : Bool := false
  gmask : Nat := 0
  rej : Nat := 0
  held : List HeldWrite := []
  deriving DecidableEq, Repr

/-! ### Coherence: homes (R202 to R259) -/

/-- One way of a directory set (R210). `st` is 0 empty, 1 SH, 2 EX; `pv` is P, or the owner. -/
structure DirWay where
  line : Nat := 0
  st : Nat := 0
  pv : Nat := 0
  lead : Nat := 0
  lv : Bool := false
  age : Nat := 0
  deriving DecidableEq, Repr

/-- Directory state of a line (R152). -/
inductive DirSt where
  | nc
  | sh (pv : Nat) (lead : Option Nat)
  | ex (owner : Nat)
  deriving DecidableEq, Repr

/-- One outstanding snoop of a transaction. `rank`: 0 a sharer, 1 the Lead, 2 the EX owner. -/
structure Snoop where
  site : Nat
  op : Nat
  rank : Nat
  discard : Bool
  line : Nat
  start : Nat
  txn : Nat
  fwd : Bool
  timedOut : Bool := false
  deriving DecidableEq, Repr

/-- How a transaction holds its tracker entry (R225). -/
inductive Held where
  | reserved (c : Nat)
  | shared (c : Nat)
  | rsvEntry
  deriving DecidableEq, Repr

/-- A pending access of a home step to its Hearth slice: read for sourcing, read for a merge, write of a
whole line, or the poisoned rewrite of R245. -/
inductive HOp where
  | rd
  | rdm
  | wr (d : LineData) (psn : Bool)
  | pz
  deriving DecidableEq, Repr

/-- What a tracker entry works on: an admitted request, or the recall of R667. -/
inductive TKind where
  | request
  | recall (site : Nat)
  deriving DecidableEq, Repr

/-- One transaction of a home (R202), in tracker entry `key < 1024` or reservation entry `key - 1024`. `born` is its order of admission;
`looked`: the access it is about to write has looked its line up already (R323). -/
structure Txn where
  line : Nat
  req : Pkt
  held : Held
  kind : TKind := .request
  d0 : DirSt := .nc
  started : Bool := false
  snoops : List Snoop := []
  wpWait : List Snoop := []
  wbSeen : List Nat := []
  wbDone : List Nat := []
  fwd : Bool := false
  fwdOwner : Bool := false
  ansL : Bool := false
  data : Option (LineData × Bool) := none
  psnOut : Bool := false
  hq : List HOp := []
  memWait : Bool := false
  looked : Bool := false
  dataSent : Bool := false
  wrote : Bool := false
  way : Option Nat := none
  victim : Option (Nat × Nat) := none
  delayed : Bool := false
  born : Nat := 0
  deriving DecidableEq, Repr

/-- A line write in a writeback entry (R202): `ack` is the WbData to acknowledge, none for the poisoned
rewrite of a line that containment does away from any transaction. -/
structure Aux where
  line : Nat
  ack : Option Pkt
  site : Nat
  toTxn : Bool
  hq : List HOp
  memWait : Bool := false
  deriving DecidableEq, Repr

/-- A reservation (R226): source node, line, its order of making. -/
structure Rsv where
  srcNode : Nat
  line : Nat
  born : Nat
  deriving DecidableEq, Repr

/-- One home slice. `retired` and `wasted` are the steps issued in slots that the counters have not yet counted (R254); `last` is the line
of the last step where slot 1 of its cycle may still be open (R216). -/
structure Home where
  dir : Tab (List DirWay) := []
  trk : Tab Txn := []
  rsv : Tab Rsv := []
  rsvSeq : Nat := 0
  wb : Tab Aux := []
  heldSince : Tab Nat := []
  walk : Tab Nat := []
  walkSet : Nat := 0
  lossCnt : Tab Nat := []
  retired : Nat := 0
  wasted : Nat := 0
  last : Option Nat := none
  seq : Nat := 0
  recallOp : Option (Nat × Nat) := none
  deriving DecidableEq, Repr

/-! ### Coherence: dies (R149 to R186) -/

/-- State of a line at a Class F die (R149); I is a line the table does not list. -/
inductive LineSt where
  | sS | sL | sE | sM | sWP
  deriving DecidableEq, Repr

/-- A line in a die cache. -/
structure DieLine where
  st : LineSt
  data : LineData
  psn : Bool
  deriving DecidableEq, Repr

/-- A transaction outstanding at a die: its request as sent, and what has arrived (R171). -/
structure DieTxn where
  req : Pkt
  final : Bool := false
  gotData : Bool := false
  deriving DecidableEq, Repr

/-- A request that was Nacked and may be sent again (R174 to R178): consecutive Nacks, TIME of the last. -/
structure Retry where
  req : Pkt
  nacks : Nat
  since : Nat
  deriving DecidableEq, Repr

/-! ### Hearth (R308 to R350) -/

/-- The lock field of a way (R323 to R326). -/
inductive Lock where
  | none
  | locked (range : Nat)
  | reserved (range : Nat) (line : Nat)
  deriving DecidableEq, Repr

/-- One way of a Hearth set (R308). -/
structure HWay where
  valid : Bool := false
  line : Nat := 0
  dirty : Bool := false
  psn : Bool := false
  age : Nat := 0
  lock : Lock := .none
  data : LineData := 0
  deriving DecidableEq, Repr

/-- One victim buffer entry (R316). -/
structure VbEntry where
  line : Nat
  dirty : Bool
  psn : Bool
  data : LineData
  deriving DecidableEq, Repr

/-- One Hearth slice: cache ways by set, victim buffer in order of entry, mode (0 enabled, 1 cleaning,
2 bypass), and the next set of a running range operation. -/
structure Hearth where
  ways : Tab (List HWay) := []
  vb : List VbEntry := []
  mode : Nat := 0
  ropSet : Nat := 0
  deriving DecidableEq, Repr

/-- The package-wide range operation (R331 to R335): opcode, recorded base and limit lines, error seen. -/
structure Rop where
  op : Nat := 0
  base : Nat := 0
  limit : Nat := 0
  err : Bool := false
  deriving DecidableEq, Repr

/-! ### Memory (R351 to R396) -/

/-- A memory read that a Hearth slice has issued for an entry of its home, when, and the far-memory group and port it went to. `aux`: for a
writeback entry. -/
structure MemRd where
  line : Nat
  home : Nat
  key : Nat
  aux : Bool
  since : Nat := 0
  port : Option (Nat × Nat) := none
  deriving DecidableEq, Repr

/-- The line that a memory read returned; `fill`: it may be filled into the Hearth (R390). -/
structure MemRet where
  rd : MemRd
  data : LineData
  psn : Bool
  fill : Bool
  deriving DecidableEq, Repr

/-- A memory write the controller has accepted, or that went to a far-memory group and port, and that is not yet performed: when it was
issued, and whether a range operation issued it. -/
structure MemWr where
  line : Nat
  data : LineData
  psn : Bool
  rop : Bool
  since : Nat := 0
  port : Option (Nat × Nat) := none
  deriving DecidableEq, Repr

/-- Near memory and the controllers' own state: bytes, poison marks, reads and writes in flight, corrected
errors per row, spare rows in use per bank, refresh debts, banks in repayment, row sparings waiting; the channel each stack spares, and
since when. -/
structure Mem where
  cells : List Host.Cell := []
  marks : List Nat := []
  rd : List MemRd := []
  ret : List MemRet := []
  wr : List MemWr := []
  rowCe : Tab Nat := []
  rowMap : Tab Nat := []
  spareUsed : Tab Nat := []
  rowQ : List (Nat × Nat) := []
  debt : Tab Nat := []
  repay : Tab Nat := []
  lastForced : Tab Nat := []
  scrubSub : Tab Nat := []
  chanCe : Tab (List Nat) := []
  rowCur : Tab Nat := []
  spareChan : Tab Nat := []
  spareSince : Tab Nat := []
  deriving DecidableEq, Repr
/-- The causes of R760 that hold ALERT_N asserted. -/
structure Alert where
  fatal : Bool := false
  pll : Bool := false
  noImage : Bool := false
  noBootSite : Bool := false
  railAtPwrok : Bool := false
  supply : Bool := false
  thermal : Bool := false
  deriving DecidableEq, Repr

/-! ### Smith (R647 to R676) -/

/-- A stored profile (R653): power limit and caps, hash mode, scratch ways, VOTES, and the Boundary defaults of C12 to C15 (CLASS_OK by
site, BND_ACT, BND_METER). Its weights are always the balanced set (WEIGHTS 0). -/
structure Prof where
  plimit : Nat
  fcap : Nat
  floor : Nat
  hash : Nat
  scr : Nat
  votes : Nat
  classOk : List Nat
  act : Nat
  meters : List Nat
  deriving DecidableEq, Repr

/-- The boot flash as Smith firmware uses it (R651, R652): profiles written by PROFILE_WRITE (an unlisted one is the factory record), the
profile copies whose CRC does not verify (bit n: primary of Pn; bit 4 + n: its backup), the slot in force, the version and validity of
each slot's image, and the host firmware image with its load address; the row and channel sparing maps (R373): the spare row of a row,
the spare rows used in a bank, the spared channel of a stack; and what the image of each slot carries to admit dies and Ember modules by
(R451, R652). -/
structure Flash where
  prof : Tab Prof := []
  bad : Nat := 0
  slot : Nat := 0
  ver : List Nat := [0, 0]
  good : List Bool := [true, true]
  load : Nat := 0
  image : List Byte := []
  rowMap : Tab Nat := []
  spareUsed : Tab Nat := []
  chanMap : Tab Nat := []
  trust : List Trust := [{}, {}]
  deriving DecidableEq, Repr

/-- Smith firmware: running or not, the mailbox command in execution (code, client is the BMC, arguments,
tag, phase, the site or block it works on), an automatic in-service operation (1 channel sparing, 2 alternate
routes, with its block), the BMC answer owed (R663), copies of event firings received (R684), what took place
in a pause (R649), the route set in force, the start-up running, the start PA of SITE_ONLINE, the TIME at which a restart began, the TIME at which the fabric was held (R672),
the TIME of an FW_ACTIVATE whose image has not cleared TRIAL, the TIME and data byte of the last In-Band Interrupt (R676), what the
BMC's last private read returned, and the profile as loaded at the last reset (R49; none: the factory record of P0). -/
structure Smith where
  running : Bool := true
  op : Option Nat := none
  bmc : Bool := false
  args : List Nat := []
  tag : Nat := 0
  phase : Nat := 0
  site : Nat := 0
  autoOp : Option (Nat × Nat) := none
  bmcBusy : Option (Nat × Nat) := none
  copies : List Nat := []
  pauseNotes : List Rec := []
  routeSet : Nat := 0
  startup : Bool := false
  startPa : Nat := 0
  down : Nat := 0
  hold : Nat := 0
  trial : Option Nat := none
  beat : Nat := 0
  ibi : Option Nat := none
  bmcData : Nat := 0
  boot : Option Prof := none
  deriving DecidableEq, Repr

/-! ### Site control, links and device groups -/

/-- A Drain in progress (R280 to R285): the unit, its arrival, the writes it covers that are not yet accepted, all those it covers that
the hub still held when it came, the groups still to be flushed, and the first failure (cause, target, address). -/
structure DrainRec where
  id : Nat
  p : Pkt
  start : Nat
  waits : List Pkt
  covers : List Pkt := []
  need : List Nat
  fail : Option (Nat × Nat × Nat) := none
  deriving DecidableEq, Repr

/-- A unit of a die that a meter holds (R472): the module that carried it. -/
structure HeldUnit where
  p : Pkt
  m : Nat
  deriving DecidableEq, Repr

/-- A device request sent to a Class D die and not yet completed (R468). -/
structure DevPend where
  p : Pkt
  since : Nat
  deriving DecidableEq, Repr

/-- A snoop or XlatInvFwd sent to the die and not yet answered (R473). -/
structure SnpPend where
  p : Pkt
  since : Nat
  noted : Bool := false
  deriving DecidableEq, Repr

/-- An XlatInv or XlatSync whose answers SITE counts (R504 to R507): the originator's unit, whether it has been forwarded and
when, the targets still to answer (16 for the IXU, 17 for the NE, a site number for a die), an error seen. -/
structure XlatOp where
  p : Pkt
  started : Bool := false
  start : Nat := 0
  waits : List Nat := []
  err : Bool := false
  deriving DecidableEq, Repr

/-- An interrupt message LNK has consumed (R689 to R692): core, vector, consumption time, its INTR sequence number
and the time of its last sending (none: not yet sent). -/
structure IntrMsg where
  core : Nat
  vector : Nat
  since : Nat
  seq : Option Nat := none
  sent : Nat := 0
  deriving DecidableEq, Repr

/-- Traverse of a site in progress (R454 to R460): the step, the module that carries the exchange, the Datum
chunks read, the nonce of the challenge, the level and capabilities offered and answered, the time of the frame awaiting its answer. -/
structure Trav where
  step : Nat := 0
  m : Nat := 0
  chunk : Nat := 0
  bytes : List Nat := []
  nonce : Nat := 0
  level : Nat := 0
  caps : Nat := 0
  sent : Nat := 0
  tries : Nat := 0
  answered : Bool := false
  deriving DecidableEq, Repr

/-- Site control of one site, with the parts of its LNK that serve the whole site. `drainMark`: Drains that LNK has received and SITE has not
yet taken, with the device writes received before each (R280). -/
structure Site where
  devw : List Pkt := []
  drainMark : List (Pkt × List Pkt) := []
  devFail : Option (Nat × Nat × Nat) := none
  drains : List DrainRec := []
  drainSeq : Nat := 0
  held : List HeldUnit := []
  tokens : List (Nat × Nat) := [(0, 0), (0, 0), (0, 0), (0, 0)]
  outReq : List (Nat × Nat) := []
  dev : List DevPend := []
  devGone : List Pkt := []
  snoops : List SnpPend := []
  sink : List Pkt := []
  xlat : List XlatOp := []
  intr : List IntrMsg := []
  intrSeq : Nat := 0
  lastSync : Nat := 0
  trav : Option Trav := none
  lastDie : Option (Nat × Nat × Nat) := none
  lastClass : Option (Nat × Bool) := none
  pub : Nat := 3
  deriving DecidableEq, Repr

/-- A repair a receiving side runs (R427 to R430): lane, new record, MAPSEQ, time of the last request. -/
structure Repair where
  lane : Nat
  record : Nat
  seq : Nat
  sent : Nat
  deriving DecidableEq, Repr

/-- A DATA frame sent and not acknowledged (R413): SEQ, units, time of first sending, times sent. -/
structure TxFrame where
  seq : Nat
  units : List Pkt
  since : Nat
  sends : Nat := 1
  deriving DecidableEq, Repr

/-- The link state of R412 and the credit counts of R410, of one side of a module: next SEQ to send, last SEQ accepted
plus one, frames not acknowledged, the partner's grants, units sent, credits it reported freed, units received, credits
this side freed, and what of these it has not yet reported (ACK, and the VCs); the number of frames sent, whose low bits place the
credit slots (R411), and, while it sends frames again, the SEQ of the next (R415). -/
structure LinkState where
  txSeq : Nat := 0
  rxSeq : Nat := 0
  unacked : List TxFrame := []
  grantH : List Nat := [0, 0, 0, 0, 0, 0, 0, 0]
  grantD : List Nat := [0, 0, 0, 0, 0, 0, 0, 0]
  granted : Bool := false
  sentH : List Nat := [0, 0, 0, 0, 0, 0, 0, 0]
  sentD : List Nat := [0, 0, 0, 0, 0, 0, 0, 0]
  backH : List Nat := [0, 0, 0, 0, 0, 0, 0, 0]
  backD : List Nat := [0, 0, 0, 0, 0, 0, 0, 0]
  recvH : List Nat := [0, 0, 0, 0, 0, 0, 0, 0]
  recvD : List Nat := [0, 0, 0, 0, 0, 0, 0, 0]
  freedH : List Nat := [0, 0, 0, 0, 0, 0, 0, 0]
  freedD : List Nat := [0, 0, 0, 0, 0, 0, 0, 0]
  ackDue : Bool := false
  dueVc : List Nat := []
  frames : Nat := 0
  replay : Option Nat := none
  deriving DecidableEq, Repr

/-- One side of a module (R397). `st` is STATE of LNK_STAT; the hub end's registers mirror it. `active`: it has been ACTIVE since
RESET. `badSeqs`: SEQs whose frame failed its CRC, with the payload bits that arrived wrong (R442). `earlyConf`: a MAP_CONFIRM that
came before the partner's MAP_PROPOSE (R426). `copy`: the failed lane and the spare that carries its copy in a pause, `low`: lanes held
at 0 after a repair (R428). `spareErr`: errors in the patterns of unused spares in this window (R442). `syncDue`: it has retired and
its side owes RETIRE_SYNC for it (R433). `outbox`: frames sent and not yet received. -/
structure LinkSide where
  st : Nat := 0
  since : Nat := 0
  width : Nat := 0
  mapDh : Nat := 0
  mapHd : Nat := 0
  mapSeq : Nat := 0
  mm : Nat := 0
  sv : Nat := 0
  link : Option LinkState := none
  calFail : Nat := 0
  thrFail : Nat := 0
  helloSent : Bool := false
  helloRecv : Bool := false
  surveySent : Bool := false
  surveyRecv : Bool := false
  partnerSeq : Nat := 0
  calSent : Bool := false
  calRecv : Bool := false
  partnerFail : Option Nat := none
  confSent : Bool := false
  confRecv : Bool := false
  newDh : Nat := 0
  newHd : Nat := 0
  newWidth : Nat := 0
  fromRetrain : Bool := false
  outSince : Nat := 0
  enSince : Nat := 0
  lastTx : Nat := 0
  lastRx : Nat := 0
  lastUnit : Nat := 0
  lastRpl : Option Nat := none
  winStart : Nat := 0
  crcFails : Nat := 0
  badSeqs : List (Nat × List Nat) := []
  spareErr : Tab Nat := []
  laneErr : Tab Nat := []
  rep : Option Repair := none
  repQueue : List Nat := []
  repFinish : Bool := false
  pause : Option Nat := none
  pauseRec : Nat := 0
  pauseSeq : Nat := 0
  idleReq : Option Nat := none
  idleAck : Option Nat := none
  retSync : Tab (Nat × Nat × Bool) := []
  syncDue : Bool := false
  resend : List Pkt := []
  delay : Nat := 0
  active : Bool := false
  earlyConf : Option (Nat × Nat) := none
  copy : Option (Nat × Nat) := none
  low : List Nat := []
  outbox : List LinkFrame := []
  deriving DecidableEq, Repr

/-- A flushing read of a PCIe group (R282 to R287): site, address, port, start, limit, the Drain it serves, the posted writes of the group
that stand before it on its port. -/
structure Flush where
  site : Nat
  addr : Nat
  port : Nat
  start : Nat
  limit : Nat
  drain : Option Nat
  ahead : List (Nat × Pkt) := []
  deriving DecidableEq, Repr

/-- A non-posted request a PCIe group has sent to a device (R291): its port, start and limit; once the device has completed it, the
STATUS and data of the completion and the posted writes it must not pass (R273). -/
structure NonPosted where
  p : Pkt
  port : Nat
  start : Nat
  limit : Nat
  cpl : Option (Nat × LineData × List Nat) := none
  deriving DecidableEq, Repr

/-- One PCIe/CXL root group: posted-write buffer with the port of each write, target blocks recorded per site, flushing
reads, non-posted requests, tags kept out of use, ports whose link is up. -/
structure Group where
  pw : List (Nat × Pkt) := []
  blocks : Tab (List (Nat × Nat)) := []
  flushes : List Flush := []
  nonp : List NonPosted := []
  lateTags : List (Nat × Nat × Nat) := []
  up : List Nat := []
  lateMem : List (Nat × Nat) := []
  deriving DecidableEq, Repr

/-- One compute die as the hub's contract sees it: its cache (R149), transactions outstanding by module and TXN, snoops
held under R179, retries owed, the frequency and current limits applied (R636), time alignment (R634), the interrupt
sequence numbers already delivered and what was delivered (R692), what Traverse gave it (R458, R459), the counter
actions it took (R722), the start PA it received (R657), and the chunks of its Datum block that it has presented since its supplies came
up (R451). -/
structure Die where
  lines : Tab DieLine := []
  txns : Tab DieTxn := []
  heldSnoops : List Pkt := []
  retries : Tab Retry := []
  fmax : Nat := 0
  imax : Nat := 0
  sync : Option (Nat × Nat) := none
  intrSeen : List Nat := []
  intrs : List (Nat × Nat) := []
  site : Nat := 0
  node : Nat := 0
  coreBase : Nat := 0
  cores : Nat := 0
  level : Nat := 0
  caps : Nat := 0
  committed : Bool := false
  refused : Option Nat := none
  pmu : Option (Nat × Nat × Nat) := none
  pmuDone : Nat := 0
  start : Option Nat := none
  datum : Tab (List Byte) := []
  deriving DecidableEq, Repr


/-! ### Power, events, Field Book, counters -/

/-- One filtered slow input (R641): time of the last raw falling edge, whether it came less than 2 us after the one
before, the filtered level and since when, and whether its 1 s of assertion has been noted (R643, R644). -/
structure Pin where
  fall : Option Nat := none
  quick : Bool := false
  filt : Bool := false
  since : Nat := 0
  noted : Bool := false
  deriving DecidableEq, Repr

/-- The last PWR_SET of a site (R636, R637): sequence number, FMAX, IMAX, first and last sending, and what has come of it. -/
structure PwrSet where
  seq : Nat
  fmax : Nat
  imax : Nat
  first : Nat
  last : Nat
  acked : Bool := false
  late : Bool := false
  deriving DecidableEq, Repr

/-- The power block and Smith's power work: filtered inputs, times of domain state changes, PWR_SETs by site and their
next sequence number, the power control loop (next period, its last start), the step of Banked entry and its start, PACE
saved over it, a level wake seen in its commit window, the start of the exit; whether a supply fault or thermal trip has
stopped the domains' clocks, THERMTRIP_N, whether the boot failed (R652, R732); the warm reset (R660: 0 none, 1 its drain, 2 after the hub reset) with t0 its
cause as LAST names it and the hash mode and scratch ways before it, and filtered PKG_RESET_N (R740). -/
structure Power where
  pins : Tab Pin := []
  domSince : Tab Nat := []
  sets : Tab PwrSet := []
  setSeq : Nat := 0
  period : Nat := 0
  lastStart : Option Nat := none
  bank : Nat := 0
  bankSince : Nat := 0
  pace : Nat := 72
  level : Bool := false
  exitSince : Nat := 0
  stopped : Bool := false
  trip : Bool := false
  bootFail : Bool := false
  warm : Nat := 0
  warmSince : Nat := 0
  warmCause : Nat := 0
  warmQuad : Bool := false
  warmScr : Nat := 0
  pkgLow : Bool := false
  deriving DecidableEq, Repr

/-- Storm control (R693, R694): by source the start of its window and the firings in it; storms running with their start and
the firings suppressed, where they are counted. -/
structure Storm where
  win : Tab (Nat × Nat) := []
  on : Tab (Nat × Option Nat) := []
  deriving DecidableEq, Repr

/-- One capture or drain word of the Field Book (R699): four record words, and the tag. -/
structure FbWord where
  w : List Nat
  vbytes : Nat
  sor : Bool
  ue : Bool := false
  deriving DecidableEq, Repr

/-- A record that has opened and not closed (R704): its words, how many are written, the last write, and whether its writer
is still there. -/
structure FbOpen where
  words : List Nat
  written : Nat
  last : Nat
  writer : Bool := true
  deriving DecidableEq, Repr

/-- The Field Book (R699 to R710): the bank being written, the bank handed over, the drain FIFO, the last word popped, the
open record, records dropped with the TIME of the first, the ring's PHASE, whether a ring write is outstanding, its request and the Nacks
it has had (R175), whether a
ring error stopped it, entries written since FB_DATA last fired and the TIME of the first of them. -/
structure FieldBook where
  cur : List FbWord := []
  other : List FbWord := []
  fifo : List FbWord := []
  last : Option FbWord := none
  openRec : Option FbOpen := none
  drops : Option (Nat × Nat) := none
  phase : Bool := true
  busy : Bool := false
  req : Option Pkt := none
  nacks : Nat := 0
  halt : Bool := false
  since : Nat := 0
  first : Option Nat := none
  deriving DecidableEq, Repr

/-- A PMU_CTL action in progress (R718 to R724): the actions, the edge's T where dies take part, the sequence number of its
frames, the sites still to answer, and whether E has passed. -/
structure PmuAct where
  freeze : Bool
  unfreeze : Bool
  snap : Bool
  clear : Bool
  t : Option Nat
  seq : Nat
  waits : List Nat
  edge : Bool := false
  deriving DecidableEq, Repr

/-! ### I/O translation (R480 to R521) -/

/-- A cached leaf (R496): tags, the page (first address and size: 0 4 KiB, 1 2 MiB, 2 1 GiB), the output page, what it
permits, U and the no-allocate type. `stream` is the tag of a loaded entry (SOFT mode), none elsewhere. -/
structure Tlb where
  stream : Option Nat := none
  space : Nat := 0
  vmid : Nat := 0
  g : Bool := false
  va : Nat
  size : Nat
  pa : Nat
  r : Bool
  w : Bool
  u : Bool := true
  na : Bool := false
  deriving DecidableEq, Repr

/-- A walk-cache entry (R496): a table entry of a MODE 2 stream read at `level` for the addresses that share the bits above
it; `tbl` is the next table's PA. -/
structure WalkEnt where
  space : Nat
  vmid : Nat
  level : Nat
  top : Nat
  tbl : Nat
  deriving DecidableEq, Repr

/-- A leaf the walker has read: entry, level, its address (a PA). -/
structure LeafRead where
  entry : Nat
  level : Nat
  pa : Nat
  deriving DecidableEq, Repr

/-- A stage-2 translation inside a walk (R491): the IPA, what it is for (0 a stage-1 table read, 1 a stage-1 update,
2 the output), its level and table. -/
structure Stage2 where
  ipa : Nat
  why : Nat
  level : Nat
  tbl : Nat
  deriving DecidableEq, Repr

/-- What a walk waits for: nothing (the binding record), the read of an entry, or an A or D update: entry address, entry as
read, new value, and whether it is the stage-2 entry's. -/
inductive WalkWait where
  | binding
  | entry (pa : Nat)
  | update (pa old new : Nat) (two : Bool)
  deriving DecidableEq, Repr

/-- A walk for one DMA or translation request (R485 to R492). `keep`, `keepNe`: its result may still go into the IXU's caches (R510), and
into the NE's (R511). -/
structure Walk where
  wait : WalkWait
  bind : Nat := 0
  level : Nat := 0
  tbl : Nat := 0
  s2 : Option Stage2 := none
  leaf1 : Option LeafRead := none
  leaf2 : Option LeafRead := none
  fails : Nat := 0
  keep : Bool := true
  keepNe : Bool := true
  deriving DecidableEq, Repr

/-- Where a DMA stands (R493, R508, R518): its walk runs, a SOFT-mode miss waits for a stall slot or is stalled since a
TIME, it is translated and may be sent when R272 allows, its requests are outstanding, or it has ended with a status and its device is
answered when R273 allows. -/
inductive DmaSt where
  | walking
  | waitSlot
  | stalled (since : Nat)
  | ready
  | sent (since : Nat)
  | ended (status : Nat) (ep : Bool)
  deriving DecidableEq, Repr

/-- One DMA (R272, R480, R508): who carries it (0 to 5 a PCIe group, 16 the NE), requester, stream, address, access (0 read,
1 write, 2 atomic, 3 ATS translation request), kind for R272 (0 posted write with relaxed ordering clear, 1 with it set,
2 read or atomic, 3 message write), data, mask, atomic operation, whether a Translated Request, whether speculative, where
it stands, its output address and no-allocate type, the cached entry it used, whether an invalidation removed that entry
since, and, for the NE, the job it serves, its position there and the FGEN it was issued under (R605); the requests it still waits for
(R169), the worst status they ended with and the bytes they brought. -/
structure Dma where
  who : Nat
  rid : Nat
  stream : Nat
  va : Nat
  acc : Nat
  kind : Nat
  data : LineData := 0
  mask : ByteMask := 0
  op : Nat := 0
  psn : Bool := false
  translated : Bool := false
  spec : Bool := false
  st : DmaSt := .walking
  pa : Nat := 0
  na : Bool := false
  used : Option Tlb := none
  stale : Bool := false
  job : Nat := 0
  pos : Nat := 0
  fgen : Nat := 0
  parts : Nat := 1
  worst : Nat := 0
  got : LineData := 0
  deriving DecidableEq, Repr

/-- What a hub agent does with the response to a request it sent; `late`: its access has timed out (R607). -/
inductive AgUse where
  | dma (id : Nat)
  | walk (id : Nat)
  | fault
  | cqRead
  | syncWrite
  | late
  deriving DecidableEq, Repr

/-- A request of a hub agent outstanding at a home or claimant (R157, R174): Nacks so far, its use. -/
structure AgReq where
  p : Pkt
  nacks : Nat := 0
  use : AgUse
  deriving DecidableEq, Repr

/-- An ATS invalidation outstanding at a device, and the range of addresses it covers (R514). -/
structure AtsInv where
  id : Nat
  stream : Nat
  since : Nat
  base : Nat := 0
  bytes : Nat := 0
  deriving DecidableEq, Repr

/-- A SYNC the IXU has begun (R503, R505): the unit to answer (none: the command queue's), the NE answers, ATS invalidations
and DMAs it waits for, and whether one timed out. -/
structure IxuSync where
  p : Option Pkt
  ne : List Nat
  ats : List Nat
  dmas : List Nat
  err : Bool := false
  deriving DecidableEq, Repr

/-- The IXU beside its registers: binding cache, IOTLB, walk cache, loaded entries, walks by DMA, the command read and not
yet completed, whether its read is outstanding, TXN values of XlatInvFwd the NE has not acknowledged and the next one, ATS
invalidations outstanding with their next number, blocked streams, SYNCs begun, fault records not yet written and whether
one is being written, and the first refusal in BLOCK mode noted (R516). -/
structure Ixu where
  binds : List (Nat × Nat) := []
  tlb : List Tlb := []
  walkc : List WalkEnt := []
  loaded : List Tlb := []
  walks : Tab Walk := []
  cqCmd : Option Nat := none
  cqBusy : Bool := false
  neOut : List Nat := []
  neTxn : Nat := 0
  ats : List AtsInv := []
  atsSeq : Nat := 0
  blocked : List Nat := []
  syncs : List IxuSync := []
  syncW : Bool := false
  faults : List Nat := []
  fqBusy : Bool := false
  blockNoted : Bool := false
  deriving DecidableEq, Repr

/-- The last answer a requester outside the hub was given: requester, STATUS (0 OK, 1 reserved, 2 ERR), data; for an ATS
translation also PA, size, R and W (R493, R513); `ep`: sent as a poisoned TLP (R680). -/
structure DmaAns where
  rid : Nat
  status : Nat
  data : LineData := 0
  pa : Nat := 0
  size : Nat := 0
  r : Bool := false
  w : Bool := false
  ep : Bool := false
  deriving DecidableEq, Repr

/-! ### Network engine (R543 to R611) -/

/-- What an NE job waits for: a send descriptor; a receive descriptor for a responder packet; the local payload of the next
packet of an operation, or of a raw frame; a responder packet's writes or atomic, or its reads; placement of READ_RESP or
ATOMIC_RESP data of a PSN; a completion entry, doorbell record, admin command, parameter block, query area, admin completion;
a flow bucket for a frame; a window entry for a responder packet; a context fill or spill; a raw frame's buffer; a message;
a window cleared by an FLR. -/
inductive NeKind where
  | sqFetch (q idx : Nat)
  | rqFetch (q rop : Nat)
  | payload (cid op off n : Nat)
  | rawPay (q idx : Nat)
  | respWrite (rop : Nat)
  | respRead (rop : Nat)
  | place (cid op off n : Nat)
  | cplWrite (q : Nat)
  | dbrWrite (q : Nat)
  | aqFetch
  | aqParam
  | aqQuery
  | acqWrite
  | flowRead (frame bucket : Nat)
  | winRead (rop index : Nat)
  | winWrite
  | ctxFill (cid : Nat)
  | ctxSpill
  | rawRecv (q idx ingress e : Nat)
  | msix
  deriving DecidableEq, Repr

/-- A job of the NE: its kind and function, accesses unanswered, lines read by position, a fault seen, first byte's place,
whether a device access timed out (R607). -/
structure NeJob where
  kind : NeKind
  fn : Nat
  left : Nat
  got : Tab LineData := []
  bad : Bool := false
  off : Nat := 0
  timed : Bool := false
  deriving DecidableEq, Repr

/-- One operation of a context (R585): the queue pair and SQ index it came from, its descriptor's fields, inline data, the
message number, bytes already packed, the PSN of its last packet, the runs of response data placed, and whether it has ended. -/
structure ChOp where
  id : Nat
  fn : Nat
  q : Nat
  idx : Nat
  code : Nat
  lva : Nat
  len : Nat
  key : Nat
  rva : Nat
  operand : Nat
  compare : Nat
  imm : Option (List Byte) := none
  msn : Nat := 0
  packed : Nat := 0
  lastPsn : Option Nat := none
  placed : List (Nat × Nat) := []
  ended : Bool := false
  deriving DecidableEq, Repr

/-- A DATA packet sent and not released (R555, R558, R559): its header and payload, operation, time of last sending, whether
SACKed, RNR refusals and when it may be sent again after one. -/
structure TxPkt where
  psn : Nat
  op : Nat
  p : ChainPkt
  sent : Nat
  sacked : Bool := false
  rnr : Nat := 0
  hold : Option Nat := none
  deriving DecidableEq, Repr

/-- A receive buffer a SEND message fills (R587): queue pair, RQ index, WR_ID, buffer and its length, MSN, bytes received, and, once
the message's last packet has come, its PSN and the message's length. -/
structure RecvBuf where
  q : Nat
  idx : Nat
  wrid : Nat
  va : Nat
  len : Nat
  msn : Nat
  got : Nat := 0
  last : Option (Nat × Nat) := none
  deriving DecidableEq, Repr

/-- One connection context (R553 to R567). `st`: 0 FREE, 1 INIT, 2 ACTIVE, 3 DRAIN, 4 ERROR. `parm` holds the 160 bytes of the
parameter block (R566). Then: sending (next PSN, unreleased packets, operations, packet ready, MSN), receiving (APSN, PSNs
received and performed, packets since the last ACK, oldest unacknowledged, ECE, TSE, atomic results, receive buffers by
message, the next message number to be given one, SEND packets that wait for it, PSNs with ACKREQ not yet
acknowledged), timers
and congestion state (R558, R560), and the encryption counter with its IV_LOW flag, and the phase (R562, R564). -/
structure Ctx where
  st : Nat := 0
  gen : Nat := 0
  fn : Nat := 0
  qp : Nat := 0
  parm : List Byte := []
  rcid : Nat := 0
  psn : Nat := 0
  unacked : List TxPkt := []
  ops : List ChOp := []
  ready : Option (ChainPkt × Nat) := none
  building : Bool := false
  msn : Nat := 0
  apsn : Nat := 0
  got : List Nat := []
  perf : List Nat := []
  since : Nat := 0
  oldest : Option Nat := none
  ece : Bool := false
  tse : Nat := 0
  atomics : List (Nat × Nat) := []
  recvs : List RecvBuf := []
  rxMsn : Nat := 0
  parked : List ChainPkt := []
  ackReqs : List Nat := []
  rto : Option Nat := none
  retries : Nat := 0
  srtt : Nat := 0
  rate : Nat := 0
  lastCut : Nat := 0
  lastInc : Nat := 0
  nextSend : Nat := 0
  iv : Nat := 0
  ivLow : Bool := false
  kph : Bool := false
  deriving DecidableEq, Repr

/-- A responder packet in progress (R569, R570): context, packet, its GEN, window index checked, DCID; whether all its accesses
are performed. -/
structure RespOp where
  cid : Nat
  gen : Nat
  p : ChainPkt
  win : Option Nat := none
  deriving DecidableEq, Repr

/-- A send descriptor fetched and not yet completed, in SQ order (R586, R590). -/
structure SqOp where
  idx : Nat
  code : Nat
  cid : Nat
  wrid : Nat
  signal : Bool
  fence : Bool
  desc : Nat
  started : Bool := false
  bytes : Nat := 0
  status : Option Nat := none
  deriving DecidableEq, Repr

/-- A queue pair (R583 to R596). -/
structure Qp where
  sqBase : Nat
  sqLog : Nat
  rqBase : Nat
  rqLog : Nat
  cqBase : Nat
  cqLog : Nat
  dbr : Nat
  vec : Nat
  raw : Bool
  rawDefault : Bool
  exc : Bool
  sqPi : Nat := 0
  sqCi : Nat := 0
  rqPi : Nat := 0
  rqCi : Nat := 0
  cqPi : Nat := 0
  cqCi : Nat := 0
  arm : Bool := false
  err : Bool := false
  reserved : Nat := 0
  sq : List SqOp := []
  fetching : Bool := false
  rxPend : List Nat := []
  rxDone : Tab Nat := []
  cpl : List Nat := []
  cplBusy : Bool := false
  deriving DecidableEq, Repr

/-- One function of segment 1 (R575 to R610): enables of its configuration space, generation, error state, function registers,
admin rings, MSI-X table and pending bits, the admin command in execution, and the resources VF_CONFIG gave it. -/
structure Fn where
  mse : Bool := false
  bme : Bool := false
  devCtl : Nat := 0
  d3 : Bool := false
  bar : Nat := 0
  fgen : Nat := 0
  err : Bool := false
  cause : Nat := 0
  qpErr : Bool := false
  accErr : Bool := false
  errQp : Option Nat := none
  aqBase : Nat := 0
  aqLog : Nat := 4
  acqBase : Nat := 0
  acqLog : Nat := 4
  aqPi : Nat := 0
  aqCi : Nat := 0
  acqPi : Nat := 0
  acqCi : Nat := 0
  acqArm : Bool := false
  dbDrop : Nat := 0
  msix : Tab (List Nat) := []
  pba : List Nat := []
  msixEn : Bool := false
  msixMask : Bool := false
  cmd : Option Nat := none
  blk : List Byte := []
  aqBusy : Bool := false
  flr : Option Nat := none
  configured : Bool := false
  qpCount : Nat := 0
  qpFirst : Nat := 0
  vecCount : Nat := 1
  vecFirst : Nat := 0
  ctxQuota : Nat := 0
  winFirst : Nat := 0
  winCount : Nat := 0
  mac : Nat := 0
  deriving DecidableEq, Repr

/-- An interface of a port (R524): up, and the TIME since which its PCS has no alignment while it is still reported up. -/
structure Intf where
  up : Bool := false
  lost : Option Nat := none
  deriving DecidableEq, Repr

/-- A port's packet buffers (R543 to R546): frames of the receive bank being written and of the bank handed over, and whether
XOFF is in force. -/
structure NePort where
  rxCur : List (Nat × Frame) := []
  rxOther : List (Nat × Frame) := []
  xoff : Bool := false
  deriving DecidableEq, Repr

/-- The NE beside its registers: device TLB, SYNCs not yet answered with the DMAs they wait for, functions and SR-IOV state,
queue pairs by 4096 x function + pair, contexts, those on die (most recently used first), fills outstanding with the frames
that wait, cached windows, window entries written valid and not cleared, cached flow buckets, jobs, responder packets and frames in lookup with their next number, the NE_INV in
progress, interfaces, ports, the last frame each interface sent. -/
structure Ne where
  tlb : List Tlb := []
  syncs : List (Pkt × List Nat) := []
  fns : Tab Fn := []
  vfEn : Bool := false
  vfMse : Bool := false
  numVfs : Nat := 0
  vfBar : Nat := 0
  qps : Tab Qp := []
  ctxs : Tab Ctx := []
  onDie : List Nat := []
  fills : Tab (List (Nat × Frame)) := []
  wins : Tab Nat := []
  winSet : Tab Nat := []
  flows : Tab (List Nat) := []
  jobs : Tab NeJob := []
  rops : Tab RespOp := []
  frames : Tab (Nat × Frame) := []
  seq : Nat := 0
  inv : Option (Nat × Nat) := none
  intfs : List Intf := List.replicate 16 {}
  ports : List NePort := List.replicate 4 {}
  sentPkt : Tab ChainPkt := []
  sentFrame : Tab Frame := []
  deriving DecidableEq, Repr

/-! ### Optics and Ember modules (R527 to R542) -/

/-- An Ember module as Smith firmware knows it: raw presence since a TIME, the challenge issued at, its nonce, what its ROM and status map
gave, channels at nominal or standby level, since when each is at nominal, and the lanes that have had its light since their engine's
domain rose (R529). -/
structure Ember where
  since : Option Nat := none
  chal : Option Nat := none
  nonce : Nat := 0
  rom : List Byte := []
  ready : Bool := false
  nominal : Nat := 0
  standby : Nat := 0
  steady : Tab Nat := []
  lit : Nat := 0
  deriving DecidableEq, Repr
/-- The whole machine. -/
structure State where
  pending : List Instr := []
  off : Bool := false
  pwrok : Bool := true
  time : Nat := 0
  ctr : Nat := 0
  regs : Tab W32 := []
  shadow : Tab W32 := []
  routes : Tab Nat := []
  routesPend : Tab Nat := []
  routeBase : Tab Nat := []
  routeBasePend : Tab Nat := []
  weights : Tab Nat := []
  weightsPend : Tab Nat := []
  quench : Quench := {}
  readData : BitVec 64 := 0
  frozen : Bool := false
  alert : Alert := {}
  smith : Smith := {}
  flash : Flash := {}
  part : Nat := 1
  pop : Nat := 0xFFFF
  straps : Nat := 0
  recs : List Rec := []
  raised : List Nat := []
  net : List InFlight := []
  fab : Fabric := {}
  homes : List Home := List.replicate 64 {}
  hearths : List Hearth := List.replicate 64 {}
  rop : Rop := {}
  mem : Mem := {}
  sites : List Site := List.replicate 16 {}
  links : Tab LinkSide := []
  groups : List Group := List.replicate 6 {}
  dies : List Die := List.replicate 16 {}
  power : Power := {}
  storm : Storm := {}
  book : FieldBook := {}
  pmu : Option PmuAct := none
  pmuSeq : Nat := 0
  ixu : Ixu := {}
  dmas : Tab Dma := []
  dmaSeq : Nat := 0
  agents : Tab AgReq := []
  agentQ : List (Pkt × AgUse) := []
  dmaAns : Option DmaAns := none
  ne : Ne := {}
  embers : List Ember := List.replicate 4 {}
  lanes : Tab (Nat × Nat) := []
  levels : List Nat := []
  deriving DecidableEq, Repr

/-- Why a command stops the machine. No command of this spec does: a command the hub refuses answers a
next state in which the refusal is recorded.  The one constructor is kept for an access the model cannot
represent, and no meaning raises it (safe). -/
inductive Fault where
  | noSuchUnit
  deriving DecidableEq, Repr

/-- Why a command is refused by the model: it has no meaning yet.  Raised by the dispatcher alone (safe). -/
inductive Refusal where
  | notModelled (mnemonic : String)
  deriving DecidableEq, Repr

/-- The machine right after reset. -/
def State.reset : State := {}

end Sys2Proof.Machine
end

