-- ==== Sys2Proof/Machine/Regs.lean ====
section
/-! DEFINITION. The register file of the control region: page index (R51), raw reads and writes of live and
pending values, field access, and the power domain of each page. -/

namespace Sys2Proof.Machine

/-- Page numbers (R51). -/
def pgSMITH : Nat := 0x000
def pgPWR : Nat := 0x001
def pgCLK : Nat := 0x002
def pgTIME : Nat := 0x003
def pgFB : Nat := 0x004
def pgEVT : Nat := 0x005
def pgPKG : Nat := 0x006
def pgFAB (k : Nat) : Nat := 0x008 + k
def pgSITE (s : Nat) : Nat := 0x010 + s
def pgLNK (s : Nat) : Nat := 0x020 + s
def pgHOME (h : Nat) : Nat := 0x040 + h
def pgHRTH (h : Nat) : Nat := 0x080 + h
def pgMC (n : Nat) : Nat := 0x0C0 + n
def pgSTK (s : Nat) : Nat := 0x0D8 + s
def pgIXU : Nat := 0x0E8
def pgNE : Nat := 0x0F0
def pgNEP (n : Nat) : Nat := 0x0F1 + n
def pgOPT (o : Nat) : Nat := 0x0F5 + o
def pgEMB (e : Nat) : Nat := 0x0F8 + e
def pgPCIE (n : Nat) : Nat := 0x100 + n

/-- One row of R51: first page, last page, block registers, TYPE, default quench group (none where the
pages have no RWQ registers), whether its pages have counters (R712), the domain of its first page and
how many of its pages share one domain (none: always on). -/
structure PageRow where
  first : Nat
  last : Nat
  regs : List RegDef
  typ : Nat
  grp : Option Nat
  cnt : Bool
  dom : Option (Nat × Nat)
  deriving Repr

/-- The page index (R51, R712, R612). -/
def pageRows : List PageRow := [
  ⟨0x000, 0x000, smithRegs, 0x01, none, false, none⟩,
  ⟨0x001, 0x001, pwrRegs, 0x02, some 0, true, none⟩,
  ⟨0x002, 0x002, clkRegs, 0x03, none, false, none⟩,
  ⟨0x003, 0x003, timeRegs, 0x04, some 11, false, none⟩,
  ⟨0x004, 0x004, fbRegs, 0x05, some 10, false, none⟩,
  ⟨0x005, 0x005, evtRegs, 0x06, some 10, false, none⟩,
  ⟨0x006, 0x006, pkgRegs, 0x07, none, false, none⟩,
  ⟨0x008, 0x00D, fabRegs, 0x08, some 1, false, none⟩,
  ⟨0x00E, 0x00F, fabRegs, 0x08, some 1, true, none⟩,
  ⟨0x010, 0x01F, siteRegs, 0x10, some 2, false, none⟩,
  ⟨0x020, 0x02F, lnkRegs, 0x11, some 3, true, some (0, 1)⟩,
  ⟨0x040, 0x07F, homeRegs, 0x20, some 4, true, none⟩,
  ⟨0x080, 0x0BF, hrthRegs, 0x21, some 5, true, some (28, 8)⟩,
  ⟨0x0C0, 0x0D7, mcRegs, 0x28, none, true, some (16, 2)⟩,
  ⟨0x0D8, 0x0E3, stkRegs, 0x29, some 6, false, some (16, 1)⟩,
  ⟨0x0E8, 0x0E8, ixuRegs, 0x30, some 7, true, some (49, 1)⟩,
  ⟨0x0F0, 0x0F0, neRegs, 0x38, some 8, true, some (42, 1)⟩,
  ⟨0x0F1, 0x0F4, nepRegs, 0x39, some 8, true, some (36, 1)⟩,
  ⟨0x0F5, 0x0F6, optRegs, 0x3A, none, true, some (40, 1)⟩,
  ⟨0x0F8, 0x0FB, embRegs, 0x3B, none, false, none⟩,
  ⟨0x100, 0x101, pcieRegs, 0x40, some 9, true, some (43, 1)⟩,
  ⟨0x102, 0x105, pcieRegs, 0x40, none, true, some (45, 1)⟩]

/-- The row of page `p`; none for an unimplemented page (R53). -/
def pageRow (p : Nat) : Option PageRow := pageRows.find? fun r => r.first ≤ p && p ≤ r.last

/-- Every implemented page. -/
def allPages : List Nat := pageRows.flatMap fun r => (List.range (r.last + 1 - r.first)).map (· + r.first)

/-- Instance number of a page within its block (R52). -/
def pageInst (p : Nat) : Nat :=
  match pageRow p with
  | none => 0
  | some r => if 0x008 ≤ p && p ≤ 0x00F then p - 0x008
              else if 0x100 ≤ p then p - 0x100 else p - r.first

/-- The power domain of a page's ordinary registers (R51); none where they are always on. -/
def pageDom (p : Nat) : Option Nat :=
  match pageRow p with
  | none => none
  | some r => r.dom.map fun (d, n) => d + (p - r.first) / n

/-- The registers of a page: its block's, the counter registers where it has them (R712), its header. -/
def pageRegs (p : Nat) : List RegDef :=
  match pageRow p with
  | none => []
  | some r => r.regs ++ (if r.cnt then pmcRegs else []) ++ hdrRegs

/-- Whether a register definition of a page holds offset `off`, for a page of instance `inst`. -/
def RegDef.covers (r : RegDef) (inst off : Nat) : Bool :=
  r.instLo ≤ inst && inst ≤ r.instHi && r.off ≤ off &&
  (off - r.off) % r.stride == 0 && decide ((off - r.off) / r.stride < r.count)

/-- The register at page `p`, offset `off`; the counter and header registers stand in every instance. -/
def findReg (p off : Nat) : Option RegDef :=
  match pageRow p with
  | none => none
  | some r =>
    match r.regs.find? (·.covers (pageInst p) off) with
    | some d => some d
    | none => ((if r.cnt then pmcRegs else []) ++ hdrRegs).find? (·.covers 0 off)

/-- Reset value of a register from its field table (R75). -/
def RegDef.resetVal (r : RegDef) : Nat := r.fields.foldl (fun a f => a + f.reset * 2 ^ f.lo) 0

/-- The key of a register in the register file. -/
def regKey (p off : Nat) : Nat := p * 0x10000 + off

/-- The reset value of the register at a page offset (R75): PAGE_QGRP takes its page's default group. -/
def regReset (p off : Nat) : Nat :=
  if off = Reg.PAGE_QGRP then (((pageRow p).bind (·.grp)).getD 0)
  else match findReg p off with
    | some d => d.resetVal
    | none => 0

namespace State

/-- The live value of a register. -/
def reg (s : State) (p off : Nat) : Nat :=
  match Tab.get? (regKey p off) s.regs with
  | some v => v.toNat
  | none => regReset p off

/-- Set the live value of a register; the reset value is not listed (canonical form). -/
def setReg (s : State) (p off v : Nat) : State :=
  { s with regs := Tab.putD (BitVec.ofNat 32 (regReset p off)) (regKey p off) (BitVec.ofNat 32 v) s.regs }

/-- A field of a register. -/
def get (s : State) (p : Nat) (f : FRef) : Nat := bits (s.reg p f.off) f.lo f.width

/-- Set a field of a register (an update by hardware). -/
def put (s : State) (p : Nat) (f : FRef) (v : Nat) : State :=
  s.setReg p f.off (setBits (s.reg p f.off) f.lo f.width v)

/-- Whether a one-bit field is set. -/
def flag (s : State) (p : Nat) (f : FRef) : Bool := s.get p f == 1

/-- Hardware sets a one-bit field. -/
def raise1 (s : State) (p : Nat) (f : FRef) : State := s.put p f 1

/-- Add to a counter field, stopping at its largest value. -/
def count (s : State) (p : Nat) (f : FRef) (n : Nat := 1) : State :=
  s.put p f (satAdd (s.get p f) n (2 ^ f.width - 1))

/-- Add to a field modulo its width. -/
def bumpMod (s : State) (p : Nat) (f : FRef) : State := s.put p f (s.get p f + 1)

/-- The pending value of an RWQ register, where it holds one (R86). -/
def shadow? (s : State) (p off : Nat) : Option Nat := (Tab.get? (regKey p off) s.shadow).map (·.toNat)

/-- The pending value if one is held, otherwise the live value (R87). -/
def shadowOrLive (s : State) (p off : Nat) : Nat := (s.shadow? p off).getD (s.reg p off)

/-- A field of the value a quench would apply. -/
def prop (s : State) (p : Nat) (f : FRef) : Nat := bits (s.shadowOrLive p f.off) f.lo f.width

/-- Set a register's pending value. -/
def setShadow (s : State) (p off v : Nat) : State :=
  { s with shadow := Tab.put (regKey p off) (BitVec.ofNat 32 v) s.shadow }

/-- The two halves of a page-aligned address pair of registers, bits 31:12 and 51:32. -/
def pageAddr (s : State) (p lo hi : Nat) : Nat := bits (s.reg p hi) 0 20 * 2 ^ 32 + bits (s.reg p lo) 12 20 * 2 ^ 12

/-- State of a power domain: 0 OFF, 1 RISING, 2 ON, 3 DRAIN, 4 ISOLATE, 5 COMMIT (DOM_STAT, R617). -/
def domState (s : State) (d : Nat) : Nat := s.get pgPWR (Fld.DOM_STAT_STATE d)

/-- The domain is in service: on, or draining before a drop (R617). -/
def domOn (s : State) (d : Nat) : Bool := s.domState d == 2 || s.domState d == 3

/-- The domain of a page's ordinary registers is off (R65). -/
def pageOff (s : State) (p : Nat) : Bool :=
  match pageDom p with
  | none => false
  | some d => !s.domOn d

/-- A site is fenced (SITE_STAT.FENCED). -/
def fenced (s : State) (site : Nat) : Bool := s.flag (pgSITE site) Fld.SITE_STAT_FENCED

/-- A site has an admitted die (SITE_STAT.ADMITTED). -/
def admitted (s : State) (site : Nat) : Bool := s.flag (pgSITE site) Fld.SITE_STAT_ADMITTED

/-- Draw the next free value. -/
def drawFree (s : State) : BitVec 32 × State := (Config.freeWord s.ctr, { s with ctr := s.ctr + 1 })

/-- What outlives Off: boot flash, fuses, straps, the commands waiting, the count of free values drawn, and the SMITH page, of which
the standby logic keeps MB_STAT for the BMC (R629, R733). -/
def offState (s : State) : State :=
  { pending := s.pending, off := true, pwrok := s.pwrok, ctr := s.ctr, flash := s.flash, part := s.part, pop := s.pop, straps := s.straps
    regs := s.regs.filter fun e => e.1 / 0x10000 == pgSMITH }

/-- The package drives SPI_SCK and SPI_CS_N (R745): while PWROK is high. -/
def spiDriven (s : State) : Bool := s.pwrok

/-- What every command's effect `t` on a state `s` has in common: the commands waiting stay, TIME does not move (R633), and where the
package has entered Off, only what outlives Off is left (R629). -/
def settle (s t : State) : State :=
  if t.off then { t.offState with pending := s.pending } else { t with pending := s.pending, time := s.time }

/-- Run a pure effect, unless the package is in Off, where only PWROK acts (R629). -/
def act (s : State) (f : State → State) : Host.Outcome State Fault Refusal :=
  .next (if s.off then s else s.settle (f s))

/-- The package is in Banked, with FCLK and MCLK stopped (R625). -/
def banked (s : State) : Bool := s.get pgPWR Fld.PWR_STAT_STATE == 2

/-- Run the effect of a home, whose FCLK stops in Banked (R625). -/
def actFclk (s : State) (f : State → State) : Host.Outcome State Fault Refusal :=
  s.act fun s => if s.banked then s else f s

/-- Run the effect of a block of a power domain, whose clocks a supply fault or thermal trip stops (R734, R741). -/
def actDom (s : State) (f : State → State) : Host.Outcome State Fault Refusal :=
  s.act fun s => if s.power.stopped then s else f s

/-- Run the effect of the memory or a Hearth slice: a domain whose clock also stops in Banked. -/
def actMem (s : State) (f : State → State) : Host.Outcome State Fault Refusal :=
  s.actDom fun s => if s.banked then s else f s

end State
end Sys2Proof.Machine
end

