-- ==== Sys2Proof/Machine/Flags.lean ====
section
/-! DEFINITION. What the status flags and fields of a page mean to every block alike: the bits of each access type (R68), the status
fields that SUMMARY shows (R76), and the encodings that are reserved (R74, R725). A block has no arithmetic flags. -/

namespace Sys2Proof.Machine

/-- The bits of a register whose fields have an access type. -/
def RegDef.accMask (d : RegDef) (a : Acc) : Nat :=
  d.fields.foldl (fun m f => if f.acc == a then m + (2 ^ (f.hi + 1 - f.lo) - 1) * 2 ^ f.lo else m) 0

/-- The TYPE code of a page (R51). -/
def pageType (p : Nat) : Nat := ((pageRow p).map (·.typ)).getD 0

/-- The event codes that R725 defines for the pages of a type; code 0x000 and CYCLES everywhere. -/
def pmcEventOk (typ code : Nat) : Bool :=
  decide (code ≤ 1) || (match typ with
    | 0x20 => decide (0x010 ≤ code) && decide (code ≤ 0x01B)
    | 0x21 => decide (0x020 ≤ code) && decide (code ≤ 0x024)
    | 0x28 => decide (0x030 ≤ code) && decide (code ≤ 0x034)
    | 0x11 => decide (0x040 ≤ code) && decide (code ≤ 0x045)
    | 0x08 => decide (0x050 ≤ code) && decide (code ≤ 0x052)
    | 0x30 => decide (0x060 ≤ code) && decide (code ≤ 0x063)
    | 0x38 => decide (0x070 ≤ code) && decide (code ≤ 0x073)
    | 0x39 => decide (0x078 ≤ code) && decide (code ≤ 0x07A)
    | 0x3A => code == 0x07C
    | 0x02 => decide (0x080 ≤ code) && decide (code ≤ 0x082)
    | 0x40 => decide (0x090 ≤ code) && decide (code ≤ 0x092)
    | _ => false)

/-- The value is a reserved encoding of the RW field whose lowest bit is `lo` at a page (R74). -/
def reservedValue (page off lo v : Nat) : Bool :=
  let typ := pageType page
  if Reg.PMC_CTL 0 ≤ off && off < Reg.PMC_CTL 8 then lo == 0 && !pmcEventOk typ v
  else match typ with
    | 0x28 => off == Reg.MC_CTL && ((lo == 0 && decide (168 < v)) || (lo == 8 && decide (8 < v)) || (lo == 16 && v == 0))
    | 0x30 => (off == Reg.ATS_CFG && (v == 0 || decide (10000 < v))) ||
              (off == Reg.LOAD_PA_LO && ((lo == 2 && decide (3 ≤ v)) || (lo == 5 && v == 3)))
    | 0x40 => off == Reg.CPL_TO && (decide (v < 50) || decide (1000000 < v))
    | 0x04 => off == Reg.TIME_CMP_CTL && lo == 2 && decide (50 ≤ v)
    | 0x20 => off == Reg.HOME_DIR_SEL && lo == 0 && decide (12288 ≤ v)
    | 0x08 => decide (pgFAB 6 ≤ page) && off == Reg.RTR_SEL && lo == 0 && decide (48 ≤ v)
    | 0x29 => off == Reg.STK_CFG && lo == (Fld.STK_CFG_SPARE_THR).lo && v == 0
    | 0x05 => off == Reg.FB_RING_WM && v == 0
    | 0x21 => off == Reg.ROP_CFG && v == 0
    | _ => false

/-- The status fields that a page's SUMMARY shows. -/
def summarised (p : Nat) : List FRef :=
  match pageType p with
  | 0x02 => [Fld.PWR_STAT_THR_LONG, Fld.PWR_STAT_PWRSET_LATE, Fld.PWR_STAT_WAKE_STUCK]
  | 0x03 => [Fld.CLK_STAT_ROOT_LOL]
  | 0x05 => [Fld.FB_STAT_DROP, Fld.FB_STAT_UE, Fld.FB_STAT_RING_ERR]
  | 0x06 => [Fld.EVT_STAT_FATAL]
  | 0x08 => if p == pgFAB 7 then [Fld.ERR_STAT_HDR_UE, Fld.ERR_STAT_DATA_UE] else []
  | 0x10 => [Fld.DRAIN_STAT_DRAIN_ERR, Fld.BND_VIOL_KIND]
  | 0x11 => (List.range 4).flatMap fun m => [Fld.LNK_STAT_DEGRADED m, Fld.LNK_STAT_RETIRED m, Fld.LNK_STAT_LOST m]
  | 0x20 => [Fld.HOME_STAT_SNP_TO, Fld.HOME_STAT_PROTO, Fld.HOME_STAT_POISON]
  | 0x21 => if p == pgHRTH 0 then [Fld.HRTH_GSTAT_STALE_EN, Fld.HRTH_SSTAT_UE] else [Fld.HRTH_SSTAT_UE]
  | 0x28 => [Fld.MC_STAT_UE, Fld.MC_STAT_ROW_NOSPARE]
  | 0x29 => [Fld.STK_STAT_SPARE_ERR, Fld.STK_STAT_HOT]
  | 0x30 => [Fld.IXU_STAT_CQ_ERR, Fld.IXU_STAT_ATS_TO]
  | 0x38 => [Fld.NE_STAT_CTX_ERR, Fld.NE_STAT_PW_DISC]
  | 0x39 => [Fld.PORT_STAT_DOWN, Fld.PORT_STAT_BUF_UE]
  | 0x3A => [Fld.OPT_STAT_DARK]
  | 0x3B => [Fld.EMB_STAT_LIFE_WARN, Fld.EMB_STAT_FAULT, Fld.EMB_STAT_EOL]
  | _ => []

end Sys2Proof.Machine
end

