-- ==== Sys2Proof/Machine/Ops.lean ====
section
/-! DEFINITION. The named operations every block uses: Field Book records and events, counters, memory bytes,
address ranges, the home and channel hashes, sending and consuming fabric units. -/

namespace Sys2Proof.Machine

/-! ### Event sources (R682) -/

def srcQuenchDone : Nat := 0
def srcMbDone : Nat := 1
def srcThrLong : Nat := 2
def srcWakeLost : Nat := 3
def srcPwrsetLate : Nat := 4
def srcWakeStuck : Nat := 5
def srcRootLol : Nat := 6
def srcTimeCmp : Nat := 7
def srcFbData : Nat := 8
def srcFbDrop : Nat := 9
def srcFbUe : Nat := 10
def srcEvtStorm : Nat := 11
def srcMsgDrop : Nat := 12
def srcReservedAddr : Nat := 13
def srcAccErr : Nat := 14
def srcQrej : Nat := 15
def srcSmithRecord : Nat := 16
def srcThermtrip : Nat := 17
def srcFAB (k : Nat) : Nat := 32 + k
def srcSITE (s k : Nat) : Nat := 32 * (2 + s / 2) + 16 * (s % 2) + k
def srcHOME (h k : Nat) : Nat := 32 * (10 + h / 8) + 4 * (h % 8) + k
def srcHRTH (h k : Nat) : Nat := 32 * (18 + h / 8) + 4 * (h % 8) + k
def srcWide (k : Nat) : Nat := 32 * 26 + k
def srcMC (n k : Nat) : Nat := 32 * (27 + n / 4) + 8 * (n % 4) + k
def srcSTK (s k : Nat) : Nat := 32 * (33 + s / 4) + 8 * (s % 4) + k
def srcNE (k : Nat) : Nat := 32 * 36 + k
def srcNEP (n k : Nat) : Nat := 32 * 36 + 8 + 2 * n + k
def srcOPT (o k : Nat) : Nat := 32 * 36 + 16 + 2 * o + k
def srcEMB (e k : Nat) : Nat := 32 * 37 + 8 * e + k
def srcPCIE (n k : Nat) : Nat := 32 * (38 + n / 3) + 10 * (n % 3) + k

/-! ### Node IDs (R24) -/

def nodeHome (h : Nat) : BitVec 8 := BitVec.ofNat 8 (0x40 + h)
def nodeNE : BitVec 8 := 0xA0
def nodePCIE (n : Nat) : BitVec 8 := BitVec.ofNat 8 (0xA4 + n)
def nodeIXU : BitVec 8 := 0xB0
def nodeSmith : BitVec 8 := 0xB8
def nodeFB : BitVec 8 := 0xBC
def nodeModule (s m : Nat) : BitVec 8 := BitVec.ofNat 8 (4 * s + m)

/-- The node is a Flolaec module of some site. -/
def isDieNode (n : BitVec 8) : Bool := n.toNat < 0x40
/-- The site of a die-link node (R24). -/
def siteOf (n : BitVec 8) : Nat := n.toNat / 4
/-- The module of a die-link node. -/
def moduleOf (n : BitVec 8) : Nat := n.toNat % 4

/-- The node ID is assigned to an agent (R24). -/
def nodeAssigned (n : Nat) : Bool :=
  n < 0x80 || (0x80 ≤ n && n ≤ 0x97) || n == 0xA0 || (0xA4 ≤ n && n ≤ 0xA9) || n == 0xB0 || n == 0xB8 || n == 0xBC

/-- The page of the block at a node, as records name it. -/
def pageOfNode (n : BitVec 8) : Nat :=
  let k := n.toNat
  if k < 0x40 then pgSITE (k / 4)
  else if k < 0x80 then pgHOME (k - 0x40)
  else if k ≤ 0x97 then pgMC (k - 0x80)
  else if k == 0xA0 then pgNE
  else if 0xA4 ≤ k && k ≤ 0xA9 then pgPCIE (k - 0xA4)
  else if k == 0xB0 then pgIXU
  else if k == 0xBC then pgFB
  else pgSMITH

/-! ### The address map (R31) -/

/-- PA of line number `l`. -/
def paOf (l : Nat) : Nat := l * 64
def nearTop : Nat := 0x6000000000
def isNear (pa : Nat) : Bool := pa < nearTop
def isFar (pa : Nat) : Bool := 0x10000000000 ≤ pa && pa < 0x110000000000
def scratchBase : Nat := 0xE000000000000
def isScratch (pa : Nat) : Bool := scratchBase ≤ pa && pa < scratchBase + 0x10000000
def isMmio (pa : Nat) : Bool := 0xF000000000000 ≤ pa && pa < 0xFFF0000000000
def isControl (pa : Nat) : Bool := 0xFFF0000000000 ≤ pa && pa < 0xFFF0100000000
def controlBase : Nat := 0xFFF0000000000
def isEcam0 (pa : Nat) : Bool := 0xFFF1000000000 ≤ pa && pa < 0xFFF1010000000
def isEcam1 (pa : Nat) : Bool := 0xFFF2000000000 ≤ pa && pa < 0xFFF2010000000
/-- A memory range (R32). -/
def isMemRange (pa : Nat) : Bool := isNear pa || isFar pa || isScratch pa
/-- The interrupt message window (R688). -/
def isMsgWindow (pa : Nat) : Bool := 0xFFEFFFF000000 ≤ pa && pa < 0xFFF0000000000

/-- XOR of the bits of `v` at the positions listed. -/
def parityOf (v : Nat) (l : List Nat) : Nat := (l.foldl (fun a i => a + v / 2 ^ i % 2) 0) % 2

/-- The quadrant of R205. -/
def quadrant (pa : Nat) : Nat :=
  parityOf pa ((List.range 20).map fun i => 12 + 2 * i) + 2 * parityOf pa ((List.range 20).map fun i => 13 + 2 * i)

/-- Home bits of FLAT mode (R204). -/
def flatBit (pa i : Nat) : Nat := parityOf pa ((List.range 8).filterMap fun j =>
  let b := 6 + i + 6 * j
  if b ≤ 51 then some b else none)

/-- The home slice of an address (R204, R205); `quad` is the hash mode in force. -/
def homeOf (quad : Bool) (pa : Nat) : Nat :=
  let low := flatBit pa 0 + 2 * flatBit pa 1 + 4 * flatBit pa 2 + 8 * flatBit pa 3
  if quad then low + 16 * quadrant pa else low + 16 * flatBit pa 4 + 32 * flatBit pa 5

/-- The directory set of a line (R209). -/
def dirSet (pa : Nat) : Nat := 4096 * (bits pa 12 40 % 3) + (bits pa 12 12 ^^^ bits pa 24 12)

/-- The Hearth set of a line outside scratch (R309). -/
def hearthSet (quad : Bool) (pa : Nat) : Nat :=
  let b := bits pa 12 13 ^^^ bits pa 25 13 ^^^ bits pa 38 13
  if quad then b ^^^ bits pa 10 2 else b

/-- Where a near-memory line lives: stack, channel of the stack, granule offset O (R353). -/
def nearPlace (quad : Bool) (pa : Nat) : Nat × Nat × Nat :=
  let o := bits pa 14 23
  let k := parityOf pa [8, 14, 20, 26, 32] + 2 * parityOf pa [9, 15, 21, 27, 33] +
    4 * parityOf pa [10, 16, 22, 28, 34] + 8 * parityOf pa [11, 17, 23, 29, 35]
  let a := if quad then quadrant pa
    else parityOf pa [12, 18, 24, 30, 36] + 2 * parityOf pa [13, 19, 25, 31]
  let b := (bits pa 37 2 + bits pa 8 4 + o) % 3
  (3 * a + b, k, o)

/-- The controller and local channel of a stack's channel (R356). -/
def ctrlOf (stk k : Nat) : Nat × Nat := if k < 8 then (2 * stk, k) else (2 * stk + 1, k - 8)

/-- Bank and row of a granule offset (R354). -/
def bankOf (o : Nat) : Nat := bits o 0 6 ^^^ bits o 9 6
def rowOf (o : Nat) : Nat := bits o 9 14

/-- The port layout that PCIE_BIF straps for group `n` gives port `p` (R750). -/
def portExists (straps n p : Nat) : Bool :=
  match bits straps (2 * n) 2 with
  | 0 => p == 0
  | 1 => p == 0 || p == 2
  | 2 => p == 0 || p == 2 || p == 3
  | _ => decide (p < 4)

/-- Little-endian and big-endian numbers of bytes, and a slice of a byte string. -/
def leNat (l : List Byte) : Nat := l.foldr (fun b a => b.toNat + 256 * a) 0
def beNat (l : List Byte) : Nat := l.foldl (fun a b => 256 * a + b.toNat) 0
def slice {α : Type} (l : List α) (off n : Nat) : List α := (l.drop off).take n
def leAt (l : List Byte) (off n : Nat) : Nat := leNat (slice l off n)
def beAt (l : List Byte) (off n : Nat) : Nat := beNat (slice l off n)
/-- The `n` low bytes of a number, least significant first; and most significant first. -/
def bytesOf (v n : Nat) : List Byte := (List.range n).map fun i => BitVec.ofNat 8 (v / 256 ^ i)
def bytesBe (v n : Nat) : List Byte := (bytesOf v n).reverse

namespace State

/-- The hash mode in force (R207): HOME_CFG.HASH. -/
def quad (s : State) : Bool := s.flag (pgHOME 0) Fld.HOME_CFG_HASH
/-- The scratch way count W in force (R310). -/
def scrWays (s : State) : Nat := s.get (pgHRTH 0) Fld.HRTH_CTL_SCR_WAYS
/-- The home slice of an address under the mode in force. -/
def home (s : State) (pa : Nat) : Nat := homeOf s.quad pa

/-- The far-memory decoder that covers an address: group and port (R386). -/
def farDec (s : State) (pa : Nat) : Option (Nat × Nat) :=
  ([0, 1].flatMap fun n => (List.range 4).map fun p => (n, p)).find? fun (n, p) =>
    let pg := pgPCIE n
    let base := s.get pg (Fld.FM_BASE_LO_BASE_LO p) * 2 ^ 28 + s.get pg (Fld.FM_BASE_HI_BASE_HI p) * 2 ^ 32
    s.flag pg (Fld.FM_BASE_LO_EN p) && base ≤ pa && pa < base + s.get pg (Fld.FM_SIZE_SIZE p) * 2 ^ 28

/-- The address is a backed memory address (R33 to R35). -/
def memBacked (s : State) (pa : Nat) : Bool :=
  isNear pa || (isFar pa && (s.farDec pa).isSome) ||
  (isScratch pa && decide (pa < scratchBase + s.scrWays * 0x2000000))

/-! ### Records, events, counters -/

/-- What the Smith image in force carries to admit dies and Ember modules by (R451, R652). -/
def trust (s : State) : Trust := nthD s.flash.trust s.flash.slot {}

/-- A nonce of 48 random bytes (R453, R533): free values. -/
def drawNonce (s : State) : Nat × State :=
  (List.range 12).foldl (fun (n, s) _ =>
    let (x, s) := s.drawFree
    (n * 2 ^ 32 + x.toNat, s)) (0, s)

/-- A source is under storm control (EVT_STORM). -/
def stormed (s : State) (n : Nat) : Bool := bitN (s.reg pgEVT (Reg.EVT_STORM (n / 32))) (n % 32)

/-- A block raises an event: the source waits to fire (EVENT_FIRE). -/
def fire (s : State) (n : Nat) : State := { s with raised := s.raised ++ [n] }

/-- A block writes a record: it waits for the capture stage. One whose source is in a storm is not written, and a source that its
record would raise fires all the same (R693). -/
def record (s : State) (r : Rec) : State :=
  if !s.stormed r.source then { s with recs := s.recs ++ [r] } else if r.fires then s.fire r.source else s

/-- A fence or retirement in a pause of Smith firmware is recorded when it resumes (R649). -/
def pauseNote (s : State) (page word : Nat) : State :=
  if s.smith.running then s
  else { s with smith := { s.smith with pauseNotes := s.smith.pauseNotes ++
    [{ typ := 0x13, cls := 0, source := srcSmithRecord, page := page, sub := 0, words := [word] }] } }

/-- The record of R40, and its event for each request; `sub` 1 for a wrong slice or a request that reached Smith. -/
def recReserved (s : State) (page : Nat) (p : Pkt) (sub : Nat := 0) : State :=
  (s.record
    { typ := 0x01, cls := 3, source := srcReservedAddr, page := page, node := p.src.toNat,
      opcode := p.op.toNat, sub := sub, addr := some (paOf p.addr.toNat) }).fire srcReservedAddr

/-- A refused or discarded access to a page (R62): ACC_ERR and its record, `off` the 8-byte block. -/
def accErr (s : State) (page node off mask : Nat) : State :=
  ((s.raise1 page Fld.PAGE_STAT_ACC_ERR).fire srcAccErr).record
    { typ := 0x02, cls := 0, source := srcAccErr, page := page, node := node,
      words := [off / 8 * 8 % 0x10000 + mask % 256 * 0x10000] }

/-- ACC_ERR set with no record (R65, R74, R78): the event source ACC_ERR fires with the bit (R683). -/
def accErr0 (s : State) (page : Nat) : State := (s.raise1 page Fld.PAGE_STAT_ACC_ERR).fire srcAccErr

/-- A status bit is set by hardware, and the event named after it fires (R683). -/
def status (s : State) (page : Nat) (f : FRef) (src : Nat) : State := (s.raise1 page f).fire src

/-- Add `q` to counter `i` of a page, keeping 48 bits and noting a wrap (R716). -/
def cntAdd (s : State) (page i q : Nat) : State :=
  let v := s.get page (Fld.PMC_CNT_LO_CNT_LO i) + 2 ^ 32 * s.get page (Fld.PMC_CNT_HI_CNT_HI i) + q
  let s := (s.put page (Fld.PMC_CNT_LO_CNT_LO i) (v % 2 ^ 32)).put page (Fld.PMC_CNT_HI_CNT_HI i) (v / 2 ^ 32 % 2 ^ 16)
  if v < 2 ^ 48 then s
  else s.setReg page Reg.PMC_OVF (setBits (s.reg page Reg.PMC_OVF) i 1 1)

/-- The counter passes the filters of R715 for an occurrence with these attributes; `none` marks an
attribute whose letter the event table does not give. -/
def cntPass (s : State) (page i : Nat) (src cls sub : Option Nat) : Bool :=
  (match src with
    | none => true
    | some n => !s.flag page (Fld.PMC_FILT_SRC_EN i) || s.get page (Fld.PMC_FILT_SRC i) == n) &&
  (match cls with
    | none => true
    | some c => bitN (s.get page (Fld.PMC_FILT_CLASS i)) c) &&
  (match sub with
    | none => true
    | some u => !s.flag page (Fld.PMC_FILT_SUB_EN i) || s.get page (Fld.PMC_FILT_SUB i) == u)

/-- `q` occurrences of event `code` at a page (R714): every enabled, unfrozen counter of the event adds.
In EDGE mode a command's occurrences count one episode (log 9). -/
def bump (s : State) (page code : Nat) (q : Nat := 1) (src cls sub : Option Nat := none) : State :=
  if s.frozen || s.pageOff page || q == 0 then s
  else forAll (List.range 8) (fun i s =>
    if s.flag page (Fld.PMC_CTL_EN i) && s.get page (Fld.PMC_CTL_EVENT i) == code && s.cntPass page i src cls sub
    then s.cntAdd page i (if s.flag page (Fld.PMC_CTL_MODE i) then 1 else q)
    else s) s

/-- A PCIe group receives a TLP from a device on a port, or sends one (R725). -/
def tlpRx (s : State) (n port : Nat) : State := s.bump (pgPCIE n) 0x090 1 none none (some port)
def tlpTx (s : State) (n port : Nat) : State := s.bump (pgPCIE n) 0x091 1 none none (some port)

/-! ### Memory bytes -/

end State

/-- What a byte no agent has written reads as: zero (R762; far and scratch contents before a write: log 12). -/
def Memory.unlisted : Byte := 0

/-- The byte at an address. -/
def Memory.read (m : List Host.Cell) (a : Nat) : Byte := Tab.getD a Memory.unlisted m

/-- Write the byte at an address, keeping the canonical form. -/
def Memory.write (m : List Host.Cell) (a : Nat) (b : Byte) : List Host.Cell := Tab.putD Memory.unlisted a b m

/-- The canonical form: addresses strictly rising, and no entry equal to what an unlisted address reads as. -/
def Memory.wf (m : List Host.Cell) : Bool := Tab.wf m && m.all fun c => c.2 != Memory.unlisted

/-- Write bytes `n-1 .. 0` of a value at rising addresses. -/
def Memory.writeBytes (m : List Host.Cell) (a : Nat) (f : Nat → Byte) : Nat → List Host.Cell
  | 0 => m
  | n + 1 => Memory.write (Memory.writeBytes m a f n) (a + n) (f n)

namespace State

/-- The 64 bytes of a line in near memory or the scratch window. -/
def memLine (s : State) (l : Nat) : LineData := lineOfBytes fun i => Memory.read s.mem.cells (paOf l + i)

/-- The line carries the poison mark (R360). -/
def memPoison (s : State) (l : Nat) : Bool := s.mem.marks.contains l

/-- Write a whole line with or without the poison mark (R352, R360). -/
def setMemLine (s : State) (l : Nat) (d : LineData) (psn : Bool) : State :=
  { s with mem := { s.mem with
      cells := Memory.writeBytes s.mem.cells (paOf l) (lineByte d) 64
      marks := let r := s.mem.marks.filter (· != l)
               if psn then (r ++ [l]).mergeSort (· ≤ ·) else r } }

/-! ### Blocks held in lists -/

def homeAt (s : State) (h : Nat) : Home := nthD s.homes h {}
def modHome (s : State) (h : Nat) (f : Home → Home) : State := { s with homes := modOf 64 {} s.homes h f }
def hearthAt (s : State) (h : Nat) : Hearth := nthD s.hearths h {}
def modHearth (s : State) (h : Nat) (f : Hearth → Hearth) : State := { s with hearths := modOf 64 {} s.hearths h f }

/-! ### Units in flight -/

/-- The service class of a source node (R222): HOME[0].SRC_CLASS. -/
def classOf (s : State) (n : BitVec 8) : BitVec 2 :=
  BitVec.ofNat 2 (bits (s.reg (pgHOME 0) (0x400 + 4 * (n.toNat / 16))) (2 * (n.toNat % 16)) 2)

/-- An agent hands a unit to its network interface, toward node `dst`; the interface writes the VC of the
opcode and, in a request, the service class of its source (R110, R157). -/
def send (s : State) (p : Pkt) (dst : BitVec 8) : State :=
  let c := if 1 ≤ p.op.toNat && p.op.toNat ≤ 8 then s.classOf p.src else p.cls
  { s with net := s.net ++ [⟨{ p with vc := vcOfOp p.op, cls := c, dst := dst }, .out, s.time⟩] }

/-- A unit without what its way through the fabric and links gives and takes: ROUTE and its parity, and the interface that injects it. -/
def bareUnit (p : Pkt) : Pkt := { p with route := 0, rpar := 0, inj := none }

/-- Two packets are the same unit, whatever hops its ROUTE has lost (R123). -/
def sameUnit (p q : Pkt) : Bool := bareUnit p == bareUnit q

/-- The link that feeds the receiving queue of a node's interface: router output and its port (R124). -/
def exitLink (n : BitVec 8) (vc : BitVec 3) : Nat :=
  let odd := isDieNode n && vc.toNat % 2 == 1
  (Config.attachRouter n.toNat).toNat * 16 + (Config.attachPort n.toNat).toNat + (if odd then 1 else 0)

/-- The destination consumes a unit: it leaves the units in flight, and the credits of its queue are owed to
the link it came by (R117). A unit that is not in flight arrives from outside the model (log 3). -/
def consume (s : State) (p : Pkt) : State :=
  match s.net.find? fun e => sameUnit e.p p with
  | none => s
  | some e =>
    let s := { s with net := s.net.erase e }
    if e.at_ = .rx then
      { s with fab := { s.fab with owed := s.fab.owed ++ [(exitLink p.dst p.vc, p.vc.toNat, p.hasData)] } }
    else s

/-- The units of a unit's receiving queue: those of its VC for its destination's interface, delivered to the die on its module, or handed
to site control (R121). -/
def queueOf (s : State) (e : InFlight) : List InFlight :=
  s.net.filter fun f => decide (f.at_ = e.at_) && f.p.vc == e.p.vc && (f.p.dst == e.p.dst || !decide (e.at_ = .rx))

/-- The unit has reached its receiver and is the oldest of its queue there (R121). A unit that is not in flight arrives from outside the
model (log 3). -/
def arrived (s : State) (p : Pkt) : Bool :=
  match s.net.find? fun e => sameUnit e.p p with
  | none => true
  | some e => (match e.at_ with
    | .rx => true
    | .dlv _ _ => true
    | .site _ => true
    | _ => false) && (s.queueOf e).head? == some e

/-- The line that a receiver of a whole line takes from a data unit: bytes whose mask bit is 0 it ignores, and what stands there is a free
value (R112; log 147). -/
def lineTaken (s : State) (p : Pkt) : LineData × State :=
  if p.mask = BitVec.allOnes 64 then (p.data, s) else (mergeLine (Config.freeBytes s.ctr) p.data p.mask, { s with ctr := s.ctr + 1 })

/-- The final responses and data a hub agent sends carry the fields of R167. -/
def respond (s : State) (op : BitVec 7) (src dst : BitVec 8) (txn : BitVec 12) (addr : BitVec 46) (last : Bool)
    (psn : Bool := false) (data : Option (LineData × ByteMask) := none) : State :=
  s.send { op := op, src := src, txn := txn, addr := addr, last := last, psn := psn,
           hasData := data.isSome, data := (data.map (·.1)).getD 0, mask := (data.map (·.2)).getD 0 } dst

/-- The error response of R38 to a request, sent by node `me`. -/
def answerReserved (s : State) (p : Pkt) (me : BitVec 8) : State :=
  let ones : LineData := BitVec.allOnes 512
  let all : ByteMask := BitVec.allOnes 64
  match p.op.toNat with
  | 0x01 | 0x02 | 0x03 | 0x04 | 0x07 => s.respond 0x54 me p.src p.txn p.addr true true (some (ones, all))
  | 0x05 | 0x06 => s.respond 0x41 me p.src p.txn 1 true
  | 0x08 => s.respond 0x45 me p.src p.txn 0 true
  | 0x70 => s.respond 0x79 me p.src p.txn 1 true false (some (ones &&& maskBits p.mask, p.mask))
  | 0x71 => s.respond 0x78 me p.src p.txn 1 true
  | _ => s

end State
end Sys2Proof.Machine
end

