-- ==== Sys2Proof/Machine/Ecdsa.lean ====
section
/-! DEFINITION. The signatures of R450: SHA-384 (FIPS 180-4) and the verification of ECDSA on curve P-384 (FIPS 186-5, SP 800-186). -/

namespace Sys2Proof.Machine

/-! ### SHA-384 -/

/-- Round constants. -/
def shaK : List Nat :=
  [0x428A2F98D728AE22, 0x7137449123EF65CD, 0xB5C0FBCFEC4D3B2F, 0xE9B5DBA58189DBBC] ++
  [0x3956C25BF348B538, 0x59F111F1B605D019, 0x923F82A4AF194F9B, 0xAB1C5ED5DA6D8118] ++
  [0xD807AA98A3030242, 0x12835B0145706FBE, 0x243185BE4EE4B28C, 0x550C7DC3D5FFB4E2] ++
  [0x72BE5D74F27B896F, 0x80DEB1FE3B1696B1, 0x9BDC06A725C71235, 0xC19BF174CF692694] ++
  [0xE49B69C19EF14AD2, 0xEFBE4786384F25E3, 0x0FC19DC68B8CD5B5, 0x240CA1CC77AC9C65] ++
  [0x2DE92C6F592B0275, 0x4A7484AA6EA6E483, 0x5CB0A9DCBD41FBD4, 0x76F988DA831153B5] ++
  [0x983E5152EE66DFAB, 0xA831C66D2DB43210, 0xB00327C898FB213F, 0xBF597FC7BEEF0EE4] ++
  [0xC6E00BF33DA88FC2, 0xD5A79147930AA725, 0x06CA6351E003826F, 0x142929670A0E6E70] ++
  [0x27B70A8546D22FFC, 0x2E1B21385C26C926, 0x4D2C6DFC5AC42AED, 0x53380D139D95B3DF] ++
  [0x650A73548BAF63DE, 0x766A0ABB3C77B2A8, 0x81C2C92E47EDAEE6, 0x92722C851482353B] ++
  [0xA2BFE8A14CF10364, 0xA81A664BBC423001, 0xC24B8B70D0F89791, 0xC76C51A30654BE30] ++
  [0xD192E819D6EF5218, 0xD69906245565A910, 0xF40E35855771202A, 0x106AA07032BBD1B8] ++
  [0x19A4C116B8D2D0C8, 0x1E376C085141AB53, 0x2748774CDF8EEB99, 0x34B0BCB5E19B48A8] ++
  [0x391C0CB3C5C95A63, 0x4ED8AA4AE3418ACB, 0x5B9CCA4F7763E373, 0x682E6FF3D6B2B8A3] ++
  [0x748F82EE5DEFB2FC, 0x78A5636F43172F60, 0x84C87814A1F0AB72, 0x8CC702081A6439EC] ++
  [0x90BEFFFA23631E28, 0xA4506CEBDE82BDE9, 0xBEF9A3F7B2C67915, 0xC67178F2E372532B] ++
  [0xCA273ECEEA26619C, 0xD186B8C721C0C207, 0xEADA7DD6CDE0EB1E, 0xF57D4F7FEE6ED178] ++
  [0x06F067AA72176FBA, 0x0A637DC5A2C898A6, 0x113F9804BEF90DAE, 0x1B710B35131C471B] ++
  [0x28DB77F523047D84, 0x32CAAB7B40C72493, 0x3C9EBE0A15C9BEBC, 0x431D67C49C100D4C] ++
  [0x4CC5D4BECB3E42B6, 0x597F299CFC657E2A, 0x5FCB6FAB3AD6FAEC, 0x6C44198C4A475817]

/-- The first hash value of SHA-384. -/
def shaH0 : List Nat := [0xCBBB9D5DC1059ED8, 0x629A292A367CD507, 0x9159015A3070DD17, 0x152FECD8F70E5939, 0x67332667FFC00B31, 0x8EB44A8768581511, 0xDB0C2E0D64F98FA7, 0x47B5481DBEFA4FA4]

def w64 (n : Nat) : Nat := n % 2 ^ 64
def rotr64 (x n : Nat) : Nat := x / 2 ^ n + x % 2 ^ n * 2 ^ (64 - n)

/-- One word more of the message schedule, whose newest word stands first. -/
def shaExtend (ws : List Nat) : List Nat :=
  let a := nthD ws 1 0
  let b := nthD ws 14 0
  w64 ((rotr64 a 19 ^^^ rotr64 a 61 ^^^ a / 2 ^ 6) + nthD ws 6 0 + (rotr64 b 1 ^^^ rotr64 b 8 ^^^ b / 2 ^ 7) + nthD ws 15 0) :: ws

/-- One round on the eight working words, given the sum of its schedule word and its constant. -/
def shaRound (st : List Nat) (kw : Nat) : List Nat :=
  match st with
  | [a, b, c, d, e, f, g, h] =>
    let t1 := h + (rotr64 e 14 ^^^ rotr64 e 18 ^^^ rotr64 e 41) + (e &&& f ^^^ (2 ^ 64 - 1 - e) &&& g) + kw
    let t2 := (rotr64 a 28 ^^^ rotr64 a 34 ^^^ rotr64 a 39) + (a &&& b ^^^ a &&& c ^^^ b &&& c)
    [w64 (t1 + t2), a, b, c, w64 (d + t1), e, f, g]
  | _ => st

/-- One block of 16 words. -/
def shaBlock (h : List Nat) (ws : List Nat) : List Nat :=
  let sched := ((List.range 64).foldl (fun l _ => shaExtend l) ws.reverse).reverse
  let st := (List.zipWith (· + ·) shaK sched).foldl shaRound h
  List.zipWith (fun a b => w64 (a + b)) h st

/-- A message padded to whole blocks of 128 bytes. -/
def shaPad (m : List Nat) : List Nat :=
  let n := m.length
  m ++ [0x80] ++ List.replicate ((239 - n % 128) % 128) 0 ++ (List.range 16).map fun i => 8 * n / 256 ^ (15 - i) % 256

/-- A big-endian number of bytes below 256. -/
def beNum (l : List Nat) : Nat := l.foldl (fun a b => 256 * a + b) 0

/-- SHA-384 of a message, as a number of 384 bits. -/
def sha384 (m : List Nat) : Nat :=
  let p := shaPad m
  let h := (List.range (p.length / 128)).foldl (fun h i =>
    shaBlock h ((List.range 16).map fun k => beNum ((p.drop (128 * i + 8 * k)).take 8))) shaH0
  (h.take 6).foldl (fun a w => a * 2 ^ 64 + w) 0

/-! ### P-384 -/

def p384 : Nat := 2 ^ 384 - 2 ^ 128 - 2 ^ 96 + 2 ^ 32 - 1
def n384 : Nat := 0xFFFFFFFFFFFFFFFFFFFFFFFFFFFFFFFFFFFFFFFFFFFFFFFFC7634D81F4372DDF581A0DB248B0A77AECEC196ACCC52973
def b384 : Nat := 0xB3312FA7E23EE7E4988E056BE3F82D19181D9C6EFE8141120314088F5013875AC656398D8A2ED19D2A85C8EDD3EC2AEF
def gx384 : Nat := 0xAA87CA22BE8B05378EB1C71EF320AD746E1D3B628BA79B9859F741E082542A385502F25DBF55296C3A545E3872760AB7
def gy384 : Nat := 0x3617DE4A96262C6F5D9E98BF9292DC29F8F41DBD289A147CE9DA3113B5F0B8C00A60B1CE1D7E819D7A431D7C90EA0E5F

/-- A point in Jacobian coordinates; z = 0 is the point at infinity. -/
structure EcPoint where
  x : Nat
  y : Nat
  z : Nat
  deriving DecidableEq, Repr

/-- Difference modulo p. -/
def subP (a b : Nat) : Nat := (a + p384 - b) % p384

/-- Twice a point. -/
def ecDouble (q : EcPoint) : EcPoint :=
  let d := q.z * q.z % p384
  let g := q.y * q.y % p384
  let b := q.x * g % p384
  let a := 3 * (subP q.x d * ((q.x + d) % p384)) % p384
  let x := subP (a * a % p384) (8 * b % p384)
  { x := x, y := subP (a * subP (4 * b % p384) x % p384) (8 * (g * g) % p384), z := 2 * q.y * q.z % p384 }

/-- Sum of two points. -/
def ecAdd (q r : EcPoint) : EcPoint :=
  if q.z == 0 then r
  else if r.z == 0 then q
  else
    let q2 := q.z * q.z % p384
    let r2 := r.z * r.z % p384
    let u := q.x * r2 % p384
    let h := subP (r.x * q2 % p384) u
    let s := q.y * r2 * r.z % p384
    let t := subP (r.y * q2 * q.z % p384) s
    if h == 0 then (if t == 0 then ecDouble q else { x := 1, y := 1, z := 0 })
    else
      let h2 := h * h % p384
      let h3 := h2 * h % p384
      let v := u * h2 % p384
      let x := subP (subP (t * t % p384) h3) (2 * v % p384)
      { x := x, y := subP (t * subP v x % p384) (s * h3 % p384), z := q.z * r.z * h % p384 }

/-- a × G + b × Q, bit by bit from the highest. -/
def ecMul2 (a b : Nat) (g q gq : EcPoint) : Nat → EcPoint → EcPoint
  | 0, acc => acc
  | n + 1, acc =>
    let d := ecDouble acc
    ecMul2 a b g q gq n
      (if bitN a n then (if bitN b n then ecAdd d gq else ecAdd d g) else if bitN b n then ecAdd d q else d)

/-- Power modulo m, bit by bit from the highest. -/
def powMod (m a e : Nat) : Nat → Nat → Nat
  | 0, acc => acc
  | n + 1, acc => powMod m a e n (if bitN e n then acc * acc % m * a % m else acc * acc % m)

/-- The signature r then s over a message verifies under a public key X then Y (R450). -/
def ecdsaOk (key sig msg : List Nat) : Bool :=
  let qx := beNum (key.take 48)
  let qy := beNum ((key.drop 48).take 48)
  let r := beNum (sig.take 48)
  let s := beNum ((sig.drop 48).take 48)
  if key.length == 96 && sig.length == 96 && decide (qx < p384) && decide (qy < p384) && 1 ≤ r && decide (r < n384) && 1 ≤ s &&
      decide (s < n384) && (qy * qy + 3 * qx) % p384 == (qx * qx * qx + b384) % p384 then
    let w := powMod n384 s (n384 - 2) 384 1
    let g : EcPoint := { x := gx384, y := gy384, z := 1 }
    let q : EcPoint := { x := qx, y := qy, z := 1 }
    let t := ecMul2 (sha384 msg % n384 * w % n384) (r * w % n384) g q (ecAdd g q) 384 { x := 1, y := 1, z := 0 }
    let z2 := t.z * t.z % p384
    t.z != 0 && (r * z2 % p384 == t.x || (decide (r + n384 < p384) && (r + n384) * z2 % p384 == t.x))
  else false

end Sys2Proof.Machine
end

