-- ==== Sys2Proof/Machine/Frame.lean ====
section
/-! DEFINITION. The bytes and lanes of a Flolaec frame: the layout of R404 to R407, the messages of R418 and of the chapters that add to
it, the CRC, the placing of bytes on lanes (R402), and what VLD, TRK and idle spares carry (R403). -/

namespace Sys2Proof.Machine

/-! ### Bytes -/

/-- The `n` bytes of a number, the lowest first. -/
def leBytes (n v : Nat) : List Byte := (List.range n).map fun i => BitVec.ofNat 8 (v / 256 ^ i)

/-- The number that bytes hold, the lowest first. -/
def ofLe : List Byte → Nat
  | [] => 0
  | b :: l => b.toNat + 256 * ofLe l

/-- One bit of the CRC register, the polynomial of R404. -/
def linkCrcStep (c : Nat) : Nat := if bitN c 63 then (2 * c % 2 ^ 64) ^^^ 0x42F0E1EBA9EA3693 else 2 * c

/-- One byte through the CRC register, its highest bit first (log 133). -/
def linkCrcByte (c : Nat) (b : Byte) : Nat :=
  let step2 := fun c => linkCrcStep (linkCrcStep c)
  let step4 := fun c => step2 (step2 c)
  step4 (step4 (c ^^^ (b.toNat * 2 ^ 56)))

/-- CRC-64 of R404: initial value all ones, no final inversion. -/
def crc64 (l : List Byte) : Nat := l.foldl linkCrcByte (2 ^ 64 - 1)

/-! ### The header (R405) -/

/-- The frame header as one number. -/
def FrameHdr.word (h : FrameHdr) : Nat :=
  h.seq % 2 ^ 12 + h.ack % 2 ^ 12 * 2 ^ 12 + h.typ % 2 ^ 4 * 2 ^ 24 + h.cvc0 % 2 ^ 3 * 2 ^ 28 + h.ch0 % 2 ^ 8 * 2 ^ 31 +
  h.cd0 % 2 ^ 7 * 2 ^ 39 + h.cvc1 % 2 ^ 3 * 2 ^ 46 + h.ch1 % 2 ^ 8 * 2 ^ 49 + h.cd1 % 2 ^ 7 * 2 ^ 57

/-- The header that a number holds. -/
def hdrOfWord (w : Nat) : FrameHdr :=
  { seq := bits w 0 12, ack := bits w 12 12, typ := bits w 24 4, cvc0 := bits w 28 3, ch0 := bits w 31 8, cd0 := bits w 39 7
    cvc1 := bits w 46 3, ch1 := bits w 49 8, cd1 := bits w 57 7 }

/-! ### Units in a DATA frame (R108, R112, R407) -/

/-- A header unit as one number (R108). -/
def headerNat (p : Pkt) : Nat :=
  p.route.toNat + p.vc.toNat * 2 ^ 40 + p.op.toNat * 2 ^ 43 + p.src.toNat * 2 ^ 50 + p.txn.toNat * 2 ^ 58 + p.addr.toNat * 2 ^ 70 +
  p.cls.toNat * 2 ^ 116 + b2n p.rsv * 2 ^ 118 + b2n p.psn * 2 ^ 119 + b2n p.na * 2 ^ 120 + b2n p.last * 2 ^ 121 +
  b2n p.hasData * 2 ^ 122 + p.size.toNat * 2 ^ 123

/-- The unit whose header is a number; `data` and `mask` come with its data unit. -/
def pktOfHeader (n : Nat) (data : LineData := 0) (mask : ByteMask := 0) : Pkt :=
  { route := BitVec.ofNat 40 n, vc := BitVec.ofNat 3 (n / 2 ^ 40), op := BitVec.ofNat 7 (n / 2 ^ 43), src := BitVec.ofNat 8 (n / 2 ^ 50)
    txn := BitVec.ofNat 12 (n / 2 ^ 58), addr := BitVec.ofNat 46 (n / 2 ^ 70), cls := BitVec.ofNat 2 (n / 2 ^ 116), rsv := bitN n 118
    psn := bitN n 119, na := bitN n 120, last := bitN n 121, hasData := bitN n 122, size := BitVec.ofNat 3 (n / 2 ^ 123)
    data := data, mask := mask }

/-- Granules of 8 bytes that a unit takes (R407). -/
def granules (p : Pkt) : Nat := if p.hasData then 11 else 2

/-- The units fit one frame: at most 30 granules (R404, R407). -/
def fitsFrame (units : List Pkt) : Bool := decide (units.foldl (fun n p => n + granules p) 0 ≤ 30)

/-- A unit as a frame carries it: ROUTE is zero on the link (R408). -/
def unitBytes (p : Pkt) : List Byte :=
  leBytes 16 (headerNat { p with route := 0 }) ++ (if p.hasData then leBytes 64 p.data.toNat ++ leBytes 8 p.mask.toNat else [])

/-- Fill up to the 240 payload bytes with zeros. -/
def padPayload (l : List Byte) : List Byte := l ++ List.replicate (240 - l.length) 0

/-- The units of a payload (R407): OPCODE 0x00 ends them, and so do too few bytes. -/
def unitsOf : Nat → List Byte → List Pkt
  | 0, _ => []
  | fuel + 1, l =>
    let n := ofLe (l.take 16)
    let p := pktOfHeader n
    if l.length < 16 || p.op == 0 then []
    else if !p.hasData then p :: unitsOf fuel (l.drop 16)
    else if l.length < 88 then []
    else pktOfHeader n (BitVec.ofNat 512 (ofLe ((l.drop 16).take 64))) (BitVec.ofNat 64 (ofLe ((l.drop 80).take 8))) ::
      unitsOf fuel (l.drop 88)

/-! ### Link-management messages (R418, R453, R634, R636, R657, R691, R721, R722) -/

/-- Where the contents of a message stand in its payload: first byte and number of bytes of each, in the order of `Lm.args`. -/
def lmFields (code : Nat) : List (Nat × Nat) :=
  match code with
  | 0x01 => [(2, 1), (3, 1), (4, 1), (5, 1), (6, 1)]
  | 0x03 => [(1, 1), (8, 8)]
  | 0x04 => [(1, 1)]
  | 0x08 => [(1, 1)]
  | 0x09 => (1, 1) :: (List.range 128).map fun i => (8 + i, 1)
  | 0x0A => [(8, 48)]
  | 0x0B => (8, 96) :: []
  | 0x0C => [(1, 1), (2, 1), (4, 2), (6, 1)]
  | 0x0D => [(1, 1), (2, 1), (4, 2), (6, 1)]
  | 0x0E => [(1, 1), (2, 1), (8, 8)]
  | 0x0F => [(1, 1), (8, 8)]
  | 0x20 => [(1, 1), (8, 9)]
  | 0x21 => [(1, 1), (8, 4), (12, 4)]
  | 0x28 => (List.range 8).map (fun v => (8 + 2 * v, 1)) ++ (List.range 8).map fun v => (9 + 2 * v, 1)
  | 0x30 => [(1, 1), (8, 4), (12, 1)]
  | 0x31 => [(1, 1)]
  | 0x32 => [(1, 1)]
  | 0x38 => [(2, 1), (4, 2)]
  | 0x60 => [(8, 8), (16, 2)]
  | 0x61 => [(1, 1), (2, 2), (4, 2)]
  | 0x62 => [(1, 1)]
  | 0x63 => [(8, 8)]
  | 0x64 => [(1, 1), (2, 1), (4, 2)]
  | 0x65 => [(1, 1)]
  | 0x66 => [(1, 1), (2, 1), (8, 8)]
  | 0x67 => [(1, 1), (2, 1)]
  | _ => []

/-- The payload of a message: its code in byte 0, its contents in their places, every other byte zero. -/
def lmPayload (l : Lm) : List Byte :=
  padPayload (leBytes 240 ((lmFields l.code).zip l.args |>.foldl (fun v f => setBits v (8 * f.1.1) (8 * f.1.2) f.2) (l.code % 256)))

/-- The message that a payload holds. -/
def lmOfPayload (l : List Byte) : Lm :=
  let v := ofLe l
  { code := v % 256, args := (lmFields (v % 256)).map fun f => bits v (8 * f.1) (8 * f.2) }

/-! ### Whole frames (R404, R406) -/

/-- TYPE of a frame that carries a message or stands for ACK or RPL. -/
def typeOf (code : Nat) : Nat := if code == 0x101 then 3 else if code == 0x102 then 2 else 4

/-- The 256 bytes of a frame. -/
def frameBytes (h : FrameHdr) (payload : List Byte) : List Byte :=
  let b := leBytes 8 h.word ++ payload
  b ++ leBytes 8 (crc64 b)

/-- The bytes of a frame of a type other than DATA: ACK and RPL frames are zero after the header. -/
def LinkFrame.bytes (f : LinkFrame) : List Byte :=
  frameBytes f.hdr (if typeOf f.lm.code == 4 then lmPayload f.lm else padPayload [])

/-- The bytes of a DATA frame. -/
def dataBytes (h : FrameHdr) (units : List Pkt) : List Byte := frameBytes h (padPayload (units.flatMap unitBytes))

/-- Bytes with the bits at the listed positions wrong: position `8 i + j` is bit `j` of byte `i`. -/
def flipBits (b : List Byte) (flips : List Nat) : List Byte :=
  flips.foldl (fun b k => b.modify (k / 8) fun x => x ^^^ (1#8 <<< (k % 8))) b

/-- The CRC of 256 bytes as received is good (R404). -/
def crcGood (b : List Byte) : Bool := crc64 (b.take 248) == ofLe (b.drop 248)

/-- Header and payload of bytes as received. -/
def frameHdr (b : List Byte) : FrameHdr := hdrOfWord (ofLe (b.take 8))
def framePayload (b : List Byte) : List Byte := (b.drop 8).take 240

/-- What a receiver makes of a frame (R406): its CRC is bad, its TYPE is reserved or not the one it was sent as, or it is taken. -/
inductive Received (α : Type) where
  | badCrc
  | badType
  | taken (a : α)
  deriving DecidableEq, Repr

/-- What a receiver makes of one copy of a message, ACK or RPL frame that crosses with the bits of `flips` wrong. -/
def readCopy (f : LinkFrame) (flips : List Nat) : Received LinkFrame :=
  if flips.isEmpty then .taken f
  else
    let b := flipBits f.bytes flips
    if !crcGood b then .badCrc
    else if (frameHdr b).typ != f.hdr.typ then .badType
    else .taken { hdr := frameHdr b, lm := if f.hdr.typ == 4 then lmOfPayload (framePayload b) else f.lm }

/-- What a receiver makes of a frame of which `wire` gives the wrong bits of each copy (R421: eight copies in SURVEY, one elsewhere); it
takes the first copy with a good CRC. No entry: it arrives as it was sent. -/
def readFrame (f : LinkFrame) : List (List Nat) → Received LinkFrame
  | [] => .taken f
  | [c] => readCopy f c
  | c :: rest => match readCopy f c with
    | .taken g => .taken g
    | .badType => .badType
    | .badCrc => readFrame f rest

/-- What a receiver makes of a DATA frame with some bits wrong: the header and the units; a unit that was sent keeps the node it was
sent toward, which no frame carries. -/
def readDataFrame (h : FrameHdr) (units : List Pkt) (flips : List Nat) : Received (FrameHdr × List Pkt) :=
  if flips.isEmpty then .taken (h, units)
  else
    let b := flipBits (dataBytes h units) flips
    if !crcGood b then .badCrc
    else if (frameHdr b).typ != 1 then .badType
    else .taken (frameHdr b, ((unitsOf 15 (framePayload b)).zip (units.map (·.dst) ++ List.replicate 15 0)).map fun (p, d) => { p with dst := d })

/-! ### Lanes (R402, R403) -/

/-- Logical lanes in use at a width (R402). -/
def lanesOf (width : Nat) : Nat := if width == 0 then 64 else 32

/-- Logical lane of byte `i` of a frame, its byte time, and the UI of bit `j` of it in the frame's slot (R402). -/
def byteLane (width i : Nat) : Nat := i % lanesOf width
def byteTime (width i : Nat) : Nat := i / lanesOf width
def bitUi (width i j : Nat) : Nat := 8 * byteTime width i + j

/-- UI from one slot boundary to the next (R402). -/
def slotUi (width : Nat) : Nat := 2048 / lanesOf width

/-- The default lane of a logical lane (R399). -/
def defaultLane (width l : Nat) : Nat :=
  if width == 0 then 34 * (l / 32) + l % 32 else if width == 1 then l else 34 + l

/-- Physical lane of spare `k`. -/
def spareLane (k : Nat) : Nat := 34 * (k / 2) + 32 + k % 2

/-- The physical lane that carries a logical lane under a map record (R399, R419). -/
def physLane (record width l : Nat) : Nat :=
  match (List.range 4).find? fun k => bitN record (7 * k + 6) && bits record (7 * k) 6 == l with
  | some k => spareLane k
  | none => defaultLane width l

/-- The physical lane that carried bit `k` of a frame. -/
def laneOfBit (record width k : Nat) : Nat := physLane record width (byteLane width (k / 8))

/-- VLD in UI `u` (R403): 1 in UI 0 of a slot that carries a frame; `busy`: which slots do. -/
def vldAt (width : Nat) (busy : Nat → Bool) (u : Nat) : Bool := u % slotUi width == 0 && busy (u / slotUi width)

/-- TRK in UI `u` (R403): 0 and 1 alternate. -/
def trkAt (u : Nat) : Bool := u % 2 == 1

/-- The next 15 bits of the PRBS15 generator x^15 + x^14 + 1, bit 0 the newest (R403). -/
def prbsNext (r : Nat) : Nat := (2 * r + (r / 2 ^ 14 + r / 2 ^ 13) % 2) % 2 ^ 15

/-- `n` bits of PRBS15 that follow the 15 bits `r`. -/
def prbsRun : Nat → Nat → List Bool
  | 0, _ => []
  | n + 1, r => bitN (prbsNext r) 0 :: prbsRun n (prbsNext r)

/-- Bits of a spare that differ from PRBS15: the first 15 set the generator, the others are compared with it. -/
def prbsErrors (seen : List Bool) : Nat :=
  let r := (seen.take 15).foldl (fun r b => (2 * r + b2n b) % 2 ^ 15) 0
  (((seen.drop 15).zip (prbsRun (seen.length - 15) r)).filter fun e => e.1 != e.2).length

end Sys2Proof.Machine
end

