-- ==== Sys2Proof/Machine/Fabric.lean ====
section
/-! DEFINITION. The hub fabric (R104 to R148): credits, router queues, output arbitration, unit errors, discards,
the route and weight tables and their checks. -/

namespace Sys2Proof.Machine

/-- Credits of a receiving queue: header slots and data slots per VC (R115). -/
def creditTable (vc : Nat) : Nat × Nat :=
  match vc with
  | 0 => (8, 8) | 1 => (8, 2) | 2 => (4, 0) | 3 => (8, 8) | 4 => (8, 8) | 5 => (4, 4) | 6 => (4, 4) | _ => (4, 4)

/-- Key of a link's header or data credits of one VC. -/
def creditKey (link vc : Nat) (data : Bool) : Nat := (link * 8 + vc) * 2 + b2n data

/-- The link by which a node's interface injects (R124): its own even or odd port. -/
def injectLink (n : BitVec 8) (vc : Nat) : Nat := 0x10000 + n.toNat * 2 + (if isDieNode n then vc % 2 else 0)

/-- The router and port at which a node injects a VC (R105). -/
def injectPort (n : BitVec 8) (vc : Nat) : Nat × Nat :=
  ((Config.attachRouter n.toNat).toNat,
   (Config.attachPort n.toNat).toNat + (if isDieNode n && vc % 2 == 1 then 1 else 0))

/-- The link that feeds input `port` of `router`: the peer router's output, or the agent's interface. -/
def feedLink (router port vc : Nat) : Nat :=
  let peer := (Config.portPeer router port).toNat
  if Config.portKind router port = 1 then peer * 16 + (Config.portPeerPort router port).toNat
  else injectLink (BitVec.ofNat 8 peer) vc

/-- The first selector of a ROUTE (R123). -/
def routeHead (r : BitVec 40) : Nat := (r.extractLsb' 0 4).toNat
/-- ROUTE after a router has consumed its selector (R123). -/
def routeShift (r : BitVec 40) : BitVec 40 := (r >>> 4) ||| 0xF000000000#40

/-- The output port a packet takes at a router; odd VCs leave for a die-link node by port p + 1 (R124). -/
def outPort (router : Nat) (p : Pkt) : Nat :=
  let o := routeHead p.route
  if p.vc.toNat % 2 == 1 && Config.portKind router o == 2 && isDieNode (Config.portPeer router o) then o + 1 else o

/-! ### Route tables (R122 to R130) -/

/-- Key of a route table entry. -/
def routeKey (src dst : Nat) : Nat := src * 256 + dst

/-- VALID as R126 requires it. -/
def routeShouldBeValid (src dst : Nat) : Bool := nodeAssigned src && nodeAssigned dst && src != dst

/-- An entry as one number: ROUTE in bits 39:0, VALID in bit 40 (RT_ENTRY_HI, R145). -/
def routeEntry (route : BitVec 40) (v : Bool) : Nat := route.toNat + (b2n v) * 2 ^ 40

/-- The Beymos-supplied entry of a route set (R128), valid exactly where R126 asks: set 0 is the primary one, set
`1 + 4 * site + m` the alternate for module `m` of a site retired. -/
def beymosEntry (set src dst : Nat) : Nat :=
  if routeShouldBeValid src dst then
    routeEntry (if set == 0 then Config.primaryRoute src dst else Config.alternateRoute ((set - 1) / 4) ((set - 1) % 4) src dst) true
  else 0

/-- Tree parent of a router other than RT0 (R106). -/
def rtrParent (r : Nat) : Nat := (Config.portPeer r (Config.rtrParentPort r).toNat).toNat

/-- Hops from a router to the root RT0 along the tree (R106). -/
def rtrHops : Nat → Nat → Nat
  | 0, _ => 0
  | fuel + 1, r => if r == 0 then 0 else 1 + rtrHops fuel (rtrParent r)

/-- Level of a router (R106). -/
def rtrLevel (r : Nat) : Nat := rtrHops 95 r

/-- Number of connected ports of a router. -/
def rtrNPorts (r : Nat) : Nat := ((List.range 15).filter fun p => Config.portKind r p != 0).length

/-- RTR_INFO of a router (R106, R147). -/
def rtrInfo (r : Nat) : Nat :=
  (if r == 0 then 0x7F * 2 ^ 4 + 0xF * 2 ^ 11
   else rtrLevel r % 2 ^ 4 + rtrParent r % 2 ^ 7 * 2 ^ 4 + (Config.rtrParentPort r).toNat * 2 ^ 11) + rtrNPorts r * 2 ^ 15

/-- The level order of R107: `a` to `b` is an up hop. -/
def upHop (a b : Nat) : Bool := decide (rtrLevel b < rtrLevel a) || (rtrLevel a == rtrLevel b && decide (b < a))

/-- Walk a route (R126): the REASON of RT_REJ, 0 where the route is valid. `down`: a down hop was taken. -/
def routeWalk (dst : Nat) : Nat → Nat → BitVec 40 → Bool → Nat
  | 0, _, _, _ => 2
  | fuel + 1, r, route, down =>
    let o := routeHead route
    let rest := routeShift route
    if o == 15 then 1
    else match (Config.portKind r o).toNat with
      | 0 => 1
      | 1 =>
        let nxt := (Config.portPeer r o).toNat
        if upHop r nxt then (if down then 3 else routeWalk dst fuel nxt rest false)
        else routeWalk dst fuel nxt rest true
      | 2 => if (Config.portPeer r o).toNat == dst && rest == 0xFFFFFFFFFF#40 then 0 else 2
      | _ => 2

/-- The check of R126 for one entry. -/
def routeReason (src dst e : Nat) : Nat :=
  let v := bitN e 40
  if v != routeShouldBeValid src dst then 4
  else if v then routeWalk dst 10 (injectPort (BitVec.ofNat 8 src) 0).1 (BitVec.ofNat 40 e) false
  else 0

/-! ### The balanced set (R143) -/

/-- A route from router `r` enters router `tr` by its input `tp`. -/
def routeEnters (tr tp : Nat) : Nat → Nat → BitVec 40 → Bool
  | 0, _, _ => false
  | fuel + 1, r, route =>
    let o := routeHead route
    if o == 15 || Config.portKind r o != 1 then false
    else
      let nxt := (Config.portPeer r o).toNat
      (nxt == tr && (Config.portPeerPort r o).toNat == tp) || routeEnters tr tp fuel nxt (routeShift route)

/-- Sites whose routes to home slices, in a route set, enter a router by an input. -/
def sitesBehind (set router port : Nat) : Nat :=
  ((List.range 16).filter fun i => (List.range 4).any fun m => (List.range 64).any fun h =>
    routeEnters router port 10 (injectPort (nodeModule i m) 0).1 (BitVec.ofNat 40 (beymosEntry set (4 * i + m) (0x40 + h)))).length

/-- Class and weight of an input in the balanced set of a route set; an unconnected one has neither (R148). -/
def balancedPort (set router port : Nat) : Nat × Nat :=
  match (Config.portKind router port).toNat with
  | 0 => (0, 0)
  | 1 => (1, min 15 (max 1 (sitesBehind set router port)))
  | _ =>
    let n := (Config.portPeer router port).toNat
    if n == 0xB8 then (2, 1) else if 0x40 ≤ n && n ≤ 0x97 then (1, 2) else (1, 1)

/-- The balanced class and weight words of a router: word 0 CLASS, 1 WEIGHT_LO, 2 WEIGHT_HI. -/
def balancedWord (set router word : Nat) : Nat :=
  match word with
  | 0 => (List.range 15).foldl (fun v p => v + (balancedPort set router p).1 * 2 ^ (2 * p)) 0
  | 1 => (List.range 8).foldl (fun v p => v + (balancedPort set router p).2 * 2 ^ (4 * p)) 0
  | 2 => (List.range 7).foldl (fun v p => v + (balancedPort set router (8 + p)).2 * 2 ^ (4 * p)) 0
  | _ => 0

/-! ### Parity of ROUTE (R113) -/

/-- Even parity of a selector. -/
def selParity (sel : Nat) : Bool := parityOf sel [0, 1, 2, 3] == 1

/-- RPAR of a ROUTE: bit `i` is the even parity of selector `i`. -/
def rparOf (route : BitVec 40) : BitVec 10 :=
  BitVec.ofNat 10 (maskOf ((List.range 10).filter fun i => selParity (bits route.toNat (4 * i) 4)))

/-- The parity of the selector that a router consumes next is good. -/
def parityGood (p : Pkt) : Bool := selParity (routeHead p.route) == p.rpar.getLsbD 0

namespace State

/-- The route set that a FAB page holds where no entry is listed: live, and as a quench would leave it. -/
def baseSet (s : State) (k : Nat) : Nat := Tab.getD k 0 s.routeBase

/-- The live route entry of a pair; an unlisted entry is that of its page's set. -/
def route (s : State) (src dst : Nat) : Nat := Tab.getD (routeKey src dst) (beymosEntry (s.baseSet (src / 32)) src dst) s.routes

/-- The entry a quench would apply: a pending entry, or that of a pending set. -/
def routeProp (s : State) (src dst : Nat) : Nat :=
  match Tab.get? (routeKey src dst) s.routesPend with
  | some e => e
  | none => match Tab.get? (src / 32) s.routeBasePend with
    | some k => beymosEntry k src dst
    | none => s.route src dst

/-- Key and live value of a router's class and weight words; unlisted, the balanced set of the route set of
its page (R46, R143). -/
def weightKey (router word : Nat) : Nat := router * 4 + word
def weight (s : State) (router word : Nat) : Nat :=
  Tab.getD (weightKey router word) (balancedWord (s.baseSet (6 + router / 48)) router word) s.weights
def weightProp (s : State) (router word : Nat) : Nat :=
  match Tab.get? (weightKey router word) s.weightsPend with
  | some w => w
  | none => match Tab.get? (6 + router / 48) s.routeBasePend with
    | some k => balancedWord k router word
    | none => s.weight router word

/-- Class and weight of an input port (R142). -/
def portClass (s : State) (router p : Nat) : Nat := bits (s.weight router 0) (2 * p) 2
def portWeight (s : State) (router p : Nat) : Nat :=
  if p < 8 then bits (s.weight router 1) (4 * p) 4 else bits (s.weight router 2) (4 * (p - 8)) 4

/-- Credits a sender still holds for a VC of a link (R116, R118). -/
def creditFree (s : State) (link vc : Nat) (data : Bool) : Bool :=
  decide (Tab.getD (creditKey link vc false) 0 s.fab.used < (creditTable vc).1) &&
  (!data || decide (Tab.getD (creditKey link vc true) 0 s.fab.used < (creditTable vc).2))

/-- Sending a packet consumes one header credit and, with data, one data credit (R116). -/
def creditTake (s : State) (link vc : Nat) (data : Bool) : State :=
  let u := Tab.putD 0 (creditKey link vc false) (Tab.getD (creditKey link vc false) 0 s.fab.used + 1) s.fab.used
  let u := if data then Tab.putD 0 (creditKey link vc true) (Tab.getD (creditKey link vc true) 0 u + 1) u else u
  { s with fab := { s.fab with used := u } }

/-- A returned credit is held again by the sender (R117). -/
def creditGive (s : State) (link vc : Nat) (data : Bool) : State :=
  let u := Tab.putD 0 (creditKey link vc false) (Tab.getD (creditKey link vc false) 0 s.fab.used - 1) s.fab.used
  let u := if data then Tab.putD 0 (creditKey link vc true) (Tab.getD (creditKey link vc true) 0 u - 1) u else u
  { s with fab := { s.fab with used := u } }

/-- Credits owed for a packet that left a queue (R117). -/
def creditOwe (s : State) (link vc : Nat) (data : Bool) : State :=
  { s with fab := { s.fab with owed := s.fab.owed ++ [(link, vc, data)] } }

/-- The packet at the head of an input's queue of a VC: queues are in order of arrival (R121). -/
def queueHead (s : State) (router port vc : Nat) : Option Pkt :=
  (s.net.find? fun e => decide (e.at_ = .rtr router port) && e.p.vc.toNat == vc).map (·.p)

/-- VCs of an input whose head packet may leave by `o` now (R135). -/
def offers (s : State) (router i o : Nat) : List Nat :=
  (List.range 8).filter fun vc =>
    match s.queueHead router i vc with
    | none => false
    | some p => outPort router p == o && s.creditFree (router * 16 + o) vc p.hasData

/-- Input `i` requests output `o` (R135). -/
def requests (s : State) (router i o : Nat) : Bool := !(s.offers router i o).isEmpty

/-- An agent at `dst` cannot accept packets (R131): a module of an unpopulated or fenced site, or an agent
whose domain is off. -/
def absentNode (s : State) (dst : BitVec 8) : Bool :=
  if isDieNode dst then s.fenced (siteOf dst)
  else match pageDom (pageOfNode dst) with
    | none => false
    | some d => !s.domOn d

/-- A packet is discarded without an answer and counted (R131, R245, R761). -/
def discardCount (s : State) : State :=
  ((s.count (pgFAB 7) Fld.DISCARD_COUNT).raise1 (pgFAB 7) Fld.ERR_STAT_DISC).fire (srcFAB 2)

/-- The first uncorrected error since HDR_UE and DATA_UE were both clear is located (ERR_LOC). -/
def errLoc (s : State) (router port : Nat) : State :=
  if s.flag (pgFAB 7) Fld.ERR_LOC_V then s
  else ((s.put (pgFAB 7) Fld.ERR_LOC_RTR router).put (pgFAB 7) Fld.ERR_LOC_PORT port).raise1 (pgFAB 7) Fld.ERR_LOC_V

/-- A fatal error of R679: FATAL, the first source, ALERT_N. -/
def fatal (s : State) (src : Nat) : State :=
  let s := s.raise1 pgEVT Fld.EVT_STAT_FATAL
  let s := if s.flag pgEVT Fld.EVT_FATAL_SRC_V then s
    else (s.put pgEVT Fld.EVT_FATAL_SRC_SOURCE src).raise1 pgEVT Fld.EVT_FATAL_SRC_V
  { s with alert := { s.alert with fatal := true } }

/-- The FAB_ERR record of R114. -/
def recFab (s : State) (cls sub src router port : Nat) (p : Pkt) : State :=
  s.record { typ := 0x04, cls := cls, source := src, page := pgFAB 7, node := p.src.toNat, opcode := p.op.toNat,
             sub := sub, words := [router + port * 128] }

/-- A unit is taken out of the fabric where it stands, the credits of its queue returned (R117). -/
def plucked (s : State) (q : InFlight) : State :=
  let s := { s with net := s.net.erase q }
  match q.at_ with
  | .rtr r i => s.creditOwe (feedLink r i q.p.vc.toNat) q.p.vc.toNat q.p.hasData
  | .rx => s.creditOwe (exitLink q.p.dst q.p.vc) q.p.vc.toNat q.p.hasData
  | _ => s

/-- A unit with an uncorrectable header is discarded, the credits it took returned (R114, R117); `p` is the header as it was received. -/
def headerLost (s : State) (router port : Nat) (q : InFlight) (p : Pkt) : State :=
  let s := s.plucked q
  let s := (s.errLoc router port).status (pgFAB 7) Fld.ERR_STAT_HDR_UE (srcFAB 0)
  (s.recFab 4 0 (srcFAB 0) router port p).fatal (srcFAB 0)

/-- A unit that has reached a router: the parity of the selector that the router consumes is checked (R113, R114). -/
def routerTakes (s : State) (e : InFlight) : State :=
  match e.at_ with
  | .rtr r i => if parityGood e.p then s else s.headerLost r i e e.p
  | _ => s

/-- A granted input sends one packet on `o` (R134), the VC taken in round-robin order (R135); with none to
send the grant is a bubble (R141). -/
def sendGranted (s : State) (router i o : Nat) : State :=
  let pg := if router < 48 then pgFAB 6 else pgFAB 7
  let sub := router % 48
  let vcs := s.offers router i o
  let start := Tab.getD (router * 16 + i) 0 s.fab.rr
  match (((List.range 8).map fun k => (start + k) % 8).find? fun v => vcs.contains v) with
  | none => s.bump pg 0x051 1 (some o) none (some sub)
  | some vc =>
    match s.net.find? (fun e => decide (e.at_ = .rtr router i) && e.p.vc.toNat == vc) with
    | none => s
    | some e =>
      let nxt : Loc := if Config.portKind router o = 1
        then .rtr (Config.portPeer router o).toNat (Config.portPeerPort router o).toNat else .rx
      let moved : InFlight := { p := { e.p with route := routeShift e.p.route, rpar := e.p.rpar >>> 1 }, at_ := nxt, since := s.time }
      let s := { s with net := s.net.erase e ++ [moved] }
      let s := s.creditTake (router * 16 + o) vc e.p.hasData
      let s := s.creditOwe (feedLink router i vc) vc e.p.hasData
      let s := { s with fab := { s.fab with rr := Tab.putD 0 (router * 16 + i) ((vc + 1) % 8) s.fab.rr } }
      (s.bump pg 0x050 1 (some o) none (some sub)).routerTakes moved

/-- Every link of a node's interface has exactly the credits of R115 (R118); what it still owed is gone. -/
def creditReset (s : State) (n : BitVec 8) : State :=
  let links := [0, 1].flatMap fun v => [injectLink n v, exitLink n (BitVec.ofNat 3 v)]
  { s with fab := { s.fab with used := s.fab.used.filter fun e => !links.contains (e.1 / 16)
                               owed := s.fab.owed.filter fun e => !links.contains e.1 } }

/-- The decision of R137 for one output, from the request lines at the start of the cycle: the input granted
and the new pointer of its class. -/
def decideOutput (s : State) (router o : Nat) (reqs : List Nat) : State :=
  match reqs with
  | [] => { s with fab := { s.fab with grant := Tab.del (router * 16 + o) s.fab.grant } }
  | _ =>
    let c := reqs.foldl (fun a i => max a (s.portClass router i)) 0
    let cand := reqs.filter fun i => s.portClass router i == c
    let key := (router * 16 + o) * 4 + c
    let (p, k) := Tab.getD key (0, 0) s.fab.ptr
    let w := ((((List.range 15).map fun d => (p + d) % 15).find? fun i => cand.contains i)).getD 0
    let k := if w == p then k + 1 else 1
    let (p, k) := if k == s.portWeight router w then ((w + 1) % 15, 0) else (w, k)
    { s with fab := { s.fab with
        ptr := Tab.putD (0, 0) key (p, k) s.fab.ptr
        grant := Tab.put (router * 16 + o) w s.fab.grant } }

/-- One FCLK cycle of a router's outputs: the request lines as they stand at its start (R136), the grants
of the previous cycle carried out, the lowest output first (R140), then the decisions for the next (R137). -/
def arbitrate (s : State) (router : Nat) : State :=
  let ports := List.range 15
  let reqs := ports.map fun o => (o, ports.filter fun i => s.requests router i o)
  let pg := if router < 48 then pgFAB 6 else pgFAB 7
  let step := ports.foldl (fun (acc : State × List Nat) o =>
    match Tab.get? (router * 16 + o) acc.1.fab.grant with
    | none => acc
    | some i =>
      if acc.2.contains i then (acc.1.bump pg 0x051 1 (some o) none (some (router % 48)), acc.2)
      else (acc.1.sendGranted router i o, acc.2 ++ [i])) (s, [])
  reqs.foldl (fun s or => s.decideOutput router or.1 or.2) step.1

end State

/-- What a SECDED check makes of a code word with some bits wrong (R113, R114): good, corrected, or uncorrectable. -/
inductive Secded where
  | good | corrected | bad
  deriving DecidableEq, Repr

/-- The check of one code word, and the bits that stay wrong in it; with three or more wrong it is a free value. -/
def secdedCheck (flips : List Nat) : Secded × List Nat :=
  let l := flips.eraseDups
  match l.length with
  | 0 => (.good, [])
  | 1 => (.corrected, [])
  | 2 => (.bad, l)
  | _ => if Config.secdedMany l = 0 then (.good, l) else if Config.secdedMany l = 1 then (.corrected, Config.secdedBit l :: l) else (.bad, l)

/-- Bits of a number at some positions turned over. -/
def flipNat (v : Nat) (l : List Nat) : Nat := l.foldl (fun v i => v ^^^ 2 ^ i) v

/-- A unit whose header and side band arrive with bits wrong: HECC bits 0 to 87 stand for header bits 127:40. -/
def headerHit (p : Pkt) (hecc route rpar : List Nat) : Pkt :=
  let h := flipNat (headerNat p) ((hecc.filter (· < 88)).map (· + 40) ++ route.filter (· < 40))
  { pktOfHeader h p.data p.mask with dst := p.dst, inj := p.inj, rpar := BitVec.ofNat 10 (flipNat p.rpar.toNat (rpar.filter (· < 10))) }

/-- The data unit of a unit as it leaves the check of its nine words (R112, R113): word 8 is the mask. -/
def dataHit (p : Pkt) (words : List (List Nat)) : Pkt :=
  let left := fun i => (secdedCheck (nthD words i [])).2.filter (· < 64)
  { p with data := BitVec.ofNat 512 (flipNat p.data.toNat ((List.range 8).flatMap fun i => (left i).map (· + 64 * i)))
           mask := BitVec.ofNat 64 (flipNat p.mask.toNat (left 8)) }

/-- The unit as it is received with some bits wrong (R113, R114), and whether its header is uncorrectable: HECC, the SVC that came, and
at a router the parity of the selector it consumes. -/
def unitHit (q : InFlight) (e : LaneErr) : InFlight × Bool :=
  let p := headerHit q.p (secdedCheck e.hecc).2 e.route e.rpar
  let router := match q.at_ with
    | .rtr _ _ => true
    | _ => false
  let svc := e.svc.getD q.p.vc
  ({ q with p := p }, (secdedCheck e.hecc).1 == .bad || svc != p.vc || (router && !parityGood p))

/-- A router input or interface receives a unit with some bits wrong (R114). -/
def State.unitReceived (s : State) (q : InFlight) (router port : Nat) (e : LaneErr) : State :=
  let pg := pgFAB 7
  let (q', lost) := unitHit q e
  if lost then s.headerLost router port q q'.p
  else
    let has := fun (k : Secded) => q.p.hasData && (List.range 9).any fun i => (secdedCheck (nthD e.words i [])).1 == k
    let p := if q.p.hasData then dataHit q'.p e.words else q'.p
    let p := if has .bad then { p with psn := true } else p
    let s := { s with net := s.net.map fun f => if f == q then { q' with p := p } else f }
    let s := if (secdedCheck e.hecc).1 == .corrected then s.status pg Fld.ERR_STAT_HDR_CE (srcFAB 3) else s
    let s := if has .corrected then s.status pg Fld.ERR_STAT_DATA_CE (srcFAB 4) else s
    if has .bad then ((s.errLoc router port).status pg Fld.ERR_STAT_DATA_UE (srcFAB 1)).recFab 2 1 (srcFAB 1) router port p
    else s

/-- A unit stands where `router` and `port` say: at that router input, or at the interface that the port leads to. -/
def unitAt (q : InFlight) (router port : Nat) : Bool :=
  decide (q.at_ = .rtr router port) || (decide (q.at_ = .rx) && State.exitLink q.p.dst q.p.vc == router * 16 + port)

open State in
/-- UNIT_RECEIVE (R114): the checks of a router input or an interface on a unit it receives; `e` says which bits the crossing turned. -/
def execUnitReceive (p : Pkt) (router port : Nat) (e : LaneErr) (s : State) : Host.Outcome State Fault Refusal :=
  s.act fun s =>
    match s.net.find? fun q => sameUnit q.p p && unitAt q router port with
    | none => s
    | some q => s.unitReceived q router port e

/-- OUTPUT_ARBITRATION (R134 to R141): one FCLK cycle of the outputs of one router. -/
def execOutputArbitration (router : Nat) (s : State) : Host.Outcome State Fault Refusal :=
  s.act fun s => s.arbitrate router

/-- CREDIT_RETURN (R117): the oldest credits owed go back to their sender. -/
def execCreditReturn (s : State) : Host.Outcome State Fault Refusal :=
  s.act fun s =>
    match s.fab.owed with
    | [] => s
    | (l, vc, d) :: rest => ({ s with fab := { s.fab with owed := rest } }).creditGive l vc d

end Sys2Proof.Machine
end

