-- ==== Sys2Proof/Machine/Hearth.lean ====
section
/-! DEFINITION. The Hearth (R308 to R350): lookups, allocation, victim buffer, locked ranges, scratch lines, range
operations, disable and enable, errors; and the memory requests a slice issues. -/

namespace Sys2Proof.Machine

/-- How an access treats a line (R311 to R313): allocate, no-allocate, or lock for range `i`. -/
inductive AMode where
  | alloc
  | noAlloc
  | lock (i : Nat)
  deriving DecidableEq, Repr

/-- The ways of a set that was never accessed: all invalid, LRU order by way number (log 5). -/
def emptyWays : List HWay := (List.range 16).map fun i => { age := i }

/-- Make way `i` the most recently used of its set. -/
def touchWay (ws : List HWay) (i : Nat) : List HWay :=
  let a := (nthD ws i {}).age
  ws.mapIdx fun j w => if j == i then { w with age := 0 } else if w.age < a then { w with age := w.age + 1 } else w

/-- Set of a scratch line's one location (R327). -/
def scratchSet (quad : Bool) (pa : Nat) : Nat := if quad then bits pa 14 11 * 4 + bits pa 10 2 else bits pa 12 13
/-- Way of a scratch line's one location, `w` the scratch way count (R327). -/
def scratchWay (w pa : Nat) : Nat := if w == 4 then 12 + bits pa 25 2 else 8 + bits pa 25 3

/-- What the slice finds in the words of a line, by line; a line that is not listed is found clean. -/
def eccOf (es : List (Nat × EccOutcome)) (l : Nat) : EccOutcome := ((es.find? (·.1 == l)).map (·.2)).getD .clean

/-- Where a slice holds a line: in its scratch way, a cache way, a victim buffer entry, or nowhere. -/
inductive HPlace where
  | scratch
  | way (i : Nat)
  | vb (e : VbEntry)
  | absent
  deriving DecidableEq, Repr

/-- The result of a lookup: served data and poison, a miss, or an eviction that waits (R318). -/
inductive HRes where
  | hit (d : LineData) (psn : Bool) (s : State)
  | miss (s : State)
  | stall (s : State)

namespace State

/-- The first and last PA of range `i` (R311). -/
def rangeBase (s : State) (i : Nat) : Nat := s.pageAddr (pgHRTH 0) (Reg.RANGE_BASE_LO i) (Reg.RANGE_BASE_HI i)
def rangeLimit (s : State) (i : Nat) : Nat :=
  s.pageAddr (pgHRTH 0) (Reg.RANGE_LIMIT_LO i) (Reg.RANGE_LIMIT_HI i) + 0xFFF

/-- The mode a line takes before NA (R311). -/
def lineMode (s : State) (l : Nat) : AMode :=
  let pa := paOf l
  match (List.range 8).find? fun i =>
      s.get (pgHRTH 0) (Fld.RANGE_BASE_LO_MODE i) != 0 && s.rangeBase i ≤ pa && pa ≤ s.rangeLimit i with
  | none => if s.flag (pgHRTH 0) Fld.HRTH_CTL_DEF_NA then .noAlloc else .alloc
  | some i =>
    match s.get (pgHRTH 0) (Fld.RANGE_BASE_LO_MODE i) with
    | 1 => .alloc
    | 2 => .noAlloc
    | _ => .lock i

/-- The mode of one access: NA = 1 makes allocate no-allocate (R313). -/
def accessMode (s : State) (l : Nat) (na : Bool) : AMode :=
  match s.lineMode l with
  | .alloc => if na then .noAlloc else .alloc
  | m => m

/-- The bank group of a slice is offline (R343). -/
def hearthOffline (s : State) (h : Nat) : Bool := bitN (s.get (pgHRTH 0) Fld.HRTH_GSTAT_OFFLINE) (h / 8)
/-- The slice serves no lookups (R337, R343). -/
def hearthBypass (s : State) (h : Nat) : Bool := (s.hearthAt h).mode == 2 || s.hearthOffline h

def waysAt (s : State) (h set : Nat) : List HWay := Tab.getD set emptyWays (s.hearthAt h).ways
def setWays (s : State) (h set : Nat) (ws : List HWay) : State :=
  s.modHearth h fun x => { x with ways := Tab.putD emptyWays set ws x.ways }
def setVb (s : State) (h : Nat) (vb : List VbEntry) : State := s.modHearth h fun x => { x with vb := vb }

/-- The cache ways of a set: below the scratch ways (R310). -/
def cacheWays (s : State) : List Nat := List.range (16 - s.scrWays)

/-- The way that holds a line. -/
def findWay (s : State) (h set l : Nat) : Option Nat :=
  s.cacheWays.find? fun i => let w := nthD (s.waysAt h set) i {}; w.valid && w.line == l

/-- The way reserved for a line (R324, R325). -/
def reservedWay (s : State) (h set l : Nat) : Option (Nat × Nat) :=
  s.cacheWays.findSome? fun i => match (nthD (s.waysAt h set) i {}).lock with
    | .reserved r l' => if l' == l then some (i, r) else none
    | _ => none

/-- Locked and reserved ways of a set (R323). -/
def lockCount (s : State) (h set : Nat) : Nat :=
  (s.cacheWays.filter fun i => (nthD (s.waysAt h set) i {}).lock != Lock.none).length

/-- A memory write issued by a slice or a group (R352, R388). -/
def memWrite (s : State) (l : Nat) (d : LineData) (psn : Bool) (rop : Bool := false) : State :=
  { s with mem := { s.mem with wr := s.mem.wr ++ [⟨l, d, psn, rop, s.time, s.farDec (paOf l)⟩] } }

/-- A line enters the victim buffer (R316, R318): the oldest clean entry makes room; none where all 64
entries are dirty. -/
def vbPush (s : State) (h : Nat) (e : VbEntry) : Option State :=
  let vb := (s.hearthAt h).vb
  let s := if e.dirty then s.bump (pgHRTH h) 0x023 else s
  if vb.length < 64 then some (s.setVb h (vb ++ [e]))
  else match vb.find? (!·.dirty) with
    | some c => some (s.setVb h (vb.erase c ++ [e]))
    | none => none

/-- A cache way to fill (R315): the lowest invalid one (which of several, the spec leaves open: log 140, DESIGN CHOICE), else the least recently used that is neither locked nor
reserved, evicted into the victim buffer. -/
def takeWay (s : State) (h set : Nat) : Option (Nat × State) :=
  let ws := s.waysAt h set
  let free := s.cacheWays.filter fun i => (nthD ws i {}).lock == Lock.none
  match free.find? fun i => !(nthD ws i {}).valid with
  | some i => some (i, s)
  | none =>
    match free.foldl (fun (b : Option Nat) i => match b with
        | none => some i
        | some j => if (nthD ws j {}).age < (nthD ws i {}).age then some i else some j) none with
    | none => none
    | some i =>
      let w := nthD ws i {}
      (s.vbPush h ⟨w.line, w.dirty, w.psn, w.data⟩).map fun s => (i, s)

/-- Put a line into way `i` and make it the most recently used. -/
def placeWay (s : State) (h set i l : Nat) (d : LineData) (dirty psn : Bool) (lk : Lock) : State :=
  let ws := modOf 16 {} (s.waysAt h set) i fun w =>
    { w with valid := true, line := l, dirty := dirty, psn := psn, data := d, lock := lk }
  (s.setWays h set (touchWay ws i)).bump (pgHRTH h) 0x022

/-- An access to a lock-mode line finds the set's lock ways used up (R323). -/
def lockOverflow (s : State) (h : Nat) : State :=
  (s.count (pgHRTH h) Fld.HRTH_LOCK_OVF_COUNT).status (pgHRTH h) Fld.HRTH_SSTAT_LOCK_OVF (srcHRTH h 2)

/-- Whether the set has a lock way left, for range `i`; counts the overflow where not (R323). -/
def lockFor (s : State) (h set i : Nat) : Lock × State :=
  if s.lockCount h set < s.get (pgHRTH 0) Fld.HRTH_CTL_LOCK_WAYS then (.locked i, s) else (.none, s.lockOverflow h)

/-- Fill or write a missing line under a mode that keeps it (R312, R323, R325); none while the eviction
waits (R318). -/
def hearthPlace (s : State) (h l : Nat) (d : LineData) (dirty psn : Bool) (m : AMode) : Option State :=
  let set := hearthSet s.quad (paOf l)
  match s.reservedWay h set l with
  | some (i, r) => some (s.placeWay h set i l d dirty psn (.locked r))
  | none =>
    match m with
    | .lock r =>
      let (lk, s) := s.lockFor h set r
      (s.takeWay h set).map fun (i, s) => s.placeWay h set i l d dirty psn lk
    | _ => (s.takeWay h set).map fun (i, s) => s.placeWay h set i l d dirty psn .none

/-- A hit in a way: LRU order unless NA, which a lock-mode line ignores (R313); a lock-mode line in an unlocked way locks (R323), unless
the same access tried before (`again`). -/
def hearthTouch (s : State) (h set i l : Nat) (na : Bool) (again : Bool := false) : State :=
  let locks := match s.lineMode l with
    | .lock _ => true
    | _ => false
  let s := if na && !locks then s else s.setWays h set (touchWay (s.waysAt h set) i)
  match s.lineMode l, (nthD (s.waysAt h set) i {}).lock with
  | .lock r, .none =>
    if again then s
    else
      let (lk, s) := s.lockFor h set r
      s.setWays h set (modOf 16 {} (s.waysAt h set) i fun w => { w with lock := lk })
  | _, _ => s

/-- Recall a victim buffer entry into a way of its set with new contents `e` (R319). The oldest dirty entry's write to memory is always
in progress (log 141, DESIGN CHOICE): it still completes, and the recalled line keeps its dirty bit. -/
def vbRecall (s : State) (h l : Nat) (old e : VbEntry) (again : Bool := false) : Option State :=
  let vb := (s.hearthAt h).vb
  let s := if vb.find? (·.dirty) == some old then s.memWrite old.line old.data old.psn else s
  let m := match s.lineMode l with
    | .lock r => if again then .alloc else .lock r
    | m => m
  (s.setVb h (vb.erase old)).hearthPlace h l e.data e.dirty e.psn m

/-- The HRTH record of R345 for a line. -/
def recHearth (s : State) (h l : Nat) : State :=
  s.record { typ := 0x0A, cls := 2, source := srcHRTH h 0, page := pgHRTH h, sub := 0, addr := some (paOf l) }

/-! ### Errors in the words of a slice (R345) -/

/-- A single-bit error is corrected. -/
def hrthCe (s : State) (h : Nat) : State := (s.count (pgHRTH h) Fld.HRTH_ERR_CNT_CE).status (pgHRTH h) Fld.HRTH_SSTAT_CE (srcHRTH h 1)

/-- An uncorrectable error in a clean line, which the slice drops: reported as a corrected one. -/
def hrthUeClean (s : State) (h : Nat) : State :=
  (s.count (pgHRTH h) Fld.HRTH_ERR_CNT_UE).status (pgHRTH h) Fld.HRTH_SSTAT_CE (srcHRTH h 1)

/-- An uncorrectable error in a dirty or scratch line, which stays, poisoned. -/
def hrthUe (s : State) (h l : Nat) : State :=
  ((s.count (pgHRTH h) Fld.HRTH_ERR_CNT_UE).status (pgHRTH h) Fld.HRTH_SSTAT_UE (srcHRTH h 0)).recHearth h l

/-- A dirty or scratch line as a slice reads it from its words: data, poison mark; the bytes of an uncorrectable one are free values. -/
def eccTake (s : State) (h l : Nat) (d : LineData) (psn : Bool) (ecc : EccOutcome) : LineData × Bool × State :=
  match ecc with
  | .clean => (d, psn, s)
  | .corrected => (d, psn, s.hrthCe h)
  | .uncorrectable => (Config.freeLine s.ctr, true, { s with ctr := s.ctr + 1 }.hrthUe h l)

/-- The scratch way of a line (R327, R328). -/
def scratchLine (s : State) (h l : Nat) : HWay :=
  nthD (s.waysAt h (scratchSet s.quad (paOf l))) (scratchWay s.scrWays (paOf l)) {}

/-- Write a scratch line in its way. -/
def setScratch (s : State) (h l : Nat) (d : LineData) (psn : Bool) : State :=
  let set := scratchSet s.quad (paOf l)
  s.setWays h set (modOf 16 {} (s.waysAt h set) (scratchWay s.scrWays (paOf l)) fun w => { w with data := d, psn := psn })

/-- Where a slice finds a line: set and victim buffer are searched together (R319); a slice in bypass looks nowhere (R337). -/
def hearthFind (s : State) (h l : Nat) : HPlace :=
  if isScratch (paOf l) then .scratch
  else if s.hearthBypass h then .absent
  else match s.findWay h (hearthSet s.quad (paOf l)) l, (s.hearthAt h).vb.find? (·.line == l) with
    | some i, _ => .way i
    | none, some e => .vb e
    | none, none => .absent

/-- The contents of a line that the slice holds, `ecc` what it finds in the words read (R345): a clean line with an uncorrectable error
is dropped, and a locked way stays reserved for it. -/
def hearthLook (s : State) (h l : Nat) (ecc : EccOutcome) : Option (LineData × Bool) × State :=
  match s.hearthFind h l with
  | .absent => (none, s)
  | .scratch =>
    let w := s.scratchLine h l
    let (d, p, t) := s.eccTake h l w.data w.psn ecc
    (some (d, p), if ecc == .uncorrectable then t.setScratch h l d p else t)
  | .way i =>
    let set := hearthSet s.quad (paOf l)
    let w := nthD (s.waysAt h set) i {}
    if ecc == .uncorrectable && !w.dirty then
      let lk := match w.lock with
        | .locked r => Lock.reserved r l
        | k => k
      (none, (s.setWays h set (modOf 16 {} (s.waysAt h set) i fun w => { w with valid := false, lock := lk })).hrthUeClean h)
    else
      let (d, p, s) := s.eccTake h l w.data w.psn ecc
      (some (d, p), s.setWays h set (modOf 16 {} (s.waysAt h set) i fun w => { w with data := d, psn := p }))
  | .vb e =>
    if ecc == .uncorrectable && !e.dirty then (none, (s.setVb h ((s.hearthAt h).vb.erase e)).hrthUeClean h)
    else
      let (d, p, s) := s.eccTake h l e.data e.psn ecc
      (some (d, p), s.setVb h ((s.hearthAt h).vb.map fun x => if x == e then { x with data := d, psn := p } else x))

/-- A lookup for reading (R312, R319). -/
def hearthRead (s : State) (h l : Nat) (na : Bool) (ecc : EccOutcome) : HRes :=
  let pg := pgHRTH h
  let at_ := s.hearthFind h l
  let s := match at_ with
    | .scratch => s
    | .absent => if s.hearthBypass h then s else s.bump pg 0x021
    | _ => s.bump pg 0x020
  match s.hearthLook h l ecc with
  | (none, s) => .miss s
  | (some (d, p), s) =>
    match at_ with
    | .way i => .hit d p (s.hearthTouch h (hearthSet s.quad (paOf l)) i l na)
    | .vb _ =>
      match (s.hearthAt h).vb.find? (·.line == l) with
      | some e =>
        if na && s.accessMode l true == .noAlloc then .hit d p s
        else match s.vbRecall h l e e with
          | some s => .hit d p s
          | none => .stall s
      | none => .hit d p s
    | _ => .hit d p s

/-- A write of a whole line (R312); none while an eviction waits (R318). `again`: the access has looked the line up before. -/
def hearthWrite (s : State) (h l : Nat) (d : LineData) (psn na : Bool) (again : Bool := false) : Option State :=
  match s.hearthFind h l with
  | .scratch => some (s.setScratch h l d psn)
  | .way i =>
    let set := hearthSet s.quad (paOf l)
    let s := s.setWays h set (modOf 16 {} (s.waysAt h set) i fun w => { w with data := d, psn := psn, dirty := true })
    some (s.hearthTouch h set i l na again)
  | .vb e =>
    let e' : VbEntry := { e with data := d, psn := psn, dirty := true }
    if na && s.accessMode l true == .noAlloc then some (s.setVb h ((s.hearthAt h).vb.map fun x => if x == e then e' else x))
    else s.vbRecall h l e e' again
  | .absent =>
    if s.hearthBypass h then some (s.memWrite l d psn)
    else match s.reservedWay h (hearthSet s.quad (paOf l)) l, s.accessMode l na with
      | none, .noAlloc => some (s.memWrite l d psn)
      | _, m => s.hearthPlace h l d true psn m

/-- Fill a line that a read brought from memory, where its mode keeps it (R312). -/
def hearthFill (s : State) (h l : Nat) (d : LineData) (psn na : Bool) : Option State :=
  if isScratch (paOf l) || s.hearthBypass h then some s
  else
    let set := hearthSet s.quad (paOf l)
    if (s.findWay h set l).isSome then some s
    else match s.reservedWay h set l, s.accessMode l na with
      | none, .noAlloc => some s
      | _, m => s.hearthPlace h l d false psn m

/-- Note an eviction that waits for a victim buffer entry (R318). -/
def vbStall (s : State) (h : Nat) : State :=
  (s.status (pgHRTH h) Fld.HRTH_SSTAT_VB_STALL (srcHRTH h 3)).bump (pgHRTH h) 0x024

/-! ### Range operations -/

/-- The operation of a range on one locked line (R324): written if dirty, invalidated, its way reserved. -/
def releaseLocked (w : HWay) : HWay :=
  match w.lock with
  | .locked r => { w with valid := false, dirty := false, psn := false, lock := .reserved r w.line }
  | _ => w

/-- Apply range operation `op` to one way (R331): the new way and whether its line is written to memory. -/
def ropWay (op : Nat) (w : HWay) : HWay × Bool :=
  let isLocked := match w.lock with
    | .locked _ => true
    | _ => false
  match op with
  | 2 => ({ w with dirty := false }, w.dirty)
  | 1 => if isLocked then (releaseLocked w, w.dirty) else ({ w with valid := false, dirty := false, psn := false }, false)
  | _ => if isLocked then (releaseLocked w, w.dirty) else ({ w with valid := false, dirty := false, psn := false }, w.dirty)

/-- The line lies in the running operation's recorded range; INV_ALL ignores it (R331, R332). -/
def inRop (s : State) (l : Nat) : Bool := s.rop.op == 4 || (s.rop.base ≤ paOf l && paOf l ≤ s.rop.limit)

/-- A dirty line of a slice is written to memory, as the slice reads it from its words (R345); in a range operation an uncorrectable
error shows in its result (R334). The line's data and mark as they then stand. -/
def writeOut (s : State) (h l : Nat) (d : LineData) (psn : Bool) (ecc : EccOutcome) (rop : Bool) : LineData × Bool × State :=
  let (d, p, s) := s.eccTake h l d psn ecc
  let s := if rop && ecc == .uncorrectable then { s with rop := { s.rop with err := true } } else s
  (d, p, s.memWrite l d p rop)

/-- Apply `op` to every way of a set, and to its victim buffer entries, whose line satisfies `sel`; `rop`: for a range operation; `es`:
what the slice finds in the words of lines it writes. -/
def ropSet (s : State) (h set op : Nat) (rop : Bool) (es : List (Nat × EccOutcome)) (sel : Nat → Bool) : State :=
  let s := forAll (List.range 16) (fun i s =>
    let w := nthD (s.waysAt h set) i {}
    if w.valid && sel w.line then
      let (w', wr) := ropWay op w
      let (d, p, s) := if wr then s.writeOut h w.line w.data w.psn (eccOf es w.line) rop else (w.data, w.psn, s)
      s.setWays h set (modOf 16 {} (s.waysAt h set) i fun _ => if w'.valid then { w' with data := d, psn := p } else w')
    else s) s
  forAll (s.hearthAt h).vb (fun e s =>
    if hearthSet s.quad (paOf e.line) == set && sel e.line then
      let (d, p, s) := if e.dirty && op != 1 then s.writeOut h e.line e.data e.psn (eccOf es e.line) rop else (e.data, e.psn, s)
      let vb := (s.hearthAt h).vb
      if op == 2 then s.setVb h (vb.map fun x => if x == e then { x with dirty := false, data := d, psn := p } else x)
      else s.setVb h (vb.erase e)
    else s) s

/-- Every set of a slice that lists a way, and the sets of its victim buffer entries. -/
def usedSets (s : State) (h : Nat) : List Nat :=
  ((s.hearthAt h).ways.map (·.1) ++ (s.hearthAt h).vb.map fun e => hearthSet s.quad (paOf e.line)).eraseDups

/-- Apply an operation to every line of a slice. -/
def ropSlice (s : State) (h op : Nat) (es : List (Nat × EccOutcome) := []) : State :=
  forAll (s.usedSets h) (fun set s => s.ropSet h set op false es fun _ => true) s

/-- A line lies in a lock range (R326). -/
def inLockRange (s : State) (l : Nat) : Bool :=
  (List.range 8).any fun i =>
    s.get (pgHRTH 0) (Fld.RANGE_BASE_LO_MODE i) == 3 && s.rangeBase i ≤ paOf l && paOf l ≤ s.rangeLimit i

/-- Clear the locks and reservations of lines that no longer lie in a lock range (R326). A line that lies in another lock range than
before keeps its way, and the way still counts for the range it was locked for (log 142, DESIGN CHOICE). -/
def relock (s : State) (h : Nat) : State :=
  forAll ((s.hearthAt h).ways.map (·.1)) (fun set s =>
    s.setWays h set ((s.waysAt h set).map fun w =>
      match w.lock with
      | .locked _ => if s.inLockRange w.line then w else { w with lock := .none }
      | .reserved _ l => if s.inLockRange l then w else { w with lock := .none }
      | .none => w)) s

/-- Release every lock and reservation of a slice, counting the locked lines (R343). -/
def unlockAll (s : State) (h : Nat) : State :=
  forAll ((s.hearthAt h).ways.map (·.1)) (fun set s =>
    let n := ((s.waysAt h set).filter fun w => match w.lock with
      | .locked _ => true
      | _ => false).length
    (s.setWays h set ((s.waysAt h set).map fun w => { w with lock := .none })).count (pgHRTH h) Fld.HRTH_LOCK_OVF_COUNT n) s

/-- The slices whose bank group is online (R335). -/
def onlineSlices (s : State) : List Nat := (List.range 64).filter fun h => !s.hearthOffline h

/-- MODE reads 2 once every online slice is in bypass (R336). -/
def bypassMode (s : State) : State :=
  if s.get (pgHRTH 0) Fld.HRTH_GSTAT_MODE != 0 && s.onlineSlices.all fun i => (s.hearthAt i).mode == 2 then
    s.put (pgHRTH 0) Fld.HRTH_GSTAT_MODE 2
  else s

/-- A slice enters bypass (R336); the first sets STALE_RISK (R338). -/
def enterBypass (s : State) (h : Nat) : State :=
  let first := !(s.onlineSlices.any fun i => (s.hearthAt i).mode == 2)
  let s := s.modHearth h fun x => { x with mode := 2 }
  (if first then s.put (pgHRTH 0) Fld.HRTH_GSTAT_STALE_RISK 1 else s).bypassMode

/-- End the running range operation (R334). -/
def ropEnd (s : State) (status : Nat) : State :=
  let pg := pgHRTH 0
  let s := ((s.put pg Fld.ROP_STAT_STATUS status).put pg Fld.ROP_STAT_BUSY 0).put pg Fld.ROP_STAT_DONE 1
  (s.bumpMod pg Fld.ROP_STAT_SEQ).fire (srcWide 0)

/-- A write to ROP_CMD (R331, R332, R334, R335). -/
def ropStart (s : State) (op : Nat) : State :=
  let pg := pgHRTH 0
  if s.flag pg Fld.ROP_STAT_BUSY then s.raise1 pg Fld.ROP_STAT_OVERLAP
  else
    let s := ((s.put pg Fld.ROP_STAT_BUSY 1).put pg Fld.ROP_STAT_DONE 0).put pg Fld.ROP_STAT_OP op
    let base := s.pageAddr pg Reg.ROP_BASE_LO Reg.ROP_BASE_HI
    let limit := s.pageAddr pg Reg.ROP_LIMIT_LO Reg.ROP_LIMIT_HI + 0xFFF
    if op == 0 || op > 4 then s.ropEnd 2
    else if op != 4 && (limit < base || !((isNear base && isNear limit) || (isFar base && isFar limit))) then s.ropEnd 1
    else
      { s with rop := { op := op, base := base, limit := limit, err := false },
               hearths := s.hearths.map fun x => { x with ropSet := 0 } }

/-- Fold pending memory writes of a line into its newest value (log 8). -/
def pendingWrite (s : State) (l : Nat) : Option MemWr := (s.mem.wr.filter (·.line == l)).getLast?

end State

/-- VB_WRITE_ACCEPT (R317): the oldest dirty entry of a slice is accepted by memory and becomes clean; `ecc`: what the slice finds in its
words (R345). -/
def execVbWriteAccept (h : Nat) (ecc : EccOutcome) (s : State) : Host.Outcome State Fault Refusal :=
  s.actMem fun s =>
    match (s.hearthAt h).vb.find? (·.dirty) with
    | none => s
    | some e =>
      let (d, p, s) := s.writeOut h e.line e.data e.psn ecc false
      s.setVb h ((s.hearthAt h).vb.map fun x => if x == e then { x with dirty := false, data := d, psn := p } else x)

/-- INVALIDATE (R331): ROP_CMD with OP 1. -/
def execInvalidate (s : State) : Host.Outcome State Fault Refusal := s.actMem (·.ropStart 1)
/-- CLEAN (R331): ROP_CMD with OP 2. -/
def execClean (s : State) : Host.Outcome State Fault Refusal := s.actMem (·.ropStart 2)
/-- CLEAN_INV (R331): ROP_CMD with OP 3. -/
def execCleanInv (s : State) : Host.Outcome State Fault Refusal := s.actMem (·.ropStart 3)
/-- ROP_INV_ALL (R331): ROP_CMD with OP 4. -/
def execRopInvAll (s : State) : Host.Outcome State Fault Refusal := s.actMem (·.ropStart 4)

/-- ROP_SET_VISIT (R332): one slice visits its next set for the running operation; `es`: what it finds in the words of the lines it
writes (R345). -/
def execRopSetVisit (h : Nat) (es : List (Nat × EccOutcome)) (s : State) : Host.Outcome State Fault Refusal :=
  s.actMem fun s =>
    let n := (s.hearthAt h).ropSet
    if !s.flag (pgHRTH 0) Fld.ROP_STAT_BUSY || s.hearthOffline h || n ≥ 8192 then s
    else (s.ropSet h n s.rop.op true es s.inRop).modHearth h fun x => { x with ropSet := n + 1 }

/-- ROP_COMPLETE (R332, R334): every online slice has visited every set, and memory has accepted every write: a controller when it was
issued, a far-memory device when it took it. -/
def execRopComplete (s : State) : Host.Outcome State Fault Refusal :=
  s.actMem fun s =>
    let done := s.onlineSlices.all fun h => (s.hearthAt h).ropSet == 8192
    if s.flag (pgHRTH 0) Fld.ROP_STAT_BUSY && done && (s.mem.wr.all fun w => !w.rop || isNear (paOf w.line)) then
      let s := s.ropEnd (if s.rop.err then 3 else 0)
      if s.rop.op == 4 && !s.rop.err then s.put (pgHRTH 0) Fld.HRTH_GSTAT_STALE_RISK 0 else s
    else s

/-- HRTH_CLEAN_DONE (R336, R338): a cleaning slice has written its dirty lines and enters bypass. -/
def execHrthCleanDone (h : Nat) (es : List (Nat × EccOutcome)) (s : State) : Host.Outcome State Fault Refusal :=
  s.actMem fun s => if (s.hearthAt h).mode != 1 then s else (s.ropSlice h 2 es).enterBypass h

end Sys2Proof.Machine
end

