-- ==== Sys2Proof/Machine/Memory.lean ====
section
/-! DEFINITION. Near memory and far memory (R351 to R396): reads, writes, errors, patrol scrub, row and channel
sparing, refresh debt, temperature, and the answers of CXL devices. -/

namespace Sys2Proof.Machine

/-- The near-memory line at a place (the inverse of R353): stack, channel, granule offset, line in the granule. -/
def lineAt (quad : Bool) (stk k o sub : Nat) : Nat :=
  let hi := o * 2 ^ 14
  let low := maskOf ((List.range 4).filter fun i =>
    (bits k i 1 + parityOf hi [14 + i, 20 + i, 26 + i, 32 + i]) % 2 == 1)
  let pa := hi + low * 2 ^ 8
  let b := stk % 3
  let top := (b + 3 - (low + o) % 3) % 3
  let pa := pa + top * 2 ^ 37
  let a := stk / 3
  let (p12, p13) := if quad
    then (parityOf pa ((List.range 19).map fun i => 14 + 2 * i), parityOf pa ((List.range 19).map fun i => 15 + 2 * i))
    else (parityOf pa [18, 24, 30, 36], parityOf pa [19, 25, 31])
  let pa := pa + ((a % 2 + p12) % 2) * 2 ^ 12 + ((a / 2 + p13) % 2) * 2 ^ 13
  pa / 64 + sub

/-- The mailbox command in execution ends (R662): results, status, DONE, SEQ, SMITH_MB_DONE. -/
def State.mbEnd (s : State) (status : Nat) (res0 : Nat := 0) (res1 : Nat := 0) : State :=
  match s.smith.op with
  | none => s
  | some code =>
    let pg := pgSMITH
    let s := (s.put pg (Fld.MB_RES_RES 0) res0).put pg (Fld.MB_RES_RES 1) res1
    let s := ((s.put pg Fld.MB_STAT_STATUS status).put pg Fld.MB_STAT_CODE code).put pg Fld.MB_STAT_TAG s.smith.tag
    let s := (s.put pg Fld.MB_STAT_DONE 1).put pg Fld.MB_STAT_BUSY 0
    let s := (s.bumpMod pg Fld.MB_STAT_SEQ).fire srcMbDone
    { s with smith := { s.smith with op := none, phase := 0 } }

namespace State

def groupAt (s : State) (n : Nat) : Group := nthD s.groups n {}
def modGroup (s : State) (n : Nat) (f : Group → Group) : State := { s with groups := modOf 6 {} s.groups n f }

/-- The port of a group is up (its link trained and not contained by DPC). -/
def portUp (s : State) (n port : Nat) : Bool := (s.groupAt n).up.contains port

/-- The completion timeout of a group in ns (R286): CPL_TO counts microseconds. -/
def cplTo (s : State) (n : Nat) : Nat := 1000 * s.get (pgPCIE n) Fld.CPL_TO_VALUE

/-- Controller and local channel of a near line. -/
def mcOf (s : State) (l : Nat) : Nat × Nat :=
  let (st, k, _) := nearPlace s.quad (paOf l)
  ctrlOf st k

/-- Key of a row: stack, channel, bank, row. -/
def rowKey (s : State) (l : Nat) : Nat :=
  let (st, k, o) := nearPlace s.quad (paOf l)
  ((st * 16 + k) * 64 + bankOf o) * 16384 + rowOf o

/-- The 32 lines of the row that holds a line (R354). -/
def rowLines (s : State) (l : Nat) : List Nat :=
  let (st, k, o) := nearPlace s.quad (paOf l)
  (List.range 8).flatMap fun g =>
    let o' := rowOf o * 512 + g * 64 + (bankOf o ^^^ bits (rowOf o) 0 6)
    (List.range 4).map fun j => lineAt s.quad st k o' j

/-- A channel of a stack is being spared (R370). -/
def sparing (s : State) (st k : Nat) : Bool :=
  s.flag (pgSTK st) Fld.STK_STAT_SPARE_BUSY && Tab.get? st s.mem.spareChan == some k

/-- The row of a line is held for a row sparing (R365). -/
def rowHeld (s : State) (l : Nat) : Bool :=
  match Tab.get? (s.mcOf l).1 s.mem.rowCur with
  | some x => s.rowKey x == s.rowKey l
  | none => false

/-- The controller's channels are in self-refresh (R384). -/
def selfRefresh (s : State) (n : Nat) : Bool := s.flag (pgMC n) Fld.MC_STAT_SR

/-- The controller starts sparing the row of a line (R364 to R367); `row` from GO may be any address. -/
def rowSpareStart (s : State) (n l : Nat) : State :=
  let pg := pgMC n
  let (st, k, _) := nearPlace s.quad (paOf l)
  let s := s.put pg Fld.MC_ROWSPARE_STAT_DONE 0
  if !isNear (paOf l) || (ctrlOf st k).1 != n || s.sparing st k then
    (s.put pg Fld.MC_ROWSPARE_STAT_STATUS 3).put pg Fld.MC_ROWSPARE_STAT_DONE 1
  else { (s.put pg Fld.MC_ROWSPARE_STAT_BUSY 1) with mem := { s.mem with rowCur := Tab.put n l s.mem.rowCur } }

/-- An automatic trigger (R364, R367): performed at once, or after the sparing in progress; a row that is being spared or waits for it
needs no further one. -/
def rowAuto (s : State) (n l : Nat) : State :=
  if s.rowHeld l || (s.mem.rowQ.any fun q => q.1 == n && s.rowKey q.2 == s.rowKey l) then s
  else if s.flag (pgMC n) Fld.MC_ROWSPARE_STAT_BUSY then { s with mem := { s.mem with rowQ := s.mem.rowQ ++ [(n, l)] } }
  else s.rowSpareStart n l

/-- The row of a line has reached ROW_CE_THR corrected errors, and its controller spares rows by itself (R364). -/
def rowDue (s : State) (n l : Nat) : Bool :=
  s.flag (pgMC n) Fld.MC_CTL_ROW_AUTO && decide (s.get (pgMC n) Fld.MC_CTL_ROW_CE_THR ≤ Tab.getD (s.rowKey l) 0 s.mem.rowCe)

/-- The first line of a row, from its key (R354). -/
def rowFirst (s : State) (key : Nat) : Nat :=
  let row := key % 16384
  let bank := key / 16384 % 64
  let chan := key / 16384 / 64
  lineAt s.quad (chan / 16) (chan % 16) (row * 512 + (bank ^^^ bits row 0 6)) 0

/-- A controller spares every row that has reached its threshold (R364): where MC_CTL changes, or a channel sparing ends. -/
def rowScan (s : State) (n : Nat) : State :=
  (s.mem.rowCe.map fun e => s.rowFirst e.1).foldl (fun s l => if (s.mcOf l).1 == n && s.rowDue n l then s.rowAuto n l else s) s

/-- A correctable error at a line (R358, R364): counted for the channel and the row. -/
def mcCe (s : State) (l : Nat) : State :=
  let (n, j) := s.mcOf l
  let (st, k, _) := nearPlace s.quad (paOf l)
  let pg := pgMC n
  let s := (s.count pg (Fld.MC_CE_CNT_COUNT j)).status pg Fld.MC_STAT_CE (srcMC n 1)
  let c := Tab.getD (s.rowKey l) 0 s.mem.rowCe + 1
  let times := (Tab.getD (st * 16 + k) [] s.mem.chanCe).filter (fun t => s.time ≤ t + 3600000000000) ++ [s.time]
  let s := { s with mem := { s.mem with rowCe := Tab.put (s.rowKey l) c s.mem.rowCe,
                                        chanCe := Tab.put (st * 16 + k) times s.mem.chanCe } }
  if s.rowDue n l then s.rowAuto n l else s

/-- An uncorrectable error at a line (R359), or at one that carries the mark already (R360). -/
def mcUe (s : State) (l : Nat) (marked : Bool) : State :=
  let (n, j) := s.mcOf l
  let pg := pgMC n
  let s := (s.count pg Fld.MC_UE_CNT_COUNT).raise1 pg Fld.MC_STAT_UE
  let s := s.setMemLine l (Config.freeLine s.ctr) true
  let s := { s with ctr := s.ctr + 1 }
  if marked then s
  else
    let s := s.fire (srcMC n 0)
    let s := if s.flag pg Fld.MC_ERR_LOC_HI_V then s
      else
        let s := s.put pg Fld.MC_ERR_LOC_LO_ADDR_LO (paOf l / 64 % 2 ^ 26)
        ((s.put pg Fld.MC_ERR_LOC_HI_ADDR_HI (paOf l / 2 ^ 32)).put pg Fld.MC_ERR_LOC_HI_CHAN j).raise1 pg Fld.MC_ERR_LOC_HI_V
    s.record { typ := 0x0B, cls := 2, source := srcMC n 0, page := pg, sub := 0, addr := some (paOf l), words := [j, 0] }

/-- A memory read's return reaches the slice that asked (MEMORY_RETURN). -/
def memReturn (s : State) (r : MemRd) (d : LineData) (psn fill : Bool) : State :=
  { s with mem := { s.mem with rd := s.mem.rd.erase r, ret := s.mem.ret ++ [⟨r, d, psn, fill⟩] } }

end State

/-- What the check bits make of a line with errors in some of its 16-bit lane groups (R357, R360): corrected in one, detected in two. In
more it is a free value: undetected, miscorrected, or detected. -/
inductive LaneGroups where
  | clean | corrected | uncorrectable
  | unseen (d : LineData) (psn : Bool)
  | wrong (d : LineData) (psn : Bool)

/-- The outcome for a line that carries its mark or not (`marked`), the errors lying in `groups` lane groups. -/
def State.laneGroups (s : State) (line groups : Nat) (marked : Bool) : LaneGroups × State :=
  match groups with
  | 0 => (.clean, s)
  | 1 => (.corrected, s)
  | 2 => (.uncorrectable, s)
  | _ =>
    let v := (Config.eccMany line s.ctr).toNat
    let d := Config.freeLine s.ctr
    let p := if bitN v 2 then !marked else marked
    let s := { s with ctr := s.ctr + 1 }
    (if v % 4 == 0 then .unseen d p else if v % 4 == 1 then .wrong d p else .uncorrectable, s)

/-- Whether an access needs a row activation is the controller's business, on which the spec is silent: a free value, drawn where a counter of
the controller counts the event (R725). -/
def State.rowMiss (s : State) (n j : Nat) : State :=
  if (List.range 8).any fun i => s.get (pgMC n) (Fld.PMC_CTL_EVENT i) == 0x032 then
    let (w, s) := s.drawFree
    s.bump (pgMC n) 0x032 (w.toNat % 2) none none (some j)
  else s

/-- MEM_READ (R357 to R360): a controller reads a near line that a slice asked for, with errors in `groups` of its lane groups.
A pending accepted write of the line is seen by the read (log 8). -/
def execMemRead (line groups : Nat) (s : State) : Host.Outcome State Fault Refusal :=
  s.actMem fun s =>
    match s.mem.rd.find? (fun r => r.line == line && isNear (paOf line)) with
    | none => s
    | some r =>
      let (n, j) := s.mcOf line
      if s.rowHeld line || s.selfRefresh n then s
      else
        let s := (s.bump (pgMC n) 0x030 1 none none (some j)).rowMiss n j
        match s.pendingWrite line with
        | some w => s.memReturn r w.data w.psn true
        | none =>
          let marked := s.memPoison line
          match s.laneGroups line groups marked with
          | (.clean, s) => s.memReturn r (s.memLine line) marked true
          | (.corrected, s) => let s := s.mcCe line; s.memReturn r (s.memLine line) marked true
          | (.uncorrectable, s) => let s := s.mcUe line marked; s.memReturn r (s.memLine line) true true
          | (.unseen d p, s) => s.memReturn r d p true
          | (.wrong d p, s) => (s.mcCe line).memReturn r d p true

/-- MEM_WRITE (R360): a controller performs the oldest accepted write of a near line. -/
def execMemWrite (line : Nat) (s : State) : Host.Outcome State Fault Refusal :=
  s.actMem fun s =>
    match s.mem.wr.find? (fun w => w.line == line && isNear (paOf line)) with
    | none => s
    | some w =>
      let (n, j) := s.mcOf line
      if s.rowHeld line || s.selfRefresh n then s
      else
        let s := { s with mem := { s.mem with wr := s.mem.wr.erase w } }
        ((s.setMemLine line w.data w.psn).bump (pgMC n) 0x031 1 none none (some j)).rowMiss n j

/-- SCRUB_READ (R361, R362, R363, R365): patrol scrub of controller `n` reads its next line, with errors in `groups` of its lane
groups. -/
def execScrubRead (n groups : Nat) (s : State) : Host.Outcome State Fault Refusal :=
  s.actMem fun s =>
    let pg := pgMC n
    let o := s.get pg Fld.MC_SCRUB_POS_O
    let j := s.get pg Fld.MC_SCRUB_POS_CHAN
    let sub := Tab.getD n 0 s.mem.scrubSub
    let st := n / 2
    let k := j + 8 * (n % 2)
    if s.get pg Fld.MC_CTL_SCRUB_HRS == 0 || s.selfRefresh n || s.sparing st k || s.pageOff pg then s
    else
      let l := lineAt s.quad st k o sub
      let marked := s.memPoison l
      if s.rowHeld l then s
      else
        let s := match s.laneGroups l groups marked with
          | (.clean, s) => s
          | (.corrected, s) => (s.mcCe l).setMemLine l (s.memLine l) marked
          | (.uncorrectable, s) => s.mcUe l marked
          | (.unseen _ _, s) => s
          | (.wrong d p, s) => (s.mcCe l).setMemLine l d p
        let sub' := (sub + 1) % 4
        let s := { s with mem := { s.mem with scrubSub := Tab.putD 0 n sub' s.mem.scrubSub } }
        if sub' != 0 then s
        else if o + 1 < 2 ^ 23 then s.put pg Fld.MC_SCRUB_POS_O (o + 1)
        else
          let s := (s.put pg Fld.MC_SCRUB_POS_O 0).put pg Fld.MC_SCRUB_POS_CHAN (j + 1)
          if j == 7 then s.status pg Fld.MC_STAT_SCRUB_PASS (srcMC n 4) else s

/-- A nonzero SCRUB_HRS after 0 restarts patrol scrub at the beginning of a pass (R361). -/
def State.scrubRestart (s : State) (n : Nat) : State :=
  let s := (s.put (pgMC n) Fld.MC_SCRUB_POS_O 0).put (pgMC n) Fld.MC_SCRUB_POS_CHAN 0
  { s with mem := { s.mem with scrubSub := Tab.del n s.mem.scrubSub } }

/-- A write of 1 to MC_ROWSPARE_CMD.GO (R364, R367). -/
def State.rowSpareGo (s : State) (n : Nat) : State :=
  let pg := pgMC n
  if s.flag pg Fld.MC_ROWSPARE_STAT_BUSY then s
  else s.rowSpareStart n ((s.get pg Fld.MC_ROWSPARE_ADDR_LO_ADDR_LO) +
    (s.get pg Fld.MC_ROWSPARE_ADDR_HI_ADDR_HI) * 2 ^ 26)

/-- GO (R364). -/
def execGo (n : Nat) (s : State) : Host.Outcome State Fault Refusal :=
  s.actMem fun s => if s.pageOff (pgMC n) then s else s.rowSpareGo n

/-- The row copy of a controller ends (R365, R366): `bad` lists the lines of the row (0 to 31) found uncorrectable; STATUS is 1
where a line of the row was copied poisoned, now or carrying the mark already. The maps go to boot flash (R373), the row's count of
corrected errors starts again (log 143, DESIGN CHOICE), and triggers that waited are performed (R367). -/
def State.rowSpareDone (s : State) (n : Nat) (bad : List Nat) : State :=
  match Tab.get? n s.mem.rowCur with
  | none => s
  | some l =>
    let pg := pgMC n
    let (st, k, o) := nearPlace s.quad (paOf l)
    let bank := (st * 16 + k) * 64 + bankOf o
    let used := Tab.getD bank 0 s.mem.spareUsed
    let s := { s with mem := { s.mem with rowCur := Tab.del n s.mem.rowCur } }
    let s := (s.put pg Fld.MC_ROWSPARE_STAT_BUSY 0).put pg Fld.MC_ROWSPARE_STAT_DONE 1
    let s := if used ≥ 8 then
        let s := (s.put pg Fld.MC_ROWSPARE_STAT_STATUS 2).put pg Fld.MC_ROWSPARE_STAT_LEFT 0
        let s := s.status pg Fld.MC_STAT_ROW_NOSPARE (srcMC n 3)
        s.record { typ := 0x0B, cls := 3, source := srcMC n 3, page := pg, sub := 1, addr := some (paOf l),
                   words := [k % 8, 0] }
      else
        let lines := s.rowLines l
        let s := forAll (bad.eraseDups.filter (· < 32)) (fun i s =>
          let x := nthD lines i 0
          s.mcUe x (s.memPoison x)) s
        let s := { s with mem := { s.mem with spareUsed := Tab.put bank (used + 1) s.mem.spareUsed,
                                              rowMap := Tab.put (s.rowKey l) (used + 1) s.mem.rowMap
                                              rowCe := Tab.del (s.rowKey l) s.mem.rowCe } }
        let s := { s with flash := { s.flash with rowMap := s.mem.rowMap, spareUsed := s.mem.spareUsed } }
        (s.put pg Fld.MC_ROWSPARE_STAT_STATUS (if lines.any s.memPoison then 1 else 0)).put pg Fld.MC_ROWSPARE_STAT_LEFT (7 - used)
    (s.mem.rowQ.filter (·.1 == n)).foldl (fun s q =>
      if s.flag pg Fld.MC_ROWSPARE_STAT_BUSY then s
      else ({ s with mem := { s.mem with rowQ := s.mem.rowQ.erase q } }).rowSpareStart n q.2) s

/-- ROW_SPARE_DONE (R365, R366). -/
def execRowSpareDone (n : Nat) (bad : List Nat) (s : State) : Host.Outcome State Fault Refusal := s.actMem (·.rowSpareDone n bad)

namespace State

/-- Smith firmware must refuse channel sparing of a stack (R369). -/
def chanSpareRefused (s : State) (st : Nat) : Bool :=
  s.flag (pgSTK st) Fld.STK_STAT_SPARE_USED || s.flag (pgSTK st) Fld.STK_STAT_SPARE_BUSY ||
  s.get pgPWR Fld.PWR_STAT_STATE != 0

/-- Channel sparing of channel `k` of a stack starts (R370). -/
def chanSpareStart (s : State) (st k : Nat) : State :=
  let s := (s.put (pgSTK st) Fld.STK_STAT_SPARE_BUSY 1).put (pgSTK st) Fld.STK_STAT_PROGRESS 0
  { s with mem := { s.mem with spareChan := Tab.put st k s.mem.spareChan, spareSince := Tab.put st s.time s.mem.spareSince } }

/-- PROGRESS of a running channel copy (R370): at most 12.8 GB/s, at a rate that the spec leaves open. -/
def spareProgress (s : State) (st : Nat) : Nat :=
  match Tab.get? st s.mem.spareSince with
  | none => s.get (pgSTK st) Fld.STK_STAT_PROGRESS
  | some t => min 0xFFFF ((s.time - t) * (1 + (Config.spareRate st).toNat) / 10 / 2 ^ 15)

/-- The channel sparing of a stack ends: its command or automatic operation ends with it. -/
def chanSpareEnd (s : State) (st status : Nat) : State :=
  let s := s.put (pgSTK st) Fld.STK_STAT_SPARE_BUSY 0
  let s := { s with mem := { s.mem with spareChan := Tab.del st s.mem.spareChan, spareSince := Tab.del st s.mem.spareSince } }
  let s := (s.rowScan (2 * st)).rowScan (2 * st + 1)
  let s := if s.smith.autoOp == some (1, st) then { s with smith := { s.smith with autoOp := none } } else s
  if s.smith.op == some 0x20 && s.smith.site == st then s.mbEnd status else s

/-- In-service operations (R663, R666). -/
def inService (code : Nat) : Bool := [0x0A, 0x10, 0x11, 0x12, 0x13, 0x14, 0x19, 0x20, 0x21, 0x22, 0x28, 0x30].contains code

/-- An in-service operation runs: a command's or an automatic one (R663). -/
def serving (s : State) : Bool := (s.smith.op.map inService).getD false || s.smith.autoOp.isSome

end State

/-- SPARE_AUTO_START (R368): a channel corrected more than SPARE_THR errors within an hour; Smith firmware runs one in-service operation at
a time (R663). -/
def execSpareAutoStart (st k : Nat) (s : State) : Host.Outcome State Fault Refusal :=
  s.actMem fun s =>
    let pg := pgSTK st
    let n := ((Tab.getD (st * 16 + k) [] s.mem.chanCe).filter fun t => s.time ≤ t + 3600000000000).length
    if s.smith.running && s.flag pg Fld.STK_CFG_SPARE_AUTO && s.get pg Fld.STK_CFG_SPARE_THR < n &&
        !s.chanSpareRefused st && !s.serving then
      { (s.chanSpareStart st k) with smith := { s.smith with autoOp := some (1, st) } }
    else s

/-- CHAN_SPARE_SWITCH (R370, R371, R373): the copy has ended and the spare takes the channel; `bad` lists lines of the channel that it found
uncorrectable and copied poisoned. -/
def execChanSpareSwitch (st : Nat) (bad : List Nat) (s : State) : Host.Outcome State Fault Refusal :=
  s.actMem fun s =>
    match Tab.get? st s.mem.spareChan with
    | none => s
    | some k =>
      let pg := pgSTK st
      let mine := fun (l : Nat) => isNear (paOf l) && (nearPlace s.quad (paOf l)).1 == st && (nearPlace s.quad (paOf l)).2.1 == k
      let s := forAll (bad.eraseDups.filter mine) (fun l s => s.mcUe l (s.memPoison l)) s
      let s := { s with flash := { s.flash with chanMap := Tab.put st k s.flash.chanMap } }
      let s := (s.put pg Fld.STK_STAT_SPARE_USED 1).put pg Fld.STK_STAT_SPARED_CHAN k
      let s := s.put pg Fld.STK_STAT_PROGRESS 0xFFFF
      (s.status pg Fld.STK_STAT_SPARE_DONE (srcSTK st 0)).chanSpareEnd st 0

/-- CHAN_SPARE_ABANDON (R372): the spare fails during the copy. -/
def execChanSpareAbandon (st : Nat) (s : State) : Host.Outcome State Fault Refusal :=
  s.actMem fun s =>
    match Tab.get? st s.mem.spareChan with
    | none => s
    | some k =>
      let pg := pgSTK st
      let s := s.status pg Fld.STK_STAT_SPARE_ERR (srcSTK st 1)
      let s := s.record { typ := 0x0B, cls := 3, source := srcSTK st 1, page := pg, sub := 2, words := [k, 0] }
      s.chanSpareEnd st 6

/-- REFRESH_DUE (R377 to R380): a bank's refresh falls due; `busy`: the bank is busy with accesses. -/
def execRefreshDue (n chan bank : Nat) (busy : Bool) (s : State) : Host.Outcome State Fault Refusal :=
  s.actMem fun s =>
    let pg := pgMC n
    let key := (n * 8 + chan) * 64 + bank
    let debt := Tab.getD key 0 s.mem.debt
    let post := s.get pg Fld.MC_CTL_REF_POSTPONE
    let refreshed := fun (s : State) => s.bump pg 0x033 1 none none (some chan)
    let setDebt := fun (d : Nat) (s : State) => { s with mem := { s.mem with debt := Tab.putD 0 key d s.mem.debt } }
    if s.pageOff pg || s.selfRefresh n then s
    else match Tab.get? key s.mem.repay with
      | some extra =>
        let s := refreshed s
        let d := if extra == 1 then debt - 1 else debt
        let s := setDebt d s
        if d == 0 then { s with mem := { s.mem with repay := Tab.del key s.mem.repay } }
        else { s with mem := { s.mem with repay := Tab.put key (1 - extra) s.mem.repay } }
      | none =>
        if post ≤ debt then
          let s := (s.count pg Fld.MC_REF_FORCED_COUNT).status pg Fld.MC_STAT_REF_FORCED (srcMC n 2)
          let s := refreshed s
          if 0 < debt then { s with mem := { s.mem with repay := Tab.put key 0 s.mem.repay } } else s
        else if busy then setDebt (debt + 1) s
        else
          let s := refreshed s
          if 0 < debt then { s with mem := { s.mem with repay := Tab.put key 0 s.mem.repay } } else s

/-- STACK_TEMP_CHANGE (R377): the hottest die of a stack reads `temp` degrees. -/
def execStackTempChange (st temp : Nat) (s : State) : Host.Outcome State Fault Refusal :=
  s.actMem fun s =>
    let pg := pgSTK st
    let was := s.get pg Fld.STK_TEMP_TEMP
    let s := (s.put pg Fld.STK_TEMP_TEMP temp).put pg Fld.STK_TEMP_REF2X (b2n (85 < temp))
    if 95 < temp && was ≤ 95 then s.status pg Fld.STK_STAT_HOT (srcSTK st 2) else s

/-- REF_FORCED_POLL (R383): Smith firmware reads MC_REF_FORCED of every controller and records increases. -/
def execRefForcedPoll (s : State) : Host.Outcome State Fault Refusal :=
  s.act fun s =>
    if !s.smith.running then s
    else forAll (List.range 24) (fun n s =>
      let c := s.get (pgMC n) Fld.MC_REF_FORCED_COUNT
      let l := Tab.getD n 0 s.mem.lastForced
      let s := { s with mem := { s.mem with lastForced := Tab.putD 0 n c s.mem.lastForced } }
      if l < c then
        s.record { typ := 0x0B, cls := 3, source := srcMC n 2, page := pgMC n, sub := 3, words := [0, c - l] }
      else s) s

namespace State

/-- Why a far access that went to a port cannot go on (R389): 4 the group's domain is off, 2 the link is down or contained, 0 nothing. -/
def farStop (s : State) (port : Option (Nat × Nat)) : Nat :=
  match port with
  | none => 4
  | some (n, p) => if !s.domOn (43 + n) then 4 else if !s.portUp n p then 2 else 0

/-- The completion timeout of a far access has passed (R389). -/
def farLate (s : State) (port : Option (Nat × Nat)) (since : Nat) : Bool :=
  match port with
  | none => false
  | some (n, _) => decide (since + s.cplTo n ≤ s.time)

/-- A cause of R389 holds: 1 timeout, 2 link down or DPC, 3 the device answers with an error, 4 domain off. -/
def farFails (s : State) (port : Option (Nat × Nat)) (since cause : Nat) : Bool :=
  if cause == 1 then s.farLate port since else if cause == 3 then s.farStop port == 0 else cause != 0 && s.farStop port == cause

/-- The count, record and event of a failed far access (R391). One that went to no port, its decoder having been disabled, is an access of
no group and is neither counted nor recorded (log 144, DESIGN CHOICE). -/
def farFail (s : State) (line : Nat) (write : Bool) (port : Option (Nat × Nat)) (cause : Nat) : State :=
  match port with
  | none => s
  | some (n, p) =>
    let pg := pgPCIE n
    let s := if write then s.count pg (Fld.FM_WR_FAIL_COUNT p) else s.count pg (Fld.FM_RD_FAIL_COUNT p)
    (s.record { typ := 0x09, cls := 3, source := srcPCIE n 7, page := pg, sub := 2, addr := some (paOf line),
                words := [cause + p * 256] }).fire (srcPCIE n 7)

/-- A far write fails: it is lost (R391). -/
def farWriteFail (s : State) (w : MemWr) (cause : Nat) : State :=
  let s := { s with mem := { s.mem with wr := s.mem.wr.erase w } }
  (if w.rop then { s with rop := { s.rop with err := true } } else s).farFail w.line true w.port cause

/-- A far read fails: it is delivered poisoned, every byte 0xFF (R390). -/
def farReadFail (s : State) (r : MemRd) (cause : Nat) : State :=
  (s.memReturn r (BitVec.allOnes 512) true false).farFail r.line false r.port cause

/-- Far accesses on a link that is down, contained, or in a domain that is off fail at once (R389). -/
def farSweep (s : State) : State :=
  let s := (s.mem.wr.filter fun w => isFar (paOf w.line) && s.farStop w.port != 0).foldl (fun s w => s.farWriteFail w (s.farStop w.port)) s
  (s.mem.rd.filter fun r => isFar (paOf r.line) && s.farStop r.port != 0).foldl (fun s r => s.farReadFail r (s.farStop r.port)) s

end State

/-- FAR_MEM_RETURN (R388, R390): the CXL device answers a far read, or takes a far write, on a port that is up. -/
def execFarMemReturn (line : Nat) (write : Bool) (data : LineData) (psn : Bool) (s : State) :
    Host.Outcome State Fault Refusal :=
  s.actMem fun s =>
    if write then
      match s.mem.wr.find? (fun w => w.line == line && isFar (paOf line) && s.farStop w.port == 0) with
      | none => s
      | some w => { s with mem := { s.mem with wr := s.mem.wr.erase w } }
    else
      match s.mem.rd.find? (fun r => r.line == line && isFar (paOf line) && s.farStop r.port == 0) with
      | none => s
      | some r => s.memReturn r data psn true

/-- FAR_MEM_FAIL (R389, R390, R391): a far access fails for a cause that holds. -/
def execFarMemFail (line : Nat) (write : Bool) (cause : Nat) (s : State) : Host.Outcome State Fault Refusal :=
  s.actMem fun s =>
    if write then
      match s.mem.wr.find? (fun w => w.line == line && isFar (paOf line) && s.farFails w.port w.since cause) with
      | none => s
      | some w => s.farWriteFail w cause
    else
      match s.mem.rd.find? (fun r => r.line == line && isFar (paOf line) && s.farFails r.port r.since cause) with
      | none => s
      | some r => s.farReadFail r cause

end Sys2Proof.Machine
end

