-- ==== Sys2Proof/Machine/Home.lean ====
section
/-! DEFINITION. The home slices (R187 to R259): directory, tracker, reservations, admission, snoops and their
answers, sourcing, writebacks, directory replacement, snoop timeout, die loss, containment and recall. -/

namespace Sys2Proof.Machine

/-- The reasons of a Nack (R167). -/
def nackConflict : Nat := 1
def nackTracker : Nat := 2
def nackDirset : Nat := 3
def nackQos : Nat := 4
def nackFenced : Nat := 5
def nackRetired : Nat := 6

/-- A directory set nobody has touched: empty ways, LRU order by way number (log 5). -/
def emptyDirSet : List DirWay := (List.range 16).map fun i => { age := i }

/-- Make way `i` the most recently used of its set (R212). -/
def touchDir (ws : List DirWay) (i : Nat) : List DirWay :=
  let a := (nthD ws i {}).age
  ws.mapIdx fun j w => if j == i then { w with age := 0 } else if w.age < a then { w with age := w.age + 1 } else w

/-- The directory state of a way (R210). -/
def DirWay.state (w : DirWay) : DirSt :=
  match w.st with
  | 1 => .sh w.pv (if w.lv then some w.lead else none)
  | 2 => .ex w.pv
  | _ => .nc

/-- A way holding `d` for a line, with its AGE. -/
def dirWayOf (l : Nat) (d : DirSt) (age : Nat) : DirWay :=
  match d with
  | .nc => { age := age }
  | .sh pv lead => { line := l, st := 1, pv := pv, lead := lead.getD 0, lv := lead.isSome, age := age }
  | .ex o => { line := l, st := 2, pv := o, age := age }

/-- The sites of a presence vector. -/
def sitesOf (pv : Nat) : List Nat := (List.range 16).filter fun i => bitN pv i

/-- Remove site `x` from a directory state (R153, R246). -/
def DirSt.remove (d : DirSt) (x : Nat) : DirSt :=
  match d with
  | .nc => .nc
  | .ex o => if o == x then .nc else .ex o
  | .sh pv lead =>
    let pv := if bitN pv x then pv - 2 ^ x else pv
    if pv == 0 then .nc else .sh pv (if lead == some x then none else lead)

/-- Add a site to a presence vector. -/
def addSite (pv x : Nat) : Nat := if bitN pv x then pv else pv + 2 ^ x

/-- The site of a requester, where it is a die. -/
def reqSite (p : Pkt) : Option Nat := if isDieNode p.src then some (siteOf p.src) else none

/-- The target field of a FarAtomic (R162): offset and size of the target, or none where OP or mask is bad. -/
def atomicTarget (op : Nat) (m : ByteMask) : Option (Nat × Nat) :=
  let ok := fun (r : Nat × Nat) => (r.2 == 4 || r.2 == 8 || r.2 == 16) && r.1 % r.2 == 0
  let half := fun (lo : Bool) =>
    let part : Nat := if lo then m.toNat % 2 ^ 32 else m.toNat / 2 ^ 32
    let other : Nat := if lo then m.toNat / 2 ^ 32 else m.toNat % 2 ^ 32
    if part == other then
      match maskRun? (BitVec.ofNat 64 part) with
      | some (off, n) => if ok (off, n) then some (if lo then off else off + 32, n) else none
      | none => none
    else none
  match op with
  | 0 | 1 | 4 | 5 => match maskRun? m with
    | some r => if ok r then some r else none
    | none => none
  | 2 => half true
  | 3 => half false
  | _ => none

/-- The new value of a FarAtomic's target field (R162). -/
def atomicNew (op off n : Nat) (old operand : LineData) : Nat :=
  let t := lineField old off n
  let v := lineField operand off n
  match op with
  | 0 => (t + v) % 2 ^ (8 * n)
  | 1 => v
  | 2 => if t == lineField operand (off + 32) n then v else t
  | 3 => if t == lineField operand (off - 32) n then v else t
  | 4 => t &&& v
  | _ => t ||| v

/-- The outcome of a directory transition table row (R187) at the end of a request: the new state. -/
def finalState (p : Pkt) (d0 : DirSt) (fwd ansL : Bool) : DirSt :=
  let me := (reqSite p).getD 0
  match p.op.toNat with
  | 1 =>
    if p.size.getLsbD 0 then
      match d0 with
      | .nc => .ex me
      -- LEAD stays where it names the requester too (R183 treats it as not valid; log 148, DESIGN CHOICE)
      | .sh pv lead => .sh (addSite pv me) lead
      | .ex o => if ansL then .sh (addSite (2 ^ o) me) (some o) else .ex me
    else
      match d0 with
      | .nc => .ex me
      | .sh pv lead =>
        let pv := match lead with
          | some x => if fwd || x == me then pv else if bitN pv x then pv - 2 ^ x else pv
          | none => pv
        .sh (addSite pv me) (some me)
      | .ex o => if fwd then .sh (addSite (2 ^ o) me) (some me) else .ex me
  | 2 | 3 => .ex me
  | 4 =>
    match d0 with
    | .nc => .nc
    | .sh pv lead => .sh pv lead
    | .ex o => if ansL then .sh (2 ^ o) (some o) else .nc
  | _ => .nc

namespace State

/-! ### Directory access -/

def dirAt (s : State) (h set : Nat) : List DirWay := Tab.getD set emptyDirSet (s.homeAt h).dir
def setDir (s : State) (h set : Nat) (ws : List DirWay) : State :=
  s.modHome h fun x => { x with dir := Tab.putD emptyDirSet set ws x.dir }

/-- The way that holds a line's entry. -/
def dirFind (s : State) (h l : Nat) : Option Nat :=
  (List.range 16).find? fun i => let w := nthD (s.dirAt h (dirSet (paOf l))) i {}; w.st != 0 && w.line == l

/-- The directory state of a line (R152). -/
def lineDir (s : State) (h l : Nat) : DirSt :=
  match s.dirFind h l with
  | some i => (nthD (s.dirAt h (dirSet (paOf l))) i {}).state
  | none => .nc

/-- The line a transaction works on: its victim while a replacement runs (R237). -/
def txnLine (t : Txn) : Nat := match t.victim with
  | some (l, _) => l
  | none => t.line

/-- The line is BUSY (R154, R236). -/
def lineBusy (s : State) (h l : Nat) : Bool :=
  ((s.homeAt h).trk.any fun e => e.2.line == l || (match e.2.victim with
    | some (v, _) => v == l
    | none => false)) ||
  ((s.homeAt h).wb.any fun e => e.2.line == l && !e.2.toTxn)

/-- A way is allocated to a transaction that has not installed its entry (R221). -/
def wayTaken (s : State) (h set i : Nat) : Bool :=
  (s.homeAt h).trk.any fun e =>
    (e.2.way == some i && dirSet (paOf e.2.line) == set) ||
    (match e.2.victim with
      | some (_, w) => w == i && dirSet (paOf e.2.line) == set
      | none => false)

/-- A directory way is busy (R221). -/
def wayBusy (s : State) (h set i : Nat) : Bool :=
  let w := nthD (s.dirAt h set) i {}
  s.wayTaken h set i || (w.st != 0 && s.lineBusy h w.line)

/-- Set a line's entry, in its own way or in way `alloc`; NC empties the way and leaves the LRU order, and so does an entry that stays as
it is (R211, R212). -/
def setLineDir (s : State) (h l : Nat) (d : DirSt) (alloc : Option Nat) : State :=
  let set := dirSet (paOf l)
  match (match s.dirFind h l with
    | some i => some i
    | none => alloc) with
  | none => s
  | some i =>
    let ws := s.dirAt h set
    if d = .nc then s.setDir h set (ws.map fun w => if w.st != 0 && w.line == l then dirWayOf l d w.age else w)
    else if s.lineDir h l = d then s
    else s.setDir h set (touchDir (modOf 16 {} ws i fun w => dirWayOf l d w.age) i)

/-- Make a way of a set the most recently used (R212). -/
def touchWayOf (s : State) (h set i : Nat) : State := s.setDir h set (touchDir (s.dirAt h set) i)

/-- An admission makes the way of its line's entry the most recently used (R212). -/
def touchEntry (s : State) (h l : Nat) : State :=
  match s.dirFind h l with
  | some i => s.touchWayOf h (dirSet (paOf l)) i
  | none => s

def txn? (s : State) (h k : Nat) : Option Txn := Tab.get? k (s.homeAt h).trk
def setTxn (s : State) (h k : Nat) (t : Txn) : State := s.modHome h fun x => { x with trk := Tab.put k t x.trk }
def aux? (s : State) (h k : Nat) : Option Aux := Tab.get? k (s.homeAt h).wb
def setAux (s : State) (h k : Nat) (a : Aux) : State := s.modHome h fun x => { x with wb := Tab.put k a x.wb }

/-! ### Records and counts of a home -/

/-- HOME_STAT.PROTO and the PROTO record (R161, R193, R194). -/
def protoStat (s : State) (h sub : Nat) (p : Pkt) : State :=
  (s.status (pgHOME h) Fld.HOME_STAT_PROTO (srcHOME h 3)).record
    { typ := 0x05, cls := 3, source := srcHOME h 3, page := pgHOME h, node := p.src.toNat, opcode := p.op.toNat,
      sub := sub, addr := some (paOf p.addr.toNat) }

/-- A line was written poisoned by containment for a site (R245, R250). -/
def notePoison (s : State) (h site : Nat) : State :=
  let s := s.modHome h fun x => { x with lossCnt := Tab.put site (Tab.getD site 0 x.lossCnt + 1) x.lossCnt }
  s.status (pgHOME h) Fld.HOME_STAT_POISON (srcHOME h 2)

/-- A slot issues a step that does useful work, or one that ends in a Nack or is a replay (R254). -/
def slotRetired (s : State) (h : Nat) : State := s.modHome h fun x => { x with retired := x.retired + 1 }
def slotWasted (s : State) (h : Nat) : State := s.modHome h fun x => { x with wasted := x.wasted + 1 }

/-- A home is the destination of a unit. -/
def homeOfPkt (p : Pkt) : Option Nat := if 0x40 ≤ p.dst.toNat && p.dst.toNat < 0x80 then some (p.dst.toNat - 0x40) else none

/-- A home serves an opcode (R193). -/
def homeServes (op : BitVec 7) : Bool := (1 ≤ op.toNat && op.toNat ≤ 8) || op == 0x43 || op == 0x60 || op == 0x61

/-- A unit whose opcode its home does not serve is discarded without an answer (R193). -/
def protoDrop (s : State) (p : Pkt) : State :=
  match homeOfPkt p with
  | some h => if homeServes p.op then s else ((s.consume p).slotRetired h).protoStat h 1 p
  | none => s

/-! ### Writing a line poisoned (R245) -/

/-- Write a line poisoned, outside any transaction (R245, R346): at once, or through an entry of its own where the line must be read from
far memory or the eviction waits. -/
def poisonLine (s : State) (h l : Nat) : State :=
  let later := fun (s : State) =>
    let k := 64 + (((List.range 4096).find? fun i => (s.aux? h (64 + i)).isNone).getD 0)
    s.setAux h k { line := l, ack := none, site := 16, toTxn := false, hq := [.pz] }
  let write := fun (d : LineData) (s : State) => match s.hearthWrite h l d true false with
    | some s => s
    | none => later (s.vbStall h)
  match s.hearthLook h l .clean with
  | (some (d, _), s) => write d s
  | (none, s) =>
    if isNear (paOf l) then
      write (match s.pendingWrite l with
        | some w => w.data
        | none => s.memLine l) s
    else later s

/-- On-demand containment (R247): the entry of a line that names a fenced site. Where a transaction or a WbData works on the line it has
dealt with the site (R244, R246): the entry loses the site without poison, and its way stays with the transaction (log 146, DEDUCED). -/
def cleanEntry (s : State) (h l : Nat) : State :=
  match s.dirFind h l, s.lineDir h l with
  | some i, .ex o =>
    if !s.fenced o then s
    else
      let busy := s.lineBusy h l
      let s := s.setLineDir h l .nc none
      if busy then s.modHome h fun x =>
        { x with trk := x.trk.map fun e => if e.2.line == l && e.2.victim.isNone && e.2.way.isNone && e.2.kind == .request
                                           then (e.1, { e.2 with way := some i }) else e }
      else (s.poisonLine h l).notePoison h o
  | some i, .sh pv lead =>
    let gone := (sitesOf pv).filter fun x => s.fenced x
    if gone.isEmpty then s
    else
      let d := gone.foldl (fun d x => d.remove x) (.sh pv lead)
      let busy := s.lineBusy h l
      let s := s.setLineDir h l d none
      if d = .nc && busy then s.modHome h fun x =>
        { x with trk := x.trk.map fun e => if e.2.line == l && e.2.victim.isNone && e.2.way.isNone && e.2.kind == .request
                                           then (e.1, { e.2 with way := some i }) else e }
      else s
  | _, _ => s

/-! ### Messages -/

/-- Module `m` of a site is in ACTIVE or IDLE (R213). -/
def moduleUp (s : State) (site m : Nat) : Bool :=
  let st := s.get (pgLNK site) (Fld.LNK_STAT_STATE m)
  st == 4 || st == 5

/-- The module of a site at or after `m` that is active (R213, R467). -/
def moduleFrom (s : State) (site m : Nat) : Nat :=
  (((List.range 4).map fun i => (m + i) % 4).find? fun i => s.moduleUp site i).getD m

/-- Send a snoop for the transaction at entry `k` (R164, R165, R213). -/
def sendSnoop (s : State) (h k line site op : Nat) (fwd discard : Bool) (req : Pkt) : State × Nat :=
  let src := if fwd then req.src else nodeHome h
  let txn : BitVec 12 := if fwd then req.txn else BitVec.ofNat 12 k
  let p : Pkt := { op := BitVec.ofNat 7 op, src := src, txn := txn, addr := BitVec.ofNat 46 line,
                   size := if discard then 1 else 0 }
  ((s.send p (nodeModule site (s.moduleFrom site (h % 4)))).bump (pgHOME h) 0x019 1 none none (some site), txn.toNat)

/-- A response to a request; nothing is sent to a fenced site, and data for one counts as discarded (R244 to R246). -/
def reply (s : State) (h : Nat) (t : Txn) (op : BitVec 7) (addr : BitVec 46) (last : Bool) (psn : Bool := false)
    (data : Option (LineData × ByteMask) := none) : State :=
  match reqSite t.req with
  | some x =>
    if s.fenced x then (if data.isSome then s.discardCount else s)
    else s.respond op (nodeHome h) t.req.src t.req.txn addr last psn data
  | none => s.respond op (nodeHome h) t.req.src t.req.txn addr last psn data

/-- Answer a request with a Nack and count it (R167, R253). -/
def nack (s : State) (h : Nat) (p : Pkt) (r : Nat) : State :=
  let s := s.respond 0x40 (nodeHome h) p.src p.txn (BitVec.ofNat 46 r) true
  let s := s.count (pgHOME h) (Fld.HOME_NACK_CNT_COUNT (r - 1))
  let s := if r ≤ 4 then s.count (pgHOME h) (Fld.HOME_OVL_REF_COUNT p.cls.toNat) else s
  let s := if r == nackDirset then s.raise1 (pgHOME h) Fld.HOME_STAT_DIRSET else s
  (s.bump (pgHOME h) 0x016 1 (some p.src.toNat) (some p.cls.toNat) (some r)).slotWasted h

/-! ### The end of a transaction -/

/-- The line is held for its oldest reservation, where it has one (R230). -/
def holdLine (s : State) (h l : Nat) : State :=
  s.modHome h fun x =>
    if x.rsv.any fun e => e.2.line == l then { x with heldSince := Tab.put l s.time x.heldSince }
    else { x with heldSince := Tab.del l x.heldSince }

/-- The home has sent the transaction's last message: the entry, and a reservation it used, are free. -/
def endTxn (s : State) (h k : Nat) (t : Txn) : State :=
  let s := s.modHome h fun x => { x with trk := Tab.del k x.trk, rsv := if 1024 ≤ k then Tab.del (k - 1024) x.rsv else x.rsv }
  s.holdLine h t.line

/-- Install the final directory state, without sites that are fenced (R246) or that evicted the line meanwhile (R191), and end the
transaction. A line that had no entry gets it now, in the way allocated to it: a replaced way stays empty until then (R238; log 149,
DESIGN CHOICE). -/
def finish (s : State) (h k : Nat) (t : Txn) (d : DirSt) : State :=
  let fencedReq := match reqSite t.req with
    | some x => s.fenced x
    | none => false
  let me := (reqSite t.req).getD 16
  let lost := fencedReq && t.fwdOwner && d = .ex me
  let gone := (List.range 16).filter fun x => s.fenced x || (t.wbSeen.contains x && x != me)
  let d' := gone.foldl (fun d x => d.remove x) d
  let s := s.setLineDir h t.line d' t.way
  let s := s.endTxn h k t
  if lost then (s.poisonLine h t.line).notePoison h me else s

/-! ### Serving an admitted request (R187 to R191) -/

/-- A WbData of the line waits in its writeback entry: the transaction sources, merges and writes after it (R189, R191). -/
def wbPending (t : Txn) : Bool := t.wbSeen.any fun x => !t.wbDone.contains x

/-- The last word of a transaction that has nothing more to wait for, or its next access (R188). `d0` is the
directory state it is served by. -/
def advance (s : State) (h k : Nat) (t : Txn) : State :=
  let op := t.req.op.toNat
  let allDone := t.snoops.isEmpty && t.wpWait.isEmpty
  let leadDone := (t.snoops.all fun n => n.rank == 0) && t.wpWait.isEmpty
  let line : BitVec 46 := BitVec.ofNat 46 t.line
  let all : ByteMask := BitVec.allOnes 64
  let fin := fun (s : State) (t : Txn) => s.finish h k t (finalState t.req t.d0 t.fwd t.ansL)
  if !t.hq.isEmpty || wbPending t then s.setTxn h k t
  else match op with
  | 1 | 2 | 3 =>
    let inP := match t.d0, reqSite t.req with
      | .sh pv _, some x => bitN pv x
      | _, _ => false
    if op == 3 && inP then
      if allDone then fin (s.reply h t 0x42 0 true) t else s.setTxn h k t
    else if t.fwd then
      if allDone then fin (s.reply h t 0x41 0 true) t else s.setTxn h k t
    else if !leadDone then s.setTxn h k t
    else match t.data with
      | none => s.setTxn h k { t with hq := [.rd] }
      | some (d, psn) =>
        let psn := psn || t.psnOut
        let rop : BitVec 7 := match finalState t.req t.d0 t.fwd t.ansL with
          | .ex _ => 0x52
          | _ => if t.req.size.getLsbD 0 then 0x50 else 0x51
        if allDone then
          if t.dataSent then fin (s.reply h t 0x41 0 true) t
          else fin (s.reply h t rop line true psn (some (d, all))) t
        else if t.dataSent then s.setTxn h k t
        else (s.reply h t rop line false psn (some (d, all))).setTxn h k { t with dataSent := true }
  | 4 =>
    if !leadDone then s.setTxn h k t
    else match t.data with
      | none => s.setTxn h k { t with hq := [.rd] }
      | some (d, psn) => fin (s.reply h t 0x54 line true (psn || t.psnOut) (some (d, all))) t
  | 5 | 6 | 7 =>
    let whole := op == 5 && t.req.mask == all
    if !allDone then s.setTxn h k t
    else if whole then
      if t.wrote then fin (s.reply h t 0x41 0 true) t
      else s.setTxn h k { t with hq := [.wr t.req.data t.req.psn], wrote := true }
    else match t.data with
      | none => s.setTxn h k { t with hq := [.rdm] }
      | some (d, psn) =>
        let psn := psn || t.psnOut
        if op == 7 then
          match atomicTarget t.req.size.toNat t.req.mask with
          | none => s.setTxn h k t
          | some (off, n) =>
            let tm := maskRun off n
            let idle := psn || t.req.psn
            if idle || t.wrote then
              fin (s.reply h t 0x54 line true idle (some (d &&& maskBits tm, tm))) t
            else
              let new := setLineField d off n (atomicNew t.req.size.toNat off n d t.req.data)
              s.setTxn h k { t with hq := [.wr new false], wrote := true }
        else if t.wrote then fin (s.reply h t 0x41 0 true) t
        else s.setTxn h k { t with hq := [.wr (mergeLine d t.req.data t.req.mask) (psn || t.req.psn)], wrote := true }
  | _ => s.setTxn h k t

/-- The snoops of the home table (R187) for an admitted request: site, opcode, forwarding, DISCARD, rank. -/
def snoopPlan (p : Pkt) (d : DirSt) : List (Nat × Nat × Bool × Bool × Nat) :=
  let me := (reqSite p).getD 16
  let nolead := p.size.getLsbD 0
  let others := fun (pv : Nat) => (sitesOf pv).filter (· != me)
  let strike := p.op.toNat == 5 && p.mask == BitVec.allOnes 64
  match p.op.toNat, d with
  | 1, .sh _ (some x) => if nolead || x == me then [] else [(x, 0x20, true, false, 1)]
  | 1, .ex o => [(o, 0x20, !nolead, false, 2)]
  | 2, .sh pv lead | 3, .sh pv lead =>
    if p.op.toNat == 3 && bitN pv me then (others pv).map fun x => (x, 0x22, false, false, 0)
    else (others pv).map fun x => if lead == some x then (x, 0x21, true, false, 1) else (x, 0x22, false, false, 0)
  | 2, .ex o | 3, .ex o => [(o, 0x21, true, false, 2)]
  | 4, .ex o => [(o, 0x20, false, false, 2)]
  | 5, .sh pv _ | 6, .sh pv _ | 7, .sh pv _ => (others pv).map fun x => (x, 0x22, false, strike, 0)
  | 5, .ex o | 6, .ex o | 7, .ex o => [(o, 0x22, false, strike, 2)]
  | _, _ => []

/-- Send a list of snoops and note them in the transaction. -/
def sendSnoops (s : State) (h k line : Nat) (req : Pkt) (plan : List (Nat × Nat × Bool × Bool × Nat)) :
    State × List Snoop :=
  plan.foldl (fun acc x =>
    let (site, op, fwd, discard, rank) := x
    let (s, txn) := acc.1.sendSnoop h k line site op fwd discard req
    (s, acc.2 ++ [⟨site, op, rank, discard, line, s.time, txn, fwd, false⟩])) (s, [])

/-- Serve a transaction from the directory state of its line, on-demand containment first (R187, R194, R247,
R763). -/
def serve (s : State) (h k : Nat) (t : Txn) : State :=
  let s := s.cleanEntry h t.line
  let d := s.lineDir h t.line
  let own := match d, reqSite t.req with
    | .ex o, some x => o == x
    | _, _ => false
  let s := if own && t.req.op.toNat ≤ 3 then s.protoStat h 2 t.req else s
  let d0 : DirSt := if own then .nc else d
  let (s, sn) := s.sendSnoops h k t.line t.req (snoopPlan t.req d0)
  s.advance h k { t with d0 := d0, started := true, snoops := sn }

/-- The lowest-numbered empty way that no transaction has been given (R235). -/
def freeWay (s : State) (h set : Nat) : Option Nat :=
  (List.range 16).find? fun i => (nthD (s.dirAt h set) i {}).st == 0 && !s.wayTaken h set i

/-- The victim of R236: the least recently used way that is not busy. -/
def victimWay (s : State) (h set : Nat) : Option Nat :=
  (List.range 16).foldl (fun (b : Option Nat) i =>
    if s.wayBusy h set i then b
    else match b with
      | none => some i
      | some j => if (nthD (s.dirAt h set) j {}).age < (nthD (s.dirAt h set) i {}).age then some i else b) none

/-- A request waits for a directory way: it counts as delayed, once (R252). -/
def delayTxn (s : State) (h : Nat) (t : Txn) : State × Txn :=
  let c := t.req.cls.toNat
  if t.delayed then (s, t)
  else ((s.count (pgHOME h) (Fld.HOME_OVL_DLY_COUNT c)).bump (pgHOME h) 0x017 1 none (some c), { t with delayed := true })

/-- Give a waiting request its directory way, by replacement where the set is full (R235, R236, R229), and
serve it where it has one. -/
def beginTxn (s : State) (h k : Nat) (t : Txn) : State :=
  let needs := t.req.op.toNat ≤ 3 && s.lineDir h t.line = .nc
  if !needs then s.serve h k t
  else
    let set := dirSet (paOf t.line)
    match s.freeWay h set with
    | some i => (s.touchWayOf h set i).serve h k { t with way := some i }
    | none =>
      match s.victimWay h set with
      | none =>
        let (s, t) := s.delayTxn h t
        s.setTxn h k t
      | some i =>
        let v := (nthD (s.dirAt h set) i {}).line
        let s := s.cleanEntry h v
        match s.lineDir h v with
        | .nc => (s.touchWayOf h set i).serve h k { t with way := some i }
        | d =>
          let sites := match d with
            | .sh pv _ => (sitesOf pv).map fun x => (x, 0x23, false, false, 0)
            | .ex o => [(o, 0x23, false, false, 2)]
            | .nc => []
          let (s, t) := s.delayTxn h t
          let (s, sn) := (s.bump (pgHOME h) 0x01A).sendSnoops h k v t.req sites
          s.setTxn h k { t with victim := some (v, i), snoops := sn }

/-- Re-examine a transaction after one of its answers (R237, R238, R188): the replacement may be complete, a recall
may be complete, or the request may go on. -/
def progress (s : State) (h k : Nat) : State :=
  match s.txn? h k with
  | none => s
  | some t =>
    let quiet := t.snoops.isEmpty && t.wpWait.isEmpty && t.hq.isEmpty && !wbPending t
    match t.kind with
    | .recall site =>
      if quiet then
        let d := (s.lineDir h t.line).remove site
        (s.setLineDir h t.line d none).endTxn h k t
      else s
    | .request =>
      match t.victim with
      | some (v, i) =>
        if quiet then
          let s := (s.setLineDir h v .nc none).touchWayOf h (dirSet (paOf t.line)) i
          let s := s.holdLine h v
          s.serve h k { t with victim := none, way := some i, wbSeen := [], wbDone := [], data := none,
                               fwd := false, psnOut := false }
        else s
      | none => if t.started then s.advance h k t else s.beginTxn h k t

/-! ### Admission (R219) -/

/-- Entries a class holds as reserved, or as shared; entries held in the tracker. -/
def heldReserved (s : State) (h c : Nat) : Nat := ((s.homeAt h).trk.filter fun e => e.2.held == .reserved c).length
def heldShared (s : State) (h c : Nat) : Nat := ((s.homeAt h).trk.filter fun e => e.2.held == .shared c).length
def trackerUsed (s : State) (h : Nat) : Nat := ((s.homeAt h).trk.filter fun e => e.1 < 1024).length

/-- Checks 9 to 12 for a class: how it is admitted, or the Nack reason (R219, R225). -/
def trackerCheck (s : State) (h c : Nat) : Held ⊕ Nat :=
  let res := s.get (pgHOME h) Fld.HOME_TRK_CFG_CLASS_RES
  let cap := bits (s.reg (pgHOME h) Reg.HOME_TRK_CAP) (8 * c) 8
  let full := decide (1024 ≤ s.trackerUsed h)
  let shared := (List.range 4).foldl (fun a i => a + s.heldShared h i) 0
  if s.heldReserved h c < res && !full then .inl (.reserved c)
  else if 8 * cap ≤ s.heldShared h c then .inr nackQos
  else if 1024 - 4 * res ≤ shared || full then .inr nackTracker
  else .inl (.shared c)

/-- The reservation entry of a source and line (R226). -/
def rsvOf (s : State) (h src l : Nat) : Option Nat :=
  ((s.homeAt h).rsv.find? fun e => e.2.srcNode == src && e.2.line == l).map (·.1)

/-- The oldest reservation of a line (R230). -/
def oldestRsv (s : State) (h l : Nat) : Option (Nat × Rsv) :=
  (s.homeAt h).rsv.foldl (fun (b : Option (Nat × Rsv)) e =>
    if e.2.line != l then b
    else match b with
      | none => some e
      | some x => if e.2.born < x.2.born then some e else b) none

/-- The line is held for a reservation of another source (check 6, R230). -/
def heldForOther (s : State) (h src l : Nat) : Bool :=
  match s.oldestRsv h l with
  | some (_, r) => r.srcNode != src
  | none => false

/-- Make a reservation in a free entry (R227, R233). -/
def makeRsv (s : State) (h src l : Nat) : State :=
  match Tab.freeKey (s.homeAt h).rsv 8 with
  | none => s.raise1 (pgHOME h) Fld.HOME_STAT_RSV_FULL
  | some n =>
    (s.modHome h fun x =>
      { x with rsv := Tab.put n ⟨src, l, x.rsvSeq⟩ x.rsv, rsvSeq := x.rsvSeq + 1 }).bump (pgHOME h) 0x01B 1 (some src)

/-- The page of the line is retired (R374). -/
def pageRetired (s : State) (l : Nat) : Bool :=
  let pg := paOf l / 4096
  (List.range 12).any fun st => (List.range 16).any fun i =>
    s.flag (pgSTK st) (Fld.STK_RET_LO_V i) &&
    s.get (pgSTK st) (Fld.STK_RET_LO_PAGE_LO i) + s.get (pgSTK st) (Fld.STK_RET_HI_PAGE_HI i) * 2 ^ 20 == pg

/-- Smith firmware holds a site in steps 1 to 3 of a site offline (R667; log 19). -/
def quiesced (s : State) (site : Nat) : Bool :=
  s.smith.op == some 0x10 && s.smith.site == site && 1 ≤ s.smith.phase && s.smith.phase ≤ 3

/-- The wait of a request in its home's VC0 queue, in FCLK cycles (R252). -/
def queueWait (s : State) (p : Pkt) : Nat :=
  match s.net.find? fun e => sameUnit e.p p && decide (e.at_ = .rx) with
  | some e => (s.time - e.since) * 12 / 5
  | none => 0

/-- A request is admitted in entry `k` (R225, R228): marked BUSY, then served. -/
def takeIn (s : State) (h k : Nat) (p : Pkt) (held : Held) (wait : Nat) : State :=
  let pg := pgHOME h
  let c := p.cls.toNat
  let late := s.get pg Fld.HOME_DLY_CFG_THRESH < wait
  let s := s.bump pg 0x015 1 (some p.src.toNat) (some c)
  let s := if late then (s.count pg (Fld.HOME_OVL_DLY_COUNT c)).bump pg 0x017 1 none (some c) else s
  let l := p.addr.toNat
  let s := s.modHome h fun x => { x with heldSince := Tab.del l x.heldSince }
  let s := s.slotRetired h
  let t : Txn := { line := l, req := p, held := held, delayed := late, born := (s.homeAt h).seq }
  let s := (s.modHome h fun x => { x with seq := x.seq + 1 }).touchEntry h l
  match p.op.toNat with
  | 8 =>
    let site := (reqSite p).getD 16
    let d := s.lineDir h l
    let named := match d with
      | .nc => false
      | .sh pv _ => bitN pv site
      | .ex o => o == site
    let s := if named then s.setLineDir h l (d.remove site) none else s
    (s.respond 0x45 (nodeHome h) p.src p.txn 0 true).endTxn h k t
  | 5 | 6 =>
    if p.mask == 0 then
      ((s.protoStat h 3 p).respond 0x41 (nodeHome h) p.src p.txn 2 true).endTxn h k t
    else (s.setTxn h k t).beginTxn h k t
  | 7 =>
    match atomicTarget p.size.toNat p.mask with
    | some _ => (s.setTxn h k t).beginTxn h k t
    | none =>
      let s := s.record
        { typ := 0x05, cls := 3, source := srcHOME h 3, page := pg, node := p.src.toNat, opcode := p.op.toNat,
          sub := 0, addr := some (paOf l), fires := true }
      (s.respond 0x54 (nodeHome h) p.src p.txn p.addr true true (some (maskBits p.mask, p.mask))).endTxn h k t
  | _ => (s.setTxn h k t).beginTxn h k t

/-- Checks 3 to 12 of R219, on-demand containment (R247) having been applied to the line. -/
def homeChecked (s : State) (h : Nat) (p : Pkt) (wait : Nat) : State :=
  let l := p.addr.toNat
  let src := p.src.toNat
  let evict := p.op.toNat == 8
  if isDieNode p.src && s.fenced (siteOf p.src) then (s.slotRetired h).discardCount
  else if !evict && isDieNode p.src && s.quiesced (siteOf p.src) then s.nack h p nackFenced
  else if !evict && s.pageRetired l then s.nack h p nackRetired
  else if s.lineBusy h l || s.heldForOther h src l then
    let s := if p.rsv && (s.rsvOf h src l).isNone then s.makeRsv h src l else s
    s.nack h p nackConflict
  else
    let own := s.rsvOf h src l
    let free := Tab.freeKey (s.homeAt h).rsv 8
    let s := if p.rsv && own.isNone then s.makeRsv h src l else s
    match p.rsv, (match own with
      | some n => some n
      | none => free) with
    | true, some n => s.takeIn h (1024 + n) p .rsvEntry wait
    | _, _ =>
      let set := dirSet (paOf l)
      let needs := p.op.toNat ≤ 3 && s.lineDir h l = .nc
      if needs && (s.freeWay h set).isNone && (s.victimWay h set).isNone then s.nack h p nackDirset
      else match s.trackerCheck h p.cls.toNat, Tab.freeKey (s.homeAt h).trk 1024 with
        | .inl held, some k => s.takeIn h k p held wait
        | .inl _, none => s.nack h p nackTracker
        | .inr r, _ => s.nack h p r

/-- A request of opcode 0x01 to 0x08 issues at home `h` (R219, R220): the first check that matches decides. -/
def homeRequest (s : State) (h : Nat) (p : Pkt) : State :=
  let pg := pgHOME h
  let l := p.addr.toNat
  let wait := s.queueWait p
  let s := (s.consume p).bump pg 0x014 1 (some p.src.toNat) (some p.cls.toNat)
  if s.home (paOf l) != h then
    (((s.slotRetired h).answerReserved p (nodeHome h)).recReserved pg p 1).raise1 pg Fld.HOME_STAT_MISROUTE
  else if !s.memBacked (paOf l) then ((s.slotRetired h).answerReserved p (nodeHome h)).recReserved pg p 0
  else (s.cleanEntry h l).homeChecked h p wait

/-! ### Answers, writebacks and returns -/

/-- The RESULT of an answer is one that R184 gives for the snoop (R193). -/
def resultOk (n : Snoop) (r : Nat) : Bool :=
  if n.op == 0x20 then (if n.fwd then r == 0 || r == 1 else r == 0 || r == 2) else r == 0

/-- Apply a SnpAck or WbSnp to the transaction it answers (R187 to R189, R193, R238). -/
def snoopAnswer (s : State) (h : Nat) (p : Pkt) (wb : Bool) : State :=
  let l := p.addr.toNat
  let s := ((s.consume p).slotRetired h).cleanEntry h l
  let site := siteOf p.src
  if !isDieNode p.src then s.protoStat h 1 p
  else if s.fenced site then s.discardCount
  else
    let hit := (s.homeAt h).trk.find? fun e =>
      txnLine e.2 == l && e.2.snoops.any fun n => n.site == site && n.txn == p.txn.toNat
    match hit with
    | none => s.protoStat h 1 p
    | some (k, t) =>
      match t.snoops.find? fun n => n.site == site && n.txn == p.txn.toNat with
      | none => s
      | some n =>
        let r := (p.size.extractLsb' 0 2).toNat
        let wp := !wb && p.size.getLsbD 2
        let bad := !resultOk n r
        let s := if bad then s.protoStat h 4 p else s
        let gotL := n.op == 0x20 && !n.fwd && (if bad then r != 0 else r == 2)
        let t := { t with snoops := t.snoops.erase n, fwd := t.fwd || p.na, ansL := t.ansL || gotL,
                          fwdOwner := t.fwdOwner || (p.na && n.rank == 2 && n.op == 0x21) }
        let (d, s) := if wb then s.lineTaken p else (0, s)
        let t := if wb then { t with hq := t.hq ++ [.wr d p.psn], data := some (d, p.psn) } else t
        let t := if wp && !t.wbDone.contains site then { t with wpWait := t.wpWait ++ [n] } else t
        (s.setTxn h k t).progress h k

/-- The transaction that works on a line. -/
def txnOfLine (s : State) (h l : Nat) : Option (Nat × Txn) := (s.homeAt h).trk.find? fun e => txnLine e.2 == l

/-- A transaction takes notice of a WbData of its line (R191): a write of its own that it had begun is computed again, on the WbData. -/
def noteWb (t : Txn) (site : Nat) : Txn :=
  { t with wbSeen := t.wbSeen ++ [site], hq := if t.wrote then t.hq.dropLast else t.hq, wrote := false }

/-- A WbData reaches its home (R190, R191, R193, R203). -/
def wbData (s : State) (h : Nat) (p : Pkt) : State :=
  let l := p.addr.toNat
  let site := siteOf p.src
  let dropped := fun (s : State) =>
    ((((s.consume p).slotRetired h).protoStat h 1 p).respond 0x45 (nodeHome h) p.src p.txn 0 true)
  if !isDieNode p.src then dropped s
  else if s.fenced site then (((s.consume p).slotRetired h).cleanEntry h l).discardCount
  else
    let s := s.cleanEntry h l
    let owner := s.lineDir h l = .ex site
    let act := s.txnOfLine h l
    let again := match act with
      | some (_, t) => t.wbSeen.contains site
      | none => s.lineBusy h l
    if !owner || again then dropped s
    else match (List.range 64).find? fun i => (s.aux? h i).isNone with
      | none => s
      | some i =>
        let (d, s) := ((s.consume p).slotRetired h).lineTaken p
        let a : Aux := { line := l, ack := some p, site := site, toTxn := act.isSome, hq := [.wr d p.psn] }
        match act with
        | some (k, t) => (s.setTxn h k (noteWb t site)).setAux h i a
        | none => s.setAux h i a

/-- The data of a writeback entry has been written: WbAck, and the entry is free (R190, R191). -/
def wbDone (s : State) (h i : Nat) (a : Aux) : State :=
  let s := s.modHome h fun x => { x with wb := Tab.del i x.wb }
  match a.ack with
  | none => if s.lineBusy h a.line then s else s.holdLine h a.line
  | some p =>
    let s := if s.fenced a.site then s else s.respond 0x45 (nodeHome h) p.src p.txn 0 true
    let now := match a.hq with
      | .wr d psn :: _ => some (d, psn)
      | _ => none
    if a.toTxn then
      match s.txnOfLine h a.line with
      | none => s
      | some (k, t) =>
        let t := { t with wbDone := t.wbDone ++ [a.site], wpWait := t.wpWait.filter (·.site != a.site),
                          data := if t.started then now else t.data }
        (s.setTxn h k t).progress h k
    else (s.setLineDir h a.line .nc none).holdLine h a.line

/-- A memory read for the head access of an entry (R314). -/
def askMemory (s : State) (h key l : Nat) (aux : Bool) : State :=
  { s with mem := { s.mem with rd := s.mem.rd ++ [⟨l, h, key, aux, s.time, s.farDec (paOf l)⟩] } }

/-- HEARTH_RETURN for a tracker or reservation entry: its head access is looked up (R312); not while a WbData of the line is still to be
written (R191). -/
def hearthReturnTxn (s : State) (h k : Nat) (ecc : EccOutcome) : State :=
  match s.txn? h k with
  | none => s
  | some t =>
    if t.memWait || wbPending t then s
    else match t.hq with
      | [] => s
      | op :: rest =>
        let l := txnLine t
        let na := t.req.na && t.victim.isNone
        match op with
        | .wr d psn =>
          match s.hearthWrite h l d psn na t.looked with
          | none => s.vbStall h
          | some s => ((s.slotRetired h).setTxn h k { t with hq := rest, looked := false }).progress h k
        | .pz =>
          match s.hearthLook h l ecc with
          | (none, s) => ((s.slotRetired h).askMemory h k l false).setTxn h k { t with memWait := true }
          | (some (d, _), s') =>
            match s'.hearthWrite h l d true na with
            | none => s.vbStall h
            | some s => ((s.slotRetired h).setTxn h k { t with hq := rest, data := none }).progress h k
        | _ =>
          match s.hearthRead h l na ecc with
          | .hit d psn s =>
            ((s.slotRetired h).setTxn h k { t with hq := rest, data := some (d, psn), looked := op == .rdm }).progress h k
          | .stall s => s.vbStall h
          | .miss s => ((s.slotRetired h).askMemory h k l false).setTxn h k { t with memWait := true }

/-- HEARTH_RETURN for a writeback entry. -/
def hearthReturnAux (s : State) (h i : Nat) (ecc : EccOutcome) : State :=
  match s.aux? h i with
  | none => s
  | some a =>
    if a.memWait then s
    else match a.hq with
      | .wr d psn :: _ =>
        match s.hearthWrite h a.line d psn false with
        | none => s.vbStall h
        | some s => (s.slotRetired h).wbDone h i a
      | .pz :: _ =>
        match s.hearthLook h a.line ecc with
        | (none, s) => ((s.slotRetired h).askMemory h i a.line true).setAux h i { a with memWait := true }
        | (some (d, _), s') =>
          match s'.hearthWrite h a.line d true false with
          | none => s.vbStall h
          | some s => (s.slotRetired h).wbDone h i a
      | _ => s.wbDone h i a

/-- The memory line that a transaction's read returned: where a WbData of the line was written meanwhile, that is its value (R191). -/
def takeReturn (t : Txn) (r : MemRet) : Option (LineData × Bool) :=
  if t.wbDone.isEmpty then some (r.data, r.psn) else match t.data with
    | some d => some d
    | none => some (r.data, r.psn)

/-- MEMORY_RETURN (R188, R312): the line read for an entry's head access reaches the home. -/
def memoryReturn (s : State) (h k : Nat) (aux : Bool) : State :=
  match s.mem.ret.find? fun r => r.rd.home == h && r.rd.key == k && r.rd.aux == aux with
  | none => s
  | some r =>
    let drop := fun (s : State) => { s with mem := { s.mem with ret := s.mem.ret.erase r } }
    if aux then
      match s.aux? h k with
      | none => drop s
      | some a =>
        match s.hearthWrite h a.line r.data true false with
        | none => s.vbStall h
        | some s => ((drop s).slotRetired h).wbDone h k a
    else
      match s.txn? h k with
      | none => drop s
      | some t =>
        if wbPending t then s
        else match t.hq with
          | [] => drop s
          | op :: rest =>
            let l := txnLine t
            let t' := { t with memWait := false }
            let got := { t' with hq := rest, data := takeReturn t r }
            match op with
            | .pz =>
              match s.hearthWrite h l r.data true (t.req.na && t.victim.isNone) with
              | none => s.vbStall h
              | some s => (((drop s).slotRetired h).setTxn h k { t' with hq := rest, data := none }).progress h k
            | .rd =>
              match (if r.fill && t.wbDone.isEmpty then s.hearthFill h l r.data r.psn t.req.na else some s) with
              | none => s.vbStall h
              | some s => (((drop s).slotRetired h).setTxn h k got).progress h k
            | _ => (((drop s).slotRetired h).setTxn h k got).progress h k

/-! ### Die loss (R241 to R250) -/

/-- Free every reservation of a site's nodes (R234); where one held its line, the line is held for the next-oldest from now (R231). -/
def freeRsvs (s : State) (site : Nat) : State :=
  forAll (List.range 64) (fun h s =>
    let gone := (s.homeAt h).rsv.filter fun e => e.2.srcNode / 4 == site && (s.txn? h (1024 + e.1)).isNone
    forAll gone (fun e s =>
      let holder := (s.oldestRsv h e.2.line).map (·.1) == some e.1
      let s := s.modHome h fun x => { x with rsv := Tab.del e.1 x.rsv }
      if s.lineBusy h e.2.line || !holder then s else s.holdLine h e.2.line) s) s

/-- What a fence does to one transaction of a home (R244): its snoops to the site are taken as SnpAck(I), and the
line of a lost owner, or of a lost WbData, is written poisoned; a WbData the home has received is not lost. -/
def fenceTxn (s : State) (h k site : Nat) : State :=
  match s.txn? h k with
  | none => s
  | some t =>
    let mine := t.snoops.filter (·.site == site)
    let seen := t.wbSeen.contains site
    let wps := t.wpWait.filter fun n => n.site == site && !seen
    if mine.isEmpty && wps.isEmpty then s
    else
      let lost := (!seen && mine.any fun n => n.rank == 2 && !n.discard) || !wps.isEmpty
      let s := s.cleanEntry h (txnLine t)
      let t := { t with snoops := t.snoops.filter (·.site != site), wpWait := t.wpWait.filter fun n => !wps.contains n }
      let t := if lost then { t with hq := t.hq ++ [.pz], psnOut := t.psnOut || t.victim.isNone, data := none } else t
      let s := if lost then s.notePoison h site else s
      let t := { t with way := ((s.txn? h k).bind (·.way)) }
      (s.setTxn h k t).progress h k

/-- The fence edge of a site at every home (R243 to R248): SITE_STAT, snoops, reservations, the walk. -/
def fenceSite (s : State) (site : Nat) (walk : Bool) : State :=
  let s := s.put (pgSITE site) Fld.SITE_STAT_FENCED 1
  let s := s.freeRsvs site
  forAll (List.range 64) (fun h s =>
    let s := forAll ((s.homeAt h).trk.map (·.1)) (fun k s => s.fenceTxn h k site) s
    if walk then
      let s := s.modHome h fun x =>
        { x with walk := Tab.put site 12288 x.walk, lossCnt := Tab.put site (Tab.getD site 0 x.lossCnt) x.lossCnt }
      let pg := pgHOME h
      (s.put pg Fld.HOME_LOSS_STAT_WALK_MASK (addSite (s.get pg Fld.HOME_LOSS_STAT_WALK_MASK) site)).put pg Fld.HOME_LOSS_STAT_ACTIVE 1
    else s) s

/-- One visit of the containment walk at a slice (R247 to R250). -/
def walkVisit (s : State) (h : Nat) : State :=
  if (s.homeAt h).walk.isEmpty then s
  else
    let pg := pgHOME h
    let set := (s.homeAt h).walkSet
    let lines := (s.dirAt h set).filterMap fun w => if w.st == 0 then none else some w.line
    let s := forAll lines (fun l s => s.cleanEntry h l) (s.slotRetired h)
    let nxt := (set + 1) % 12288
    let s := s.modHome h fun x => { x with walkSet := nxt, walk := x.walk.map fun e => (e.1, e.2 - 1) }
    let s := s.put pg Fld.HOME_LOSS_SET_SET nxt
    let done := ((s.homeAt h).walk.filter fun e => e.2 == 0).map (·.1)
    let s := forAll done (fun site s =>
      let n := Tab.getD site 0 (s.homeAt h).lossCnt
      let s := s.modHome h fun x => { x with walk := Tab.del site x.walk, lossCnt := Tab.del site x.lossCnt }
      let s := s.put pg Fld.HOME_LOSS_STAT_WALK_MASK (s.get pg Fld.HOME_LOSS_STAT_WALK_MASK - 2 ^ site)
      let s := (s.count pg Fld.HOME_POISON_CNT_COUNT n).status pg Fld.HOME_STAT_WALK_DONE (srcHOME h 1)
      s.record { typ := 0x07, cls := 2, source := srcHOME h 1, page := pg, words := [site, n] }) s
    if (s.homeAt h).walk.isEmpty then
      (s.put pg Fld.HOME_LOSS_STAT_ACTIVE 0).modHome h fun x => { x with walkSet := 0 }
    else s

/-- One visit of the recall walk at a slice (R667): SnpBack to the site for each entry that names it; the walk
waits at a set that has a BUSY line of it, or while no tracker entry is free. -/
def recallVisit (s : State) (h : Nat) : State :=
  match (s.homeAt h).recallOp with
  | none => s
  | some (site, set) =>
    if 12288 ≤ set then s
    else
      let pg := pgHOME h
      let s := forAll ((s.dirAt h set).filterMap fun w => if w.st == 0 then none else some w.line) (fun l s => s.cleanEntry h l) s
      let named := (s.dirAt h set).filter fun w => match w.state with
        | .nc => false
        | .sh pv _ => bitN pv site
        | .ex o => o == site
      let step := fun (acc : State × Bool) (w : DirWay) =>
        let s := acc.1
        if s.lineBusy h w.line then (s, true)
        else match s.trackerCheck h 3, Tab.freeKey (s.homeAt h).trk 1024 with
          | .inl held, some k =>
            let fake : Pkt := { op := 0x23, src := nodeHome h, addr := BitVec.ofNat 46 w.line, cls := 3 }
            let rank := if w.st == 2 then 2 else 0
            let (s, sn) := (s.slotRetired h).sendSnoops h k w.line fake [(site, 0x23, false, false, rank)]
            (s.setTxn h k { line := w.line, req := fake, held := held, kind := .recall site, started := true,
                            snoops := sn }, true)
          | _, _ => (s, true)
      let (s, waits) := named.foldl step (s, false)
      if waits then s
      else
        let s := (s.slotRetired h).modHome h fun x => { x with recallOp := some (site, set + 1) }
        s.put pg Fld.HOME_LOSS_SET_RSET ((set + 1) % 2 ^ 14)

/-! ### Issue order (R215, R216) -/

/-- The slice's eviction waits: every victim buffer entry is dirty (R318). -/
def vbFull (s : State) (h : Nat) : Bool :=
  let vb := (s.hearthAt h).vb
  vb.length == 64 && vb.all (·.dirty)

/-- The oldest unit of a VC in a home's input queue. -/
def homeHead (s : State) (h vc : Nat) : Option InFlight :=
  s.net.find? fun e => decide (e.at_ = .rx) && e.p.dst == nodeHome h && e.p.vc.toNat == vc

/-- Lines of the candidates of priority 1: the heads of VC2 and VC4; a WbData waits while no writeback entry is free (R203). -/
def ready1 (s : State) (h : Nat) : List Nat :=
  let full := (List.range 64).all fun i => (s.aux? h i).isSome
  ([s.homeHead h 2, s.homeHead h 4].filterMap id).filterMap fun e => if e.p.op == 0x60 && full then none else some e.p.addr.toNat

/-- Lines of the memory returns that wait for the home (priority 2), oldest first. A Hearth access returns when its command comes. -/
def ready2 (s : State) (h : Nat) : List Nat :=
  if s.vbFull h then [] else (s.mem.ret.filter fun r => r.rd.home == h).map (·.rd.line)

/-- A transaction waits for a directory way and one has become free (priority 3). -/
def wayReady (s : State) (h : Nat) (t : Txn) : Bool :=
  let set := dirSet (paOf t.line)
  t.kind == .request && !t.started && t.victim.isNone && ((s.freeWay h set).isSome || (s.victimWay h set).isSome)

/-- Lines of the transactions able to continue. -/
def ready3 (s : State) (h : Nat) : List Nat := ((s.homeAt h).trk.filter fun e => s.wayReady h e.2).map (·.2.line)

/-- Line of the request at the head of VC0 (priority 4). -/
def ready4 (s : State) (h : Nat) : List Nat := ((s.homeHead h 0).map fun e => e.p.addr.toNat).toList

/-- A step of priority `n` may issue: every candidate of a higher priority is for the line of the step before it, so that slot 1 takes the
candidate after it (R215, R216). -/
def homeTurn (s : State) (h n : Nat) : Bool :=
  ((if 1 < n then s.ready1 h else []) ++ (if 2 < n then s.ready2 h else []) ++ (if 3 < n then s.ready3 h else []) ++
    (if 4 < n then s.ready4 h else [])).all fun l => (s.homeAt h).last == some l

/-- The heads of VC2 and VC4 are taken in order of arrival (R215). -/
def firstAnswer (s : State) (h : Nat) (p : Pkt) : Bool :=
  match (s.net.find? fun e => decide (e.at_ = .rx) && e.p.dst == nodeHome h && (e.p.vc == 2 || e.p.vc == 4)) with
  | none => true
  | some e => sameUnit e.p p || (s.net.all fun e => !sameUnit e.p p) || (s.homeAt h).last == some e.p.addr.toNat ||
      (e.p.op == 0x60 && (List.range 64).all fun i => (s.aux? h i).isSome)

/-- Where a step for a line has issued between `s` and `u`, the one after it may be of its cycle unless this one was the second (R216). -/
def homeStep (s u : State) (h l : Nat) : State :=
  let n := fun (x : Home) => x.retired + x.wasted
  if n (u.homeAt h) == n (s.homeAt h) then u
  else u.modHome h fun x => { x with last := if x.last.isNone then some l else none }

/-- A unit of opcode `op` issues as a step of priority `n` at the home it was sent to, as the oldest of its queue; a unit of an opcode that
homes do not serve is discarded and recorded (R193). -/
def homeTakes (s : State) (op : BitVec 7) (n : Nat) (p : Pkt) (f : State → Nat → State) : State :=
  match homeOfPkt p with
  | none => s
  | some h =>
    if !s.arrived p then s
    else if p.op != op then s.protoDrop p
    else if !s.homeTurn h n || (n == 1 && !s.firstAnswer h p) then s
    else s.homeStep (f s h) h p.addr.toNat

/-- A request of the given opcode issues at its home. -/
def requestAs (s : State) (op : BitVec 7) (p : Pkt) : State := s.homeTakes op 4 p fun s h => s.homeRequest h p

end State

/-- RD_SHARED (R187). -/
def execRdShared (p : Pkt) (s : State) : Host.Outcome State Fault Refusal := s.actFclk (·.requestAs 0x01 p)
/-- RD_OWN (R187). -/
def execRdOwn (p : Pkt) (s : State) : Host.Outcome State Fault Refusal := s.actFclk (·.requestAs 0x02 p)
/-- UPGRADE (R187). -/
def execUpgrade (p : Pkt) (s : State) : Host.Outcome State Fault Refusal := s.actFclk (·.requestAs 0x03 p)
/-- RD_ONCE (R187). -/
def execRdOnce (p : Pkt) (s : State) : Host.Outcome State Fault Refusal := s.actFclk (·.requestAs 0x04 p)
/-- STRIKE (R187, R161). -/
def execStrike (p : Pkt) (s : State) : Host.Outcome State Fault Refusal := s.actFclk (·.requestAs 0x05 p)
/-- STRIKE_PART (R187, R161). -/
def execStrikePart (p : Pkt) (s : State) : Host.Outcome State Fault Refusal := s.actFclk (·.requestAs 0x06 p)
/-- FAR_ATOMIC (R162, R163). -/
def execFarAtomic (p : Pkt) (s : State) : Host.Outcome State Fault Refusal := s.actFclk (·.requestAs 0x07 p)
/-- EVICT_CLEAN (R187, R192). -/
def execEvictClean (p : Pkt) (s : State) : Host.Outcome State Fault Refusal := s.actFclk (·.requestAs 0x08 p)

/-- WB_DATA (R190, R191). -/
def execWbData (p : Pkt) (s : State) : Host.Outcome State Fault Refusal :=
  s.actFclk (·.homeTakes 0x60 1 p fun s h => s.wbData h p)

/-- SNP_ACK (R187). -/
def execSnpAck (p : Pkt) (s : State) : Host.Outcome State Fault Refusal :=
  s.actFclk (·.homeTakes 0x43 1 p fun s h => s.snoopAnswer h p false)

/-- WB_SNP (R187). -/
def execWbSnp (p : Pkt) (s : State) : Host.Outcome State Fault Refusal :=
  s.actFclk (·.homeTakes 0x61 1 p fun s h => s.snoopAnswer h p true)

/-- HEARTH_RETURN (R312): the head Hearth access of an entry of home `h` returns; `wb` for a writeback entry. -/
def execHearthReturn (h k : Nat) (wb : Bool) (ecc : EccOutcome) (s : State) : Host.Outcome State Fault Refusal :=
  s.actFclk fun s =>
    if !s.homeTurn h 2 then s
    else
      let l := if wb then (s.aux? h k).map (·.line) else (s.txn? h k).map State.txnLine
      s.homeStep (if wb then s.hearthReturnAux h k ecc else s.hearthReturnTxn h k ecc) h (l.getD 0)

/-- MEMORY_RETURN (R188): the oldest return for the home, or one behind it where that one must wait (R215, R216). -/
def execMemoryReturn (h k : Nat) (wb : Bool) (s : State) : Host.Outcome State Fault Refusal :=
  s.actFclk fun s =>
    match s.mem.ret.find? fun r => r.rd.home == h && r.rd.key == k && r.rd.aux == wb with
    | none => s
    | some r =>
      let before := (s.mem.ret.takeWhile fun q => q != r).filter fun q => q.rd.home == h && (s.homeAt h).last != some q.rd.line
      if !s.homeTurn h 2 || !(before.isEmpty || s.vbFull h) then s else s.homeStep (s.memoryReturn h k wb) h r.rd.line

/-- TRANSACTION_CONTINUE (R215, R229, R254): a waiting transaction is re-examined, the oldest of those able to continue first; one still
unable is a replay. -/
def execTransactionContinue (h k : Nat) (s : State) : Host.Outcome State Fault Refusal :=
  s.actFclk fun s =>
    match s.txn? h k with
    | none => s
    | some t =>
      let older := (s.homeAt h).trk.any fun e => s.wayReady h e.2 && e.2.born < t.born && (s.homeAt h).last != some e.2.line
      if !s.homeTurn h 3 || (s.wayReady h t && older) then s
      else
        let u := s.progress h k
        s.homeStep (if u.txn? h k == some t then u.slotWasted h else u.slotRetired h) h t.line

/-- RSV_LAPSE (R231): the line has been held for its oldest reservation past the lapse time. -/
def execRsvLapse (h line : Nat) (s : State) : Host.Outcome State Fault Refusal :=
  s.actFclk fun s =>
    match s.oldestRsv h line, Tab.get? line (s.homeAt h).heldSince with
    | some (n, _), some t =>
      if !s.lineBusy h line && t + 100 * s.get (pgHOME h) Fld.HOME_RSV_CFG_LAPSE ≤ s.time then
        let s := s.modHome h fun x => { x with rsv := Tab.del n x.rsv }
        (s.raise1 (pgHOME h) Fld.HOME_STAT_RSV_LAPSE).holdLine h line
      else s
    | _, _ => s

/-- SNP_TO (R241): the timer of an outstanding snoop of an entry reaches 20 us. -/
def execSnpTo (h k site : Nat) (s : State) : Host.Outcome State Fault Refusal :=
  s.actFclk fun s =>
    match s.txn? h k with
    | none => s
    | some t =>
      let due := fun (n : Snoop) => n.site == site && !n.timedOut && n.start + 20000 ≤ s.time
      match (t.snoops ++ t.wpWait.filter fun n => !t.wbSeen.contains n.site).find? due with
      | none => s
      | some n =>
        let pg := pgHOME h
        let mark := fun (l : List Snoop) => l.map fun x => if x == n then { x with timedOut := true } else x
        let s := s.setTxn h k { t with snoops := mark t.snoops, wpWait := mark t.wpWait }
        let s := s.status pg Fld.HOME_STAT_SNP_TO (srcHOME h 0)
        let s := if s.flag pg Fld.HOME_SNP_TO_LOC_V then s
          else
            let s := (s.put pg Fld.HOME_SNP_TO_LOC_SITE site).put pg Fld.HOME_SNP_TO_LOC_ENTRY (k % 1024)
            (s.put pg Fld.HOME_SNP_TO_LOC_RSVE (k / 1024)).raise1 pg Fld.HOME_SNP_TO_LOC_V
        s.record { typ := 0x06, cls := 3, source := srcHOME h 0, page := pg, opcode := n.op,
                   addr := some (paOf n.line), words := [site] }

/-- CONTAIN_VISIT (R248). -/
def execContainVisit (h : Nat) (s : State) : Host.Outcome State Fault Refusal :=
  s.actFclk fun s => if s.homeTurn h 5 then (s.walkVisit h).modHome h fun x => { x with last := none } else s

/-- A write of CLR (R257): the refusal and delay counts of a home go to zero. -/
def State.homeClr (s : State) (h : Nat) : State :=
  let pg := pgHOME h
  let s := forAll (List.range 6) (fun i s => s.put pg (Fld.HOME_NACK_CNT_COUNT i) 0) s
  forAll (List.range 4) (fun c s =>
    (s.put pg (Fld.HOME_OVL_REF_COUNT c) 0).put pg (Fld.HOME_OVL_DLY_COUNT c) 0) s

/-- HOME_CNT_CLR (R257). -/
def execHomeCntClr (h : Nat) (s : State) : Host.Outcome State Fault Refusal :=
  s.actFclk fun s => s.homeClr h

/-- RECALL_VISIT (R667). -/
def execRecallVisit (h : Nat) (s : State) : Host.Outcome State Fault Refusal :=
  s.actFclk fun s => if s.homeTurn h 5 then s.recallVisit h else s

end Sys2Proof.Machine
end

