-- ==== Sys2Proof/Machine/Drain.lean ====
section
/-! DEFINITION. Device writes and their barriers (R268 to R291): the writes a site has outstanding, Drains, the posted-write
buffers, recorded blocks and flushing reads of the PCIe groups, non-posted requests and their timeouts. -/

namespace Sys2Proof.Machine

namespace State

def siteAt (s : State) (i : Nat) : Site := nthD s.sites i {}
def modSite (s : State) (i : Nat) (f : Site → Site) : State := { s with sites := modOf 16 {} s.sites i f }

/-- A unit without what hops, links and interfaces rewrite. -/
def unitKey (p : Pkt) : Pkt := { bareUnit p with vc := 0, cls := 0 }

/-- A device write as its site lists it: before its claimant is determined. -/
def writeKey (p : Pkt) : Pkt := { unitKey p with dst := 0 }

/-- The unit a Boundary check concerns, with a source its site owns: the module that carried it where SRC is not (R475). -/
def ownSrc (site m : Nat) (p : Pkt) : Pkt :=
  if isDieNode p.src && siteOf p.src == site then p else { p with src := nodeModule site m }

/-- A device write as its site lists it once it has left LNK[s]: with the source of the module that carried it where SRC is not the
site's (R280, R475). -/
def carriedKey (p : Pkt) : Pkt :=
  writeKey (match p.inj with
    | some n => if isDieNode p.src && siteOf p.src == siteOf n then p else { p with src := n }
    | none => p)

/-- A device write of a site: DevWr or DevWrN from a die (R280). -/
def isDieWrite (p : Pkt) : Bool := isDieNode p.by && (p.op == 0x68 || p.op == 0x71)

/-- Kind of target of a write, as DRAIN_ERR_LOC.TARGET names it (R288). -/
def targetKind (p : Pkt) : Nat :=
  let d := p.dst.toNat
  if 0xA4 ≤ d && d ≤ 0xA9 then d - 0xA4 else if d == 0xA0 then 8 else if d < 0x40 then 10 else 9

/-- PEND follows the Drains in progress. -/
def pendUpd (s : State) (site : Nat) : State :=
  s.put (pgSITE site) Fld.DRAIN_STAT_PEND (s.siteAt site).drains.length

/-- LNK[s] has received a device write of its site (R280). -/
def writeSeen (s : State) (p : Pkt) : State :=
  if isDieWrite p then s.modSite (siteOf p.by) fun x => { x with devw := x.devw ++ [carriedKey p] } else s

/-- A write leaves the writes that Drains wait for. -/
def writeGone (s : State) (p : Pkt) : State :=
  if isDieWrite p then
    let k := carriedKey p
    s.modSite (siteOf p.by) fun x =>
      { x with devw := x.devw.erase k, drains := x.drains.map fun d => { d with waits := d.waits.erase k } }
  else s

/-- A write is discarded or refused (R284): it fails every Drain in progress that covers it, or, where none does, the site's next. -/
def writeFailed (s : State) (p : Pkt) (cause target : Nat) : State :=
  if isDieWrite p then
    let k := carriedKey p
    let why := (cause, target, paOf p.addr.toNat)
    let s := s.modSite (siteOf p.by) fun x =>
      let hit := x.drains.any fun d => d.covers.contains k
      let mark := fun (d : DrainRec) => if d.covers.contains k && d.fail.isNone then { d with fail := some why } else d
      if hit then { x with drains := x.drains.map mark }
      else { x with devFail := match x.devFail with
                               | none => some why
                               | some w => some w }
    s.writeGone p
  else s

/-- A flush of a site fails (R284, R286, R287): the Drain it serves, or else the next, completes with ERR. -/
def flushFailed (s : State) (n : Nat) (f : Flush) (cause : Nat) : State :=
  let why := (cause, n, f.addr)
  s.modSite f.site fun x =>
    match f.drain with
    | some id => { x with drains := x.drains.map fun d =>
        if d.id == id && d.fail.isNone then { d with fail := some why } else d }
    | none => { x with devFail := match x.devFail with
                                  | none => some why
                                  | some w => some w }

/-- Writes for a port that its group holds are discarded and counted (R287, R296). -/
def discardPw (s : State) (n : Nat) (which : Nat → Bool) (cause : Nat) : State :=
  let gone := (s.groupAt n).pw.filter fun e => which e.1
  if gone.isEmpty then s
  else
    let s := s.modGroup n fun g => { g with pw := g.pw.filter fun e => !which e.1 }
    let s := (s.count (pgPCIE n) Fld.PW_DISC_COUNT gone.length).fire (srcPCIE n 5)
    gone.foldl (fun s e => s.writeFailed e.2 cause n) s

/-- Send the flushing read of a recorded block, or end it at once where its port is down (R282, R287). -/
def sendFlush (s : State) (n site addr start : Nat) (drain : Option Nat) : State :=
  let port := Config.pciePort n addr
  let f : Flush :=
    { site := site, addr := addr, port := port, start := start, limit := s.cplTo n, drain := drain
      ahead := (s.groupAt n).pw.filter (·.1 == port) }
  if s.portUp n port then (s.modGroup n fun g => { g with flushes := g.flushes ++ [f] }).tlpTx n port
  else (s.discardPw n (· == port) 2).flushFailed n f 2

/-- A group flushes what it has recorded for a site, and clears the record (R282). -/
def flushGroup (s : State) (n site start : Nat) (drain : Option Nat) : State :=
  let l := Tab.getD site [] (s.groupAt n).blocks
  let s := s.modGroup n fun g => { g with blocks := Tab.del site g.blocks }
  l.foldl (fun s b => s.sendFlush n site b.2 start drain) s

/-- The group that claims a write's address by the PCIe address map is `n` (R36). -/
def towardGroup (p : Pkt) (n : Nat) : Bool := Config.pcieClaim (paOf p.addr.toNat) == some n

/-- The Drains of a site go on: each group it covers flushes once the covered writes are in its buffer (R282). -/
def drainAdvance (s : State) (site : Nat) : State :=
  (s.siteAt site).drains.foldl (fun s d =>
    d.need.foldl (fun s n =>
      let waiting := ((s.siteAt site).drains.find? (·.id == d.id)).any fun d => d.waits.any fun p => towardGroup p n
      if waiting then s
      else
        let s := s.modSite site fun x => { x with drains := x.drains.map fun e =>
          if e.id == d.id then { e with need := e.need.filter (· != n) } else e }
        s.flushGroup n site d.start (some d.id)) s) s

/-- A write reached its end point, or the buffer of its group, and the Drains of its site go on. -/
def writeDone (s : State) (p : Pkt) : State :=
  if isDieWrite p then (s.writeGone p).drainAdvance (siteOf p.by) else s

/-- A write was discarded, and the Drains of its site go on. -/
def writeLost (s : State) (p : Pkt) (cause target : Nat) : State :=
  if isDieWrite p then (s.writeFailed p cause target).drainAdvance (siteOf p.by) else s

/-- A unit leaves without an answer (R131, R761): counted, and lost to the Drain of its site where it is a device write. -/
def discardUnit (s : State) (p : Pkt) (cause : Nat) : State := (s.discardCount).writeLost p cause (targetKind p)

/-- Device writes that the hub's interfaces and fabric still hold toward a node (R294, R298). -/
def heldToward (s : State) (n : BitVec 8) : List InFlight :=
  s.net.filter fun e => (e.p.op == 0x68 || e.p.op == 0x71) && e.p.dst == n && (match e.at_ with
    | .out => true
    | .rtr _ _ => true
    | .rx => true
    | _ => false)

/-- Those writes are discarded at the drop of the node's domain (R296). -/
def discardToward (s : State) (n : BitVec 8) : State :=
  (s.heldToward n).foldl (fun s e => (s.plucked e).writeLost e.p 4 (targetKind e.p)) s

/-- A group records the target block of a write (R261, R282, R283). -/
def recordBlock (s : State) (n : Nat) (p : Pkt) : State :=
  if !isDieNode p.by then s
  else
    let site := siteOf p.by
    let pa := paOf p.addr.toNat + ((maskRun? p.mask).map (·.1)).getD 0
    let blk := pa / 0x10000
    let l := Tab.getD site [] (s.groupAt n).blocks
    if l.any (·.1 == blk) then
      s.modGroup n fun g => { g with blocks := Tab.put site (l.map fun b => if b.1 == blk then (blk, pa) else b) g.blocks }
    else
      let full := 64 ≤ l.length
      let s := if full then (s.flushGroup n site s.time none).raise1 (pgSITE site) Fld.DRAIN_STAT_FLUSH_OVF else s
      let l := if full then [] else l
      s.modGroup n fun g => { g with blocks := Tab.put site (l ++ [(blk, pa)]) g.blocks }

/-- A group accepts a posted write into its buffer of 256 (R270, R282). -/
def groupWrite (s : State) (n : Nat) (p : Pkt) : State :=
  let port := Config.pciePort n (paOf p.addr.toNat)
  let s := s.modGroup n fun g => { g with pw := g.pw ++ [(port, p)] }
  (s.recordBlock n p).writeDone p

/-- SITE or LNK[s] answers a unit of a die: the answer waits in LNK[s] for the module that sent the unit (R160). -/
def siteReply (s : State) (p : Pkt) (op : BitVec 7) (addr : BitVec 46) (data : Option (LineData × ByteMask) := none) : State :=
  if s.fenced (siteOf p.src) then s
  else
    let u : Pkt := { op := op, vc := vcOfOp op, src := p.src, txn := p.txn, addr := addr, last := true, dst := p.src,
                     hasData := data.isSome, data := (data.map (·.1)).getD 0, mask := (data.map (·.2)).getD 0 }
    { s with net := s.net ++ [⟨u, .rx, s.time⟩] }

/-- A Drain reaches SITE (R280, R282 to R284): it covers every write not yet accepted, every group with recorded blocks
of the site, and the early flushing reads still outstanding. -/
def drainStart (s : State) (p : Pkt) : State :=
  let site := siteOf p.src
  let s := s.consume p
  let x := s.siteAt site
  let mark := x.drainMark.find? fun m => m.1 == unitKey p
  let waits := match mark with
    | some m => m.2.filter fun w => x.devw.contains w
    | none => x.devw
  let s := s.modSite site fun x => { x with drainMark := match mark with
                                                         | some m => x.drainMark.erase m
                                                         | none => x.drainMark }
  let id := x.drainSeq
  let needs := (List.range 6).filter fun n =>
    (Tab.get? site (s.groupAt n).blocks).isSome || waits.any fun w => towardGroup w n
  let held := s.groups.flatMap fun (g : Group) => (g.pw.filter fun e => isDieWrite e.2 && siteOf e.2.by == site).map fun e => carriedKey e.2
  let d : DrainRec := { id := id, p := p, start := s.time, waits := waits, covers := waits ++ held, need := needs, fail := x.devFail }
  let s := s.modSite site fun x => { x with drains := x.drains ++ [d], drainSeq := id + 1, devFail := none }
  let mine := fun (f : Flush) => if f.site == site && f.drain.isNone then { f with drain := some id } else f
  let s := { s with groups := s.groups.map fun (g : Group) => { g with flushes := g.flushes.map mine } }
  (s.pendUpd site).drainAdvance site

/-- A Drain has nothing left to wait for. -/
def drainReady (s : State) (d : DrainRec) : Bool :=
  d.waits.isEmpty && d.need.isEmpty && !(s.groups.any fun g => g.flushes.any fun f => f.drain == some d.id && f.site == siteOf d.p.src)

/-- What a Drain that completes with ERR leaves in its site's registers, and its record (R288). -/
def drainFailed (s : State) (site : Nat) (f : Nat × Nat × Nat) : State :=
  let pg := pgSITE site
  let s := (s.status pg Fld.DRAIN_STAT_DRAIN_ERR (srcSITE site 0)).count pg Fld.DRAIN_ERR_CNT_COUNT
  let s := if s.flag pg Fld.DRAIN_ERR_LOC_V then s
    else ((s.put pg Fld.DRAIN_ERR_LOC_CAUSE f.1).put pg Fld.DRAIN_ERR_LOC_TARGET f.2.1).raise1 pg Fld.DRAIN_ERR_LOC_V
  s.record { typ := 0x08, cls := 3, source := srcSITE site 0, page := pg, sub := f.1, addr := some f.2.2,
             words := [site + 16 * f.2.1] }

/-- The oldest Drain of a site completes (R281, R284, R285, R288); the one SITE runs for SITE_OFFLINE (opcode 0) by its own row. -/
def drainComplete (s : State) (site : Nat) : State :=
  match (s.siteAt site).drains with
  | [] => s
  | d :: rest =>
    if !s.drainReady d || d.p.op == 0 then s
    else
      let s := (s.modSite site fun x => { x with drains := rest }).pendUpd site
      match d.fail with
      | none => s.siteReply d.p 0x41 0
      | some f => (s.siteReply d.p 0x41 2).drainFailed site f

/-- A device answer ends a non-posted request; the group sends its completion to the requester (R169, R273). -/
def groupAnswer (s : State) (n : Nat) (q : NonPosted) (status : Nat) (data : LineData) : State :=
  let s := s.modGroup n fun g => { g with nonp := g.nonp.erase q }
  let st := BitVec.ofNat 46 status
  if q.p.op == 0x70 then s.respond 0x79 (nodePCIE n) q.p.src q.p.txn st true false (some (data &&& maskBits q.p.mask, q.p.mask))
  else s.respond 0x78 (nodePCIE n) q.p.src q.p.txn st true

/-- A group sends a non-posted request to its device (R291). -/
def groupSend (s : State) (n : Nat) (p : Pkt) : State :=
  let port := Config.pciePort n (paOf p.addr.toNat)
  let q : NonPosted := { p := p, port := port, start := s.time, limit := s.cplTo n }
  let s := s.modGroup n fun g => { g with nonp := g.nonp ++ [q] }
  if s.portUp n port then s.tlpTx n port else s.groupAnswer n q 2 (BitVec.allOnes 512)

/-- The posted writes of a device that its completions must not pass (R273): those of its group not yet ended. -/
def postedOf (s : State) (n : Nat) : List Nat := (s.dmas.filter fun e => e.2.who == n && e.2.kind ≤ 1 && e.2.acc != 3).map (·.1)

/-- The completions a group holds whose earlier posted writes have all ended go to their requesters (R273). -/
def cplRelease (s : State) (n : Nat) : State :=
  (s.groupAt n).nonp.foldl (fun s q => match q.cpl with
    | some (st, data, l) => if l.all fun id => (Tab.get? id s.dmas).isNone then s.groupAnswer n q st data else s
    | none => s) s

/-- Everything a port going down ends (R287, R291, R389): its flushes fail, its posted writes are discarded, requests outstanding on it
are answered with ERR, and its far-memory accesses fail. -/
def portDown (s : State) (n port : Nat) : State :=
  let s := s.modGroup n fun g => { g with up := g.up.filter (· != port) }
  let fl := (s.groupAt n).flushes.filter (·.port == port)
  let s := s.modGroup n fun g => { g with flushes := g.flushes.filter (·.port != port) }
  let s := fl.foldl (fun s f => s.flushFailed n f 2) s
  let s := s.discardPw n (· == port) 2
  let s := ((s.groupAt n).nonp.filter fun q => q.port == port && q.cpl.isNone).foldl (fun s q => s.groupAnswer n q 2 (BitVec.allOnes 512)) s
  ((List.range 16).foldl (fun s site => s.drainAdvance site) s).farSweep

end State

/-- DRAIN (R193, R280): SITE takes it; one that reaches a home is an opcode it does not serve. -/
def execDrain (p : Pkt) (s : State) : Host.Outcome State Fault Refusal :=
  s.act fun s =>
    if !s.arrived p then s
    else if (State.homeOfPkt p).isSome then s.protoDrop p
    else if isDieNode p.src then s.drainStart p else s

/-- DRAIN_COMPLETE (R285). -/
def execDrainComplete (site : Nat) (s : State) : Host.Outcome State Fault Refusal :=
  s.act fun s => s.drainComplete site

/-- FLUSH_READ_COMPLETE (R282): group `n` receives the completion of its oldest flushing read to an address. -/
def execFlushReadComplete (n site addr : Nat) (s : State) : Host.Outcome State Fault Refusal :=
  s.actDom fun s =>
    match (s.groupAt n).flushes.find? fun f => f.site == site && f.addr == addr with
    | none => s
    | some f =>
      let s := f.ahead.foldl (fun s e => if (s.groupAt n).pw.contains e then (s.modGroup n fun g => { g with pw := g.pw.erase e }).tlpTx n f.port else s) s
      (s.modGroup n fun g => { g with flushes := g.flushes.erase f }).tlpRx n f.port

/-- FLUSH_READ_TIMEOUT (R286). -/
def execFlushReadTimeout (n site addr : Nat) (s : State) : Host.Outcome State Fault Refusal :=
  s.actDom fun s =>
    match (s.groupAt n).flushes.find? fun f => f.site == site && f.addr == addr && f.start + f.limit ≤ s.time with
    | none => s
    | some f =>
      let s := s.modGroup n fun g => { g with flushes := g.flushes.erase f }
      ((s.flushFailed n f 1).fire (srcPCIE n 4)).fire (srcPCIE n 1)

/-- PCIE_LINK_DOWN (R287): the link of a port goes down, or DPC contains it. -/
def execPcieLinkDown (n port : Nat) (dpc : Bool) (s : State) : Host.Outcome State Fault Refusal :=
  s.actDom fun s =>
    let s := s.portDown n port
    if dpc then s.fire (srcPCIE n 3) else s.fire (srcPCIE n 9)

/-- PCIE_LINK_UP (R612): training of a port completes while its group is on. -/
def execPcieLinkUp (n port : Nat) (s : State) : Host.Outcome State Fault Refusal :=
  s.actDom fun s =>
    if s.domState (43 + n) != 2 || s.portUp n port || !portExists s.straps n port then s
    else (s.modGroup n fun g => { g with up := g.up ++ [port] }).fire (srcPCIE n 8)

/-- PCIE_CPL_TIMEOUT (R291): a non-posted request of a group reaches CPL_TO. -/
def execPcieCplTimeout (n : Nat) (src : BitVec 8) (txn : BitVec 12) (s : State) : Host.Outcome State Fault Refusal :=
  s.actDom fun s =>
    match (s.groupAt n).nonp.find? fun q => q.p.src == src && q.p.txn == txn && q.cpl.isNone && q.start + q.limit ≤ s.time with
    | none => s
    | some q =>
      let s := s.groupAnswer n q 2 (BitVec.allOnes 512)
      let s := s.modGroup n fun g => { g with lateTags := g.lateTags ++ [(src.toNat, txn.toNat, s.time + 1000000000)] }
      (s.fire (srcPCIE n 4)).fire (srcPCIE n 1)

/-- LATE_COMPLETION (R606): a completion for a tag answered with ERR within the last second. -/
def execLateCompletion (n : Nat) (rid tag : Nat) (s : State) : Host.Outcome State Fault Refusal :=
  s.actDom fun s =>
    match (s.groupAt n).lateTags.find? fun t => t.1 == rid && t.2.1 == tag && s.time ≤ t.2.2 with
    | none => s
    | some t =>
      let s := (s.modGroup n fun g => { g with lateTags := g.lateTags.erase t }).tlpRx n (Config.ridPort n rid)
      let s := ((s.count (pgPCIE n) Fld.PCIE_LATE_CPL_COUNT).fire (srcPCIE n 6)).fire (srcPCIE n 1)
      s.record { typ := 0x11, cls := 3, source := srcPCIE n 6, page := pgPCIE n,
                 words := [rid % 2 ^ 16 + tag % 256 * 2 ^ 24] }

/-- DEVICE_COMPLETION (R273): a device completes a request of its group; the completion waits for the posted writes it must not pass. -/
def execDeviceCompletion (n : Nat) (src : BitVec 8) (txn : BitVec 12) (data : LineData) (ok : Bool) (s : State) :
    Host.Outcome State Fault Refusal :=
  s.actDom fun s =>
    match (s.groupAt n).nonp.find? fun q => q.p.src == src && q.p.txn == txn && q.cpl.isNone with
    | none => s
    | some q =>
      let c := (if ok then 0 else 2, if ok then data else BitVec.allOnes 512, s.postedOf n)
      ((s.modGroup n fun g => { g with nonp := g.nonp.map fun r => if r == q then { q with cpl := some c } else r }).cplRelease n).tlpRx n q.port

end Sys2Proof.Machine
end

