-- ==== Sys2Proof/Machine/Boundary.lean ====
section
/-! DEFINITION. The Boundary firewall (R469 to R477): violations and their actions, windows, the allowlist, the rate meters
and the answers of the drop action; and what a die has sent and may send (R149, R157, R170, R172, R175). -/

namespace Sys2Proof.Machine

/-- Key of a side of a module of a site. -/
def linkKey (site m : Nat) (e : LinkEnd) : Nat :=
  (site * 4 + m) * 2 + (match e with
                        | .hub => 0
                        | .die => 1)

/-- Key of a transaction outstanding at a die: module and TXN (R157). -/
def dieTxnKey (p : Pkt) : Nat := moduleOf p.src * 4096 + p.txn.toNat

/-- The unit begins a transaction of a die (R170): a request of opcode 0x01 to 0x08, or a WbData. -/
def isTxnUnit (op : BitVec 7) : Bool := (1 ≤ op.toNat && op.toNat ≤ 8) || op == 0x60

/-- The opcodes a class may send (R445), as four 32-bit words, XlatInv and XlatSync only with XLAT_ORIG (R471). -/
def allowSet (cls : Nat) (xlatOrig : Bool) : List Nat :=
  match cls with
  | 0 => [if xlatOrig then 0x00000FFE else 0x000003FE, 0, 0x000E0018, 0x00030103]
  | 1 => [0x000002F0, 0, 0, 0x00030100]
  | _ => [0x000002F0, 0, 0, 0x03030100]

/-- A coherent request that counts as outstanding (R464). -/
def isCounted (op : BitVec 7) : Bool := 1 ≤ op.toNat && op.toNat ≤ 7

/-- The unit is checked against windows (R469). -/
def isWindowed (op : BitVec 7) : Bool := isCounted op || op == 0x68 || op == 0x70 || op == 0x71

/-- Permissions a unit needs (R470): read 1, write 2, cache 4. -/
def permNeeded (op : BitVec 7) : Nat :=
  match op.toNat with
  | 0x01 => 5 | 0x02 | 0x03 => 7 | 0x04 | 0x70 => 1 | 0x05 | 0x06 | 0x68 | 0x71 => 2 | 0x07 => 3 | _ => 0

/-- Meters a unit takes a token from (R472). -/
def metersOf (p : Pkt) : List Nat :=
  let n := p.op.toNat
  (if 1 ≤ n && n ≤ 8 then [0] else []) ++ (if 1 ≤ n && n ≤ 8 && p.rsv then [1] else []) ++
  (if n == 0x68 then [2] else []) ++ (if n == 0x70 || n == 0x71 then [3] else [])

/-- A die unit at Boundary as R108 lays it out: the opcode is assigned and travels on its own VC (R469 check 1). -/
def formatOk (p : Pkt) : Bool := opAssigned p.op && p.vc == vcOfOp p.op

namespace State

def dieAt (s : State) (i : Nat) : Die := nthD s.dies i {}
def modDie (s : State) (i : Nat) (f : Die → Die) : State := { s with dies := modOf 16 {} s.dies i f }

/-- Set a line of a die. -/
def setDieLine (s : State) (site line : Nat) (st : LineSt) (d : LineData) (psn : Bool) : State :=
  s.modDie site fun x => { x with lines := Tab.put line { st := st, data := d, psn := psn } x.lines }

/-- The line goes to I at a die. -/
def dropDieLine (s : State) (site line : Nat) : State :=
  s.modDie site fun x => { x with lines := Tab.del line x.lines }

/-- The spacing a retry must keep (R174, R301): after a request without RSV at least 4 ns, TIME's count being coarser
than 3.33 ns; after one with RSV between 750 and 900 ns. -/
def retryDue (s : State) (r : Retry) : Bool :=
  if r.req.rsv then decide (r.since + 750 ≤ s.time) && decide (s.time ≤ r.since + 900) else decide (r.since + 4 ≤ s.time)

/-- A die's end of a module is retired (R433). -/
def dieRetired (s : State) (site m : Nat) : Bool := (Tab.getD (linkKey site m .die) {} s.links).st == 7

/-- The node a die names as SRC: of the module it would use, or where that one has retired of its first that has not (R434). -/
def dieNode (s : State) (site m : Nat) : BitVec 8 :=
  if s.dieRetired site m then nodeModule site (([0, 1, 2, 3].find? fun k => !s.dieRetired site k).getD m) else nodeModule site m

/-- No transaction of a die uses this TXN or covers this line (R170, R172). -/
def dieFree (s : State) (p : Pkt) : Bool :=
  let x := s.dieAt (siteOf p.src)
  (Tab.get? (dieTxnKey p) x.txns).isNone && !(x.txns.any fun e => e.2.req.addr == p.addr)

/-- The die may send a unit (R170, R172, R174, R175, R301, R434): none names a retired module as its source; one that begins a transaction
is the only one of its line and TXN, and one to a line it was Nacked for keeps the spacing and, after the fourth Nack, carries RSV. -/
def dieMay (s : State) (site : Nat) (p : Pkt) : Bool :=
  !(isDieNode p.src && siteOf p.src == site) || !s.dieRetired site (moduleOf p.src) && (!isTxnUnit p.op || s.dieFree p && (7 < p.op.toNat || (match Tab.get? p.addr.toNat (s.dieAt site).retries with
    | some r => s.retryDue r && (p.rsv || r.nacks < 4)
    | none => true)))

/-- The die sends a request or writeback: its transaction is outstanding, and an eviction changes its line (R149, R157). -/
def dieSent (s : State) (site : Nat) (p : Pkt) : State :=
  let n := p.op.toNat
  let l := p.addr.toNat
  if !(isTxnUnit p.op && isDieNode p.src && siteOf p.src == site) then s
  else
    let s := s.modDie site fun x => { x with txns := Tab.put (dieTxnKey p) { req := { bareUnit p with dst := 0 } } x.txns }
    if n == 8 then s.dropDieLine site l
    else if n == 0x60 then s.setDieLine site l .sWP p.data p.psn
    else s

/-- The die may send these units, in order. -/
def dieMayAll (s : State) (site : Nat) : List Pkt → Bool
  | [] => true
  | p :: rest => s.dieMay site p && dieMayAll (s.dieSent site p) site rest

/-- BND_OUT.COUNT follows the requests outstanding from the site (R464). -/
def outUpd (s : State) (site : Nat) : State :=
  s.put (pgSITE site) Fld.BND_OUT_COUNT (s.siteAt site).outReq.length

/-- The pair of registers of a page-address field pair, low word at `lo`. -/
def winAddr (s : State) (pg lo : Nat) : Nat := s.pageAddr pg lo (lo + 4)

/-- The permissions that the enabled windows containing a page address grant together (R470: they add up). -/
def windowGrants (s : State) (site pa : Nat) : Nat :=
  let pg := pgSITE site
  (List.range 16).foldl (fun g i =>
    let lo := Reg.BND_WIN_BASE_LO i
    let base := s.winAddr pg lo
    let limit := s.winAddr pg (Reg.BND_WIN_LIMIT_LO i)
    if s.flag pg (Fld.BND_WIN_BASE_LO_EN i) && base ≤ pa && pa < limit + 4096 then g ||| bits (s.reg pg lo) 1 3
    else g) 0

/-- A violation of kind `k` (R475): counted, located, recorded; the action that applies (R474). -/
def violation (s : State) (site k : Nat) (p : Pkt) : Nat × State :=
  let pg := pgSITE site
  let pa := paOf p.addr.toNat
  let s := s.count pg (Fld.BND_CNT_COUNT (k - 1))
  let s := s.setReg pg Reg.BND_VIOL (setBits (s.reg pg Reg.BND_VIOL) (k - 1) 1 1)
  let s := if s.flag pg Fld.BND_VIOL_LOC_HI_V then s
    else
      let s := (s.put pg Fld.BND_VIOL_LOC_LO_ADDR_LO (pa % 2 ^ 32 / 64)).put pg Fld.BND_VIOL_LOC_HI_ADDR_HI (pa / 2 ^ 32)
      ((s.put pg Fld.BND_VIOL_LOC_HI_OPCODE p.op.toNat).put pg Fld.BND_VIOL_LOC_HI_KIND k).raise1 pg Fld.BND_VIOL_LOC_HI_V
  let s := s.fire (srcSITE site 1)
  let s := s.record { typ := 0x0E, cls := 3, source := srcSITE site 1, page := pg, node := p.src.toNat,
                      opcode := p.op.toNat, addr := some pa, words := [site + 16 * k] }
  (bits (s.reg pg Reg.BND_ACT) (2 * (k - 1)) 2, s)

/-- A violation found by a timer has no unit to drop: only its record and count matter, the fence being Smith
firmware's command (R475). -/
def lateViolation (s : State) (site k : Nat) (p : Pkt) : State := (s.violation site k p).2

/-- An answer of SITE to a unit dropped on module `m` (R475): to the unit's SRC where it is a node of the site, else to the
module that carried it. -/
def dropAnswer (s : State) (site m : Nat) (p : Pkt) : State :=
  let tgt := if isDieNode p.src && siteOf p.src == site then p.src else nodeModule site m
  let q : Pkt := { p with src := tgt }
  match p.op.toNat with
  | 0x70 => s.siteReply q 0x79 2 (some (BitVec.allOnes 512 &&& maskBits p.mask, p.mask))
  | 0x71 => s.siteReply q 0x78 2
  | n => if 1 ≤ n && n ≤ 0x0B then s.siteReply q 0x40 5 else s

/-- Tokens of a meter now, in thousandths (R472): it gains RATE per microsecond and holds at most BURST. -/
def tokensNow (s : State) (site m : Nat) : Nat :=
  let (t, at_) := nthD (s.siteAt site).tokens m (0, 0)
  min (1000 * s.get (pgSITE site) (Fld.BND_METER_BURST m))
    (t + s.get (pgSITE site) (Fld.BND_METER_RATE m) * (s.time - at_))

/-- An enabled meter has no token. -/
def meterEmpty (s : State) (site m : Nat) : Bool :=
  s.flag (pgSITE site) (Fld.BND_METER_EN m) && decide (s.tokensNow site m < 1000)

/-- Fill a meter's bucket (R472). -/
def meterFill (s : State) (site m : Nat) : State :=
  let b := 1000 * s.get (pgSITE site) (Fld.BND_METER_BURST m)
  s.modSite site fun x => { x with tokens := modOf 4 (0, 0) x.tokens m fun _ => (b, s.time) }

/-- Take one token from a meter where it is enabled. -/
def meterTake (s : State) (site m : Nat) : State :=
  if s.flag (pgSITE site) (Fld.BND_METER_EN m) then
    let t := s.tokensNow site m
    s.modSite site fun x => { x with tokens := modOf 4 (0, 0) x.tokens m fun _ => (t - 1000, s.time) }
  else s

/-- A request of opcode 0x01 to 0x07 is outstanding from its sending to its final response (R464). -/
def outAdd (s : State) (site : Nat) (p : Pkt) : State :=
  if isCounted p.op then
    (s.modSite site fun x => { x with outReq := x.outReq ++ [(p.src.toNat, p.txn.toNat)] }).outUpd site
  else s

end State
end Sys2Proof.Machine
end

