-- ==== Sys2Proof/Machine/Link.lean ====
section
/-! DEFINITION. The Flolaec link (R397 to R444): training, lane maps, frames with acknowledgement and replay, in-service
repair, idle, heartbeats, error thresholds, retirement. Each side of a module is a `LinkSide`; the hub end's registers
mirror its own. A message one side sends stands in its `outbox` until the other end's command receives it. -/

namespace Sys2Proof.Machine

/-! ### Lane maps (R398, R399, R419, R425) -/

/-- Enough good spares for the failed default lanes of a half. -/
def halfOk (bad h : Nat) : Bool :=
  let nbad := ((List.range 32).filter fun j => bitN bad (34 * h + j)).length
  let nspare := ([32, 33].filter fun j => !bitN bad (34 * h + j)).length
  decide (nbad ≤ nspare)

/-- WIDTH of the two failed sets (R425). -/
def widthOf (dh hd : Nat) : Nat :=
  if halfOk dh 0 && halfOk dh 1 && halfOk hd 0 && halfOk hd 1 then 0
  else if halfOk dh 0 && halfOk hd 0 then 1
  else if halfOk dh 1 && halfOk hd 1 then 2
  else 3

/-- Halves in use at a width. -/
def halvesOf (width : Nat) : List Nat := if width == 0 then [0, 1] else if width == 1 then [0] else if width == 2 then [1] else []

/-- The logical lane of a default lane (R399). -/
def logicalOf (width h j : Nat) : Nat := if width == 0 then 32 * h + j else j

/-- What a lane of one direction carries (R403, R428): a logical lane, the copy of a failing lane, PRBS15, or 0. -/
inductive LaneUse where
  | logical (l : Nat)
  | copyOf (lane : Nat)
  | prbs
  | low
  | off
  deriving DecidableEq, Repr

/-- The bits of a record that say spare `k` carries a logical lane (R419). -/
def spareBits (k lane : Nat) : Nat := (lane + 64) * 2 ^ (7 * k)

/-- The map record of one direction (R425). -/
def recordOf (bad width : Nat) : Nat :=
  (halvesOf width).foldl (fun r h =>
    let fails := (List.range 32).filter fun j => bitN bad (34 * h + j)
    let spares := ([0, 1].filter fun j => !bitN bad (34 * h + 32 + j)).map fun j => 2 * h + j
    (fails.zip spares).foldl (fun r js => r + spareBits js.2 (logicalOf width h js.1)) r) (width * 2 ^ 28)


/-- A repair of a lane (R427, R428): the lowest good spare of its half that carries nothing, and the new record. -/
def repairPlan (width record failed lane : Nat) : Option (Nat × Nat) :=
  let h := lane / 34
  let k := [2 * h, 2 * h + 1].find? fun k => !bitN record (7 * k + 6) && !bitN failed (spareLane k)
  k.map fun k =>
    let j := lane % 34
    let old := 2 * h + (j - 32)
    let logical := if j < 32 then logicalOf width h j else bits record (7 * old) 6
    let cleared := if j < 32 then record else setBits record (7 * old) 7 0
    (k, cleared + spareBits k logical)

namespace State

def lk (s : State) (site m : Nat) (e : LinkEnd) : LinkSide := Tab.getD (linkKey site m e) {} s.links

/-- Both sides' membership of the set {ACTIVE, IDLE}. -/
def isUp (st : Nat) : Bool := st == 4 || st == 5

/-- Set one side of a module; the registers of the hub end follow it (R444). -/
def setLk (s : State) (site m : Nat) (e : LinkEnd) (x : LinkSide) : State :=
  let s := { s with links := Tab.putD {} (linkKey site m e) x s.links }
  let pg := pgLNK site
  let pz := (s.lk site m .hub).pause.isSome || (s.lk site m .die).pause.isSome
  let s := s.put pg (Fld.LNK_STAT_PAUSE m) (b2n pz)
  match e with
  | .die => s
  | .hub =>
    let s := (s.put pg (Fld.LNK_STAT_STATE m) x.st).put pg (Fld.LNK_STAT_WIDTH m) x.width
    let s := (s.put pg (Fld.LNK_STAT_MMCNT m) x.mm).put pg (Fld.LNK_STAT_SVCNT m) x.sv
    let s := (s.put pg (Fld.LNK_MAP_DH_RECORD m) x.mapDh).put pg (Fld.LNK_MAP_HD_RECORD m) x.mapHd
    let s := s.put pg (Fld.LNK_MAPINFO_MAPSEQ m) x.mapSeq
    s

def modLk (s : State) (site m : Nat) (e : LinkEnd) (f : LinkSide → LinkSide) : State :=
  s.setLk site m e (f (s.lk site m e))

/-- The header of the next frame a side sends (R405, R411): `typ` is its TYPE and `seq` the SEQ it carries. -/
def nextHdr (l : LinkState) (typ seq : Nat) : FrameHdr :=
  let v0 := 2 * l.frames % 8
  let v1 := (2 * l.frames + 1) % 8
  { typ := typ, seq := seq, ack := (l.rxSeq + 4095) % 4096, cvc0 := v0, ch0 := nthD l.freedH v0 0, cd0 := nthD l.freedD v0 0
    cvc1 := v1, ch1 := nthD l.freedH v1 0, cd1 := nthD l.freedD v1 0 }

/-- The account of a frame a side has sent (R411, R416): its header reports ACK and the credits of two VCs. -/
def hdrSent (l : LinkState) : LinkState :=
  { l with frames := l.frames + 1, ackDue := false
           dueVc := l.dueVc.filter fun v => v != 2 * l.frames % 8 && v != (2 * l.frames + 1) % 8 }

/-- The header of a frame other than DATA: SEQ is that of the last DATA frame sent; a side without link state has sent none (log 134). -/
def hdrOf (x : LinkSide) (code : Nat) : FrameHdr :=
  match x.link with
  | some l => nextHdr l (typeOf code) ((l.txSeq + 4095) % 4096)
  | none => { typ := typeOf code, seq := 4095, ack := 4095 }

/-- A side sends a link-management frame, or with code 0x101 an RPL and with 0x102 an ACK frame. -/
def lmSend (s : State) (site m : Nat) (e : LinkEnd) (code : Nat) (args : List Nat) : State :=
  s.modLk site m e fun x =>
    { x with outbox := x.outbox ++ [⟨hdrOf x code, ⟨code, args⟩⟩], link := x.link.map hdrSent, lastTx := s.time }

/-- Smith firmware aborts Banked entry (R626): the controllers leave self-refresh, PACE is restored, the command ends with
ABORTED. -/
def bankAbort (s : State) : State :=
  let s := forAll (List.range 24) (fun n s => s.put (pgMC n) Fld.MC_STAT_SR 0) s
  let s := (s.put pgPWR Fld.PWR_STAT_STATE 0).put (pgHRTH 0) Fld.ROP_CFG_PACE s.power.pace
  let s := { s with power := { s.power with bank := 0, level := false } }
  if s.smith.op == some 0x0A then s.mbEnd 5 else s

/-- The hub's side of a module of an admitted site leaves IDLE before the commit window of Banked entry (R626). -/
def leavesIdle (s : State) (site m : Nat) (e : LinkEnd) (st : Nat) : Bool :=
  decide (e = .hub) && (s.lk site m e).st == 5 && st != 5 && s.admitted site && s.get pgPWR Fld.PWR_STAT_STATE == 1 && s.power.bank != 3

/-- Change the state of a side; a module of an admitted site that leaves IDLE aborts Banked entry (R626). RESET ends link state
(R412; log 135). -/
def lkGo (s : State) (site m : Nat) (e : LinkEnd) (st : Nat) : State :=
  let t := s.modLk site m e fun x =>
    { x with st := st, since := s.time, outSince := if isUp x.st && !isUp st then s.time else x.outSince,
             rep := none, repQueue := [], pause := none, copy := none, idleReq := none, idleAck := none, earlyConf := none
             link := if st == 0 then none else x.link.map fun l => { l with replay := none }
             active := st != 0 && (x.active || st == 4) }
  if s.leavesIdle site m e st then t.bankAbort else t

/-- The failed set of a side's receive direction (R424). -/
def failedSet (s : State) (site m : Nat) (e : LinkEnd) : Nat :=
  let x := s.lk site m e
  let rx := match e with
    | .die => 0
    | .hub =>
      let pg := pgLNK site
      s.get pg (Fld.LNK_RXFAIL0_FAIL m) + 2 ^ 32 * s.get pg (Fld.LNK_RXFAIL1_FAIL m) +
        2 ^ 64 * s.get pg (Fld.LNK_RXFAIL2_FAIL m)
  x.calFail ||| (if x.link.isSome then x.thrFail else 0) ||| rx

/-- LNK[s] notes failed die-to-hub lanes in LNK_RXFAIL (R424). -/
def noteRxFail (s : State) (site m : Nat) (e : LinkEnd) (bad : Nat) : State :=
  match e with
  | .die => s
  | .hub =>
    let pg := pgLNK site
    let s := s.put pg (Fld.LNK_RXFAIL0_FAIL m) (s.get pg (Fld.LNK_RXFAIL0_FAIL m) ||| bits bad 0 32)
    let s := s.put pg (Fld.LNK_RXFAIL1_FAIL m) (s.get pg (Fld.LNK_RXFAIL1_FAIL m) ||| bits bad 32 32)
    s.put pg (Fld.LNK_RXFAIL2_FAIL m) (s.get pg (Fld.LNK_RXFAIL2_FAIL m) ||| bits bad 64 4)

/-- The LINK record of R443, and its event. -/
def recLink (s : State) (site m cls sub src : Nat) : State :=
  s.record { typ := 0x0C, cls := cls, source := srcSITE site src, page := pgLNK site, sub := sub,
             words := [site + 16 * m + 64 * (s.lk site m .hub).width] }

/-- The identity exchange of Traverse still runs on this module (R421, R453). -/
def identityBusy (s : State) (site m : Nat) : Bool :=
  match (s.siteAt site).trav with
  | none => false
  | some t => t.m == m && decide (t.step < 8)

/-- Enter SURVEY and send HELLO (R420, R421). -/
def enterSurvey (s : State) (site m : Nat) (e : LinkEnd) : State :=
  let s := s.lkGo site m e 1
  let s := s.modLk site m e fun x =>
    { x with helloSent := true, helloRecv := false, surveySent := false, surveyRecv := false, calSent := false, calRecv := false }
  let x := s.lk site m e
  s.lmSend site m e 0x01 [b2n (e == .die), site, m, b2n x.link.isSome, x.mapSeq]

/-- A SURVEY frame reaches a side in CALIBRATE, MAP, ACTIVE, IDLE or RETRAIN: it goes back to SURVEY (R420). -/
def surveySeen (s : State) (site m : Nat) (e : LinkEnd) : State :=
  let st := (s.lk site m e).st
  if 2 ≤ st && st ≤ 6 then s.enterSurvey site m e else s

/-- SURVEY_DONE is sent once HELLO has gone both ways and no identity exchange runs (R421); SURVEY ends once it has gone
both ways (R420, R423). -/
def surveyAdvance (s : State) (site m : Nat) (e : LinkEnd) : State :=
  let x := s.lk site m e
  if x.st != 1 then s
  else
    let s := if x.helloSent && x.helloRecv && !x.surveySent && !s.identityBusy site m then
        (s.lmSend site m e 0x02 []).modLk site m e fun x => { x with surveySent := true }
      else s
    let x := s.lk site m e
    if x.surveySent && x.surveyRecv then
      (s.lkGo site m e 2).modLk site m e fun x => { x with mapSeq := max x.mapSeq x.partnerSeq, sv := 0, fromRetrain := false }
    else s

/-- A side tells its partner, on module `k`, what it accepted last on a module that has retired (R433). -/
def sendSync (s : State) (site m k : Nat) (e : LinkEnd) : State :=
  match (s.lk site m e).link with
  | none => s
  | some l =>
    let last := (l.rxSeq + 4095) % 4096
    ((s.modLk site m e fun x => { x with syncDue := false }).lmSend site k e 0x38 [m, last]).modLk site k e fun y =>
      { y with retSync := Tab.put m (last, s.time, false) y.retSync }

/-- The RETIRE_SYNCs a side owes go out on a module that is ACTIVE (R433). -/
def sendSyncs (s : State) (site k : Nat) (e : LinkEnd) : State :=
  if (s.lk site k e).st != 4 then s
  else ([0, 1, 2, 3].filter fun m => m != k && (s.lk site m e).syncDue).foldl (fun s m => s.sendSync site m k e) s

/-- A side retires its end of a module (R420, R432, R433): RETIRE_SYNC goes out where the side holds link state, at once or when another
module of the site is ACTIVE. A side in RESET has nothing to retire (R420). -/
def retireSide (s : State) (site m : Nat) (e : LinkEnd) : State :=
  let x := s.lk site m e
  if x.st == 7 || x.st == 0 then s
  else
    let s := s.lkGo site m e 7
    let s := match e with
      | .die => s
      | .hub => (((s.raise1 (pgLNK site) (Fld.LNK_STAT_RETIRED m)).fire (srcSITE site 8)).recLink site m 3 3 8).pauseNote (pgLNK site) (site + 16 * m)
    if x.link.isNone then s
    else
      let s := s.modLk site m e fun x => { x with syncDue := true }
      match [0, 1, 2, 3].find? fun k => k != m && (s.lk site k e).st == 4 with
      | some k => s.sendSync site m k e
      | none => s

/-- Enter RETRAIN (R442): from ACTIVE on any cause, from IDLE on loss of the TRK beacon. -/
def enterRetrain (s : State) (site m : Nat) (e : LinkEnd) : State :=
  let x := s.lk site m e
  if !isUp x.st then s
  else
    let bad := (match x.rep with
      | some r => 2 ^ r.lane
      | none => 0)
    let s := s.lkGo site m e 6
    let s := s.modLk site m e fun x =>
      { x with calSent := false, calRecv := false, fromRetrain := true, thrFail := x.thrFail ||| bad }
    match e with
    | .die => s
    | .hub =>
      let pg := pgLNK site
      ((s.count pg (Fld.LNK_RETRAIN_CNT_COUNT m)).raise1 pg (Fld.LNK_STAT_RETRAINED m)).fire (srcSITE site 9)

/-- Enter MAP and propose (R424). -/
def enterMap (s : State) (site m : Nat) (e : LinkEnd) : State :=
  let s := s.lkGo site m e 3
  let s := s.modLk site m e fun x => { x with partnerFail := none, confSent := false, confRecv := false }
  s.lmSend site m e 0x20 [((s.lk site m e).mapSeq + 1) % 256, s.failedSet site m e]

/-- CAL_DONE has gone both ways (R420, R764). -/
def calAdvance (s : State) (site m : Nat) (e : LinkEnd) : State :=
  let x := s.lk site m e
  if (x.st == 2 || x.st == 6) && x.calSent && x.calRecv then s.enterMap site m e else s

/-- A mismatch of MAP (R420, R426). -/
def mapMismatch (s : State) (site m : Nat) (e : LinkEnd) : State :=
  let s := s.modLk site m e fun x => { x with mm := x.mm + 1 }
  let s := match e with
    | .die => s
    | .hub => s.raise1 (pgLNK site) (Fld.LNK_STAT_MISMATCH m)
  if 3 ≤ (s.lk site m e).mm then s.retireSide site m e else s.enterSurvey site m e

/-- The grants LNK[s] declares (R409). -/
def hubGrantH : List Nat := [32, 16, 32, 64, 64, 16, 16, 16]
def hubGrantD : List Nat := [32, 4, 0, 64, 64, 16, 16, 16]

/-- A die's grants at their least (R409, R115). -/
def dieGrantH : List Nat := [8, 8, 4, 8, 8, 4, 4, 4]
def dieGrantD : List Nat := [8, 2, 0, 8, 8, 4, 4, 4]

/-- The module that carries a site's own frames: its lowest-numbered ACTIVE one (R634, R636, R691). -/
def lowActive (s : State) (site : Nat) : Option Nat := [0, 1, 2, 3].find? fun m => (s.lk site m .hub).st == 4

/-- TIME_SYNC on the module that carries it (R634); the site is admitted with TIME committed. -/
def timeSync (s : State) (site : Nat) : State :=
  match s.lowActive site with
  | none => s
  | some m =>
    if s.admitted site && bitN (s.get (pgSITE site) Fld.TRAV_CAP_LO_CAP) 2 then
      (s.modSite site fun x => { x with lastSync := s.time }).lmSend site m .hub 0x60 [s.time, (s.lk site m .hub).delay]
    else s

/-- Enter ACTIVE (R399, R412, R420, R426, R431, R443): the records and MAPSEQ apply, link state is created where there
is none, and each side then sends CRED_INIT. -/
def enterActive (s : State) (site m : Nat) (e : LinkEnd) : State :=
  let x := s.lk site m e
  let oldW := x.width
  let fresh := x.link.isNone
  let retrained := x.fromRetrain
  let s := s.lkGo site m e 4
  let s := s.modLk site m e fun x =>
    { x with width := x.newWidth, mapDh := x.newDh, mapHd := x.newHd, mapSeq := (x.mapSeq + 1) % 256, mm := 0,
             link := if fresh then some {} else x.link, thrFail := if fresh then 0 else x.thrFail, lastRx := s.time, lastTx := s.time, lastUnit := s.time,
             winStart := s.time, crcFails := 0, laneErr := [], spareErr := [], badSeqs := [], low := [], fromRetrain := false }
  let s := if fresh then
      s.lmSend site m e 0x28 (match e with
                              | .hub => hubGrantH ++ hubGrantD
                              | .die => dieGrantH ++ dieGrantD)
    else s
  let s := s.sendSyncs site m e
  match e with
  | .die => s
  | .hub =>
    let w := x.newWidth
    let s := if retrained then s.recLink site m (if w == oldW then 1 else 3) 1 9 else s
    let s := if w != oldW then
        let s := s.recLink site m (if w == 0 then 1 else 3) 2 7
        if w == 1 || w == 2 then (s.raise1 (pgLNK site) (Fld.LNK_STAT_DEGRADED m)).fire (srcSITE site 7) else s
      else s
    if s.lowActive site == some m then s.timeSync site else s

/-! ### Frames (R404 to R417) -/

/-- Add `n` to element `i` of a list of counts, modulo `k`. -/
def addAt (l : List Nat) (i n k : Nat) : List Nat := modOf 8 0 l i fun v => (v + n) % k

/-- A side may send a unit of a VC (R410). -/
def mayLink (l : LinkState) (vc : Nat) (data : Bool) : Bool :=
  decide ((nthD l.sentH vc 0 + 256 - nthD l.backH vc 0) % 256 < nthD l.grantH vc 0) &&
  (!data || decide ((nthD l.sentD vc 0 + 128 - nthD l.backD vc 0) % 128 < nthD l.grantD vc 0))

/-- A side may send the units of one frame, in order (R410). -/
def mayFrame (l : LinkState) : List Pkt → Bool
  | [] => true
  | p :: rest =>
    let vc := p.vc.toNat
    mayLink l vc p.hasData &&
      mayFrame { l with sentH := addAt l.sentH vc 1 256, sentD := if p.hasData then addAt l.sentD vc 1 128 else l.sentD } rest

/-- The die holds a link credit of LNK[s] for a unit, by the buffers LNK[s] granted (R409, R473). -/
def holdsCredit (l : LinkState) (vc : Nat) (data : Bool) : Bool :=
  decide ((nthD l.recvH vc 0 + 256 - nthD l.freedH vc 0) % 256 < nthD hubGrantH vc 0) &&
  (!data || decide ((nthD l.recvD vc 0 + 128 - nthD l.freedD vc 0) % 128 < nthD hubGrantD vc 0))

def modLink (s : State) (site m : Nat) (e : LinkEnd) (f : LinkState → LinkState) : State :=
  s.modLk site m e fun x => { x with link := x.link.map f }

/-- A unit that the die has to send goes on this module: it was to go on it, or on one that has retired (R434). -/
def dieCarries (s : State) (site m : Nat) (q : InFlight) : Bool :=
  match q.at_ with
  | .die i k => i == site && (k == m || (s.lk site k .die).st == 7)
  | _ => false

/-- Units of the die that wait for a module, oldest first. -/
def dieQueue (s : State) (site m : Nat) : List Pkt := (s.net.filter fun q => s.dieCarries site m q).map (·.p)

/-- LNK[s] delivers a unit on this module (R434, R467): the module of its node, or any where that one has retired. Answers for SITE (R506) and
interrupt messages (R689) stay at LNK[s]. -/
def carriedOn (s : State) (site m : Nat) (p : Pkt) : Bool :=
  isDieNode p.dst && siteOf p.dst == site && !(p.op == 0x44 && p.src != p.dst) &&
    !((p.op == 0x68 || p.op == 0x70 || p.op == 0x71) && isMsgWindow (paOf p.addr.toNat)) && (moduleOf p.dst == m || (s.lk site (moduleOf p.dst) .hub).st == 7)

/-- Units for a module that wait in the receiving queues of LNK[s], oldest first. -/
def hubQueue (s : State) (site m : Nat) : List Pkt :=
  (s.net.filter fun q => decide (q.at_ = .rx) && s.carriedOn site m q.p).map (·.p)

/-- A side has a DATA frame to send: one to send again, units of a retired module, or a unit with its credit. -/
def dataWaits (s : State) (site m : Nat) (e : LinkEnd) : Bool :=
  let x := s.lk site m e
  match x.link with
  | none => false
  | some l => l.replay.isSome || !x.resend.isEmpty || (match e with
    | .hub => (s.hubQueue site m).any fun p => mayLink l p.vc.toNat p.hasData
    | .die => !(s.dieQueue site m).isEmpty)

/-- A side in ACTIVE with an ACK or credits to report and no other frame to send sends ACK frames until every VC is reported
(R411, R416); after IDLE_ACK it sends nothing (R438). `n` bounds the frames: four report every VC. -/
def ackFlush (s : State) (site m : Nat) (e : LinkEnd) : Nat → State
  | 0 => s
  | n + 1 =>
    let x := s.lk site m e
    match x.link with
    | none => s
    | some l =>
      if x.st != 4 || x.idleAck.isSome || (!l.ackDue && l.dueVc.isEmpty) || s.dataWaits site m e then s
      else (s.lmSend site m e 0x102 []).ackFlush site m e n

/-- A side frees the link credits of a unit that left its receive buffer (R410, R411). -/
def linkFree (s : State) (site m : Nat) (e : LinkEnd) (p : Pkt) : State :=
  let vc := p.vc.toNat
  (s.modLink site m e fun l =>
    { l with freedH := addAt l.freedH vc 1 256, freedD := if p.hasData then addAt l.freedD vc 1 128 else l.freedD
             dueVc := if l.dueVc.contains vc then l.dueVc else l.dueVc ++ [vc] }).ackFlush site m e 4

/-- Apply the ACK and credit slots of a frame that side `e` receives (R410, R411, R416, R417): acknowledged device writes
to a Class D die have reached their end point (R277). -/
def applyHeader (s : State) (site m : Nat) (e : LinkEnd) (h : FrameHdr) : State :=
  match (s.lk site m e).link with
  | none => s
  | some l =>
    let i := l.unacked.findIdx? fun (f : TxFrame) => f.seq == h.ack
    let done : List TxFrame := match i with
      | some i => l.unacked.take (i + 1)
      | none => []
    let left := l.unacked.drop done.length
    let s := s.modLink site m e fun l =>
      { l with unacked := left
               replay := if (left.map (·.seq)).contains (l.replay.getD 4096) then l.replay else (if l.replay.isSome then left.head?.map (·.seq) else none)
               backH := modOf 8 0 (modOf 8 0 l.backH h.cvc0 fun _ => h.ch0) h.cvc1 fun _ => h.ch1
               backD := modOf 8 0 (modOf 8 0 l.backD h.cvc0 fun _ => h.cd0) h.cvc1 fun _ => h.cd1 }
    match e with
    | .die => s
    | .hub => (done.flatMap fun (f : TxFrame) => f.units).foldl (fun s p => s.writeDone p) s

/-- A side starts to send its unacknowledged DATA frames again, in order (R415). -/
def replay (s : State) (site m : Nat) (e : LinkEnd) : State :=
  s.modLink site m e fun l => { l with replay := l.unacked.head?.map (·.seq) }

/-- The thresholds of a side (R442): LANE_THR and CRC_THR at the hub, their largest permitted values at a die (log 26). -/
def laneThr (s : State) (site : Nat) (e : LinkEnd) : Nat :=
  match e with
  | .hub => s.get (pgLNK site) Fld.LNK_LCFG_LANE_THR
  | .die => 16
def crcThr (s : State) (site : Nat) (e : LinkEnd) : Nat :=
  match e with
  | .hub => s.get (pgLNK site) Fld.LNK_LCFG_CRC_THR
  | .die => 64

/-- The map record of a side's receive direction. -/
def rxRecord (x : LinkSide) (e : LinkEnd) : Nat :=
  match e with
  | .hub => x.mapDh
  | .die => x.mapHd

/-- The map record of a side's transmit direction. -/
def txRecord (x : LinkSide) (e : LinkEnd) : Nat :=
  match e with
  | .hub => x.mapHd
  | .die => x.mapDh

/-- What a lane of a side's transmit direction carries (R399, R403, R419, R428). -/
def laneUse (x : LinkSide) (e : LinkEnd) (lane : Nat) : LaneUse :=
  let r := txRecord x e
  let j := lane % 34
  if x.low.contains lane then .low
  else if x.copy.any fun c => spareLane c.2 == lane then .copyOf ((x.copy.map (·.1)).getD 0)
  else match (List.range (lanesOf x.width)).find? fun l => physLane r x.width l == lane with
    | some l => .logical l
    | none => if 32 ≤ j && !bitN r (7 * (2 * (lane / 34) + (j - 32)) + 6) then .prbs else .off

/-- A lane of a side's receive direction fails in ACTIVE (R427, R430): a repair starts, waits for the one running, or the
module retrains. -/
def laneFailed (s : State) (site m : Nat) (e : LinkEnd) (lane : Nat) : State :=
  let x := s.lk site m e
  let s := (s.modLk site m e fun x => { x with thrFail := x.thrFail ||| 2 ^ lane }).noteRxFail site m e (2 ^ lane)
  if x.st != 4 then s
  else if x.rep.isSome then s.modLk site m e fun x => { x with repQueue := x.repQueue ++ [lane] }
  else
    let auto := match e with
      | .hub => s.flag (pgLNK site) (Fld.LNK_CTL_REPAIR_AUTO m)
      | .die => true
    match auto, repairPlan x.width (rxRecord x e) (s.failedSet site m e) lane with
    | true, some (_, rec) =>
      let seq := (x.mapSeq + 1) % 256
      (s.modLk site m e fun x => { x with rep := some { lane := lane, record := rec, seq := seq, sent := s.time } }).lmSend
        site m e 0x30 [seq, rec, lane]
    | _, _ => s.enterRetrain site m e

/-- Charge bit errors to lanes (R442), unless more than 4 lanes differ. -/
def chargeLanes (s : State) (site m : Nat) (e : LinkEnd) (charged : List Nat) : State :=
  if 4 < charged.eraseDups.length then s
  else
    let before := (s.lk site m e).laneErr
    let s := s.modLk site m e fun x =>
      { x with laneErr := charged.foldl (fun t l => Tab.put l (Tab.getD l 0 t + 1) t) x.laneErr }
    let thr := s.laneThr site e
    charged.eraseDups.foldl (fun s l =>
      if Tab.getD l 0 before < thr && thr ≤ Tab.getD l 0 (s.lk site m e).laneErr then s.laneFailed site m e l else s) s

/-- The bits of the payload, which both copies of a frame have in common (R442; log 136). -/
def payloadBits (l : List Nat) : List Nat := l.filter fun k => decide (64 ≤ k) && decide (k < 1984)

/-- The lanes that carried the payload bits in which two copies of a frame differ, one with the bits `a` wrong and one with `b`. -/
def differingLanes (x : LinkSide) (e : LinkEnd) (a b : List Nat) : List Nat :=
  let odd := fun (l : List Nat) k => l.count k % 2 == 1
  ((payloadBits (a ++ b)).eraseDups.filter fun k => odd a k != odd b k).map (laneOfBit (rxRecord x e) x.width)

/-- RPL is sent, at most once in 200 ns while no DATA frame is accepted (R414). -/
def sendRpl (s : State) (site m : Nat) (e : LinkEnd) : State :=
  let due := match (s.lk site m e).lastRpl with
    | none => true
    | some t => decide (t + 200 ≤ s.time)
  if due then (s.lmSend site m e 0x101 []).modLk site m e fun x => { x with lastRpl := some s.time } else s

/-- A frame with a bad CRC (R406, R414, R442); `data`: a DATA frame, its SEQ and the bits that arrived wrong. -/
def badFrame (s : State) (site m : Nat) (e : LinkEnd) (data : Option (Nat × List Nat)) : State :=
  let s := match e with
    | .die => s
    | .hub => s.count (pgLNK site) (Fld.LNK_CRC_CNT_COUNT m)
  let s := s.modLk site m e fun x => { x with crcFails := x.crcFails + 1, badSeqs := match data with
                                                                                    | some q => x.badSeqs ++ [q]
                                                                                    | none => x.badSeqs }
  let s := if data.isSome then s.sendRpl site m e else s
  if s.crcThr site e ≤ (s.lk site m e).crcFails then s.enterRetrain site m e else s

/-- A frame other than DATA leaves the wire: the partner's oldest with this message, or where there is none (a frame from outside the
model, log 3) one with the header that the partner's side gives it. -/
def frameIn (s : State) (site m : Nat) (e : LinkEnd) (l : Lm) : LinkFrame × State :=
  let y := s.lk site m e.other
  match y.outbox.find? (·.lm == l) with
  | some f => (f, s.modLk site m e.other fun y => { y with outbox := y.outbox.erase f })
  | none => (⟨hdrOf y l.code, l⟩, s)

/-- A side receives a link-management, ACK or RPL frame whose copies arrive with the bits of `w` wrong (R406, R421): a bad CRC or a
reserved TYPE discards it; a good one reports its ACK and credits, and `f` takes what the message holds. -/
def lmIn (s : State) (site m : Nat) (e : LinkEnd) (code : Nat) (args : List Nat) (w : List (List Nat)) (f : List Nat → State → State) :
    State :=
  let (fr, s) := s.frameIn site m e ⟨code, args⟩
  match readFrame fr (if (s.lk site m e).st == 1 then w else w.take 1) with
  | .badCrc => s.badFrame site m e none
  | .badType => s
  | .taken g =>
    let s := (s.applyHeader site m e g.hdr).modLk site m e fun x => { x with lastRx := s.time }
    if g.lm.code == code then f g.lm.args s else s

/-- LNK[s] has received a unit of its die: a device write counts from now on, and a Drain covers what came before it (R280). -/
def received (s : State) (site : Nat) (p : Pkt) : State :=
  if p.op == 0x09 then s.modSite site fun x => { x with drainMark := x.drainMark ++ [(unitKey p, x.devw)] } else s.writeSeen p

/-- LNK[s] has a unit of its die in the receive buffer of a module, where it waits for Boundary (R410). -/
def linkTakes (s : State) (site m : Nat) (p : Pkt) : State :=
  let vc := p.vc.toNat
  let s := s.modLink site m .hub fun l =>
    { l with recvH := addAt l.recvH vc 1 256, recvD := if p.hasData then addAt l.recvD vc 1 128 else l.recvD }
  let p : Pkt := { p with inj := none }
  let got : InFlight := { p := p, at_ := .link site m, since := s.time }
  let s : State := { s with net := s.net ++ [got] }
  s.received site (ownSrc site m p)

/-- A unit that LNK[s] accepts from the die: within its credit it waits for Boundary; beyond it is a CREDIT violation and is discarded
(R473). LNK[s] has received a device write of its site (R280). A unit the die accepts is delivered to it. -/
def acceptUnit (s : State) (site m : Nat) (e : LinkEnd) (p : Pkt) : State :=
  let vc := p.vc.toNat
  match e with
  | .hub =>
    let ok := match (s.lk site m .hub).link with
      | some l => holdsCredit l vc p.hasData
      | none => true
    let s := s.bump (pgLNK site) 0x041 1 none (some p.cls.toNat) (some m)
    if !ok then s.lateViolation site 10 p else s.linkTakes site m p
  | .die => { s with net := s.net ++ [{ p := p, at_ := .dlv site m, since := s.time }] }

/-- Snoops and forwarded invalidations are timed from the sending of their frame (R473); device requests to a Class D
die from theirs (R468). -/
def noteSent (s : State) (site : Nat) (p : Pkt) : State :=
  let n := p.op.toNat
  let q := unitKey p
  if 0x20 ≤ n && n ≤ 0x24 then s.modSite site fun x => { x with snoops := x.snoops ++ [⟨q, s.time, false⟩] }
  else if n == 0x70 || n == 0x71 then s.modSite site fun x => { x with dev := x.dev ++ [⟨q, s.time⟩] }
  else s

/-- The oldest units of each VC among those that wait come first: the units of a frame are taken from the heads of the queues. -/
def headsFirst (queue : List Pkt) : List Pkt → Bool
  | [] => true
  | p :: rest => match queue.find? fun q => q.vc == p.vc with
    | some q => sameUnit q p && headsFirst (queue.erase q) rest
    | none => false

/-- The units a side packs into a new DATA frame are ones it may send: those of a retired module first and in order (R433), then units
from the heads of its queues with their credits (R407, R410, R436). A die's units may come from outside the model where it may send them
(R170, R172), and may lack credit (R473). -/
def mayPack (s : State) (site m : Nat) (e : LinkEnd) (units : List Pkt) : Bool :=
  let x := s.lk site m e
  let n := min units.length x.resend.length
  let fresh := units.drop n
  fitsFrame units && !units.isEmpty && (units.zip x.resend).all (fun u => sameUnit u.1 u.2) && (match e with
    | .hub => (match x.link with
      | some l => mayFrame l units
      | none => false) && headsFirst (s.hubQueue site m) fresh
    | .die =>
      let mine := s.dieQueue site m
      let (own, new) := fresh.partition fun p => mine.any fun q => sameUnit q p
      headsFirst mine own && s.dieMayAll site new)

/-- The units of a new frame leave where they waited: LNK's receiving queue, whose fabric credits return, or the die. -/
def unitsLeave (s : State) (site m : Nat) (e : LinkEnd) (units : List Pkt) : State :=
  let fresh := units.drop (min units.length (s.lk site m e).resend.length)
  let s := s.modLk site m e fun x => { x with resend := x.resend.drop units.length }
  fresh.foldl (fun s p => match e with
    | .hub => s.consume p
    | .die => match s.net.find? fun q => sameUnit q.p p && s.dieCarries site m q with
      | some q => { s with net := s.net.erase q }
      | none => s.dieSent site p) s

/-- The sender's account of a DATA frame that it sends for the first time (R410, R413). -/
def frameSent (s : State) (site m : Nat) (e : LinkEnd) (units : List Pkt) : State :=
  let s := s.unitsLeave site m e units
  let s := s.modLink site m e fun l =>
    { hdrSent l with txSeq := (l.txSeq + 1) % 4096, unacked := l.unacked ++ [{ seq := l.txSeq, units := units, since := s.time }]
                     sentH := units.foldl (fun t p => addAt t p.vc.toNat 1 256) l.sentH
                     sentD := units.foldl (fun t p => if p.hasData then addAt t p.vc.toNat 1 128 else t) l.sentD }
  let s := s.modLk site m e fun x => { x with lastTx := s.time, lastUnit := s.time }
  match e with
  | .die => s
  | .hub => units.foldl (fun s p => s.noteSent site p) (s.bump (pgLNK site) 0x040 1 none none (some m))

/-- The sender's account of a DATA frame that it sends again (R415, R442): the next one follows; one sent four times without
acknowledgement makes the side retrain. -/
def frameAgain (s : State) (site m : Nat) (e : LinkEnd) (q : Nat) : State :=
  let s := s.modLink site m e fun l =>
    { hdrSent l with unacked := l.unacked.map fun f => if f.seq == q then { f with sends := f.sends + 1, since := s.time } else f
                     replay := ((l.unacked.dropWhile fun f => f.seq != q).drop 1).head?.map (·.seq) }
  let s := s.modLk site m e fun x => { x with lastTx := s.time }
  match e with
  | .die => s
  | .hub => (s.count (pgLNK site) (Fld.LNK_RPL_CNT_COUNT m)).bump (pgLNK site) 0x042 1 none none (some m)

/-- The DATA frame that a side sends next (R413, R415, R428, R437): the frame to be sent again, or a new one with `units`; its SEQ and
units, and whether it is new. No DATA frame is sent in a pause or while IDLE entry is asked for, and no new one while 64 wait. -/
def nextData (s : State) (site m : Nat) (e : LinkEnd) (units : List Pkt) : Option (Nat × List Pkt × Bool) :=
  let x := s.lk site m e
  match x.link with
  | none => none
  | some l =>
    if x.st != 4 || x.pause.isSome || x.idleReq.isSome || x.idleAck.isSome then none
    else match l.unacked.find? fun f => some f.seq == l.replay with
      | some f => some (f.seq, f.units, false)
      | none =>
        if 64 ≤ l.unacked.length || !s.mayPack site m e units then none
        else some (l.txSeq, units.map fun p => { p with route := 0, rpar := 0 }, true)

/-- The repair that the hub's receive direction ran has ended: replayed frames are accepted again (R428, R443). -/
def repairFinished (s : State) (site m : Nat) : State :=
  let pg := pgLNK site
  let s := ((s.count pg (Fld.LNK_REPAIR_CNT_COUNT m)).raise1 pg (Fld.LNK_STAT_REPAIRED m)).fire (srcSITE site 6)
  s.recLink site m 1 0 6

/-- A DATA frame that side `e` has taken, with the SEQ and units it holds; `w`: the bits of it that arrived wrong (R407, R414, R416,
R442). -/
def dataIn (s : State) (site m : Nat) (e : LinkEnd) (seq : Nat) (units : List Pkt) (w : List Nat) : State :=
  let x := s.lk site m e
  let rx := (x.link.map (·.rxSeq)).getD 0
  let ahead := (seq + 4096 - rx) % 4096
  if ahead == 0 then
    let s := s.modLink site m e fun l => { l with rxSeq := (l.rxSeq + 1) % 4096, ackDue := true }
    let s := s.modLk site m e fun x => { x with lastUnit := s.time, lastRpl := none, badSeqs := x.badSeqs.filter (·.1 != seq) }
    let s := units.foldl (fun s p => s.acceptUnit site m e p) s
    let s := if (s.lk site m e).repFinish then
        let s := s.modLk site m e fun x => { x with repFinish := false }
        match e with
        | .hub => s.repairFinished site m
        | .die => s
      else s
    let s := match x.badSeqs.find? (·.1 == seq) with
      | some b => s.chargeLanes site m e (differingLanes x e b.2 w)
      | none => s
    s.ackFlush site m e 4
  else if ahead < 2048 then s.sendRpl site m e
  else (s.modLink site m e fun l => { l with ackDue := true }).ackFlush site m e 4

/-- A DATA frame crosses the module and reaches side `e` (R407, R413 to R416): the partner's next, a new one with `units` or one sent
again; the bits of `w` arrive wrong. -/
def dataFrame (s : State) (site m : Nat) (e : LinkEnd) (units : List Pkt) (w : List (List Nat)) : State :=
  let o := e.other
  if (s.lk site m e).st != 4 || (s.lk site m e).link.isNone then s
  else match s.nextData site m o units with
    | none => s
    | some (seq, units, fresh) =>
      let h : FrameHdr := match (s.lk site m o).link with
        | some l => State.nextHdr l 1 seq
        | none => { seq := seq, ack := 0 }
      let flips := w.headD []
      let s := if fresh then s.frameSent site m o units else s.frameAgain site m o seq
      let s := match readDataFrame h units flips with
        | .badCrc => s.badFrame site m e (some (seq, flips))
        | .badType => s
        | .taken (g, us) =>
          let s := (s.applyHeader site m e g).modLk site m e fun x => { x with lastRx := s.time }
          s.dataIn site m e g.seq us flips
      if !fresh && (((s.lk site m o).link.map fun l => l.unacked.any fun f => f.seq == seq && 4 ≤ f.sends).getD false)
      then s.enterRetrain site m o else s

/-- The idle conditions of R437 other than the threshold. -/
def idleReady (s : State) (site m : Nat) (e : LinkEnd) : Bool :=
  let x := s.lk site m e
  match x.link with
  | none => false
  | some l =>
    let waits := match e with
      | .hub => !(s.hubQueue site m).isEmpty
      | .die => !(s.dieQueue site m).isEmpty
    x.st == 4 && l.unacked.isEmpty && !l.ackDue && l.dueVc.isEmpty && x.resend.isEmpty && !waits

/-- The idle threshold of a side in ns (R437, R444). -/
def idleThresh (s : State) (site : Nat) (e : LinkEnd) : Nat :=
  match e with
  | .hub => 250 * (s.get (pgLNK site) Fld.LNK_LCFG_IDLE_THRESH + 1)
  | .die => 250

/-- The module goes to IDLE at one side. -/
def enterIdle (s : State) (site m : Nat) (e : LinkEnd) : State :=
  (s.lkGo site m e 5).modLk site m e fun x => { x with lastRx := s.time, lastTx := s.time }

/-- An IDLE module wakes to ACTIVE on both sides (R440). -/
def wakeModule (s : State) (site m : Nat) : State :=
  let go := fun (e : LinkEnd) (s : State) =>
    if (s.lk site m e).st == 5 then ((s.lkGo site m e 4).modLk site m e fun x =>
      { x with lastRx := s.time, lastTx := s.time, lastUnit := s.time }).sendSyncs site m e
    else s
  let s := go .die (go .hub s)
  if s.lowActive site == some m then s.timeSync site else s

/-- The partner's account of a retired module comes on module `m` (R433): its units that the partner did not accept are to be sent again
there, ahead of others, and the retired module's link state is discarded. The message is answered once. -/
def retireSync (s : State) (site m : Nat) (e : LinkEnd) (retired last : Nat) : State :=
  let s := s.retireSide site retired e
  let y := s.lk site retired e
  let own := Tab.get? retired (s.lk site m e).retSync
  let s := match y.link with
    | none => s
    | some l =>
      let i := l.unacked.findIdx? fun (f : TxFrame) => f.seq == last
      let rest : List TxFrame := match i with
        | some i => l.unacked.drop (i + 1)
        | none => l.unacked
      let units := rest.flatMap fun (f : TxFrame) => f.units
      let s := match e with
        | .die => s
        | .hub => ((l.unacked.take (l.unacked.length - rest.length)).flatMap fun (f : TxFrame) => f.units).foldl (fun s p => s.writeDone p) s
      let s := s.modLk site m e fun x => { x with resend := x.resend ++ (units ++ y.resend) }
      s.modLk site retired e fun x => { x with link := none, syncDue := false, resend := [] }
  let mine := match own with
    | some (q, _, _) => q
    | none => match y.link with
              | some l => (l.rxSeq + 4095) % 4096
              | none => 4095
  match own with
  | some (_, _, true) => s.lmSend site m e 0x38 [retired, mine]
  | some (_, t, false) => s.modLk site m e fun x => { x with retSync := Tab.put retired (mine, t, true) x.retSync }
  | none =>
    (s.lmSend site m e 0x38 [retired, mine]).modLk site m e fun x => { x with retSync := Tab.put retired (mine, s.time, true) x.retSync }

def modTrav (s : State) (site : Nat) (f : Trav → Trav) : State := s.modSite site fun x => { x with trav := x.trav.map f }

/-- A SURVEY failure on that module before step 6 ends restarts the exchange on it. -/
def travRestart (s : State) (site m : Nat) : State :=
  if (s.siteAt site).trav.isNone then s
  else s.modTrav site fun t => if t.m == m && 2 ≤ t.step && t.step ≤ 8 then { t with step := 2, chunk := 0, bytes := [] } else t

/-- A module's training falls back (R420): SURVEY to RESET and, on the third failure running, RETIRED; CALIBRATE, MAP and
RETRAIN to SURVEY. RESET with EN set enters SURVEY again (R454). -/
def trainingTimeout (s : State) (site m : Nat) (e : LinkEnd) : State :=
  let x := s.lk site m e
  let age := s.time - x.since
  match x.st with
  | 1 =>
    if age < 1000000 then s
    else
      let s := s.modLk site m e fun x => { x with sv := x.sv + 1 }
      if 3 ≤ x.sv + 1 then s.retireSide site m e else ((s.lkGo site m e 0).enterSurvey site m e).travRestart site m
  | 2 => if age < 100000 then s else s.enterSurvey site m e
  | 3 => if age < 2000 then s else s.enterSurvey site m e
  | 6 => if age < 8000 then s else s.enterSurvey site m e
  | _ => s

/-- RESUME = 0 from one side while the other holds link state (R422): LOST, and the hub's link state goes. -/
def linkLost (s : State) (site m : Nat) : State :=
  let s := ((s.raise1 (pgLNK site) (Fld.LNK_STAT_LOST m)).fire (srcSITE site 4)).recLink site m 3 4 4
  s.modLk site m .hub fun x => { x with link := none }

/-- A site's modules go to RESET at both ends (R420, R647): their link state and maps are gone; LNK_RXFAIL stays. -/
def resetModule (s : State) (site m : Nat) : State :=
  (s.setLk site m .hub { outSince := s.time }).setLk site m .die { outSince := s.time }

/-- EN of a module is set by Smith firmware: with the site's domain on, both ends leave RESET for SURVEY (R420). -/
def enableModule (s : State) (site m : Nat) : State :=
  let s := s.put (pgLNK site) (Fld.LNK_CTL_EN m) 1
  if !s.domOn site then s
  else
    let go := fun (e : LinkEnd) (s : State) =>
      if (s.lk site m e).st == 0 then (s.enterSurvey site m e).modLk site m e fun x => { x with enSince := s.time } else s
    go .die (go .hub s)

/-- EN of a module is cleared: it returns to RESET. -/
def disableModule (s : State) (site m : Nat) : State :=
  (s.put (pgLNK site) (Fld.LNK_CTL_EN m) 0).resetModule site m

/-! ### Traverse and the link (R454): steps 1 power-up, 2 HELLO, 3 Datum, 4 CHAL, 5 ASSIGN, 6 NEG_OFFER, 7 NEG_COMMIT, 8 SURVEY_DONE,
9 training of every module, 10 admission -/

/-- HELLO has gone both ways on the module that carries the identity exchange: the hub asks for the first Datum chunk. -/
def travHello (s : State) (site m : Nat) : State :=
  match (s.siteAt site).trav with
  | none => s
  | some t =>
    if t.step == 2 && t.m == m && (s.lk site m .hub).st == 1 then
      (s.lmSend site m .hub 0x08 [0]).modTrav site fun t => { t with step := 3, chunk := 0, bytes := [], sent := s.time }
    else s

/-- SURVEY_DONE has gone both ways after the exchange: Smith firmware sets EN on the other modules that have not retired. -/
def travSurveyed (s : State) (site m : Nat) : State :=
  match (s.siteAt site).trav with
  | none => s
  | some t =>
    if t.step == 8 && t.m == m && 2 ≤ (s.lk site m .hub).st && (s.lk site m .hub).st != 7 then
      let s := s.modTrav site fun t => { t with step := 9, sent := s.time }
      ([0, 1, 2, 3].filter fun k => (s.lk site k .hub).st == 0).foldl (fun s k => s.enableModule site k) s
    else s

end State

/-- Handle a message only while the side is in one of the given states; a frame that comes in another state is not taken. -/
def State.lmWhen (s : State) (site m : Nat) (e : LinkEnd) (states : List Nat) (code : Nat) (args : List Nat) (w : List (List Nat))
    (f : List Nat → State → State) : State :=
  if states.contains (s.lk site m e).st then s.lmIn site m e code args w f else s

open State in
/-- DATA_FRAME (R414): `units` are those of a new frame; `w` gives the bits that arrive wrong. -/
def execDataFrame (site m : Nat) (e : LinkEnd) (units : List Pkt) (w : List (List Nat)) (s : State) : Host.Outcome State Fault Refusal :=
  s.actDom (·.dataFrame site m e units w)

/-- The partner's oldest frame with this message, where it has sent one, crosses; `f` is what follows at the side that takes it. -/
def State.oldestIn (s : State) (site m : Nat) (e : LinkEnd) (code : Nat) (w : List (List Nat)) (f : State → State) : State :=
  match (s.lk site m e.other).outbox.find? (·.lm.code == code) with
  | none => s
  | some fr => s.lmWhen site m e [4] code fr.lm.args w fun _ s => f s

/-- ACK_FRAME (R406). -/
def execAckFrame (site m : Nat) (e : LinkEnd) (w : List (List Nat)) (s : State) : Host.Outcome State Fault Refusal :=
  s.actDom (·.oldestIn site m e 0x102 w id)

/-- RPL_FRAME (R415). -/
def execRplFrame (site m : Nat) (e : LinkEnd) (w : List (List Nat)) (s : State) : Host.Outcome State Fault Refusal :=
  s.actDom (·.oldestIn site m e 0x101 w (·.replay site m e))

/-- REPLAY_TIMEOUT (R415). -/
def execReplayTimeout (site m : Nat) (e : LinkEnd) (s : State) : Host.Outcome State Fault Refusal :=
  s.actDom fun s =>
    match ((s.lk site m e).link.map (·.unacked)).getD [] with
    | f :: _ => if (s.lk site m e).st == 4 && f.since + 500 < s.time then s.replay site m e else s
    | [] => s

/-- HEARTBEAT_SEND (R441). -/
def execHeartbeatSend (site m : Nat) (e : LinkEnd) (s : State) : Host.Outcome State Fault Refusal :=
  s.actDom fun s =>
    let x := s.lk site m e
    if x.st == 4 && x.lastTx + 1000 ≤ s.time then s.lmSend site m e 0x102 [] else s

/-- HEARTBEAT_LOSS (R441). -/
def execHeartbeatLoss (site m : Nat) (e : LinkEnd) (s : State) : Host.Outcome State Fault Refusal :=
  s.actDom fun s =>
    let x := s.lk site m e
    let lim := match e with
      | .hub => 1000 * s.get (pgLNK site) Fld.LNK_LCFG_HB_TO
      | .die => 2000
    if State.isUp x.st && x.lastRx + lim ≤ s.time then
      let s := match e with
        | .die => s
        | .hub => (s.raise1 (pgLNK site) (Fld.LNK_STAT_HB_LOSS m)).fire (srcSITE site 5)
      s.enterRetrain site m e
    else s

/-- ERROR_WINDOW_END (R442): the 1 ms window of a side ends. -/
def execErrorWindowEnd (site m : Nat) (e : LinkEnd) (s : State) : Host.Outcome State Fault Refusal :=
  s.actDom fun s =>
    let x := s.lk site m e
    if x.winStart + 1000000 ≤ s.time then
      s.modLk site m e fun x => { x with winStart := s.time, crcFails := 0, laneErr := [], spareErr := [] }
    else s

/-- A HELLO in SURVEY (R421, R422). LNK[s] notes a lost link state once, at the first HELLO of a SURVEY. -/
def State.helloIn (s : State) (site m : Nat) (e : LinkEnd) (resume answer : Bool) (mapSeq : Nat) : State :=
  let x := s.lk site m e
  let lost := e == .hub && !x.helloRecv && (x.link.isSome != resume) && s.admitted site
  let s := if lost then s.linkLost site m else s
  let s := s.modLk site m e fun x => { x with helloRecv := true, partnerSeq := mapSeq }
  let s := if answer then s
    else s.lmSend site m e 0x01 [b2n (e == .die), site, m, b2n (s.lk site m e).link.isSome + 2, (s.lk site m e).mapSeq]
  let s := (s.surveyAdvance site m e).travSurveyed site m
  match e with
  | .hub => s.travHello site m
  | .die => s

/-- HELLO (R421, R422): side `e` receives a HELLO with the partner's RESUME, ANSWER and MAPSEQ. -/
def execHello (site m : Nat) (e : LinkEnd) (resume answer : Bool) (mapSeq : Nat) (w : List (List Nat)) (s : State) :
    Host.Outcome State Fault Refusal :=
  s.actDom (·.lmWhen site m e [1, 2, 3, 4, 5, 6] 0x01 [b2n (e == .hub), site, m, b2n resume + 2 * b2n answer, mapSeq] w fun a s =>
    (s.surveySeen site m e).helloIn site m e (bitN (nthD a 3 0) 0) (bitN (nthD a 3 0) 1) (nthD a 4 0))

/-- HELLO_REPEAT (R421): 10 us without a HELLO of the partner. -/
def execHelloRepeat (site m : Nat) (e : LinkEnd) (s : State) : Host.Outcome State Fault Refusal :=
  s.actDom fun s =>
    let x := s.lk site m e
    if x.st == 1 && !x.helloRecv && x.lastTx + 10000 ≤ s.time then
      s.lmSend site m e 0x01 [b2n (e == .die), site, m, b2n x.link.isSome, x.mapSeq]
    else s

/-- SURVEY_DONE (R420). -/
def execSurveyDone (site m : Nat) (e : LinkEnd) (w : List (List Nat)) (s : State) : Host.Outcome State Fault Refusal :=
  s.actDom (·.lmWhen site m e [1, 2, 3, 4, 5, 6] 0x02 [] w fun _ s =>
    if (s.lk site m e).st == 1 then
      ((s.modLk site m e fun x => { x with surveyRecv := true }).surveyAdvance site m e).travSurveyed site m
    else s.surveySeen site m e)

/-- CAL_DONE (R764). -/
def execCalDone (site m : Nat) (e : LinkEnd) (w : List (List Nat)) (s : State) : Host.Outcome State Fault Refusal :=
  s.actDom (·.lmWhen site m e [2, 6] 0x10 [] w fun _ s =>
    (s.modLk site m e fun x => { x with calRecv := true }).calAdvance site m e)

/-- CALIBRATION_COMPLETE (R400, R424, R634, R764): a side finishes its receive direction: the lanes found unusable, whether
CLK, VLD and TRK are usable, the link delay measured in ps. -/
def execCalibrationComplete (site m : Nat) (e : LinkEnd) (failed : Nat) (clkOk : Bool) (delay : Nat) (s : State) :
    Host.Outcome State Fault Refusal :=
  s.actDom fun s =>
    let st := (s.lk site m e).st
    if st != 2 && st != 6 then s
    else if !clkOk then s.retireSide site m e
    else
      let s := (s.modLk site m e fun x => { x with calFail := failed % 2 ^ 68, calSent := true, delay := delay }).noteRxFail site m e failed
      ((s.lmSend site m e 0x10 [])).calAdvance site m e

/-- A MAP_CONFIRM is compared with the side's own computation (R426): a match ends MAP, anything else is a mismatch. -/
def State.confirmed (s : State) (site m : Nat) (e : LinkEnd) (dh hd : Nat) : State :=
  let x := s.lk site m e
  if dh == x.newDh && hd == x.newHd then s.enterActive site m e else s.mapMismatch site m e

/-- A MAP_PROPOSE with the side's own MAPSEQ (R424, R425): the map is computed and confirmed; a MAP_CONFIRM that came before is compared
now. -/
def State.proposed (s : State) (site m : Nat) (e : LinkEnd) (seq failed : Nat) : State :=
  let own := s.failedSet site m e
  let (dh, hd) := match e with
    | .hub => (own, failed)
    | .die => (failed, own)
  let w := widthOf dh hd
  if w == 3 then s.retireSide site m e
  else
    let (rd, rh) := (recordOf dh w, recordOf hd w)
    let early := (s.lk site m e).earlyConf
    let s := s.modLk site m e fun x =>
      { x with partnerFail := some failed, newDh := rd, newHd := rh, newWidth := w, confSent := true, earlyConf := none }
    let s := s.lmSend site m e 0x21 [seq, rd, rh]
    match early with
    | some (a, b) => s.confirmed site m e a b
    | none => s

/-- MAP_PROPOSE (R424 to R426). -/
def execMapPropose (site m : Nat) (e : LinkEnd) (seq failed : Nat) (w : List (List Nat)) (s : State) : Host.Outcome State Fault Refusal :=
  s.actDom (·.lmWhen site m e [3] 0x20 [seq, failed] w fun a s =>
    if nthD a 0 0 != ((s.lk site m e).mapSeq + 1) % 256 then s.mapMismatch site m e
    else s.proposed site m e (nthD a 0 0) (nthD a 1 0))

/-- MAP_CONFIRM (R426). -/
def execMapConfirm (site m : Nat) (e : LinkEnd) (seq dh hd : Nat) (w : List (List Nat)) (s : State) : Host.Outcome State Fault Refusal :=
  s.actDom (·.lmWhen site m e [3] 0x21 [seq, dh, hd] w fun a s =>
    let x := s.lk site m e
    if nthD a 0 0 != (x.mapSeq + 1) % 256 then s.mapMismatch site m e
    else if !x.confSent then s.modLk site m e fun x => { x with earlyConf := some (nthD a 1 0, nthD a 2 0) }
    else s.confirmed site m e (nthD a 1 0) (nthD a 2 0))

/-- CRED_INIT (R409): a side receives the partner's grants per VC. -/
def execCredInit (site m : Nat) (e : LinkEnd) (grantH grantD : List Nat) (w : List (List Nat)) (s : State) :
    Host.Outcome State Fault Refusal :=
  s.actDom (·.lmWhen site m e [4] 0x28 (grantH ++ grantD) w fun a s =>
    s.modLink site m e fun l => { l with grantH := a.take 8, grantD := a.drop 8, granted := true })

/-- REPAIR_REQ (R428, R429): the transmitting side pauses, drives the spare with a copy of the failed lane, and answers. -/
def execRepairReq (site m : Nat) (e : LinkEnd) (seq rec lane : Nat) (w : List (List Nat)) (s : State) : Host.Outcome State Fault Refusal :=
  s.actDom (·.lmWhen site m e [4] 0x30 [seq, rec, lane] w fun a s =>
    let (q, r, j) := (nthD a 0 0, nthD a 1 0, nthD a 2 0)
    let spare := (List.range 4).find? fun k => bits r (7 * k) 7 != bits (State.txRecord (s.lk site m e) e) (7 * k) 7 && bitN r (7 * k + 6)
    let s := if (s.lk site m e).pause.isSome then s
      else s.modLk site m e fun x => { x with pause := some s.time, pauseRec := r, pauseSeq := q + 256 * j, copy := spare.map fun k => (j, k) }
    s.lmSend site m e 0x31 [q])

/-- REPAIR_GO (R428): `w`: the bits that are wrong when it is decoded under the new record. The receiving side applies that record. -/
def execRepairGo (site m : Nat) (e : LinkEnd) (seq : Nat) (w : List (List Nat)) (s : State) : Host.Outcome State Fault Refusal :=
  s.actDom (·.lmWhen site m e [4] 0x31 [seq] w fun a s =>
    let x := s.lk site m e
    match x.rep with
    | none => s
    | some r =>
      if r.seq != nthD a 0 0 then s
      else
        let s := s.modLk site m e fun x =>
          let x := { x with rep := none, mapSeq := r.seq, repFinish := true, repQueue := x.repQueue.drop 1 }
          match e with
          | .hub => { x with mapDh := r.record }
          | .die => { x with mapHd := r.record }
        let s := s.lmSend site m e 0x32 [r.seq]
        match x.repQueue with
        | [] => s
        | l :: _ => s.laneFailed site m e l)

/-- REPAIR_DONE (R428): the transmitting side applies the record, holds the failed lane at 0, ends the pause and replays. -/
def execRepairDone (site m : Nat) (e : LinkEnd) (seq : Nat) (w : List (List Nat)) (s : State) : Host.Outcome State Fault Refusal :=
  s.actDom (·.lmWhen site m e [4] 0x32 [seq] w fun a s =>
    let x := s.lk site m e
    if x.pause.isNone || x.pauseSeq % 256 != nthD a 0 0 then s
    else
      let s := s.modLk site m e fun x =>
        let x := { x with pause := none, copy := none, low := x.low ++ [x.pauseSeq / 256], mapSeq := nthD a 0 0 }
        match e with
        | .hub => { x with mapHd := x.pauseRec }
        | .die => { x with mapDh := x.pauseRec }
      let s := match e with
        | .hub => s.repairFinished site m
        | .die => s
      s.replay site m e)

/-- REPAIR_REQ_RESEND (R429): 500 ns without REPAIR_GO. -/
def execRepairReqResend (site m : Nat) (e : LinkEnd) (s : State) : Host.Outcome State Fault Refusal :=
  s.actDom fun s =>
    match (s.lk site m e).rep with
    | none => s
    | some r =>
      if r.sent + 500 ≤ s.time then
        (s.modLk site m e fun x => { x with rep := some { r with sent := s.time } }).lmSend site m e 0x30 [r.seq, r.record, r.lane]
      else s

/-- REPAIR_PAUSE_TIMEOUT (R429): the pause of a transmitting side reaches 2 us, and both sides retrain. -/
def execRepairPauseTimeout (site m : Nat) (e : LinkEnd) (s : State) : Host.Outcome State Fault Refusal :=
  s.actDom fun s =>
    match (s.lk site m e).pause with
    | none => s
    | some t => if t + 2000 ≤ s.time then (s.enterRetrain site m e).enterRetrain site m e.other else s

/-- MODULE_RETIRE_TIMER (R432, R435): 12 us outside ACTIVE and IDLE, with another module of the site up; the timer does not
run from RESET to the first ACTIVE (R670). -/
def execModuleRetireTimer (site m : Nat) (s : State) : Host.Outcome State Fault Refusal :=
  s.actDom fun s =>
    let x := s.lk site m .hub
    let other := [0, 1, 2, 3].any fun k => k != m && State.isUp (s.lk site k .hub).st
    if !State.isUp x.st && x.st != 0 && x.st != 7 && x.active && x.outSince + 12000 ≤ s.time && other then s.retireSide site m .hub
    else s

/-- RETIRE_SYNC (R433). -/
def execRetireSync (site m : Nat) (e : LinkEnd) (retired last : Nat) (w : List (List Nat)) (s : State) : Host.Outcome State Fault Refusal :=
  s.actDom fun s => if retired == m then s
    else s.lmWhen site m e [4] 0x38 [retired, last] w fun a s => s.retireSync site m e (nthD a 0 0) (bits (nthD a 1 0) 0 12)

/-- RETIRE_SYNC_REPEAT (R433): 200 ns without the partner's RETIRE_SYNC; one whose module is no longer ACTIVE goes to another. -/
def execRetireSyncRepeat (site m : Nat) (e : LinkEnd) (s : State) : Host.Outcome State Fault Refusal :=
  s.actDom fun s =>
    (s.lk site m e).retSync.foldl (fun s (k, q, t, got) =>
      if got || s.time < t + 200 then s
      else
        let on := if (s.lk site m e).st == 4 then some m else [0, 1, 2, 3].find? fun j => j != k && (s.lk site j e).st == 4
        match on with
        | none => s
        | some j =>
          let s := s.modLk site m e fun x => { x with retSync := Tab.del k x.retSync }
          (s.lmSend site j e 0x38 [k, q]).modLk site j e fun x => { x with retSync := Tab.put k (q, s.time, false) x.retSync }) s

/-- IDLE_ENTRY_START (R437). -/
def execIdleEntryStart (site m : Nat) (e : LinkEnd) (s : State) : Host.Outcome State Fault Refusal :=
  s.actDom fun s =>
    let x := s.lk site m e
    let en := match e with
      | .hub => s.flag (pgLNK site) (Fld.LNK_CTL_IDLE_EN m)
      | .die => true
    if en && s.idleReady site m e && x.idleReq.isNone && x.idleAck.isNone && x.lastUnit + s.idleThresh site e ≤ s.time then
      (s.modLk site m e fun x => { x with idleReq := some s.time }).lmSend site m e 0x40 []
    else s

/-- IDLE_REQ (R438): answered, or, where both requests cross, the hub's stands. -/
def execIdleReq (site m : Nat) (e : LinkEnd) (w : List (List Nat)) (s : State) : Host.Outcome State Fault Refusal :=
  s.actDom (·.lmWhen site m e [4] 0x40 [] w fun _ s =>
    match (s.lk site m e).idleReq, e with
    | some _, .hub => s.enterIdle site m .hub
    | some _, .die => s.modLk site m .die fun x => { x with idleReq := none, idleAck := some s.time }
    | none, _ =>
      if s.idleReady site m e then (s.lmSend site m e 0x41 []).modLk site m e fun x => { x with idleAck := some s.time }
      else s.lmSend site m e 0x42 [])

/-- IDLE_ACK (R439). -/
def execIdleAck (site m : Nat) (e : LinkEnd) (w : List (List Nat)) (s : State) : Host.Outcome State Fault Refusal :=
  s.actDom fun s => if (s.lk site m e).idleReq.isSome then s.lmWhen site m e [4] 0x41 [] w fun _ s => s.enterIdle site m e else s

/-- IDLE_NAK (R437). -/
def execIdleNak (site m : Nat) (e : LinkEnd) (w : List (List Nat)) (s : State) : Host.Outcome State Fault Refusal :=
  s.actDom (·.lmWhen site m e [4] 0x42 [] w fun _ s => s.modLk site m e fun x => { x with idleReq := none })

/-- IDLE_TIMEOUT (R439): 200 ns without an answer, or without CLK stopping. -/
def execIdleTimeout (site m : Nat) (e : LinkEnd) (s : State) : Host.Outcome State Fault Refusal :=
  s.actDom fun s =>
    let old := fun (t : Option Nat) => match t with
      | some t => if t + 200 ≤ s.time then none else some t
      | none => none
    s.modLk site m e fun x => { x with idleReq := old x.idleReq, idleAck := old x.idleAck }

/-- CLK_STOP_SEEN (R439): the answering side sees CLK stop. -/
def execClkStopSeen (site m : Nat) (e : LinkEnd) (s : State) : Host.Outcome State Fault Refusal :=
  s.actDom fun s => if (s.lk site m e).st == 4 && (s.lk site m e).idleAck.isSome then s.enterIdle site m e else s

/-- TRK_BEACON (R440): in IDLE a side toggles TRK, which its partner's monitor sees. -/
def execTrkBeacon (site m : Nat) (e : LinkEnd) (s : State) : Host.Outcome State Fault Refusal :=
  s.actDom fun s =>
    if (s.lk site m e).st != 5 then s
    else
      let s := s.modLk site m e fun x => { x with lastTx := s.time }
      if (s.lk site m e.other).st == 5 then s.modLk site m e.other fun x => { x with lastRx := s.time } else s

/-- RETRAIN_REQ (R442). -/
def execRetrainReq (site m : Nat) (e : LinkEnd) (w : List (List Nat)) (s : State) : Host.Outcome State Fault Refusal :=
  s.actDom (·.lmWhen site m e [4, 5] 0x50 [] w fun _ s => s.enterRetrain site m e)

/-- A write of LNK_CTL.RETRAIN (R442). -/
def State.lnkRetrain (s : State) (site m : Nat) : State :=
  if State.isUp (s.lk site m .hub).st then (s.lmSend site m .hub 0x50 []).enterRetrain site m .hub else s

/-- RETRAIN (R442). -/
def execRetrain (site m : Nat) (s : State) : Host.Outcome State Fault Refusal := s.actDom (·.lnkRetrain site m)

/-- LNK_ENABLE (R420). -/
def execLnkEnable (site m : Nat) (s : State) : Host.Outcome State Fault Refusal := s.actDom (·.enableModule site m)

/-- A partial reset of one side's PHY (R426): its applied map is cleared and its MAPSEQ 0, its link state stays; the side trains again. -/
def State.phyReset (s : State) (site m : Nat) (e : LinkEnd) : State :=
  (s.modLk site m e fun x => { x with width := 0, mapDh := 0, mapHd := 0, mapSeq := 0 }).enterRetrain site m e

/-- Some 64 consecutive UI in each of which what a lane shows differs from what R403 gives (R442). -/
def departs (seen : List Bool) (want : Nat → Bool) : Bool :=
  let wrong := (List.range seen.length).map fun u => nthD seen u false != want u
  (List.range (seen.length + 1 - 64)).any fun i => decide (64 ≤ seen.length) && ((wrong.drop i).take 64).all id

/-- CLK_LOST (R403, R442): what a receiver sees from a slot boundary on: whether CLK runs, which slots carry a frame, VLD and TRK by UI.
It loses CLK, or VLD or TRK departs for 64 consecutive UI. `phyReset`: the cause is a partial reset of the partner's PHY (R426). -/
def execClkLost (site m : Nat) (e : LinkEnd) (clk : Bool) (busy vld trk : List Bool) (phyReset : Bool) (s : State) :
    Host.Outcome State Fault Refusal :=
  s.actDom fun s =>
    let x := s.lk site m e
    let lost := !clk || departs vld (vldAt x.width fun k => nthD busy k false) || departs trk trkAt
    if x.st != 4 || !(lost || phyReset) then s
    else
      let s := if phyReset then s.phyReset site m e.other else s
      s.enterRetrain site m e

/-- SPARE_FAILED (R442): an unused spare lane of a side's receive direction shows `seen`; its errors against PRBS15 add up in the window,
and at LANE_THR the spare has failed and stays unused. -/
def execSpareFailed (site m : Nat) (e : LinkEnd) (k : Nat) (seen : List Bool) (s : State) : Host.Outcome State Fault Refusal :=
  s.actDom fun s =>
    let x := s.lk site m e
    if x.st != 4 || 4 ≤ k || bitN (State.rxRecord x e) (7 * k + 6) then s
    else
      let n := Tab.getD k 0 x.spareErr + prbsErrors seen
      let s := s.modLk site m e fun x => { x with spareErr := Tab.putD 0 k n x.spareErr }
      if n < s.laneThr site e then s
      else
        let bad := 2 ^ spareLane k
        (s.modLk site m e fun x => { x with thrFail := x.thrFail ||| bad }).noteRxFail site m e bad

end Sys2Proof.Machine
end

