-- ==== Sys2Proof/Machine/Die.lean ====
section
/-! DEFINITION. The die's side of coherence (R149 to R186, R301): line states, snoop answers and the hold rule, responses,
Nacks and retries. -/

namespace Sys2Proof.Machine

/-- A request that may move a line into the die's cache: RdShared, RdOwn, Upgrade (R179). -/
def isCaching (op : BitVec 7) : Bool := op == 0x01 || op == 0x02 || op == 0x03

namespace State

/-- A final response ends its request (R464). -/
def outEnd (s : State) (p : Pkt) : State :=
  if isDieNode p.dst && p.last then
    let site := siteOf p.dst
    (s.modSite site fun x => { x with outReq := x.outReq.erase (p.dst.toNat, p.txn.toNat) }).outUpd site
  else s

/-- A unit that the fabric still holds reaches the die only on a module of its site: the die has it (R121, R407), or it comes from outside
the model (log 3). -/
def atDie (s : State) (p : Pkt) : Bool :=
  match s.net.find? fun e => sameUnit e.p p with
  | none => true
  | some e => (match e.at_ with
    | .dlv i m => i == siteOf p.dst && decide (m < 4)
    | _ => false) && (s.queueOf e).head? == some e

/-- The die consumes a unit that a module has delivered: the link credits of its buffer are freed (R410). -/
def dieConsumes (s : State) (p : Pkt) : State :=
  match s.net.find? fun e => sameUnit e.p p with
  | none => s
  | some e => match e.at_ with
    | .dlv site m => ({ s with net := s.net.erase e }).linkFree site m .die p
    | _ => s

/-- The die takes a response: it leaves the link, and a final one ends its request. -/
def dieTakes (s : State) (p : Pkt) : State := (s.dieConsumes p).outEnd p

/-- The state of a line at a die; none is I (R149). -/
def dieLine (s : State) (site line : Nat) : Option DieLine := Tab.get? line (s.dieAt site).lines

/-- The line keeps its data and goes to another state at a die. -/
def moveDieLine (s : State) (site line : Nat) (st : LineSt) : State :=
  s.modDie site fun x => { x with lines := Tab.upd line (fun l => { l with st := st }) x.lines }

/-- A die has a unit to send on a module of its site; `dst` is where it is to go in the fabric. -/
def dieSend (s : State) (p : Pkt) (m : Nat) (dst : BitVec 8) : State :=
  { s with net := s.net ++ [⟨{ p with vc := vcOfOp p.op, dst := dst }, .die (siteOf p.src) m, s.time⟩] }

/-- A unit in which the die answers a snoop, on the module that received it (R167, R199). -/
def dieReply (s : State) (snp p : Pkt) (dst : BitVec 8) : State :=
  let n := s.dieNode (siteOf snp.dst) (moduleOf snp.dst)
  s.dieSend { p with src := n, txn := snp.txn, addr := snp.addr } (moduleOf n) dst

/-- The home of a snoop's line. -/
def snpHome (s : State) (snp : Pkt) : BitVec 8 := nodeHome (s.home (paOf snp.addr.toNat))

/-- A SnpAck (R167): RESULT and WP in SIZE/ATTR, FWD in header bit 120. -/
def snpAck (s : State) (snp : Pkt) (result : Nat) (wp fwd : Bool) : State :=
  s.dieReply snp { op := 0x43, src := snp.dst, size := BitVec.ofNat 3 (result + 4 * b2n wp), na := fwd } (s.snpHome snp)

/-- A WbSnp with the line's dirty data (R167, R199). -/
def wbSnp (s : State) (snp : Pkt) (result : Nat) (fwd : Bool) (l : DieLine) : State :=
  s.dieReply snp { op := 0x61, src := snp.dst, size := BitVec.ofNat 3 result, na := fwd, psn := l.psn, hasData := true, data := l.data, mask := BitVec.allOnes 64 }
    (s.snpHome snp)

/-- Data forwarded to the snoop's SRC (R184, R199). -/
def forward (s : State) (snp : Pkt) (op : BitVec 7) (l : DieLine) : State :=
  s.dieReply snp { op := op, src := snp.dst, psn := l.psn, hasData := true, data := l.data, mask := BitVec.allOnes 64 } snp.src

/-- A snoop whose SRC is a home is non-forwarding (R164). -/
def isForwarding (snp : Pkt) : Bool := !(0x40 ≤ snp.src.toNat && snp.src.toNat < 0x80)

/-- A die answers a snoop from the state of its line (R184, R185). -/
def dieAnswer (s : State) (p : Pkt) : State :=
  let site := siteOf p.dst
  let line := p.addr.toNat
  match s.dieLine site line with
  | none => s.snpAck p 0 false false
  | some l =>
    match p.op.toNat, l.st with
    | _, .sWP => s.snpAck p 0 true false
    | 0x20, .sS =>
      if isForwarding p then (s.dropDieLine site line).snpAck p 0 false false else s.snpAck p 1 false false
    | 0x20, .sL =>
      if isForwarding p then (((s.forward p 0x51 l).moveDieLine site line .sS).snpAck p 1 false true)
      else s.snpAck p 2 false false
    | 0x20, .sE =>
      if isForwarding p then (((s.forward p 0x51 l).moveDieLine site line .sS).snpAck p 1 false true)
      else (s.moveDieLine site line .sL).snpAck p 2 false false
    | 0x20, .sM =>
      if isForwarding p then (((s.forward p 0x51 l).moveDieLine site line .sS).wbSnp p 1 true l)
      else (s.moveDieLine site line .sL).wbSnp p 2 false l
    | 0x21, .sS => (s.dropDieLine site line).snpAck p 0 false false
    | 0x21, .sM => ((s.forward p 0x53 l).dropDieLine site line).snpAck p 0 false true
    | 0x21, _ => ((s.forward p 0x52 l).dropDieLine site line).snpAck p 0 false true
    | 0x22, .sM =>
      if p.size.getLsbD 0 then (s.dropDieLine site line).snpAck p 0 false false
      else (s.dropDieLine site line).wbSnp p 0 false l
    | 0x23, .sM => (s.dropDieLine site line).wbSnp p 0 false l
    | _, _ => (s.dropDieLine site line).snpAck p 0 false false

/-- A snoop must wait for a RdShared, RdOwn or Upgrade of the die on its line (R179, R180). -/
def mustHold (s : State) (p : Pkt) : Bool :=
  (s.dieAt (siteOf p.dst)).txns.any fun e => isCaching e.2.req.op && e.2.req.addr == p.addr

/-- A unit of the row's opcode is at its receiver: a home that does not serve it discards it (R193), and a die that has it goes on. -/
def dieRow (s : State) (op : BitVec 7) (p : Pkt) (f : State → State) : State :=
  if p.op != op then s
  else if (homeOfPkt p).isSome then (if s.arrived p then s.protoDrop p else s)
  else if isDieNode p.dst && s.atDie p then f s
  else s

/-- A die receives a snoop (R179, R184). -/
def dieSnoop (s : State) (op : BitVec 7) (p : Pkt) : State :=
  s.dieRow op p fun s =>
    let s := s.dieConsumes p
    if s.mustHold p then s.modDie (siteOf p.dst) fun x => { x with heldSnoops := x.heldSnoops ++ [p] }
    else s.dieAnswer p

/-- Answer the snoops a die held for a line once no transaction covers it (R179). -/
def releaseSnoops (s : State) (site line : Nat) : State :=
  let ready := (s.dieAt site).heldSnoops.filter fun p => p.addr.toNat == line && !s.mustHold p
  let s := s.modDie site fun x => { x with heldSnoops := x.heldSnoops.filter fun p => !ready.contains p }
  ready.foldl (fun s p => s.dieAnswer p) s

/-- The access that caused a request is performed: a store makes its line M (R149, R179, R264). -/
def dieStore (s : State) (site line : Nat) (st : Option Store) : State :=
  match st, s.dieLine site line with
  | some w, some l =>
    if l.st == .sE || l.st == .sM then s.setDieLine site line .sM (mergeLine l.data w.data w.mask) l.psn else s
  | _, _ => s

/-- The transaction a response answers at its die. -/
def dieTxnOf (s : State) (p : Pkt) : Option (Nat × DieTxn) :=
  let k := moduleOf p.dst * 4096 + p.txn.toNat
  (Tab.get? k (s.dieAt (siteOf p.dst)).txns).map fun t => (k, t)

/-- The request completes only with its data (R171); an Upgrade answered with Cmp was answered with data. -/
def readsData (t : DieTxn) : Bool :=
  let n := t.req.op.toNat
  n == 1 || n == 2 || n == 3 || n == 4 || n == 7

/-- Close a transaction that is complete (R171, R172): the access is performed, then the held snoops answered (R179). -/
def dieComplete (s : State) (site k : Nat) (t : DieTxn) (st : Option Store) : State :=
  if t.final && (!readsData t || t.gotData) then
    let line := t.req.addr.toNat
    let s := s.modDie site fun x => { x with txns := Tab.del k x.txns, retries := Tab.del line x.retries }
    let s := if isCaching t.req.op then s.dieStore site line st else s
    s.releaseSnoops site line
  else s.modDie site fun x => { x with txns := Tab.put k t x.txns }

/-- The line of a data message goes into the die's cache in a state, or a line the die holds goes to that state (R112, R186). -/
def putDieLine (s : State) (site line : Nat) (p : Pkt) (st : LineSt) : State :=
  if p.hasData then
    let (d, s) := s.lineTaken p
    s.setDieLine site line st d p.psn
  else s.moveDieLine site line st

/-- A data message or grant installs a line in a state (R186, R200). -/
def dieInstall (s : State) (op : BitVec 7) (p : Pkt) (ops : List Nat) (st : LineSt) (w : Option Store) : State :=
  s.dieRow op p fun s =>
    let site := siteOf p.dst
    match s.dieTxnOf p with
    | none => s.dieTakes p
    | some (k, t) =>
      let s := s.dieTakes p
      if !ops.contains t.req.op.toNat then s
      else (s.putDieLine site t.req.addr.toNat p st).dieComplete site k { t with gotData := true, final := t.final || p.last } w

/-- DataRd, or a Cmp without data to install, at a die (R171, R186). -/
def dieFinal (s : State) (p : Pkt) (data : Bool) (w : Option Store) : State :=
  let site := siteOf p.dst
  match s.dieTxnOf p with
  | none => s.dieTakes p
  | some (k, t) => (s.dieTakes p).dieComplete site k { t with final := true, gotData := t.gotData || data } w

/-- A Nack ends a transaction at a die (R173 to R177): CONFLICT, TRACKER, DIRSET and QOS leave a retry owed. -/
def dieNack (s : State) (p : Pkt) : State :=
  let site := siteOf p.dst
  match s.dieTxnOf p with
  | none => s.dieTakes p
  | some (k, t) =>
    let s := s.dieTakes p
    let line := t.req.addr.toNat
    let reason := bits p.addr.toNat 0 4
    let n := ((Tab.get? line (s.dieAt site).retries).map (·.nacks)).getD 0 + 1
    let r : Retry := { req := t.req, nacks := n, since := s.time }
    let again := 1 ≤ reason && reason ≤ 4
    let s := s.modDie site fun x =>
      { x with txns := Tab.del k x.txns
               retries := if again then Tab.put line r x.retries else Tab.del line x.retries }
    s.releaseSnoops site line

end State

open State in
/-- SNP_SHARE (R184). -/
def execSnpShare (p : Pkt) (s : State) : Host.Outcome State Fault Refusal := s.actDom (·.dieSnoop 0x20 p)
/-- SNP_OWN (R184). -/
def execSnpOwn (p : Pkt) (s : State) : Host.Outcome State Fault Refusal := s.actDom (·.dieSnoop 0x21 p)
/-- SNP_INV (R184). -/
def execSnpInv (p : Pkt) (s : State) : Host.Outcome State Fault Refusal := s.actDom (·.dieSnoop 0x22 p)
/-- SNP_BACK (R184). -/
def execSnpBack (p : Pkt) (s : State) : Host.Outcome State Fault Refusal := s.actDom (·.dieSnoop 0x23 p)
/-- DATA_S (R186): a RdShared takes the line in S. -/
def execDataS (p : Pkt) (w : Option Store) (s : State) : Host.Outcome State Fault Refusal := s.actDom (·.dieInstall 0x50 p [1] .sS w)
/-- DATA_L (R186): a RdShared takes the line in L. -/
def execDataL (p : Pkt) (w : Option Store) (s : State) : Host.Outcome State Fault Refusal := s.actDom (·.dieInstall 0x51 p [1] .sL w)
/-- DATA_E (R186): RdShared, RdOwn or Upgrade takes the line in E. -/
def execDataE (p : Pkt) (w : Option Store) (s : State) : Host.Outcome State Fault Refusal :=
  s.actDom (·.dieInstall 0x52 p [1, 2, 3] .sE w)
/-- DATA_M (R186): RdOwn or Upgrade takes the line in M. -/
def execDataM (p : Pkt) (w : Option Store) (s : State) : Host.Outcome State Fault Refusal := s.actDom (·.dieInstall 0x53 p [2, 3] .sM w)
/-- GRANT_UP (R186): an Upgrade moves the line from S or L to E. -/
def execGrantUp (p : Pkt) (w : Option Store) (s : State) : Host.Outcome State Fault Refusal := s.actDom (·.dieInstall 0x42 p [3] .sE w)
/-- WB_ACK (R186): an evicting die goes to I. -/
def execWbAck (p : Pkt) (s : State) : Host.Outcome State Fault Refusal :=
  s.actDom (·.dieRow 0x45 p fun s =>
    match s.dieTxnOf p with
    | none => s.dieTakes p
    | some (k, t) =>
      let site := siteOf p.dst
      let line := t.req.addr.toNat
      let s := (s.dieTakes p).modDie site fun x => { x with txns := Tab.del k x.txns, retries := Tab.del line x.retries }
      match s.dieLine site line with
      | some l => if l.st == .sWP && t.req.op == 0x60 then s.dropDieLine site line else s
      | none => s)

/-- RETRY_SEND (R174, R175, R178, R301): the die sends its owed request for a line again, on the module and TXN it used
before; an Upgrade may become a RdOwn. RSV is set after the fourth Nack. -/
def execRetrySend (site line : Nat) (asOwn : Bool) (s : State) : Host.Outcome State Fault Refusal :=
  s.actDom fun s =>
    match Tab.get? line (s.dieAt site).retries with
    | none => s
    | some r =>
      if !s.retryDue r then s
      else
        let op := if asOwn && r.req.op == 0x03 then 0x02 else r.req.op
        let p : Pkt := { r.req with op := op, rsv := decide (4 ≤ r.nacks), src := s.dieNode site (moduleOf r.req.src) }
        if !s.dieFree p then s
        else (s.modDie site fun x => { x with txns := Tab.put (dieTxnKey p) { req := p } x.txns }).dieSend p (moduleOf p.src) p.dst

/-- SILENT_DROP (R149): a die drops a line held in S. -/
def execSilentDrop (site line : Nat) (s : State) : Host.Outcome State Fault Refusal :=
  s.actDom fun s =>
    match s.dieLine site line with
    | some l => if l.st == .sS then s.dropDieLine site line else s
    | none => s

/-- DIE_WRITE (R149, R264): a die writes a line it holds in E or M. -/
def execDieWrite (site line : Nat) (w : Store) (s : State) : Host.Outcome State Fault Refusal :=
  s.actDom fun s => s.dieStore site line (some w)

end Sys2Proof.Machine
end

