-- ==== Sys2Proof/Machine/Power.lean ====
section
/-! DEFINITION. Power (R612 to R646): votes and targets, wakes, the states of the package, the slow inputs and their filter, the
power control loop, PWR_SET and the timebase messages. Rising and dropping of domains stands in Domain.lean. -/

namespace Sys2Proof.Machine

/-- Slow inputs (R641): 0 THROTTLE_N, 1 WAKE_N, 2 + e EMBER_FAULT_N[e], 6 + n PCIE_WAKE_N[n]. -/
def pinThr : Nat := 0
def pinWake : Nat := 1
def pinEmb (e : Nat) : Nat := 2 + e
def pinPcie (n : Nat) : Nat := 6 + n

/-- Rise time of a domain in ns (R612). -/
def riseTime (d : Nat) : Nat :=
  if d < 16 then 200000 else if d < 28 then 100000 else if d < 40 then 20000 else if d < 42 then 100000
  else if d < 49 then 50000 else 10000

/-- Slots of a vote that count for its domain (R616). -/
def countingSlots (d : Nat) : List Nat :=
  if d < 36 then List.range 8 else List.range 10 ++ (List.range 16).map (· + 16)

/-- `a` divided by `b`, rounded up. -/
def ceilDiv (a b : Nat) : Nat := (a + b - 1) / b

namespace State

def pin (s : State) (i : Nat) : Pin := Tab.getD i {} s.power.pins
def modPin (s : State) (i : Nat) (f : Pin → Pin) : State :=
  { s with power := { s.power with pins := Tab.put i (f (s.pin i)) s.power.pins } }
def modPower (s : State) (f : Power → Power) : State := { s with power := f s.power }

/-! ### Package states (R623 to R627) -/

/-- Number of the first wake source of a kind in the record of a lost wake (log 29). -/
def wakeMatchSrc (n : Nat) : Nat := n
def wakeTimeSrc : Nat := 4
def wakeUnitSrc : Nat := 5

/-- The POWER record of a source (R698). -/
def recPower (s : State) (cls sub src word : Nat) : State :=
  s.record { typ := 0x12, cls := cls, source := src, page := pgPWR, sub := sub, words := [word] }

/-- An edge wake is lost (R621). -/
def wakeLost (s : State) (w : Nat) : State :=
  ((s.count pgPWR Fld.WAKE_LOST_CNT_COUNT).status pgPWR Fld.PWR_STAT_WAKE_LOST srcWakeLost).recPower 3 0 srcWakeLost w

/-- A wake leaves Banked, or stops its entry (R620, R626, R627). In the commit window an edge wake is lost and a level wake
takes effect at its end. -/
def leaveBanked (s : State) (edge : Bool) (w : Nat) : State :=
  match s.get pgPWR Fld.PWR_STAT_STATE with
  | 1 =>
    if s.power.bank == 3 then (if edge then s.wakeLost w else s.modPower fun p => { p with level := true })
    else s.bankAbort
  | 2 => (s.put pgPWR Fld.PWR_STAT_STATE 3).modPower fun p => { p with exitSince := s.time }
  | _ => s

/-! ### Votes (R614 to R618) -/

/-- The slots of a domain's vote register. -/
def votes (s : State) (d : Nat) : Nat :=
  s.get pgPWR (Fld.VOTE_SLOT_LO d) + 2 ^ 16 * s.get pgPWR (Fld.VOTE_SLOT_HI d)

/-- The target of a domain (R616). -/
def voteTarget (s : State) (d : Nat) : Bool := (countingSlots d).any fun j => bitN (s.votes d) j

/-- Enter a state of a domain. -/
def domGo (s : State) (d st : Nat) : State :=
  (s.put pgPWR (Fld.DOM_STAT_STATE d) st).modPower fun p => { p with domSince := Tab.put d s.time p.domSince }

/-- The target follows the votes (R616); a target ON abandons a drop in DRAIN (R618). -/
def retarget (s : State) (d : Nat) : State :=
  let t := s.voteTarget d
  let s := s.put pgPWR (Fld.DOM_STAT_TARGET d) (b2n t)
  if t && s.domState d == 3 then (s.domGo d 2).bumpMod pgPWR (Fld.DOM_STAT_ABANDONS d) else s

/-- An enabled level wake is asserted (R620). -/
def levelWake (s : State) : Bool :=
  ((s.pin pinWake).filt && s.flag pgPWR Fld.WAKE_EN_PIN) ||
  (List.range 6).any fun n => (s.pin (pinPcie n)).filt && bitN (s.get pgPWR Fld.WAKE_EN_PCIE) n

/-- A level wake of a PCIe group holds slot 9 of its domain (R622). -/
def levelHold (s : State) (d : Nat) : State :=
  if 43 ≤ d && d ≤ 48 && (s.pin (pinPcie (d - 43))).filt && bitN (s.get pgPWR Fld.WAKE_EN_PCIE) (d - 43) then
    s.put pgPWR (Fld.VOTE_SLOT_LO d) (setBits (s.get pgPWR (Fld.VOTE_SLOT_LO d)) 9 1 1)
  else s

/-- Set the slots of a domain that `mask` names; slots 10 to 15 are reserved (R614), and Smith firmware, which alone changes slots 0 to 7,
sets none of an unpopulated site (R3; log 151). A vote that makes a target ON leaves Banked (R620). -/
def setVotes (s : State) (d v mask : Nat) : State :=
  if 50 ≤ d then s
  else
    let absent := d < 16 && !bitN s.pop d
    let new := maskOf ((List.range 32).filter fun j => (j < 10 || 16 ≤ j) && !(absent && j < 8) &&
      (if bitN mask j then bitN v j else bitN (s.votes d) j))
    let s := (s.put pgPWR (Fld.VOTE_SLOT_LO d) (new % 2 ^ 10)).put pgPWR (Fld.VOTE_SLOT_HI d) (new / 2 ^ 16)
    let was := s.flag pgPWR (Fld.DOM_STAT_TARGET d)
    let s := (s.levelHold d).retarget d
    if s.flag pgPWR (Fld.DOM_STAT_TARGET d) && !was then s.leaveBanked true wakeUnitSrc else s

/-- Smith firmware sets or clears one slot. -/
def setSlot (s : State) (d j : Nat) (on : Bool) : State := s.setVotes d (b2n on * 2 ^ j) (2 ^ j)

/-- WAKE_EN is written (R620, R622): a level wake that stands and becomes enabled takes effect. -/
def wakeEnabled (s : State) : State :=
  let s := if s.levelWake then s.leaveBanked false 0 else s
  forAll (List.range 6) (fun n s => (s.levelHold (43 + n)).retarget (43 + n)) s

/-- The wake logic sets slot 9 of a domain. -/
def wakeVote (s : State) (d : Nat) : State :=
  (s.put pgPWR (Fld.VOTE_SLOT_LO d) (setBits (s.get pgPWR (Fld.VOTE_SLOT_LO d)) 9 1 1)).retarget d

/-- An edge wake of a domain (R620, R621, R626): its slot 9 is set and Banked is left. It is lost in the commit window of Banked entry;
its slot is not set while the domain's drop is in COMMIT. -/
def edgeWake (s : State) (w d : Nat) : State :=
  if s.get pgPWR Fld.PWR_STAT_STATE == 1 && s.power.bank == 3 then s.wakeLost w
  else
    let s := s.leaveBanked true w
    if 50 ≤ d then s else if s.domState d == 5 then s.wakeLost w else s.wakeVote d

/-- The slots a die-link node may change (R615). -/
def hostSlots : Nat := maskOf ([8, 9] ++ (List.range 16).map (· + 16))

/-! ### PWR_SET (R636, R637, R642) -/

/-- The common ceiling in force: FCEIL, or FCAP before the first control period (log 27). -/
def fceil (s : State) : Nat :=
  let f := s.get pgPWR Fld.LOOP_STAT_FCEIL
  if f == 0 then s.get pgPWR Fld.PWR_LIMIT_FCAP else f

/-- Filtered THROTTLE_N is asserted. -/
def throttled (s : State) : Bool := (s.pin pinThr).filt

/-- FMAX as it stands for every site (R638, R642). -/
def fmaxNow (s : State) : Nat :=
  if s.throttled then min s.fceil (s.get pgPWR Fld.PWR_FLOOR_FLOOR) else s.fceil

/-- A field of a site's Datum block (R449, R479): `n` bytes from byte `off`. -/
def datumField (s : State) (site off n : Nat) : Nat :=
  ((List.range n).map fun i =>
    bits (s.reg (pgSITE site) (Reg.DATUM ((off + i) / 4))) (8 * ((off + i) % 4)) 8 * 2 ^ (8 * i)).sum

/-- IMAX of a PWR_SET, in units of 0.1 A (R636): the die's declared IMAX in A (R449) times FMAX over FCAP, rounded up. -/
def imaxFor (s : State) (site fmax : Nat) : Nat :=
  ceilDiv (10 * s.datumField site 30 2 * fmax) (s.get pgPWR Fld.PWR_LIMIT_FCAP)

/-- Send a PWR_SET to an admitted site that has an ACTIVE module (R636). -/
def pwrSend (s : State) (site : Nat) : State :=
  match s.lowActive site with
  | none => s
  | some m =>
    if !s.admitted site then s
    else
      let f := s.fmaxNow
      let seq := s.power.setSeq % 256
      let x : PwrSet := { seq := seq, fmax := f, imax := s.imaxFor site f, first := s.time, last := s.time }
      let s := s.modPower fun p => { p with sets := Tab.put site x p.sets, setSeq := p.setSeq + 1 }
      let s := (s.put pgPWR (Fld.SITE_FMAX_FMAX site) f).put pgPWR (Fld.SITE_FMAX_ACKED site) 0
      s.lmSend site m .hub 0x61 [seq, f, x.imax]

/-- Send PWR_SET to every admitted site whose FMAX is not the one it was last sent (R636, R638). -/
def pwrSendAll (s : State) : State :=
  forAll (List.range 16) (fun site s =>
    let same := match Tab.get? site s.power.sets with
      | some x => x.fmax == s.fmaxNow && x.imax == s.imaxFor site s.fmaxNow
      | none => false
    if same then s else s.pwrSend site) s

/-- A PWR_SET has not been answered within 10 us (R637). -/
def pwrLate (s : State) (site : Nat) : State :=
  match Tab.get? site s.power.sets with
  | none => s
  | some x =>
    if x.late then s
    else
      let s := s.modPower fun p => { p with sets := Tab.put site { x with late := true } p.sets }
      (s.status pgPWR Fld.PWR_STAT_PWRSET_LATE srcPwrsetLate).recPower 3 2 srcPwrsetLate site

/-! ### The slow inputs (R641) -/

/-- The counter of a slow input's raw falling edges. -/
def pinCounter (i : Nat) : FRef :=
  if i == 0 then Fld.THR_EDGES_COUNT
  else Fld.PIN_EDGES_COUNT (i - 1)

/-- The filter lets the input become asserted (R641): 1 us after a raw fall, or at a fall that came less than 2 us after
the one before. -/
def pinMayAssert (s : State) (i : Nat) : Bool :=
  let x := s.pin i
  !x.filt && (match x.fall with
    | none => false
    | some t => x.quick || decide (t + 1000 ≤ s.time))

/-- The filter lets the input become deasserted (R641): no raw fall in the last 2 us. -/
def pinMayDeassert (s : State) (i : Nat) : Bool :=
  let x := s.pin i
  x.filt && (match x.fall with
    | none => true
    | some t => decide (t + 2000 ≤ s.time))

def pinAssert (s : State) (i : Nat) : State := s.modPin i fun x => { x with filt := true, since := s.time, noted := false }
def pinDeassert (s : State) (i : Nat) : State := s.modPin i fun x => { x with filt := false, quick := false, noted := false }

end State

/-- RAW_FALLING_EDGE (R641): a raw falling edge of slow input `i` (0 THROTTLE_N, 1 WAKE_N, 2 to 5 EMBER_FAULT_N, 6 to 11
PCIE_WAKE_N). -/
def execRawFallingEdge (i : Nat) (s : State) : Host.Outcome State Fault Refusal :=
  s.act fun s =>
    if 12 ≤ i then s
    else
      let quick := match (s.pin i).fall with
        | none => false
        | some t => decide (s.time < t + 2000)
      (s.count pgPWR (State.pinCounter i)).modPin i fun x => { x with fall := some s.time, quick := quick }

/-- THROTTLE_ASSERT (R642): filtered THROTTLE_N asserts; the PWR block sends every admitted site at most FLOOR, in hardware. -/
def execThrottleAssert (s : State) : Host.Outcome State Fault Refusal :=
  s.act fun s =>
    if s.pinMayAssert pinThr then
      (((s.pinAssert pinThr).put pgPWR Fld.PWR_STAT_THR 1).bump pgPWR 0x080).pwrSendAll
    else s

/-- THROTTLE_DEASSERT (R642). -/
def execThrottleDeassert (s : State) : Host.Outcome State Fault Refusal :=
  s.act fun s =>
    if s.pinMayDeassert pinThr then ((s.pinDeassert pinThr).put pgPWR Fld.PWR_STAT_THR 0).pwrSendAll else s

/-- THROTTLE_LONG (R643): filtered THROTTLE_N has been asserted for 1 s. -/
def execThrottleLong (s : State) : Host.Outcome State Fault Refusal :=
  s.act fun s =>
    let x := s.pin pinThr
    if x.filt && !x.noted && x.since + 1000000000 ≤ s.time then
      ((s.modPin pinThr fun x => { x with noted := true }).status pgPWR Fld.PWR_STAT_THR_LONG srcThrLong).recPower 3 3 srcThrLong 0
    else s

/-- WAKE_N_ASSERT (R620): filtered WAKE_N asserts, a level wake. -/
def execWakeNAssert (s : State) : Host.Outcome State Fault Refusal :=
  s.act fun s =>
    if s.pinMayAssert pinWake then
      let s := (s.pinAssert pinWake).put pgPWR Fld.PWR_STAT_WAKE 1
      if s.flag pgPWR Fld.WAKE_EN_PIN then s.leaveBanked false 0 else s
    else s

/-- WAKE_N_DEASSERT (R644). -/
def execWakeNDeassert (s : State) : Host.Outcome State Fault Refusal :=
  s.act fun s =>
    if s.pinMayDeassert pinWake then (s.pinDeassert pinWake).put pgPWR Fld.PWR_STAT_WAKE 0 else s

/-- WAKE_STUCK (R644): filtered WAKE_N has been asserted for 1 s. -/
def execWakeStuck (s : State) : Host.Outcome State Fault Refusal :=
  s.act fun s =>
    let x := s.pin pinWake
    if x.filt && !x.noted && x.since + 1000000000 ≤ s.time then
      ((s.modPin pinWake fun x => { x with noted := true }).status pgPWR Fld.PWR_STAT_WAKE_STUCK srcWakeStuck).recPower 3 4 srcWakeStuck 0
    else s

/-- PCIE_WAKE_ASSERT (R620, R622): filtered PCIE_WAKE_N of group `n` asserts. -/
def execPcieWakeAssert (n : Nat) (s : State) : Host.Outcome State Fault Refusal :=
  s.act fun s =>
    if n < 6 && s.pinMayAssert (pinPcie n) then
      let s := s.pinAssert (pinPcie n)
      if bitN (s.get pgPWR Fld.WAKE_EN_PCIE) n then (s.leaveBanked false 0).wakeVote (43 + n) else s
    else s

/-- PCIE_WAKE_DEASSERT (R622). -/
def execPcieWakeDeassert (n : Nat) (s : State) : Host.Outcome State Fault Refusal :=
  s.act fun s => if n < 6 && s.pinMayDeassert (pinPcie n) then s.pinDeassert (pinPcie n) else s

/-- A frame with a good FCS is a wake match for a MAC address (R620): it is addressed to it, and its payload holds six bytes of 0xFF followed
by sixteen copies of the address. -/
def wakeFrame (fr : Frame) (mac : List Byte) : Bool :=
  let magic : List Byte := List.replicate 6 0xFF ++ (List.replicate 16 mac).flatten
  fr.fcs && decide (fr.data.take 6 = mac) && (List.range fr.data.length).any fun i => 14 ≤ i && decide (slice fr.data i 102 = magic)

/-- WAKE_MATCH (R620): port `n`, with its domain on, receives a frame, which is a wake match for one of its interfaces. -/
def execWakeMatch (n : Nat) (fr : Frame) (s : State) : Host.Outcome State Fault Refusal :=
  s.act fun s =>
    if n < 4 && s.domOn (36 + n) && ((List.range 4).any fun k => wakeFrame fr (bytesOf (Config.portMac (4 * n + k)).toNat 6)) && bitN (s.get pgPWR Fld.WAKE_EN_PORT) n then s.edgeWake (State.wakeMatchSrc n) 42 else s

/-- TIME_CMP (R620): TIME has reached CMP while EN is set. -/
def execTimeCmp (s : State) : Host.Outcome State Fault Refusal :=
  s.act fun s =>
    let pg := pgTIME
    if s.flag pg Fld.TIME_CMP_CTL_EN && s.reg pg Reg.TIME_CMP_LO + 2 ^ 32 * s.reg pg Reg.TIME_CMP_HI ≤ s.time then
      let s := (s.status pg Fld.TIME_CMP_CTL_HIT srcTimeCmp).put pg Fld.TIME_CMP_CTL_EN 0
      if s.flag pg Fld.TIME_CMP_CTL_WAKE then s.edgeWake State.wakeTimeSrc (s.get pg Fld.TIME_CMP_CTL_DOM) else s
    else s

/-- The power control loop starts its next period no earlier than this (R639). -/
def State.periodStart (s : State) : Nat :=
  max (50000 * s.power.period) (match s.power.lastStart with
    | none => 0
    | some t => t + 25000)

/-- A memory stack reads above its throttle temperature (R638, R755). -/
def State.stackHot (s : State) : Bool := (List.range 12).any fun i => decide (95 < s.get (pgSTK i) Fld.STK_TEMP_TEMP)

/-- POWER_PERIOD (R638, R639): a control period of Smith firmware. `energy` is what the rail monitors accumulated since the
previous period, in uJ; `hot` says that a hub, site or engine sensor reads above its throttle temperature. -/
def execPowerPeriod (energy : Nat) (hot : Bool) (s : State) : Host.Outcome State Fault Refusal :=
  s.act fun s =>
    let el := s.time - s.power.lastStart.getD (50000 * (s.power.period - 1))
    if !s.smith.running || s.time < s.periodStart || el == 0 then s
    else
      let pg := pgPWR
      let lag := (s.time - 50000 * s.power.period) / 1000
      let s := s.put pg Fld.LOOP_STAT_LAG (min lag 0xFFFF)
      let s := if 50000 * s.power.period < s.time then s.raise1 pg Fld.PWR_STAT_LOOP_LATE else s
      let s := s.modPower fun p => { p with period := p.period + 1, lastStart := some s.time }
      let s := (s.put pg Fld.PKG_POWER_POWER (min (energy * 10000 / el) 0xFFFF)).bump pg 0x082 energy
      let lim := s.get pg Fld.PWR_LIMIT_PLIMIT
      let f := s.fceil
      let e := energy * 1000
      let f' :=
        if lim * el < e || hot || s.stackHot then f - max 25 (25 * ceilDiv (f * (e - lim * el)) (25 * lim * el))
        else if 100 * e < 97 * lim * el then f + 25 else f
      let f' := max (s.get pg Fld.PWR_FLOOR_FLOOR) (min f' (s.get pg Fld.PWR_LIMIT_FCAP))
      let s := s.put pg Fld.LOOP_STAT_FCEIL f'
      s.pwrSendAll

/-- PWR_SET (R636): a die receives PWR_SET, applies FMAX and IMAX and answers PWR_ACK. -/
def execPwrSet (site m seq fmax imax : Nat) (w : List (List Nat)) (s : State) : Host.Outcome State Fault Refusal :=
  s.actDom (·.lmWhen site m .die [4] 0x61 [seq, fmax, imax] w fun a s =>
    (s.modDie site fun x => { x with fmax := nthD a 1 0, imax := nthD a 2 0 }).lmSend site m .die 0x62 [nthD a 0 0])

/-- A PWR_ACK with this sequence number reaches Smith firmware (R637). -/
def State.pwrAcked (s : State) (site seq : Nat) : State :=
  match Tab.get? site s.power.sets with
  | none => s
  | some x =>
    if x.seq != seq || x.acked then s
    else
      let s := if x.first + 10000 < s.time then s.pwrLate site else s
      let s := s.modPower fun p => { p with sets := Tab.upd site (fun x => { x with acked := true }) p.sets }
      s.put pgPWR (Fld.SITE_FMAX_ACKED site) 1

/-- PWR_ACK (R637). -/
def execPwrAck (site m seq : Nat) (w : List (List Nat)) (s : State) : Host.Outcome State Fault Refusal :=
  s.act (·.lmWhen site m .hub [4] 0x62 [seq] w fun a s => s.pwrAcked site (nthD a 0 0))

/-- PWR_ACK_TIMEOUT (R637): more than 10 us without a PWR_ACK; the frame goes again every 10 us. -/
def execPwrAckTimeout (site : Nat) (s : State) : Host.Outcome State Fault Refusal :=
  s.act fun s =>
    match Tab.get? site s.power.sets with
    | none => s
    | some x =>
      if x.acked || s.time ≤ x.last + 10000 || !s.smith.running then s
      else
        let s := s.pwrLate site
        match s.lowActive site with
        | none => s
        | some m =>
          let s := s.modPower fun p => { p with sets := Tab.upd site (fun x => { x with last := s.time }) p.sets }
          s.lmSend site m .hub 0x61 [x.seq, x.fmax, x.imax]

/-- TIME_SYNC (R634, R635): LNK sends TIME_SYNC to a site, and the die receives it and keeps T and D. -/
def execTimeSync (site m t d : Nat) (w : List (List Nat)) (s : State) : Host.Outcome State Fault Refusal :=
  s.actDom fun s =>
    let due := (s.lk site m .hub).outbox.any fun l => l.lm.code == 0x60
    let s := if due || s.time < (s.siteAt site).lastSync + 1000000 * s.get pgTIME Fld.TIME_CFG_SYNC_MS then s else s.timeSync site
    if (s.lk site m .hub).outbox.any fun l => l.lm == ⟨0x60, [t, d]⟩ then
      s.lmWhen site m .die [4] 0x60 [t, d] w fun a s => s.modDie site fun x => { x with sync := some (nthD a 0 0, nthD a 1 0) }
    else s

/-- ROOT_PLL_LOSS_OF_LOCK (R632): a fatal error, left only by cold reset. -/
def execRootPllLossOfLock (s : State) : Host.Outcome State Fault Refusal :=
  s.act fun s =>
    let pg := pgCLK
    let s := ((s.put pg Fld.CLK_STAT_ROOT_LOCK 0).count pg Fld.CLK_LOL_CNT_COUNT).status pg Fld.CLK_STAT_ROOT_LOL srcRootLol
    let s := (s.record { typ := 0x12, cls := 4, source := srcRootLol, page := pg, sub := 1, words := [0] }).fatal srcRootLol
    { s with alert := { s.alert with pll := true } }

/-- VOTE_WRITE (R615): a write of `data` to PWR.VOTE[d]; from a die-link node (`host`) it changes slots 8, 9 and 16 to 31. -/
def execVoteWrite (d data : Nat) (host : Bool) (s : State) : Host.Outcome State Fault Refusal :=
  s.act fun s => s.setVotes d data (if host then State.hostSlots else 2 ^ 32 - 1)

end Sys2Proof.Machine
end

