-- ==== Sys2Proof/Machine/Events.lean ====
section
/-! DEFINITION. Events (R682 to R695): sources, pending bits, masks and routes, interrupt messages to cores, storm control. -/

namespace Sys2Proof.Machine

/-- A bit that a row of R682 assigns; the others never fire. -/
def srcAssigned (n : Nat) : Bool :=
  let g := n / 32
  let b := n % 32
  if g == 0 then b < 18 else if g == 1 then b < 5
  else if g ≤ 9 then b % 16 < 10
  else if g ≤ 25 then true
  else if g == 26 then b < 8
  else if g ≤ 32 then b % 8 < 5
  else if g ≤ 35 then b % 8 < 3
  else if g == 36 then b < 5 || (8 ≤ b && b < 20)
  else if g == 37 then b % 8 < 6
  else if g ≤ 39 then b < 30
  else g ≤ 63

/-- Storm control applies to the source (R695). -/
def stormable (n : Nat) : Bool := n < 1280 && n != srcRootLol && n != srcThermtrip && n != srcFAB 0

namespace State

/-! ### Interrupt messages (R688 to R692) -/

/-- An interrupt message is discarded: counted and recorded (R690). -/
def msgDrop (s : State) (page core vector : Nat) : State :=
  let s := (s.count pgEVT Fld.EVT_MSG_DROP_CNT_COUNT).status pgEVT Fld.EVT_STAT_MSG_DROP srcMsgDrop
  s.record { typ := 0x15, cls := 3, source := srcMsgDrop, page := page, words := [core % 1024 + vector % 4096 * 1024] }

/-- The checks of R690 on a message for a core: assigned under R28, at an admitted site. -/
def coreOk (s : State) (c : Nat) : Bool :=
  c < 512 && s.admitted (c / 32) && !s.fenced (c / 32) && decide (c % 32 < s.get (pgSITE (c / 32)) Fld.TRAV_RESULT_CORES)

/-- LNK[s] sends the messages that wait (R691, R692), in order, while fewer than 8 are unacknowledged; with no module ACTIVE
it wakes the lowest IDLE one, or the package from Banked. -/
def intrPump (s : State) (site : Nat) : State :=
  if !((s.siteAt site).intr.any fun x => x.seq.isNone) then s
  else if s.get pgPWR Fld.PWR_STAT_STATE == 1 || s.banked then s.leaveBanked true wakeUnitSrc
  else
    let s := match s.lowActive site, [0, 1, 2, 3].find? fun m => (s.lk site m .hub).st == 5 with
      | none, some m => s.wakeModule site m
      | _, _ => s
    match s.lowActive site with
    | none => s
    | some m =>
      forAll (List.range 8) (fun _ s =>
        let x := s.siteAt site
        if 8 ≤ (x.intr.filter (·.seq.isSome)).length then s
        else match x.intr.findIdx? (·.seq.isNone) with
          | none => s
          | some i =>
            let msg := nthD x.intr i { core := 0, vector := 0, since := 0, seq := none }
            let q := x.intrSeq % 256
            let s := s.modSite site fun x =>
              { x with intrSeq := x.intrSeq + 1, intr := modNth x.intr i fun y => { y with seq := some q, sent := s.time } }
            s.lmSend site m .hub 0x64 [q, msg.core % 32, msg.vector]) s

/-- LNK[s] takes a message for a core of its site (R689 to R691). -/
def intrQueue (s : State) (core vector : Nat) : State :=
  let site := core / 32
  (s.modSite site fun x =>
    { x with intr := x.intr ++ [{ core := core, vector := vector % 4096, since := s.time, seq := none }] }).intrPump site

/-- The EVT block sends one message for a group (R685, R690). -/
def groupMsg (s : State) (g : Nat) : State :=
  let core := s.get pgEVT (Fld.EVT_ROUTE_CORE g)
  let vec := s.get pgEVT (Fld.EVT_ROUTE_VECTOR g)
  if s.coreOk core then s.intrQueue core vec else s.msgDrop pgEVT core vec

/-- The pending bits of a group that hold a message back for nothing (R685). -/
def eligible (s : State) (g : Nat) : Nat :=
  if s.flag pgEVT (Fld.EVT_ROUTE_EN g) then
    maskOf ((List.range 32).filter fun b => bitN (s.reg pgEVT (Reg.EVT_PEND g)) b &&
      !bitN (s.reg pgEVT (Reg.EVT_MASK g)) b && !bitN (s.reg pgEVT (Reg.EVT_STORM g)) b)
  else 0

/-- Some bit of `new` is not in `old`. -/
def gained (old new : Nat) : Bool := (List.range 32).any fun b => bitN new b && !bitN old b

/-- Storm control counts a firing (R693, R694). -/
def stormCount (s : State) (n : Nat) : State :=
  if !stormable n then s
  else match Tab.get? n s.storm.on with
    | some (t, k) => { s with storm := { s.storm with on := Tab.put n (t, k.map (· + 1)) s.storm.on } }
    | none =>
      let w := 100000 * s.get pgEVT Fld.EVT_STORM_CFG_WINDOW
      let (t, k) := match Tab.get? n s.storm.win with
        | some (t, k) => if s.time < t + w then (t, k + 1) else (s.time, 1)
        | none => (s.time, 1)
      if k ≤ s.get pgEVT Fld.EVT_STORM_CFG_COUNT then
        { s with storm := { s.storm with win := Tab.put n (t, k) s.storm.win } }
      else
        let g := n / 32
        let counted := (s.storm.on.filter fun e => e.2.2.isSome).length
        let s := { s with storm := { win := Tab.del n s.storm.win,
                                     on := Tab.put n (s.time, if counted < 64 then some 1 else none) s.storm.on } }
        let s := s.setReg pgEVT (Reg.EVT_STORM g) (setBits (s.reg pgEVT (Reg.EVT_STORM g)) (n % 32) 1 1)
        let s := { s with recs := s.recs ++ [({ typ := 0x16, cls := 0, source := n, page := pgEVT } : Rec)] }
        s.status pgEVT Fld.EVT_STAT_STORM srcEvtStorm

/-- A source fires (R684, R685): the copy to Smith firmware, storm control, EVT_PEND, the message. -/
def eventFire (s : State) (n : Nat) : State :=
  if !srcAssigned n then s
  else
    let g := n / 32
    let s := { s with raised := s.raised.erase n, smith := { s.smith with copies := s.smith.copies ++ [n] } }
    let was := s.eligible g
    let s := s.stormCount n
    let s := s.setReg pgEVT (Reg.EVT_PEND g) (setBits (s.reg pgEVT (Reg.EVT_PEND g)) (n % 32) 1 1)
    if gained was (s.eligible g) then s.groupMsg g else s

/-- A write of `data` in bits of `mask` to a register of EVT_MASK, EVT_PEND or EVT_ROUTE (R68, R70, R687): one message
where it makes a pending bit eligible. -/
def evtWrite (s : State) (off data mask : Nat) : State :=
  let g := (off % 0x100) / 4
  let was := s.eligible g
  let cur := s.reg pgEVT off
  let pick := fun (v : Nat → Bool) => maskOf ((List.range 32).filter v)
  let s :=
    if Reg.EVT_MASK 0 ≤ off && off < Reg.EVT_MASK 64 then
      s.setReg pgEVT off (pick fun i => if bitN mask i then bitN data i else bitN cur i)
    else if Reg.EVT_PEND 0 ≤ off && off < Reg.EVT_PEND 64 then
      s.setReg pgEVT off (pick fun i => bitN cur i && !(bitN mask i && bitN data i))
    else if Reg.EVT_ROUTE 0 ≤ off && off < Reg.EVT_ROUTE 64 then
      s.setReg pgEVT off (pick fun i => (i ≤ 21 || i == 31) && (if bitN mask i then bitN data i else bitN cur i))
    else s
  if gained was (s.eligible g) then s.groupMsg g else s

/-- A write of EVT_SW_TRIG (R682, R711). -/
def swTrig (s : State) (n : Nat) : State := if n < 1280 then s.accErr0 pgEVT else s.fire n

end State

/-- EVENT_FIRE (R684). -/
def execEventFire (n : Nat) (s : State) : Host.Outcome State Fault Refusal := s.act (·.eventFire n)

/-- STORM_END (R694): HOLDOFF has elapsed since the source's storm began. -/
def execStormEnd (n : Nat) (s : State) : Host.Outcome State Fault Refusal :=
  s.act fun s =>
    match Tab.get? n s.storm.on with
    | none => s
    | some (t, k) =>
      if s.time < t + 1000000 * s.get pgEVT Fld.EVT_STORM_CFG_HOLDOFF then s
      else
        let g := n / 32
        let was := s.eligible g
        let s := { s with storm := { s.storm with on := Tab.del n s.storm.on } }
        let s := s.setReg pgEVT (Reg.EVT_STORM g) (setBits (s.reg pgEVT (Reg.EVT_STORM g)) (n % 32) 1 0)
        let s := s.record { typ := 0x17, cls := 0, source := n, page := pgEVT, words := [k.getD 0xFFFFFFFF] }
        if State.gained was (s.eligible g) then s.groupMsg g else s

/-- STORM_WINDOW_END (R693): the window of a source ends without a storm. -/
def execStormWindowEnd (n : Nat) (s : State) : Host.Outcome State Fault Refusal :=
  s.act fun s =>
    match Tab.get? n s.storm.win with
    | none => s
    | some (t, _) =>
      if t + 100000 * s.get pgEVT Fld.EVT_STORM_CFG_WINDOW ≤ s.time then
        { s with storm := { s.storm with win := Tab.del n s.storm.win } }
      else s

/-- EVT_SW_TRIG (R682): a write of SOURCE. -/
def execEvtSwTrig (source : Nat) (s : State) : Host.Outcome State Fault Refusal := s.act (·.swTrig (source % 2048))

/-- EVT_MASK_WRITE (R687): a write to a register of EVT_MASK, EVT_PEND or EVT_ROUTE. -/
def execEvtMaskWrite (off data : Nat) (s : State) : Host.Outcome State Fault Refusal :=
  s.act (·.evtWrite off data (2 ^ 32 - 1))

/-- INTERRUPT_MESSAGE (R689): LNK[s] consumes a device write to the message window. -/
def execInterruptMessage (p : Pkt) (s : State) : Host.Outcome State Fault Refusal :=
  s.act fun s =>
    let pa := paOf p.addr.toNat
    if !isMsgWindow pa || !(p.op == 0x68 || p.op == 0x71) || !s.arrived p then s
    else
      let core := (pa - 0xFFEFFFF000000) / 0x4000
      let s := (s.consume p).writeDone p
      let s := if p.op == 0x71 then s.respond 0x78 p.dst p.src p.txn 0 true else s
      s.intrQueue core (lineField p.data 0 4)

/-- INTR (R691, R692): a die receives INTR, delivers the vector to its core once, and answers INTR_ACK. -/
def execIntr (site m seq core vector : Nat) (w : List (List Nat)) (s : State) : Host.Outcome State Fault Refusal :=
  s.actDom fun s =>
    if !((s.lk site m .hub).outbox.any fun l => l.lm == ⟨0x64, [seq, core, vector]⟩) then s
    else s.lmWhen site m .die [4] 0x64 [seq, core, vector] w fun a s =>
      let q := nthD a 0 0
      let s := s.modDie site fun x =>
        if x.intrSeen.contains q then x
        else { x with intrSeen := (x.intrSeen ++ [q]).drop (x.intrSeen.length - 127), intrs := x.intrs ++ [(nthD a 1 0, nthD a 2 0)] }
      s.lmSend site m .die 0x65 [q]

/-- INTR_ACK (R692). -/
def execIntrAck (site m seq : Nat) (w : List (List Nat)) (s : State) : Host.Outcome State Fault Refusal :=
  s.act (·.lmWhen site m .hub [4] 0x65 [seq] w fun a s =>
    (s.modSite site fun x => { x with intr := x.intr.filter fun y => y.seq != some (nthD a 0 0) }).intrPump site)

/-- INTR_RESEND (R691, R692): messages unacknowledged for 1 us are sent again, and waiting ones sent where they may be. -/
def execIntrResend (site : Nat) (s : State) : Host.Outcome State Fault Refusal :=
  s.act fun s =>
    let due := fun (y : IntrMsg) => y.seq.isSome && decide (y.sent + 1000 ≤ s.time)
    let s := match s.lowActive site with
      | none => s
      | some m =>
        let again := (s.siteAt site).intr.filter due
        let s := s.modSite site fun x => { x with intr := x.intr.map fun y => if due y then { y with sent := s.time } else y }
        again.foldl (fun s (y : IntrMsg) => s.lmSend site m .hub 0x64 [y.seq.getD 0, y.core % 32, y.vector]) s
    s.intrPump site

/-- INTR_TIMEOUT (R692): a message unacknowledged 20 us after its consumption is discarded; the time does not run in Banked. -/
def execIntrTimeout (site : Nat) (s : State) : Host.Outcome State Fault Refusal :=
  s.act fun s =>
    match (s.siteAt site).intr.find? fun y => y.since + 20000 ≤ s.time with
    | none => s
    | some y =>
      if 2 ≤ s.get pgPWR Fld.PWR_STAT_STATE then s
      else ((s.modSite site fun x => { x with intr := x.intr.erase y }).msgDrop (pgLNK site) y.core y.vector).intrPump site

end Sys2Proof.Machine
end

