-- ==== Sys2Proof/Machine/FieldBook.lean ====
section
/-! DEFINITION. The Field Book (R696 to R710): record words, the capture stage and its two banks, the drain FIFO, reading by
register and by DMA ring. -/

namespace Sys2Proof.Machine

/-- The words of a record that opens at TIME `t` (R696, R697). -/
def recWords (r : Rec) (t : Nat) (trunc : Bool := false) : List Nat :=
  let tail := if r.addr.isNone && r.words.isEmpty then []
    else [r.addr.getD 0 % 2 ^ 32, r.addr.getD 0 / 2 ^ 32 % 2 ^ 20] ++ r.words.map (· % 2 ^ 32)
  let len := 4 + tail.length
  [len % 64 + b2n trunc * 2 ^ 6 + r.typ % 256 * 2 ^ 8 + r.source % 2048 * 2 ^ 16 + r.cls % 8 * 2 ^ 27,
   t % 2 ^ 32, t / 2 ^ 32 % 2 ^ 32,
   r.page % 4096 + r.node % 256 * 2 ^ 12 + r.opcode % 128 * 2 ^ 20 + r.sub % 32 * 2 ^ 27] ++ tail

/-- Pack record words four to a capture word (R699); `n` capture words at most. -/
def packWords : Nat → List Nat → Bool → List FbWord
  | 0, _, _ => []
  | n + 1, ws, sor =>
    if ws.isEmpty then []
    else
      let k := min 4 ws.length
      { w := ws.take 4 ++ List.replicate (4 - k) 0, vbytes := 4 * k, sor := sor } :: packWords n (ws.drop 4) false

namespace State

def modBook (s : State) (f : FieldBook → FieldBook) : State := { s with book := f s.book }

/-- LEVEL shows the drain words in the FIFO (R711). -/
def fbLevel (s : State) : State := s.put pgFB Fld.FB_STAT_LEVEL s.book.fifo.length

/-- The drain side moves the handed-over bank into the FIFO while it has room (R701). -/
def fbDrain (s : State) : State :=
  let n := 1024 - s.book.fifo.length
  (s.modBook fun b => { b with fifo := b.fifo ++ b.other.take n, other := b.other.drop n }).fbLevel

/-- The capture stage hands its bank to the drain side (R701). -/
def fbHandoff (s : State) : State :=
  if s.book.other.isEmpty && s.book.openRec.isNone && !s.book.cur.isEmpty then
    (s.modBook fun b => { b with cur := [], other := b.cur }).fbDrain
  else s

/-- Fewer than 8 capture words remain in the bank being written. -/
def fbFull (s : State) : Bool := 504 < s.book.cur.length

/-- Write a whole record into the bank. -/
def fbPut (s : State) (ws : List Nat) : State :=
  s.modBook fun b => { b with cur := b.cur ++ packWords 8 ws true }

/-- A record raises its source where its rule names no event of its own (R698), dropped or not (R702). -/
def fbRaise (s : State) (r : Rec) : State := if r.fires && r.cls != 0 then s.fire r.source else s

/-- The capture stage takes the oldest waiting record (R700, R702, R703). With `cut` the writer stops after that many
words and leaves the record open (R704). -/
def fbRecord (s : State) (cut : Option Nat) : State :=
  match s.book.openRec with
  | some o =>
    if !o.writer then s
    else match cut with
      | some n =>
        if o.written + n < o.words.length then
          s.modBook fun b => { b with openRec := some { o with written := o.written + n, last := s.time } }
        else s
      | none => (s.modBook fun b => { b with openRec := none }).fbPut o.words
  | none =>
    match s.recs with
    | [] => s
    | r :: rest =>
      let s := ({ s with recs := rest }).fbRaise r
      let s := if s.fbFull then s.fbHandoff else s
      let s := match s.book.drops with
        | some (n, t) =>
          if s.fbFull then s
          else
            let d : Rec := { typ := 0x18, cls := 0, source := srcFbDrop, page := pgFB, words := [n, t, t / 2 ^ 32] }
            (s.modBook fun b => { b with drops := none }).fbPut (recWords d s.time)
        | none => s
      let s := if s.fbFull then s.fbHandoff else s
      if s.fbFull then
        let s := (s.count pgFB Fld.FB_DROP_CNT_COUNT).status pgFB Fld.FB_STAT_DROP srcFbDrop
        s.modBook fun b => { b with drops := match b.drops with
                                             | none => some (1, s.time)
                                             | some (n, t) => some (n + 1, t) }
      else
        let ws := recWords r s.time
        match cut with
        | some n =>
          if r.page == pgSMITH && 4 ≤ n && n < ws.length then
            s.modBook fun b => { b with openRec := some { words := ws, written := n, last := s.time } }
          else s.fbPut ws
        | none => s.fbPut ws

/-- A drain or capture word is read with an error (R705). -/
def fbEcc (s : State) (w : FbWord) (e : EccOutcome) : FbWord × State :=
  match e with
  | .clean => (w, s)
  | .corrected => (w, (s.count pgFB Fld.FB_CE_COUNT_COUNT).raise1 pgFB Fld.FB_STAT_CE)
  | .uncorrectable =>
    let (a, s) := s.drawFree
    let (b, s) := s.drawFree
    let (c, s) := s.drawFree
    let (d, s) := s.drawFree
    ({ w with w := [a.toNat, b.toNat, c.toNat, d.toNat], ue := true }, s.status pgFB Fld.FB_STAT_UE srcFbUe)

/-- Errors found in capture words as a bank is read out (R705). -/
def fbErrors (s : State) (es : List (Nat × EccOutcome)) : State :=
  es.foldl (fun s e =>
    match s.book.cur[e.1]? with
    | none => s
    | some w =>
      let (w', s) := s.fbEcc w e.2
      s.modBook fun b => { b with cur := modNth b.cur e.1 fun _ => w' }) s

/-- The word at the head of the FIFO, or while it is empty the last one popped, or zeros (R706, R707). -/
def fbHead (s : State) : List Nat :=
  match s.book.fifo with
  | w :: _ => w.w
  | [] => match s.book.last with
          | some w => w.w
          | none => [0, 0, 0, 0]

/-- A read of FB_DATA3, alone or with FB_DATA2 (R60, R706, R707, R709): the value read, and the pop. -/
def fbPop (s : State) (wide : Bool) (e : EccOutcome) : State :=
  if s.flag pgFB Fld.FB_CTL_DMA then
    { (s.accErr0 pgFB) with readData := 0 }
  else
    let val := fun (l : List Nat) => BitVec.ofNat 64
      (if wide then nthD l 2 0 + 2 ^ 32 * nthD l 3 0 else nthD l 3 0)
    match s.book.fifo with
    | [] => { (s.raise1 pgFB Fld.FB_STAT_UNDERRUN) with readData := val s.fbHead }
    | w :: rest =>
      let (w, s) := s.fbEcc w e
      let s := (s.modBook fun b => { b with fifo := rest, last := some w }).fbDrain
      { s with readData := val w.w }

/-! ### The ring (R708 to R710) -/

def ringLog (s : State) : Nat := s.get pgFB Fld.FB_RING_BASE_LO_LOG2
def ringBase (s : State) : Nat := s.pageAddr pgFB Reg.FB_RING_BASE_LO Reg.FB_RING_BASE_HI
def ringTail (s : State) : Nat := s.get pgFB Fld.FB_RING_TAIL_INDEX
def ringFull (s : State) : Bool :=
  (s.ringTail + 1) % 2 ^ s.ringLog == s.get pgFB Fld.FB_RING_HEAD_INDEX

/-- The 32 bytes of a ring entry, as a number (R708). -/
def ringEntry (w : FbWord) (phase : Bool) : Nat :=
  nthD w.w 0 0 + nthD w.w 1 0 * 2 ^ 32 + nthD w.w 2 0 * 2 ^ 64 + nthD w.w 3 0 * 2 ^ 96 +
    w.vbytes * 2 ^ 128 + (b2n w.sor + 2 * b2n w.ue) * 2 ^ 136 + b2n phase * 2 ^ 255

/-- The Field Book writes the head word into the ring, where it may (R708, R709). -/
def fbRingWrite (s : State) (e : EccOutcome) : State :=
  match s.book.fifo with
  | [] => s
  | w :: rest =>
    if !s.flag pgFB Fld.FB_CTL_DMA || s.ringFull || s.book.busy || s.book.halt then s
    else
      let (w, s) := s.fbEcc w e
      let pa := s.ringBase + 32 * s.ringTail
      let off := pa % 64
      let p : Pkt :=
        { op := 0x06, src := nodeFB, addr := BitVec.ofNat 46 (pa / 64), hasData := true, mask := maskRun off 32
          data := BitVec.ofNat 512 (ringEntry w s.book.phase * 2 ^ (8 * off)) }
      let s := s.modBook fun b => { b with fifo := w :: rest, busy := true, req := some p, nacks := 0 }
      s.send p (nodeHome (s.home pa))

/-- The Nack of a ring write (R173 to R176, R301): sent again 4 ns later, with RSV after the fourth, and then 750 ns later; FENCED and RETIRED
end it without OK. True where it is sent again. -/
def fbNack (s : State) (reason : Nat) : Bool × State :=
  match s.book.req with
  | none => (false, s)
  | some p =>
    if 1 ≤ reason && reason ≤ 4 then
      let n := s.book.nacks + 1
      let q : Pkt := { p with rsv := decide (4 ≤ n), vc := vcOfOp p.op, cls := s.classOf p.src
                              dst := nodeHome (s.home (paOf p.addr.toNat)) }
      let again : InFlight := { p := q, at_ := .out, since := s.time + (if p.rsv then 750 else 4) }
      (true, { (s.modBook fun b => { b with req := some { p with rsv := q.rsv }, nacks := n }) with net := s.net ++ [again] })
    else (false, s)

/-- Entries written since FB_DATA last fired reach FB_RING_WM (R709). -/
def fbDataEv (s : State) : State :=
  if s.book.first.isSome && s.get pgFB Fld.FB_RING_WM_WM ≤ s.book.since then
    (s.modBook fun b => { b with since := 0, first := none }).fire srcFbData
  else s

/-- A ring write completes (R708 to R710). -/
def fbRingDone (s : State) (ok : Bool) : State :=
  if !s.book.busy then s
  else if !ok then (s.modBook fun b => { b with busy := false, halt := true }).raise1 pgFB Fld.FB_STAT_RING_ERR
  else
    let t := (s.ringTail + 1) % 2 ^ s.ringLog
    let s := s.put pgFB Fld.FB_RING_TAIL_INDEX t
    let s := s.modBook fun b =>
      { b with busy := false, fifo := b.fifo.drop 1, phase := if t == 0 then !b.phase else b.phase
               since := b.since + 1, first := match b.first with
                                              | some x => some x
                                              | none => some s.time }
    (s.fbDrain).fbDataEv

end State

/-- FB_RECORD (R700, R702 to R704). -/
def execFbRecord (cut : Option Nat) (s : State) : Host.Outcome State Fault Refusal := s.act (·.fbRecord cut)

/-- FB_BANK_HANDOFF (R701, R705): `es` are the capture words read with an error. -/
def execFbBankHandoff (es : List (Nat × EccOutcome)) (s : State) : Host.Outcome State Fault Refusal :=
  s.act fun s =>
    if s.book.other.isEmpty && s.book.openRec.isNone && !s.book.cur.isEmpty then (s.fbErrors es).fbHandoff else s.fbDrain

/-- FB_TRUNC (R704): an open record receives no word for 10 us, and is closed at its current length. -/
def execFbTrunc (s : State) : Host.Outcome State Fault Refusal :=
  s.act fun s =>
    match s.book.openRec with
    | none => s
    | some o =>
      if s.time < o.last + 10000 then s
      else
        let w0 := setBits (setBits (nthD o.words 0 0) 0 6 o.written) 6 1 1
        let ws := w0 :: (o.words.take o.written).drop 1
        let s := (s.modBook fun b => { b with openRec := none }).fbPut ws
        (s.count pgFB Fld.FB_TRUNC_CNT_COUNT).raise1 pgFB Fld.FB_STAT_TRUNC

/-- FB_POP (R706): a read of FB_DATA3; `wide` for an 8-byte read with FB_DATA2. -/
def execFbPop (wide : Bool) (e : EccOutcome) (s : State) : Host.Outcome State Fault Refusal := s.act (·.fbPop wide e)

/-- FB_RING_WRITE (R708). -/
def execFbRingWrite (e : EccOutcome) (s : State) : Host.Outcome State Fault Refusal := s.act (·.fbRingWrite e)

/-- FB_RING_CMP (R710): the Cmp of a ring write arrives. -/
def execFbRingCmp (p : Pkt) (s : State) : Host.Outcome State Fault Refusal :=
  s.act fun s =>
    if p.dst != nodeFB || p.op != 0x41 || !s.arrived p then s else (s.consume p).fbRingDone (bits p.addr.toNat 0 4 == 0)

/-- FB_DATA_TIMER (R709): 100 us after the first entry written since FB_DATA last fired. -/
def execFbDataTimer (s : State) : Host.Outcome State Fault Refusal :=
  s.act fun s =>
    match s.book.first with
    | none => s
    | some t =>
      if t + 100000 ≤ s.time then (s.modBook fun b => { b with since := 0, first := none }).fire srcFbData else s

end Sys2Proof.Machine
end

