-- ==== Sys2Proof/Machine/Pmu.lean ====
section
/-! DEFINITION. The performance counters (R712 to R726): counter writes, freeze, snapshot and clear on one edge, and the dies'
part in it. -/

namespace Sys2Proof.Machine

namespace State

/-- The instrumented pages whose domain is on (R712, R718). -/
def countedPages (s : State) : List Nat :=
  (pageRows.filter (·.cnt)).flatMap fun r =>
    ((List.range (r.last + 1 - r.first)).map (· + r.first)).filter fun p => !s.pageOff p

/-- Edge E (R718): snapshot, then clear, then freeze or unfreeze, on every counter of every page that is on. Steps issued before an edge that
starts an interval fill no slot after it (R720). -/
def pmuEdge (s : State) (a : PmuAct) : State :=
  let pages := s.countedPages
  let s := if a.snap then
      forAll pages (fun p s => forAll (List.range 8) (fun i s =>
        (s.put p (Fld.PMC_SNAP_LO_SNAP_LO i) (s.get p (Fld.PMC_CNT_LO_CNT_LO i))).put p (Fld.PMC_SNAP_HI_SNAP_HI i)
          (s.get p (Fld.PMC_CNT_HI_CNT_HI i))) s) s
    else s
  let s := if a.clear then
      forAll pages (fun p s => (forAll (List.range 8) (fun i s =>
        (s.put p (Fld.PMC_CNT_LO_CNT_LO i) 0).put p (Fld.PMC_CNT_HI_CNT_HI i) 0) s).setReg p Reg.PMC_OVF 0) s
    else s
  let s := (s.setReg pgSMITH Reg.SNAP_TIME_LO (s.time % 2 ^ 32)).setReg pgSMITH Reg.SNAP_TIME_HI (s.time / 2 ^ 32 % 2 ^ 32)
  let s := if a.clear || a.unfreeze then { s with homes := s.homes.map fun (h : Home) => { h with retired := 0, wasted := 0 } } else s
  { s with frozen := (s.frozen || a.freeze) && !a.unfreeze }

/-- BUSY ends (R724). -/
def pmuEnd (s : State) : State :=
  match s.pmu with
  | none => s
  | some a =>
    if a.edge && a.waits.isEmpty then
      let s := (s.put pgSMITH Fld.PMU_STAT_BUSY 0).put pgSMITH Fld.PMU_STAT_DONE 1
      { (s.bumpMod pgSMITH Fld.PMU_STAT_SEQ) with pmu := none }
    else s

/-- The sites whose dies take part (R721): admitted, with the SNAP capability committed (CAP bit 3, R458). One without an ACTIVE module gets
no frame, and is silent (R723). -/
def snapSites (s : State) : List Nat :=
  (List.range 16).filter fun i => s.admitted i && bitN (s.get (pgSITE i) Fld.TRAV_CAP_LO_CAP) 3

/-- A write of PMU_CTL (R718, R721, R724): FREEZE, SNAP, CLEAR, DIES in bits 0 to 3. -/
def pmuWrite (s : State) (data : Nat) : State :=
  let pg := pgSMITH
  if s.pmu.isSome then s.raise1 pg Fld.PMU_STAT_OVERLAP
  else
    let was := s.flag pg Fld.PMU_CTL_FREEZE
    let fr := bitN data 0
    let dies := bitN data 3
    let s := (s.put pg Fld.PMU_CTL_FREEZE (b2n fr)).put pg Fld.PMU_CTL_DIES (b2n dies)
    let s := (s.put pg Fld.PMU_STAT_BUSY 1).put pg Fld.PMU_STAT_DONE 0
    let s := s.put pg Fld.PMU_LATE_SITE 0
    let sites := if dies then s.snapSites else []
    let seq := s.pmuSeq % 256
    let a : PmuAct := { freeze := fr && !was, unfreeze := !fr && was, snap := bitN data 1, clear := bitN data 2
                        t := if sites.isEmpty then none else some (s.time + 2000), seq := seq, waits := sites }
    let acts := b2n a.freeze + 2 * b2n a.unfreeze + 4 * b2n a.snap + 8 * b2n a.clear
    let s := { s with pmu := some a, pmuSeq := s.pmuSeq + 1 }
    forAll sites (fun i s => match s.lowActive i with
      | some m => s.lmSend i m .hub 0x66 [seq, acts, s.time + 2000]
      | none => s) s

/-- A site is late or silent (R723). -/
def pmuLate (s : State) (site : Nat) : State :=
  match s.pmu with
  | none => s
  | some a =>
    if !a.waits.contains site then s
    else
      let s := s.put pgSMITH Fld.PMU_LATE_SITE (addSite (s.get pgSMITH Fld.PMU_LATE_SITE) site)
      ({ s with pmu := some { a with waits := a.waits.filter (· != site) } }).pmuEnd

/-- Software writes a counter (R717): `hi` selects CNT_HI. -/
def cntWrite (s : State) (page i : Nat) (hi : Bool) (v : Nat) : State :=
  if s.pageOff page then s
  else if hi then s.put page (Fld.PMC_CNT_HI_CNT_HI i) v else s.put page (Fld.PMC_CNT_LO_CNT_LO i) v

/-- The page has the eight counters (R712). -/
def instrumented (page : Nat) : Bool := match pageRow page with
  | some r => r.cnt
  | none => false

end State

/-- FREEZE (R718): PMU_CTL is written with FREEZE = 1; `snap`, `clear` and `dies` are its other fields. -/
def execFreeze (snap clear dies : Bool) (s : State) : Host.Outcome State Fault Refusal :=
  s.act (·.pmuWrite (1 + 2 * b2n snap + 4 * b2n clear + 8 * b2n dies))

/-- UNFREEZE (R718): PMU_CTL is written with FREEZE = 0. -/
def execUnfreeze (snap clear dies : Bool) (s : State) : Host.Outcome State Fault Refusal :=
  s.act (·.pmuWrite (2 * b2n snap + 4 * b2n clear + 8 * b2n dies))

/-- SNAP (R718): PMU_CTL is written with SNAP = 1 and FREEZE as it is. -/
def execSnap (clear dies : Bool) (s : State) : Host.Outcome State Fault Refusal :=
  s.act fun s => s.pmuWrite (s.get pgSMITH Fld.PMU_CTL_FREEZE + 2 + 4 * b2n clear + 8 * b2n dies)

/-- CLEAR (R718): PMU_CTL is written with CLEAR = 1 and FREEZE as it is. -/
def execClear (snap dies : Bool) (s : State) : Host.Outcome State Fault Refusal :=
  s.act fun s => s.pmuWrite (s.get pgSMITH Fld.PMU_CTL_FREEZE + 2 * b2n snap + 4 + 8 * b2n dies)

/-- PMU_EDGE (R718, R721): edge E, the first with TIME at T where dies take part, or else the first after acceptance. -/
def execPmuEdge (s : State) : Host.Outcome State Fault Refusal :=
  s.act fun s =>
    match s.pmu with
    | none => s
    | some a =>
      if a.edge || s.time < a.t.getD 0 then s
      else ({ (s.pmuEdge a) with pmu := some { a with edge := true } }).pmuEnd

/-- PMU (R722): a die receives a PMU frame, and applies its actions when its timebase reaches T, or on arrival after T; it
then answers PMU_ACK with LATE. -/
def execPmu (site m seq acts t : Nat) (w : List (List Nat)) (s : State) : Host.Outcome State Fault Refusal :=
  s.actDom fun s =>
    let s := if (s.lk site m .hub).outbox.any fun l => l.lm == ⟨0x66, [seq, acts, t]⟩ then
        s.lmWhen site m .die [4] 0x66 [seq, acts, t] w fun a s =>
          let late := decide (nthD a 2 0 < s.time)
          s.modDie site fun x => { x with pmu := some (nthD a 0 0, nthD a 2 0, nthD a 1 0 % 16 + 16 * b2n late) }
      else s
    match (s.dieAt site).pmu with
    | none => s
    | some (q, t, a) =>
      if s.time < t then s
      else
        let s := s.modDie site fun x => { x with pmu := none, pmuDone := a % 16 }
        s.lmSend site m .die 0x67 [q, a / 16]

/-- PMU_ACK (R723). -/
def execPmuAck (site m seq : Nat) (late : Bool) (w : List (List Nat)) (s : State) : Host.Outcome State Fault Refusal :=
  s.act (·.lmWhen site m .hub [4] 0x67 [seq, b2n late] w fun r s =>
    match s.pmu with
    | none => s
    | some a =>
      if a.seq != nthD r 0 0 || !a.waits.contains site then s
      else if bitN (nthD r 1 0) 0 then s.pmuLate site
      else ({ s with pmu := some { a with waits := a.waits.filter (· != site) } }).pmuEnd)

/-- PMU_ACK_TIMEOUT (R723): a site has not answered by T + 10 us. -/
def execPmuAckTimeout (site : Nat) (s : State) : Host.Outcome State Fault Refusal :=
  s.act fun s =>
    match s.pmu with
    | some { t := some t, .. } => if t + 10000 ≤ s.time then s.pmuLate site else s
    | _ => s

/-- PMC_CNT_WRITE (R717). -/
def execPmcCntWrite (page i : Nat) (hi : Bool) (v : Nat) (s : State) : Host.Outcome State Fault Refusal :=
  s.act fun s => if State.instrumented page && i < 8 then s.cntWrite page i hi v else s

/-- COUNTER_WRAP (R716): an increment by `q` that carries an enabled counter past 48 bits. -/
def execCounterWrap (page i q : Nat) (s : State) : Host.Outcome State Fault Refusal :=
  s.act fun s =>
    if State.instrumented page && i < 8 && !s.frozen && !s.pageOff page && s.flag page (Fld.PMC_CTL_EN i) &&
        2 ^ 48 ≤ s.get page (Fld.PMC_CNT_LO_CNT_LO i) + 2 ^ 32 * s.get page (Fld.PMC_CNT_HI_CNT_HI i) + q then
      s.cntAdd page i q
    else s

end Sys2Proof.Machine
end

