-- ==== Sys2Proof/Machine/Agents.lean ====
section
/-! DEFINITION. Who claims a device address (R36, R466, R467, R688), and the requests hub agents send and wait for (R157, R174,
R272, R490, R766). -/

namespace Sys2Proof.Machine

/-- Who claims a device address: no one, the interrupt message window, or a node. -/
inductive Claim where
  | none
  | msg
  | node (n : BitVec 8)
  deriving DecidableEq, Repr

/-- Output PA in a device range (R32). -/
def isDeviceRange (pa : Nat) : Bool := isMmio pa || isControl pa || isEcam0 pa || isEcam1 pa

/-- The number of a stream (R480). -/
def streamOf (who rid : Nat) : Nat := if who == 16 then 0x10000 + rid else rid % 0x10000

namespace State

def fnAt (s : State) (f : Nat) : Fn := Tab.getD f {} s.ne.fns
def modNe (s : State) (g : Ne → Ne) : State := { s with ne := g s.ne }
def modFn (s : State) (f : Nat) (g : Fn → Fn) : State :=
  s.modNe fun n => { n with fns := Tab.putD {} f (g (Tab.getD f {} n.fns)) n.fns }
def modIxu (s : State) (g : Ixu → Ixu) : State := { s with ixu := g s.ixu }
def modDma (s : State) (id : Nat) (g : Dma → Dma) : State := { s with dmas := Tab.upd id g s.dmas }

/-- The function is present: PF0, or an enabled VF (R575, R576). -/
def fnPresent (s : State) (f : Nat) : Bool := f == 0 || (s.ne.vfEn && 1 ≤ f && f ≤ s.ne.numVfs && f ≤ 1024)

/-- The function whose BAR holds a device address (R577, R578): PF0's 8 MiB, or 512 KiB of a VF. -/
def barFn (s : State) (pa : Nat) : Option Nat :=
  let pf := s.fnAt 0
  if pf.mse && pf.bar ≤ pa && pa < pf.bar + 0x800000 then some 0
  else if s.ne.vfEn && s.ne.vfMse && s.ne.vfBar ≤ pa && pa < s.ne.vfBar + s.ne.numVfs * 0x80000 then
    some ((pa - s.ne.vfBar) / 0x80000 + 1)
  else none

/-- The site whose enabled DEVWIN holds an address (R466). -/
def devWin (s : State) (pa : Nat) : Option Nat :=
  (List.range 16).find? fun i =>
    let pg := pgSITE i
    s.flag pg Fld.DEVWIN_BASE_LO_EN && s.winAddr pg Reg.DEVWIN_BASE_LO ≤ pa && pa < s.winAddr pg Reg.DEVWIN_LIMIT_LO + 4096

/-- The first active module of a site at or after `m`, wrapping (R467); `m` itself where none is active. -/
def devModule (s : State) (site m : Nat) : Nat :=
  (([0, 1, 2, 3].map fun k => (m + k) % 4).find? fun k => isUp (s.lk site k .hub).st).getD m

/-- The claimant of an address in a device range (R38). No block claims another address, a backed one of a memory range among them
(log 167, DEDUCED). -/
def claimOf (s : State) (pa : Nat) : Claim :=
  if isControl pa then .node nodeSmith
  else if isEcam1 pa then .node nodeNE
  else if isMsgWindow pa then .msg
  else match s.devWin pa with
    | some i => .node (nodeModule i (s.devModule i (bits pa 16 2)))
    | none =>
      match if isMmio pa then s.barFn pa else none with
      | some _ => .node nodeNE
      | none => match Config.pcieClaim pa with
        | some n => if isMmio pa || isEcam0 pa then .node (nodePCIE n) else .none
        | none => .none

/-! ### Requests of hub agents -/

/-- Key of an outstanding request of an agent: node and TXN. -/
def agentKey (n : BitVec 8) (txn : Nat) : Nat := n.toNat * 4096 + txn

/-- The lowest TXN an agent has free (R157, R172); none while all are in use. -/
def agentTxn (s : State) (n : BitVec 8) : Option Nat :=
  (List.range 4096).find? fun t => (Tab.get? (agentKey n t) s.agents).isNone

/-- An agent sends a request to its destination and waits for its final response; while it has no TXN free the request waits (R172). -/
def agentSend (s : State) (p : Pkt) (dst : BitVec 8) (use : AgUse) : State :=
  let p : Pkt := { p with dst := dst }
  match s.agentTxn p.src with
  | none => { s with agentQ := s.agentQ ++ [(p, use)] }
  | some t =>
    let p : Pkt := { p with txn := BitVec.ofNat 12 t }
    ({ s with agents := Tab.put (agentKey p.src t) { p := p, use := use } s.agents }).send p dst

/-- The request of an agent that a response addressed to it answers. -/
def agentOf (s : State) (p : Pkt) : Option AgReq := Tab.get? (agentKey p.dst p.txn.toNat) s.agents

/-- A request ends: its TXN is free, and the oldest request that waits for one is sent (R172). -/
def agentEnd (s : State) (n : BitVec 8) (txn : Nat) : State :=
  let s := { s with agents := Tab.del (agentKey n txn) s.agents }
  match s.agentQ.find? fun e => e.1.src == n with
  | none => s
  | some e => ({ s with agentQ := s.agentQ.erase e }).agentSend e.1 e.1.dst e.2

/-- A read of one line by an agent (R488, R501). -/
def agentRead (s : State) (n : BitVec 8) (pa : Nat) (use : AgUse) : State :=
  s.agentSend { op := 0x04, src := n, addr := BitVec.ofNat 46 (pa / 64) } (nodeHome (s.home pa)) use

/-- A write of some bytes of one line by an agent; `data` in place. -/
def agentWrite (s : State) (n : BitVec 8) (pa : Nat) (data : LineData) (mask : ByteMask) (use : AgUse) : State :=
  s.agentSend { op := if mask = BitVec.allOnes 64 then 0x05 else 0x06, src := n, addr := BitVec.ofNat 46 (pa / 64),
                hasData := true, data := data, mask := mask } (nodeHome (s.home pa)) use

/-- The Nack of an agent's request (R173 to R176): sent again after 4 ns, with RSV after the fourth 750 ns later (R301);
FENCED and RETIRED end it. True where it is sent again. -/
def agentNack (s : State) (p : Pkt) : Bool × State :=
  match s.agentOf p with
  | none => (false, s)
  | some a =>
    let reason := bits p.addr.toNat 0 4
    if 1 ≤ reason && reason ≤ 4 then
      let n := a.nacks + 1
      let q : Pkt := { a.p with rsv := decide (4 ≤ n) }
      let wait := if a.p.rsv then 750 else 4
      let s := { s with agents := Tab.put (agentKey q.src q.txn.toNat) { a with p := q, nacks := n } s.agents }
      (true, { s with net := s.net ++ [⟨{ q with vc := vcOfOp q.op, cls := s.classOf q.src }, .out, s.time + wait⟩] })
    else (false, s.agentEnd p.dst p.txn.toNat)

/-- A unit is still in flight. -/
def inFlight (s : State) (p : Pkt) : Bool := s.net.any fun e => unitKey e.p == unitKey p

/-- A hub agent consumes poisoned data (R680, R681). -/
def poisonUse (s : State) (page : Nat) (n : BitVec 8) (src pa : Nat) : State :=
  s.record { typ := 0x14, cls := 2, source := src, page := page, node := n.toNat, addr := some pa, fires := true }

/-! ### What a DMA's end tells its requester (R273, R493) -/

/-- An earlier posted write of the requester has no final response yet (R272). -/
def postedBefore (s : State) (id : Nat) (d : Dma) : Bool :=
  s.dmas.any fun e => e.1 < id && e.2.who == d.who && e.2.rid == d.rid && e.2.kind ≤ 1 && e.2.acc != 3

/-- A DMA must wait for the earlier posted writes of its requester (R272): all but a posted write with relaxed ordering, where it is no
message. -/
def dmaBlocked (s : State) (id : Nat) (d : Dma) : Bool := (d.kind != 1 || isMsgWindow d.pa) && s.postedBefore id d

/-- A DMA is over. -/
def dmaGone (s : State) (id : Nat) : State :=
  ({ s with dmas := Tab.del id s.dmas }).modIxu fun x => { x with walks := Tab.del id x.walks }

/-- A device is told how its read, atomic or translation request ended. -/
def deviceTold (s : State) (d : Dma) (status : Nat) (data : LineData) (ep : Bool) : State :=
  let s := if d.who < 6 && (d.acc == 3 || d.kind == 2) then s.tlpTx d.who (Config.ridPort d.who d.rid) else s
  if d.acc == 3 then { s with dmaAns := some { rid := d.rid, status := 0 } }
  else if d.kind == 2 then
    { s with dmaAns := some { rid := d.rid, status := status, data := if status == 0 then data &&& maskBits d.mask else 0, ep := ep } }
  else s

/-- A DMA ends with a status and data: the device is answered, behind the posted writes that its read must not pass (R273), or the NE's job
has one access less to wait for. `ep`: the data is poisoned (R680). -/
def dmaEnd (s : State) (id status : Nat) (data : LineData) (ep : Bool := false) : State :=
  match Tab.get? id s.dmas with
  | none => s
  | some d =>
    if d.spec then s.dmaGone id
    else if d.who == 16 then
      let s := s.dmaGone id
      if d.fgen != (s.fnAt d.rid).fgen then s.count pgNE Fld.STALE_CPL_COUNT
      else s.modNe fun n => { n with jobs := Tab.upd d.job (fun j =>
        { j with left := j.left - 1, got := if status == 0 then Tab.put d.pos data j.got else j.got, bad := j.bad || status != 0 }) n.jobs }
    else if d.kind == 2 && d.acc != 3 && s.postedBefore id d then s.modDma id fun d => { d with st := .ended status ep, got := data }
    else (s.dmaGone id).deviceTold d status data ep

/-- Reads that have ended are answered once the posted writes they must not pass have ended (R273). -/
def dmaRelease (s : State) : State :=
  s.dmas.foldl (fun s e => match e.2.st with
    | .ended status ep => if s.postedBefore e.1 e.2 then s else (s.dmaGone e.1).deviceTold e.2 status e.2.got ep
    | _ => s) s

/-- One of the requests of a DMA has ended with a status and some bytes (R169); the last one ends the DMA. -/
def dmaPart (s : State) (id status : Nat) (data : LineData) (mask : ByteMask) (ep : Bool := false) : State :=
  match Tab.get? id s.dmas with
  | none => s
  | some d =>
    let worst := max d.worst status
    let got := mergeLine d.got data mask
    if 1 < d.parts then s.modDma id fun d => { d with parts := d.parts - 1, worst := worst, got := got }
    else s.dmaEnd id worst got ep

/-- Posted device writes that have been consumed are in flight no more (R262, R508). A write of a function's earlier generation ends
unseen (R605). -/
def dmaSweep (s : State) : State :=
  s.agents.foldl (fun s e =>
    match e.2.use with
    | .dma id =>
      if e.2.p.op == 0x68 && !s.inFlight e.2.p then
        let s := s.agentEnd e.2.p.src e.2.p.txn.toNat
        let stale := ((Tab.get? id s.dmas).map fun d => d.who == 16 && d.fgen != (s.fnAt d.rid).fgen).getD false
        if stale then s.dmaGone id else s.dmaPart id 0 0 0
      else s
    | _ => s) s

/-! ### Sending (R169, R490, R597, R690, R766) -/

/-- The node and page of a DMA's agent. -/
def dmaNode (who : Nat) : BitVec 8 := if who == 16 then nodeNE else nodePCIE who
def dmaPage (who : Nat) : Nat := if who == 16 then pgNE else pgPCIE who

/-- An agent's own interface answers a device request that no one claims, or one to the control region (R57, R766). -/
def dmaUnclaimed (s : State) (id : Nat) (d : Dma) (p : Pkt) : State :=
  (s.recReserved (dmaPage d.who) p).dmaEnd id 1 (BitVec.allOnes 512)

/-- The naturally aligned runs of 1, 2, 4 or 8 bytes that make up a mask, from byte `lo` on (R169): first byte and length of each. -/
def devRuns (m : ByteMask) : Nat → Nat → List (Nat × Nat)
  | 0, _ => []
  | fuel + 1, lo =>
    if !m.getLsbD lo then devRuns m fuel (lo + 1)
    else
      let n := ([8, 4, 2, 1].find? fun n => lo % n == 0 && (List.range n).all fun i => m.getLsbD (lo + i)).getD 1
      (lo, n) :: devRuns m fuel (lo + n)

/-- Send the device accesses of a DMA, one for each run of its bytes (R169). -/
def devSend (s : State) (id : Nat) (q : Pkt) (dst : BitVec 8) : State :=
  let runs := devRuns q.mask 64 0
  let s := s.modDma id fun d => { d with st := .sent s.time, parts := runs.length }
  if runs.isEmpty then s.dmaEnd id 0 0
  else runs.foldl (fun s r =>
    let m := maskRun r.1 r.2
    s.agentSend { q with mask := m, data := q.data &&& maskBits m } dst (.dma id)) s

/-- Send a translated DMA (R490); a device's write that carries poison is recorded (R680, R681). The opcode that the record of R40 names for one whose address is reserved is the one that a memory range
would have (log 150). -/
def dmaSend (s : State) (id : Nat) (d : Dma) : State :=
  let src := dmaNode d.who
  let s := if d.psn then s.poisonUse (dmaPage d.who) src (srcPCIE d.who 1) d.pa else s
  let off := bits d.pa 0 6
  let p : Pkt :=
    { op := 0, src := src, addr := BitVec.ofNat 46 (d.pa / 64), na := d.na, psn := d.psn, hasData := d.acc != 0
      data := if d.acc == 0 then 0 else d.data, mask := d.mask }
  let op : BitVec 7 := if d.acc == 0 then 0x04 else if d.acc == 2 then 0x07 else if d.mask = BitVec.allOnes 64 then 0x05 else 0x06
  if isMemRange d.pa then
    let q : Pkt := { p with op := op, size := if d.acc == 2 then BitVec.ofNat 3 d.op else 0, mask := if d.acc == 0 then 0 else d.mask
                            hasData := d.acc != 0 }
    (s.modDma id fun d => { d with st := .sent s.time }).agentSend q (nodeHome (s.home d.pa)) (.dma id)
  else if !isDeviceRange d.pa then s.dmaUnclaimed id d { p with op := op }
  else
    let q : Pkt := { p with op := if d.acc == 0 then 0x70 else if d.kind == 2 then 0x71 else 0x68, na := false, hasData := true
                            size := 0 }
    if d.acc == 2 || isControl d.pa then s.dmaUnclaimed id d q
    else match s.claimOf d.pa with
      | .none => s.dmaUnclaimed id d q
      | .node n => s.devSend id q n
      | .msg =>
        let at_ := d.pa / 64 * 64 + ((maskRun? d.mask).map (·.1)).getD off
        let core := bits (at_ - 0xFFEFFFF000000) 14 10
        let n := ((maskRun? d.mask).map (·.2)).getD 0
        if d.acc == 0 then (s.msgDrop (dmaPage d.who) core 0).dmaEnd id 1 (BitVec.allOnes 512)
        else if n != 4 || at_ % 0x4000 != 0 || !s.coreOk core then
          (s.msgDrop (dmaPage d.who) core (lineField d.data (at_ % 64) 4)).dmaEnd id 2 0
        else s.devSend id q (nodeModule (core / 32) (s.devModule (core / 32) 0))

end State
end Sys2Proof.Machine
end

