-- ==== Sys2Proof/Machine/Ixu.lean ====
section
/-! DEFINITION. The I/O translation unit (R480 to R521): binding records, table entries, walks with A and D updates, faults and
the fault queue, the caches and what an invalidation removes, modes and loaded entries. -/

namespace Sys2Proof.Machine

/-- Access codes of R494. -/
def accRead : Nat := 0
def accWrite : Nat := 1
def accAtomic : Nat := 2
def accAts : Nat := 3

/-- Fault types of R494. -/
def ftNotValid : Nat := 1
def ftPermission : Nat := 2
def ftAdUpdate : Nat := 3
def ftWalkPoison : Nat := 4
def ftTableNotMemory : Nat := 5
def ftAddrSize : Nat := 6
def ftMissTimeout : Nat := 7
def ftAtsBlocked : Nat := 8

/-! ### Binding records and table entries (R482, R485 to R487) -/

def bindMode (b : Nat) : Nat := bits b 0 3
def bindFr (b : Nat) : Bool := bitN b 3
def bindHwad (b : Nat) : Bool := bitN b 4
def bindAts (b : Nat) : Bool := bitN b 5
def bindPriv (b : Nat) : Bool := bitN b 6
def bindS1Va (b : Nat) : Nat := bits b 8 2
def bindS2Va (b : Nat) : Nat := bits b 10 2
def bindSpace (b : Nat) : Nat := bits b 12 20
def bindVmid (b : Nat) : Nat := bits b 32 16
def bindS1Root (b : Nat) : Nat := bits b 76 40 * 4096
def bindS2Root (b : Nat) : Nat := bits b 140 40 * 4096

/-- The binding record may be used (R483). -/
def bindOk (b : Nat) : Bool :=
  1 ≤ bindMode b && bindMode b ≤ 4 && bindS1Va b != 3 && bindS2Va b != 3 &&
  !bitN b 7 && bits b 48 28 == 0 && bits b 116 24 == 0 && bits b 180 76 == 0 && (!bindAts b || bindMode b == 2)

/-- Input width of a width code, and the top level that follows (R485). -/
def vaWidth (c : Nat) : Nat := 39 + 9 * c
def topLevel (c : Nat) : Nat := 2 + c

/-- Address of the entry a table holds for an address at a level (R485). -/
def entryPa (tbl level va : Nat) : Nat := tbl + 8 * bits va (12 + 9 * level) 9

def entT (e : Nat) : Bool := bitN e 1
def entR (e : Nat) : Bool := bitN e 2
def entW (e : Nat) : Bool := bitN e 3
def entU (e : Nat) : Bool := bitN e 5
def entG (e : Nat) : Bool := bitN e 6
def entA (e : Nat) : Bool := bitN e 7
def entD (e : Nat) : Bool := bitN e 8
def entMti (e : Nat) : Nat := bits e 9 3
def entPa (e : Nat) : Nat := bits e 12 40 * 4096

/-- The entry is treated as valid at its level (R487). -/
def entOk (e level : Nat) : Bool :=
  bitN e 0 && bits e 52 7 == 0 && !bitN e 63 &&
  (if entT e then level != 0
   else level ≤ 2 && bits e 12 (9 * level) == 0 && decide (entMti e < 3))

/-- The leaf grants the access (R489): ATS asks for either; stage 2 ignores U. -/
def leafGrants (e acc : Nat) (priv two : Bool) : Bool :=
  (two || priv || entU e) &&
  (if acc == 0 then entR e else if acc == 1 then entW e else if acc == 2 then entR e && entW e else entR e || entW e)

/-- The access is a write for D (R492): ATS grants a write where the leaf has W. -/
def accWrites (e acc : Nat) (spec : Bool) : Bool := !spec && (acc == 1 || acc == 2 || (acc == 3 && entW e))

/-- The entry after the A and D updates an access needs. -/
def entUpdated (e : Nat) (d : Bool) : Nat := let e := setBits e 7 1 1; if d then setBits e 8 1 1 else e

/-- Size of a leaf's mapping in bytes. -/
def pageBytes (size : Nat) : Nat := 2 ^ (12 + 9 * size)

/-- The cached entry's page holds an address. -/
def Tlb.holds (t : Tlb) (va : Nat) : Bool := t.va ≤ va && decide (va < t.va + pageBytes t.size)

/-- The cached entry grants an access to a stream of privilege `priv`. -/
def Tlb.grants (t : Tlb) (acc : Nat) (priv : Bool) : Bool :=
  (priv || t.u) && (if acc == 0 then t.r else if acc == 1 then t.w else t.r && t.w)

/-! ### What a command removes (R499, R500) -/

def invOp (c : Nat) : Nat := bits c 0 4
def invAny (c : Nat) : Bool := bitN c 4
def invSpace (c : Nat) : Nat := bits c 8 20
def invStream (c : Nat) : Nat := bits c 8 17
def invVmid (c : Nat) : Nat := bits c 28 16
def invRange (c : Nat) : Nat := bits c 48 6

/-- First address of a command's range, and its size (R499). -/
def invBase (c : Nat) : Nat := bits c 64 45 / 2 ^ invRange c * 2 ^ invRange c * 4096
def invBytes (c : Nat) : Nat := 2 ^ invRange c * 4096

/-- Two runs of addresses overlap. -/
def overlap (a n b m : Nat) : Bool := decide (a < b + m) && decide (b < a + n)

/-- The opcode is assigned, the bits the table reserves for it are zero, and RANGE, where it is used, has no reserved encoding (R499,
R502). The fields of other opcodes are ignored (DEDUCED, log 152). -/
def invWellFormed (c : Nat) : Bool :=
  let op := invOp c
  let zero : List (Nat × Nat) :=
    if op == 6 then [(7, 1), (116, 12)]
    else [(7, 1), (44, 4), (54, 10), (109, 19)] ++ (if op == 5 then [(25, 3)] else [])
  1 ≤ op && op ≤ 7 && (zero.all fun z => bits c z.1 z.2 == 0) && ((op != 2 && op != 4) || invRange c ≤ 45)

/-- The command matches the tags of an entry: its SPACE and VMID, G entries only with ANY (R500). -/
def invTags (c space vmid : Nat) (g : Bool) : Bool :=
  vmid == invVmid c && (invAny c || (space == invSpace c && !g))

/-- The command removes a cached leaf (R500); loaded entries answer only to INV_BIND and INV_ALL (R517). -/
def invTlb (c : Nat) (t : Tlb) : Bool :=
  match t.stream with
  | some st => (invOp c == 5 && (invAny c || st == invStream c)) || invOp c == 7
  | none =>
    match invOp c with
    | 1 => invTags c t.space t.vmid t.g
    | 2 | 4 => invTags c t.space t.vmid t.g && overlap t.va (pageBytes t.size) (invBase c) (invBytes c)
    | 3 => t.vmid == invVmid c
    | 7 => true
    | _ => false

/-- The command removes a walk-cache entry (R500). -/
def invWalk (c : Nat) (w : WalkEnt) : Bool :=
  let n := 2 ^ (12 + 9 * w.level)
  match invOp c with
  | 1 => invTags c w.space w.vmid false
  | 3 => w.vmid == invVmid c
  | 4 => invTags c w.space w.vmid false && overlap (w.top * n) n (invBase c) (invBytes c)
  | 7 => true
  | _ => false

/-- The command removes a stream's binding record (R500). -/
def invBind (c stream : Nat) : Bool := (invOp c == 5 && (invAny c || stream == invStream c)) || invOp c == 7

/-- Put an entry into a cache of `n` entries; one drawn from the free values leaves a full cache (log 6). -/
def cachePut {α : Type} (l : List α) (n : Nat) (x : α) (draw : Nat) : List α :=
  if l.length < n then l ++ [x] else l.eraseIdx (draw % n) ++ [x]

namespace State

/-- MODE in force (R516). -/
def ixuMode (s : State) : Nat := s.get pgIXU Fld.IXU_CTL_MODE

/-- Address of a stream's binding record (R481). -/
def bindAddr (s : State) (stream : Nat) : Option Nat :=
  let g := stream / 0x10000
  let i := stream % 0x10000
  if i < 2 ^ s.get pgIXU (Fld.BIND_TAB_LO_LOG2 g) then
    some (s.pageAddr pgIXU (Reg.BIND_TAB_LO g) (Reg.BIND_TAB_HI g) + 32 * i)
  else none

/-- The cached binding record of a stream. -/
def bindOf (s : State) (stream : Nat) : Option Nat := (s.ixu.binds.find? (·.1 == stream)).map (·.2)

/-- The IXU Field Book record of R698. -/
def recIxu (s : State) (sub src stream : Nat) (va : Option Nat := none) : State :=
  s.record { typ := 0x0F, cls := 3, source := srcWide src, page := pgIXU, sub := sub, addr := va.map (· % 2 ^ 52),
             words := [stream % 2 ^ 17] }

/-! ### Fault queue (R494, R495) -/

def fqLog (s : State) : Nat := s.get pgIXU Fld.FQ_BASE_LO_LOG2
def fqTail (s : State) : Nat := s.get pgIXU Fld.FQ_TAIL_INDEX
/-- FQ_NE follows the indices (R521). -/
def fqNe (s : State) : State := s.put pgIXU Fld.IXU_STAT_FQ_NE (b2n (s.fqTail != s.get pgIXU Fld.FQ_HEAD_INDEX))

/-- A fault record is dropped (R495). -/
def fqDrop (s : State) : State := (s.count pgIXU Fld.FQ_OVF_CNT_COUNT).raise1 pgIXU Fld.IXU_STAT_FQ_OVF

/-- Write the next fault record that waits, where the queue has room (R495). -/
def fqPump (s : State) : State :=
  if s.ixu.fqBusy then s
  else match s.ixu.faults with
    | [] => s
    | r :: rest =>
      let s := s.modIxu fun x => { x with faults := rest }
      let pa := s.pageAddr pgIXU Reg.FQ_BASE_LO Reg.FQ_BASE_HI + 32 * s.fqTail
      if !s.flag pgIXU Fld.FQ_BASE_LO_EN || (s.fqTail + 1) % 2 ^ s.fqLog == s.get pgIXU Fld.FQ_HEAD_INDEX then s.fqDrop
      else
        let off := pa % 64
        (s.modIxu fun x => { x with fqBusy := true }).agentWrite nodeIXU pa (BitVec.ofNat 512 (r * 2 ^ (8 * off)))
          (maskRun off 32) .fault

/-- The 32 bytes of a fault record as a number (R494). -/
def faultRecord (d : Dma) (stage level typ bind entPa ipa : Nat) : Nat :=
  d.stream % 2 ^ 17 + stage * 2 ^ 17 + (if stage == 0 then 0 else level) * 2 ^ 19 + typ * 2 ^ 22 + d.acc * 2 ^ 26 +
  (if stage == 0 then 0 else bindSpace bind) * 2 ^ 32 + bits d.va 0 57 * 2 ^ 64 +
  (if typ == 6 || typ == 7 || typ == 8 then 0 else bits entPa 0 52) * 2 ^ 128 +
  (if stage == 2 then bits ipa 12 40 else 0) * 2 ^ 192 + (if stage == 0 then 0 else bindVmid bind) * 2 ^ 232

/-- A translation faults (R493): the record where one is due, and the requester's end of the DMA. -/
def dmaFault (s : State) (id : Nat) (d : Dma) (stage level typ : Nat) (bind : Nat := 0) (entPa : Nat := 0) (ipa : Nat := 0) : State :=
  let s := s.bump pgIXU 0x063
  let s := if !d.spec && (stage == 0 || bindFr bind) then
      if s.flag pgIXU Fld.FQ_BASE_LO_EN then
        (s.modIxu fun x => { x with faults := x.faults ++ [faultRecord d stage level typ bind entPa ipa] }).fqPump
      else s.fqDrop
    else s
  s.dmaEnd id 2 (BitVec.allOnes 512)

/-! ### Completing a translation (R489, R490, R496, R497, R513) -/

/-- The translation of a DMA is known: it may be sent, or, for an ATS Translation Request, is answered (R513). -/
def dmaGrant (s : State) (id : Nat) (d : Dma) (t : Tlb) : State :=
  let pa := t.pa + (d.va - t.va)
  if d.acc == accAts then
    { s with dmas := Tab.del id s.dmas
             dmaAns := some { rid := d.rid, status := 0, pa := t.pa, size := t.size, r := t.r, w := t.w } }
  else if d.spec then { s with dmas := Tab.del id s.dmas }
  else s.modDma id fun d => { d with st := .ready, pa := pa, na := t.na, used := some t }

/-- Install a leaf in the IOTLB, and in the NE's device TLB where the NE asked (R496, R498, R510, R511). -/
def tlbInstall (s : State) (d : Dma) (t : Tlb) (ne : Bool) : State :=
  let draw := (Config.freeWord s.ctr).toNat
  let s := { s with ctr := s.ctr + 1 }
  let same := fun (e : Tlb) => e.space == t.space && e.vmid == t.vmid && e.g == t.g && e.va == t.va && e.size == t.size
  let s := s.modIxu fun x => { x with tlb := cachePut (x.tlb.filter fun e => !same e) 8192 t draw }
  if d.who == 16 && ne then s.modNe fun n => { n with tlb := cachePut (n.tlb.filter fun e => !same e) 4096 t draw } else s

/-- The walk of a DMA has its leaves: combine and finish (R491, R497). G and U are the stage-1 leaf's; in MODE 4, where stage 2 stands
alone, G is its leaf's (DEDUCED, log 153). -/
def walkFinish (s : State) (id : Nat) (d : Dma) (w : Walk) : State :=
  let s := s.modIxu fun x => { x with walks := Tab.del id x.walks }
  let one := fun (l : LeafRead) (va : Nat) => (entPa l.entry, l.level, va / pageBytes l.level * pageBytes l.level)
  let l1 := w.leaf1
  let l2 := w.leaf2
  let dOk := fun (l : Option LeafRead) => match l with
    | some l => entD l.entry
    | none => true
  let rd := fun (l : Option LeafRead) => match l with
    | some l => entR l.entry
    | none => true
  let wr := fun (l : Option LeafRead) => match l with
    | some l => entW l.entry
    | none => true
  let mt := fun (l : Option LeafRead) => match l with
    | some l => entMti l.entry == 1
    | none => false
  let (pa, size, va) := match l1, l2 with
    | some a, some b =>
      let n := min a.level b.level
      let ipa := entPa a.entry + d.va % pageBytes a.level
      let out := entPa b.entry + ipa % pageBytes b.level
      (out / pageBytes n * pageBytes n, n, d.va / pageBytes n * pageBytes n)
    | some a, none => one a d.va
    | none, some b => one b d.va
    | none, none => (0, 0, 0)
  let t : Tlb :=
    { space := bindSpace w.bind, vmid := bindVmid w.bind, g := ((l1.or l2).map fun l => entG l.entry).getD false, va := va, size := size
      pa := pa, r := rd l1 && rd l2, w := wr l1 && wr l2 && dOk l1 && dOk l2
      u := (l1.map fun l => entU l.entry).getD true, na := mt l1 || mt l2 }
  (if w.keep then s.tlbInstall d t w.keepNe else s).dmaGrant id d t

/-! ### The walker (R488, R491, R492) -/

def setWalk (s : State) (id : Nat) (w : Walk) : State := s.modIxu fun x => { x with walks := Tab.put id w x.walks }

/-- Stage, level and IPA a walk's fault names now. -/
def walkWhere (w : Walk) : Nat × Nat × Nat :=
  match w.s2 with
  | some q => (2, q.level, q.ipa)
  | none => (if bindMode w.bind == 4 then 2 else 1, w.level, 0)

/-- The walk faults at its present place. -/
def walkFault (s : State) (id : Nat) (d : Dma) (w : Walk) (typ entPa : Nat) : State :=
  let (st, lv, ipa) := walkWhere w
  let ipa := if bindMode w.bind == 4 then d.va else ipa
  s.dmaFault id d st lv typ w.bind entPa ipa

/-- Read the entry at a PA, if it lies in a memory range (R488). -/
def walkRead (s : State) (id : Nat) (d : Dma) (w : Walk) (pa : Nat) : State :=
  if !isMemRange pa then s.walkFault id d w ftTableNotMemory pa
  else ((s.setWalk id { w with wait := .entry pa }).bump pgIXU 0x062).agentRead nodeIXU pa (.walk id)

/-- Begin a stage-2 translation of an IPA (R491). -/
def walkStage2 (s : State) (id : Nat) (d : Dma) (w : Walk) (ipa why : Nat) : State :=
  let c := bindS2Va w.bind
  let w := { w with s2 := some { ipa := ipa, why := why, level := topLevel c, tbl := bindS2Root w.bind } }
  if 2 ^ vaWidth c ≤ ipa then s.walkFault id d w ftAddrSize 0
  else s.walkRead id d w (entryPa (bindS2Root w.bind) (topLevel c) ipa)

/-- Read the stage-1 entry of the present level: directly, or, in MODE 3, through stage 2. -/
def walkStage1 (s : State) (id : Nat) (d : Dma) (w : Walk) : State :=
  let pa := entryPa w.tbl w.level d.va
  if bindMode w.bind == 3 then s.walkStage2 id d w pa 0 else s.walkRead id d { w with s2 := none } pa

/-- Start a walk's tables from the top (R485), or, for a MODE 2 stream's first pass, from the walk cache (R496). -/
def walkTop (s : State) (id : Nat) (d : Dma) (w : Walk) (cached : Bool) : State :=
  let mode := bindMode w.bind
  let c := if mode == 4 then bindS2Va w.bind else bindS1Va w.bind
  let w := { w with level := topLevel c, tbl := if mode == 4 then bindS2Root w.bind else bindS1Root w.bind
                    s2 := none, leaf1 := none, leaf2 := none }
  if 2 ^ vaWidth c ≤ d.va then s.walkFault id d w ftAddrSize 0
  else
    let hit := if mode == 2 && cached then
        [1, 2, 3, 4].findSome? fun l => s.ixu.walkc.find? fun e =>
          e.level == l && e.space == bindSpace w.bind && e.vmid == bindVmid w.bind && e.top == d.va / 2 ^ (12 + 9 * l)
      else none
    match hit with
    | some e => s.walkStage1 id d { w with level := e.level - 1, tbl := e.tbl }
    | none => s.walkStage1 id d w

/-- An A or D update is one FarAtomic on the entry's 8 bytes (R492). -/
def walkUpdate (s : State) (id : Nat) (w : Walk) (pa old new : Nat) (two : Bool) : State :=
  let off := pa % 64
  let other := if off < 32 then off + 32 else off - 32
  let data := setLineField (setLineField 0 off 8 new) other 8 old
  (s.setWalk id { w with wait := .update pa old new two }).agentSend
    { op := 0x07, src := nodeIXU, addr := BitVec.ofNat 46 (pa / 64), size := if off < 32 then 2 else 3, hasData := true
      data := data, mask := maskRun off 8 ||| maskRun other 8 } (nodeHome (s.home pa)) (.walk id)

/-- What follows once the leaf of a single stage, or of stage 2, grants and needs no update. -/
def walkLeafDone (s : State) (id : Nat) (d : Dma) (w : Walk) : State :=
  match w.s2, w.leaf2 with
  | some q, some l2 =>
    let pa := entPa l2.entry + q.ipa % pageBytes l2.level
    match q.why, w.leaf1 with
    | 0, _ => s.walkRead id d { w with s2 := none } pa
    | 1, some l1 =>
      if !isMemRange pa then s.walkFault id d { w with s2 := none } ftTableNotMemory pa
      else s.walkUpdate id w pa l1.entry (entUpdated l1.entry (accWrites l1.entry d.acc d.spec)) false
    | _, _ => s.walkFinish id d w
  | none, _ =>
    match w.leaf1 with
    | some l1 =>
      if bindMode w.bind == 3 then s.walkStage2 id d w (entPa l1.entry + d.va % pageBytes l1.level) 2
      else s.walkFinish id d w
    | none => s.walkFinish id d w
  | some _, none => s.walkFinish id d w

/-- A leaf has been read at `pa` (R489, R491, R492). `two`: a stage-2 leaf. -/
def walkLeaf (s : State) (id : Nat) (d : Dma) (w : Walk) (pa e level : Nat) : State :=
  let mode := bindMode w.bind
  let two := w.s2.isSome || mode == 4
  let why := (w.s2.map (·.why)).getD 2
  let acc := if why == 0 then accRead else if why == 1 then accAtomic else d.acc
  let l : LeafRead := { entry := e, level := level, pa := pa }
  let w := if two then { w with leaf2 := some l } else { w with leaf1 := some l }
  if !leafGrants e acc (bindPriv w.bind) two then s.walkFault id d w ftPermission pa
  else
    let writes := if why == 1 then true else if why == 0 then false else accWrites e d.acc d.spec
    let needA := !entA e
    let needD := writes && !entD e
    if !needA && !needD then s.walkLeafDone id d w
    else if !bindHwad w.bind then
      if !needA && d.acc == accAts then s.walkLeafDone id d w else s.walkFault id d w ftAdUpdate pa
    else if mode == 3 && !two then s.walkStage2 id d w (entryPa w.tbl w.level d.va) 1
    else s.walkUpdate id w pa e (entUpdated e writes) two

/-- A table entry read at `pa` (R486, R487): a table goes one level down, a leaf is checked. -/
def walkEntry (s : State) (id : Nat) (d : Dma) (w : Walk) (pa e : Nat) : State :=
  let level := (w.s2.map (·.level)).getD w.level
  if !entOk e level then s.walkFault id d w ftNotValid pa
  else if entT e then
    match w.s2 with
    | some q =>
      let q := { q with level := q.level - 1, tbl := entPa e }
      s.walkRead id d { w with s2 := some q } (entryPa q.tbl q.level q.ipa)
    | none =>
      let s := if bindMode w.bind == 2 && w.keep then
          let c : WalkEnt := { space := bindSpace w.bind, vmid := bindVmid w.bind, level := level
                               top := d.va / 2 ^ (12 + 9 * level), tbl := entPa e }
          let draw := (Config.freeWord s.ctr).toNat
          ({ s with ctr := s.ctr + 1 }).modIxu fun x =>
            { x with walkc := cachePut (x.walkc.filter fun e =>
                !(e.space == c.space && e.vmid == c.vmid && e.level == c.level && e.top == c.top)) 1024 c draw }
        else s
      s.walkStage1 id d { w with level := level - 1, tbl := entPa e }
  else s.walkLeaf id d w pa e level

/-! ### Requests for translation (R482, R483, R488, R513, R516 to R518) -/

/-- The loaded entry that serves a stream's address (R517). -/
def loadedOf (s : State) (stream va : Nat) : Option Tlb := s.ixu.loaded.find? fun t => t.stream == some stream && t.holds va

/-- DMAs stalled in SOFT mode, oldest first (R518). -/
def stalledDmas (s : State) : List (Nat × Dma) :=
  (s.dmas.filter fun e => match e.2.st with
    | .stalled _ => true
    | _ => false)

/-- SOFT_MISS_INFO and SOFT_MISS_VA show the oldest stalled DMA (R521). -/
def softInfo (s : State) : State :=
  let l := s.stalledDmas
  let pg := pgIXU
  let s := (s.put pg Fld.SOFT_MISS_INFO_PEND l.length).put pg Fld.SOFT_MISS_INFO_V (b2n (!l.isEmpty))
  match l with
  | [] => (((s.put pg Fld.SOFT_MISS_INFO_STREAM 0).put pg Fld.SOFT_MISS_INFO_ACC 0).put pg Fld.SOFT_MISS_VA_LO_VA_LO 0).put pg
      Fld.SOFT_MISS_VA_HI_VA_HI 0
  | e :: _ => (((s.put pg Fld.SOFT_MISS_INFO_STREAM e.2.stream).put pg Fld.SOFT_MISS_INFO_ACC e.2.acc).put pg
      Fld.SOFT_MISS_VA_LO_VA_LO (bits e.2.va 12 20)).put pg Fld.SOFT_MISS_VA_HI_VA_HI (bits e.2.va 32 25)

/-- A SOFT-mode miss is stalled where one of the 16 slots is free, or waits for one (R518). -/
def softStall (s : State) (id : Nat) : State :=
  if 16 ≤ s.stalledDmas.length then s.modDma id fun d => { d with st := .waitSlot }
  else
    let stream := ((Tab.get? id s.dmas).map (·.stream)).getD 0
    let va := ((Tab.get? id s.dmas).map (·.va)).getD 0
    let s := (s.modDma id fun d => { d with st := .stalled s.time }).recIxu 3 4 stream (some va)
    (s.status pgIXU Fld.IXU_STAT_SOFT_MISS (srcWide 4)).softInfo

/-- A free stall slot takes the oldest miss that waits for one (R518). -/
def softSlot (s : State) : State :=
  match s.dmas.find? fun e => e.2.st == .waitSlot with
  | some e => s.softStall e.1
  | none => s.softInfo

/-- A stream may use ATS (R513). -/
def atsListed (s : State) (stream : Nat) : Bool :=
  (List.range 64).any fun i => s.flag pgIXU (Fld.ATS_STREAM_V i) && s.get pgIXU (Fld.ATS_STREAM_STREAM i) == stream
def atsAllowed (s : State) (stream bind : Nat) : Bool :=
  stream < 0x10000 && s.atsListed stream && bindAts bind && bindMode bind == 2

/-- Translate a DMA whose binding record is known (R483, R488, R496, R513). -/
def dmaBound (s : State) (id : Nat) (d : Dma) (bind : Nat) : State :=
  if !bindOk bind then s.dmaFault id d 0 0 ftNotValid 0 ((s.bindAddr d.stream).getD 0)
  else if d.translated then
    if !s.atsAllowed d.stream bind then s.dmaFault id d 1 0 ftPermission bind
    else if s.ixu.blocked.contains d.stream then s.dmaFault id d 1 0 ftAtsBlocked bind
    else s.modDma id fun d => { d with st := .ready, pa := d.va }
  else if d.acc == accAts && (!s.atsAllowed d.stream bind || s.ixu.blocked.contains d.stream) then
    { s with dmas := Tab.del id s.dmas, dmaAns := some { rid := d.rid, status := 0 } }
  else if bindMode bind == 1 then s.modDma id fun d => { d with st := .ready, pa := d.va % 2 ^ 52 }
  else
    let fits := fun (t : Tlb) => t.vmid == bindVmid bind && (t.g || t.space == bindSpace bind) && t.holds d.va &&
      t.grants d.acc (bindPriv bind || bindMode bind == 4)
    let ne := if d.who == 16 then s.ne.tlb.find? fits else none
    match ne with
    | some t => s.dmaGrant id d t
    | none =>
      match s.ixu.tlb.find? fits with
      | some t =>
        let s := if d.who == 16 then s.modNe fun n => { n with tlb := cachePut n.tlb 4096 t (Config.freeWord s.ctr).toNat } else s
        s.dmaGrant id d t
      | none => (s.bump pgIXU 0x061).walkTop id d { wait := .binding, bind := bind } true

/-- The IXU receives a DMA address (R482, R516 to R520). -/
def dmaTranslate (s : State) (id : Nat) (d : Dma) : State :=
  if s.pageOff pgIXU then s.dmaEnd id 2 (BitVec.allOnes 512)
  else
    let s := s.bump pgIXU 0x060
    match s.ixuMode with
    | 0 => if d.spec then (s.bump pgIXU 0x063).dmaEnd id 2 0 else
      let s := (s.status pgIXU Fld.IXU_STAT_BLOCKED (srcWide 7)).bump pgIXU 0x063
      let s := if s.ixu.blockNoted then s
        else (s.modIxu fun x => { x with blockNoted := true }).recIxu 2 7 d.stream (some d.va)
      s.dmaEnd id 2 (BitVec.allOnes 512)
    | 1 =>
      if d.acc == accAts then { s with dmas := Tab.del id s.dmas, dmaAns := some { rid := d.rid, status := 0 } }
      else if d.translated then s.dmaFault id d 1 0 ftPermission
      else match s.loadedOf d.stream d.va with
        | some t => if t.grants d.acc true then s.dmaGrant id d t else s.dmaFault id d 1 t.size ftPermission
        | none => if d.spec then s.dmaEnd id 2 0 else s.softStall id
    | _ =>
      match s.bindOf d.stream with
      | some b => s.dmaBound id d b
      | none =>
        match s.bindAddr d.stream with
        | none => s.dmaFault id d 0 0 ftAddrSize
        | some pa =>
          if !isMemRange pa then s.dmaFault id d 0 0 ftTableNotMemory 0 pa
          else ((s.setWalk id { wait := .binding }).bump pgIXU 0x062).agentRead nodeIXU pa (.walk id)

/-- A new DMA enters, with its translation (R498: the NE's and the groups' dedicated ports). -/
def dmaNew (s : State) (d : Dma) : State :=
  let id := s.dmaSeq
  let d := { d with fgen := if d.who == 16 then (s.fnAt d.rid).fgen else 0 }
  let s := { s with dmas := Tab.put id d s.dmas, dmaSeq := id + 1 }
  match d.st with
  | .ready => s
  | _ => s.dmaTranslate id d

/-- The use of the request that a unit answers, where the unit has arrived at its agent (R121). -/
def useOf (s : State) (p : Pkt) : Option AgUse := if s.arrived p then (s.agentOf p).map (·.use) else none

/-- An agent takes a response to a request of its own: it leaves the fabric, and a final one ends the request (R120, R171). -/
def agentTakes (s : State) (p : Pkt) : State :=
  let s := s.consume p
  if p.last then s.agentEnd p.dst p.txn.toNat else s

/-- The binding record of a walk has come (R482). -/
def walkBinding (s : State) (id : Nat) (d : Dma) (w : Walk) (line : LineData) (psn : Bool) : State :=
  let pa := (s.bindAddr d.stream).getD 0
  if psn then (s.poisonUse pgIXU nodeIXU (srcWide 2) pa).dmaFault id d 0 0 ftWalkPoison 0 pa
  else
    let b := lineField line (pa % 64) 32
    let draw := (Config.freeWord s.ctr).toNat
    let s := if bindOk b && w.keep then
        ({ s with ctr := s.ctr + 1 }).modIxu fun x => { x with binds := cachePut x.binds 256 (d.stream, b) draw }
      else s
    (s.modIxu fun x => { x with walks := Tab.del id x.walks }).dmaBound id d b

/-- The FarAtomic of an A or D update of the entry at `pa` returns (R492): the fourth failure faults. -/
def walkUpdated (s : State) (id : Nat) (d : Dma) (w : Walk) (pa old new : Nat) (two : Bool) (line : LineData) (psn : Bool) : State :=
  let w := if two then w else { w with s2 := none }
  if psn then s.walkFault id d w ftAdUpdate pa
  else if lineField line (pa % 64) 8 != old then
    let w := { w with fails := w.fails + 1 }
    if 4 ≤ w.fails then s.walkFault id d w ftAdUpdate pa else s.walkTop id d w false
  else
    let w := if two then { w with leaf2 := w.leaf2.map fun l => { l with entry := new } }
      else { w with leaf1 := w.leaf1.map fun l => { l with entry := new } }
    s.walkLeafDone id d w

/-- The response that a walk waits for returns (R482, R488, R492); one that is not final brings nothing. `update`: to the row of updates. -/
def walkReturn (s : State) (p : Pkt) (update : Bool) : State :=
  match s.useOf p with
  | some (.walk id) =>
    match Tab.get? id s.dmas, Tab.get? id s.ixu.walks with
    | some d, some w =>
      let isUp := match w.wait with
        | .update .. => true
        | _ => false
      if isUp != update then s
      else if !p.last then s.agentTakes p
      else
        let (line, s) := (s.agentTakes p).lineTaken p
        match w.wait with
        | .binding => s.walkBinding id d w line p.psn
        | .entry pa =>
          if p.psn then (s.poisonUse pgIXU nodeIXU (srcWide 2) pa).walkFault id d w ftWalkPoison pa
          else s.walkEntry id d w pa (lineField line (pa % 64) 8)
        | .update pa old new two => s.walkUpdated id d w pa old new two line p.psn
    | _, _ => s.agentTakes p
  | _ => s

/-! ### Invalidation (R499 to R515) -/

/-- The IXU's own caches lose what a command removes; walks in progress install nothing more; DMAs that used an entry removed
are marked (R500, R503, R508, R510, R512). -/
def ixuRemove (s : State) (c : Nat) : State :=
  let s := s.modIxu fun x =>
    { x with binds := x.binds.filter fun b => !invBind c b.1
             tlb := x.tlb.filter fun t => !invTlb c t
             loaded := x.loaded.filter fun t => !invTlb c t
             walkc := x.walkc.filter fun w => !invWalk c w
             walks := x.walks.map fun (e : Nat × Walk) => (e.1, { e.2 with keep := false }) }
  let hit := fun (d : Dma) => match d.used with
    | some t => invTlb c t || (invBind c d.stream && t.stream.isNone)
    | none => d.st == DmaSt.walking || invBind c d.stream
  let s := { s with dmas := s.dmas.map fun (e : Nat × Dma) => if hit e.2 then (e.1, { e.2 with stale := true }) else e }
  s.put pgIXU Fld.LOAD_STAT_COUNT s.ixu.loaded.length

/-- ATS Invalidate Requests over the command's range, or the whole address space, go to every listed stream whose binding record matches
(R514; log 54). -/
def atsInvalidate (s : State) (c : Nat) : State :=
  let listed := (List.range 64).filterMap fun i =>
    if s.flag pgIXU (Fld.ATS_STREAM_V i) then some (s.get pgIXU (Fld.ATS_STREAM_STREAM i)) else none
  let hit := listed.filter fun st => match s.bindOf st with
    | some b => bindAts b && (invOp c == 7 || (invOp c ≤ 4 && bindVmid b == invVmid c &&
        (invOp c == 3 || invAny c || bindSpace b == invSpace c)))
    | none => invOp c != 5
  let ranged := invOp c == 2 || invOp c == 4
  hit.foldl (fun s st => s.modIxu fun x =>
    { x with ats := x.ats ++ [{ id := x.atsSeq, stream := st, since := s.time, base := if ranged then invBase c else 0
                                bytes := if ranged then invBytes c else 2 ^ 57 }]
             atsSeq := x.atsSeq + 1 }) s

/-- The invalidation at the IXU, its ATS requests first, since the binding records choose their streams (R501, R514). -/
def ixuInvalidate (s : State) (c : Nat) : State := (s.atsInvalidate c).ixuRemove c

/-- The 64-byte data unit of a command in bytes 0 to 15 (R504). -/
def invUnit (c : Nat) : LineData := BitVec.ofNat 512 (c % 2 ^ 128)

/-- The IXU sends a command to the NE (R501), where the NE is on. -/
def ixuToNe (s : State) (c : Nat) : State :=
  if s.pageOff pgNE then s
  else
    let t := s.ixu.neTxn % 4096
    (s.modIxu fun x => { x with neOut := x.neOut ++ [t], neTxn := x.neTxn + 1 }).send
      { op := 0x24, src := nodeIXU, txn := BitVec.ofNat 12 t, hasData := true, data := invUnit c, mask := maskRun 0 16 } nodeNE

/-- An XlatAck of a target (R505). -/
def xlatAck (s : State) (me : BitVec 8) (p : Pkt) (err : Bool) : State :=
  s.send { op := 0x44, src := me, txn := p.txn, addr := if err then 2 else 0 } p.src

/-- What a SYNC begun at the IXU has still to wait for (R503). -/
def syncWaits (s : State) (y : IxuSync) : IxuSync :=
  { y with ne := y.ne.filter fun t => s.ixu.neOut.contains t
           ats := y.ats.filter fun i => s.ixu.ats.any fun a => a.id == i
           dmas := y.dmas.filter fun i => (Tab.get? i s.dmas).isSome }

/-- A SYNC begins: it covers what is outstanding now. -/
def syncBegin (s : State) (p : Option Pkt) : State :=
  let s := s.dmaSweep
  let y : IxuSync := { p := p, ne := s.ixu.neOut, ats := s.ixu.ats.map (·.id)
                       dmas := (s.dmas.filter fun e => e.2.stale).map (·.1) }
  s.modIxu fun x => { x with syncs := x.syncs ++ [y] }

/-- The NE has sent an XlatAck: translations it asked for before do not go into its device TLB (R511). -/
def neAcked (s : State) : State :=
  s.modIxu fun x => { x with walks := x.walks.map fun (e : Nat × Walk) =>
    if ((Tab.get? e.1 s.dmas).map (·.who)).getD 0 == 16 then (e.1, { e.2 with keepNe := false }) else e }

/-- Forwarded SYNCs whose conditions hold are answered (R503, R505). -/
def syncPump (s : State) : State :=
  let s := s.dmaSweep.dmaRelease
  let s := s.modIxu fun x => { x with syncs := x.syncs.map fun y => s.syncWaits y }
  let ready := s.ixu.syncs.filter fun y => y.p.isSome && y.ne.isEmpty && y.ats.isEmpty && y.dmas.isEmpty
  let s := s.modIxu fun x => { x with syncs := x.syncs.filter fun y => !ready.contains y }
  let s := ready.foldl (fun s y => match y.p with
    | some p => s.xlatAck nodeIXU p y.err
    | none => s) s
  let live := fun (e : Pkt × List Nat) => e.2.any fun i => (Tab.get? i s.dmas).isSome
  let done := s.ne.syncs.filter fun e => !live e
  let s := s.modNe fun n => { n with syncs := n.syncs.filter live }
  done.foldl (fun s e => s.neAcked.xlatAck nodeNE e.1 false) s

/-- The NE executes a forwarded command (R505, R511): its device TLB loses the entries; a SYNC waits for its DMAs that used a
removed one. -/
def neInvalidate (s : State) (p : Pkt) (c : Nat) : State :=
  if invOp c == 6 then
    let ids := (s.dmas.filter fun e => e.2.who == 16 && e.2.stale).map (·.1)
    (s.modNe fun n => { n with syncs := n.syncs ++ [(p, ids)] }).syncPump
  else
    let s := s.modNe fun n => { n with tlb := n.tlb.filter fun t => !invTlb c t }
    let hit := fun (d : Dma) => d.who == 16 && (match d.used with
      | some t => invTlb c t
      | none => d.st == DmaSt.walking)
    let s := { s with dmas := s.dmas.map fun (e : Nat × Dma) => if hit e.2 then (e.1, { e.2 with stale := true }) else e }
    s.neAcked.xlatAck nodeNE p false

/-! ### The command queue (R501 to R503) -/

def cqLog (s : State) : Nat := s.get pgIXU Fld.CQ_BASE_LO_LOG2
def cqHead (s : State) : Nat := s.get pgIXU Fld.CQ_HEAD_INDEX

/-- The IXU reads the command at CQ_HEAD when it may (R501). -/
def cqKick (s : State) : State :=
  if s.pageOff pgIXU || s.flag pgIXU Fld.IXU_STAT_CQ_HALT || s.ixu.cqBusy || s.ixu.cqCmd.isSome ||
      s.cqHead == s.get pgIXU Fld.CQ_TAIL_INDEX then s
  else
    let pa := s.pageAddr pgIXU Reg.CQ_BASE_LO Reg.CQ_BASE_HI + 16 * s.cqHead
    (s.modIxu fun x => { x with cqBusy := true }).agentRead nodeIXU pa .cqRead

/-- The queue halts (R502). -/
def cqHalt (s : State) (cause : Nat) : State :=
  let s := (s.modIxu fun x => { x with cqCmd := none }).raise1 pgIXU Fld.IXU_STAT_CQ_HALT
  let s := s.status pgIXU Fld.IXU_STAT_CQ_ERR (srcWide 5)
  let s := (s.put pgIXU Fld.CQ_ERR_CAUSE cause).raise1 pgIXU Fld.CQ_ERR_V
  s.recIxu 0 5 0

/-- The command at CQ_HEAD completes: CQ_HEAD advances, and the next is read (R501). -/
def cqNext (s : State) : State :=
  let s := s.modIxu fun x => { x with cqCmd := none }
  (s.put pgIXU Fld.CQ_HEAD_INDEX ((s.cqHead + 1) % 2 ^ s.cqLog)).cqKick

/-- The read of the command returns (R501, R502). -/
def cqFetched (s : State) (p : Pkt) : State :=
  match s.useOf p with
  | some .cqRead =>
    if !p.last then s.agentTakes p
    else
      let (line, s) := (s.agentTakes p).lineTaken p
      let s := s.modIxu fun x => { x with cqBusy := false }
      let pa := s.pageAddr pgIXU Reg.CQ_BASE_LO Reg.CQ_BASE_HI + 16 * s.cqHead
      let c := lineField line (pa % 64) 16
      if p.psn then (s.poisonUse pgIXU nodeIXU (srcWide 5) pa).cqHalt 2
      else if !invWellFormed c then s.cqHalt 1
      else if invOp c == 6 && bitN c 6 && !isMemRange (bits c 66 50 * 4) then s.cqHalt 3
      else s.modIxu fun x => { x with cqCmd := some c }
  | _ => s

/-- The queue's command is executed where it has the opcode of the row (R500, R501). -/
def cqInvalidate (s : State) (op : Nat) : State :=
  match s.ixu.cqCmd with
  | some c => if invOp c == op then ((s.ixuInvalidate c).ixuToNe c).cqNext else s
  | none => s

/-- The queue's SYNC (R503): it begins, and completes once its waits are over; WR writes DATA first. -/
def cqSync (s : State) : State :=
  match s.ixu.cqCmd with
  | none => s
  | some c =>
    if invOp c != 6 || s.ixu.syncW then s
    else
      let s := if s.ixu.syncs.any (·.p.isNone) then s else s.syncBegin none
      let s := s.syncPump
      match s.ixu.syncs.find? (·.p.isNone) with
      | none => s
      | some y =>
        if !(y.ne.isEmpty && y.ats.isEmpty && y.dmas.isEmpty) then s
        else if bitN c 6 then
          let pa := bits c 66 50 * 4
          (s.modIxu fun x => { x with syncW := true }).agentWrite nodeIXU pa
            (BitVec.ofNat 512 (bits c 32 32 * 2 ^ (8 * (pa % 64)))) (maskRun (pa % 64) 4) .syncWrite
        else
          let s := s.modIxu fun x => { x with syncs := x.syncs.filter (·.p.isSome) }
          (if bitN c 5 then s.fire (srcWide 3) else s).cqNext

/-- The Cmp of the queue SYNC's write (R503). -/
def cqSyncWritten (s : State) : State :=
  match s.ixu.cqCmd with
  | none => s
  | some c =>
    let s := s.modIxu fun x => { x with syncW := false, syncs := x.syncs.filter (·.p.isSome) }
    (if bitN c 5 then s.fire (srcWide 3) else s).cqNext

/-- The Cmp of a fault record's write (R495). -/
def faultWritten (s : State) : State :=
  let s := s.modIxu fun x => { x with fqBusy := false }
  let was := s.fqTail == s.get pgIXU Fld.FQ_HEAD_INDEX
  let s := (s.put pgIXU Fld.FQ_TAIL_INDEX ((s.fqTail + 1) % 2 ^ s.fqLog)).fqNe
  (if was then s.fire (srcWide 2) else s).fqPump

/-! ### SOFT mode and MODE changes (R516 to R519) -/

/-- LOAD_CMD.LOAD (R519): install or replace, then serve the stalled DMAs it matches. -/
def softLoad (s : State) : State :=
  let pg := pgIXU
  let stream := s.get pg Fld.LOAD_STREAM_STREAM
  let size := s.get pg Fld.LOAD_PA_LO_SIZE
  let va := s.get pg Fld.LOAD_VA_LO_VA_LO * 4096 + s.get pg Fld.LOAD_VA_HI_VA_HI * 2 ^ 32
  let pa := s.get pg Fld.LOAD_PA_LO_PA_LO * 4096 + s.get pg Fld.LOAD_PA_HI_PA_HI * 2 ^ 32
  let t : Tlb := { stream := some stream, va := va / pageBytes size * pageBytes size, size := size
                   pa := pa / pageBytes size * pageBytes size, r := s.flag pg Fld.LOAD_PA_LO_R, w := s.flag pg Fld.LOAD_PA_LO_W
                   na := s.get pg Fld.LOAD_PA_LO_MTI == 1 }
  let rest := s.ixu.loaded.filter fun e => !(e.stream == some stream && e.va == t.va && e.size == size)
  if 8192 ≤ s.ixu.loaded.length then s.raise1 pg Fld.LOAD_STAT_FULL
  else
    let s := (s.modIxu fun x => { x with loaded := rest ++ [t] }).put pg Fld.LOAD_STAT_COUNT (rest.length + 1)
    let serve := s.dmas.filter fun e => e.2.stream == stream && t.holds e.2.va && (match e.2.st with
      | .stalled _ => true
      | .waitSlot => true
      | _ => false)
    let s := serve.foldl (fun s e =>
      if t.grants e.2.acc true then s.dmaGrant e.1 e.2 t else s.dmaFault e.1 e.2 1 size ftPermission) s
    serve.foldl (fun s _ => s.softSlot) s.softInfo

/-- The apply edge of a quench that changes MODE (R516): the IXU's caches are empty, the NE gets an INV_ALL, stalled DMAs are
translated again. -/
def ixuModeApplied (s : State) : State :=
  let waiting := s.dmas.filter fun e => match e.2.st with
    | .stalled _ => true
    | .waitSlot => true
    | _ => false
  let s := (s.ixuRemove 7).ixuToNe 7
  let s := s.modIxu fun x => { x with blockNoted := false, loaded := [] }
  let s := { s with dmas := s.dmas.map fun (e : Nat × Dma) => if waiting.any (·.1 == e.1) then (e.1, { e.2 with st := .walking }) else e }
  (waiting.foldl (fun s e => s.dmaTranslate e.1 e.2) s).softInfo

end State
end Sys2Proof.Machine
end

