-- ==== Sys2Proof/Machine/NeBase.lean ====
section
/-! DEFINITION. The network engine's common parts: bytes, jobs and their accesses, functions, contexts on die, messages,
completions, queue pairs, frames sent. -/

namespace Sys2Proof.Machine

/-- The 64 bytes of a line. -/
def lineBytes (d : LineData) : List Byte := (List.range 64).map (lineByte d)

/-- The requester the NE uses for its own tables, which are addressed by PA (R549, R567, R568). -/
def neSelf : Nat := 2047

/-- Key of a queue pair. -/
def qpKey (f q : Nat) : Nat := f * 4096 + q

/-- The bytes a finished job read: `n` from its first byte. -/
def NeJob.bytes (j : NeJob) (n : Nat) : List Byte := slice (j.got.flatMap fun e => lineBytes e.2) j.off n

namespace State

/-! ### Functions -/

/-- The function may issue DMA (R578, R602, R608). -/
def fnLive (s : State) (f : Nat) : Bool :=
  let x := s.fnAt f
  s.fnPresent f && x.bme && !x.d3 && !x.err && x.flr.isNone && !s.pageOff pgNE

def qp? (s : State) (f q : Nat) : Option Qp := Tab.get? (qpKey f q) s.ne.qps
def modQp (s : State) (f q : Nat) (g : Qp → Qp) : State := s.modNe fun n => { n with qps := Tab.upd (qpKey f q) g n.qps }
def ctxAt (s : State) (c : Nat) : Ctx := Tab.getD c {} s.ne.ctxs
def modCtx (s : State) (c : Nat) (g : Ctx → Ctx) : State :=
  s.modNe fun n => { n with ctxs := Tab.putD {} c (g (Tab.getD c {} n.ctxs)) n.ctxs }

/-! ### Jobs -/

/-- A new job; its number is the sequence number before the call. -/
def jobNew (s : State) (j : NeJob) : State :=
  s.modNe fun n => { n with jobs := Tab.put n.seq j n.jobs, seq := n.seq + 1 }

/-- The positions of the lines that `n` bytes at `va` touch. -/
def lineRun (va n : Nat) : List Nat := if n == 0 then [] else List.range ((va + n - 1) / 64 - va / 64 + 1)

/-- First byte and number of bytes of a run within its line at position `i`. -/
def runIn (va n i : Nat) : Nat × Nat :=
  let a := max va ((va / 64 + i) * 64)
  let b := min (va + n) ((va / 64 + i + 1) * 64)
  (a, b - a)

/-- A job of a function that reads `n` bytes at `va` (R267, R272). -/
def neRead (s : State) (kind : NeKind) (f va n : Nat) : State :=
  let id := s.ne.seq
  let l := lineRun va n
  let s := s.jobNew { kind := kind, fn := f, left := l.length, off := va % 64 }
  l.foldl (fun s i =>
    let (a, k) := runIn va n i
    s.dmaNew { who := 16, rid := f, stream := streamOf 16 f, va := a, acc := accRead, kind := 2, mask := maskRun (a % 64) k
               job := id, pos := i }) s

/-- A job of a function that writes bytes at `va`; `mode` 0: in order; 1: every line but the last may pass
earlier writes; 2: every line may (R570). -/
def neWrite (s : State) (kind : NeKind) (f va : Nat) (data : List Byte) (mode : Nat) : State :=
  let id := s.ne.seq
  let l := lineRun va data.length
  let s := s.jobNew { kind := kind, fn := f, left := l.length }
  l.foldl (fun s i =>
    let (a, k) := runIn va data.length i
    s.dmaNew { who := 16, rid := f, stream := streamOf 16 f, va := a, acc := accWrite
               kind := if mode == 2 || (mode == 1 && i + 1 < l.length) then 1 else 0, mask := maskRun (a % 64) k
               data := BitVec.ofNat 512 (leNat (slice data (a - va) k) * 2 ^ (8 * (a % 64))), job := id, pos := i }) s

/-- A job that reads `n` bytes of one of the NE's own tables at a PA. -/
def nePhysRead (s : State) (kind : NeKind) (f pa n : Nat) : State :=
  let id := s.ne.seq
  let l := lineRun pa n
  let s := s.jobNew { kind := kind, fn := f, left := l.length, off := pa % 64 }
  l.foldl (fun s i => s.dmaNew { who := 16, rid := neSelf, stream := streamOf 16 neSelf, va := 0, acc := accRead, kind := 2
                                 st := .ready, pa := (pa / 64 + i) * 64, mask := BitVec.allOnes 64, job := id, pos := i }) s

/-- A job that writes bytes at a PA, as requester `rid`. -/
def nePhysWrite (s : State) (kind : NeKind) (f rid pa : Nat) (data : List Byte) (dk : Nat) : State :=
  let id := s.ne.seq
  let s := s.jobNew { kind := kind, fn := f, left := 1 }
  s.dmaNew { who := 16, rid := rid, stream := streamOf 16 rid, va := pa, acc := accWrite, kind := dk, st := .ready, pa := pa
             mask := maskRun (pa % 64) data.length
             data := BitVec.ofNat 512 (leNat data * 2 ^ (8 * (pa % 64))), job := id }

/-- A faulted job's accesses that have not been sent are dropped with it (R493, R569). -/
def jobPurge (s : State) (id : Nat) : State :=
  let mine := s.dmas.filter fun e => e.2.who == 16 && e.2.job == id && (match e.2.st with
    | .sent _ => false
    | _ => true)
  let gone := fun (i : Nat) => mine.any fun e => e.1 == i
  let s := { s with dmas := s.dmas.filter fun e => !gone e.1 }
  let s := s.modIxu fun x => { x with walks := x.walks.filter fun e => !gone e.1 }
  s.modNe fun n => { n with jobs := Tab.upd id (fun j => { j with left := j.left - mine.length }) n.jobs }

/-- The accesses of a responder packet wait until every line of it has translated (R569). -/
def jobGated (s : State) (d : Dma) : Bool :=
  d.who == 16 && (match (Tab.get? d.job s.ne.jobs).map (fun (j : NeJob) => j.kind) with
    | some (NeKind.respWrite _) => s.dmas.any fun e => e.2.who == 16 && e.2.job == d.job && (match e.2.st with
      | .ready => false
      | .sent _ => false
      | _ => true)
    | _ => false)

/-- The function of an NE access may issue DMA now (R578, R608): Bus Master Enable is 1, and in the error state only its message goes. The
NE's own table accesses have no function. -/
def fnMayDma (s : State) (d : Dma) : Bool :=
  let x := s.fnAt d.rid
  d.who != 16 || d.rid == neSelf || (x.bme && (!x.err || d.kind == 3))

/-! ### Records and counts -/

/-- The ENDPOINT record of R698. -/
def recEndpoint (s : State) (sub src page word tag : Nat) : State :=
  s.record { typ := 0x11, cls := 3, source := src, page := page, sub := sub, words := [word % 2 ^ 16 + tag % 256 * 2 ^ 24] }

/-- Port and interface in the port of an interface number (R522). -/
def portOf (i : Nat) : Nat := i / 4

/-- An interface's rate in 0.1 Gb/s (R522, R560). -/
def lineRate (s : State) (i : Nat) : Nat :=
  match s.get (pgNEP (portOf i)) Fld.PORT_CFG_MODE with
  | 0 => 8000 | 1 => 4000 | _ => 2000

/-- The interface exists in its port's mode (R522). -/
def intfExists (s : State) (i : Nat) : Bool :=
  let m := s.get (pgNEP (portOf i)) Fld.PORT_CFG_MODE
  i < 16 && i % 4 < (if m == 0 then 1 else if m == 1 then 2 else 4)

def intfUp (s : State) (i : Nat) : Bool := (nthD s.ne.intfs i {}).up

/-! ### Completion entries (R588 to R591, R594, R596) -/

/-- A completion entry without its PHASE, as a number (R588). -/
def cplEntry (wrid bytes cid wqe opcode status : Nat) (recv : Bool) : Nat :=
  wrid % 2 ^ 64 + bytes % 2 ^ 32 * 2 ^ 64 + cid % 2 ^ 32 * 2 ^ 96 + wqe % 2 ^ 16 * 2 ^ 128 + opcode % 256 * 2 ^ 144 +
  status % 256 * 2 ^ 152 + b2n recv * 2 ^ 248

/-- PHASE of an index in a ring of 2^log entries (R589). -/
def phaseOf (i log : Nat) : Nat := if i / 2 ^ log % 2 == 0 then 1 else 0

/-- CQ entries not reserved, not written or consumed (R591). -/
def cqFree (p : Qp) : Nat := 2 ^ p.cqLog - (p.cqPi + 65536 - p.cqCi) % 65536 - p.reserved

/-- A completion joins its queue; with none due (SIGNAL = 0 and no failure) its CQ entry is free again (R586). -/
def cplPost (s : State) (f q : Nat) (entry : Option Nat) : State :=
  match entry with
  | none => s.modQp f q fun p => { p with reserved := p.reserved - 1 }
  | some e => s.modQp f q fun p => { p with cpl := p.cpl ++ [e] }

/-- Completed send descriptors at the head of the SQ yield their completions in SQ order (R586, R590). -/
def sqDrain (s : State) (f q : Nat) : Nat → State
  | 0 => s
  | n + 1 =>
    match s.qp? f q with
    | none => s
    | some p =>
      match p.sq with
      | e :: rest =>
        match e.status with
        | some st =>
          let s := s.modQp f q fun p => { p with sq := rest }
          let due := e.signal || st != 0
          (s.cplPost f q (if due then some (cplEntry e.wrid e.bytes e.cid e.idx e.code st false) else none)).sqDrain f q n
        | none => s
      | [] => s

/-- All of them do. -/
def sqFlow (s : State) (f q : Nat) : State := s.sqDrain f q (((s.qp? f q).map (·.sq.length)).getD 0)

/-- A send descriptor gets its STATUS (R588). -/
def sqMark (s : State) (f q idx status : Nat) : State :=
  s.modQp f q fun p => { p with sq := p.sq.map fun (e : SqOp) =>
    if e.idx == idx && e.status.isNone then { e with status := some status } else e }

/-- A send descriptor completes with a STATUS (R588). -/
def sqDone (s : State) (f q idx status : Nat) : State := (s.sqMark f q idx status).sqFlow f q

/-! ### Messages (R596, R597) -/

/-- A vector's MSI-X table entry: address low, address high, data, control. -/
def msixEntry (s : State) (f v : Nat) : List Nat := Tab.getD v [0, 0, 0, 1] (s.fnAt f).msix

/-- The operations of a context end with CONN_ERR, and nothing is sent any more (R565). -/
def ctxAbort (s : State) (c : Nat) : State :=
  let x := s.ctxAt c
  let s := s.modCtx c fun x => { x with st := 4, unacked := [], ops := [], ready := none, building := false, rto := none }
  x.ops.foldl (fun s o => s.sqDone o.fn o.q o.idx 8) s

/-- A connection enters ERROR (R565); with its function one in INIT does so too (R602, R608). -/
def ctxToError (s : State) (c : Nat) : State :=
  let x := s.ctxAt c
  if x.st != 1 && x.st != 2 && x.st != 3 then s
  else ((s.ctxAbort c).count pgNE Fld.CTX_ERR_CNT_COUNT).status pgNE Fld.NE_STAT_CTX_ERR (srcNE 0)

/-- Contexts a function owns. -/
def ctxsOf (s : State) (f : Nat) : List Nat := (s.ne.ctxs.filter fun e => e.2.st != 0 && e.2.fn == f).map (·.1)

/-- The Message Address of a vector (R597). -/
def msixAddr (s : State) (f v : Nat) : Nat :=
  let e := s.msixEntry f v
  nthD e 0 0 / 4 * 4 + nthD e 1 0 * 2 ^ 32

/-- A vector's message goes out, or is noted pending under a mask (R597). -/
def msixPost (s : State) (f v : Nat) : State :=
  let e := s.msixEntry f v
  if (s.fnAt f).msixMask || bitN (nthD e 3 1) 0 then s.modFn f fun x => { x with pba := if x.pba.contains v then x.pba else x.pba ++ [v] }
  else if isDeviceRange (s.msixAddr f v) then s.nePhysWrite .msix f f (s.msixAddr f v) (bytesOf (nthD e 2 0) 4) 3
  else s

/-- Send a vector's message (R597); a Message Address outside the device range puts the function in error, which itself allows one
message of vector 0 (R596, R608). -/
def msixSend (s : State) (f v : Nat) : State :=
  let x := s.fnAt f
  if !x.msixEn || x.flr.isSome || !x.bme then s
  else if x.msixMask || bitN (nthD (s.msixEntry f v) 3 1) 0 || isDeviceRange (s.msixAddr f v) then s.msixPost f v
  else if x.err then s
  else
    let s := s.modFn f fun x => { x with err := true, cause := 5 }
    let s := (s.ctxsOf f).foldl (fun s c => s.ctxToError c) s
    ((s.fire (srcNE 4)).recEndpoint 2 (srcNE 4) pgNE f 0).msixPost f 0

/-- A function enters the error state (R608). -/
def fnError (s : State) (f cause : Nat) : State :=
  if (s.fnAt f).err then s
  else
    let s := s.modFn f fun x => { x with err := true, cause := cause }
    let s := (s.ctxsOf f).foldl (fun s c => s.ctxToError c) s
    ((s.fire (srcNE 4)).recEndpoint 2 (srcNE 4) pgNE f 0).msixSend f 0

/-! ### Completion writes (R589, R596) -/

/-- The oldest completion of a pair that waits is written with its PHASE, and its message sent where the vector is armed
(R589, R596). -/
def cplWrite (s : State) (f q : Nat) : State :=
  match s.qp? f q with
  | none => s
  | some p =>
    match p.cpl with
    | [] => s
    | e :: rest =>
      if p.cplBusy || !s.fnLive f then s
      else
        let v := e + phaseOf p.cqPi p.cqLog * 2 ^ 255
        let va := p.cqBase + 32 * (p.cqPi % 2 ^ p.cqLog)
        let s := s.modQp f q fun p => { p with cpl := rest, cplBusy := true, cqPi := (p.cqPi + 1) % 65536, reserved := p.reserved - 1
                                               arm := false }
        let s := s.neWrite (.cplWrite q) f va (bytesOf v 32) 0
        if p.arm then s.msixSend f p.vec else s

/-! ### Queue pairs (R583 to R595) -/

/-- The NE fetches the next send descriptor of a pair, where it may reserve a CQ entry (R591, R595). -/
def qpKick (s : State) (f q : Nat) : State :=
  match s.qp? f q with
  | none => s
  | some p =>
    if p.fetching || p.err || p.sqCi == p.sqPi || cqFree p == 0 || !s.fnLive f then s
    else
      let s := s.modQp f q fun p => { p with fetching := true, reserved := p.reserved + 1, sqCi := (p.sqCi + 1) % 65536 }
      s.neRead (.sqFetch q p.sqCi) f (p.sqBase + 64 * (p.sqCi % 2 ^ p.sqLog)) 64

/-- Every fetched or posted descriptor of a pair completes with FLUSHED (R595, R599). What the NE has not fetched it cannot name: WR_ID, the
context and the send opcode of a posted descriptor's completion are free values (log 156). -/
def qpFlush (s : State) (f q : Nat) : State :=
  match s.qp? f q with
  | none => s
  | some p =>
    let nsq := min ((p.sqPi + 65536 - p.sqCi) % 65536) (2 ^ p.sqLog)
    let nrq := min ((p.rqPi + 65536 - p.rqCi) % 65536) (2 ^ p.rqLog)
    let any := fun (i : Nat) => (Config.freeLine (s.ctr + i)).toNat
    let posted := (List.range nsq).map fun i => cplEntry (any i) 0 (bits (any i) 64 20) (p.sqCi + i) (bits (any i) 84 8) 1 false
    let rposted := (List.range nrq).map fun i => cplEntry (any (nsq + i)) 0 (bits (any (nsq + i)) 64 20) (p.rqCi + i) 0x81 1 true
    let flush := fun (e : SqOp) => { e with status := match e.status with
                                                      | some t => some t
                                                      | none => some 1 }
    let s := (s.modQp f q fun p => { p with sq := p.sq.map flush, sqCi := p.sqPi, rqCi := p.rqPi }).sqDrain f q (p.sq.length + 1)
    { s with ctr := s.ctr + nsq + nrq }.modQp f q fun p => { p with cpl := p.cpl ++ posted ++ rposted, reserved := p.reserved + nsq + nrq }

/-- QP error (R595). -/
def qpError (s : State) (f q : Nat) : State :=
  match s.qp? f q with
  | none => s
  | some p =>
    if p.err then s
    else
      let s := s.modFn f fun x => { x with qpErr := true, errQp := match x.errQp with
                                                                    | some k => some k
                                                                    | none => some q }
      (s.modQp f q fun p => { p with err := true }).qpFlush f q

/-- A doorbell to a pair that does not exist is counted (R593); none acts during an FLR (R602). -/
def dbDrop (s : State) (f : Nat) : State := s.modFn f fun x => { x with dbDrop := satAdd x.dbDrop 1 0xFFFFFFFF }

/-- SQ_PI (R593). -/
def sqPi (s : State) (f q v : Nat) : State :=
  if (s.fnAt f).flr.isSome then s
  else match s.qp? f q with
    | none => s.dbDrop f
    | some p =>
      let v := v % 65536
      if v == p.sqPi then s
      else if 2 ^ p.sqLog < (v + 65536 - p.sqCi) % 65536 then s.qpError f q
      else (s.modQp f q fun p => { p with sqPi := v }).qpKick f q

/-- RQ_PI (R593). -/
def rqPi (s : State) (f q v : Nat) : State :=
  if (s.fnAt f).flr.isSome then s
  else match s.qp? f q with
    | none => s.dbDrop f
    | some p =>
      let v := v % 65536
      if v == p.rqPi then s
      else if 2 ^ p.rqLog < (v + 65536 - p.rqCi) % 65536 then s.qpError f q
      else s.modQp f q fun p => { p with rqPi := v }

/-- CQ_CI with ARM (R593, R596). -/
def cqCi (s : State) (f q v : Nat) : State :=
  if (s.fnAt f).flr.isSome then s
  else match s.qp? f q with
    | none => s.dbDrop f
    | some p =>
      let ci := v % 65536
      let ahead := (p.cqPi + 65536 - ci) % 65536
      if 2 ^ p.cqLog < ahead then s.qpError f q
      else
        let s := s.modQp f q fun p => { p with cqCi := ci, arm := p.arm || bitN v 16 }
        let s := if bitN v 16 && ahead != 0 then (s.modQp f q fun p => { p with arm := false }).msixSend f p.vec else s
        (s.qpKick f q)

/-- The NET record of R698. -/
def recNet (s : State) (sub src page m result : Nat) : State :=
  s.record { typ := 0x10, cls := 3, source := src, page := page, sub := sub, words := [m % 4 + result % 256 * 256] }

/-! ### Frames sent (R525, R543 to R547) -/

/-- The status slot, the first word of a frame in a packet buffer (R544): its byte count, the valid bytes of its last word (0 for 16), a
good FCS, and an uncorrectable FEC codeword. -/
def frameStatus (fr : Frame) : Nat :=
  fr.len % 2 ^ 14 + fr.len % 16 * 2 ^ 16 + b2n fr.fcs * 2 ^ 20 + b2n (!fr.fec) * 2 ^ 21

/-- A word of a port's packet buffers held a correctable error, or one that is not (R547). -/
def bufError (s : State) (n : Nat) : EccOutcome → State
  | .clean => s
  | .corrected => s.raise1 (pgNEP n) Fld.PORT_STAT_BUF_CE
  | .uncorrectable =>
    ((s.count (pgNEP n) (Fld.BUF_UE_COUNT 0)).status (pgNEP n) Fld.PORT_STAT_BUF_UE (srcNEP n 1)).recNet 2 (srcNEP n 1) (pgNEP n) n 0

/-- A frame leaves by an interface through the port's transmit buffer, or is lost there while the interface is down (R524, R525); with an
uncorrectable error in the buffer its FCS is corrupted (R547). -/
def frameOut (s : State) (i : Nat) (fr : Frame) (buf : EccOutcome := .clean) : State :=
  let pg := pgNEP (portOf i)
  if !s.intfUp i then s.count pg (Fld.TX_DOWN_COUNT (i % 4))
  else
    let fr := match buf with
      | .uncorrectable => { fr with fcs := false }
      | _ => fr
    let s := ((s.bufError (portOf i) buf).count pg (Fld.TX_FRAMES_COUNT (i % 4))).bump pg 0x079 ((fr.len + 63) / 64) none none (some (i % 4))
    s.modNe fun n => { n with sentFrame := Tab.put i fr n.sentFrame }

end State
end Sys2Proof.Machine
end

