-- ==== Sys2Proof/Machine/ChainFmt.lean ====
section
/-! DEFINITION. The bytes of a Chain packet (R552 to R554, R561): the header and the extension header, big-endian, and the payload or
its sealed form; and what a receiver reads from them. -/

namespace Sys2Proof.Machine

/-- The 40 bytes of the Chain header (R553). -/
def chainHeader (p : ChainPkt) : List Byte :=
  [BitVec.ofNat 8 (16 + p.typ), BitVec.ofNat 8 p.flags, BitVec.ofNat 8 p.op, BitVec.ofNat 8 p.status] ++ bytesBe p.dcid 4 ++
  bytesBe p.psn 4 ++ bytesBe p.apsn 4 ++ bytesBe p.sack 8 ++ bytesBe p.ts 4 ++ bytesBe p.tse 4 ++ bytesBe p.iv 8

/-- The extension header (R554). -/
def chainExt (p : ChainPkt) : List Byte :=
  match p.typ with
  | 0 =>
    if p.op == 0 then bytesBe p.msn 4 ++ bytesBe p.off 4
    else bytesBe p.va 8 ++ bytesBe p.key 4 ++
      (if p.op ≤ 2 then bytesBe p.len 4 else bytesBe 0 4 ++ bytesBe p.operand 8 ++ bytesBe p.compare 8)
  | 2 => bytesBe p.off 8
  | 3 => bytesBe p.operand 8
  | _ => []

/-- The length of the extension header of a TYPE and OP (R554). -/
def chainExtLen (typ op : Nat) : Nat :=
  if typ == 0 then (if op == 0 then 8 else if op ≤ 2 then 16 else 32) else if typ == 2 || typ == 3 then 8 else 0

/-- The bytes that the tag covers beside the payload (R561). -/
def chainAad (p : ChainPkt) : List Byte := chainHeader p ++ chainExt p

/-- The UDP payload that carries a packet: header, extension header, and what follows them. -/
def chainBytes (p : ChainPkt) : List Byte := chainAad p ++ p.data

/-- The Chain packet that a UDP payload holds, where its header keeps R553: VER, TYPE, OP, STATUS and the reserved bits. -/
def chainParse (b : List Byte) : Option ChainPkt :=
  let typ := beAt b 0 1 % 16
  let flags := beAt b 1 1
  let op := beAt b 2 1
  let st := beAt b 3 1
  let iv := beAt b 32 8
  let n := 40 + chainExtLen typ op
  let p : ChainPkt :=
    { typ := typ, flags := flags, op := op, status := st, dcid := beAt b 4 4, psn := beAt b 8 4, apsn := beAt b 12 4, sack := beAt b 16 8
      ts := beAt b 24 4, tse := beAt b 28 4, iv := iv, data := b.drop n }
  let p : ChainPkt :=
    if typ == 0 && op == 0 then { p with msn := beAt b 40 4, off := beAt b 44 4 }
    else if typ == 0 && op ≤ 2 then { p with va := beAt b 40 8, key := beAt b 48 4, len := beAt b 52 4 }
    else if typ == 0 then { p with va := beAt b 40 8, key := beAt b 48 4, operand := beAt b 56 8, compare := beAt b 64 8 }
    else if typ == 2 then { p with off := beAt b 40 8 }
    else if typ == 3 then { p with operand := beAt b 40 8 }
    else p
  let ok := n ≤ b.length && beAt b 0 1 / 16 == 1 && typ ≤ 4 && flags < 64 && (typ != 0 || op ≤ 4) &&
    (if typ == 4 then 1 ≤ st && st ≤ 6 else st == 0) && decide (iv < 2 ^ 48) && (bitN flags 3 || iv == 0)
  if ok then some p else none

/-- The Chain packet that a frame carries (R552, R553). -/
def Frame.chain (fr : Frame) : Option ChainPkt := chainParse fr.udp

/-- The frame arrived with ECN CE (R557). -/
def Frame.ce (fr : Frame) : Bool := fr.tos % 4 == 3

/-- KEY and SALT of a phase in a connection's parameter block (R566). -/
def Ctx.keyOf (x : Ctx) (kph : Bool) : List Byte := slice x.parm (64 + 32 * b2n kph) 32
def Ctx.saltOf (x : Ctx) (kph : Bool) : List Byte := slice x.parm (128 + 4 * b2n kph) 4

/-- The packet with its payload sealed under the key of its phase; the nonce is SALT followed by the 8 bytes of IV (R561). -/
def chainSeal (x : Ctx) (p : ChainPkt) : ChainPkt :=
  let k := bitN p.flags 4
  { p with data := gcmSeal (x.keyOf k) (x.saltOf k ++ bytesBe p.iv 8) (chainAad p) p.data }

/-- The packet with its payload opened, where the tag verifies (R561, R563). -/
def chainOpen (x : Ctx) (p : ChainPkt) : Option ChainPkt :=
  let k := bitN p.flags 4
  (gcmOpen (x.keyOf k) (x.saltOf k ++ bytesBe p.iv 8) (chainAad p) p.data).map fun d => { p with data := d }

end Sys2Proof.Machine
end

