-- ==== Sys2Proof/Machine/Chain.lean ====
section
/-! DEFINITION. The Chain transport (R552 to R573): contexts on die, packets sent and received, reliability, congestion control,
the responder's operations and the requester's completions. -/

namespace Sys2Proof.Machine

/-! ### Contexts (R566) -/

def Ctx.intf (x : Ctx) : Nat := leAt x.parm 0 2
def Ctx.pd (x : Ctx) : Nat := leAt x.parm 14 2
def Ctx.sip (x : Ctx) : Nat := beAt x.parm 16 16
def Ctx.enc (x : Ctx) : Bool := bitN (leAt x.parm 60 1) 0

/-- PSN arithmetic is modulo 2^32 (R555): `a` comes before `b`. -/
def psnLt (a b : Nat) : Bool :=
  let d := (b + 2 ^ 32 - a) % 2 ^ 32
  0 < d && d < 2 ^ 31
def psnAdd (a n : Nat) : Nat := (a + n) % 2 ^ 32

/-- SACK: bit i says that PSN APSN + 1 + i has been received (R553). -/
def sackOf (x : Ctx) : Nat := maskOf ((List.range 64).filter fun i => x.got.contains (psnAdd x.apsn (1 + i)))

/-- Chain FLAGS (R553). -/
def flFirst : Nat := 1
def flLast : Nat := 2
def flAckReq : Nat := 4

/-- STATUS of a completion for a NAK's reason (R553, R588). -/
def nakStatus (reason : Nat) : Nat := reason + 1

namespace State

/-- The Chain payload limit (NE_CFG.MTU). -/
def mtu (s : State) : Nat := 1024 * 2 ^ s.get pgNE Fld.NE_CFG_MTU

/-- A context is used: it is on die, most recently; beyond 16,384 the least recently used idle one is written to the table
(R567), its bytes being the NE's own. -/
def ctxTouch (s : State) (c : Nat) : State :=
  let s := s.modNe fun n => { n with onDie := c :: n.onDie.filter (· != c) }
  if s.ne.onDie.length ≤ 16384 then s
  else match s.ne.onDie.reverse.find? fun k =>
      let x := s.ctxAt k
      x.unacked.isEmpty && x.ops.isEmpty && x.got.isEmpty with
    | none => s
    | some k =>
      let s := s.modNe fun n => { n with onDie := n.onDie.filter (· != k) }
      let base := s.pageAddr pgNE Reg.CTX_BASE_LO Reg.CTX_BASE_HI + 256 * k
      [0, 1, 2, 3].foldl (fun s i =>
        let d := Config.freeLine s.ctr
        ({ s with ctr := s.ctr + 1 }).nePhysWrite .ctxSpill 0 neSelf (base + 64 * i) (lineBytes d) 0) s

/-- A context that is not on die is read from the table (R567); at most 64 fills at once. True where it waits. -/
def ctxNeed (s : State) (c : Nat) : Bool × State :=
  if s.ne.onDie.contains c then (false, s.ctxTouch c)
  else if (Tab.get? c s.ne.fills).isSome || 64 ≤ s.ne.fills.length then (true, s)
  else
    let s := (s.modNe fun n => { n with fills := Tab.put c [] n.fills }).bump pgNE 0x072
    (true, s.nePhysRead (.ctxFill c) 0 (s.pageAddr pgNE Reg.CTX_BASE_LO Reg.CTX_BASE_HI + 256 * c) 256)

/-! ### Sending (R552, R561, R562) -/

/-- Bytes of a Chain packet on the wire: Ethernet, IP, UDP, Chain header, extension, payload, tag, FCS. -/
def chainLen (x : Ctx) (p : ChainPkt) : Nat :=
  let ext := chainExtLen p.typ p.op
  18 + (if bitN (leAt x.parm 4 2) 12 then 4 else 0) + (if leAt x.parm 2 1 == 6 then 40 else 20) + 8 + 40 + ext + p.data.length +
    (if x.enc then 16 else 0)

/-- A connection sends one packet: the header's acknowledgement fields, the encryption counter, the counts (R553, R562), and the frame,
sealed where the connection is encrypted (R552, R561); `buf`: what the transmit buffer's words held (R547). -/
def chainTx (s : State) (c : Nat) (p : ChainPkt) (retx : Bool) (buf : EccOutcome := .clean) : State :=
  let x := s.ctxAt c
  let flags := p.flags % 8 + (if x.enc then 8 else 0) + (if x.enc && x.kph then 16 else 0) + (if p.typ == 1 && x.ece then 32 else 0)
  let q : ChainPkt := { p with flags := flags, dcid := x.rcid, ts := s.time % 2 ^ 32, apsn := x.apsn, sack := sackOf x, tse := x.tse
                               iv := if x.enc then x.iv else 0 }
  let s := (s.bump pgNE 0x070).bump pgNE 0x071 (b2n retx)
  let s := s.modNe fun n => { n with sentPkt := Tab.put c q n.sentPkt }
  let s := s.frameOut x.intf { len := chainLen x p, vid := leAt x.parm 4 2, dmac := beAt x.parm 6 6
                               etype := if leAt x.parm 2 1 == 6 then 0x86DD else 0x0800, proto := 17, sport := leAt x.parm 12 2
                               dport := s.get pgNE Fld.NE_CFG_CHAIN_PORT, sip := x.sip, dip := beAt x.parm 32 16
                               tos := leAt x.parm 3 1 % 64 * 4 + 2, udp := chainBytes (if x.enc then chainSeal x q else q) } buf
  if !x.enc then s
  else
    let low := x.iv + 1 == 2 ^ 48 - 2 ^ 32
    let s := s.modCtx c fun x => { x with iv := x.iv + 1, ivLow := x.ivLow || low }
    if low then s.status pgNE Fld.NE_STAT_IV_LOW (srcNE 1)
    else if x.iv + 1 == 2 ^ 48 && x.st != 1 then s.ctxToError c else s

/-- An ACK (R557). -/
def chainAck (s : State) (c : Nat) : State :=
  (s.chainTx c { typ := 1, dcid := 0, psn := 0 } false).modCtx c fun x => { x with since := 0, oldest := none, ece := false }

/-- A NAK (R569). -/
def chainNak (s : State) (c psn reason : Nat) : State := s.chainTx c { typ := 4, status := reason, dcid := 0, psn := psn } false

/-! ### The requester: packets of operations (R555, R560, R570) -/

/-- The context may put another packet of an operation together (R555): fewer than 64 DATA packets unacknowledged, at most 16
READ and ATOMIC operations outstanding. -/
def ctxMay (x : Ctx) (o : ChOp) : Bool :=
  x.unacked.length < 64 &&
  (o.code < 3 || ((x.ops.filter fun (e : ChOp) => 3 ≤ e.code && e.lastPsn.isSome && !e.ended).length < 16))

/-- The DATA packet of an operation at its next byte, without payload. -/
def opPacket (x : Ctx) (o : ChOp) (n : Nat) : ChainPkt :=
  let last := o.code ≥ 3 || o.packed + n == o.len
  let fl := (if o.packed == 0 then flFirst else 0) + (if last then flLast + flAckReq else 0)
  let base : ChainPkt := { typ := 0, flags := fl, dcid := x.rcid, psn := 0 }
  match o.code with
  | 1 => { base with op := 0, msn := o.msn, off := o.packed }
  | 2 => { base with op := 1, va := o.rva + o.packed, key := o.key, len := o.len }
  | 3 => { base with op := 2, va := o.rva, key := o.key, len := o.len }
  | 4 => { base with op := 3, va := o.rva, key := o.key, operand := o.operand }
  | _ => { base with op := 4, va := o.rva, key := o.key, operand := o.operand, compare := o.compare }

/-- Put the next packet of a context together: its payload comes inline, or is read in the owner's stream (R573). -/
def ctxBuild (s : State) (c : Nat) : State :=
  let x := s.ctxAt c
  if (x.st != 2 && x.st != 3) || x.ready.isSome || x.building then s
  else match x.ops.find? fun (o : ChOp) => !o.ended && (o.lastPsn.isNone || (o.code ≤ 2 && o.packed < o.len)) with
    | none => s
    | some o =>
      if !ctxMay x o then s
      else
        let n := if o.code ≤ 2 then min s.mtu (o.len - o.packed) else 0
        let p := opPacket x o n
        match o.imm with
        | some d => s.modCtx c fun x => { x with ready := some ({ p with data := slice d o.packed n }, o.id) }
        | none =>
          if n == 0 then s.modCtx c fun x => { x with ready := some (p, o.id) }
          else (s.modCtx c fun x => { x with building := true }).neRead (.payload c o.id o.packed n) o.fn (o.lva + o.packed) n

/-- The payload of a context's next packet has been read (R573: a fault ends the connection; its operation completes with LOCAL_XLAT). -/
def payloadDone (s : State) (c op : Nat) (n : Nat) (j : NeJob) : State :=
  let x := s.ctxAt c
  let s := s.modCtx c fun x => { x with building := false }
  match x.ops.find? (·.id == op) with
  | none => s
  | some o =>
    if j.bad then (s.sqMark o.fn o.q o.idx 9).ctxToError c
    else s.modCtx c fun x => { x with ready := some ({ opPacket x o n with data := j.bytes n }, op) }

/-- The pacer sends the packet that is ready, once the rate allows (R560). -/
def chainSend (s : State) (c : Nat) (buf : EccOutcome) : State :=
  let s := s.ctxBuild c
  let x := s.ctxAt c
  match x.ready with
  | none => s
  | some (p, op) =>
    if (x.st != 2 && x.st != 3) || s.time < x.nextSend then s
    else
      let p : ChainPkt := { p with psn := x.psn }
      let s := s.modCtx c fun x =>
        { x with ready := none, psn := psnAdd x.psn 1
                 unacked := x.unacked ++ [{ psn := p.psn, op := op, p := p, sent := s.time }]
                 ops := x.ops.map fun (o : ChOp) =>
                   if o.id == op then { o with packed := o.packed + p.data.length, lastPsn := some p.psn } else o
                 rto := match x.rto with
                        | some t => some t
                        | none => some s.time
                 nextSend := s.time + chainLen x p * 80 / max x.rate 1 }
      (s.chainTx c p false buf).ctxBuild c

/-! ### Completion of operations (R572) -/

/-- An operation ends with a STATUS. -/
def opFinish (s : State) (c : Nat) (o : ChOp) (status : Nat) : State :=
  let s := s.modCtx c fun x => { x with ops := x.ops.filter (·.id != o.id)
                                        ready := match x.ready with
                                                 | some (p, k) => if k == o.id then none else some (p, k)
                                                 | none => none }
  let s := s.modQp o.fn o.q fun p => { p with sq := p.sq.map fun (e : SqOp) =>
    if e.idx == o.idx then { e with bytes := if status == 0 then o.len else 0 } else e }
  (s.sqDone o.fn o.q o.idx status).qpKick o.fn o.q

/-- Bytes of response data placed for an operation. -/
def placedBytes (o : ChOp) : Nat := (o.placed.eraseDups.map (·.2)).foldl (· + ·) 0

/-- Operations whose PSNs are all released, and whose response data is placed, complete (R572, R590). -/
def opsCheck (s : State) (c : Nat) : State :=
  let x := s.ctxAt c
  let done := x.ops.filter fun (o : ChOp) =>
    o.lastPsn.isSome &&
    (match o.code with
     | 1 | 2 => o.packed == o.len && !(x.unacked.any fun (t : TxPkt) => t.op == o.id)
     | 3 => placedBytes o == o.len
     | _ => 8 ≤ placedBytes o && !(x.unacked.any fun (t : TxPkt) => t.op == o.id))
  done.foldl (fun s o => s.opFinish c o 0) s

/-! ### Acknowledgement, rate and retransmission (R558 to R560) -/

/-- The rate and smoothed RTT after an ACK (R560). -/
def rateUpdate (s : State) (c : Nat) (ece : Bool) (tse : Nat) : State :=
  let x := s.ctxAt c
  let rtt := (s.time % 2 ^ 32 + 2 ^ 32 - tse) % 2 ^ 32
  let x' :=
    if ece || s.get pgNE Fld.CC_CFG_DELAY_TGT < rtt then
      if x.srtt ≤ s.time - x.lastCut then
        { x with rate := max 1 (x.rate - x.rate / 2 ^ s.get pgNE Fld.CC_CFG_BETA_SHIFT), lastCut := s.time }
      else x
    else if x.srtt ≤ s.time - x.lastInc then
      { x with rate := min (x.rate + s.get pgNE Fld.CC_CFG_ALPHA) (s.lineRate x.intf), lastInc := s.time }
    else x
  let srtt := (x.srtt : Int) + ((rtt : Int) - (x.srtt : Int)) / 8
  s.modCtx c fun _ => { x' with srtt := srtt.toNat }

/-- The retransmission timer's value, doubled at each consecutive expiry (R558), in ns. -/
def rtoValue (s : State) (x : Ctx) : Nat := max (1000 * s.get pgNE Fld.REL_CFG_RTO_MIN) (2 * x.srtt) * 2 ^ x.retries

/-- Release PSNs (R558): the timer restarts, the expiries in a row end. -/
def release (s : State) (c : Nat) (which : TxPkt → Bool) : State :=
  let x := s.ctxAt c
  if !(x.unacked.any which) then s
  else s.modCtx c fun x =>
    let left := x.unacked.filter fun t => !which t
    { x with unacked := left, retries := 0, rto := if left.isEmpty then none else some s.time }

/-- Send a PSN again (R555, R558). -/
def resend (s : State) (c psn : Nat) : State :=
  match (s.ctxAt c).unacked.find? (·.psn == psn) with
  | none => s
  | some t =>
    let s := s.modCtx c fun x => { x with unacked := x.unacked.map fun (u : TxPkt) =>
      if u.psn == psn then { u with sent := s.time, hold := none } else u }
    s.chainTx c t.p true

/-- An ACK arrives (R558, R560). -/
def ackRecv (s : State) (c : Nat) (p : ChainPkt) : State :=
  let shown := fun (psn : Nat) =>
    psnLt psn p.apsn || (let i := (psn + 2 ^ 32 - p.apsn - 1) % 2 ^ 32; i < 64 && bitN p.sack i)
  let s := s.release c fun t => shown t.psn
  let x := s.ctxAt c
  let top := ((List.range 64).reverse.find? fun i => bitN p.sack i).map fun i => psnAdd p.apsn (1 + i)
  let gaps := match top with
    | none => []
    | some t => x.unacked.filter fun (u : TxPkt) => psnLt u.psn t && u.sent + x.srtt ≤ s.time && u.hold.isNone
  let s := gaps.foldl (fun s u => s.resend c u.psn) s
  ((s.rateUpdate c (bitN p.flags 5) p.tse).opsCheck c).ctxBuild c

/-- A NAK arrives (R559). -/
def nakRecv (s : State) (c : Nat) (p : ChainPkt) : State :=
  match (s.ctxAt c).unacked.find? (·.psn == p.psn) with
  | none => s
  | some t =>
    let o := (s.ctxAt c).ops.find? (·.id == t.op)
    let lim := s.get pgNE Fld.REL_CFG_RNR_MAX
    if p.status == 5 && (lim == 7 || t.rnr < lim) then
      s.modCtx c fun x => { x with unacked := x.unacked.map fun (u : TxPkt) =>
        if u.psn == p.psn then { u with rnr := u.rnr + 1, hold := some (s.time + 1000 * s.get pgNE Fld.REL_CFG_RNR_DELAY) } else u }
    else
      let s := s.release c fun u => u.psn == p.psn
      match o with
      | some o => (s.opFinish c o (nakStatus p.status)).ctxBuild c
      | none => s.ctxBuild c

/-- A context is freed, its GEN advanced (R565). -/
def ctxFree (s : State) (c : Nat) : State := s.modCtx c fun x => { gen := (x.gen + 1) % 4096 }

/-- The retransmission timer expires (R558, R565). -/
def rtoExpire (s : State) (c : Nat) : State :=
  let x := s.ctxAt c
  match x.rto with
  | none => s
  | some t =>
    if s.time < t + s.rtoValue x || (x.st != 2 && x.st != 3) then s
    else
      let s := s.modCtx c fun x => { x with retries := x.retries + 1, rto := some s.time }
      if s.get pgNE Fld.REL_CFG_RETRY_MAX ≤ x.retries + 1 then
        if x.st == 3 then (s.ctxAbort c).ctxFree c else s.ctxToError c
      else match x.unacked with
        | u :: _ => s.resend c u.psn
        | [] => s.modCtx c fun x => { x with rto := none, retries := 0 }

/-! ### The receiver (R556, R557) -/

/-- Receive completions of a pair go out in the order it consumed its descriptors (R590). -/
def rxDrain (s : State) (f q : Nat) : Nat → State
  | 0 => s
  | n + 1 =>
    match s.qp? f q with
    | none => s
    | some p =>
      match p.rxPend with
      | i :: rest =>
        match Tab.get? i p.rxDone with
        | some e => ((s.modQp f q fun p => { p with rxPend := rest, rxDone := Tab.del i p.rxDone }).cplPost f q (some e)).rxDrain f q n
        | none => s
      | [] => s

/-- A receive descriptor's work ends with a completion. -/
def rxDone (s : State) (f q idx entry : Nat) : State :=
  (s.modQp f q fun p => { p with rxDone := Tab.put idx entry p.rxDone }).rxDrain f q (((s.qp? f q).map (·.rxPend.length)).getD 0)

/-- APSN passes every PSN received and performed (R557). -/
def apsnWalk (x : Ctx) : Nat → Ctx
  | 0 => x
  | n + 1 =>
    if x.perf.contains x.apsn then
      apsnWalk { x with perf := x.perf.filter (· != x.apsn), got := x.got.filter (· != x.apsn), apsn := psnAdd x.apsn 1 } n
    else x

/-- A DATA packet's accesses are performed: APSN advances, messages complete, an ACK is due or not (R557, R587). -/
def rxPerformed (s : State) (c psn : Nat) : State :=
  let s := s.modCtx c fun x => apsnWalk (if psnLt psn x.apsn then x else { x with perf := x.perf ++ [psn] }) 65
  let x := s.ctxAt c
  let ended := x.recvs.filter fun (r : RecvBuf) => match r.last with
    | some (p, _) => psnLt p x.apsn
    | none => false
  let s := s.modCtx c fun x => { x with recvs := x.recvs.filter fun r => !ended.contains r }
  let s := ended.foldl (fun s (r : RecvBuf) =>
    let total := (r.last.map (·.2)).getD 0
    s.rxDone x.fn r.q r.idx (cplEntry r.wrid (min total r.len) c r.idx 0x81 (if r.len < total then 10 else 0) true)) s
  let asked := x.ackReqs.any fun p => psnLt p x.apsn
  let s := s.modCtx c fun x => { x with ackReqs := x.ackReqs.filter fun p => !psnLt p x.apsn }
  if asked || 16 ≤ x.since then s.chainAck c else s

/-! ### The responder (R569, R570) -/

/-- Refuse a packet with a NAK: nothing is accessed; every reason but RNR takes the PSN (R559, R569). -/
def respRefuse (s : State) (rid reason : Nat) : State :=
  match Tab.get? rid s.ne.rops with
  | none => s
  | some r =>
    let s := s.modNe fun n => { n with rops := Tab.del rid n.rops }
    let s := s.chainNak r.cid r.p.psn reason
    if reason == 5 then s.modCtx r.cid fun x => { x with got := x.got.filter (· != r.p.psn) }
    else s.rxPerformed r.cid r.p.psn

/-- A responder packet is done. -/
def respEnd (s : State) (rid : Nat) : State :=
  match Tab.get? rid s.ne.rops with
  | none => s
  | some r => (s.modNe fun n => { n with rops := Tab.del rid n.rops }).rxPerformed r.cid r.p.psn

/-- Place the bytes of a SEND packet in its message's buffer (R570, R587). -/
def sendPlace (s : State) (rid : Nat) (r : RespOp) (b : RecvBuf) : State :=
  let x := s.ctxAt r.cid
  let fits := r.p.data.take (b.len - r.p.off)
  let last := bitN r.p.flags 1
  let s := s.modCtx r.cid fun x => { x with recvs := x.recvs.map fun (e : RecvBuf) =>
    if e.msn == b.msn then { e with got := e.got + r.p.data.length
                                    last := if last then some (r.p.psn, r.p.off + r.p.data.length) else e.last } else e }
  s.neWrite (.respWrite rid) x.fn (b.va + r.p.off) fits (if last then 1 else 2)

/-- A SEND packet: the next receive descriptor is consumed for the message, or NAK RNR (R570, R591). -/
def sendStart (s : State) (rid : Nat) (r : RespOp) : State :=
  let x := s.ctxAt r.cid
  match x.recvs.find? (·.msn == r.p.msn) with
  | some b => s.sendPlace rid r b
  | none =>
    if r.p.msn != x.rxMsn then s.modCtx r.cid fun x => { x with parked := x.parked ++ [r.p] }
    else match s.qp? x.fn x.qp with
      | none => s.respRefuse rid 5
      | some p =>
        if p.rqCi == p.rqPi || cqFree p == 0 || p.err then s.respRefuse rid 5
        else
          let s := s.modQp x.fn x.qp fun p => { p with rqCi := (p.rqCi + 1) % 65536, reserved := p.reserved + 1
                                                       rxPend := p.rxPend ++ [p.rqCi] }
          let s := s.modCtx r.cid fun x => { x with rxMsn := (x.rxMsn + 1) % 2 ^ 32 }
          s.neRead (.rqFetch x.qp rid) x.fn (p.rqBase + 64 * (p.rqCi % 2 ^ p.rqLog)) 64

/-- The window entry of a WRITE, READ or ATOMIC packet is known: the checks of R569 in order, then the accesses of R570. -/
def respChecked (s : State) (rid : Nat) (r : RespOp) (e : Nat) : State :=
  let x := s.ctxAt r.cid
  let p := r.p
  let n := if p.op == 1 then p.data.length else if p.op == 2 then p.len else 8
  let base := bits e 0 64
  let perm := if p.op == 2 then 0 else if p.op == 1 then 1 else 2
  if !bitN e 167 || bits e 168 8 != p.key % 256 || (s.fnAt (bits e 128 16)).flr.isSome then s.respRefuse rid 1
  else if bits e 128 16 != x.fn || bits e 144 16 != x.pd || !bitN e (160 + perm) then s.respRefuse rid 3
  else if p.va < base || base + bits e 64 64 < p.va + n || (3 ≤ p.op && p.va % 8 != 0) then s.respRefuse rid 2
  else match p.op with
    | 1 => s.neWrite (.respWrite rid) x.fn p.va p.data (if bitN p.flags 1 then 1 else 2)
    | 2 => s.neRead (.respRead rid) x.fn p.va p.len
    | _ =>
      let off := p.va % 64
      let other := if off < 32 then off + 32 else off - 32
      let d := setLineField 0 off 8 p.operand
      let (op, d, m) := if p.op == 3 then (0, d, maskRun off 8)
        else (if off < 32 then 2 else 3, setLineField d other 8 p.compare, maskRun off 8 ||| maskRun other 8)
      let id := s.ne.seq
      (s.jobNew { kind := .respWrite rid, fn := x.fn, left := 1, off := off }).dmaNew
        { who := 16, rid := x.fn, stream := streamOf 16 x.fn, va := p.va, acc := accAtomic, kind := 2, data := d, mask := m, op := op
          job := id }

/-- Begin a responder packet: SEND, or the window's entry (R569, R571). -/
def respStart (s : State) (c : Nat) (p : ChainPkt) : State :=
  let rid := s.ne.seq
  let r : RespOp := { cid := c, gen := (s.ctxAt c).gen, p := p, win := if p.op == 0 then none else some (p.key / 256) }
  let s := s.modNe fun n => { n with rops := Tab.put rid r n.rops, seq := n.seq + 1 }
  if p.op == 0 then s.sendStart rid r
  else
    let i := p.key / 256
    if 2 ^ s.get pgNE Fld.WIN_BASE_LO_LOG2 ≤ i then s.respRefuse rid 1
    else match Tab.get? i s.ne.wins with
      | some e => s.respChecked rid r e
      | none => s.nePhysRead (.winRead rid i) 0 (s.pageAddr pgNE Reg.WIN_BASE_LO Reg.WIN_BASE_HI + 32 * i) 32

/-- READ_RESP packets carry a READ's data (R554, R570). -/
def readResp (s : State) (c psn : Nat) (data : List Byte) (off : Nat) : Nat → State
  | 0 => s
  | n + 1 =>
    let part := slice data off s.mtu
    let s := s.chainTx c { typ := 2, flags := (if off == 0 then flFirst else 0) + (if data.length ≤ off + s.mtu then flLast else 0)
                           dcid := 0, psn := psn, off := off, data := part } false
    if data.length ≤ off + s.mtu then s else s.readResp c psn data (off + s.mtu) n

/-- The accesses of a responder packet have ended (R557, R569, R570). -/
def respAccessed (s : State) (rid : Nat) (j : NeJob) : State :=
  match Tab.get? rid s.ne.rops with
  | none => s
  | some r =>
    if (s.ctxAt r.cid).gen != r.gen || (s.ctxAt r.cid).st == 4 then s.modNe fun n => { n with rops := Tab.del rid n.rops }
    else if j.bad then s.respRefuse rid 4
    else match r.p.op with
      | 2 => (s.readResp r.cid r.p.psn (j.bytes r.p.len) 0 (r.p.len / 1024 + 1)).respEnd rid
      | 3 | 4 =>
        let v := leNat (j.bytes 8)
        let s := s.modCtx r.cid fun x => { x with atomics := ((r.p.psn, v) :: x.atomics).take 16 }
        (s.chainTx r.cid { typ := 3, dcid := 0, psn := r.p.psn, operand := v } false).respEnd rid
      | _ => s.respEnd rid

/-- A receive descriptor has been fetched for a message (R573, R587, R591). -/
def rqFetched (s : State) (q rid : Nat) (j : NeJob) : State :=
  match Tab.get? rid s.ne.rops with
  | none => s
  | some r =>
    if j.bad then s.fnError j.fn 1
    else
      let d := j.bytes 64
      let idx := (((s.qp? j.fn q).map (·.rxPend)).getD []).getLast?.getD 0
      let b : RecvBuf := { q := q, idx := idx, wrid := leAt d 0 8, va := leAt d 8 8, len := leAt d 16 4, msn := r.p.msn }
      let s := s.modCtx r.cid fun x => { x with recvs := x.recvs ++ [b] }
      let s := s.sendPlace rid r b
      let mine := (s.ctxAt r.cid).parked.filter fun (p : ChainPkt) => p.msn == b.msn || p.msn == (s.ctxAt r.cid).rxMsn
      let s := s.modCtx r.cid fun x => { x with parked := x.parked.filter fun p => !mine.contains p }
      let waiting := s.ne.rops.filter fun e => e.2.cid == r.cid && mine.contains e.2.p
      waiting.foldl (fun s e => s.sendStart e.1 e.2) s

/-- A DATA packet arrives at its context (R556, R557, R565, R569). -/
def dataRecv (s : State) (c : Nat) (p : ChainPkt) : State :=
  let x := s.ctxAt c
  let s := s.modCtx c fun x => { x with tse := p.ts }
  if x.st == 1 then s.chainNak c p.psn 6
  else if (p.psn + 2 ^ 32 - x.apsn) % 2 ^ 32 < 64 && !x.got.contains p.psn then
    let s := s.modCtx c fun x =>
      { x with got := x.got ++ [p.psn], since := x.since + 1
               ackReqs := if bitN p.flags 2 then x.ackReqs ++ [p.psn] else x.ackReqs
               oldest := match x.oldest with
                         | some t => some t
                         | none => some s.time }
    let s := if p.psn != x.apsn && !x.got.contains ((p.psn + 2 ^ 32 - 1) % 2 ^ 32) then s.chainAck c else s
    s.respStart c p
  else
    let s := s.count pgNE Fld.CHAIN_DROP_COUNT
    if !psnLt p.psn x.apsn then s
    else match x.atomics.find? (·.1 == p.psn) with
      | some (_, v) => s.chainTx c { typ := 3, dcid := 0, psn := p.psn, operand := v } false
      | none => if p.op == 2 then s.respStart c p else s.chainAck c

/-- Response data of a READ or ATOMIC arrives and is placed (R572, R573). -/
def respRecv (s : State) (c : Nat) (p : ChainPkt) : State :=
  match (s.ctxAt c).ops.find? fun (o : ChOp) => o.lastPsn == some p.psn && (if p.typ == 2 then o.code == 3 else 4 ≤ o.code) with
  | none => s
  | some o =>
    if p.typ == 2 then s.neWrite (.place c o.id p.off p.data.length) o.fn (o.lva + p.off) p.data 2
    else s.neWrite (.place c o.id 0 8) o.fn o.lva (bytesOf p.operand 8) 2

/-- Placement has ended (R573: a fault ends the connection; its operation completes with LOCAL_XLAT). -/
def placeDone (s : State) (c op off n : Nat) (bad : Bool) : State :=
  if bad then ((((s.ctxAt c).ops.filter (·.id == op)).foldl (fun s (o : ChOp) => s.sqMark o.fn o.q o.idx 9) s)).ctxToError c
  else (s.modCtx c fun x => { x with ops := x.ops.map fun (o : ChOp) =>
    if o.id == op then { o with placed := o.placed ++ [(off, n)] } else o }).opsCheck c

/-- What every packet of a connection passes before it acts: its ENC is the connection's, and the tag of a sealed one verifies (R561,
R563, R564). A packet with ENC = 1 of a connection that is not encrypted is dropped and counted likewise (DESIGN CHOICE, log 154). -/
def chainSealed (s : State) (c : Nat) (p : ChainPkt) : Option ChainPkt × State :=
  let x := s.ctxAt c
  let plain := if x.enc != bitN p.flags 3 then none else if x.enc then chainOpen x p else some p
  (plain, if plain.isSome then s else (s.count pgNE Fld.TAG_FAIL_COUNT).status pgNE Fld.NE_STAT_TAG_FAIL (srcNE 2))

/-- A packet of one TYPE that Chain receive holds is processed (R556 to R559, R572). -/
def chainRecv (s : State) (id typ : Nat) : State :=
  match Tab.get? id s.ne.frames with
  | none => s
  | some (_, fr) =>
    match fr.chain with
    | none => s
    | some p =>
      if p.typ != typ then s
      else
        let c := p.dcid % 2 ^ 20
        let s := s.modNe fun n => { n with frames := Tab.del id n.frames }
        let (plain, s) := s.chainSealed c p
        match plain with
        | none => s
        | some p =>
          let s := if fr.ce then s.modCtx c fun x => { x with ece := true } else s
          match typ with
          | 0 => s.dataRecv c p
          | 1 => s.ackRecv c p
          | 4 => s.nakRecv c p
          | _ => s.respRecv c p

end State
end Sys2Proof.Machine
end

