-- ==== Sys2Proof/Machine/NeFlow.lean ====
section
/-! DEFINITION. Frames received and switched (R543 to R551), raw queue pairs (R584, R587), and the flow table. -/

namespace Sys2Proof.Machine

/-- One step of CRC-32C (Castagnoli, reflected) over a bit, and over a byte (R550). -/
def crcBit (c : Nat) : Nat → Nat
  | 0 => c
  | n + 1 => crcBit (if c % 2 == 1 then c / 2 ^^^ 0x82F63B78 else c / 2) n
def crcByte (c : Nat) (b : Byte) : Nat := crcBit (c ^^^ b.toNat) 8
/-- CRC-32C of a byte string: initial value and final XOR all ones (R550). -/
def crc32c (l : List Byte) : Nat := (l.foldl crcByte 0xFFFFFFFF) ^^^ 0xFFFFFFFF

/-- INGRESS or DEST of R549: an interface, or bit 15 and a function. -/
def ingressIntf (i : Nat) : Nat := i
def ingressFn (f : Nat) : Nat := 0x8000 + f

/-- Bytes 0 to 12 and 14 to 49 of an entry built from a frame, with unselected fields zero (R549, R550). Multi-byte network fields
are in wire order; INGRESS and VID are little-endian. -/
def flowKey (mask ingress : Nat) (fr : Frame) : List Byte :=
  let f := fun (i : Nat) (l : List Byte) => if bitN mask i then l else l.map fun _ => 0
  f 0 (bytesOf ingress 2) ++ f 1 (bytesOf fr.vid 2) ++ f 2 (bytesBe fr.dmac 6) ++ f 3 (bytesBe fr.etype 2) ++ f 4 (bytesOf fr.proto 1) ++
  f 5 (bytesBe fr.sport 2) ++ f 6 (bytesBe fr.sip 16) ++ f 7 (bytesBe fr.dip 16) ++ f 8 (bytesBe fr.dport 2)

/-- The key bytes of a table entry. -/
def entryKey (e : Nat) : List Byte := slice (bytesOf e 64) 0 13 ++ slice (bytesOf e 64) 14 36

/-- The outer VLAN ID of a frame's bytes, with the tagged bit (R549; IEEE 802.1Q). -/
def vidOf (b : List Byte) : Nat := if beAt b 12 2 == 0x8100 || beAt b 12 2 == 0x88A8 then beAt b 14 2 % 0x1000 + 0x1000 else 0

/-- A VLAN operation on a frame and its bytes (R549): a pushed tag has TPID 0x8100 and priority 0 (DESIGN CHOICE, log 155); pop and rewrite
leave an untagged frame alone. -/
def vlanOp (fr : Frame) (op vid : Nat) : Frame :=
  match op with
  | 1 => { fr with vid := vid + 0x1000, len := fr.len + 4, data := fr.data.take 12 ++ bytesBe 0x8100 2 ++ bytesBe vid 2 ++ fr.data.drop 12 }
  | 2 =>
    if !bitN fr.vid 12 then fr
    else
      let d := fr.data.take 12 ++ fr.data.drop 16
      { fr with vid := vidOf d, len := fr.len - 4, data := d }
  | 3 =>
    if !bitN fr.vid 12 then fr
    else { fr with vid := vid + 0x1000
                   data := fr.data.take 14 ++ bytesBe (beAt fr.data 14 2 / 0x1000 * 0x1000 + vid) 2 ++ fr.data.drop 16 }
  | _ => fr

/-- IPv4-mapped form of an address (R549). -/
def mapped4 (a : Nat) : Nat := 0xFFFF * 2 ^ 32 + a

/-- The key fields of a frame a raw queue sends, read from its bytes as IEEE 802.3, 802.1Q and the IP RFCs lay them out. -/
def parseFrame (b : List Byte) : Frame :=
  let tagged := beAt b 12 2 == 0x8100 || beAt b 12 2 == 0x88A8
  let two := tagged && beAt b 16 2 == 0x8100
  let off := if two then 20 else if tagged then 16 else 12
  let et := beAt b off 2
  let ip := off + 2
  let v4 := et == 0x0800
  let v6 := et == 0x86DD
  let proto := if v4 then beAt b (ip + 9) 1 else if v6 then beAt b (ip + 6) 1 else 0
  let l4 := if v4 then ip + 4 * (beAt b ip 1 % 16) else ip + 40
  let ports := proto == 6 || proto == 17
  { len := b.length + 4, vid := vidOf b, dmac := beAt b 0 6, etype := et, proto := proto
    sport := if ports then beAt b l4 2 else 0, dport := if ports then beAt b (l4 + 2) 2 else 0
    sip := if v4 then mapped4 (beAt b (ip + 12) 4) else if v6 then beAt b (ip + 8) 16 else 0
    dip := if v4 then mapped4 (beAt b (ip + 16) 4) else if v6 then beAt b (ip + 24) 16 else 0, data := b }

/-- 128-bit words a frame takes in a packet buffer (R544). -/
def frameWords (n : Nat) : Nat := 1 + (n + 15) / 16

namespace State

/-! ### Raw receive (R584, R587, R591) -/

/-- A frame for a function: its raw default pair takes it into the next receive buffer, or it is lost. -/
def rawDeliver (s : State) (f q ingress : Nat) (fr : Frame) : State :=
  match s.qp? f q with
  | none => s
  | some p =>
    if p.rqCi == p.rqPi || cqFree p == 0 || p.err || !s.fnLive f then
      if ingress < 16 then s.count (pgNEP (portOf ingress)) (Fld.RX_DROP_BUF_COUNT (ingress % 4)) else s
    else
      let s := s.modQp f q fun p => { p with rqCi := (p.rqCi + 1) % 65536, reserved := p.reserved + 1, rxPend := p.rxPend ++ [p.rqCi] }
      let id := s.ne.seq
      let s := s.modNe fun n => { n with frames := Tab.put id (ingress, fr) n.frames, seq := id + 1 }
      s.neRead (.rqFetch q id) f (p.rqBase + 64 * (p.rqCi % 2 ^ p.rqLog)) 64

/-- The raw default pair of a function, and the exception pair of the PF (R584). -/
def rawPair (s : State) (f : Nat) : Option Nat :=
  (s.ne.qps.find? fun e => e.1 / 4096 == f && e.2.raw && e.2.rawDefault).map fun e => e.1 % 4096
def excPair (s : State) : Option Nat := (s.ne.qps.find? fun e => e.1 / 4096 == 0 && e.2.exc).map fun e => e.1 % 4096

def toFn (s : State) (f ingress : Nat) (fr : Frame) : State :=
  match s.rawPair f with
  | some q => s.rawDeliver f q ingress fr
  | none => s

/-- A frame for the PF's exception queue (R548, R584). -/
def toExc (s : State) (ingress : Nat) (fr : Frame) : State :=
  match s.excPair with
  | some q => s.rawDeliver 0 q ingress fr
  | none => s.count pgNE Fld.FLOW_MISS_COUNT

/-- The receive descriptor of a raw frame has been fetched: the frame goes to its buffer (R573, R587, R588). -/
def rawFetched (s : State) (q id : Nat) (j : NeJob) : State :=
  match Tab.get? id s.ne.frames with
  | none => s
  | some (ingress, fr) =>
    let s := s.modNe fun n => { n with frames := Tab.del id n.frames }
    if j.bad then s.fnError j.fn 1
    else
      let d := j.bytes 64
      let idx := (((s.qp? j.fn q).map (·.rxPend)).getD []).getLast?.getD 0
      let len := leAt d 16 4
      let e := cplEntry (leAt d 0 8) (min fr.data.length len) ingress idx 0x81 (if len < fr.data.length then 10 else 0) true
      s.neWrite (.rawRecv q idx ingress e) j.fn (leAt d 8 8) (fr.data.take len) 1

/-- A raw frame's bytes have gone to its buffer: the receive completes; a faulted buffer drops the frame, which is counted where it came
from an interface, and its descriptor completes with LOCAL_XLAT and no bytes (R573, R588). -/
def rawPlaced (s : State) (q idx ingress e : Nat) (j : NeJob) : State :=
  if !j.bad then s.rxDone j.fn q idx e
  else
    let s := if ingress < 16 then s.count (pgNEP (portOf ingress)) (Fld.RX_DROP_BUF_COUNT (ingress % 4)) else s
    s.rxDone j.fn q idx (cplEntry (bits e 0 64) 0 ingress idx 0x81 9 true)

/-! ### The flow table (R548 to R551) -/

/-- What a hit entry does with a frame (R549). -/
def flowAct (s : State) (ingress : Nat) (fr : Frame) (e : Nat) : State :=
  let fr := vlanOp fr (bits e (8 * 51) 8) (bits e (8 * 52) 12)
  let dest := bits e (8 * 54) 16
  match bits e (8 * 50) 8 with
  | 1 => if bitN dest 15 then s.toFn (dest % 2048) ingress fr else s.frameOut (dest % 16) fr
  | 2 => s.toExc ingress fr
  | _ => s

/-- A lookup misses (R548). -/
def flowMiss (s : State) (ingress : Nat) (fr : Frame) : State :=
  if s.flag pgNE Fld.NE_CFG_EXC_EN then s.toExc ingress fr else s.count pgNE Fld.FLOW_MISS_COUNT

/-- The lookup in a bucket's four entries: the lowest valid one whose key bytes are the frame's (R550). -/
def flowPick (s : State) (ingress : Nat) (fr : Frame) (entries : List Nat) : State :=
  let k := flowKey (s.get pgNE Fld.FLOW_MASK_FIELDS) ingress fr
  match entries.find? fun e => bitN e (8 * 13) && decide (entryKey e = k) with
  | some e => s.flowAct ingress fr e
  | none => s.flowMiss ingress fr

/-- A frame is looked up: in a cached bucket, or after the bucket's read (R549, R551). -/
def flowLookup (s : State) (ingress : Nat) (fr : Frame) : State :=
  if !s.flag pgNE Fld.FLOW_BASE_LO_EN then s.flowMiss ingress fr
  else
    let k := flowKey (s.get pgNE Fld.FLOW_MASK_FIELDS) ingress fr
    let b := crc32c k % 2 ^ s.get pgNE Fld.FLOW_BASE_LO_LOG2
    match Tab.get? b s.ne.flows with
    | some l => s.flowPick ingress fr l
    | none =>
      let id := s.ne.seq
      let s := (s.modNe fun n => { n with frames := Tab.put id (ingress, fr) n.frames, seq := id + 1 }).bump pgNE 0x073
      s.nePhysRead (.flowRead id b) 0 (s.pageAddr pgNE Reg.FLOW_BASE_LO Reg.FLOW_BASE_HI + 256 * b) 256

/-- A flow bucket has been read; 16,384 buckets of four entries are cached (R549, R551). -/
def flowFetched (s : State) (id b : Nat) (j : NeJob) : State :=
  match Tab.get? id s.ne.frames with
  | none => s
  | some (ingress, fr) =>
    let s := s.modNe fun n => { n with frames := Tab.del id n.frames }
    let l := [0, 1, 2, 3].map fun i => leAt (j.bytes 256) (64 * i) 64
    if j.bad then s.flowMiss ingress fr
    else
      let draw := (Config.freeWord s.ctr).toNat
      let s := ({ s with ctr := s.ctr + 1 }).modNe fun n =>
        { n with flows := Tab.put b l (if n.flows.length < 16384 then n.flows else n.flows.eraseIdx (draw % 16384)) }
      s.flowPick ingress fr l

/-! ### Frames received (R544 to R548) -/

/-- Free words of both receive banks of a port (R543, R546), and XOFF or XON by the thresholds. -/
def rxUsed (l : List (Nat × Frame)) : Nat := l.foldl (fun a e => a + frameWords e.2.len) 0
def pfcUpdate (s : State) (n : Nat) : State :=
  let p := nthD s.ne.ports n {}
  let free := 16384 - rxUsed p.rxCur - rxUsed p.rxOther
  let on := s.get (pgNEP n) Fld.PORT_CFG_PFC_EN != 0 || s.flag (pgNEP n) Fld.PORT_CFG_PAUSE_EN
  let x := if !on then false
    else if free < s.get (pgNEP n) Fld.PFC_THR_XOFF then true
    else if s.get (pgNEP n) Fld.PFC_THR_XON < free then false else p.xoff
  s.modNe fun e => { e with ports := modOf 4 {} e.ports n fun p => { p with xoff := x } }

/-- The connection a Chain frame names may receive it (R548 row 2, R578). -/
def chainAdmits (s : State) (i : Nat) (fr : Frame) (p : ChainPkt) : Bool :=
  let c := p.dcid % 2 ^ 20
  let x := s.ctxAt c
  1 ≤ x.st && x.st ≤ 3 && p.dcid / 2 ^ 20 == x.gen && x.intf == i && fr.dip == x.sip &&
  !(s.fnAt x.fn).d3

/-- The NE takes a frame from the receive buffer (R548): a bad FCS or an uncorrectable codeword drops it, counted; else Chain receive,
perhaps after a context fill, or the flow table. False where it must wait in the buffer (R567). -/
def frameTake (s : State) (i : Nat) (fr : Frame) : Bool × State :=
  let udp := fr.proto == 17 && (fr.etype == 0x0800 || fr.etype == 0x86DD)
  if bitN (frameStatus fr) 21 then (true, s.count (pgNEP (portOf i)) (Fld.FEC_UNCORR_COUNT (i % 4)))
  else if !bitN (frameStatus fr) 20 then (true, s.count (pgNEP (portOf i)) (Fld.RX_FCS_ERR_COUNT (i % 4)))
  else if udp && fr.dport == s.get pgNE Fld.NE_CFG_CHAIN_PORT then
    match fr.chain with
    | none => (true, s.count pgNE Fld.CHAIN_DROP_COUNT)
    | some p =>
      let c := p.dcid % 2 ^ 20
      if !s.chainAdmits i fr p then (true, s.count pgNE Fld.CHAIN_DROP_COUNT)
      else
        let (waits, s) := s.ctxNeed c
        if waits then
          if (Tab.get? c s.ne.fills).isSome then
            (true, s.modNe fun n => { n with fills := Tab.upd c (fun l => l ++ [(i, fr)]) n.fills })
          else (false, s)
        else (true, s.modNe fun n => { n with frames := Tab.put n.seq (i, fr) n.frames, seq := n.seq + 1 })
  else (true, s.flowLookup (ingressIntf i) fr)

/-- The NE drains a port's handed-over bank, then the one being written, as far as it can take frames (R545). -/
def portDrain (s : State) (n : Nat) : Nat → State
  | 0 => s.pfcUpdate n
  | k + 1 =>
    let p := nthD s.ne.ports n {}
    match p.rxOther, p.rxCur with
    | [], [] => s.pfcUpdate n
    | [], l => (s.modNe fun e => { e with ports := modOf 4 {} e.ports n fun p => { p with rxOther := l, rxCur := [] } }).portDrain n k
    | e :: rest, _ =>
      let (took, s) := s.frameTake e.1 e.2
      if took then
        (s.modNe fun x => { x with ports := modOf 4 {} x.ports n fun p => { p with rxOther := rest } }).portDrain n k
      else s.pfcUpdate n

/-- As far as it goes. -/
def portFlow (s : State) (n : Nat) : State :=
  let p := nthD s.ne.ports n {}
  s.portDrain n (2 * (p.rxCur.length + p.rxOther.length) + 2)

/-- A frame is written to a port's receive bank (R545): dropped whole where the bank cannot hold the largest frame and the
other has not been drained. -/
def frameWrite (s : State) (i : Nat) (fr : Frame) : State :=
  let n := portOf i
  let p := nthD s.ne.ports n {}
  let room := 8192 < rxUsed p.rxCur + frameWords (s.get (pgNEP n) Fld.PORT_CFG_MAXFRAME)
  if room && !p.rxOther.isEmpty then
    (s.count (pgNEP n) (Fld.RX_DROP_BUF_COUNT (i % 4))).bump (pgNEP n) 0x07A 1 none none (some (i % 4))
  else
    let s := s.modNe fun x => { x with ports := modOf 4 {} x.ports n fun p =>
      if room then { p with rxOther := p.rxCur, rxCur := [(i, fr)] } else { p with rxCur := p.rxCur ++ [(i, fr)] } }
    s.portFlow n

/-- A frame arrives at an interface that holds alignment (R524, R544, R547, R548): what the MAC and FEC found, how many codewords FEC
corrected, and what the buffer's words hold; a frame with an uncorrectable word is discarded. -/
def rxFrame (s : State) (i : Nat) (fr : Frame) (fcsOk fecOk : Bool) (corr : Nat) (buf : EccOutcome) : State :=
  let n := portOf i
  let pg := pgNEP n
  let k := i % 4
  if !s.intfUp i || (nthD s.ne.intfs i {}).lost.isSome then s
  else
    let s := (s.count pg (Fld.RX_FRAMES_COUNT k)).bump pg 0x078 ((fr.len + 63) / 64) none none (some k)
    let s := s.bufError n buf
    let s := if corr == 0 then s else s.count pg (Fld.FEC_CORR_COUNT k) corr
    match buf with
    | .uncorrectable => s
    | _ => s.frameWrite i { fr with fcs := fcsOk, fec := fecOk }

/-- A context's fill completes, and the packets that waited proceed (R567). -/
def ctxFilled (s : State) (c : Nat) : State :=
  match Tab.get? c s.ne.fills with
  | none => s
  | some l =>
    if s.ne.jobs.any fun e => e.2.kind == NeKind.ctxFill c then s
    else
      let s := (s.modNe fun n => { n with fills := Tab.del c n.fills }).ctxTouch c
      let s := l.foldl (fun s e => s.modNe fun n => { n with frames := Tab.put n.seq e n.frames, seq := n.seq + 1 }) s
      [0, 1, 2, 3].foldl (fun s n => s.portFlow n) s

/-! ### Interfaces (R524 to R526) -/

/-- UP of PORT_STAT follows the interfaces. -/
def upStat (s : State) (n : Nat) : State :=
  s.put (pgNEP n) Fld.PORT_STAT_UP (maskOf ((List.range 4).filter fun k => s.intfUp (4 * n + k)))

def modIntf (s : State) (i : Nat) (f : Intf → Intf) : State :=
  (s.modNe fun n => { n with intfs := modOf 16 {} n.intfs i f }).upStat (portOf i)

/-- An interface is reported down (R524). -/
def intfDown (s : State) (i : Nat) : State :=
  if !s.intfUp i then s
  else
    let n := portOf i
    let s := s.modIntf i fun _ => {}
    (s.setReg (pgNEP n) Reg.PORT_STAT (setBits (s.reg (pgNEP n) Reg.PORT_STAT) (12 + i % 4) 1 1)).fire (srcNEP n 0)

/-- The engine and port domains of an interface are on (R525). -/
def intfPowered (s : State) (i : Nat) : Bool := s.domState (36 + portOf i) == 2 && s.domState (40 + portOf i / 2) == 2

/-- The apply edge of a quench that changes a port's MODE (R526). -/
def portModeApplied (s : State) (n : Nat) : State :=
  let p := nthD s.ne.ports n {}
  let s := (p.rxCur ++ p.rxOther).foldl (fun s e => s.count (pgNEP n) (Fld.RX_DROP_BUF_COUNT (e.1 % 4))) s
  let s := s.modNe fun x => { x with ports := modOf 4 {} x.ports n fun _ => {} }
  let s := (List.range 4).foldl (fun s k => s.intfDown (4 * n + k)) s
  let gone := s.ne.ctxs.filter fun e => (e.2.st == 2 || e.2.st == 3) && portOf e.2.intf == n && !s.intfExists e.2.intf
  gone.foldl (fun s e => s.ctxToError e.1) s

end State
end Sys2Proof.Machine
end

