-- ==== Sys2Proof/Machine/NeAdmin.lean ====
section
/-! DEFINITION. The NE's functions (R575 to R611): admin commands, provisioning, function-level reset, configuration space, BAR
contents, descriptors, and what the NE does when a job's accesses have all been answered. -/

namespace Sys2Proof.Machine

/-- Fields of an admin command, a 512-bit number (R598). -/
def acOp (c : Nat) : Nat := bits c 0 8
def acTag (c : Nat) : Nat := bits c 16 16
def acObj (c : Nat) : Nat := bits c 32 32
def acVa (c : Nat) : Nat := bits c 64 64
/-- Argument bytes of an admin command: `n` bytes from byte `off` (their layout is the model's: log 33). -/
def acArg (c off n : Nat) : Nat := bits c (8 * off) (8 * n)

/-- STATUS codes of R598. -/
def asOk : Nat := 0
def asBadOp : Nat := 1
def asBadArg : Nat := 2
def asQuota : Nat := 3
def asBusy : Nat := 4
def asState : Nat := 5
def asXlat : Nat := 6
def asPerm : Nat := 7

/-- Merge the bytes of `new` that `mask` selects into a 32-bit word. -/
def mergeDword (old new mask : Nat) : Nat :=
  [0, 1, 2, 3].foldl (fun v i => if bitN mask i then setBits v (8 * i) 8 (bits new (8 * i) 8) else v) old

namespace State

/-! ### Resources (R581, R582, R600, R601) -/

def ctxMax (s : State) : Nat := 2 ^ s.get pgNE Fld.CTX_BASE_LO_LOG2
def winMax (s : State) : Nat := 2 ^ s.get pgNE Fld.WIN_BASE_LO_LOG2
def vfCfgs (s : State) : List (Nat × Fn) := s.ne.fns.filter fun e => e.1 != 0 && e.2.configured
def fnQps (s : State) (f : Nat) : Nat := if f == 0 then 1024 else (s.fnAt f).qpCount
def fnVecs (s : State) (f : Nat) : Nat := if f == 0 then 2048 else (s.fnAt f).vecCount
def fnQuota (s : State) (f : Nat) : Nat :=
  if f == 0 then s.ctxMax - (s.vfCfgs.map (·.2.ctxQuota)).foldl (· + ·) 0 else (s.fnAt f).ctxQuota
/-- The function owns a window index: a VF its range, PF0 what no VF owns. -/
def fnOwnsWin (s : State) (f i : Nat) : Bool :=
  let inVf := fun (x : Fn) => x.winFirst ≤ i && decide (i < x.winFirst + x.winCount)
  if f == 0 then i < s.winMax && !(s.vfCfgs.any fun e => inVf e.2) else inVf (s.fnAt f)

/-! ### Admin queue (R598, R599, R610) -/

/-- The next admin command of a function is read (R598). -/
def aqKick (s : State) (f : Nat) : State :=
  let x := s.fnAt f
  if x.aqBusy || x.cmd.isSome || x.aqCi == x.aqPi || !s.fnLive f then s
  else (s.modFn f fun x => { x with aqBusy := true }).neRead .aqFetch f (x.aqBase + 64 * (x.aqCi % 2 ^ x.aqLog)) 64

/-- An admin command ends: its completion is written (R589, R598). -/
def acqPost (s : State) (f status : Nat) (result : Nat := 0) : State :=
  let x := s.fnAt f
  match x.cmd with
  | none => s
  | some c =>
    let v := acTag c + status * 2 ^ 16 + acOp c * 2 ^ 24 + result % 2 ^ 32 * 2 ^ 32 + phaseOf x.acqPi x.acqLog * 2 ^ 255
    (s.modFn f fun x => { x with aqBusy := true }).neWrite .acqWrite f (x.acqBase + 32 * (x.acqPi % 2 ^ x.acqLog)) (bytesOf v 32) 0

/-- The admin completion is in memory: vector 0 where armed, and the next command (R596, R598). -/
def acqWritten (s : State) (f : Nat) (j : NeJob) : State :=
  if j.bad then s.fnError f (if j.timed then 4 else 2)
  else
    let armed := (s.fnAt f).acqArm
    let s := s.modFn f fun x => { x with cmd := none, blk := [], aqBusy := false, aqCi := (x.aqCi + 1) % 65536
                                         acqPi := (x.acqPi + 1) % 65536, acqArm := false }
    let s := if armed then s.msixSend f 0 else s
    s.aqKick f

/-- An admin command has been read: a parameter block is read next where it has one; an opcode R599 does not list ends with
BADOP. -/
def aqFetched (s : State) (f : Nat) (j : NeJob) : State :=
  if j.bad then s.fnError f (if j.timed then 4 else 1)
  else
    let c := leNat (j.bytes 64)
    let s := s.modFn f fun x => { x with cmd := some c, blk := [], aqBusy := false }
    let op := acOp c
    if op == 0x10 || op == 0x11 || op == 0x12 then (s.modFn f fun x => { x with aqBusy := true }).neRead .aqParam f (acVa c) 160
    else if [0x01, 0x02, 0x13, 0x14, 0x15, 0x20, 0x21, 0x30].contains op then s
    else s.acqPost f asBadOp

/-- The parameter block has been read; a faulted block ends the command with XLAT (R599). -/
def aqParamDone (s : State) (f : Nat) (j : NeJob) : State :=
  if j.bad then s.acqPost f asXlat else s.modFn f fun x => { x with blk := j.bytes 160, aqBusy := false }

/-- The command a function executes, where it has that opcode and its block is there. -/
def adminCmd (s : State) (f op : Nat) : Option Nat :=
  let x := s.fnAt f
  match x.cmd with
  | some c => if acOp c == op && !x.aqBusy && s.fnLive f then some c else none
  | none => none

/-- QP_CREATE (R583, R584, R599). -/
def qpCreate (s : State) (f c : Nat) : State :=
  let q := acObj c
  let ring := fun (off : Nat) => (acArg c off 8 / 16 * 16, acArg c off 1 % 16)
  let (sb, sl) := ring 16
  let (rb, rl) := ring 24
  let (cb, cl) := ring 32
  let ok := fun (b l n : Nat) => 4 ≤ l && l ≤ 15 && b % (n * 2 ^ l) == 0
  let exc := bitN (acArg c 51 1) 1
  if s.fnQps f ≤ q || s.fnVecs f ≤ acArg c 48 2 || !ok sb sl 64 || !ok rb rl 64 || !ok cb cl 32 || 1 < acArg c 50 1 || (exc && f != 0) then
    s.acqPost f asBadArg
  else if (s.qp? f q).isSome then s.acqPost f asBusy
  else
    let p : Qp := { sqBase := sb, sqLog := sl, rqBase := rb, rqLog := rl, cqBase := cb, cqLog := cl, dbr := acArg c 40 8
                    vec := acArg c 48 2, raw := acArg c 50 1 == 1, rawDefault := bitN (acArg c 51 1) 0, exc := exc }
    (s.modNe fun n => { n with qps := Tab.put (qpKey f q) p n.qps }).acqPost f asOk

/-- Write every completion a pair still owes (R595, R599). -/
def cplAll (s : State) (f q : Nat) : Nat → State
  | 0 => s
  | n + 1 => ((s.modQp f q fun p => { p with cplBusy := false }).cplWrite f q).cplAll f q n

/-- QP_DESTROY (R599). -/
def qpDestroy (s : State) (f c : Nat) : State :=
  let q := acObj c
  match s.qp? f q with
  | none => s.acqPost f asBadArg
  | some _ =>
    if s.ne.ctxs.any fun e => e.2.st != 0 && e.2.fn == f && e.2.qp == q then s.acqPost f asBusy
    else
      let s := s.qpFlush f q
      let n := ((s.qp? f q).map (·.cpl.length)).getD 0
      let s := s.cplAll f q n
      (s.modNe fun x => { x with qps := Tab.del (qpKey f q) x.qps }).acqPost f asOk

/-- CTX_CREATE (R565, R566, R599). -/
def ctxCreate (s : State) (f c : Nat) : State :=
  let q := acObj c
  let b := (s.fnAt f).blk
  if (s.qp? f q).isNone || 16 ≤ leAt b 0 2 || !(leAt b 2 1 == 4 || leAt b 2 1 == 6) then s.acqPost f asBadArg
  else if s.fnQuota f ≤ (s.ctxsOf f).length then s.acqPost f asQuota
  else match (List.range (s.ne.ctxs.length + 1)).find? fun i => i < s.ctxMax && (s.ctxAt i).st == 0 with
    | none => s.acqPost f asQuota
    | some i =>
      let g := (s.ctxAt i).gen
      ((s.modCtx i fun _ => { st := 1, gen := g, fn := f, qp := q, parm := b }).ctxTouch i).acqPost f asOk (i + g * 2 ^ 20)

/-- The context a DCID names, or the STATUS that refuses it (R599). -/
def ctxNamed (s : State) (f dcid : Nat) : Nat ⊕ Nat :=
  let i := dcid % 2 ^ 20
  let x := s.ctxAt i
  if x.st == 0 || x.gen != dcid / 2 ^ 20 then .inr asState else if x.fn != f then .inr asPerm else .inl i

/-- CTX_ACTIVATE, CTX_MODIFY, CTX_CLOSE, CTX_DESTROY (R564 to R566, R599). -/
def ctxEvent (s : State) (f c : Nat) : State :=
  match s.ctxNamed f (acObj c) with
  | .inr st => s.acqPost f st
  | .inl i =>
    let x := s.ctxAt i
    let b := (s.fnAt f).blk
    match acOp c with
    | 0x11 =>
      if x.st != 1 then s.acqPost f asState
      else
        let r := leAt b 136 2
        let s := s.modCtx i fun x =>
          { x with st := 2, parm := b, rcid := leAt b 48 4, psn := leAt b 52 4, apsn := leAt b 56 4, iv := 0, kph := false
                   rate := if r == 0 then s.lineRate (leAt b 0 2) else r }
        s.acqPost f asOk
    | 0x12 =>
      if x.st == 4 then s.acqPost f asState
      else
        let k := if x.kph then 0 else 1
        let p := x.parm
        let p := slice p 0 3 ++ slice b 3 1 ++ slice p 4 60 ++ slice (if k == 0 then b else p) 64 32 ++ slice (if k == 1 then b else p) 96 32 ++
          slice (if k == 0 then b else p) 128 4 ++ slice (if k == 1 then b else p) 132 4 ++ slice b 136 2 ++ slice p 138 22
        let rot := bitN (leAt b 60 1) 1
        let s := s.modCtx i fun x => { x with parm := p, kph := if rot then !x.kph else x.kph, iv := if rot then 0 else x.iv, ivLow := !rot && x.ivLow }
        s.acqPost f asOk
    | 0x13 => if x.st == 2 then (s.modCtx i fun x => { x with st := 3 }).acqPost f asOk else s.acqPost f asState
    | _ => if x.st == 1 || x.st == 4 then (s.ctxFree i).acqPost f asOk else s.acqPost f asState

/-- CTX_QUERY (R599): state, TX PSN, APSN and rate, four bytes each, into 64 bytes. -/
def ctxQuery (s : State) (f c : Nat) : State :=
  match s.ctxNamed f (acObj c) with
  | .inr st => s.acqPost f st
  | .inl i =>
    let x := s.ctxAt i
    let d := bytesOf x.st 4 ++ bytesOf x.psn 4 ++ bytesOf x.apsn 4 ++ bytesOf x.rate 4 ++ bytesOf 0 48
    (s.modFn f fun x => { x with aqBusy := true }).neWrite .aqQuery f (acVa c) d 0

/-- A window's entry, as WIN_SET gives it (R568, R599). -/
def winEntry (f c : Nat) : Nat :=
  acArg c 16 8 + acArg c 24 8 * 2 ^ 64 + f * 2 ^ 128 + acArg c 32 2 * 2 ^ 144 + (acArg c 34 1 % 8 + 128) * 2 ^ 160 + acArg c 35 1 * 2 ^ 168

/-- The NE writes a window's table entry and holds no cached copy of it (R571). -/
def winWrite (s : State) (f i e : Nat) : State :=
  let s := s.modNe fun n => { n with wins := Tab.del i n.wins, winSet := if bitN e 167 then Tab.put i e n.winSet else Tab.del i n.winSet }
  s.nePhysWrite .winWrite f neSelf (s.pageAddr pgNE Reg.WIN_BASE_LO Reg.WIN_BASE_HI + 32 * i) (bytesOf e 32) 0

/-- Operations checked against a window's cached entry are still in progress (R571). -/
def winInUse (s : State) (i : Nat) : Bool := s.ne.rops.any fun e => e.2.win == some i

/-- WIN_SET and WIN_CLEAR (R571, R599): they wait for the operations that use the old entry. -/
def winCmd (s : State) (f c : Nat) : State :=
  let i := acObj c
  if !s.fnOwnsWin f i then s.acqPost f asPerm
  else if s.winInUse i then s
  else (s.modFn f fun x => { x with aqBusy := true }).winWrite f i (if acOp c == 0x20 then winEntry f c else 0)

/-- VF_CONFIG (R600). -/
def vfConfig (s : State) (f c : Nat) : State :=
  let v := acObj c
  let qc := acArg c 16 2
  let qf := acArg c 20 4
  let vc := acArg c 24 2
  let vf := acArg c 28 4
  let quota := acArg c 32 4
  let wf := acArg c 36 4
  let wc := acArg c 40 4
  let others := s.vfCfgs.filter (·.1 != v)
  let hits := fun (a n b m : Nat) => n != 0 && m != 0 && overlap a n b m
  if f != 0 then s.acqPost f asPerm
  else if s.ne.vfEn then s.acqPost f asState
  else if v == 0 || 1024 < v || 64 < qc || vc == 0 || 64 < vc || qf < 1024 || 32768 < qf + qc || vf < 2048 || 16384 < vf + vc ||
      s.winMax < wf + wc || s.ctxMax < quota + (others.map (·.2.ctxQuota)).foldl (· + ·) 0 ||
      (others.any fun e => hits qf qc e.2.qpFirst e.2.qpCount || hits vf vc e.2.vecFirst e.2.vecCount || hits wf wc e.2.winFirst e.2.winCount)
    then s.acqPost f asBadArg
  else
    let s := s.modFn v fun x => { x with configured := true, qpCount := qc, qpFirst := qf, vecCount := vc, vecFirst := vf
                                         ctxQuota := quota, winFirst := wf, winCount := wc, mac := acArg c 44 6 }
    s.acqPost f asOk

/-- A write of AQ_BASE or ACQ_BASE (R610): `hi` the high word, `acq` the completion ring's. -/
def aqBase (s : State) (f : Nat) (acq hi : Bool) (v : Nat) : State :=
  let x := s.fnAt f
  if x.flr.isSome then s
  else if x.aqPi != x.aqCi || x.cmd.isSome || x.aqBusy then s.modFn f fun x => { x with accErr := true }
  else if !hi && (v % 16 < 4 || 12 < v % 16) then s.modFn f fun x => { x with accErr := true }
  else
    let set := fun (b : Nat) => if hi then bits b 0 32 + v % 2 ^ 25 * 2 ^ 32 else b / 2 ^ 32 * 2 ^ 32 + bits v 12 20 * 4096
    let s := s.modFn f fun x =>
      if acq then { x with acqBase := set x.acqBase, acqLog := if hi then x.acqLog else v % 16 }
      else { x with aqBase := set x.aqBase, aqLog := if hi then x.aqLog else v % 16 }
    s.modFn f fun x => { x with aqPi := 0, aqCi := 0, acqPi := 0, acqCi := 0 }

/-- A write of AQ_PI (R598). -/
def aqPiWrite (s : State) (f v : Nat) : State :=
  if (s.fnAt f).flr.isSome then s else (s.modFn f fun x => { x with aqPi := v % 65536 }).aqKick f

/-- A write of ACQ_CI (R596, R609). -/
def acqCiWrite (s : State) (f v : Nat) : State :=
  let x := s.fnAt f
  if x.flr.isSome then s
  else
    let s := s.modFn f fun x => { x with acqCi := v % 65536, acqArm := x.acqArm || bitN v 16 }
    if bitN v 16 && x.acqPi != v % 65536 then (s.modFn f fun x => { x with acqArm := false }).msixSend f 0 else s

/-! ### Function-level reset (R602 to R605) -/

/-- An FLR starts (R602); one in progress is joined (R603). -/
def flrStart (s : State) (f : Nat) : State :=
  if (s.fnAt f).flr.isSome || !s.fnPresent f then s
  else
    let s := s.modFn f fun x => { x with flr := some s.time, fgen := (x.fgen + 1) % 256, cmd := none, aqBusy := false }
    let s := (s.ctxsOf f).foldl (fun s c => s.ctxToError c) s
    let mine := s.ne.jobs.filter fun e => e.2.fn == f && e.2.kind != .winWrite
    let s := mine.foldl (fun s e => s.jobPurge e.1) s
    let s := s.modNe fun n => { n with jobs := n.jobs.filter fun e => !mine.any (·.1 == e.1) }
    let wins := s.ne.winSet.filter fun e => bits e.2 128 16 == f
    wins.foldl (fun s e => s.winWrite f e.1 (setBits e.2 167 1 0)) s

/-- The FLR completes, once no DMA of the function is in flight (R602, R605): contexts are FREE, queue pairs gone, registers,
table and configuration space reset; resources of VF_CONFIG and FGEN stay. -/
def flrComplete (s : State) (f : Nat) : State :=
  let s := s.dmaSweep
  if (s.fnAt f).flr.isNone || s.dmas.any (fun e => e.2.who == 16 && e.2.rid == f) ||
      s.ne.jobs.any (fun e => e.2.fn == f && e.2.kind == .winWrite) then s
  else
    let s := (s.ctxsOf f).foldl (fun s c => s.ctxFree c) s
    let s := s.modNe fun n => { n with qps := n.qps.filter fun e => e.1 / 4096 != f
                                       numVfs := if f == 0 then 0 else n.numVfs, vfBar := if f == 0 then 0 else n.vfBar
                                       vfMse := f != 0 && n.vfMse }
    s.modFn f fun x => { fgen := x.fgen, configured := x.configured, qpCount := x.qpCount, qpFirst := x.qpFirst, vecCount := x.vecCount
                         vecFirst := x.vecFirst, ctxQuota := x.ctxQuota, winFirst := x.winFirst, winCount := x.winCount, mac := x.mac }

/-- A write of VF Enable (R601). -/
def vfEnable (s : State) (on : Bool) : State :=
  if on == s.ne.vfEn then s
  else if on then s.modNe fun n => { n with vfEn := true }
  else
    let s := (List.range s.ne.numVfs).foldl (fun s i => s.flrStart (i + 1)) s
    s.modNe fun n => { n with vfEn := false }

/-- An FLR of PF0 also clears VF Enable (R603). -/
def flrBegin (s : State) (f : Nat) : State := if f == 0 then (s.flrStart 0).vfEnable false else s.flrStart f

/-! ### Configuration space (R575 to R578), capability layouts as the PCI specifications give them -/

/-- The function answers at its configuration space (R576, R601). -/
def cfgPresent (s : State) (f : Nat) : Bool := s.fnPresent f || (1 ≤ f && f ≤ 1024 && (s.fnAt f).flr.isSome)

/-- A dword of a function's configuration space. -/
def cfgDword (s : State) (f off : Nat) : Nat :=
  let x := s.fnAt f
  if !s.cfgPresent f then 0xFFFFFFFF
  else match off with
    | 0x00 => if f == 0 then Config.neVendor.toNat + 0xD100 * 2 ^ 16 else 0xFFFFFFFF
    | 0x04 => (if f == 0 then 2 * b2n x.mse else 0) + 4 * b2n x.bme + 0x100000
    | 0x08 => 0x02000000
    | 0x10 => if f == 0 then bits x.bar 0 32 + 4 else 0
    | 0x14 => if f == 0 then x.bar / 2 ^ 32 else 0
    | 0x34 => 0x40
    | 0x40 => 0x01 + 0x50 * 2 ^ 8
    | 0x44 => if x.d3 then 3 else 0
    | 0x50 => 0x11 + 0x70 * 2 ^ 8 + (s.fnVecs f - 1) * 2 ^ 16 + b2n x.msixMask * 2 ^ 30 + b2n x.msixEn * 2 ^ 31
    | 0x54 => if f == 0 then 0x20000 else 0x2000
    | 0x58 => if f == 0 then 0x30000 else 0x3000
    | 0x70 => 0x10 + 0x92 * 2 ^ 16
    | 0x74 => 0x10000020
    | 0x78 => x.devCtl + b2n x.flr.isSome * 2 ^ 21
    | 0x100 => 0x0E + 1 * 2 ^ 16 + (if f == 0 then 0x110 * 2 ^ 20 else 0)
    | 0x110 => if f == 0 then 0x10 + 1 * 2 ^ 16 else 0
    | 0x118 => if f == 0 then b2n s.ne.vfEn + 8 * b2n s.ne.vfMse else 0
    | 0x11C => if f == 0 then 1024 + 1024 * 2 ^ 16 else 0
    | 0x120 => if f == 0 then s.ne.numVfs else 0
    | 0x124 => if f == 0 then 1 + 1 * 2 ^ 16 else 0
    | 0x128 => if f == 0 then 0xD101 * 2 ^ 16 else 0
    | 0x12C => if f == 0 then 1 else 0
    | 0x130 => if f == 0 then 1 else 0
    | 0x134 => if f == 0 then bits s.ne.vfBar 0 32 + 4 else 0
    | 0x138 => if f == 0 then s.ne.vfBar / 2 ^ 32 else 0
    | _ => 0

/-- What a function does once it may issue DMA again (R578). -/
def fnKick (s : State) (f : Nat) : State :=
  (s.ne.qps.filter fun e => e.1 / 4096 == f).foldl (fun s e => s.qpKick f (e.1 % 4096)) (s.aqKick f)

/-- A configuration write of the selected bytes of one dword (R576, R578, R601, R602). -/
def cfgWrite (s : State) (f off data mask : Nat) : State :=
  if !s.cfgPresent f || (s.fnAt f).flr.isSome then s
  else
    let x := s.fnAt f
    let v := mergeDword (s.cfgDword f off) data mask
    match off with
    | 0x04 => (s.modFn f fun x => { x with mse := f == 0 && bitN v 1, bme := bitN v 2 }).fnKick f
    | 0x10 => if f == 0 then s.modFn 0 fun x => { x with bar := x.bar / 2 ^ 32 * 2 ^ 32 + bits v 23 9 * 2 ^ 23 } else s
    | 0x14 => if f == 0 then s.modFn 0 fun x => { x with bar := bits x.bar 0 32 + v * 2 ^ 32 } else s
    | 0x44 =>
      if v % 4 == 3 then s.modFn f fun x => { x with d3 := true }
      else if x.d3 && v % 4 == 0 then (s.modFn f fun x => { x with d3 := false }).flrBegin f
      else s
    | 0x50 =>
      let s := s.modFn f fun x => { x with msixMask := bitN v 30, msixEn := bitN v 31 }
      if bitN v 31 && !bitN v 30 then
        let due := (s.fnAt f).pba.filter fun k => !bitN (nthD (s.msixEntry f k) 3 1) 0
        due.foldl (fun s k => (s.modFn f fun x => { x with pba := x.pba.filter (· != k) }).msixSend f k) s
      else s
    | 0x78 =>
      let s := s.modFn f fun x => { x with devCtl := v % 2 ^ 15 }
      if bitN v 15 && bitN mask 1 then s.flrBegin f else s
    | 0x118 =>
      if f != 0 then s
      else (s.modNe fun n => { n with vfMse := bitN v 3 }).vfEnable (bitN v 0)
    | 0x120 => if f == 0 && !s.ne.vfEn then s.modNe fun n => { n with numVfs := min (v % 65536) 1024 } else s
    | 0x134 => if f == 0 then s.modNe fun n => { n with vfBar := n.vfBar / 2 ^ 32 * 2 ^ 32 + bits v 19 13 * 2 ^ 19 } else s
    | 0x138 => if f == 0 then s.modNe fun n => { n with vfBar := bits n.vfBar 0 32 + v * 2 ^ 32 } else s
    | _ => s

/-! ### BAR contents (R579 to R582, R592, R609) -/

/-- The PF Plat, as 4-byte words (R581). -/
def pfPlat (s : State) (off : Nat) : Nat :=
  match off with
  | 0 => 1 + 512 * 2 ^ 16
  | 4 => 1 * 2 ^ 8
  | 8 => 0x7F
  | 12 => 4 + 16 * 2 ^ 8 + (((List.range 4).map fun n => s.get (pgNEP n) Fld.PORT_CFG_MODE * 16 ^ n).foldl (· + ·) 0) * 2 ^ 16
  | 16 => 32768
  | 20 => 1024 + 64 * 2 ^ 16
  | 24 => 1024 + (if s.ne.vfEn then s.ne.numVfs else 0) * 2 ^ 16
  | 28 => 16384
  | 32 => 2048 + 64 * 2 ^ 16
  | 36 => 16384
  | 40 => s.ctxMax
  | 44 => s.winMax
  | 48 => 65536
  | 52 => 4 * 2 ^ s.get pgNE Fld.FLOW_BASE_LO_LOG2
  | 56 => 64 + 32 * 2 ^ 8 + 4 * 2 ^ 16 + 15 * 2 ^ 24
  | 60 => s.mtu + s.get pgNE Fld.NE_CFG_CHAIN_PORT * 2 ^ 16
  | 64 => s.fnQuota 0
  | 68 => 0x10000
  | 72 => 0x20000
  | 76 => 0x400000
  | 80 => 4096
  | _ =>
    if 128 ≤ off && off < 224 then
      leNat (slice ((List.range 16).flatMap fun i => bytesOf (Config.portMac i).toNat 6) (off - 128) 4)
    else 0

/-- A VF's Plat (R582). -/
def vfPlat (s : State) (f off : Nat) : Nat :=
  let x := s.fnAt f
  match off with
  | 0 => 2 + 64 * 2 ^ 16
  | 4 => f + x.fgen * 2 ^ 16
  | 8 => x.qpCount
  | 12 => x.qpFirst
  | 16 => x.vecCount
  | 20 => x.ctxQuota
  | 24 => x.winFirst
  | 28 => x.winCount
  | 32 => 0x7F
  | 36 => s.mtu
  | 40 => x.mac % 2 ^ 32
  | 44 => x.mac / 2 ^ 32
  | 48 => 0x1000
  | 52 => 0x40000
  | _ => 0

/-- Where an offset of a function's BAR lies (R579): 0 Plat, 1 registers, 2 MSI-X table, 3 PBA, 4 doorbells, 5 nothing; and the
offset in it. -/
def barPlace (f off : Nat) : Nat × Nat :=
  if f == 0 then
    if off < 0x200 then (0, off) else if 0x10000 ≤ off && off < 0x10040 then (1, off - 0x10000)
    else if 0x20000 ≤ off && off < 0x28000 then (2, off - 0x20000) else if 0x30000 ≤ off && off < 0x30100 then (3, off - 0x30000)
    else if 0x400000 ≤ off then (4, off - 0x400000) else (5, 0)
  else
    if off < 0x40 then (0, off) else if 0x1000 ≤ off && off < 0x1040 then (1, off - 0x1000)
    else if 0x2000 ≤ off && off < 0x2400 then (2, off - 0x2000) else if 0x3000 ≤ off && off < 0x3008 then (3, off - 0x3000)
    else if 0x40000 ≤ off then (4, off - 0x40000) else (5, 0)

/-- A dword of a function's BAR. -/
def barDword (s : State) (f off : Nat) : Nat :=
  let x := s.fnAt f
  if x.flr.isSome then 0
  else match barPlace f off with
    | (0, o) => if f == 0 then s.pfPlat o else s.vfPlat f o
    | (1, 0x00) => b2n x.err + x.cause * 2 + b2n x.qpErr * 16 + b2n x.accErr * 32 + x.fgen * 256
    | (1, 0x04) => match x.errQp with
      | some q => q % (if f == 0 then 1024 else 64) + 2 ^ 31
      | none => 0
    | (1, 0x10) => x.aqLog + bits x.aqBase 12 20 * 4096
    | (1, 0x14) => x.aqBase / 2 ^ 32
    | (1, 0x20) => x.acqLog + bits x.acqBase 12 20 * 4096
    | (1, 0x24) => x.acqBase / 2 ^ 32
    | (1, 0x30) => x.dbDrop
    | (2, o) => if o / 16 < s.fnVecs f then nthD (s.msixEntry f (o / 16)) (o % 16 / 4) 0 else 0
    | (3, o) => maskOf ((List.range 32).filter fun i => x.pba.contains (8 * o + i))
    | _ => 0

/-- A whole-dword write to a function's BAR (R579, R580, R592, R609). -/
def barWrite (s : State) (f off v : Nat) : State :=
  if (s.fnAt f).flr.isSome then s
  else match barPlace f off with
    | (0, _) => s.modFn f fun x => { x with accErr := true }
    | (1, 0x00) => s.modFn f fun x => { x with qpErr := x.qpErr && !bitN v 4, accErr := x.accErr && !bitN v 5
                                               errQp := if bitN v 4 then none else x.errQp }
    | (1, 0x10) => s.aqBase f false false v
    | (1, 0x14) => s.aqBase f false true v
    | (1, 0x18) => s.aqPiWrite f v
    | (1, 0x20) => s.aqBase f true false v
    | (1, 0x24) => s.aqBase f true true v
    | (1, 0x28) => s.acqCiWrite f v
    | (2, o) =>
      let k := o / 16
      if s.fnVecs f ≤ k then s
      else
        let e := modNth (s.msixEntry f k) (o % 16 / 4) fun _ => v
        let s := s.modFn f fun x => { x with msix := Tab.put k e x.msix }
        if (s.fnAt f).pba.contains k && !bitN (nthD e 3 1) 0 && (s.fnAt f).msixEn && !(s.fnAt f).msixMask then
          (s.modFn f fun x => { x with pba := x.pba.filter (· != k) }).msixSend f k
        else s
    | (4, o) =>
      let q := o / 4096
      match o % 4096 with
      | 0 => s.sqPi f q v
      | 4 => s.rqPi f q v
      | 8 => s.cqCi f q v
      | _ => s
    | _ => s

/-! ### NE invalidation (R551, R571) -/

/-- NE_INV of a kind begins: the NE holds no cached copy of what it names. -/
def neInv (s : State) (kind index : Nat) : State :=
  if s.flag pgNE Fld.NE_INV_STAT_BUSY then s
  else
    let s := (s.raise1 pgNE Fld.NE_INV_STAT_BUSY).put pgNE Fld.NE_INV_STAT_DONE 0
    s.modNe fun n => match kind with
      | 1 => { n with inv := some (1, index), wins := Tab.del index n.wins }
      | 2 => { n with inv := some (2, index), flows := Tab.del index n.flows }
      | _ => { n with inv := some (3, 0), flows := [] }

/-- It completes once every operation that was checked against the old entry has performed its accesses, and no read of a bucket it
names is outstanding (R551, R571). -/
def neInvDone (s : State) : State :=
  match s.ne.inv with
  | none => s
  | some (k, i) =>
    let reads := s.ne.jobs.any fun e => match e.2.kind with
      | .flowRead _ b => k == 3 || (k == 2 && b == i)
      | _ => false
    if (k == 1 && s.winInUse i) || reads then s
    else ((s.modNe fun n => { n with inv := none, wins := if k == 1 then Tab.del i n.wins else n.wins
                                     flows := if k == 2 then Tab.del i n.flows else if k == 3 then [] else n.flows }).put pgNE Fld.NE_INV_STAT_BUSY 0).raise1 pgNE Fld.NE_INV_STAT_DONE

/-! ### Send descriptors (R585, R586) -/

/-- Fields of a send descriptor, a 512-bit number. -/
def sdField (d off n : Nat) : Nat := bits d (8 * off) (8 * n)

/-- A descriptor is one R585 allows; its reserved bits are ignored (R11). -/
def descOk (d : Nat) : Bool :=
  let op := sdField d 0 1
  let fl := sdField d 1 1
  let len := sdField d 24 4
  let inl := bitN fl 1
  (op ≤ 5 || op == 8) && len ≤ 2 ^ 31 &&
  (match op with
   | 2 => !inl || decide (len ≤ 8)
   | 1 | 8 => !inl || decide (len ≤ 32)
   | 4 | 5 => !inl && len == 8
   | _ => !inl)

/-- A send descriptor has been fetched (R573, R585, R595). -/
def sqFetched (s : State) (f q idx : Nat) (j : NeJob) : State :=
  let s := s.modQp f q fun p => { p with fetching := false }
  if j.bad then s.fnError f (if j.timed then 4 else 1)
  else
    let d := leNat (j.bytes 64)
    let err := ((s.qp? f q).map (·.err)).getD true
    let e : SqOp := { idx := idx, code := sdField d 0 1, cid := sdField d 4 4 % 2 ^ 20, wrid := sdField d 8 8, signal := bitN (sdField d 1 1) 0
                      fence := bitN (sdField d 1 1) 2, desc := d, status := if err then some 1 else if descOk d then none else some 11 }
    ((s.modQp f q fun p => { p with sq := p.sq ++ [e] }).sqFlow f q).qpKick f q

/-- The next fetched operation of a pair starts where it has the opcode of the row; FENCE waits for every earlier READ, FADD and
CSWAP (R586). -/
def opNext (s : State) (f q code : Nat) : Option SqOp :=
  match s.qp? f q with
  | none => none
  | some p =>
    match p.sq.find? fun (e : SqOp) => !e.started && e.status.isNone with
    | none => none
    | some e =>
      let blocked := e.fence && p.sq.any fun (x : SqOp) => x.started && x.status.isNone && 3 ≤ x.code && x.code ≤ 5
      if e.code == code && !blocked && s.fnLive f then some e else none

def opMark (s : State) (f q idx : Nat) : State :=
  s.modQp f q fun p => { p with sq := p.sq.map fun (e : SqOp) => if e.idx == idx then { e with started := true } else e }

/-- NOP does nothing but complete (R585). -/
def opNop (s : State) (f q : Nat) : State :=
  match s.opNext f q 0 with
  | none => s
  | some e => (s.opMark f q e.idx).sqDone f q e.idx 0

/-- An operation on a context starts (R565, R585): on a context of the pair in ACTIVE; in INIT or DRAIN it completes with STATE, in
ERROR with CONN_ERR. -/
def opStart (s : State) (f q code : Nat) : State :=
  match s.opNext f q code with
  | none => s
  | some e =>
    let s := s.opMark f q e.idx
    let x := s.ctxAt e.cid
    if x.st == 0 || x.fn != f || x.qp != q then s.sqDone f q e.idx 11
    else if x.st == 4 then s.sqDone f q e.idx 8
    else if x.st != 2 then s.sqDone f q e.idx 7
    else
      let d := e.desc
      let len := sdField d 24 4
      let inl := bitN (sdField d 1 1) 1
      let imm := if inl then some (bytesOf (sdField d (if code == 2 then 40 else 32) len) len) else none
      let o : ChOp := { id := s.ne.seq, fn := f, q := q, idx := e.idx, code := code, lva := sdField d 16 8, len := len, key := sdField d 28 4
                        rva := sdField d 32 8, operand := sdField d 40 8, compare := sdField d 48 8, imm := imm, msn := x.msn }
      let s := (s.modNe fun n => { n with seq := n.seq + 1 }).ctxTouch e.cid
      (s.modCtx e.cid fun x => { x with ops := x.ops ++ [o], msn := if code == 1 then (x.msn + 1) % 2 ^ 32 else x.msn }).ctxBuild e.cid

/-- RAW sends an Ethernet frame through the flow table (R548, R584, R585). -/
def opRaw (s : State) (f q : Nat) : State :=
  match s.opNext f q 8 with
  | none => s
  | some e =>
    let s := s.opMark f q e.idx
    let d := e.desc
    let len := sdField d 24 4
    if !(((s.qp? f q).map (·.raw)).getD false) then s.sqDone f q e.idx 11
    else if bitN (sdField d 1 1) 1 then
      (s.flowLookup (ingressFn f) (parseFrame (bytesOf (sdField d 32 len) len))).sqDone f q e.idx 0
    else s.neRead (.rawPay q e.idx) f (sdField d 16 8) len

/-! ### The end of a job -/

/-- Every access of a job has been answered. -/
def jobDone (s : State) (j : NeJob) : State :=
  let f := j.fn
  match j.kind with
  | .sqFetch q idx => s.sqFetched f q idx j
  | .rqFetch q r => if (Tab.get? r s.ne.rops).isSome then s.rqFetched q r j else s.rawFetched q r j
  | .payload c op _ n => s.payloadDone c op n j
  | .rawPay q idx =>
    if j.bad then s.sqDone f q idx 9
    else
      let n := (((s.qp? f q).bind fun p => p.sq.find? (·.idx == idx)).map fun (e : SqOp) => sdField e.desc 24 4).getD 0
      (s.flowLookup (ingressFn f) (parseFrame (j.bytes n))).sqDone f q idx 0
  | .respWrite r => s.respAccessed r j
  | .respRead r => s.respAccessed r j
  | .place c op off n => s.placeDone c op off n j.bad
  | .cplWrite q =>
    let s := s.modQp f q fun p => { p with cplBusy := false }
    if j.bad then s.fnError f (if j.timed then 4 else 2)
    else match s.qp? f q with
      | some p =>
        if p.dbr != 0 && p.cpl.isEmpty then s.neWrite (.dbrWrite q) f (p.dbr / 64 * 64) (bytesOf p.sqCi 2 ++ bytesOf p.rqCi 2) 0 else s
      | none => s
  | .dbrWrite _ => if j.bad then s.fnError f (if j.timed then 4 else 3) else s
  | .aqFetch => s.aqFetched f j
  | .aqParam => s.aqParamDone f j
  | .aqQuery => s.acqPost f (if j.bad then asXlat else asOk)
  | .acqWrite => s.acqWritten f j
  | .flowRead id b => s.flowFetched id b j
  | .winRead r i =>
    match Tab.get? r s.ne.rops with
    | none => s
    | some op =>
      if j.bad then s.respRefuse r 1
      else
        let e := leNat (j.bytes 32)
        let draw := (Config.freeWord s.ctr).toNat
        let s := ({ s with ctr := s.ctr + 1 }).modNe fun n =>
          { n with wins := Tab.put i e (if n.wins.length < 4096 then n.wins else n.wins.eraseIdx (draw % 4096)) }
        s.respChecked r op e
  | .winWrite => if ((s.fnAt f).cmd.map acOp) == some 0x20 || ((s.fnAt f).cmd.map acOp) == some 0x21 then s.acqPost f asOk else s
  | .ctxFill _ => s
  | .ctxSpill => s
  | .rawRecv q idx ingress e => s.rawPlaced q idx ingress e j
  | .msix => s

/-- The NE goes on with every job whose accesses have all been answered; a faulted job loses the accesses not yet sent. -/
def nePump (s : State) : Nat → State
  | 0 => s
  | n + 1 =>
    let s := (s.ne.jobs.filter fun e => e.2.bad && e.2.left != 0).foldl (fun s e => s.jobPurge e.1) s
    match s.ne.jobs.find? fun e => e.2.left == 0 with
    | none => s
    | some e => ((s.modNe fun x => { x with jobs := Tab.del e.1 x.jobs }).jobDone e.2).nePump n

/-- After a command: the NE goes on, and SYNCs whose waits are over are answered. -/
def afterDma (s : State) : State := (s.dmaSweep.nePump 256).syncPump

/-- A completion after its access timed out is discarded, counted and recorded (R607). -/
def lateCpl (s : State) (p : Pkt) : State :=
  ((s.agentTakes p).count pgNE Fld.NE_LATE_CPL_COUNT).recEndpoint 0 (srcNE 4) pgNE 0 p.txn.toNat

/-- Status, bytes and their mask that a final response of a DMA brings (R112, R169, R171). -/
def dmaBrings (s : State) (p : Pkt) : Nat × LineData × ByteMask × State :=
  match p.op.toNat with
  | 0x54 => let (d, s) := s.lineTaken p
            (0, d, BitVec.allOnes 64, s)
  | 0x79 => (bits p.addr.toNat 0 3, p.data, p.mask, s)
  | _ => (bits p.addr.toNat 0 3, 0, 0, s)

/-- A response arrives at an agent that has a DMA outstanding under its TXN, or none at all: it is consumed whatever it finds (R120, R273,
R605, R680). -/
def dmaResponse (s : State) (p : Pkt) : State :=
  if !s.arrived p then s
  else match s.agentOf p with
  | none => s.consume p
  | some a =>
    if !p.last then s.consume p
    else match a.use with
    | .dma id =>
      let pa := paOf a.p.addr.toNat
      let who := ((Tab.get? id s.dmas).map (·.who)).getD 0
      let (status, d, m, s) := (s.agentTakes p).dmaBrings p
      if !p.psn then (s.dmaPart id status d m).afterDma
      else if who == 16 then ((s.poisonUse pgNE nodeNE (srcNE 4) pa).dmaPart id 2 d m).afterDma
      else ((s.poisonUse (pgPCIE who) (nodePCIE who) (srcPCIE who 1) pa).dmaPart id 0 d m true).afterDma
    | .late => s.lateCpl p
    | _ => s

end State
end Sys2Proof.Machine
end

