-- ==== Sys2Proof/Machine/NeCmds.lean ====
section
/-! DEFINITION. The commands of I/O translation and of the network engine: broadcast invalidation (R504 to R507), the IXU's
rows (R482 to R520), and the NE's rows (R544 to R607). -/

namespace Sys2Proof.Machine

namespace State

/-- A write of a register whose page's domain is off is discarded and sets ACC_ERR (R65). -/
def wr (s : State) (page : Nat) (f : State → State) : State := if s.pageOff page then s.accErr0 page else f s

/-- Work of the NE, while its domain is on. -/
def neDo (s : State) (f : State → State) : State := if s.pageOff pgNE then s else (f s).afterDma

/-- Work of the IXU, while its domain is on. -/
def ixuDo (s : State) (f : State → State) : State := if s.pageOff pgIXU then s else (f s).afterDma

/-! ### Broadcast invalidation (R504 to R507) -/

/-- Class F at a site (R445, R456). -/
def classF (s : State) (site : Nat) : Bool := s.admitted site && s.get (pgSITE site) Fld.TRAV_RESULT_CLASS == 0

/-- The targets of R504 for site `site`. -/
def xlatTargets (s : State) (site : Nat) : List Nat := [16, 17] ++ (List.range 16).filter fun i => i != site && s.classF i

/-- A target that counts as answered without an answer (R506): a fenced site, or an engine whose domain is off. -/
def xlatGone (s : State) (t : Nat) : Bool :=
  if t == 16 then s.pageOff pgIXU else if t == 17 then s.pageOff pgNE else s.fenced t

/-- The node of a target. -/
def xlatNode (s : State) (t : Nat) : BitVec 8 :=
  if t == 16 then nodeIXU else if t == 17 then nodeNE else nodeModule t (s.devModule t 0)

/-- The target that a node is. -/
def xlatTargetOf (n : BitVec 8) : Nat := if n == nodeIXU then 16 else if n == nodeNE then 17 else siteOf n

/-- The command a broadcast carries: the XlatInv's own, or SYNC with WR = 0 and INTR = 0. -/
def xlatCmd (p : Pkt) : Nat := if p.op == 0x0B then 6 else lineField p.data 0 16

/-- SITE forwards an XlatInv or XlatSync to every target through the port of the module that carried it (R504, R507). -/
def xlatForward (s : State) (p : Pkt) (targets : List Nat) : State :=
  targets.foldl (fun s t => s.send { op := 0x24, src := p.src, txn := p.txn, hasData := true, data := invUnit (xlatCmd p)
                                     mask := maskRun 0 16 } (s.xlatNode t)) s

/-- One broadcast of a site goes on: it is forwarded once its turn has come, and answered once every target has answered (R506,
R507). -/
def xlatStep (s : State) (site i : Nat) : State :=
  let l := (s.siteAt site).xlat
  match l[i]? with
  | none => s
  | some x =>
    let before := l.take i
    let turn := before.all (·.started) && (x.p.op == 0x0A || before.all fun y => y.p.op != 0x0A)
    if !x.started then
      if turn then
        let t := s.xlatTargets site
        (s.modSite site fun y => { y with xlat := modNth y.xlat i fun (z : XlatOp) =>
          { z with started := true, start := s.time, waits := t.filter fun t => !s.xlatGone t } }).xlatForward x.p
            (t.filter fun t => !s.xlatGone t)
      else s
    else
      let w := x.waits.filter fun t => !s.xlatGone t
      if w.isEmpty then
        let s := s.modSite site fun y => { y with xlat := y.xlat.eraseIdx i }
        s.siteReply x.p (if x.p.op == 0x0A then 0x44 else 0x41) (if x.err then 2 else 0)
      else s.modSite site fun y => { y with xlat := modNth y.xlat i fun (z : XlatOp) => { z with waits := w } }

/-- Every broadcast of a site goes on, the newest first so that positions hold, and twice, since an answer may free a turn. -/
def xlatPump (s : State) (site : Nat) : State :=
  let one := fun (s : State) => ((List.range (s.siteAt site).xlat.length).reverse).foldl (fun s i => s.xlatStep site i) s
  one (one s)

/-- SITE receives an XlatInv or XlatSync of its die (R504, R507). -/
def xlatReceive (s : State) (p : Pkt) : State :=
  let site := siteOf p.src
  let (line, s) := if p.op == 0x0A then (s.consume p).lineTaken p else (p.data, s.consume p)
  let c := lineField line 0 16
  if p.op == 0x0A && !(invWellFormed c && invOp c ≤ 4) then s.siteReply p 0x44 2
  else (s.modSite site fun y => { y with xlat := y.xlat ++ [{ p := { p with data := line } }] }).xlatPump site

/-- A target's answer, or what stands for it, is counted (R506). -/
def xlatAnswered (s : State) (site target : Nat) (txn : BitVec 12) (src : BitVec 8) (err : Bool) : State :=
  match (s.siteAt site).xlat.findIdx? fun x => x.started && x.p.txn == txn && x.p.src == src && x.waits.contains target with
  | none => s
  | some i =>
    (s.modSite site fun y => { y with xlat := modNth y.xlat i fun (z : XlatOp) =>
      { z with waits := z.waits.filter (· != target), err := z.err || err } }).xlatPump site

/-- A target executes a forwarded command and answers (R505, R512). -/
def xlatExecute (s : State) (p : Pkt) : State :=
  let c := lineField p.data 0 16
  if p.op != 0x24 then s
  else if (homeOfPkt p).isSome then (if s.arrived p then s.protoDrop p else s)
  else if isDieNode p.dst then
    if !s.atDie p then s
    else
    let s := s.dieConsumes p
    s.dieSend { op := 0x44, src := p.dst, txn := p.txn, addr := if invWellFormed c then 0 else 2 } (moduleOf p.dst) p.src
  else if !s.arrived p then s
  else if p.dst == nodeIXU then
    s.ixuDo fun s =>
      let s := s.consume p
      if !invWellFormed c then s.xlatAck nodeIXU p true
      else if invOp c == 6 then (s.syncBegin (some p)).syncPump
      else (s.ixuInvalidate c).xlatAck nodeIXU p false
  else if p.dst == nodeNE then
    s.neDo fun s =>
      let s := s.consume p
      if !invWellFormed c then s.xlatAck nodeNE p true else s.neInvalidate p c
  else s

/-- An XlatAck arrives: at the IXU the NE's, elsewhere at LNK, which hands it to SITE (R501, R506). -/
def xlatAcked (s : State) (p : Pkt) : State :=
  if p.op != 0x44 || !s.arrived p then s
  else if (homeOfPkt p).isSome then s.protoDrop p
  else if p.dst == nodeIXU then
    ((s.consume p).modIxu fun x => { x with neOut := x.neOut.filter (· != p.txn.toNat) }).afterDma
  else if isDieNode p.dst then
    (s.consume p).xlatAnswered (siteOf p.dst) (xlatTargetOf p.src) p.txn p.dst (bits p.addr.toNat 0 3 != 0)
  else s

/-! ### ATS (R513, R514) -/

/-- An Invalidate Completion is missing after TO_MS (R514). -/
def atsTimeout (s : State) (id : Nat) : State :=
  match s.ixu.ats.find? fun a => a.id == id && a.since + 1000000 * s.get pgIXU Fld.ATS_CFG_TO_MS ≤ s.time with
  | none => s
  | some a =>
    let s := s.modIxu fun x =>
      { x with ats := x.ats.filter (·.id != id), blocked := if x.blocked.contains a.stream then x.blocked else x.blocked ++ [a.stream]
               syncs := x.syncs.map fun (y : IxuSync) => if y.ats.contains id then { y with err := true } else y }
    ((s.status pgIXU Fld.IXU_STAT_ATS_TO (srcWide 6)).recIxu 1 6 a.stream).afterDma

/-- A stalled SOFT-mode DMA finds no entry within 1 ms (R518). -/
def softTimeout (s : State) (id : Nat) : State :=
  match Tab.get? id s.dmas with
  | some d =>
    match d.st with
    | .stalled t =>
      if s.time < t + 1000000 then s
      else ((s.recIxu 4 4 d.stream (some d.va)).dmaFault id d 1 0 ftMissTimeout).softSlot
    | _ => s
  | none => s

/-! ### DMA of devices (R272, R482) -/

/-- A device's DMA request as the IXU and its group take it: reads and atomics wait for earlier posted writes of the requester. A write with EP
set carries PSN (R680). -/
def deviceDma (s : State) (who rid va acc : Nat) (ro : Bool) (data : LineData) (mask : ByteMask) (op : Nat)
    (translated ep : Bool) : State :=
  s.dmaNew { who := who, rid := rid, stream := streamOf who rid, va := va, acc := acc % 4
             kind := if acc % 4 == 1 then b2n ro else 2, data := data, mask := mask, op := op, psn := ep && acc % 4 == 1
             translated := translated && who != 16, spec := who == 16 }

/-- A translated DMA leaves its agent (R272, R569). -/
def dmaGo (s : State) (id : Nat) : State :=
  match Tab.get? id s.dmas with
  | some d => if d.st == DmaSt.ready && !s.dmaBlocked id d && !s.jobGated d && s.fnMayDma d && !s.pageOff (dmaPage d.who) then (s.dmaSend id d).afterDma else s
  | none => s

/-- An access of the NE to a device reaches DMA_TO (R607): its TXN stays in use until the completion comes (R172). -/
def neTimeout (s : State) (id : Nat) : State :=
  match Tab.get? id s.dmas, s.agents.find? fun e => decide (e.2.use = AgUse.dma id) with
  | some d, some (key, a) =>
    match d.st with
    | .sent t =>
      if d.who != 16 || !(a.p.op == 0x70 || a.p.op == 0x71) || s.time < t + 1000000 * s.get pgNE Fld.DMA_TO_MS then s
      else
        let late := fun (e : Nat × AgReq) => if e.2.use = AgUse.dma id then (e.1, { e.2 with use := .late }) else e
        let s := { s with agents := s.agents.map late }
        let s := s.modNe fun n => { n with jobs := Tab.upd d.job (fun (j : NeJob) => { j with timed := true }) n.jobs }
        ((s.recEndpoint 1 (srcNE 4) pgNE d.rid (key % 256)).dmaEnd id 2 0).afterDma
    | _ => s
  | _, _ => s

/-- The job a response to an NE DMA serves. -/
def jobKindOf (s : State) (p : Pkt) : Option NeKind :=
  match (s.agentOf p).map (fun (a : AgReq) => a.use) with
  | some (AgUse.dma id) => (Tab.get? id s.dmas).bind fun (d : Dma) =>
      if d.who == 16 then (Tab.get? d.job s.ne.jobs).map fun (j : NeJob) => j.kind else none
  | _ => none

/-! ### Interfaces (R524, R525) -/

/-- LFAULT of a port shows its interfaces that have lost alignment. -/
def setLfault (s : State) (i : Nat) (v : Nat) : State :=
  let pg := pgNEP (portOf i)
  s.put pg Fld.PORT_STAT_LFAULT (setBits (s.get pg Fld.PORT_STAT_LFAULT) (i % 4) 1 v)

/-- The PCS of an interface loses alignment (R524). -/
def alignLost (s : State) (i : Nat) : State :=
  if 16 ≤ i || !s.intfUp i then s
  else
    let s := s.setLfault i 1
    if s.get (pgNEP (portOf i)) Fld.PORT_TIMING_LD_HOLD == 0 then s.intfDown i
    else s.modIntf i fun x => { x with lost := match x.lost with
                                              | some t => some t
                                              | none => some s.time }

/-- Alignment has stayed lost for LD_HOLD (R524). -/
def alignDown (s : State) (i : Nat) : State :=
  match (nthD s.ne.intfs i {}).lost with
  | some t => if t + 1000 * s.get (pgNEP (portOf i)) Fld.PORT_TIMING_LD_HOLD ≤ s.time then s.intfDown i else s
  | none => s

/-- The PCS of an interface gains alignment (R524, R525). -/
def alignGained (s : State) (i : Nat) : State :=
  if 16 ≤ i || !s.intfExists i || !s.intfPowered i then s else (s.setLfault i 0).modIntf i fun _ => { up := true }

/-- CQ_CMD.RESUME (R502). -/
def cqResume (s : State) : State := (s.put pgIXU Fld.IXU_STAT_CQ_HALT 0).cqKick

/-- A connection in DRAIN with nothing outstanding becomes FREE (R565). -/
def ctxDrained (s : State) (c : Nat) : State :=
  let x := s.ctxAt c
  if x.st == 3 && x.ops.isEmpty && x.unacked.isEmpty then s.ctxFree c else s

end State

/-! ### Broadcast invalidation -/

/-- XLAT_INV (R504). -/
def execXlatInv (p : Pkt) (s : State) : Host.Outcome State Fault Refusal :=
  s.act fun s =>
    if p.op != 0x0A || !s.arrived p then s
    else if (State.homeOfPkt p).isSome then s.protoDrop p
    else if isDieNode p.src then s.xlatReceive p else s
/-- XLAT_SYNC (R507). -/
def execXlatSync (p : Pkt) (s : State) : Host.Outcome State Fault Refusal :=
  s.act fun s =>
    if p.op != 0x0B || !s.arrived p then s
    else if (State.homeOfPkt p).isSome then s.protoDrop p
    else if isDieNode p.src then s.xlatReceive p else s
/-- XLAT_INV_FWD (R505). -/
def execXlatInvFwd (p : Pkt) (s : State) : Host.Outcome State Fault Refusal := s.actDom (·.xlatExecute p)
/-- XLAT_ACK (R506). -/
def execXlatAck (p : Pkt) (s : State) : Host.Outcome State Fault Refusal := s.act (·.xlatAcked p)
/-- XLAT_TARGET_TIMEOUT (R506): a die target of the broadcast with this TXN has not answered in 20 us. -/
def execXlatTargetTimeout (src : BitVec 8) (txn : BitVec 12) (target : Nat) (s : State) : Host.Outcome State Fault Refusal :=
  s.act fun s =>
    if target < 16 && (s.siteAt (siteOf src)).xlat.any fun x => x.started && x.p.txn == txn && x.p.src == src && x.start + 20000 ≤ s.time
    then s.xlatAnswered (siteOf src) target txn src true else s

/-! ### The IXU -/

/-- DMA_TRANSLATE (R482): a DMA of requester `rid` of group `who` (16: a speculative translation of the NE, R498); `ep`: a write with EP set. -/
def execDmaTranslate (who rid va acc : Nat) (ro : Bool) (data : LineData) (mask : ByteMask) (op : Nat) (translated ep : Bool) (s : State) :
    Host.Outcome State Fault Refusal :=
  s.actDom fun s =>
    if (who < 6 || who == 16) && !s.pageOff (State.dmaPage who) then
      ((if who < 6 then s.tlpRx who (Config.ridPort who rid) else s).deviceDma who rid va (acc % 3) ro data mask op translated ep).afterDma
    else s
/-- WALK_READ_RETURN (R488). -/
def execWalkReadReturn (p : Pkt) (s : State) : Host.Outcome State Fault Refusal := s.actDom (·.ixuDo (·.walkReturn p false))
/-- AD_UPDATE_RETURN (R492). -/
def execAdUpdateReturn (p : Pkt) (s : State) : Host.Outcome State Fault Refusal := s.actDom (·.ixuDo (·.walkReturn p true))
/-- FAULT_RECORD_CMP (R495). -/
def execFaultRecordCmp (p : Pkt) (s : State) : Host.Outcome State Fault Refusal :=
  s.actDom (·.ixuDo fun s =>
    match s.useOf p with
    | some .fault => if p.last then (s.agentTakes p).faultWritten else s.agentTakes p
    | _ => s)
/-- CQ_FETCH (R501): the read of the command at CQ_HEAD returns. -/
def execCqFetch (p : Pkt) (s : State) : Host.Outcome State Fault Refusal := s.actDom (·.ixuDo (·.cqFetched p))
/-- INV_SPACE (R500). -/
def execInvSpace (s : State) : Host.Outcome State Fault Refusal := s.actDom (·.ixuDo (·.cqInvalidate 1))
/-- INV_VA_RANGE (R500). -/
def execInvVaRange (s : State) : Host.Outcome State Fault Refusal := s.actDom (·.ixuDo (·.cqInvalidate 2))
/-- INV_VMID (R500). -/
def execInvVmid (s : State) : Host.Outcome State Fault Refusal := s.actDom (·.ixuDo (·.cqInvalidate 3))
/-- INV_WALK (R500). -/
def execInvWalk (s : State) : Host.Outcome State Fault Refusal := s.actDom (·.ixuDo (·.cqInvalidate 4))
/-- INV_BIND (R500). -/
def execInvBind (s : State) : Host.Outcome State Fault Refusal := s.actDom (·.ixuDo (·.cqInvalidate 5))
/-- IXU_INV_ALL (R500). -/
def execIxuInvAll (s : State) : Host.Outcome State Fault Refusal := s.actDom (·.ixuDo (·.cqInvalidate 7))
/-- IXU_SYNC (R503). -/
def execIxuSync (s : State) : Host.Outcome State Fault Refusal := s.actDom (·.ixuDo (·.cqSync))
/-- RESUME (R502). -/
def execResume (s : State) : Host.Outcome State Fault Refusal := s.actDom (·.wr pgIXU (·.cqResume))
/-- CQ_TAIL_WRITE (R501). -/
def execCqTailWrite (v : Nat) (s : State) : Host.Outcome State Fault Refusal :=
  s.actDom (·.wr pgIXU fun s => (s.put pgIXU Fld.CQ_TAIL_INDEX v).cqKick)
/-- ATS_TRANSLATION_REQUEST (R513). -/
def execAtsTranslationRequest (who rid va : Nat) (s : State) : Host.Outcome State Fault Refusal :=
  s.actDom fun s =>
    if who < 6 && !s.pageOff (pgPCIE who) then ((s.tlpRx who (Config.ridPort who rid)).deviceDma who rid va accAts false 0 0 0 false false).afterDma else s
/-- ATS_INV_COMPLETE (R514). -/
def execAtsInvComplete (id : Nat) (s : State) : Host.Outcome State Fault Refusal :=
  s.actDom (·.ixuDo (·.modIxu fun x => { x with ats := x.ats.filter (·.id != id) }))
/-- ATS_INV_TIMEOUT (R514). -/
def execAtsInvTimeout (id : Nat) (s : State) : Host.Outcome State Fault Refusal := s.actDom (·.ixuDo (·.atsTimeout id))
/-- SOFT_MISS_TIMEOUT (R518). -/
def execSoftMissTimeout (id : Nat) (s : State) : Host.Outcome State Fault Refusal := s.actDom (·.ixuDo (·.softTimeout id))
/-- LOAD (R519). -/
def execLoad (s : State) : Host.Outcome State Fault Refusal := s.actDom (·.wr pgIXU (·.softLoad.afterDma))
/-- LOAD_INV_ALL (R519). -/
def execLoadInvAll (s : State) : Host.Outcome State Fault Refusal :=
  s.actDom (·.wr pgIXU fun s => (s.modIxu fun x => { x with loaded := [] }).put pgIXU Fld.LOAD_STAT_COUNT 0)
/-- DEVICE_DMA (R272): the translated DMA `id` is sent to its home or claimant. -/
def execDeviceDma (id : Nat) (s : State) : Host.Outcome State Fault Refusal := s.actDom (·.dmaGo id)

/-! ### Frames and Chain -/

/-- RX_FRAME (R548): a frame arrives at interface `i`. -/
def execRxFrame (i : Nat) (fr : Frame) (fcsOk fecOk : Bool) (corr : Nat) (buf : EccOutcome) (s : State) : Host.Outcome State Fault Refusal :=
  s.actDom (·.neDo (·.rxFrame i fr fcsOk fecOk corr buf))
/-- CHAIN_DATA (R569): the DATA packet of frame `id` that Chain receive holds. -/
def execChainData (id : Nat) (s : State) : Host.Outcome State Fault Refusal := s.actDom (·.neDo (·.chainRecv id 0))
/-- CHAIN_ACK (R558). -/
def execChainAck (id : Nat) (s : State) : Host.Outcome State Fault Refusal := s.actDom (·.neDo (·.chainRecv id 1))
/-- READ_RESP (R572). -/
def execReadResp (id : Nat) (s : State) : Host.Outcome State Fault Refusal := s.actDom (·.neDo (·.chainRecv id 2))
/-- ATOMIC_RESP (R572). -/
def execAtomicResp (id : Nat) (s : State) : Host.Outcome State Fault Refusal := s.actDom (·.neDo (·.chainRecv id 3))
/-- CHAIN_NAK (R559). -/
def execChainNak (id : Nat) (s : State) : Host.Outcome State Fault Refusal := s.actDom (·.neDo (·.chainRecv id 4))
/-- CHAIN_RTO (R558): the timer of context `c`. -/
def execChainRto (c : Nat) (s : State) : Host.Outcome State Fault Refusal := s.actDom (·.neDo (·.rtoExpire c))
/-- ACK_TIMER (R557). -/
def execAckTimer (c : Nat) (s : State) : Host.Outcome State Fault Refusal :=
  s.actDom (·.neDo fun s => match (s.ctxAt c).oldest with
    | some t => if t + 2000 ≤ s.time then s.chainAck c else s
    | none => s)
/-- RNR_RETRY (R559). -/
def execRnrRetry (c psn : Nat) (s : State) : Host.Outcome State Fault Refusal :=
  s.actDom (·.neDo fun s =>
    if (s.ctxAt c).unacked.any fun (u : TxPkt) => u.psn == psn && (match u.hold with
        | some t => decide (t ≤ s.time)
        | none => false) then s.resend c psn else s)
/-- CHAIN_SEND (R560). -/
def execChainSend (c : Nat) (buf : EccOutcome) (s : State) : Host.Outcome State Fault Refusal := s.actDom (·.neDo (·.chainSend c buf))
/-- CTX_FILL (R567). -/
def execCtxFill (c : Nat) (s : State) : Host.Outcome State Fault Refusal := s.actDom (·.neDo (·.ctxFilled c))
/-- ALIGNMENT_LOST (R524). -/
def execAlignmentLost (i : Nat) (s : State) : Host.Outcome State Fault Refusal := s.actDom (·.alignLost i)
/-- INTERFACE_DOWN (R524). -/
def execInterfaceDown (i : Nat) (s : State) : Host.Outcome State Fault Refusal := s.actDom (·.alignDown i)
/-- INTERFACE_UP (R524). -/
def execInterfaceUp (i : Nat) (s : State) : Host.Outcome State Fault Refusal := s.actDom (·.alignGained i)

/-! ### Queue pairs and descriptors -/

/-- SQ_PI (R593): function `f`, queue pair `q`. -/
def execSqPi (f q v : Nat) (s : State) : Host.Outcome State Fault Refusal := s.actDom (·.neDo (·.sqPi f q v))
/-- RQ_PI (R593). -/
def execRqPi (f q v : Nat) (s : State) : Host.Outcome State Fault Refusal := s.actDom (·.neDo (·.rqPi f q v))
/-- CQ_CI (R596). -/
def execCqCi (f q v : Nat) (s : State) : Host.Outcome State Fault Refusal := s.actDom (·.neDo (·.cqCi f q v))
/-- DESCRIPTOR_FETCH (R591): the response to the fetch of a send descriptor. -/
def execDescriptorFetch (p : Pkt) (s : State) : Host.Outcome State Fault Refusal :=
  s.actDom (·.neDo fun s => match s.jobKindOf p with
    | some (.sqFetch _ _) => s.dmaResponse p
    | _ => s)
/-- NOP (R585). -/
def execNop (f q : Nat) (s : State) : Host.Outcome State Fault Refusal := s.actDom (·.neDo (·.opNop f q))
/-- SEND (R585). -/
def execSend (f q : Nat) (s : State) : Host.Outcome State Fault Refusal := s.actDom (·.neDo (·.opStart f q 1))
/-- WRITE (R585). -/
def execWrite (f q : Nat) (s : State) : Host.Outcome State Fault Refusal := s.actDom (·.neDo (·.opStart f q 2))
/-- READ (R585). -/
def execRead (f q : Nat) (s : State) : Host.Outcome State Fault Refusal := s.actDom (·.neDo (·.opStart f q 3))
/-- FADD (R585). -/
def execFadd (f q : Nat) (s : State) : Host.Outcome State Fault Refusal := s.actDom (·.neDo (·.opStart f q 4))
/-- CSWAP (R585). -/
def execCswap (f q : Nat) (s : State) : Host.Outcome State Fault Refusal := s.actDom (·.neDo (·.opStart f q 5))
/-- RAW (R584). -/
def execRaw (f q : Nat) (s : State) : Host.Outcome State Fault Refusal := s.actDom (·.neDo (·.opRaw f q))
/-- COMPLETION_WRITE (R589). -/
def execCompletionWrite (f q : Nat) (s : State) : Host.Outcome State Fault Refusal := s.actDom (·.neDo (·.cplWrite f q))

/-! ### Admin commands -/

/-- AQ_PI (R598). -/
def execAqPi (f v : Nat) (s : State) : Host.Outcome State Fault Refusal := s.actDom (·.neDo (·.aqPiWrite f v))
/-- AQ_BASE_WRITE (R610): `acq` for ACQ_BASE, `hi` for the high word. -/
def execAqBaseWrite (f : Nat) (acq hi : Bool) (v : Nat) (s : State) : Host.Outcome State Fault Refusal :=
  s.actDom (·.neDo (·.aqBase f acq hi v))
/-- The admin command in execution of a function runs where it has the row's code (R598). -/
def State.adminRun (s : State) (f op : Nat) (run : State → Nat → Nat → State) : State :=
  s.neDo fun s => match s.adminCmd f op with
    | some c => run s f c
    | none => s
/-- QP_CREATE (R599). -/
def execQpCreate (f : Nat) (s : State) : Host.Outcome State Fault Refusal := s.actDom (·.adminRun f 0x01 State.qpCreate)
/-- QP_DESTROY (R599). -/
def execQpDestroy (f : Nat) (s : State) : Host.Outcome State Fault Refusal := s.actDom (·.adminRun f 0x02 State.qpDestroy)
/-- CTX_CREATE (R565). -/
def execCtxCreate (f : Nat) (s : State) : Host.Outcome State Fault Refusal := s.actDom (·.adminRun f 0x10 State.ctxCreate)
/-- CTX_ACTIVATE (R565). -/
def execCtxActivate (f : Nat) (s : State) : Host.Outcome State Fault Refusal := s.actDom (·.adminRun f 0x11 State.ctxEvent)
/-- CTX_MODIFY (R564). -/
def execCtxModify (f : Nat) (s : State) : Host.Outcome State Fault Refusal := s.actDom (·.adminRun f 0x12 State.ctxEvent)
/-- CTX_CLOSE (R565). -/
def execCtxClose (f : Nat) (s : State) : Host.Outcome State Fault Refusal := s.actDom (·.adminRun f 0x13 State.ctxEvent)
/-- CTX_DESTROY (R565). -/
def execCtxDestroy (f : Nat) (s : State) : Host.Outcome State Fault Refusal := s.actDom (·.adminRun f 0x14 State.ctxEvent)
/-- CTX_QUERY (R599). -/
def execCtxQuery (f : Nat) (s : State) : Host.Outcome State Fault Refusal := s.actDom (·.adminRun f 0x15 State.ctxQuery)
/-- WIN_SET (R599). -/
def execWinSet (f : Nat) (s : State) : Host.Outcome State Fault Refusal := s.actDom (·.adminRun f 0x20 State.winCmd)
/-- WIN_CLEAR (R599). -/
def execWinClear (f : Nat) (s : State) : Host.Outcome State Fault Refusal := s.actDom (·.adminRun f 0x21 State.winCmd)
/-- VF_CONFIG (R600). -/
def execVfConfig (f : Nat) (s : State) : Host.Outcome State Fault Refusal := s.actDom (·.adminRun f 0x30 State.vfConfig)
/-- CTX_DRAIN_DONE (R565). -/
def execCtxDrainDone (c : Nat) (s : State) : Host.Outcome State Fault Refusal := s.actDom (·.neDo (·.ctxDrained c))

/-! ### NE invalidation, functions, responses -/

/-- WINDOW (R571): a write of NE_INV with KIND 1. -/
def execWindow (index : Nat) (s : State) : Host.Outcome State Fault Refusal := s.actDom (·.wr pgNE (·.neInv 1 (index % 2 ^ 24)))
/-- FLOW_BUCKET (R551): KIND 2. -/
def execFlowBucket (index : Nat) (s : State) : Host.Outcome State Fault Refusal := s.actDom (·.wr pgNE (·.neInv 2 (index % 2 ^ 24)))
/-- FLOW_ALL (R551): KIND 3. -/
def execFlowAll (s : State) : Host.Outcome State Fault Refusal := s.actDom (·.wr pgNE (·.neInv 3 0))
/-- NE_INV_COMPLETE (R571). -/
def execNeInvComplete (s : State) : Host.Outcome State Fault Refusal := s.actDom (·.neDo (·.neInvDone))
/-- FLR_START (R602). -/
def execFlrStart (f : Nat) (s : State) : Host.Outcome State Fault Refusal := s.actDom (·.neDo fun s => if s.fnPresent f then s.flrBegin f else s)
/-- FLR_COMPLETE (R602). -/
def execFlrComplete (f : Nat) (s : State) : Host.Outcome State Fault Refusal := s.actDom (·.neDo (·.flrComplete f))
/-- VF_ENABLE (R601). -/
def execVfEnable (on : Bool) (s : State) : Host.Outcome State Fault Refusal := s.actDom (·.neDo (·.vfEnable on))
/-- CONFIG_WRITE (R578): requester `rid` of segment 1, a dword at `off`, the bytes `mask` selects. -/
def execConfigWrite (rid off data mask : Nat) (s : State) : Host.Outcome State Fault Refusal :=
  s.actDom (·.neDo (·.cfgWrite rid off data mask))
/-- NE_DMA_RESPONSE (R605). -/
def execNeDmaResponse (p : Pkt) (s : State) : Host.Outcome State Fault Refusal :=
  s.actDom (·.neDo fun s => if p.dst == nodeNE then s.dmaResponse p else s)
/-- NE_DMA_TIMEOUT (R607). -/
def execNeDmaTimeout (id : Nat) (s : State) : Host.Outcome State Fault Refusal := s.actDom (·.neDo (·.neTimeout id))

end Sys2Proof.Machine
end

