-- ==== Sys2Proof/Machine/Optics.lean ====
section
/-! DEFINITION. Optical lanes and Ember modules (R527 to R542): which channel feeds a lane, moves and failover, insertion checks,
faults, life. -/

namespace Sys2Proof.Machine

/-- One bit of the reflected CRC-32 of R449 (polynomial 0x04C1_1DB7). -/
def crcStep (c : Nat) : Nat → Nat
  | 0 => c
  | n + 1 => crcStep (if c % 2 == 1 then c / 2 ^^^ 0xEDB88320 else c / 2) n
/-- CRC-32 of a byte string (R449). -/
def crc32 (l : List Byte) : Nat := (l.foldl (fun c b => crcStep (c ^^^ b.toNat) 8) 0xFFFFFFFF) ^^^ 0xFFFFFFFF

/-- Results of R535. -/
def embVerifying : Nat := 1
def embVerified : Nat := 2

/-- Port of lane `k` of engine `o`, and the interface that a mode gives that lane (R522). -/
def lanePort (o k : Nat) : Nat := 2 * o + k / 4
def laneIntf (mode o k : Nat) : Nat := 4 * lanePort o k + (if mode == 0 then 0 else if mode == 1 then k % 4 / 2 else k % 4)

/-- The two signatures of an identity block (R449, R532) verify: the registry's over the vendor ID and VENDOR_KEY under the root key, and
the vendor's over bytes 0 to 351 under VENDOR_KEY. -/
def certsOk (root b : List Nat) : Bool :=
  let part := fun (off n : Nat) => (b.drop off).take n
  ecdsaOk root (part 256 96) (part 4 2 ++ part 160 96) && ecdsaOk (part 160 96) (part 352 96) (part 0 352)

/-- The first failing check of a ROM (R532, R535): 0 where all pass. Whether the registry has registered VENDOR is an input. -/
def romCheck (t : Trust) (rom : List Byte) (ack registered : Bool) : Nat :=
  let z := fun (off n : Nat) => leAt rom off n == 0
  if !ack then 3
  else if rom.length != 512 || leAt rom 0 2 != 1 || leAt rom 2 2 != 512 || crc32 (rom.take 508) != leAt rom 508 4 || !z 18 6 || !z 448 60 then 4
  else if !registered || leAt rom 4 2 == 0 || leAt rom 4 2 == 0xFFFF ||
    t.revoked (leAt rom 4 2) ((rom.drop 160).take 96) ((rom.drop 24).take 8) then 5
  else if !certsOk (t.root.map (·.toNat)) (rom.map (·.toNat)) then 6
  else if leAt rom 6 2 != 0x0E08 || leAt rom 9 1 != 8 || leAt rom 16 1 < 10 || 50 < leAt rom 16 1 then 7
  else 0

namespace State

def embAt (s : State) (e : Nat) : Ember := nthD s.embers e {}
def modEmb (s : State) (e : Nat) (f : Ember → Ember) : State := { s with embers := modOf 4 {} s.embers e f }

/-- LASER_EN of a module may be asserted (R536, R537). -/
def laserOk (s : State) (e : Nat) : Bool :=
  let pg := pgEMB e
  s.get pg Fld.EMB_STAT_RESULT == embVerified && s.flag pg Fld.EMB_STAT_PRESENT && s.domState (40 + e / 2) == 2 &&
  !s.flag pg Fld.EMB_STAT_RELEASED && (s.embAt e).ready && !s.power.stopped

/-- A channel is healthy (R540). -/
def chanHealthy (s : State) (e k : Nat) : Bool :=
  let pg := pgEMB e
  s.get pg Fld.EMB_STAT_RESULT == embVerified && !s.flag pg Fld.EMB_STAT_RELEASED &&
  !bitN (s.get pg Fld.EMB_CHAN_STAT_CH_FAULT) k && !bitN (s.get pg Fld.EMB_CHAN_STAT_CH_EOL) k

/-- A channel that may carry a lane now. -/
def chanUsable (s : State) (e k : Nat) : Bool := s.chanHealthy e k && s.laserOk e

/-- The module that feeds a lane, and the one it prefers (R528). -/
def laneSrc (s : State) (o k : Nat) : Nat := 2 * o + b2n (bitN (s.get (pgOPT o) Fld.LANE_SRC_SRC) k)
def lanePref (s : State) (o k : Nat) : Nat := 2 * o + b2n (bitN (s.get (pgOPT o) Fld.LANE_PREF_PREF) k)
/-- The other module of a pair. -/
def emPartner (e : Nat) : Nat := if e % 2 == 0 then e + 1 else e - 1

/-- A lane of a port whose domain is on (R528), while its engine is on. -/
def laneInUse (s : State) (o k : Nat) : Bool := s.domState (36 + lanePort o k) == 2 && s.domState (40 + o) == 2

/-- The lane is fed: its source channel stands at nominal level for it. -/
def laneFed (s : State) (o k : Nat) : Bool := bitN (s.embAt (s.laneSrc o k)).nominal k

/-- A bit of one of the lane fields of LANE_SRC. -/
def setLaneBit (s : State) (o k : Nat) (f : FRef) (v : Nat) : State := s.put (pgOPT o) f (setBits (s.get (pgOPT o) f) k 1 v)

/-- A move of a lane to a module's channel (R530): 0 failover, 1 release, 2 LANE_APPLY, 3 first light. -/
def laneMove (s : State) (o k e why : Nat) : State := { s with lanes := Tab.put (8 * o + k) (e, why) s.lanes }

/-- A lane gives up its light: its channel is not at nominal level for it. -/
def laneUnlit (s : State) (o k : Nat) : State :=
  s.modEmb (s.laneSrc o k) fun x => { x with nominal := setBits x.nominal k 1 0, steady := Tab.del k x.steady }

/-- The lane goes dark (R531): its interface loses alignment. -/
def laneDark (s : State) (o k : Nat) : State :=
  let was := bitN (s.get (pgOPT o) Fld.LANE_SRC_DARK) k
  let s := s.laneUnlit o k
  if was then s
  else
    let s := (s.setLaneBit o k Fld.LANE_SRC_DARK 1).status (pgOPT o) Fld.OPT_STAT_DARK (srcOPT o 1)
    s.alignLost (laneIntf (s.get (pgNEP (lanePort o k)) Fld.PORT_CFG_MODE) o k)

/-- Smith firmware decides for one lane (R528, R529, R531): nothing while a move to a healthy channel runs; a lane with light keeps it
unless its channel is at fault or at end of life; one that had light gets it again from the same module, or from the partner where its
channel is not healthy; the first light comes from the preferred module, once that is verified, or else from the partner. -/
def laneStep (s : State) (o k : Nat) : State :=
  if !s.laneInUse o k then { s with lanes := Tab.del (8 * o + k) s.lanes }.laneUnlit o k
  else
    let keep := match Tab.get? (8 * o + k) s.lanes with
      | some (e, _) => s.chanHealthy e k
      | none => false
    if keep then s
    else
      let s := { s with lanes := Tab.del (8 * o + k) s.lanes }
      let e := s.laneSrc o k
      let p := emPartner e
      let eol := bitN (s.get (pgEMB e) Fld.EMB_CHAN_STAT_CH_EOL) k
      let fault := bitN (s.get (pgEMB e) Fld.EMB_CHAN_STAT_CH_FAULT) k
      if s.chanUsable e k && s.laneFed o k then s
      else if s.laneFed o k && eol && !fault && s.laserOk e then
        if s.chanHealthy p k then s.laneMove o k p 0 else s.setLaneBit o k Fld.LANE_SRC_DEGRADED 1
      else if bitN (s.embAt e).lit k then
        if s.chanUsable e k then (s.laneUnlit o k).laneMove o k e 3
        else if s.chanHealthy e k then s.laneUnlit o k
        else if s.chanHealthy p k then (s.laneUnlit o k).laneMove o k p 0
        else if fault then s.laneDark o k
        else s.laneUnlit o k
      else
        let q := s.lanePref o k
        if s.chanUsable q k then s.laneMove o k q 3
        else if s.get (pgEMB q) Fld.EMB_STAT_RESULT == embVerifying then s
        else if s.chanUsable (emPartner q) k then s.laneMove o k (emPartner q) 3
        else s

/-- EMB_STAT.LIT and the used and standby channels of a module (R528, R536). -/
def embShow (s : State) (e : Nat) : State :=
  let o := e / 2
  let pg := pgEMB e
  let on := s.laserOk e
  let used := if on then maskOf ((List.range 8).filter fun k => s.laneInUse o k && s.laneSrc o k == e && s.laneFed o k) else 0
  let stby := if on then maskOf ((List.range 8).filter fun k =>
      s.laneInUse o k && s.laneSrc o k != e && s.laneFed o k && s.chanHealthy e k) else 0
  let s := s.modEmb e fun x => { x with standby := stby, nominal := if on then x.nominal else 0, steady := if on then x.steady else [] }
  ((s.put pg Fld.EMB_STAT_LIT (b2n on)).put pg Fld.EMB_CHAN_STAT_CH_USED used).put pg Fld.EMB_CHAN_STAT_CH_STBY stby

/-- Smith firmware brings the lanes of an engine and their channels to what R528 to R531 ask; the gates of R537 act in any case. -/
def optRefresh (s : State) (o : Nat) : State :=
  let s := if s.smith.running then (List.range 8).foldl (fun s k => s.laneStep o k) s else s
  (s.embShow (2 * o)).embShow (2 * o + 1)

/-- The release of a module is complete once no lane is fed by it or moving (R541). -/
def releaseAdvance (s : State) : State :=
  if s.smith.op != some 0x30 then s
  else
    let e := s.smith.site
    let o := e / 2
    let busy := (List.range 8).any fun k => s.laneInUse o k && ((s.laneSrc o k == e && s.laneFed o k) || (Tab.get? (8 * o + k) s.lanes).isSome)
    if busy then s
    else ((s.put (pgEMB e) Fld.EMB_STAT_RELEASED 1).optRefresh o).mbEnd 0

/-- The selector of a lane switches (R530): the channel it moves to has reported CH_NOMINAL. -/
def laneSwitch (s : State) (o k : Nat) : State :=
  match Tab.get? (8 * o + k) s.lanes with
  | none => s
  | some (e, why) =>
    if !s.smith.running || !s.chanUsable e k then s
    else
      let old := s.laneSrc o k
      let s := { s with lanes := Tab.del (8 * o + k) s.lanes }
      let s := s.modEmb old fun x => { x with nominal := setBits x.nominal k 1 0, steady := Tab.del k x.steady, lit := setBits x.lit k 1 0 }
      let s := s.modEmb e fun x => { x with nominal := setBits x.nominal k 1 1, steady := Tab.put k s.time x.steady, lit := setBits x.lit k 1 1 }
      let s := ((s.setLaneBit o k Fld.LANE_SRC_SRC (e % 2)).setLaneBit o k Fld.LANE_SRC_DARK 0).setLaneBit o k Fld.LANE_SRC_DEGRADED 0
      let s := if why == 0 then
          let s := s.count (pgOPT o) Fld.FAILOVER_CNT_COUNT
          if s.lanes.any fun m => m.1 / 8 == o && m.2.2 == 0 then s
          else (s.status (pgOPT o) Fld.OPT_STAT_FAILOVER (srcOPT o 0)).recNet 3 (srcOPT o 0) (pgOPT o) old 0
        else s
      (s.optRefresh o).releaseAdvance

/-- LANE_APPLY (R529). -/
def laneApply (s : State) (o mask : Nat) : State :=
  (List.range 8).foldl (fun s k =>
    let q := s.lanePref o k
    if bitN mask k && s.laneSrc o k != q && s.laneInUse o k && s.chanHealthy q k then s.laneMove o k q 2 else s) s

/-- Channels of a module are found at fault (R540, R542). -/
def embFault (s : State) (e mask : Nat) : State :=
  let pg := pgEMB e
  let was := s.get pg Fld.EMB_CHAN_STAT_CH_FAULT
  let s := s.put pg Fld.EMB_CHAN_STAT_CH_FAULT (was ||| mask % 256)
  if mask % 256 == 0 || was ||| mask % 256 == was then s else s.status pg Fld.EMB_STAT_FAULT (srcEMB e 2)

/-- A result of R535 other than VERIFIED is recorded. -/
def embRefuse (s : State) (e code : Nat) : State :=
  ((s.put (pgEMB e) Fld.EMB_STAT_RESULT code).fire (srcEMB e 5)).recNet 0 (srcEMB e 5) (pgEMB e) e code

/-- An insertion is recognised, the ROM read and checked, the challenge issued (R535, R542). -/
def embInsert (s : State) (e : Nat) (rom : List Byte) (ack registered : Bool) : State :=
  let pg := pgEMB e
  match (s.embAt e).since with
  | none => s
  | some t =>
    if s.time < t + 100000000 || s.get pg Fld.EMB_STAT_RESULT != 0 || !s.smith.running then s
    else
      let s := (s.status pg Fld.EMB_STAT_INSERT (srcEMB e 0)).put pg Fld.EMB_STAT_RELEASED 0
      let s := (s.put pg Fld.EMB_CHAN_STAT_CH_FAULT (if (s.pin (pinEmb e)).filt then 0xFF else 0)).put pg Fld.EMB_STAT_RESULT embVerifying
      let s := (List.range 128).foldl (fun s i => s.put pg (Fld.EMB_ROM_BYTES i) (leAt rom (4 * i) 4)) s
      let (n, s) := s.drawNonce
      let s := s.modEmb e fun x => { x with rom := rom, chal := some s.time, nonce := n, ready := false }
      match romCheck (s.trust) rom ack registered with
      | 0 => s
      | c => (s.modEmb e fun x => { x with chal := none }).embRefuse e c

/-- The challenge ends (R533, R535): within 200 ms CHAL_SIG, made with MODULE_KEY over the nonce and SERIAL, must verify. -/
def embChallenge (s : State) (e : Nat) (sig : List Byte) (ready : Bool) : State :=
  match (s.embAt e).chal with
  | none => s
  | some t =>
    let x := s.embAt e
    let part := fun (off n : Nat) => ((x.rom.drop off).take n).map (·.toNat)
    let ok := ecdsaOk (part 64 96) (sig.map (·.toNat)) ((bytesOf x.nonce 48).map (·.toNat) ++ part 24 8)
    let s := s.modEmb e fun x => { x with chal := none }
    if !ok || t + 200000000 < s.time then s.embRefuse e 8
    else ((s.modEmb e fun x => { x with ready := ready }).put (pgEMB e) Fld.EMB_STAT_RESULT embVerified).optRefresh (e / 2)

/-- Raw EMBER_PRESENT_N deasserts (R537, R542): ABSENT, and without release a fault of every channel. -/
def embRemove (s : State) (e : Nat) : State :=
  let pg := pgEMB e
  if !s.flag pg Fld.EMB_STAT_PRESENT then s
  else
    let s := if s.flag pg Fld.EMB_STAT_RELEASED then s else s.embFault e 0xFF
    let s := ((s.put pg Fld.EMB_STAT_PRESENT 0).put pg Fld.EMB_STAT_RESULT 0).put pg Fld.EMB_CHAN_STAT_CH_EOL 0
    let s := (s.status pg Fld.EMB_STAT_REMOVE (srcEMB e 1)).modEmb e fun x =>
      { x with since := none, chal := none, rom := [], ready := false, steady := [] }
    let s := (List.range 128).foldl (fun s i => s.put pg (Fld.EMB_ROM_BYTES i) 0) s
    s.optRefresh (e / 2)

/-- Smith firmware reads a module's status map (R533, R538 to R540). -/
def embPoll (s : State) (e : Nat) (ready fault : Bool) (chFault : Nat) (bias power hours : List Nat) : State :=
  let pg := pgEMB e
  if !s.smith.running || s.get pg Fld.EMB_STAT_RESULT != embVerified then s
  else
    let rom := (s.embAt e).rom
    let rated := leAt rom 12 4
    let prev := s.get pg Fld.EMB_LIFE_HOURS
    let s := (List.range 8).foldl (fun s k =>
      ((s.put pg (Fld.EMB_CHAN_BIAS k) (nthD bias k 0)).put pg (Fld.EMB_CHAN_POWER k) (nthD power k 0)).put pg
        (Fld.EMB_CHAN_HOURS_HOURS k) (nthD hours k 0)) s
    let top := (hours.take 8).foldl max 0
    let s := (s.put pg Fld.EMB_LIFE_HOURS (min top 0xFFFFFF)).put pg Fld.EMB_LIFE_PCT (if rated == 0 then 255 else min (100 * top / rated) 255)
    let s := if 10 * prev < 9 * rated && 9 * rated ≤ 10 * top then
        (s.status pg Fld.EMB_STAT_LIFE_WARN (srcEMB e 4)).recNet 1 (srcEMB e 4) pg e 0
      else s
    let eols := (List.range 8).filter fun k => match Tab.get? k (s.embAt e).steady with
      | some t => decide (t + 1000000000 ≤ s.time) && !bitN (s.get pg Fld.EMB_CHAN_STAT_CH_EOL) k &&
          (13 * leAt rom (32 + 2 * k) 2 ≤ 10 * nthD bias k 0 || decide (nthD power k 0 < leAt rom (48 + 2 * k) 2))
      | none => false
    let s := if eols.isEmpty then s
      else (s.put pg Fld.EMB_CHAN_STAT_CH_EOL (s.get pg Fld.EMB_CHAN_STAT_CH_EOL ||| maskOf eols)).status pg Fld.EMB_STAT_EOL (srcEMB e 3)
    let s := s.modEmb e fun x => { x with ready := ready }
    let all := fault || (s.pin (pinEmb e)).filt
    let now := if all then 0xFF else chFault % 256
    let s := s.put pg Fld.EMB_CHAN_STAT_CH_FAULT (s.get pg Fld.EMB_CHAN_STAT_CH_FAULT &&& now)
    (s.embFault e now).optRefresh (e / 2)

/-- EMBER_RELEASE (R541): refused where the partner cannot carry every lane that the module feeds. -/
def embRelease (s : State) (e : Nat) : State :=
  let o := e / 2
  let fed := (List.range 8).filter fun k => s.laneInUse o k && s.laneSrc o k == e && s.laneFed o k
  if 4 ≤ e then s.mbEnd 2
  else if fed.any fun k => !s.chanUsable (emPartner e) k then s.mbEnd 4
  else (fed.foldl (fun (s : State) k => s.laneMove o k (emPartner e) 1) { s with smith := { s.smith with site := e } }).releaseAdvance

end State

/-- EMBER_PRESENT_ASSERT (R535): raw EMBER_PRESENT_N asserts. -/
def execEmberPresentAssert (e : Nat) (s : State) : Host.Outcome State Fault Refusal :=
  s.act fun s =>
    if 4 ≤ e || s.flag (pgEMB e) Fld.EMB_STAT_PRESENT then s
    else (s.put (pgEMB e) Fld.EMB_STAT_PRESENT 1).modEmb e fun x => { x with since := some s.time }
/-- EMBER_INSERT (R535): 100 ms of presence; `rom` is what the module returns, `ack` whether it answers at 0x50 and 0x51, `registered`
whether its VENDOR is registered. -/
def execEmberInsert (e : Nat) (rom : List Byte) (ack registered : Bool) (s : State) : Host.Outcome State Fault Refusal :=
  s.act fun s => if e < 4 then s.embInsert e rom ack registered else s
/-- EMBER_CHALLENGE_DONE (R535): CHAL_SIG, and STATUS.READY. -/
def execEmberChallengeDone (e : Nat) (sig : List Byte) (ready : Bool) (s : State) : Host.Outcome State Fault Refusal :=
  s.act fun s => if e < 4 && s.smith.running then s.embChallenge e sig ready else s
/-- EMBER_REMOVE (R537, R542). -/
def execEmberRemove (e : Nat) (s : State) : Host.Outcome State Fault Refusal :=
  s.act fun s => if e < 4 then s.embRemove e else s
/-- EMBER_FAULT (R540, R641): filtered EMBER_FAULT_N asserts. -/
def execEmberFault (e : Nat) (s : State) : Host.Outcome State Fault Refusal :=
  s.act fun s =>
    if e < 4 && s.pinMayAssert (pinEmb e) then
      let s := s.pinAssert (pinEmb e)
      ((s.put (pgEMB e) Fld.EMB_CHAN_STAT_CH_FAULT 0xFF).status (pgEMB e) Fld.EMB_STAT_FAULT (srcEMB e 2)).optRefresh (e / 2)
    else s
/-- EMBER_FAULT_CLEAR (R645): filtered EMBER_FAULT_N deasserts; the status map shows `chFault`. -/
def execEmberFaultClear (e chFault : Nat) (s : State) : Host.Outcome State Fault Refusal :=
  s.act fun s =>
    if e < 4 && s.pinMayDeassert (pinEmb e) then
      ((s.pinDeassert (pinEmb e)).put (pgEMB e) Fld.EMB_CHAN_STAT_CH_FAULT chFault).optRefresh (e / 2)
    else s
/-- EMBER_POLL (R538 to R540): Smith firmware reads a status map: STATUS.READY and FAULT, CH_FAULT, BIAS, POWER, HOURS. -/
def execEmberPoll (e : Nat) (ready fault : Bool) (chFault : Nat) (bias power hours : List Nat) (s : State) :
    Host.Outcome State Fault Refusal :=
  s.act fun s => if e < 4 then s.embPoll e ready fault chFault bias power hours else s
/-- LANE_SWITCH (R530): the channel lane `k` of engine `o` moves to reports CH_NOMINAL. -/
def execLaneSwitch (o k : Nat) (s : State) : Host.Outcome State Fault Refusal :=
  s.actDom fun s => if o < 2 && k < 8 then s.laneSwitch o k else s
/-- LANE_APPLY (R529). -/
def execLaneApply (o mask : Nat) (s : State) : Host.Outcome State Fault Refusal :=
  s.actDom fun s => if o < 2 then s.wr (pgOPT o) (·.laneApply o mask) else s

end Sys2Proof.Machine
end

