-- ==== Sys2Proof/Machine/Quench.lean ====
section
/-! DEFINITION. Quench (R86 to R103): the checks each block makes of its pending values (R92 and the rule of each block), the
apply edge with what it does in each block, completion, and writes held meanwhile. -/

namespace Sys2Proof.Machine

/-- The bits of a register that are of type RWQ. -/
def RegDef.rwqMask (d : RegDef) : Nat := d.fields.foldl (fun a f => if f.acc == Acc.rwq then a + (2 ^ (f.hi + 1 - f.lo) - 1) * 2 ^ f.lo else a) 0

/-- The range lies wholly in one memory range (R32). -/
def inMemRange (base size : Nat) : Bool :=
  let last := base + size - 1
  (isNear base && isNear last) || (isFar base && isFar last) || (isScratch base && isScratch last)

/-- A table or ring base is aligned to its size (at least 4 KiB) and lies wholly in a memory range. -/
def tableOk (base size : Nat) : Bool := base % max size 4096 == 0 && inMemRange base size

/-- The actions R474 permits for kind `k`. -/
def actionOk (k a : Nat) : Bool :=
  if k ≤ 2 then a == 1 || a == 2 else if k ≤ 5 then a ≤ 2 else if k ≤ 8 then a == 0 || a == 2 else a == 2

namespace State

/-- The page has RWQ registers and so belongs to a quench group; HRTH[0] alone of the Hearth pages (R349, R51). -/
def qGroup (s : State) (p : Nat) : Option Nat :=
  if ((pageRow p).bind (·.grp)).isSome && !(0x081 ≤ p && p ≤ 0x0BF) then some (s.get p Fld.PAGE_QGRP_GROUP) else none

/-- The page's group is one of `mask` (R92). -/
def qSelected (s : State) (p mask : Nat) : Bool := match s.qGroup p with
  | some g => bitN mask g
  | none => false

/-- A quench that includes the page's group is in progress (R78, R99). -/
def qHolds (s : State) (p : Nat) : Bool := s.quench.busy && s.qSelected p s.quench.gmask

/-- FAB page of a route table key, and of a weight key (R145). -/
def routePage (key : Nat) : Nat := pgFAB (key / 256 / 32)
def weightPage (key : Nat) : Nat := if key / 4 < 48 then pgFAB 6 else pgFAB 7

/-- The page holds a pending value (SHADOW_PEND, R95, R147). -/
def pagePending (s : State) (p : Nat) : Bool :=
  s.shadow.any (fun e => e.1 / 0x10000 == p) || s.routesPend.any (fun e => routePage e.1 == p) ||
  s.weightsPend.any (fun e => weightPage e.1 == p) || s.routeBasePend.any (fun e => pgFAB e.1 == p)

/-- A register as the quench would leave it: pending where its page is selected. -/
def qv (s : State) (p off : Nat) : Nat := if s.qSelected p s.quench.gmask then s.shadowOrLive p off else s.reg p off

/-- A field as the quench would leave it. -/
def qf (s : State) (p : Nat) (f : FRef) : Nat := bits (s.qv p f.off) f.lo f.width
def qflag (s : State) (p : Nat) (f : FRef) : Bool := s.qf p f == 1

/-- A page-aligned address pair as the quench would leave it. -/
def qAddr (s : State) (p lo hi : Nat) : Nat := bits (s.qv p hi) 0 20 * 2 ^ 32 + bits (s.qv p lo) 12 20 * 2 ^ 12

/-! ### The checks of each block: offsets of the registers found invalid -/

/-- R646: PWR and TIME. -/
def badPwr (s : State) : List Nat :=
  let pl := s.qf pgPWR Fld.PWR_LIMIT_PLIMIT
  let fc := s.qf pgPWR Fld.PWR_LIMIT_FCAP
  let fl := s.qf pgPWR Fld.PWR_FLOOR_FLOOR
  (if 300 ≤ pl && pl ≤ 1100 && fc ≤ 3400 && fc % 25 == 0 then [] else [Reg.PWR_LIMIT]) ++
  (if 800 ≤ fl && fl ≤ fc && fl % 25 == 0 then [] else [Reg.PWR_FLOOR])
def badTime (s : State) : List Nat :=
  let v := s.qf pgTIME Fld.TIME_CFG_SYNC_MS
  if 1 ≤ v && v ≤ 100 then [] else [Reg.TIME_CFG]

/-- R711: EVT and FB. -/
def badEvt (s : State) : List Nat :=
  if s.qf pgEVT Fld.EVT_STORM_CFG_COUNT == 0 || s.qf pgEVT Fld.EVT_STORM_CFG_WINDOW == 0 || s.qf pgEVT Fld.EVT_STORM_CFG_HOLDOFF == 0
  then [Reg.EVT_STORM_CFG] else []
def badFb (s : State) : List Nat :=
  let l := s.qf pgFB Fld.FB_RING_BASE_LO_LOG2
  if 6 ≤ l && l ≤ 16 && tableOk (s.qAddr pgFB Reg.FB_RING_BASE_LO Reg.FB_RING_BASE_HI) (32 * 2 ^ l) then [] else [Reg.FB_RING_BASE_LO]

/-- A route entry as the quench would leave it. -/
def routeQ (s : State) (src dst : Nat) : Nat :=
  if s.qSelected (pgFAB (src / 32)) s.quench.gmask then s.routeProp src dst else s.route src dst

/-- R126, R127: the invalid routes of a page, in order of source and destination, with their reasons. Entries of a Beymos-supplied set are
valid (R128; log 137), so those that hold or are to hold another value are looked at. -/
def badRoutes (s : State) (p : Nat) : List (Nat × Nat × Nat) :=
  let keys := ((s.routes ++ s.routesPend).map (·.1)).filter fun k => routePage k == p
  ((keys.eraseDups.mergeSort (· ≤ ·)).map fun k => (k / 256, k % 256, routeReason (k / 256) (k % 256) (s.routeQ (k / 256) (k % 256)))).filter
    fun e => e.2.2 != 0

/-- The first invalid route of a page. -/
def badRoute (s : State) (p : Nat) : Option (Nat × Nat × Nat) := (s.badRoutes p).head?

/-- R148: a router's class and weight words as the quench would leave them. -/
def badWeights (s : State) (r : Nat) : List Nat :=
  let port := fun i =>
    let on := Config.portKind r i != 0
    let c := bits (s.weightProp r 0) (2 * i) 2
    let w := if i < 8 then bits (s.weightProp r 1) (4 * i) 4 else bits (s.weightProp r 2) (4 * (i - 8)) 4
    (if !on && c != 0 then [Reg.RTR_CLASS] else []) ++
    (if on == (w == 0) then [if i < 8 then Reg.RTR_WEIGHT_LO else Reg.RTR_WEIGHT_HI] else [])
  (List.range 15).flatMap port

/-- FAB pages (R127, R148); the entry's low half stands for an invalid route, its high half for a VALID bit alone. A balanced set keeps
R148, so routers whose words hold or are to hold other values are looked at. -/
def badFab (s : State) (p : Nat) : List Nat :=
  if p < pgFAB 6 then (s.badRoutes p).map fun e => if e.2.2 == 4 then Reg.RT_ENTRY_HI else Reg.RT_ENTRY_LO
  else ((((s.weights ++ s.weightsPend).filter fun e => weightPage e.1 == p).map fun e => e.1 / 4).eraseDups).flatMap s.badWeights

/-- The DEVWIN of a site as the quench would leave it: first and last byte. -/
def qDevwin (s : State) (site : Nat) : Option (Nat × Nat) :=
  let p := pgSITE site
  if s.qflag p Fld.DEVWIN_BASE_LO_EN then
    some (s.qAddr p Reg.DEVWIN_BASE_LO Reg.DEVWIN_BASE_HI, s.qAddr p Reg.DEVWIN_LIMIT_LO Reg.DEVWIN_LIMIT_HI + 0xFFF)
  else none

/-- The die admitted at a site is foreign: no Qorsy C32 (R478). -/
def foreignDie (s : State) (site : Nat) : Bool := !(s.datumField site 4 2 == 1 && s.datumField site 6 2 == 0x0C32)

/-- R477: a SITE page. -/
def badSite (s : State) (site : Nat) : List Nat :=
  let p := pgSITE site
  let die := (s.siteAt site).lastClass
  let allow := match die with
    | some (c, x) => allowSet c x
    | none => [0, 0, 0, 0]
  let dev := match s.qDevwin site with
    | none => []
    | some (b, e) =>
      let others := (List.range 16).any fun o => o != site && (match s.qDevwin o with
        | some (b', e') => b ≤ e' && b' ≤ e
        | none => false)
      if b ≤ e && (die.map (·.1)) == some 2 && isMmio b && isMmio e && !(b < 0xFFF0000000000 && 0xFFEFFFF000000 ≤ e) && !others
      then [] else [Reg.DEVWIN_BASE_LO]
  (if !s.qflag p Fld.BND_CTL_EN && s.admitted site && s.foreignDie site then [Reg.BND_CTL] else []) ++
  (if (List.range 10).all fun k => actionOk (k + 1) (bits (s.qv p Reg.BND_ACT) (2 * k) 2) then [] else [Reg.BND_ACT]) ++ dev ++
  ((List.range 16).filter fun i => s.qflag p (Fld.BND_WIN_BASE_LO_EN i) &&
    decide (s.qAddr p (Reg.BND_WIN_LIMIT_LO i) (Reg.BND_WIN_LIMIT_HI i) < s.qAddr p (Reg.BND_WIN_BASE_LO i) (Reg.BND_WIN_BASE_HI i))).map Reg.BND_WIN_BASE_LO ++
  ((List.range 4).filter fun i => s.qv p (Reg.BND_ALLOW i) ||| nthD allow i 0 != nthD allow i 0).map Reg.BND_ALLOW ++
  ((List.range 4).filter fun m => s.qflag p (Fld.BND_METER_EN m) &&
    (s.qf p (Fld.BND_METER_RATE m) == 0 || s.qf p (Fld.BND_METER_BURST m) == 0)).map Reg.BND_METER

/-- R444: a LNK page. -/
def badLnk (s : State) (p : Nat) : List Nat :=
  if s.qf p Fld.LNK_LCFG_LANE_THR == 0 || s.qf p Fld.LNK_LCFG_CRC_THR == 0 || s.qf p Fld.LNK_LCFG_HB_TO < 2 then [Reg.LNK_LCFG] else []

/-- R258: a HOME page. -/
def badHome (s : State) (h : Nat) : List Nat :=
  let p := pgHOME h
  (if s.qf p Fld.HOME_TRK_CFG_CLASS_RES ≤ 240 then [] else [Reg.HOME_TRK_CFG]) ++
  (if (List.range 4).all fun c => 1 ≤ bits (s.qv p Reg.HOME_TRK_CAP) (8 * c) 8 && bits (s.qv p Reg.HOME_TRK_CAP) (8 * c) 8 ≤ 96
   then [] else [Reg.HOME_TRK_CAP]) ++
  (if s.qf p Fld.HOME_RSV_CFG_LAPSE == 0 then [Reg.HOME_RSV_CFG] else []) ++
  (if s.qf p Fld.HOME_WALK_CFG_INTERVAL == 0 then [Reg.HOME_WALK_CFG] else []) ++
  (if h != 0 then [] else ((List.range 16).filter fun i => (List.range 16).any fun j =>
    !nodeAssigned (16 * i + j) && bits (s.qv p (0x400 + 4 * i)) (2 * j) 2 != 0).map fun i => 0x400 + 4 * i)

/-- R320, R321, R329, R340, R350: HRTH[0]. A range of any mode is kept off the scratch window. -/
def badHrth (s : State) : List Nat :=
  let p := pgHRTH 0
  let lw := s.qf p Fld.HRTH_CTL_LOCK_WAYS
  let lock := (List.range 8).any fun i => s.qf p (Fld.RANGE_BASE_LO_MODE i) == 3
  let lockLive := (List.range 8).any fun i => s.get p (Fld.RANGE_BASE_LO_MODE i) == 3
  let inv := s.flag p Fld.ROP_STAT_BUSY && s.rop.op == 4
  (if 14 - s.scrWays < lw || (lw != s.get p Fld.HRTH_CTL_LOCK_WAYS && (lock || lockLive)) || (lock && lw == 0) ||
     (inv && (s.shadow? p Reg.HRTH_CTL).isSome && s.qflag p Fld.HRTH_CTL_EN) then [Reg.HRTH_CTL] else []) ++
  ((List.range 8).filter fun i =>
    let b := s.qAddr p (Reg.RANGE_BASE_LO i) (Reg.RANGE_BASE_HI i)
    let e := s.qAddr p (Reg.RANGE_LIMIT_LO i) (Reg.RANGE_LIMIT_HI i) + 0xFFF
    isScratch b || isScratch e || (b ≤ scratchBase && scratchBase ≤ e) ||
      (s.qf p (Fld.RANGE_BASE_LO_MODE i) != 0 && !(b ≤ e && ((isNear b && isNear e) || (isFar b && isFar e))))).map Reg.RANGE_BASE_LO

/-- R376: a STK page. -/
def badStk (s : State) (p : Nat) : List Nat :=
  ((List.range 16).filter fun i => s.qflag p (Fld.STK_RET_LO_V i) &&
    (let a := s.qAddr p (Reg.STK_RET_LO i) (Reg.STK_RET_HI i)
     !(isNear a || isFar a))).map Reg.STK_RET_LO

/-- Whether an address pair of registers, with its LOG2, changes. -/
def baseChanges (s : State) (p lo hi : Nat) : Bool :=
  s.qAddr p lo hi != s.pageAddr p lo hi || bits (s.qv p lo) 0 5 != bits (s.reg p lo) 0 5

/-- R521: the IXU page. -/
def badIxu (s : State) : List Nat :=
  let p := pgIXU
  let log := fun (r : Nat) => bits (s.qv p r) 0 5
  let ent := fun i => (s.qflag p (Fld.ATS_STREAM_V i), s.qf p (Fld.ATS_STREAM_STREAM i))
  (if s.qf p Fld.IXU_CTL_MODE == 3 then [Reg.IXU_CTL] else []) ++
  ((List.range 2).filter fun g => decide ((if g == 0 then 16 else 11) < log (Reg.BIND_TAB_LO g)) ||
    !tableOk (s.qAddr p (Reg.BIND_TAB_LO g) (Reg.BIND_TAB_HI g)) (32 * 2 ^ log (Reg.BIND_TAB_LO g))).map Reg.BIND_TAB_LO ++
  (if 4 ≤ log Reg.CQ_BASE_LO && log Reg.CQ_BASE_LO ≤ 16 && tableOk (s.qAddr p Reg.CQ_BASE_LO Reg.CQ_BASE_HI) (16 * 2 ^ log Reg.CQ_BASE_LO) &&
     !(s.baseChanges p Reg.CQ_BASE_LO Reg.CQ_BASE_HI && s.cqHead != s.get p Fld.CQ_TAIL_INDEX && !s.flag p Fld.IXU_STAT_CQ_HALT)
   then [] else [Reg.CQ_BASE_LO]) ++
  (if 4 ≤ log Reg.FQ_BASE_LO && log Reg.FQ_BASE_LO ≤ 16 && tableOk (s.qAddr p Reg.FQ_BASE_LO Reg.FQ_BASE_HI) (32 * 2 ^ log Reg.FQ_BASE_LO)
   then [] else [Reg.FQ_BASE_LO]) ++
  ((List.range 64).filter fun i => (ent i).1 && (decide (0x10000 ≤ (ent i).2) ||
    (List.range 64).any fun j => j != i && ent j == ent i)).map Reg.ATS_STREAM

/-- R574, R611: the NE page. -/
def badNe (s : State) : List Nat :=
  let p := pgNE
  let tab := fun (lo hi a b size : Nat) =>
    let l := bits (s.qv p lo) 0 5
    if a ≤ l && l ≤ b && tableOk (s.qAddr p lo hi) (size * 2 ^ l) then [] else [lo]
  (if s.qf p Fld.NE_CFG_CHAIN_PORT == 0 then [Reg.NE_CFG] else []) ++
  tab Reg.CTX_BASE_LO Reg.CTX_BASE_HI 14 20 256 ++
  (if s.baseChanges p Reg.CTX_BASE_LO Reg.CTX_BASE_HI && (s.ne.ctxs.any fun e => e.2.st != 0) then [Reg.CTX_BASE_LO] else []) ++
  tab Reg.WIN_BASE_LO Reg.WIN_BASE_HI 10 24 32 ++ tab Reg.FLOW_BASE_LO Reg.FLOW_BASE_HI 10 20 256 ++
  (if s.baseChanges p Reg.FLOW_BASE_LO Reg.FLOW_BASE_HI && s.flag p Fld.FLOW_BASE_LO_EN then [Reg.FLOW_BASE_LO] else []) ++
  (if s.qf p Fld.CC_CFG_ALPHA == 0 || s.qf p Fld.CC_CFG_BETA_SHIFT == 0 || 8 < s.qf p Fld.CC_CFG_BETA_SHIFT ||
     s.qf p Fld.CC_CFG_DELAY_TGT == 0 then [Reg.CC_CFG] else []) ++
  (if s.qf p Fld.REL_CFG_RTO_MIN == 0 || s.qf p Fld.REL_CFG_RETRY_MAX == 0 || s.qf p Fld.REL_CFG_RNR_DELAY == 0 then [Reg.REL_CFG] else []) ++
  (if s.qf p Fld.DMA_TO_MS == 0 || 2000 < s.qf p Fld.DMA_TO_MS then [Reg.DMA_TO] else [])

/-- R574: a NEP page. -/
def badNep (s : State) (p : Nat) : List Nat :=
  let mf := s.qf p Fld.PORT_CFG_MAXFRAME
  (if s.qf p Fld.PORT_CFG_MODE == 3 || (s.qf p Fld.PORT_CFG_PFC_EN != 0 && s.qflag p Fld.PORT_CFG_PAUSE_EN) || mf < 1518 || 9216 < mf
   then [Reg.PORT_CFG] else []) ++
  (if s.qf p Fld.PFC_THR_XON ≤ s.qf p Fld.PFC_THR_XOFF then [Reg.PFC_THR] else [])

/-- A far-memory decoder as the quench would leave it: base and size in bytes. -/
def qFmDec (s : State) (n i : Nat) : Option (Nat × Nat) :=
  let p := pgPCIE n
  if s.qflag p (Fld.FM_BASE_LO_EN i) then
    some (s.qf p (Fld.FM_BASE_LO_BASE_LO i) * 2 ^ 28 + s.qf p (Fld.FM_BASE_HI_BASE_HI i) * 2 ^ 32, s.qf p (Fld.FM_SIZE_SIZE i) * 2 ^ 28)
  else none

/-- R392: the decoders of PCIE0 and PCIE1 together. -/
def badPcie (s : State) (n : Nat) : List Nat :=
  ((List.range 4).filter fun i => match s.qFmDec n i with
    | none => false
    | some (b, z) =>
      z == 0 || !(isFar b && isFar (b + z - 1)) || !(portExists s.straps n i && Config.fmPort n i) ||
      (([0, 1].flatMap fun m => (List.range 4).map fun j => (m, j)).any fun o => o != (n, i) && (match s.qFmDec o.1 o.2 with
        | some (b', z') => overlap b z b' z'
        | none => false))).map Reg.FM_BASE_LO

/-- The offsets a page finds invalid (R92). -/
def pageBad (s : State) (p : Nat) : List Nat :=
  let i := pageInst p
  match ((pageRow p).map (·.typ)).getD 0 with
  | 0x02 => s.badPwr
  | 0x04 => s.badTime
  | 0x05 => s.badFb
  | 0x06 => s.badEvt
  | 0x08 => s.badFab p
  | 0x10 => s.badSite i
  | 0x11 => s.badLnk p
  | 0x20 => s.badHome i
  | 0x21 => s.badHrth
  | 0x29 => s.badStk p
  | 0x30 => s.badIxu
  | 0x38 => s.badNe
  | 0x39 => s.badNep p
  | 0x40 => s.badPcie i
  | _ => []

/-! ### Acceptance -/

/-- The pages of the selected groups that hold pending values. -/
def qPages (s : State) (mask : Nat) : List Nat := allPages.filter fun p => s.qSelected p mask && s.pagePending p

/-- The pages that a quench checks: those, and the route tables of all sources (R127). -/
def qChecked (s : State) (mask : Nat) : List Nat :=
  allPages.filter fun p => s.qSelected p mask && (s.pagePending p || (decide (pgFAB 0 ≤ p) && decide (p ≤ pgFAB 5)))

/-- RT_REJ after the check of a route page (R127). -/
def setRtRej (s : State) (p : Nat) : State :=
  match s.badRoute p with
  | none => s.put p Fld.RT_REJ_V 0
  | some (src, dst, r) =>
    (((s.put p Fld.RT_REJ_DST dst).put p Fld.RT_REJ_SRC (src % 32)).put p Fld.RT_REJ_REASON r).put p Fld.RT_REJ_V 1

/-- One page of a selected group checks its pending values and reports (R92, R93). -/
def qCheck (s : State) (p : Nat) : State :=
  match s.pageBad p with
  | [] => s
  | l =>
    let off := l.foldl min 0xFFFF
    let g := (s.qGroup p).getD 0
    let s := { s with quench := { s.quench with rej := setBits s.quench.rej g 1 1 } }
    (s.status p Fld.PAGE_STAT_QREJ srcQrej).record
      { typ := 0x03, cls := 0, source := srcQrej, page := p, words := [off % 0x10000] }

/-- A QUENCH write is accepted (R90, R92): BUSY, DONE, and the checks. -/
def quenchAccept (s : State) (mask : Nat) (cancel : Bool) : State :=
  let s := { s with quench := { s.quench with busy := true, cancel := cancel, applied := false, gmask := mask, rej := 0 } }
  let s := (s.put pgSMITH Fld.QUENCH_STAT_DONE 0).put pgSMITH Fld.QUENCH_STAT_BUSY 1
  if cancel then s
  else
    let s := forAll (List.range 6) (fun k s => if s.qSelected (pgFAB k) mask then s.setRtRej (pgFAB k) else s) s
    (s.qChecked mask).foldl (fun s p => s.qCheck p) s

/-- A write to SMITH.QUENCH (R90, R91); one with GMASK zero while BUSY is 1 sets OVERLAP (log 138). -/
def quenchWrite (s : State) (v : Nat) : State :=
  let mask := v % 0x10000
  if s.quench.busy then s.raise1 pgSMITH Fld.QUENCH_STAT_OVERLAP
  else if mask == 0 then s
  else s.quenchAccept mask (bitN v 31)

/-! ### The apply edge -/

/-- The pending values of the groups of `mask` move to the live registers, or are dropped (R94, R95, R97). -/
def qMove (s : State) (mask : Nat) (live : Bool) : State :=
  let sel := fun p => s.qSelected p mask
  let (mine, rest) := s.shadow.partition fun e => sel (e.1 / 0x10000)
  let (rMine, rRest) := s.routesPend.partition fun e => sel (routePage e.1)
  let (wMine, wRest) := s.weightsPend.partition fun e => sel (weightPage e.1)
  let (bMine, bRest) := s.routeBasePend.partition fun e => sel (pgFAB e.1)
  let t := { s with shadow := rest, routesPend := rRest, weightsPend := wRest, routeBasePend := bRest }
  if !live then t
  else
    let t := mine.foldl (fun (t : State) e =>
      let p := e.1 / 0x10000
      let off := e.1 % 0x10000
      let m := ((findReg p off).map (·.rwqMask)).getD 0
      let old := t.reg p off
      t.setReg p off (old - (old &&& m) + (e.2.toNat &&& m))) t
    let based := fun p => bMine.any fun e => pgFAB e.1 == p
    { t with routeBase := bMine.foldl (fun r e => Tab.putD 0 e.1 e.2 r) t.routeBase
             routes := rMine.foldl (fun r e => Tab.put e.1 e.2 r) (t.routes.filter fun e => !based (routePage e.1))
             weights := wMine.foldl (fun r e => Tab.put e.1 e.2 r) (t.weights.filter fun e => !based (weightPage e.1)) }

/-- A range has lost the lock mode, or has another base or limit than before the edge (R326). -/
def rangesMoved (s old : State) : Bool :=
  let p := pgHRTH 0
  (List.range 8).any fun i =>
    (old.get p (Fld.RANGE_BASE_LO_MODE i) == 3 && s.get p (Fld.RANGE_BASE_LO_MODE i) != 3) ||
    s.rangeBase i != old.rangeBase i || s.rangeLimit i != old.rangeLimit i

/-- The Hearth on the apply edge (R326, R336, R339): HRTH_CTL acts where it was pending; `old` is the state before the edge. -/
def applyHearth (s old : State) : State :=
  let p := pgHRTH 0
  let ctl := (old.shadow? p Reg.HRTH_CTL).isSome
  let s := if !ctl then s
    else if s.flag p Fld.HRTH_CTL_EN then
      let s := { s with hearths := s.hearths.map fun (x : Hearth) => { x with mode := 0 } }
      let s := s.put p Fld.HRTH_GSTAT_MODE 0
      if s.flag p Fld.HRTH_GSTAT_STALE_RISK then
        (s.status p Fld.HRTH_GSTAT_STALE_EN (srcWide 1)).record
          { typ := 0x0A, cls := 3, source := srcWide 1, page := p, sub := 1 }
      else s
    else
      let s := { s with hearths := s.hearths.map fun (x : Hearth) => if x.mode == 0 then { x with mode := 1 } else x }
      if s.get p Fld.HRTH_GSTAT_MODE == 0 then s.put p Fld.HRTH_GSTAT_MODE 1 else s
  if s.rangesMoved old then forAll (List.range 64) (fun h s => s.relock h) s else s

/-- The IXU on the apply edge (R514, R516, R521); `old` is the state before it. -/
def applyIxu (s old : State) : State :=
  let s := if old.baseChanges pgIXU Reg.CQ_BASE_LO Reg.CQ_BASE_HI then
      (s.put pgIXU Fld.CQ_HEAD_INDEX 0).put pgIXU Fld.CQ_TAIL_INDEX 0 else s
  let s := if old.baseChanges pgIXU Reg.FQ_BASE_LO Reg.FQ_BASE_HI then
      ((s.put pgIXU Fld.FQ_HEAD_INDEX 0).put pgIXU Fld.FQ_TAIL_INDEX 0).fqNe else s
  let again := (List.range 64).filterMap fun i =>
    if (old.shadow? pgIXU (Reg.ATS_STREAM i)).isSome && s.flag pgIXU (Fld.ATS_STREAM_V i) then some (s.get pgIXU (Fld.ATS_STREAM_STREAM i)) else none
  let s := s.modIxu fun x => { x with blocked := x.blocked.filter fun b => !again.contains b }
  if s.ixuMode != old.ixuMode then s.ixuModeApplied.afterDma else s

/-- Boundary's meters on the apply edge (R472): tokens accrued so far are settled at the old rate. -/
def applyMeters (s old : State) (site : Nat) : State :=
  forAll (List.range 4) (fun m s =>
    let t := min (old.tokensNow site m) (1000 * s.get (pgSITE site) (Fld.BND_METER_BURST m))
    let s := s.modSite site fun x => { x with tokens := modOf 4 (0, 0) x.tokens m fun _ => (t, s.time) }
    if s.flag (pgSITE site) (Fld.BND_METER_EN m) && !old.flag (pgSITE site) (Fld.BND_METER_EN m) then s.meterFill site m else s) s

/-- The power loop on the apply edge (R639): FCEIL is clamped to a lowered FCAP. -/
def applyPwr (s : State) : State :=
  let fc := s.get pgPWR Fld.PWR_LIMIT_FCAP
  (if fc < s.get pgPWR Fld.LOOP_STAT_FCEIL then s.put pgPWR Fld.LOOP_STAT_FCEIL fc else s).pwrSendAll

/-- The Field Book on the apply edge (R710). -/
def applyFb (s old : State) : State :=
  let s := if (old.shadow? pgFB Reg.FB_CTL).isSome && s.flag pgFB Fld.FB_CTL_DMA then s.modBook fun b => { b with halt := false } else s
  if old.baseChanges pgFB Reg.FB_RING_BASE_LO Reg.FB_RING_BASE_HI then
    ((s.put pgFB Fld.FB_RING_HEAD_INDEX 0).put pgFB Fld.FB_RING_TAIL_INDEX 0).modBook fun b => { b with phase := true }
  else s

/-- The network ports on the apply edge (R526, R546). -/
def applyPort (s old : State) (n : Nat) : State :=
  let p := pgNEP n
  if s.get p Fld.PORT_CFG_MODE != old.get p Fld.PORT_CFG_MODE then ((s.portModeApplied n).optRefresh (n / 2)).afterDma
  else if s.reg p Reg.PFC_THR != old.reg p Reg.PFC_THR || s.reg p Reg.PORT_CFG != old.reg p Reg.PORT_CFG then s.pfcUpdate n
  else s

/-- What the new live values do at once in their blocks; `old` is the state before the edge. -/
def applyEffects (s old : State) (mask : Nat) : State :=
  let had := fun p => old.qSelected p mask && old.pagePending p
  let s := if had (pgHRTH 0) then s.applyHearth old else s
  let s := forAll (List.range 16) (fun i s => if had (pgSITE i) then s.applyMeters old i else s) s
  let s := if had pgPWR then s.applyPwr else s
  let s := if had pgFB then s.applyFb old else s
  let s := forAll (List.range 4) (fun n s => if had (pgNEP n) then s.applyPort old n else s) s
  if had pgIXU then s.applyIxu old else s

/-- The apply edge of the quench in progress, or for a cancel the discard (R94, R97). -/
def quenchApply (s : State) : State :=
  let q := s.quench
  if !q.busy || q.applied then s
  else
    let mask := q.gmask - (q.gmask &&& q.rej)
    let t := s.qMove (if q.cancel then q.gmask else mask) (!q.cancel)
    let t := { t with quench := { t.quench with applied := true } }
    if q.cancel then t else t.applyEffects s mask

/-! ### Shadow writes -/

/-- Bytes of a write: byte `i` of `new` replaces `old`'s where `lanes` bit `i` is set. -/
def laneMerge (old new lanes : Nat) : Nat :=
  (List.range 4).foldl (fun v i => if bitN lanes i then setBits v (8 * i) 8 (bits new (8 * i) 8) else v) old

/-- A write to the RWQ bits of a register lands in its shadow (R84, R86): bits that `m` selects take their value from `v`. -/
def shadowPut (s : State) (p off m v : Nat) : State :=
  let old := s.shadowOrLive p off
  s.setShadow p off (old - (old &&& m) + (v &&& m))

/-- A write to a half of the route entry a selection names (R146); `sel` is RT_SEL as captured; `hi`: RT_ENTRY_HI. -/
def routePut (s : State) (p sel : Nat) (hi : Bool) (m v : Nat) : State :=
  let src := 32 * (p - pgFAB 0) + bits sel 8 5
  let dst := bits sel 0 8
  let old := s.routeProp src dst
  let lo := if hi then 32 else 0
  let w := if hi then 9 else 32
  let cur := bits old lo w
  let m := m % 2 ^ w
  { s with routesPend := Tab.put (routeKey src dst) (setBits old lo w (cur - (cur &&& m) + (v &&& m))) s.routesPend }

/-- A write to a class or weight word of the router a selection names (R146); word 0 RTR_CLASS, 1 and 2 RTR_WEIGHT. Numbers 48 to
63 of RTR_SEL are reserved. -/
def weightPut (s : State) (p sel word m v : Nat) : State :=
  let r := 48 * (p - pgFAB 6) + bits sel 0 6
  if 48 ≤ bits sel 0 6 then s
  else
    let old := s.weightProp r word
    let m := m % 2 ^ (if word == 0 then 30 else if word == 1 then 32 else 28)
    { s with weightsPend := Tab.put (weightKey r word) (old - (old &&& m) + (v &&& m)) s.weightsPend }

/-- Which windowed register a FAB page has at an offset (R146): 0 and 1 the halves of a route entry, 2 to 4 class and weights. -/
def fabWindow (p off : Nat) : Option Nat :=
  if pgFAB 0 ≤ p && p ≤ pgFAB 5 then if off == Reg.RT_ENTRY_LO then some 0 else if off == Reg.RT_ENTRY_HI then some 1 else none
  else if p == pgFAB 6 || p == pgFAB 7 then
    if off == Reg.RTR_CLASS then some 2 else if off == Reg.RTR_WEIGHT_LO then some 3 else if off == Reg.RTR_WEIGHT_HI then some 4 else none
  else none

/-- A write to an RWQ register whose selection was captured as `sel` lands in the shadow (R86, R146). -/
def shadowLand (s : State) (p off m v sel : Nat) : State :=
  match fabWindow p off with
  | some 0 => s.routePut p sel false m v
  | some 1 => s.routePut p sel true m v
  | some k => s.weightPut p sel (k - 2) m v
  | none =>
    let rwq := ((findReg p off).map (·.rwqMask)).getD 0
    if rwq == 0 || s.pageOff p then s else s.shadowPut p off (m &&& rwq) v

/-- A write to an RWQ register: held while a quench of its group is busy (R99), otherwise it lands in the shadow. `m` selects the
bits written. -/
def shadowWrite (s : State) (p off m v : Nat) : State :=
  let sel := match fabWindow p off with
    | some k => if k < 2 then s.reg p Reg.RT_SEL else s.reg p Reg.RTR_SEL
    | none => 0
  if s.qHolds p then
    { s with quench := { s.quench with held := s.quench.held ++ [{ page := p, off := off, data := v, lanes := m, sel := sel }] } }
  else s.shadowLand p off m v sel

/-- Smith firmware's values of a route set land in a FAB page (R671): every route, or every class and weight word, of the page. -/
def routeSetLand (s : State) (p set : Nat) : State :=
  { s with routesPend := s.routesPend.filter fun e => routePage e.1 != p
           weightsPend := s.weightsPend.filter fun e => weightPage e.1 != p
           routeBasePend := Tab.put (p - pgFAB 0) set s.routeBasePend }

/-- Those writes, held while a quench of the page's group is busy (R99). -/
def routeSetWrite (s : State) (p set : Nat) : State :=
  if s.qHolds p then
    { s with quench := { s.quench with held := s.quench.held ++ [{ page := p, off := 0, data := 0, lanes := 0, sel := 0, set := some set }] } }
  else s.routeSetLand p set

/-- A held write is released (R99). -/
def releaseHeld (s : State) (w : HeldWrite) : State :=
  match w.set with
  | some k => s.routeSetLand w.page k
  | none => s.shadowLand w.page w.off w.lanes w.data w.sel

/-- The quench completes (R98): REJ, DONE, SEQ, the event, and the writes held are released in order of arrival (R99). -/
def quenchDone (s : State) : State :=
  let q := s.quench
  if !q.busy || !q.applied then s
  else
    let s := (s.put pgSMITH Fld.QUENCH_STAT_REJ (if q.cancel then 0 else q.rej)).put pgSMITH Fld.QUENCH_STAT_BUSY 0
    let s := ((s.put pgSMITH Fld.QUENCH_STAT_DONE 1).bumpMod pgSMITH Fld.QUENCH_STAT_SEQ).fire srcQuenchDone
    let s := { s with quench := { s.quench with busy := false, held := [] } }
    q.held.foldl (fun s w => s.releaseHeld w) s

/-- Discard every pending value of a page (R66, R89). -/
def dropPending (s : State) (p : Nat) : State :=
  { s with shadow := s.shadow.filter fun e => e.1 / 0x10000 != p
           routesPend := s.routesPend.filter fun e => routePage e.1 != p
           weightsPend := s.weightsPend.filter fun e => weightPage e.1 != p
           routeBasePend := s.routeBasePend.filter fun e => pgFAB e.1 != p }

end State

/-- The bits of a register that a reset other than cold keeps: RWS fields (R69). -/
def RegDef.rwsMask (r : RegDef) : Nat :=
  r.fields.foldl (fun a f => if f.rws then a + (2 ^ (f.hi + 1 - f.lo) - 1) * 2 ^ f.lo else a) 0

namespace State

/-- A register takes its reset value, but for the bits of `keep`. -/
def resetReg (s : State) (p off keep : Nat) : State :=
  let r := regReset p off
  s.setReg p off (r - (r &&& keep) + (s.reg p off &&& keep))

/-- Registers of a page take their reset values (R67, R75): with its header (`hdr`) or from 0x0100; RWS fields keep theirs. `keep`
selects offsets that keep their values whole. -/
def resetPage (s : State) (p : Nat) (hdr : Bool) (keep : Nat → Bool) : State :=
  let offs := (s.regs.filter fun e => e.1 / 0x10000 == p).map fun e => e.1 % 0x10000
  offs.foldl (fun s off =>
    if keep off || (!hdr && off < 0x100) then s
    else s.resetReg p off (((findReg p off).map RegDef.rwsMask).getD 0)) s

end State

/-- QUENCH (R92): a write to SMITH.QUENCH with CANCEL = 0. -/
def execQuench (gmask : Nat) (s : State) : Host.Outcome State Fault Refusal := s.act (·.quenchWrite (gmask % 0x10000))

/-- QUENCH_CANCEL (R97): a write to SMITH.QUENCH with CANCEL = 1. -/
def execQuenchCancel (gmask : Nat) (s : State) : Host.Outcome State Fault Refusal := s.act (·.quenchWrite (gmask % 0x10000 + 2 ^ 31))

/-- QUENCH_APPLY (R94): the apply edge. -/
def execQuenchApply (s : State) : Host.Outcome State Fault Refusal := s.act (·.quenchApply)

/-- QUENCH_DONE (R98): completion. -/
def execQuenchDone (s : State) : Host.Outcome State Fault Refusal := s.act (·.quenchDone)

end Sys2Proof.Machine
end

