-- ==== Sys2Proof/Machine/Traverse.lean ====
section
/-! DEFINITION. Traverse (R445 to R460): the Datum block's checks, the identity exchange at both ends, admission with the site's
Boundary configuration, and what follows the last Traverse of a start-up (R655 to R657). -/

namespace Sys2Proof.Machine

/-- Results of R456 that the model names. -/
def trAdmitted : Nat := 1
def trNoResponse : Nat := 2
def trDatum : Nat := 3
def trChallenge : Nat := 10
def trNeg : Nat := 11
def trPowerUp : Nat := 12
def trLink : Nat := 13
def trBoundary : Nat := 14

/-- A little-endian field of the Datum block (R449). -/
def datumAt (b : List Nat) (off n : Nat) : Nat := leAt (b.map fun x => BitVec.ofNat 8 x) off n

/-- Capabilities offered to a class (R448). -/
def capsOf (cls : Nat) : Nat := if cls == 0 then 0xF else 0xC

/-- FORMAT, LENGTH, reserved bytes and the plain ranges of a Datum block (result DATUM, R456). -/
def datumFormOk (b : List Nat) : Bool :=
  let f := datumAt b
  b.length == 512 && f 0 2 == 1 && f 2 2 == 512 && f 27 1 == 0 && f 34 6 == 0 && f 48 16 == 0 && f 448 60 == 0 &&
  f 508 4 == crc32 ((b.take 508).map fun x => BitVec.ofNat 8 x) && f 9 1 ≤ 2 && f 4 2 != 0 && f 4 2 != 0xFFFF && f 10 1 != 0 &&
  f 10 1 ≤ f 11 1 && ((f 9 1 == 0) == (f 20 4 != 0)) && 1 ≤ f 24 2 && f 24 2 ≤ 2048

/-- The level of R447: the lower of the die's highest and 2. -/
def levelOf (b : List Nat) : Nat := min (datumAt b 11 1) 2

/-- A Qorsy C32 by its Datum block. -/
def datumQorsy (b : List Nat) : Bool := datumAt b 4 2 == 1 && datumAt b 6 2 == 0x0C32

/-- The default actions of R476 for a Qorsy C32. -/
def qorsyActions : Nat := 2 + 2 * 4 + 1 * 16 + 1 * 64 + 2 * 2 ^ 16 + 2 * 2 ^ 18

/-- The factory record of profile `n` (R46, R47, R476). -/
def factoryProf (n : Nat) : Prof :=
  let meter := fun (r b : Nat) => r + b * 2 ^ 16 + 2 ^ 31
  { plimit := nthD [700, 850, 1000, 1100] n 0, fcap := nthD [2400, 2800, 3200, 3400] n 0, floor := 1200, hash := b2n (n == 0), scr := 0,
    votes := maskOf [42, 43, 44, 45, 46, 47, 48, 49], classOk := [6, 6, 6, 6]
    act := 2 + 2 * 4 + 1 * 16 + 1 * 64 + 1 * 256 + 2 * 2 ^ 16 + 2 * 2 ^ 18
    meters := [meter 600 512, meter 20 8, meter 200 128, meter 50 32] }

namespace State

/-- A stored profile: from flash, or the factory record where neither copy is good (R653). -/
def profOf (s : State) (n : Nat) : Prof :=
  if bitN s.flash.bad n && bitN s.flash.bad (4 + n) then factoryProf n else Tab.getD n (factoryProf n) s.flash.prof

/-- The profile as loaded at the last reset (R49). -/
def profNow (s : State) : Prof := s.smith.boot.getD (factoryProf 0)

def populated (s : State) (site : Nat) : Bool := bitN s.pop site

/-- The checks of step 3 in the order of R456; `registered`: VENDOR is registered, which the registry knows. -/
def datumCheck (s : State) (site : Nat) (b : List Nat) (registered : Bool) : Nat :=
  let f := datumAt b
  let part := fun (off n : Nat) => ((b.drop off).take n).map fun x => BitVec.ofNat 8 x
  let cls := f 9 1
  let placed := if site < 12 || s.part != 2 then datumQorsy b
    else bitN (s.get (pgSITE site) Fld.BND_CTL_CLASS_OK) cls
  let dev := f 32 2
  if !datumFormOk b then trDatum
  else if !registered || s.trust.revoked (f 4 2) (part 160 96) (part 40 8) then 4
  else if !certsOk (s.trust.root.map (·.toNat)) b then 5
  else if !placed then 6
  else if levelOf b < f 10 1 || (cls == 0 && levelOf b < 2) then 7
  else if 32 < f 26 1 then 8
  else if f 30 2 == 0 || 28 < f 30 2 || (if cls == 2 then dev == 0 || 1000 < dev else dev != 0) then 9
  else trAdmitted

/-! ### The end of a start-up (R655 to R657) -/

/-- START to an admitted Qorsy C32 (R657). -/
def bootStart (s : State) (site pa : Nat) : State :=
  match s.lowActive site with
  | some m => s.lmSend site m .hub 0x63 [pa]
  | none => s

/-- A write of bytes by Smith firmware at start-up: memory and poison marks of their lines. -/
def loadImage (s : State) (pa : Nat) (l : List Byte) : State :=
  if l.isEmpty then s
  else { s with mem := { s.mem with
    cells := Memory.writeBytes s.mem.cells pa (fun i => l.getD i 0) l.length
    marks := s.mem.marks.filter fun k => !(pa / 64 ≤ k && k ≤ (pa + l.length - 1) / 64) } }

/-- Every Traverse of the start-up has ended: the host image is copied, the Plat is READY and START goes to the boot site. -/
def startupAdvance (s : State) : State :=
  if !s.smith.startup || s.sites.any fun x => x.trav.isSome then s
  else
    let s := { s with smith := { s.smith with startup := false } }
    let s := s.loadImage s.flash.load s.flash.image
    match (List.range 16).find? fun i => s.admitted i && !s.foreignDie i with
    | some i => s.bootStart i s.flash.load
    | none =>
      let s := { s with alert := { s.alert with noBootSite := true } }
      s.record { typ := 0x13, cls := 3, source := srcSmithRecord, page := pgSMITH, sub := 2, fires := true }

/-! ### Ends of a Traverse -/

/-- TRAV_RESULT and the capability map (R479); each Traverse advances SEQ. -/
def travResult (s : State) (site result cls level cores caps : Nat) : State :=
  let p := pgSITE site
  let s := ((s.put p Fld.TRAV_RESULT_RESULT result).put p Fld.TRAV_RESULT_CLASS cls).put p Fld.TRAV_RESULT_LEVEL level
  let s := (s.put p Fld.TRAV_RESULT_CORES cores).bumpMod p Fld.TRAV_RESULT_SEQ
  (s.put p Fld.TRAV_CAP_LO_CAP (caps % 2 ^ 32)).put p Fld.TRAV_CAP_HI_CAP (caps / 2 ^ 32)

/-- Traverse ends with a result other than ADMITTED (R457). -/
def travFail (s : State) (site result : Nat) : State :=
  match (s.siteAt site).trav with
  | none => s
  | some t =>
    let s := s.modSite site fun x => { x with trav := none, pub := 2 }
    let s := [0, 1, 2, 3].foldl (fun s m => s.disableModule site m) s
    let s := if 3 ≤ t.step && t.step ≤ 8 && result != trNoResponse then s.lmSend site t.m .hub 0x04 [result] else s
    let s := s.setSlot site 0 false
    let read := t.bytes.length == 512
    let s := s.travResult site result (if read then datumAt t.bytes 9 1 else 0) 0 0 0
    let s := s.record
      { typ := 0x0D, cls := 3, source := srcSITE site 3, page := pgSITE site, sub := result, fires := true
        words := if read then [datumAt t.bytes 4 2 + datumAt t.bytes 6 2 * 2 ^ 16, datumAt t.bytes 40 4, datumAt t.bytes 44 4] else [] }
    let s := if s.smith.op == some 0x11 && s.smith.site == site then s.mbEnd 6 result else s
    s.startupAdvance

/-- The site's domain is ON (step 2): module 0, or the next that has not retired, leaves RESET. -/
def travPowered (s : State) (site : Nat) : State :=
  match (s.siteAt site).trav with
  | none => s
  | some t =>
    if t.step == 1 && s.domOn site then
      (s.modTrav site fun t => { t with step := 2, m := 0, sent := s.time }).enableModule site 0
    else s

/-- Containment of a site has ended in every slice (R251). -/
def walkClear (s : State) (site : Nat) : Bool :=
  (List.range 64).all fun h => !bitN (s.get (pgHOME h) Fld.HOME_LOSS_STAT_WALK_MASK) site

/-- The site reset of SITE_OFFLINE followed by SITE_ONLINE (R647): its modules return to RESET, LNK[s] takes its reset values but for RWS
fields, its header included (log 160, DEDUCED), and its pending values are discarded (R89). The die starts anew when Traverse starts. -/
def siteReset (s : State) (site : Nat) : State :=
  let s := [0, 1, 2, 3].foldl (fun s m => s.disableModule site m) s
  (s.resetPage (pgLNK site) true (fun _ => false)).dropPending (pgLNK site)

/-- Smith firmware starts Traverse of a site (R452, R454). -/
def travStart (s : State) (site : Nat) : State :=
  if 16 ≤ site || !s.populated site || (s.siteAt site).trav.isSome || s.admitted site || !s.fenced site || !s.walkClear site then s
  else
    let s := [0, 1, 2, 3].foldl (fun s m => s.disableModule site m) s
    let s := s.modDie site fun _ => {}
    let s := s.modSite site fun x => { x with trav := some { step := 1, sent := s.time } }
    (s.setSlot site 0 true).travPowered site

/-- A module's training has failed or ended: the exchange moves to the next module, or the site has no link (R454, R456). -/
def travTrain (s : State) (site : Nat) : State :=
  match (s.siteAt site).trav with
  | none => s
  | some t =>
    if 2 ≤ t.step && t.step ≤ 8 && (s.lk site t.m .hub).st == 7 then
      if t.m < 3 then (s.modTrav site fun t => { t with step := 2, m := t.m + 1, chunk := 0, bytes := [] }).enableModule site (t.m + 1)
      else s.travFail site trNoResponse
    else if t.step == 9 && [0, 1, 2, 3].all fun m => (s.lk site m .hub).st == 7 then s.travFail site trLink
    else s

/-- Every module has reached ACTIVE or IDLE, or has retired, and one is up (step 7). -/
def travTrained (s : State) (site : Nat) : Bool :=
  ([0, 1, 2, 3].all fun m => isUp (s.lk site m .hub).st || (s.lk site m .hub).st == 7) &&
  [0, 1, 2, 3].any fun m => isUp (s.lk site m .hub).st

/-! ### Admission (R460, R471, R476) -/

/-- Smith firmware runs a quench, or a cancel, to its end: the groups rejected. -/
def smithQuench (s : State) (mask : Nat) (cancel : Bool) : Nat × State :=
  let s := ((s.quenchAccept mask cancel).quenchApply).quenchDone
  (s.get pgSMITH Fld.QUENCH_STAT_REJ, s)

/-- Any page of the groups holds a pending value (R460, R665). -/
def groupPending (s : State) (mask : Nat) : Bool := !(s.qPages mask).isEmpty

/-- Smith firmware cancels pending values of groups and says so (SMITH record, subtype 3). -/
def smithCancel (s : State) (mask : Nat) : State :=
  if s.groupPending mask then
    (s.smithQuench mask true).2.record
      { typ := 0x13, cls := 0, source := srcSmithRecord, page := pgSMITH, sub := 3, words := [mask] }
  else s

/-- Write the shadows of a site's Boundary defaults (R471, R476): a Qorsy C32's, or the profile's for a foreign die. -/
def loadBoundary (s : State) (site cls : Nat) (qorsy xlat : Bool) : State :=
  let p := pgSITE site
  let pr := s.profNow
  let w := fun (s : State) (off v : Nat) => s.shadowPut p off 0xFFFFFFFF v
  let s := w (w (w s Reg.BND_CTL 1) Reg.BND_ACT (if qorsy then qorsyActions else pr.act)) Reg.DEVWIN_BASE_LO 0
  let s := (List.range 16).foldl (fun s i =>
    let on := qorsy && i == 0
    w (w (w (w s (Reg.BND_WIN_BASE_LO i) (if on then 0xF else 0)) (Reg.BND_WIN_BASE_HI i) 0)
      (Reg.BND_WIN_LIMIT_LO i) (if on then 0xFFFFF000 else 0)) (Reg.BND_WIN_LIMIT_HI i) (if on then 0xFFFFF else 0)) s
  let s := (List.range 4).foldl (fun s i => w s (Reg.BND_METER i) (if qorsy then 0 else nthD pr.meters i 0)) s
  (List.range 4).foldl (fun s i => w s (Reg.BND_ALLOW i) (nthD (allowSet cls xlat) i 0)) s

/-- The attempts of R460 at a quench of the site's group. -/
def boundaryApply (s : State) (site mask cls : Nat) (fresh qorsy xlat : Bool) : Nat → Bool × State
  | 0 => (false, s)
  | n + 1 =>
    let s := if fresh then s.loadBoundary site cls qorsy xlat else s
    let (rej, s) := s.smithQuench mask false
    if rej &&& mask == 0 then (true, s) else boundaryApply (s.smithQuench mask true).2 site mask cls fresh qorsy xlat n

/-- Step 8: the site's Boundary configuration is applied and the fence lifted (R460, R471, R472), or the result is BOUNDARY. -/
def travAdmit (s : State) (site : Nat) : State :=
  match (s.siteAt site).trav with
  | none => s
  | some t =>
    if t.step != 9 || !s.travTrained site || s.quench.busy || !s.smith.running then s
    else
      let b := t.bytes
      let cls := datumAt b 9 1
      let xlat := cls == 0 && bitN t.caps 1
      let ident := (datumAt b 4 2, datumAt b 6 2, datumAt b 40 8)
      let old := (s.siteAt site).lastClass
      let fresh := (s.siteAt site).lastDie != some ident
      let mask := 2 ^ (s.qGroup (pgSITE site)).getD 2
      let s := (s.smithCancel mask).modSite site fun x => { x with lastClass := some (cls, xlat) }
      let (ok, s) := s.boundaryApply site mask cls fresh (datumQorsy b) xlat 3
      if !ok then (s.modSite site fun x => { x with lastClass := old }).travFail site trBoundary
      else
        let p := pgSITE site
        let s := s.modSite site fun x =>
          { x with trav := none, pub := 1, lastDie := some ident, outReq := [], dev := [], snoops := [], intrSeq := 0 }
        let s := (s.put p Fld.SITE_STAT_ADMITTED 1).put p Fld.SITE_STAT_FENCED 0
        let s := (List.range 4).foldl (fun s m => s.meterFill site m) s
        let s := (s.put p Fld.BND_OUT_MAX (datumAt b 24 2)).outUpd site
        let s := s.travResult site trAdmitted cls t.level (min (datumAt b 26 1) 32) t.caps
        let s := (s.fire (srcSITE site 3)).pwrSend site
        let s := s.timeSync site
        let s := if s.smith.op == some 0x11 && s.smith.site == site then
            (if s.smith.startPa != 0 && datumQorsy b then s.bootStart site s.smith.startPa else s).mbEnd 0
          else s
        s.startupAdvance

/-! ### The identity exchange at the hub -/

/-- The hub waits for an answer of step `k` on this module. -/
def travAt (s : State) (site m k : Nat) : Bool :=
  match (s.siteAt site).trav with
  | some t => t.step == k && t.m == m && (s.lk site m .hub).st == 1
  | none => false

/-- The hub sends the message of the next step once its check is done (R455). -/
def travSend (s : State) (site m step code : Nat) (args : List Nat) : State :=
  (s.lmSend site m .hub code args).modTrav site fun t => { t with step := step, sent := s.time }

/-- The block of a Traverse in progress. -/
def travBytes (s : State) (site : Nat) : List Nat := ((s.siteAt site).trav.map (·.bytes)).getD []

/-- The words of DATUM after step 3 (R479). -/
def setDatum (s : State) (site : Nat) (b : List Nat) : State :=
  (List.range 128).foldl (fun s i => s.setReg (pgSITE site) (Reg.DATUM i) (datumAt b (4 * i) 4)) s

/-- A frame of the identity exchange reaches a side: in SURVEY `f` takes it, in a later state the side goes back to SURVEY (R420). -/
def surveyFrame (s : State) (site m : Nat) (e : LinkEnd) (code : Nat) (args : List Nat) (w : List (List Nat))
    (f : List Nat → State → State) : State :=
  s.lmWhen site m e [1, 2, 3, 4, 5, 6] code args w fun a s =>
    if (s.lk site m e).st == 1 then f a s else s.surveySeen site m e

/-- The hub takes the answer of step `k` on the module that carries the exchange (R455). -/
def hubSurvey (s : State) (site m k code : Nat) (args : List Nat) (w : List (List Nat)) (f : List Nat → State → State) : State :=
  s.surveyFrame site m .hub code args w fun a s => if s.travAt site m k then f a s else s

/-- A Datum chunk arrives (R453, R456): chunk number and bytes. -/
def datumData (s : State) (site m : Nat) (a : List Nat) (registered : Bool) : State :=
  if nthD a 0 0 != ((s.siteAt site).trav.map (·.chunk)).getD 0 || a.length != 129 then s.travFail site trDatum
  else
    let c := nthD a 0 0
    let s := s.modTrav site fun t => { t with bytes := t.bytes ++ a.drop 1, chunk := t.chunk + 1 }
    if c < 3 then s.travSend site m 3 0x08 [c + 1]
    else
      let r := s.datumCheck site (s.travBytes site) registered
      if r != trAdmitted then s.travFail site r
      else
        let (n, s) := s.drawNonce
        ((s.setDatum site (s.travBytes site)).modTrav site fun t => { t with nonce := n }).travSend site m 4 0x0A [n]

/-- The signature that a CHAL_RSP carries verifies under DIE_KEY over the nonce, the site number and SERIAL (R453, R456). -/
def chalOk (s : State) (site sig : Nat) : Bool :=
  let b := s.travBytes site
  let nonce := ((s.siteAt site).trav.map (·.nonce)).getD 0
  let le := fun (v n : Nat) => (bytesOf v n).map (·.toNat)
  ecdsaOk ((b.drop 64).take 96) (le sig 96) (le nonce 48 ++ [site] ++ (b.drop 40).take 8)

/-- CHAL_RSP arrives: ASSIGN follows (R456, R459). -/
def chalRsp (s : State) (site m sig : Nat) : State :=
  if !s.chalOk site sig then s.travFail site trChallenge
  else s.travSend site m 5 0x0C [site, 4 * site, 32 * site, min (datumAt (s.travBytes site) 26 1) 32]

/-- ASSIGN_ACK arrives: the hub offers levels and capabilities (R458). -/
def assignAck (s : State) (site m : Nat) (args : List Nat) : State :=
  let b := s.travBytes site
  if args != [site, 4 * site, 32 * site, min (datumAt b 26 1) 32] then s.travFail site trNeg
  else s.travSend site m 6 0x0E [2, 1, capsOf (datumAt b 9 1) &&& datumAt b 12 8]

/-- NEG_ANSWER arrives: the level of R447 and a subset of the offer are committed (R458). -/
def negAnswer (s : State) (site m level caps : Nat) : State :=
  let b := s.travBytes site
  let offer := capsOf (datumAt b 9 1) &&& datumAt b 12 8
  if level != levelOf b || caps ||| offer != offer then s.travFail site trNeg
  else (s.modTrav site fun t => { t with level := level, caps := caps }).travSend site m 7 0x03 [level, caps]

/-- The die's echo of NEG_COMMIT arrives: the exchange has ended and SURVEY_DONE may be sent (R421, R458). -/
def negEcho (s : State) (site m level caps : Nat) : State :=
  match (s.siteAt site).trav with
  | none => s
  | some t =>
    if level != t.level || caps != t.caps then s.travFail site trNeg
    else
      let s := s.modTrav site fun t => { t with step := 8 }
      (((s.surveyAdvance site m .hub).surveyAdvance site m .die).travSurveyed site m)

/-- A chunk of the Datum block of a die: the one it has presented since its supplies came up, else `data` (R451). -/
def datumChunk (s : State) (site c : Nat) (data : List Byte) : List Byte :=
  (Tab.get? c (s.dieAt site).datum).getD ((data ++ List.replicate 128 0).take 128)

/-- The fields of the partner's oldest frame of a code; none where it has sent none. -/
def oldArgs (s : State) (site m : Nat) (e : LinkEnd) (code : Nat) : List Nat :=
  (((s.lk site m e.other).outbox.find? (·.lm.code == code)).map (·.lm.args)).getD []

/-- A bound of R455 has passed by more than 5 us, or the rise time of the site's domain (R456, step 1). -/
def travTimeout (s : State) (site : Nat) : State :=
  match (s.siteAt site).trav with
  | none => s
  | some t =>
    let past := fun n => t.sent + n < s.time
    match t.step with
    | 1 => if past (riseTime site) && !s.domOn site then s.travFail site trPowerUp else s
    | 3 => if past 25000 then s.travFail site trDatum else s
    | 4 => if past 305000 then s.travFail site trChallenge else s
    | 5 => if past 25000 then s.travFail site trNeg else s
    | 6 => if past 25000 then s.travFail site trNeg else s
    | 7 => if past 25000 then s.travFail site trNeg else s
    | 9 => if past 5000000 && !([0, 1, 2, 3].any fun m => isUp (s.lk site m .hub).st) then s.travFail site trLink else s
    | _ => s

end State

/-- TRAVERSE (R454). -/
def execTraverse (site : Nat) (s : State) : Host.Outcome State Fault Refusal :=
  s.act fun s => if s.smith.running then s.travStart site else s

/-- DATUM_REQ (R451, R453): the die answers with chunk `c` of its Datum block; `data` are its 128 bytes where it presents it for the first
time. -/
def execDatumReq (site m c : Nat) (data : List Byte) (w : List (List Nat)) (s : State) : Host.Outcome State Fault Refusal :=
  s.actDom (·.surveyFrame site m .die 0x08 [c] w fun a s =>
    let c := nthD a 0 0
    let b := s.datumChunk site c data
    (s.modDie site fun d => { d with datum := Tab.put c b d.datum }).lmSend site m .die 0x09 (c :: b.map (·.toNat)))

/-- DATUM_DATA (R456): `registered` says whether VENDOR is registered. -/
def execDatumData (site m c : Nat) (data : List Byte) (registered : Bool) (w : List (List Nat))
    (s : State) : Host.Outcome State Fault Refusal :=
  s.actDom (·.hubSurvey site m 3 0x09 (c :: data.map (·.toNat)) w fun a s => s.datumData site m a registered)

/-- TRAV_FENCE (R453): the die receives its result. -/
def execTravFence (site m result : Nat) (w : List (List Nat)) (s : State) : Host.Outcome State Fault Refusal :=
  s.actDom (·.lmIn site m .die 0x04 [result] w fun a s => s.modDie site fun d => { d with refused := some (nthD a 0 0) })

/-- CHAL (R453): the die signs the nonce, the site number and its SERIAL; `sig` is that signature. -/
def execChal (site m sig : Nat) (w : List (List Nat)) (s : State) : Host.Outcome State Fault Refusal :=
  s.actDom fun s => s.surveyFrame site m .die 0x0A (s.oldArgs site m .die 0x0A) w fun _ s => s.lmSend site m .die 0x0B [sig % 2 ^ 768]

/-- CHAL_RSP (R456). -/
def execChalRsp (site m sig : Nat) (w : List (List Nat)) (s : State) : Host.Outcome State Fault Refusal :=
  s.actDom (·.hubSurvey site m 4 0x0B [sig % 2 ^ 768] w fun a s => s.chalRsp site m (nthD a 0 0))

/-- ASSIGN (R459): the die takes its node IDs and core numbers and echoes them. -/
def execAssign (site m no node core cores : Nat) (w : List (List Nat)) (s : State) : Host.Outcome State Fault Refusal :=
  s.actDom (·.surveyFrame site m .die 0x0C [no, node, core, cores] w fun a s =>
    (s.modDie site fun d => { d with site := nthD a 0 0, node := nthD a 1 0, coreBase := nthD a 2 0, cores := nthD a 3 0 }).lmSend
      site m .die 0x0D a)

/-- ASSIGN_ACK (R456). -/
def execAssignAck (site m : Nat) (args : List Nat) (w : List (List Nat)) (s : State) : Host.Outcome State Fault Refusal :=
  s.actDom (·.hubSurvey site m 5 0x0D args w fun a s => s.assignAck site m a)

/-- NEG_OFFER (R458): the die answers the offer with a level and capabilities of its choice. -/
def execNegOffer (site m level caps : Nat) (w : List (List Nat)) (s : State) : Host.Outcome State Fault Refusal :=
  s.actDom fun s => s.surveyFrame site m .die 0x0E (s.oldArgs site m .die 0x0E) w fun _ s => s.lmSend site m .die 0x0F [level, caps]

/-- NEG_ANSWER (R458). -/
def execNegAnswer (site m level caps : Nat) (w : List (List Nat)) (s : State) : Host.Outcome State Fault Refusal :=
  s.actDom (·.hubSurvey site m 6 0x0F [level, caps] w fun a s => s.negAnswer site m (nthD a 0 0) (nthD a 1 0))

/-- NEG_COMMIT (R458): the die takes the committed level and capabilities and echoes them; the hub checks the echo. -/
def execNegCommit (site m : Nat) (e : LinkEnd) (level caps : Nat) (w : List (List Nat)) (s : State) : Host.Outcome State Fault Refusal :=
  s.actDom fun s =>
    match e with
    | .hub => s.hubSurvey site m 7 0x03 [level, caps] w fun a s => s.negEcho site m (nthD a 0 0) (nthD a 1 0)
    | .die => s.surveyFrame site m .die 0x03 [level, caps] w fun a s =>
        (s.modDie site fun d => { d with level := nthD a 0 0, caps := nthD a 1 0, committed := true }).lmSend site m .die 0x03 a

/-- TRAVERSE_ANSWER_TIMEOUT (R455). -/
def execTraverseAnswerTimeout (site : Nat) (s : State) : Host.Outcome State Fault Refusal :=
  s.act fun s => if s.smith.running then s.travTimeout site else s

/-- TRAVERSE_ADMIT (R460). -/
def execTraverseAdmit (site : Nat) (s : State) : Host.Outcome State Fault Refusal := s.act (·.travAdmit site)

end Sys2Proof.Machine
end

