-- ==== Sys2Proof/Machine/DieUnit.lean ====
section
/-! DEFINITION. Units a die sends (R461 to R478): the checks of Boundary in order, the meters and the units they hold, where a
passed unit goes, and the timers of the die contract. -/

namespace Sys2Proof.Machine

/-- An answer to a snoop or to an XlatInvFwd. -/
def isSnoopAnswer (op : BitVec 7) : Bool := op == 0x43 || op == 0x61 || op == 0x44

/-- A request to a device (R169). -/
def isDevReq (op : BitVec 7) : Bool := op == 0x68 || op == 0x70 || op == 0x71

namespace State

/-- The destination LNK[s] determines for a unit of its die (R159, R166, R169, R467, R468, R689): the home of the line, the claimant
of a device address, or the node the die names. -/
def dieDst (s : State) (p : Pkt) : BitVec 8 :=
  let n := p.op.toNat
  let pa := paOf p.addr.toNat
  if (1 ≤ n && n ≤ 8) || n == 0x60 || n == 0x61 || n == 0x43 then nodeHome (s.home pa)
  else if isDevReq p.op then
    match s.claimOf pa with
    | .none => p.dst
    | .node d => d
    | .msg => let c := (pa - 0xFFEFFFF000000) / 0x4000; nodeModule (c / 32) (s.devModule (c / 32) 0)
  else p.dst

/-- The checks 1 to 5 of R469 with their kinds, in order, and whether each fails; 3 to 5 while EN is 1. -/
def boundaryChecks (s : State) (site : Nat) (p : Pkt) : List (Nat × Bool) :=
  let pg := pgSITE site
  let en := s.flag pg Fld.BND_CTL_EN
  let n := p.op.toNat
  let need := permNeeded p.op
  [(1, !formatOk p), (2, !(isDieNode p.src && siteOf p.src == site)),
   (3, en && !bitN (s.reg pg (Reg.BND_ALLOW (n / 32))) (n % 32)),
   (4, en && isWindowed p.op && s.windowGrants site (paOf p.addr.toNat) &&& need != need),
   (5, en && isCounted p.op && decide (s.get pg Fld.BND_OUT_MAX ≤ s.get pg Fld.BND_OUT_COUNT))]

/-- Run the failing checks in order: each is a violation, and one whose action is not log decides (R474, R475). -/
def boundaryRun (s : State) (site : Nat) (p : Pkt) : List (Nat × Bool) → Option Nat × State
  | [] => (none, s)
  | (_, false) :: l => boundaryRun s site p l
  | (k, true) :: l =>
    let (a, s) := s.violation site k p
    if a == 0 then boundaryRun s site p l else (some a, s)

/-- LNK[s] answers a device request that no one claims (R766, R38). -/
def dieUnclaimed (s : State) (site : Nat) (p : Pkt) : State :=
  let s := s.recReserved (pgSITE site) p
  let q := ownSrc site (moduleOf p.by) p
  let s := if p.op == 0x70 then s.siteReply q 0x79 1 (some (BitVec.allOnes 512 &&& maskBits p.mask, p.mask))
    else if p.op == 0x71 then s.siteReply q 0x78 1 else s
  s.writeDone p

/-- A message of a die to the message window (R689, R690): sent to its site, or discarded. -/
def dieMessage (s : State) (site : Nat) (p : Pkt) : State :=
  let run := maskRun? p.mask
  let at_ := paOf p.addr.toNat + (run.map (·.1)).getD 0
  let core := bits (at_ - 0xFFEFFFF000000) 14 10
  let pg := pgSITE site
  let q := ownSrc site (moduleOf p.by) p
  if p.op == 0x70 then (s.msgDrop pg core 0).siteReply q 0x79 1 (some (BitVec.allOnes 512 &&& maskBits p.mask, p.mask))
  else if (run.map (·.2)) != some 4 || at_ % 0x4000 != 0 || !s.coreOk core then
    let s := s.msgDrop pg core (lineField p.data (at_ % 64) 4)
    (if p.op == 0x71 then s.siteReply q 0x78 2 else s).writeDone p
  else s.send p (nodeModule (core / 32) (s.devModule (core / 32) 0))

/-- A unit that has passed Boundary leaves LNK[s] by the interface of the module that carried it (R160, R268, R408, R466, R689, R766); its
link credit is freed. -/
def dieForward (s : State) (site m : Nat) (p : Pkt) : State :=
  let s := s.linkFree site m .hub p
  let p : Pkt := { p with inj := some (nodeModule site m) }
  let n := p.op.toNat
  if 9 ≤ n && n ≤ 11 then { s with net := s.net ++ [⟨p, .site site, s.time⟩] }
  else if isDevReq p.op then
    match s.claimOf (paOf p.addr.toNat) with
    | .none => s.dieUnclaimed site p
    | .msg => s.dieMessage site p
    | .node d => s.send p d
  else s.send p p.dst

/-- The meters a unit needs that have no token (R472). -/
def lackOf (s : State) (site : Nat) (p : Pkt) : List Nat := (metersOf p).filter fun k => s.meterEmpty site k

/-- Check 6 (R472): tokens are taken, or the unit is held, behind a held unit of its VC and module without being counted. -/
def dieMeters (s : State) (site m : Nat) (p : Pkt) : State :=
  let pg := pgSITE site
  let hold := fun (s : State) => s.modSite site fun x => { x with held := x.held ++ [⟨p, m⟩] }
  if !s.flag pg Fld.BND_CTL_EN then s.dieForward site m p
  else if (s.siteAt site).held.any fun h => h.m == m && h.p.vc == p.vc then hold s
  else
    let lack := s.lackOf site p
    if lack.isEmpty then ((metersOf p).foldl (fun s k => s.meterTake site k) s).dieForward site m p
    else (hold (lack.foldl (fun s k => s.count pg (Fld.BND_HELD_COUNT k)) s)).status pg Fld.BND_VIOL_HELD (srcSITE site 2)

/-- An answer to a snoop or XlatInvFwd ends its timer; one accepted at `t` later than its bound is a violation (R473). -/
def noteAnswer (s : State) (site : Nat) (p : Pkt) (t : Nat) : State :=
  if !isSnoopAnswer p.op then s
  else
    let mine := fun (q : SnpPend) => q.p.txn == p.txn &&
      (if p.op == 0x44 then q.p.op == 0x24 && q.p.src == p.dst else q.p.op != 0x24 && q.p.addr == p.addr)
    match (s.siteAt site).snoops.find? mine with
    | none => s
    | some q =>
      let s := s.modSite site fun x => { x with snoops := x.snoops.erase q }
      let lim := if p.op == 0x44 then 10000 else 2000
      if q.since + lim < t && !q.noted then s.lateViolation site (if p.op == 0x44 then 7 else 6) { q.p with src := q.p.dst } else s

/-- A completion of a Class D die ends its request; one for a request LNK[s] has answered is discarded (R468). True where it goes on. -/
def noteCompletion (s : State) (site : Nat) (p : Pkt) : Bool × State :=
  if !(p.op == 0x78 || p.op == 0x79) then (true, s)
  else
    let x := s.siteAt site
    match x.dev.find? fun d => d.p.src == p.dst && d.p.txn == p.txn with
    | some d => (true, s.modSite site fun x => { x with dev := x.dev.erase d })
    | none =>
      match x.devGone.find? fun d => d.src == p.dst && d.txn == p.txn with
      | none => (true, s)
      | some d =>
        (false, (s.modSite site fun x => { x with devGone := x.devGone.erase d }).count (pgSITE site) Fld.LATE_CPL_COUNT)

/-- The checks of a unit that LNK[s] has taken from its receive buffer at TIME `t` (R469), and what follows. -/
def dieChecked (s : State) (site m : Nat) (p : Pkt) (t : Nat) : State :=
  let q := ownSrc site m p
  let s := s.noteAnswer site p t
  let (act, s) := s.boundaryRun site p (s.boundaryChecks site p)
  let refuse := act == some 1 || (act == none && isDevReq p.op && s.quiesced site)
  if refuse then (((s.linkFree site m .hub p).dropAnswer site m p)).writeLost q 5 11
  else if act.isSome then (s.linkFree site m .hub p).writeLost q 5 11
  else
    let (goOn, s) := s.noteCompletion site p
    if goOn then (s.outAdd site p).dieMeters site m p else s.linkFree site m .hub p

/-- LNK[s] takes a unit out of the receive buffer of a module (R131, R245, R469). -/
def dieUnitTake (s : State) (site m : Nat) (e : InFlight) : State :=
  let s := { s with net := s.net.erase e }
  if s.fenced site then (s.linkFree site m .hub e.p).discardCount
  else s.dieChecked site m { e.p with dst := s.dieDst e.p } e.since

/-- The unit is in the receive buffer of a module of a site, or the die sends it there now (log 3), as R170 and R172 let it. -/
def dieUnitCome (s : State) (site m : Nat) (p : Pkt) : State :=
  if s.net.any fun e => sameUnit e.p p && decide (e.at_ = .link site m) then s
  else if s.dieMay site p then (s.dieSent site p).linkTakes site m p
  else s

/-- A unit from a die (R469, R620, R627): the oldest of its VC in its module's receive buffer. -/
def dieUnit (s : State) (site m : Nat) (p : Pkt) : State :=
  if 16 ≤ site || 4 ≤ m then s
  else
    let s := s.dieUnitCome site m p
    match s.net.find? fun e => sameUnit e.p p && decide (e.at_ = .link site m) with
    | none => s
    | some e =>
      let st := s.get pgPWR Fld.PWR_STAT_STATE
      let s := if st == 1 || st == 2 then s.leaveBanked true State.wakeUnitSrc else s
      if 2 ≤ st || (s.queueOf e).head? != some e then s else s.dieUnitTake site m e

/-- The oldest held unit of a VC of a module proceeds once its meters have tokens (R472). -/
def meterRelease (s : State) (site m vc : Nat) : State :=
  match (s.siteAt site).held.find? fun h => h.m == m && h.p.vc.toNat == vc with
  | none => s
  | some h =>
    let en := s.flag (pgSITE site) Fld.BND_CTL_EN
    if en && !(s.lackOf site h.p).isEmpty then s
    else
      let s := s.modSite site fun x => { x with held := x.held.erase h }
      (if en then (metersOf h.p).foldl (fun s k => s.meterTake site k) s else s).dieForward site m h.p

/-- A snoop, or an XlatInvFwd, has no answer within its bound (R473). -/
def snoopLate (s : State) (site : Nat) : State :=
  let past := fun (q : SnpPend) => !q.noted && decide (q.since + (if q.p.op == 0x24 then 10000 else 2000) < s.time)
  match (s.siteAt site).snoops.find? past with
  | none => s
  | some q =>
    let s := s.modSite site fun x => { x with snoops := x.snoops.map fun r => if r == q then { r with noted := true } else r }
    s.lateViolation site (if q.p.op == 0x24 then 7 else 6) { q.p with src := q.p.dst }

/-- A unit of a sink channel has waited 100 us at LNK[s] and finds no link credit (R473). -/
def sinkLate (s : State) (site m : Nat) : State :=
  let stuck := fun (e : InFlight) =>
    decide (e.at_ = .rx) && e.p.dst == nodeModule site m && [2, 3, 4, 7].contains e.p.vc.toNat &&
    decide (e.since + 100000 ≤ s.time) && !(s.siteAt site).sink.contains (unitKey e.p) &&
    (match (s.lk site m .hub).link with
     | some l => !mayLink l e.p.vc.toNat e.p.hasData
     | none => false)
  match s.net.find? stuck with
  | none => s
  | some e => (s.modSite site fun x => { x with sink := unitKey e.p :: x.sink }).lateViolation site 9 { e.p with src := e.p.dst }

/-- DEV_CPL_US of the admitted die, in ns (R449, R468). -/
def devCplNs (s : State) (site : Nat) : Nat := 1000 * s.datumField site 32 2

/-- A Class D die has not completed a device request in time (R468). -/
def devLate (s : State) (site : Nat) (src : BitVec 8) (txn : BitVec 12) : State :=
  match (s.siteAt site).dev.find? fun d => d.p.src == src && d.p.txn == txn && d.since + s.devCplNs site ≤ s.time with
  | none => s
  | some d =>
    let s := s.modSite site fun x => { x with dev := x.dev.erase d, devGone := x.devGone ++ [d.p] }
    let s := if d.p.op == 0x70 then
        s.respond 0x79 d.p.dst d.p.src d.p.txn 2 true false (some (BitVec.allOnes 512 &&& maskBits d.p.mask, d.p.mask))
      else s.respond 0x78 d.p.dst d.p.src d.p.txn 2 true
    s.lateViolation site 8 d.p

/-- A module has not reached ACTIVE 5 ms after EN (R670); a MODULE_REPAIR of it ends with FAILED (R671). -/
def firstActiveLate (s : State) (site m : Nat) : State :=
  let x := s.lk site m .hub
  if !s.flag (pgLNK site) (Fld.LNK_CTL_EN m) || x.active || x.st == 7 || x.st == 0 || s.time < x.enSince + 5000000 then s
  else
    let s := (s.retireSide site m .hub).travTrain site
    if s.smith.op == some 0x13 && s.smith.args.take 2 == [site, m] then s.mbEnd 6 else s

end State

/-- DIE_UNIT (R469): LNK[s] passes a unit that module `m` of a site has accepted through Boundary. -/
def execDieUnit (site m : Nat) (p : Pkt) (s : State) : Host.Outcome State Fault Refusal := s.actDom (·.dieUnit site m p)

/-- METER_RELEASE (R472): the head of the held units of a VC of a module. -/
def execMeterRelease (site m vc : Nat) (s : State) : Host.Outcome State Fault Refusal := s.actDom (·.meterRelease site m vc)

/-- SNOOP_LATE_TIMEOUT (R473): the oldest overdue snoop or XlatInvFwd of a site. -/
def execSnoopLateTimeout (site : Nat) (s : State) : Host.Outcome State Fault Refusal := s.actDom (·.snoopLate site)

/-- SINK_TIMEOUT (R473). -/
def execSinkTimeout (site m : Nat) (s : State) : Host.Outcome State Fault Refusal := s.actDom (·.sinkLate site m)

/-- DEV_CPL_TIMEOUT (R468): the device request with this source and TXN. -/
def execDevCplTimeout (site : Nat) (src : BitVec 8) (txn : BitVec 12) (s : State) : Host.Outcome State Fault Refusal :=
  s.actDom (·.devLate site src txn)

/-- TRAINING_TIMEOUT (R420): one side of a module stays too long in SURVEY, CALIBRATE, MAP or RETRAIN. -/
def execTrainingTimeout (site m : Nat) (e : LinkEnd) (s : State) : Host.Outcome State Fault Refusal :=
  s.actDom fun s => (s.trainingTimeout site m e).travTrain site

/-- MODULE_WAKE (R440): a side drives VLD to 1. A module of an admitted site that leaves IDLE ends Banked entry (R626). -/
def execModuleWake (site m : Nat) (s : State) : Host.Outcome State Fault Refusal := s.actDom (·.wakeModule site m)

/-- FIRST_ACTIVE_TIMEOUT (R670). -/
def execFirstActiveTimeout (site m : Nat) (s : State) : Host.Outcome State Fault Refusal := s.actDom (·.firstActiveLate site m)

end Sys2Proof.Machine
end

