-- ==== Sys2Proof/Machine/Domain.lean ====
section
/-! DEFINITION. Power domains rising and dropping (R612 to R619): the drain work of each, its end or the end of its wait,
isolation and the COMMIT window, and what a block loses. -/

namespace Sys2Proof.Machine

namespace State

/-- The pages whose ordinary registers a domain holds (R51). -/
def domPages (d : Nat) : List Nat := allPages.filter fun p => pageDom p == some d

/-- Requests that a hub agent has outstanding are forgotten with it. -/
def agentForget (s : State) (n : BitVec 8) : State :=
  { s with agents := s.agents.filter fun e => e.2.p.src != n, net := s.net.filter fun e => !(e.p.src == n && e.at_ == .out) }

/-- DMAs of a requester are forgotten with it. -/
def dmaForget (s : State) (who : Nat) : State :=
  let gone := (s.dmas.filter fun e => e.2.who == who).map (·.1)
  { s with dmas := s.dmas.filter fun e => e.2.who != who
           ixu := { s.ixu with walks := s.ixu.walks.filter fun e => !gone.contains e.1 } }

/-- The NE's own posted writes that have not ended (R612). -/
def neHeld (s : State) : List (Nat × Dma) := s.dmas.filter fun e => e.2.who == 16 && e.2.kind ≤ 1 && e.2.acc != 3

/-- Device writes held for the NE are discarded and counted, and the NE's own posted writes end unsent (R296, R612). -/
def neDiscard (s : State) : Nat × State :=
  let n := (s.heldToward nodeNE).length
  let s := s.discardToward nodeNE
  let s := { s with dmas := s.dmas.filter fun e => !(e.2.who == 16 && e.2.kind ≤ 1 && e.2.acc != 3) }
  (n, if n == 0 then s else (s.count pgNE Fld.NE_PW_DISC_COUNT n).status pgNE Fld.NE_STAT_PW_DISC (srcNE 3))

/-- Device writes held for a PCIe group, in its buffer and on the way to it, are discarded and counted (R296). -/
def groupDiscard (s : State) (g : Nat) : Nat × State :=
  let n := (s.heldToward (nodePCIE g)).length
  let m := (s.groupAt g).pw.length
  let s := (s.discardToward (nodePCIE g)).discardPw g (fun _ => true) 4
  let s := if n == 0 then s else s.count (pgPCIE g) Fld.PW_DISC_COUNT n
  let s := if n != 0 && m == 0 then s.fire (srcPCIE g 5) else s
  (n + m, (List.range 16).foldl (fun s i => s.drainAdvance i) s)

/-- The DISCARD record of a block (R296, R298): subtype 0 domain drop, 1 warm reset. -/
def recDiscard (s : State) (p src sub n : Nat) : State :=
  s.record { typ := 0x09, cls := 3, source := src, page := p, sub := sub, words := [n] }

/-- The work with which a domain enters DRAIN (step 1 of R617, R612). -/
def drainWork (s : State) (d : Nat) : State :=
  if 36 ≤ d && d < 40 then (List.range 4).foldl (fun s k => s.intfDown (4 * (d - 36) + k)) (s.optRefresh ((d - 36) / 2))
  else if d == 40 || d == 41 then s.optRefresh (d - 40)
  else if d == 42 then (s.ne.ctxs.map (·.1)).foldl (fun s c => s.ctxToError c) s
  else s

/-- The drain work of a domain has ended (R294, R612, R617): no device write is held for a PCIe group or the NE, and none of the NE's own. -/
def drainOver (s : State) (d : Nat) : Bool :=
  if 43 ≤ d && d ≤ 48 then (s.groupAt (d - 43)).pw.isEmpty && (s.heldToward (nodePCIE (d - 43))).isEmpty
  else if d == 42 then s.neHeld.isEmpty && (s.heldToward nodeNE).isEmpty
  else true

/-- The wait of R294 in ns. -/
def drainWait (s : State) (d : Nat) : Nat :=
  if d == 42 then 1000000 * s.get pgNE Fld.DMA_TO_MS else s.cplTo (d - 43)

/-- Isolation of a domain (steps 2 and 3 of R617): pending values go (R66), ports of a PCIe group lose their links (PERST), and what
waited for the block no longer does (R506, R520). -/
def isolate (s : State) (d : Nat) : State :=
  let s := (domPages d).foldl (fun s p => s.dropPending p) (s.domGo d 5)
  let s :=
    if 43 ≤ d && d ≤ 48 then (((s.groupAt (d - 43)).up).foldl (fun s q => s.portDown (d - 43) q) s).farSweep
    else if d == 49 then
      let s := s.agentForget nodeIXU
      let gone := s.dmas.filter fun e => match e.2.st with
        | .sent _ => false
        | .ready => false
        | _ => true
      gone.foldl (fun s e => s.dmaEnd e.1 2 (BitVec.allOnes 512)) s
    else if d == 40 || d == 41 then
      (List.range 8).foldl (fun s k => s.intfDown (8 * (d - 40) + k)) s
    else s
  if d == 42 || d == 49 then ((List.range 16).foldl (fun s i => s.xlatPump i) s).afterDma else s

/-- What a block loses when its supply goes (step 4 of R617). -/
def domLost (s : State) (d : Nat) : State :=
  if d < 16 then
    let s := [0, 1, 2, 3].foldl (fun s m => s.resetModule d m) (s.modDie d fun _ => {})
    { s with net := s.net.filter fun e => match e.at_ with
      | .link i _ => i != d
      | .die i _ => i != d
      | .dlv i _ => i != d
      | _ => true }.modSite d fun x => { x with drainMark := [] }
  else if 28 ≤ d && d < 36 then
    (List.range 8).foldl (fun s i => s.modHearth (8 * (d - 28) + i) fun _ => { mode := 2 }) s
  else if 36 ≤ d && d < 40 then s.modNe fun n => { n with ports := modOf 4 {} n.ports (d - 36) fun _ => {} }
  else if d == 42 then (((s.agentForget nodeNE).dmaForget 16).modNe fun n => { intfs := n.intfs, ports := n.ports }).modIxu fun x => { x with neOut := [] }
  else if 43 ≤ d && d ≤ 48 then
    ((s.agentForget (nodePCIE (d - 43))).dmaForget (d - 43)).modGroup (d - 43) fun _ => {}
  else if d == 49 then { s with ixu := {} }
  else s

/-- A Hearth group that HEARTH_OFFLINE isolated is off, and the command ends (R343). -/
def hearthGone (s : State) (d : Nat) : State :=
  if s.smith.op == some 0x21 && s.smith.site + 28 == d then s.mbEnd 0 else s

/-- A Hearth group is back with empty slices (R344), in bypass where EN is 0 (R336, R338), and HEARTH_ONLINE ends. -/
def hearthBack (s : State) (g : Nat) : State :=
  let s := (List.range 8).foldl (fun s i => s.modHearth (8 * g + i) fun _ => {}) s
  let was := s.get (pgHRTH 0) Fld.HRTH_GSTAT_OFFLINE
  let s := s.put (pgHRTH 0) Fld.HRTH_GSTAT_OFFLINE (setBits was g 1 0)
  let s := if s.flag (pgHRTH 0) Fld.HRTH_CTL_EN then s else (List.range 8).foldl (fun s i => s.enterBypass (8 * g + i)) s
  if s.smith.op == some 0x22 && s.smith.site == g then s.mbEnd 0 else s

/-- The root PLL gives every link PHY PLL of a site lock while its domain is on. -/
def lnkLock (s : State) : State :=
  s.put pgCLK Fld.CLK_STAT_LNK_LOCK (maskOf ((List.range 16).filter fun i => s.domState i == 2))

/-- The nodes whose interface belongs to a domain. -/
def domNodes (d : Nat) : List (BitVec 8) :=
  if d < 16 then [0, 1, 2, 3].map fun m => nodeModule d m
  else if d < 28 then [BitVec.ofNat 8 (0x80 + 2 * (d - 16)), BitVec.ofNat 8 (0x81 + 2 * (d - 16))]
  else if d == 42 then [nodeNE]
  else if 43 ≤ d && d ≤ 48 then [nodePCIE (d - 43)]
  else if d == 49 then [nodeIXU]
  else []

/-- The interface of a node starts with its domain (R118, R131): what had reached it is discarded, and every link has the credits of R115. -/
def nodeUp (s : State) (n : BitVec 8) : State :=
  ((s.net.filter fun e => decide (e.at_ = .rx) && e.p.dst == n).foldl (fun s e => (s.plucked e).discardUnit e.p 3) s).creditReset n

/-- The channel sparing map that Smith firmware applies to a stack (R373, R395). -/
def chanSpared (s : State) (st : Nat) : State :=
  match Tab.get? st s.flash.chanMap with
  | none => s
  | some k => (s.put (pgSTK st) Fld.STK_STAT_SPARE_USED 1).put (pgSTK st) Fld.STK_STAT_SPARED_CHAN k

/-- A domain has risen (R619): its registers follow R67, SCR_WAYS standing at the profile's value (R34), and its block starts. -/
def domUp (s : State) (d : Nat) : State :=
  let keep := fun (off : Nat) => (d == 40 || d == 41) && off == Reg.LANE_PREF
  let s := (domNodes d).foldl (fun s n => s.nodeUp n) s
  let s := (domPages d).foldl (fun s p => s.resetPage p false keep) (s.domGo d 2)
  let s := if 16 ≤ d && d < 28 then s.chanSpared (d - 16) else s
  let s := if d == 28 then s.put (pgHRTH 0) Fld.HRTH_CTL_SCR_WAYS s.profNow.scr else s
  if d < 16 then s.lnkLock.travPowered d
  else if 28 ≤ d && d < 36 then s.hearthBack (d - 28)
  else if 36 ≤ d && d < 40 then s.optRefresh ((d - 36) / 2)
  else if d == 40 || d == 41 then
    ([2 * (d - 40), 2 * (d - 40) + 1].foldl (fun s e => s.modEmb e fun x => { x with lit := 0 }) s).optRefresh (d - 40)
  else s

end State

/-- DOMAIN_DROP (R617): the target of a domain that is ON has become OFF, and it enters DRAIN. Memory stacks are never dropped outside
Off (R385). -/
def execDomainDrop (d : Nat) (s : State) : Host.Outcome State Fault Refusal :=
  s.act fun s =>
    if d < 50 && s.domState d == 2 && !s.flag pgPWR (Fld.DOM_STAT_TARGET d) && !(16 ≤ d && d < 28) then (s.domGo d 3).drainWork d
    else s

/-- DOMAIN_DRAIN_DONE (R617): the drain work ends, and the domain passes ISOLATE to COMMIT. -/
def execDomainDrainDone (d : Nat) (s : State) : Host.Outcome State Fault Refusal :=
  s.act fun s =>
    if d < 50 && s.domState d == 3 && !s.flag pgPWR (Fld.DOM_STAT_TARGET d) && s.drainOver d then s.isolate d else s

/-- DOMAIN_DRAIN_EXPIRE (R296): the wait of a PCIe group or the NE expires, the held writes go, and the drop completes. -/
def execDomainDrainExpire (d : Nat) (s : State) : Host.Outcome State Fault Refusal :=
  s.act fun s =>
    if 42 ≤ d && d ≤ 48 && s.domState d == 3 && !s.flag pgPWR (Fld.DOM_STAT_TARGET d) && !s.drainOver d &&
       Tab.getD d 0 s.power.domSince + s.drainWait d ≤ s.time then
      let s :=
        if d == 42 then
          let (n, s) := s.neDiscard
          s.recDiscard pgNE (srcNE 3) 0 n
        else
          let (n, s) := s.groupDiscard (d - 43)
          s.recDiscard (pgPCIE (d - 43)) (srcPCIE (d - 43) 5) 0 n
      s.isolate d
    else s

/-- DOMAIN_COMMIT_END (R617): 15 ns of COMMIT end, and the supply is switched off. -/
def execDomainCommitEnd (d : Nat) (s : State) : Host.Outcome State Fault Refusal :=
  s.act fun s =>
    if d < 50 && s.domState d == 5 && Tab.getD d 0 s.power.domSince + 15 ≤ s.time then
      let s := (s.domLost d).domGo d 0
      (s.count pgPWR (Fld.DOM_STAT_DROPS d)).lnkLock.hearthGone d
    else s

/-- DOMAIN_RISE (R619): the target of a domain that is OFF is ON, and its supply is switched on. -/
def execDomainRise (d : Nat) (s : State) : Host.Outcome State Fault Refusal :=
  s.act fun s => if d < 50 && s.domState d == 0 && s.flag pgPWR (Fld.DOM_STAT_TARGET d) then s.domGo d 1 else s

/-- DOMAIN_RISE_DONE (R619). -/
def execDomainRiseDone (d : Nat) (s : State) : Host.Outcome State Fault Refusal :=
  s.actDom fun s => if d < 50 && s.domState d == 1 then s.domUp d else s

end Sys2Proof.Machine
end

