-- ==== Sys2Proof/Machine/Reset.lean ====
section
/-! DEFINITION. Fences (R242 to R245, R294) and the resets of the package (R647 to R661, R734, R741): cold start-up, Off, warm reset,
supply fault and thermal trip. -/

namespace Sys2Proof.Machine

namespace State

/-! ### Fences -/

/-- The hub's record of a site's die ends: what LNK[s] and SITE[s] held for it (R245, R472, R506). -/
def siteForget (s : State) (site : Nat) : State :=
  let held := (s.siteAt site).held
  let s := s.modSite site fun x =>
    { x with held := [], drains := [], drainMark := [], devw := [], devFail := none, xlat := [], sink := [], outReq := [], snoops := [] }
  let s := held.foldl (fun s h => s.writeLost (ownSrc site h.m h.p) 5 11) s
  let s := s.modSite site fun x => { x with devw := [], devFail := none }
  let s := { s with net := s.net.filter fun e => match e.at_ with
    | .link i _ => i != site
    | .site i => i != site
    | _ => true }
  let s := s.modPower fun p => { p with sets := Tab.del site p.sets }
  ((s.pendUpd site).outUpd site).put (pgSITE site) Fld.SITE_STAT_ADMITTED 0

/-- Device writes of a site that LNK[s] has accepted and not yet passed on go through Boundary before the fence edge (R294). -/
def flushLink (s : State) (site : Nat) : State :=
  let mine := s.net.filterMap fun e => match e.at_ with
    | .link i m => if i == site && (e.p.op == 0x68 || e.p.op == 0x71) then some (m, e) else none
    | _ => none
  mine.foldl (fun s e => s.dieUnitTake site e.1 e.2) s

/-- SITE_OFFLINE is ended by the loss of its site in steps 1 to 3 (R668). -/
def offlineEnd (s : State) (status : Nat) : State :=
  let s := { s with homes := s.homes.map fun (h : Home) => { h with recallOp := none } }
  let s := forAll (List.range 64) (fun h s => s.put (pgHOME h) Fld.HOME_LOSS_STAT_RECALL 0) s
  s.mbEnd status

/-- The fence edge of a site (R242 to R245), with or without a containment walk; `pub` is its Plat STATE. Slot 0 of its domain is
withdrawn with its admission (R616). -/
def siteFence (s : State) (site : Nat) (walk : Bool) (pub : Nat) : State :=
  let s := s.flushLink site
  let s := if s.smith.op == some 0x10 && s.smith.site == site && s.smith.phase ≤ 3 then s.offlineEnd 6 else s
  let s := ((s.fenceSite site walk).siteForget site).modSite site fun x => { x with pub := pub }
  let s := (s.pmuLate site).setSlot site 0 false
  (List.range 16).foldl (fun s i => s.xlatPump i) s

/-! ### What every reset does -/

/-- The registers of every page take their reset values, header included, but for RWS fields (R69, R75); pages of SMITH, CLK and TIME
keep theirs at warm reset (R660), but for MB_STAT, MB_ARG and MB_RES (R662). FAB[7]'s DISCARD, which is not RWS, counts anew
(log 169, DEDUCED). -/
def resetRegs (s : State) : State :=
  let mb := fun (off : Nat) => Reg.MB_ARG 0 ≤ off && off < 0x230
  forAll allPages (fun p s =>
    if p == pgSMITH then s.resetPage p false (fun off => !mb off)
    else if p == pgCLK || p == pgTIME then s
    else s.resetPage p true (fun _ => false)) s

/-- The raw pins as a reset finds them (R641): a filtered level that stands at the reset stands after it. -/
def pinsKept (s : State) : Tab Pin := s.power.pins.map fun e =>
  (e.1, { filt := e.2.filt, fall := if e.2.filt then some 0 else none, since := 0 })

/-- Presence of an Ember module is a contact: it stands through a reset. -/
def embersKept (s old : State) : State :=
  (List.range 4).foldl (fun s e =>
    if old.flag (pgEMB e) Fld.EMB_STAT_PRESENT then (s.put (pgEMB e) Fld.EMB_STAT_PRESENT 1).modEmb e fun x => { x with since := some s.time }
    else s) s

/-- The fields of a profile that reset loads (R46, R49, R75, R655): limits, hash mode, scratch ways, CLASS_OK, Boundary defaults. -/
def loadProfile (s : State) (n : Nat) : State :=
  let pr := s.profOf n
  let s := (s.put pgSMITH Fld.PROFILE_IN_FORCE n)
  let s := { s with smith := { s.smith with boot := some pr } }
  let s := ((s.put pgPWR Fld.PWR_LIMIT_PLIMIT pr.plimit).put pgPWR Fld.PWR_LIMIT_FCAP pr.fcap).put pgPWR Fld.PWR_FLOOR_FLOOR pr.floor
  let s := forAll (List.range 64) (fun h s => s.put (pgHOME h) Fld.HOME_CFG_HASH pr.hash) s
  let s := s.put (pgHRTH 0) Fld.HRTH_CTL_SCR_WAYS pr.scr
  let s := (List.range 16).foldl (fun s i =>
    if i < 12 then s.setReg (pgSITE i) Reg.BND_ACT qorsyActions
    else
      let s := (s.put (pgSITE i) Fld.BND_CTL_CLASS_OK (nthD pr.classOk (i - 12) 0)).setReg (pgSITE i) Reg.BND_ACT pr.act
      (List.range 4).foldl (fun s m => s.setReg (pgSITE i) (Reg.BND_METER m) (nthD pr.meters m 0)) s) s
  if bitN s.flash.bad n && bitN s.flash.bad (4 + n) then
    s.record { typ := 0x13, cls := 3, source := srcSmithRecord, page := pgSMITH, sub := 1, words := [n], fires := true }
  else s

/-- Steps 6 to 9 of R655 begin: slot 8 from VOTES, and Traverse of every populated site. -/
def startTail (s : State) : State :=
  let votes := s.profNow.votes
  let s := ((List.range 50).filter fun d => 36 ≤ d && bitN votes d).foldl (fun s d => s.setSlot d 8 true) s
  let s := { s with smith := { s.smith with startup := true } }
  (((List.range 16).filter fun i => s.populated i).foldl (fun s i => s.travStart i) s).startupAdvance

/-- FW_STAT as the slot in force gives it. -/
def fwStat (s : State) : State :=
  (s.put pgSMITH Fld.FW_STAT_SLOT s.flash.slot).put pgSMITH Fld.FW_STAT_VERSION (nthD s.flash.ver s.flash.slot 0)

/-! ### Cold start-up (R655) -/

/-- The row sparing maps that Smith firmware applies at every cold reset (R373); those of channels, as each stack's domain rises. -/
def rowsSpared (s : State) : State := { s with mem := { s.mem with rowMap := s.flash.rowMap, spareUsed := s.flash.spareUsed } }

/-- Steps 1 to 7 of R655 once a Smith image is in force in `slot`. -/
def coldBoot (s old : State) (sel slot : Nat) : State :=
  let fall := slot != s.flash.slot
  let s := { s with flash := { s.flash with slot := slot } }
  let s := ((s.put pgSMITH Fld.PROFILE_PINS sel).put pgSMITH Fld.FW_STAT_FALLBACK (b2n fall)).fwStat
  let s := ((s.loadProfile sel).embersKept old).rowsSpared
  let s := ((List.range 20).map (· + 16)).foldl (fun s d => s.setSlot d 0 true) s
  s.startTail

/-- PWROK rises (R652, R655, R732): `sel` and `straps` are the strap contacts, `part` and `pop` the fuses, `rails` says that every
rail is in range, `good` which slots' images verify, `bad` which profile copies fail their CRC; the host image and its load address, and
what each slot's image admits dies and Ember modules by, as the flash holds them. -/
def coldReset (s : State) (sel straps part pop : Nat) (rails : Bool) (good : List Bool) (bad load : Nat) (image : List Byte)
    (trust : List Trust) : State :=
  let fl := { s.flash with good := good, bad := bad, load := load, image := image, trust := trust }
  let t : State := { s.offState with flash := fl, straps := straps, part := part, pop := pop, pwrok := true, regs := [] }
  if !rails then { t with alert := { railAtPwrok := true }, power := { bootFail := true }, smith := { running := false, ibi := some 5 } }
  else
    let t := { t with off := false, power := { pins := s.pinsKept, period := 1 } }
    let t := t.put pgCLK Fld.CLK_STAT_ROOT_LOCK 1
    let t := (t.put pgPWR Fld.PWR_STAT_THR (b2n (t.pin pinThr).filt)).put pgPWR Fld.PWR_STAT_WAKE (b2n (t.pin pinWake).filt)
    if nthD good fl.slot false then t.coldBoot s (sel % 4) fl.slot
    else if nthD good (1 - fl.slot) false then t.coldBoot s (sel % 4) (1 - fl.slot)
    else { t with alert := { noImage := true }, power := { t.power with bootFail := true }, smith := { running := false, ibi := some 5 } }

/-! ### Off (R629, R734, R741) -/

/-- The lasers go dark, the clocks of the domains stop (R734, R741). -/
def stopClocks (s : State) : State :=
  let s := s.modPower fun p => { p with stopped := true }
  (List.range 4).foldl (fun s e => s.embShow e) s

/-! ### Warm reset (R660, R661) -/

/-- A port or engine domain is dropped at once. -/
def dropNow (s : State) (d : Nat) : State :=
  if s.domOn d then (((s.domGo d 3).drainWork d).isolate d).domGo d 0 |>.domLost d else s

/-- t0 of R660: the mailbox is closed, every site fenced without a walk, every module in RESET, ports and engines dropped. -/
def warmStart (s : State) (cause : Nat) : State :=
  if s.power.warm != 0 || s.power.stopped || s.power.bootFail then s
  else
    let abort := s.serving
    let s := { s with smith := { s.smith with op := none, phase := 0, bmcBusy := none } }
    let s := s.modPower fun p => { p with warm := 1, warmSince := s.time, warmCause := cause + 4 * b2n abort, bank := 0 }
    let s := { s with fab := { s.fab with hold := false } }
    let s := (List.range 16).foldl (fun s i =>
      let s := if s.admitted i then s.siteFence i false 3 else s.modSite i fun x => { x with trav := none }
      [0, 1, 2, 3].foldl (fun s m => s.resetModule i m) s) s
    [36, 37, 38, 39, 40, 41].foldl (fun s d => s.dropNow d) s

/-- The counts of R298: writes of each block discarded, with the block's page and source. -/
def warmCounts (s : State) : List (Nat × Nat × Nat) :=
  ((List.range 6).map fun n => (pgPCIE n, srcPCIE n 5, (s.groupAt n).pw.length + (s.heldToward (nodePCIE n)).length)) ++
  [(pgNE, srcNE 3, (s.heldToward nodeNE).length)]

/-- A slice writes a line before a warm reset (R297): as any write, or to memory where that waits. -/
def flushPut (s : State) (h l : Nat) (d : LineData) (psn : Bool) : State := (s.hearthWrite h l d psn false).getD (s.memWrite l d psn)

/-- A Hearth operation that a home had yet to make reaches its slice (R297). -/
def flushOp (s : State) (h l : Nat) (o : HOp) : State :=
  match o with
  | .wr d psn => s.flushPut h l d psn
  | .pz =>
    match s.hearthLook h l .clean with
    | (some (d, _), s) => s.flushPut h l d true
    | (none, s) => s.memWrite l (((s.pendingWrite l).map (·.data)).getD (s.memLine l)) true
  | _ => s

/-- The writes that homes had yet to make. -/
def homesFlush (s : State) : State :=
  forAll (List.range 64) (fun h s =>
    let s := (s.homeAt h).trk.foldl (fun (s : State) e => e.2.hq.foldl (fun s o => s.flushOp h (txnLine e.2) o) s) s
    (s.homeAt h).wb.foldl (fun (s : State) e => e.2.hq.foldl (fun s o => s.flushOp h e.2.line o) s) s) s

/-- Dirty lines of the Hearth reach memory (R294, R297, R348): near memory performs the writes; a far-memory device takes them, or they
fail with their cause (R389). -/
def hearthFlush (s : State) : State :=
  let s := (forAll (List.range 64) (fun h s => s.ropSlice h 3) s.homesFlush).farSweep
  s.mem.wr.foldl (fun (s : State) w => if isNear (paOf w.line) then s.setMemLine w.line w.data w.psn else s) s

/-- What a slice keeps through a warm reset (R330, R348): its scratch ways; one whose group is off has nothing. -/
def scratchOnly (x : Hearth) (w : Nat) (on : Bool) : Hearth :=
  if !on then { mode := 2 }
  else
    let keep := fun (i : Nat) (y : HWay) => if 16 - w ≤ i then ({ age := i, data := y.data, psn := y.psn } : HWay) else { age := i }
    { ways := x.ways.foldl (fun t e => Tab.putD emptyWays e.1 (e.2.mapIdx keep) t) [] }

/-- Near memory under another hash mode (R207, R353): each line keeps its place in the stacks and takes the address that maps there. -/
def rehash (s : State) (was : Bool) : State :=
  let move := fun (l : Nat) =>
    if isNear (paOf l) then
      let (st, k, o) := nearPlace was (paOf l)
      lineAt s.quad st k o (l % 4)
    else l
  { s with mem := { s.mem with
    cells := s.mem.cells.foldl (fun (m : List Host.Cell) c => Memory.write m (64 * move (c.1 / 64) + c.1 % 64) c.2) []
    marks := (s.mem.marks.map move).mergeSort (· ≤ ·) } }

/-- The scratch ways are written as zero (R330). -/
def zeroScratch (s : State) : State := { s with hearths := s.hearths.map fun (x : Hearth) => { x with ways := [] } }

/-- The controllers place their channels in self-refresh (R384): row sparings are complete, a channel sparing abandoned, debts repaid. -/
def selfRefreshAll (s : State) : State :=
  let s := (List.range (s.mem.rowQ.length + 1)).foldl (fun s _ => (s.mem.rowCur.map (·.1)).foldl (fun s n => s.rowSpareDone n []) s) s
  let s := s.mem.spareChan.foldl (fun (s : State) e => s.put (pgSTK e.1) Fld.STK_STAT_SPARE_BUSY 0) s
  let s := { s with mem := { s.mem with rowQ := [], rowCur := [], debt := [], repay := [], spareChan := [], spareSince := [], rd := [], ret := [], wr := [] } }
  forAll (List.range 24) (fun n s => s.put (pgMC n) Fld.MC_STAT_SR 1) s

/-- Every hub block except Smith, CLK and TIME is reset on one edge (R256, R647, R660); memory stacks keep their domains, and the
controllers their channels in self-refresh, and the Hearth groups that are on keep theirs, with their scratch ways (R330). Every value
pending is discarded, that of TIME_CFG, whose page keeps its registers, with the others (R89; log 168, DEDUCED). -/
def hubReset (s : State) : State :=
  let hearthOn := (List.range 8).filter fun g => s.domOn (28 + g)
  let spares := (List.range 12).map fun i => (i, s.get (pgSTK i) Fld.STK_STAT_SPARE_USED, s.get (pgSTK i) Fld.STK_STAT_SPARED_CHAN)
  let t := { s with
    shadow := [], routes := [], routesPend := [], routeBase := [], routeBasePend := [], weights := [], weightsPend := [], quench := {}
    alert := { s.alert with noBootSite := false }, recs := [], raised := [], net := [], fab := {}
    homes := List.replicate 64 {}, rop := {}, mem := { s.mem with scrubSub := [] }
    sites := s.sites.map fun (x : Site) => ({ pub := x.pub } : Site), links := [], groups := List.replicate 6 {}
    dies := List.replicate 16 {}, storm := {}, book := {}, pmu := none, ixu := {}, dmas := [], agents := [], dmaAns := none, ne := {}
    embers := List.replicate 4 {}, lanes := [], levels := []
    hearths := s.hearths.mapIdx fun h (x : Hearth) => scratchOnly x s.scrWays (hearthOn.contains (h / 8))
    smith := { s.smith with op := none, autoOp := none, copies := [], routeSet := 0, startup := false }
    power := { s.power with domSince := [], sets := [], period := s.time / 50000 + 1, lastStart := none } }
  let t := t.resetRegs
  let t := (t.put pgSMITH Fld.QUENCH_STAT_BUSY 0).put pgSMITH Fld.PMU_STAT_BUSY 0
  let t := spares.foldl (fun (t : State) e => (t.put (pgSTK e.1) Fld.STK_STAT_SPARE_USED e.2.1).put (pgSTK e.1) Fld.STK_STAT_SPARED_CHAN e.2.2) t
  let t := ((List.range 12).map (· + 16) ++ hearthOn.map (· + 28)).foldl (fun (t : State) d => (t.domGo d 2).setSlot d 0 true) t
  let t := forAll (List.range 24) (fun n t => t.put (pgMC n) Fld.MC_STAT_SR 1) t
  (t.put pgPWR Fld.PWR_STAT_THR (b2n (t.pin pinThr).filt)).put pgPWR Fld.PWR_STAT_WAKE (b2n (t.pin pinWake).filt)

/-- After the hub reset: the profile is applied, the controllers leave self-refresh, R330, and steps 3 and 6 to 9 of R655 (R660). -/
def warmTail (s : State) (quad : Bool) (scr : Nat) : State :=
  let p := if s.flag pgSMITH Fld.PROFILE_NEXT_V then s.get pgSMITH Fld.PROFILE_NEXT else s.get pgSMITH Fld.PROFILE_IN_FORCE
  let c := s.power.warmCause
  let s := (s.put pgSMITH Fld.PROFILE_NEXT_V 0).loadProfile p
  let s := (s.put pgSMITH Fld.RESET_CAUSE_LAST (c % 4)).put pgSMITH Fld.RESET_CAUSE_OP_ABORT (c / 4)
  let s := forAll (List.range 24) (fun n s => s.put (pgMC n) Fld.MC_STAT_SR 0) s
  let s := if s.quad != quad then s.rehash quad else s
  let s := if s.quad != quad || s.scrWays != scr then s.zeroScratch else s
  let s := s.modPower fun p => { p with warm := 0 }
  let s := ((List.range 8).map (· + 28)).foldl (fun s d => s.setSlot d 0 true) s
  s.startTail

/-- The drain of a warm reset ends (R294, R298, R348, R384, R660); with filtered PKG_RESET_N asserted the package holds here (R661). -/
def warmHub (s : State) : State :=
  let counts := s.warmCounts
  let quad := s.quad
  let scr := s.scrWays
  let old := s
  let s := (s.hearthFlush).selfRefreshAll
  let s := forAll (List.range 6) (fun n s => s.count (pgPCIE n) Fld.PW_DISC_COUNT (((counts[n]?).map (·.2.2)).getD 0)) s
  let s := s.count pgNE Fld.NE_PW_DISC_COUNT (((counts[6]?).map (·.2.2)).getD 0)
  let s := (s.hubReset).embersKept old
  let s := counts.foldl (fun (s : State) c => if c.2.2 == 0 then s else s.recDiscard c.1 c.2.1 1 c.2.2) s
  let s := s.modPower fun p => { p with warm := 2, warmQuad := quad, warmScr := scr }
  s

/-- The held reset goes on. -/
def warmGo (s : State) : State := s.warmTail s.power.warmQuad s.power.warmScr

end State

/-- SITE_FENCE (R243): Smith firmware or SITE fences a site. -/
def execSiteFence (site : Nat) (s : State) : Host.Outcome State Fault Refusal :=
  s.act fun s => if site < 16 && s.admitted site then (s.siteFence site true 4).pauseNote (pgSITE site) site else s

/-- COLD_RESET (R655). -/
def execColdReset (sel straps part pop : Nat) (rails : Bool) (good : List Bool) (bad load : Nat) (image : List Byte) (trust : List Trust)
    (s : State) : Host.Outcome State Fault Refusal :=
  .next { s.coldReset sel straps part pop rails good bad load image trust with pending := s.pending }

/-- POWER_FAIL (R629, R745): PWROK falls. -/
def execPowerFail (s : State) : Host.Outcome State Fault Refusal := .next (s.settle { s with off := true, pwrok := false, regs := [] })

/-- SUPPLY_FAULT (R734). -/
def execSupplyFault (s : State) : Host.Outcome State Fault Refusal :=
  s.act fun s =>
    let s := { s.stopClocks with alert := { s.alert with supply := true } }
    { s with mem := { s.mem with cells := [], marks := [] } }

/-- THERMAL_TRIP (R741); `sensor` as the POWER record names it. -/
def execThermalTrip (sensor : Nat) (s : State) : Host.Outcome State Fault Refusal :=
  s.act fun s =>
    if s.power.trip then s
    else
      let s := s.stopClocks.modPower fun p => { p with trip := true }
      let s := { s with alert := { s.alert with thermal := true } }
      ((s.fire srcThermtrip).recPower 4 5 srcThermtrip (sensor % 256)).fatal srcThermtrip

/-- PKG_RESET_ASSERT (R660, R661, R740): filtered PKG_RESET_N asserts. -/
def execPkgResetAssert (s : State) : Host.Outcome State Fault Refusal :=
  s.act fun s => (s.modPower fun p => { p with pkgLow := true }).warmStart 1

/-- PKG_RESET_DEASSERT (R661). -/
def execPkgResetDeassert (s : State) : Host.Outcome State Fault Refusal :=
  s.act fun s =>
    let s := s.modPower fun p => { p with pkgLow := false }
    if s.power.warm == 2 then s.warmGo else s

/-- WARM_DRAIN_EXPIRE (R660): 1 ms after t0. -/
def execWarmDrainExpire (s : State) : Host.Outcome State Fault Refusal :=
  s.act fun s =>
    if s.power.warm == 1 && s.power.warmSince + 1000000 ≤ s.time then
      let s := s.warmHub
      if s.power.pkgLow then s else s.warmGo
    else s

end Sys2Proof.Machine
end

