-- ==== Sys2Proof/Machine/Service.lean ====
section
/-! DEFINITION. The Smith mailbox (R662 to R665) and what its commands do: profiles, resets, sites, modules and routes, firmware update,
memory, Hearth, ports, Ember, Banked; Smith restarts (R647 to R650), the package Plat (R658, R767) and the BMC link (R676). -/

namespace Sys2Proof.Machine

namespace State

def modSmith (s : State) (f : Smith → Smith) : State := { s with smith := f s.smith }

/-- Argument `i` of the command in execution. -/
def mbArg (s : State) (i : Nat) : Nat := nthD s.smith.args i 0

/-- A PA that two arguments give. -/
def mbPa (s : State) (i : Nat) : Nat := (s.mbArg i + 2 ^ 32 * s.mbArg (i + 1)) % 2 ^ 52

/-- MB_STAT.BUSY: a command runs, or Smith firmware does not (R649). -/
def mbBusy (s : State) : Bool := s.smith.op.isSome || !s.smith.running

/-! ### Profiles (R44, R48, R653, R654) -/

/-- The newest value of a line, as RdOnce would return it (R199): a die's modified copy, a write a home has yet to make, the Hearth's, a
write memory has accepted, memory's. None where the address is not backed (R38). -/
def lineNow (s : State) (l : Nat) : Option (LineData × Bool) :=
  let h := s.home (paOf l)
  let dirty := s.dies.findSome? fun (d : Die) => match Tab.get? l d.lines with
    | some x => if x.st == .sM || x.st == .sWP then some (x.data, x.psn) else none
    | none => none
  let queued := fun (q : List HOp) => q.findSome? fun (o : HOp) => match o with
    | .wr d psn => some (d, psn)
    | _ => none
  let home := ((s.homeAt h).wb.findSome? fun e => if e.2.line == l then queued e.2.hq else none).orElse fun _ =>
    (s.homeAt h).trk.findSome? fun e => if txnLine e.2 == l then queued e.2.hq else none
  let held := (s.hearthLook h l .clean).1
  let wr := (s.pendingWrite l).map fun w => (w.data, w.psn)
  if !s.memBacked (paOf l) then none
  else some ((dirty <|> home <|> held <|> wr).getD (s.memLine l, s.memPoison l))

/-- The first poisoned line of `n` bytes that Smith firmware reads, with its record (R680, R681). -/
def readPoison (s : State) (pa n : Nat) : State :=
  match (List.range ((pa % 64 + n + 63) / 64)).find? fun i => ((s.lineNow (pa / 64 + i)).map (·.2)).getD false with
  | some i => s.record { typ := 0x14, cls := 2, source := srcSmithRecord, page := pgSMITH, addr := some (64 * (pa / 64 + i)), fires := true }
  | none => s

/-- `n` bytes from an address as Smith firmware reads them with RdOnce; none where one carries poison (R680). -/
def readBytes (s : State) (pa n : Nat) : Option (List Byte) :=
  let lines := (List.range ((pa % 64 + n + 63) / 64)).map fun i => s.lineNow (pa / 64 + i)
  if lines.any fun x => match x with
    | none => true
    | some (_, psn) => psn
  then none
  else some (((lines.flatMap fun x => match x with
    | some (d, _) => (List.range 64).map (lineByte d)
    | none => []).drop (pa % 64)).take n)

/-- A profile record is one that PROFILE_WRITE takes (R653, R654). -/
def profRecordOk (n : Nat) (b : List Byte) : Bool :=
  let f := leAt b
  let pl := f 4 2
  let fc := f 6 2
  let fl := f 8 2
  f 0 2 == 1 && f 2 1 == n && f 3 1 == 0 && f 10 1 ≤ 1 && [0, 4, 8].contains (f 11 1) && f 12 1 == 0 && f 13 3 == 0 &&
  f 48 76 == 0 && f 124 4 == crc32 (b.take 124) &&
  300 ≤ pl && pl ≤ 1100 && fc ≤ 3400 && fc % 25 == 0 && 800 ≤ fl && fl ≤ fc && fl % 25 == 0 &&
  ((List.range 10).all fun k => actionOk (k + 1) (bits (f 28 4) (2 * k) 2)) &&
  ([32, 36, 40, 44].all fun o =>
    let m := f o 4
    !bitN m 31 || (bits m 0 12 != 0 && bits m 16 12 != 0))

/-- A profile from its record (R653), without the reserved bits of its fields (R11). -/
def profParse (b : List Byte) : Prof :=
  let f := leAt b
  { plimit := f 4 2, fcap := f 6 2, floor := f 8 2, hash := f 10 1, scr := f 11 1
    votes := bits (f 16 8) 36 14 * 2 ^ 36, classOk := [24, 25, 26, 27].map fun o => f o 1 % 8, act := bits (f 28 4) 0 20
    meters := [32, 36, 40, 44].map fun o => bits (f o 4) 0 12 + bits (f o 4) 16 12 * 2 ^ 16 + bits (f o 4) 31 1 * 2 ^ 31 }

def mbProfileNext (s : State) : State :=
  let n := s.mbArg 0
  if 4 ≤ n then s.mbEnd 2
  else ((s.put pgSMITH Fld.PROFILE_NEXT n).put pgSMITH Fld.PROFILE_NEXT_V 1).mbEnd 0

def mbProfileWrite (s : State) : State :=
  let n := s.mbArg 0
  if 4 ≤ n then s.mbEnd 2
  else match s.readBytes (s.mbPa 1) 128 with
    | none => (s.readPoison (s.mbPa 1) 128).mbEnd 6
    | some b =>
      if !profRecordOk n b then s.mbEnd 2
      else ({ s with flash := { s.flash with prof := Tab.put n (profParse b) s.flash.prof
                                             bad := setBits (setBits s.flash.bad n 1 0) (4 + n) 1 0 } }).mbEnd 0

/-- PROFILE_LIVE once no quench is in progress (R48): limits of the profile and the balanced weights of the routes in force, in one
quench of groups 0 and 1. Where they apply, the profile becomes the one in force (log 159, DESIGN CHOICE). -/
def mbProfileLive (s : State) : State :=
  if s.quench.busy then s
  else
    let n := s.mbArg 0
    let pr := s.profOf n
    let s := s.shadowPut pgPWR Reg.PWR_LIMIT 0xFFFFFFFF (pr.plimit + pr.fcap * 2 ^ 16)
    let s := { s with routeBasePend := [6, 7].foldl (fun t k => Tab.put k (s.baseSet k) t) s.routeBasePend }
    let (rej, s) := s.smithQuench 3 false
    if rej == 0 then (s.put pgSMITH Fld.PROFILE_IN_FORCE n).mbEnd 0 else ((s.smithQuench 3 true).2).mbEnd 6

/-! ### Off, Banked (R624 to R629) -/

/-- The package enters Off by command (R629); what is lost, every command's end says. -/
def powerOff (s : State) : State := { s.mbEnd 0 with off := true }

/-- The first condition of R624 that fails. -/
def bankRefusal (s : State) : Option Nat :=
  if (List.range 8).any fun i => s.domState (42 + i) != 0 then some 1
  else if (List.range 16).any fun i => s.admitted i && [0, 1, 2, 3].any fun m => (s.lk i m .hub).st != 5 then some 2
  else if (s.pin pinWake).filt || (List.range 6).any fun n => (s.pin (pinPcie n)).filt && bitN (s.get pgPWR Fld.WAKE_EN_PCIE) n then some 3
  else if s.flag (pgHRTH 0) Fld.ROP_STAT_BUSY || !s.mem.spareChan.isEmpty || s.smith.autoOp.isSome then some 4
  else none

/-- Banked entry begins (R625): CLEAN over all memory with PACE = 1. -/
def mbBankedEnter (s : State) : State :=
  match s.bankRefusal with
  | some k => s.mbEnd 4 k
  | none =>
    let pg := pgHRTH 0
    let s := s.modPower fun p => { p with bank := 1, pace := s.get pg Fld.ROP_CFG_PACE, level := false }
    let s := (s.put pgPWR Fld.PWR_STAT_STATE 1).put pg Fld.ROP_CFG_PACE 1
    let s := ((s.put pg Fld.ROP_STAT_BUSY 1).put pg Fld.ROP_STAT_DONE 0).put pg Fld.ROP_STAT_OP 2
    { s with rop := { op := 2, base := 0, limit := 2 ^ 52 - 1 }, hearths := s.hearths.map fun (x : Hearth) => { x with ropSet := 0 } }

/-! ### Sites (R667 to R669) -/

/-- The boot site (R657). -/
def bootSite (s : State) : Option Nat := (List.range 16).find? fun i => s.admitted i && !s.foreignDie i

def mbSiteOffline (s : State) : State :=
  let i := s.mbArg 0
  if 16 ≤ i then s.mbEnd 2
  else if !s.populated i || (s.bootSite == some i && (List.range 16).any fun j => j != i && s.admitted j) then s.mbEnd 4
  else if !s.admitted i then (s.modSite i fun x => { x with pub := 3 }).mbEnd 0
  else (s.modSmith fun x => { x with site := i, phase := 1 }).freeRsvs i

/-- Every request and device completion of a site in quiesce has ended (step 1 of R667). -/
def siteQuiet (s : State) (i : Nat) : Bool :=
  let mine := fun (p : Pkt) => isDieNode p.src && siteOf p.src == i
  let owed := fun (p : Pkt) => (p.op == 0x78 || p.op == 0x79) && isDieNode p.dst && siteOf p.dst == i
  s.get (pgSITE i) Fld.BND_OUT_COUNT == 0 &&
  !(s.net.any fun e => (mine e.p && (p0 e.p.op)) || owed e.p) && !(s.groups.any fun g => g.nonp.any fun q => mine q.p) &&
  !(s.sites.any fun x => x.dev.any fun d => mine d.p)
where p0 (op : BitVec 7) : Bool := op == 0x70 || op == 0x71

def siteQuiesceDone (s : State) : State :=
  let i := s.smith.site
  if s.smith.op == some 0x10 && s.smith.phase == 1 && s.smith.running && s.siteQuiet i then
    (s.modSmith fun x => { x with phase := 2 }).drainStart { op := 0, src := nodeModule i 0 }
  else s

/-- The Drain that SITE runs for SITE_OFFLINE completes (R281 to R288), and every home starts its recall walk. -/
def siteDrainDone (s : State) : State :=
  let i := s.smith.site
  if s.smith.op != some 0x10 || s.smith.phase != 2 || !s.smith.running then s
  else match (s.siteAt i).drains with
    | [] => s
    | d :: rest =>
      if d.p.op != 0 || !s.drainReady d then s
      else
        let s := (s.modSite i fun x => { x with drains := rest }).pendUpd i
        let s := match d.fail with
          | none => s
          | some f => s.drainFailed i f
        let st := if d.fail.isSome then 2 else 0
        let s := s.modSmith fun x => { x with phase := 3, args := [i, st] }
        forAll (List.range 64) (fun h s =>
          let s := s.modHome h fun x => { x with recallOp := some (i, 0) }
          (s.put (pgHOME h) Fld.HOME_LOSS_STAT_RECALL 1).put (pgHOME h) Fld.HOME_LOSS_STAT_RSITE i) s

/-- The end of SITE_OFFLINE (step 6): the domain has dropped, or another slot holds it. -/
def offlinePublish (s : State) : State :=
  let i := s.smith.site
  if s.smith.op == some 0x10 && s.smith.phase == 5 && (s.domState i == 0 || s.flag pgPWR (Fld.DOM_STAT_TARGET i)) then
    s.mbEnd 0 0 (s.mbArg 1)
  else s

/-- The recall walk of every slice has ended: fence, power, publish (steps 4 to 6 of R667). -/
def recallDone (s : State) : State :=
  let i := s.smith.site
  let walked := s.homes.all fun (h : Home) =>
    (match h.recallOp with
      | some (_, set) => decide (12288 ≤ set)
      | none => false) && !(h.trk.any fun e => e.2.kind == .recall i)
  if s.smith.op == some 0x10 && s.smith.phase == 3 && s.smith.running && walked then
    let s := { s with homes := s.homes.map fun (h : Home) => { h with recallOp := none } }
    let s := forAll (List.range 64) (fun h s => s.put (pgHOME h) Fld.HOME_LOSS_STAT_RECALL 0) s
    let s := s.modSmith fun x => { x with phase := 5 }
    let s := s.siteFence i true 3
    ([0, 1, 2, 3].foldl (fun s m => s.disableModule i m) s).offlinePublish
  else s

def mbSiteOnline (s : State) : State :=
  let i := s.mbArg 0
  if 16 ≤ i then s.mbEnd 2
  else if !s.populated i || s.admitted i || !s.walkClear i || (s.siteAt i).trav.isSome ||
      s.groupPending (2 ^ (s.qGroup (pgSITE i)).getD 2) then s.mbEnd 4
  else ((s.modSmith fun x => { x with site := i, startPa := s.mbPa 1 }).siteReset i).travStart i

/-! ### Routes and modules (R670 to R673) -/

/-- The pending values of a route set: its routes and balanced weights in every FAB page (R671). -/
def loadRouteSet (s : State) (set : Nat) : State :=
  ((List.range 8).foldl (fun s k => s.routeSetWrite (pgFAB k) set) s).modSmith fun x => { x with routeSet := set }

/-- Step 1 of R672: injections are held. -/
def routeHold (s : State) : State :=
  ({ s with fab := { s.fab with hold := true } }).modSmith fun x => { x with hold := s.time, phase := 10 }

/-- Every router queue is empty and every credit has returned (step 2 of R672). -/
def fabricEmpty (s : State) : Bool :=
  s.fab.used.isEmpty && s.fab.owed.isEmpty && !(s.net.any fun e => match e.at_ with
    | .rtr _ _ => true
    | .rx => true
    | _ => false)

/-- The change of routes ends: its command, or the automatic operation. -/
def routeEnd (s : State) (status : Nat) : State :=
  let s := { s with fab := { s.fab with hold := false } }
  match s.smith.autoOp with
  | some (2, _) => s.modSmith fun x => { x with autoOp := none, phase := 0 }
  | _ => s.mbEnd status

/-- Steps 3 and 4 of R672. -/
def routeQuiesceDone (s : State) : State :=
  if s.fab.hold && s.smith.running && s.fabricEmpty && !s.quench.busy then
    let (rej, s) := s.smithQuench 2 false
    s.routeEnd (if rej == 0 then 0 else 6)
  else s

def routeQuiesceTimeout (s : State) : State :=
  if s.fab.hold && s.smith.running && !s.fabricEmpty && s.smith.hold + 20000 ≤ s.time then s.routeEnd 7 else s

/-- The alternate set of a module that has retired (R671): a second module of the site whose set is in force keeps it, with a record. -/
def alternate (s : State) (i m : Nat) : Option Nat × State :=
  let k := s.smith.routeSet
  if k != 0 && (k - 1) / 4 == i then
    (none, s.record { typ := 0x13, cls := 3, source := srcSmithRecord, page := pgSMITH, sub := 4, words := [i + 16 * m], fires := true })
  else (some (1 + 4 * i + m), s)

def mbModuleRetire (s : State) : State :=
  let i := s.mbArg 0
  let m := s.mbArg 1
  if 16 ≤ i || 4 ≤ m || !s.admitted i then s.mbEnd 2
  else if !([0, 1, 2, 3].any fun k => k != m && isUp (s.lk i k .hub).st) || s.groupPending 2 then s.mbEnd 4
  else
    let s := (s.retireSide i m .hub).retireSide i m .die
    match s.alternate i m with
    | (none, s) => s.mbEnd 0
    | (some k, s) => (s.loadRouteSet k).routeHold

/-- Smith firmware answers a spontaneous retirement (R665, R671), while no other in-service operation runs (R663). -/
def alternateApply (s : State) (i m : Nat) : State :=
  if !s.smith.running || s.fab.hold || s.serving || s.quench.busy || !s.admitted i || (s.lk i m .hub).st != 7 ||
      s.smith.routeSet == 1 + 4 * i + m then s
  else match s.alternate i m with
    | (none, s) => s
    | (some k, s) =>
      let s := s.smithCancel 2
      ((s.modSmith fun x => { x with autoOp := some (2, 4 * i + m) }).loadRouteSet k).routeHold

def mbModuleRepair (s : State) : State :=
  let i := s.mbArg 0
  let m := s.mbArg 1
  if 16 ≤ i || 4 ≤ m then s.mbEnd 2
  else if (s.lk i m .hub).st != 7 || s.groupPending 2 then s.mbEnd 4
  else
    let p := pgLNK i
    let s := ((s.setReg p (Reg.LNK_RXFAIL0 m) 0).setReg p (Reg.LNK_RXFAIL1 m) 0).setReg p (Reg.LNK_RXFAIL2 m) 0
    ((s.resetModule i m).enableModule i m).modSmith fun x => { x with phase := 1 }

/-- A route crosses a router (R673). -/
def crosses (rt dst : Nat) : Nat → Nat → BitVec 40 → Bool
  | 0, _, _ => false
  | fuel + 1, r, route =>
    r == rt ||
    (let o := routeHead route
     o != 15 && Config.portKind r o == 1 && crosses rt dst fuel (Config.portPeer r o).toNat (routeShift route))

/-- The VALID pending route entries: source, destination and value; those of a pending set stand for every pair of its page. -/
def validPending (s : State) : List (Nat × Nat × Nat) :=
  let sets := (s.routeBasePend.filter fun e => e.1 < 6).flatMap fun e => (List.range 8192).map fun i => (32 * e.1 + i / 256, i % 256)
  ((s.routesPend.map fun (e : Nat × Nat) => (e.1 / 256, e.1 % 256)) ++ sets).filterMap fun (src, dst) =>
    if bitN (s.routeProp src dst) 40 then some (src, dst, s.routeProp src dst) else none

def mbRouteSwap (s : State) : State :=
  let rt := bits (s.mbArg 0) 0 7
  let bad := bitN (s.mbArg 0) 7 && (decide (96 ≤ rt) || ((List.range 15).any fun o => 2 ≤ (Config.portKind rt o).toNat) ||
    s.validPending.any fun (src, dst, v) => crosses rt dst 10 (injectPort (BitVec.ofNat 8 src) 0).1 (BitVec.ofNat 40 v))
  if bad then s.mbEnd 2 else s.routeHold

/-! ### Firmware (R647 to R650, R674, R675) -/

/-- A Smith restart begins (R647, R648). -/
def smithDown (s : State) : State :=
  (s.count pgSMITH Fld.RESET_CAUSE_SMITH_RST).modSmith fun x => { x with running := false, down := s.time, bmcBusy := none }

def mbFwStage (s : State) : State :=
  match s.readBytes (s.mbPa 0) (min (s.mbArg 2) 0x400000) with
  | none => (s.readPoison (s.mbPa 0) (min (s.mbArg 2) 0x400000)).mbEnd 6
  | some b =>
    if s.mbArg 2 == 0 || 0x400000 < s.mbArg 2 || !Config.imageOk b then s.mbEnd 4
    else
      let k := 1 - s.flash.slot
      let s := { s with flash := { s.flash with ver := modNth s.flash.ver k fun _ => (Config.imageVer b).toNat
                                                good := modNth s.flash.good k fun _ => true
                                                trust := modNth s.flash.trust k fun _ => Config.imageTrust b } }
      (s.put pgSMITH Fld.FW_STAT_STAGED 1).mbEnd 0

def mbFwActivate (s : State) : State :=
  if !s.flag pgSMITH Fld.FW_STAT_STAGED then s.mbEnd 4
  else
    let s := { s with flash := { s.flash with slot := 1 - s.flash.slot } }
    (s.put pgSMITH Fld.FW_STAT_TRIAL 1).smithDown.modSmith fun x => { x with trial := some s.time, phase := 1 }

/-- The trial fails: the previous image comes back (R675). -/
def fwTrialTimeout (s : State) : State :=
  match s.smith.trial with
  | none => s
  | some t =>
    if s.smith.running || s.time < t + 2000000 then s
    else
      let s := { s with flash := { s.flash with slot := 1 - s.flash.slot } }
      let s := (s.put pgSMITH Fld.FW_STAT_TRIAL 0).put pgSMITH Fld.FW_STAT_FALLBACK 1
      s.smithDown.modSmith fun x => { x with trial := none, phase := 2 }

/-- What a restart makes of the operation it met (R650). -/
def restartOp (s : State) : State :=
  match s.smith.op with
  | none => s
  | some 0x19 => if s.smith.phase == 2 then s.mbEnd 6 else ((s.put pgSMITH Fld.FW_STAT_STAGED 0).put pgSMITH Fld.FW_STAT_FALLBACK 0).mbEnd 0
  | some 0x1A => s.mbEnd 0
  | some 0x10 => if s.smith.phase ≤ 3 then s.offlineEnd 5 else s
  | some 0x11 =>
    let i := s.smith.site
    if (s.siteAt i).trav.isSome then
      let s := (s.modSite i fun x => { x with trav := none }).setSlot i 0 false
      ([0, 1, 2, 3].foldl (fun s m => s.disableModule i m) s).mbEnd 5
    else s
  | some 0x20 => s.chanSpareEnd s.smith.site 5
  | some 0x0A => if s.power.bank == 1 || s.power.bank == 2 then s.bankAbort else s
  | some 0x12 => s.routeEnd 5
  | some 0x13 => s.routeEnd 5
  | some 0x14 => s.routeEnd 5
  | some 0x30 => ({ s with lanes := s.lanes.filter fun e => e.2.2 != 1 }).mbEnd 5
  | some 0x03 => s.mbEnd 5
  | some 0x28 => s.mbEnd 5
  | some _ => s

/-- The automatic operation a restart met is abandoned, with its holds (R650). -/
def restartAuto (s : State) : State :=
  match s.smith.autoOp with
  | some (1, st) => s.chanSpareEnd st 5
  | some (_, _) => (s.routeEnd 5).modSmith fun x => { x with routeSet := 0 }
  | none => s

/-- Smith firmware runs again (R649, R650). -/
def smithResume (s : State) : State :=
  if s.smith.running then s
  else
    let notes := s.smith.pauseNotes
    let s := (s.put pgSMITH Fld.FW_STAT_TRIAL 0).modSmith fun x => { x with running := true, trial := none, pauseNotes := [] }
    let s := s.fwStat.restartAuto.restartOp
    let s := notes.foldl (fun s r => s.record r) s
    (s.optRefresh 0).optRefresh 1

/-! ### Memory, Hearth, ports (R343, R344, R370, R526) -/

def mbChanSpare (s : State) : State :=
  let st := s.mbArg 0
  let k := s.mbArg 1
  if 12 ≤ st || 16 ≤ k then s.mbEnd 2
  else if s.chanSpareRefused st then s.mbEnd 4
  else (s.modSmith fun x => { x with site := st }).chanSpareStart st k

/-- HEARTH_OFFLINE (R343): its slices clean and leave, and slot 0 of the domain votes off. The command waits for the domain's fall where no
other slot votes; where one does, the group is offline in a domain that stays on, and the command ends OK (log 170, DESIGN CHOICE). -/
def mbHearthOffline (s : State) : State :=
  let g := s.mbArg 0
  if 8 ≤ g then s.mbEnd 2
  else if g == 0 || s.scrWays != 0 || s.flag (pgHRTH 0) Fld.ROP_STAT_BUSY || bitN (s.get (pgHRTH 0) Fld.HRTH_GSTAT_OFFLINE) g then s.mbEnd 4
  else
    let s := s.modSmith fun x => { x with site := g }
    let s := forAll (List.range 8) (fun i s =>
      ((s.unlockAll (8 * g + i)).ropSlice (8 * g + i) 3).modHearth (8 * g + i) fun _ => { mode := 2 }) s
    let s := (s.put (pgHRTH 0) Fld.HRTH_GSTAT_OFFLINE (setBits (s.get (pgHRTH 0) Fld.HRTH_GSTAT_OFFLINE) g 1 1)).bypassMode
    let s := s.setSlot (28 + g) 0 false
    if s.flag pgPWR (Fld.DOM_STAT_TARGET (28 + g)) then s.mbEnd 0 else s

def mbHearthOnline (s : State) : State :=
  let g := s.mbArg 0
  if 8 ≤ g then s.mbEnd 2
  else if !bitN (s.get (pgHRTH 0) Fld.HRTH_GSTAT_OFFLINE) g then s.mbEnd 4
  else
    let s := (s.modSmith fun x => { x with site := g }).setSlot (28 + g) 0 true
    if s.domState (28 + g) == 2 then s.hearthBack g else s

/-- PORT_MODE once no quench is in progress. -/
def mbPortMode (s : State) : State :=
  let n := s.mbArg 0
  if s.quench.busy then s
  else if s.pageOff (pgNEP n) then s.mbEnd 6
  else
    let w := Fld.PORT_CFG_MODE
    let s := s.shadowPut (pgNEP n) w.off ((2 ^ w.width - 1) * 2 ^ w.lo) (s.mbArg 1 * 2 ^ w.lo)
    let (rej, s) := s.smithQuench 0x100 false
    if rej == 0 then s.mbEnd 0 else ((s.smithQuench 0x100 true).2).mbEnd 6

/-! ### The mailbox -/

/-- The clients of a command (R664): 1 host, 2 BMC, 3 both, 0 unlisted. -/
def mbClients (code : Nat) : Nat :=
  if [0x01, 0x02, 0x03, 0x08, 0x09, 0x1A, 0x28, 0x30].contains code then 3
  else if [0x04, 0x0A, 0x10, 0x11, 0x12, 0x13, 0x14, 0x18, 0x19, 0x20, 0x21, 0x22].contains code then 1
  else if code == 0x38 then 2
  else 0

/-- The command is run. -/
def mbRun (s : State) (code : Nat) (bmc : Bool) : State :=
  match code with
  | 0x01 => s.mbEnd 0 (nthD s.flash.ver s.flash.slot 0)
  | 0x02 => s.mbProfileNext
  | 0x03 => if 4 ≤ s.mbArg 0 then s.mbEnd 2 else if s.groupPending 3 then s.mbEnd 4 else s.mbProfileLive
  | 0x04 => s.mbProfileWrite
  | 0x08 => s.warmStart (if bmc then 3 else 2)
  | 0x09 => s.powerOff
  | 0x0A => s.mbBankedEnter
  | 0x10 => s.mbSiteOffline
  | 0x11 => s.mbSiteOnline
  | 0x12 => s.mbModuleRetire
  | 0x13 => s.mbModuleRepair
  | 0x14 => s.mbRouteSwap
  | 0x18 => s.mbFwStage
  | 0x19 => s.mbFwActivate
  | 0x1A => s.smithDown
  | 0x20 => s.mbChanSpare
  | 0x21 => s.mbHearthOffline
  | 0x22 => s.mbHearthOnline
  | 0x28 => if 4 ≤ s.mbArg 0 || 3 ≤ s.mbArg 1 then s.mbEnd 2 else if s.groupPending 0x100 then s.mbEnd 4 else s.mbPortMode
  | 0x30 => s.embRelease (s.mbArg 0)
  | _ =>
    if 50 ≤ s.mbArg 0 || s.mbArg 1 < 4 || 7 < s.mbArg 1 then s.mbEnd 2
    else (s.setSlot (s.mbArg 0) (s.mbArg 1) (s.mbArg 2 % 2 == 1)).mbEnd 0

/-- A command reaches Smith firmware: a write of MB_CMD by host software, with MB_ARG as it stands, or an I3C write of the BMC (R662,
R663). -/
def mailbox (s : State) (bmc : Bool) (code tag : Nat) (args : List Nat) : State :=
  let pg := pgSMITH
  if s.power.warm != 0 || s.power.bootFail then s
  else if s.mbBusy then
    if !bmc then s.raise1 pg Fld.MB_STAT_OVERLAP
    else if s.smith.running then s.modSmith fun x => { x with bmcBusy := some (code % 256, tag % 256) }
    else s
  else
    let a := if bmc then args.map (· % 2 ^ 32) else (List.range 4).map fun i => s.reg pg (Reg.MB_ARG i)
    let s := (s.put pg Fld.MB_STAT_BUSY 1).put pg Fld.MB_STAT_DONE 0
    let s := s.modSmith fun x => { x with op := some (code % 256), bmc := bmc, args := a, tag := tag % 256, phase := 0, site := 0, startPa := 0 }
    let code := code % 256
    if !bitN (mbClients code) (b2n bmc) then s.mbEnd 1
    else if s.smith.autoOp.isSome && inService code then s.mbEnd (if code == 0x0A || code == 0x19 then 4 else 3)
    else s.mbRun code bmc

/-- Smith firmware goes on with an operation that waited (R660 to R674). -/
def smithPoll (s : State) : State :=
  if !s.smith.running then s
  else match s.smith.op, s.smith.phase with
    | some 0x10, 5 => s.offlinePublish
    | some 0x13, 1 =>
      let st := (s.lk (s.mbArg 0) (s.mbArg 1) .hub).st
      if isUp st then (s.loadRouteSet 0).routeHold else if st == 7 then s.mbEnd 6 else s
    | some 0x03, _ => s.mbProfileLive
    | some 0x28, _ => s.mbPortMode
    | _, _ => s

/-! ### The package Plat (R658, R659, R767) -/

/-- The bytes of the Plat. -/
def platByte (s : State) (i : Nat) : Nat :=
  let le := fun (v k : Nat) => v / 256 ^ k % 256
  if i < 64 then
    match i with
    | 0 => 1 | 2 => le 320 0 | 3 => le 320 1
    | 4 => s.part
    | 5 => s.get pgSMITH Fld.PROFILE_IN_FORCE
    | 6 => b2n s.quad
    | 7 => s.scrWays
    | 8 => b2n (!s.smith.startup)
    | 12 => le (nthD s.flash.ver s.flash.slot 0) 0
    | 13 => le (nthD s.flash.ver s.flash.slot 0) 1
    | 16 => le (maskOf ((List.range 12).filter fun i => s.flag (pgSTK i) Fld.STK_STAT_SPARE_USED)) 0
    | 17 => le (maskOf ((List.range 12).filter fun i => s.flag (pgSTK i) Fld.STK_STAT_SPARE_USED)) 1
    | _ => 0
  else
    let k := (i - 64) / 16
    let p := pgSITE k
    match i % 16 with
    | 0 => if s.populated k then (s.siteAt k).pub else 0
    | 1 => s.get p Fld.TRAV_RESULT_RESULT
    | 2 => s.get p Fld.TRAV_RESULT_CLASS
    | 3 => s.get p Fld.TRAV_RESULT_LEVEL
    | 4 => le (s.datumField k 4 2) 0
    | 5 => le (s.datumField k 4 2) 1
    | 6 => le (s.datumField k 6 2) 0
    | 7 => le (s.datumField k 6 2) 1
    | 8 => le (32 * k) 0
    | 9 => le (32 * k) 1
    | 10 => s.get p Fld.TRAV_RESULT_CORES
    | 11 => maskOf ([0, 1, 2, 3].filter fun m => isUp (s.lk k m .hub).st)
    | _ => 0

/-- Smith firmware brings PKG.PLAT up to date, between two increments of PLAT_SEQ (R659). -/
def platUpdate (s : State) : State :=
  if !s.smith.running || s.power.warm != 0 then s
  else
    let new := (List.range 80).map fun w => ((List.range 4).map fun b => s.platByte (4 * w + b) * 256 ^ b).sum
    let old := (List.range 80).map fun w => s.reg pgPKG (Reg.PLAT w)
    if new == old then s
    else
      let s := s.bumpMod pgPKG Fld.PLAT_SEQ_SEQ
      ((List.range 80).foldl (fun s w => s.setReg pgPKG (Reg.PLAT w) (nthD new w 0)) s).bumpMod pgPKG Fld.PLAT_SEQ_SEQ

/-! ### The BMC link (R663, R676) -/

/-- The data byte of R676; a warm reset runs until its steps 6 to 9 of R655 have ended (R660). -/
def bmcState (s : State) : Nat :=
  if s.power.bootFail then 5
  else if s.flag pgEVT Fld.EVT_STAT_FATAL || s.alert.pll || s.alert.supply || s.alert.thermal then 4
  else if s.power.warm != 0 then 2
  else if s.smith.startup then (if s.get pgSMITH Fld.RESET_CAUSE_LAST == 0 then 0 else 2)
  else if s.banked then 3
  else 1

/-- A private read of MB_STAT by the BMC (R663). -/
def bmcRead (s : State) : State :=
  let v := setBits (s.reg pgSMITH Reg.MB_STAT) 0 1 (b2n s.mbBusy)
  match s.smith.bmcBusy with
  | none => s.modSmith fun x => { x with bmcData := v }
  | some (code, tag) =>
    s.modSmith fun x => { x with bmcBusy := none, bmcData := setBits (setBits (setBits v 4 3 3) 8 8 tag) 16 8 code }

end State

/-- PING (R664). -/
def execPing (bmc : Bool) (tag : Nat) (args : List Nat) (s : State) : Host.Outcome State Fault Refusal := s.act (·.mailbox bmc 0x01 tag args)
/-- MB_UNKNOWN_CMD (R664): a code the table does not list, or one its client may not send. -/
def execMbUnknownCmd (bmc : Bool) (code tag : Nat) (args : List Nat) (s : State) : Host.Outcome State Fault Refusal :=
  s.act fun s => if bitN (State.mbClients (code % 256)) (b2n bmc) then s else s.mailbox bmc code tag args
/-- PROFILE_NEXT (R44). -/
def execProfileNext (bmc : Bool) (tag : Nat) (args : List Nat) (s : State) : Host.Outcome State Fault Refusal :=
  s.act (·.mailbox bmc 0x02 tag args)
/-- PROFILE_LIVE (R48). -/
def execProfileLive (bmc : Bool) (tag : Nat) (args : List Nat) (s : State) : Host.Outcome State Fault Refusal :=
  s.act (·.mailbox bmc 0x03 tag args)
/-- PROFILE_WRITE (R654). -/
def execProfileWrite (bmc : Bool) (tag : Nat) (args : List Nat) (s : State) : Host.Outcome State Fault Refusal :=
  s.act (·.mailbox bmc 0x04 tag args)
/-- WARM_RESET (R660). -/
def execWarmReset (bmc : Bool) (tag : Nat) (args : List Nat) (s : State) : Host.Outcome State Fault Refusal :=
  s.act (·.mailbox bmc 0x08 tag args)
/-- POWER_OFF (R629). -/
def execPowerOff (bmc : Bool) (tag : Nat) (args : List Nat) (s : State) : Host.Outcome State Fault Refusal :=
  s.act (·.mailbox bmc 0x09 tag args)
/-- BANKED_ENTER (R624). -/
def execBankedEnter (bmc : Bool) (tag : Nat) (args : List Nat) (s : State) : Host.Outcome State Fault Refusal :=
  s.act (·.mailbox bmc 0x0A tag args)
/-- SITE_OFFLINE (R667). -/
def execSiteOffline (bmc : Bool) (tag : Nat) (args : List Nat) (s : State) : Host.Outcome State Fault Refusal :=
  s.act (·.mailbox bmc 0x10 tag args)
/-- SITE_ONLINE (R669). -/
def execSiteOnline (bmc : Bool) (tag : Nat) (args : List Nat) (s : State) : Host.Outcome State Fault Refusal :=
  s.act (·.mailbox bmc 0x11 tag args)
/-- MODULE_RETIRE (R671). -/
def execModuleRetire (bmc : Bool) (tag : Nat) (args : List Nat) (s : State) : Host.Outcome State Fault Refusal :=
  s.act (·.mailbox bmc 0x12 tag args)
/-- MODULE_REPAIR (R671). -/
def execModuleRepair (bmc : Bool) (tag : Nat) (args : List Nat) (s : State) : Host.Outcome State Fault Refusal :=
  s.act (·.mailbox bmc 0x13 tag args)
/-- ROUTE_SWAP (R673). -/
def execRouteSwap (bmc : Bool) (tag : Nat) (args : List Nat) (s : State) : Host.Outcome State Fault Refusal :=
  s.act (·.mailbox bmc 0x14 tag args)
/-- FW_STAGE (R674). -/
def execFwStage (bmc : Bool) (tag : Nat) (args : List Nat) (s : State) : Host.Outcome State Fault Refusal :=
  s.act (·.mailbox bmc 0x18 tag args)
/-- FW_ACTIVATE (R674). -/
def execFwActivate (bmc : Bool) (tag : Nat) (args : List Nat) (s : State) : Host.Outcome State Fault Refusal :=
  s.act (·.mailbox bmc 0x19 tag args)
/-- SMITH_RESTART (R647). -/
def execSmithRestart (bmc : Bool) (tag : Nat) (args : List Nat) (s : State) : Host.Outcome State Fault Refusal :=
  s.act (·.mailbox bmc 0x1A tag args)
/-- CHAN_SPARE (R370). -/
def execChanSpare (bmc : Bool) (tag : Nat) (args : List Nat) (s : State) : Host.Outcome State Fault Refusal :=
  s.act (·.mailbox bmc 0x20 tag args)
/-- HEARTH_OFFLINE (R343). -/
def execHearthOffline (bmc : Bool) (tag : Nat) (args : List Nat) (s : State) : Host.Outcome State Fault Refusal :=
  s.act (·.mailbox bmc 0x21 tag args)
/-- HEARTH_ONLINE (R344). -/
def execHearthOnline (bmc : Bool) (tag : Nat) (args : List Nat) (s : State) : Host.Outcome State Fault Refusal :=
  s.act (·.mailbox bmc 0x22 tag args)
/-- PORT_MODE (R526). -/
def execPortMode (bmc : Bool) (tag : Nat) (args : List Nat) (s : State) : Host.Outcome State Fault Refusal :=
  s.act (·.mailbox bmc 0x28 tag args)
/-- EMBER_RELEASE (R541). -/
def execEmberRelease (bmc : Bool) (tag : Nat) (args : List Nat) (s : State) : Host.Outcome State Fault Refusal :=
  s.act (·.mailbox bmc 0x30 tag args)
/-- VOTE (R664). -/
def execVote (bmc : Bool) (tag : Nat) (args : List Nat) (s : State) : Host.Outcome State Fault Refusal := s.act (·.mailbox bmc 0x38 tag args)

/-- SITE_QUIESCE_DONE (R667). -/
def execSiteQuiesceDone (s : State) : Host.Outcome State Fault Refusal := s.act (·.siteQuiesceDone)
/-- SITE_DRAIN_DONE (R667). -/
def execSiteDrainDone (s : State) : Host.Outcome State Fault Refusal := s.act (·.siteDrainDone)
/-- RECALL_DONE (R667). -/
def execRecallDone (s : State) : Host.Outcome State Fault Refusal := s.act (·.recallDone)
/-- ALTERNATE_ROUTE_APPLY (R671). -/
def execAlternateRouteApply (site m : Nat) (s : State) : Host.Outcome State Fault Refusal :=
  s.act fun s => if site < 16 && m < 4 then s.alternateApply site m else s
/-- ROUTE_QUIESCE_DONE (R672). -/
def execRouteQuiesceDone (s : State) : Host.Outcome State Fault Refusal := s.act (·.routeQuiesceDone)
/-- ROUTE_QUIESCE_TIMEOUT (R672). -/
def execRouteQuiesceTimeout (s : State) : Host.Outcome State Fault Refusal := s.act (·.routeQuiesceTimeout)
/-- FW_TRIAL_TIMEOUT (R675). -/
def execFwTrialTimeout (s : State) : Host.Outcome State Fault Refusal := s.act (·.fwTrialTimeout)
/-- SMITH_WATCHDOG (R648). -/
def execSmithWatchdog (s : State) : Host.Outcome State Fault Refusal := s.act fun s => if s.smith.running then s.smithDown else s
/-- SMITH_RESUME (R649). -/
def execSmithResume (s : State) : Host.Outcome State Fault Refusal := s.act fun s => if s.power.bootFail then s else s.smithResume
/-- BANKED_CLEAN_DONE (R625): the CLEAN has ended; PACE is restored. -/
def execBankedCleanDone (s : State) : Host.Outcome State Fault Refusal :=
  s.act fun s =>
    if s.power.bank == 1 && s.smith.running && !s.flag (pgHRTH 0) Fld.ROP_STAT_BUSY then
      (s.put (pgHRTH 0) Fld.ROP_CFG_PACE s.power.pace).modPower fun p => { p with bank := 2 }
    else s
/-- SELF_REFRESH_DONE (R384). -/
def execSelfRefreshDone (s : State) : Host.Outcome State Fault Refusal :=
  s.act fun s =>
    if s.power.bank == 2 && s.mem.wr.isEmpty && s.mem.rowCur.isEmpty then
      let s := { s with mem := { s.mem with debt := [], repay := [] } }
      let s := forAll (List.range 24) (fun n s => s.put (pgMC n) Fld.MC_STAT_SR 1) s
      s.modPower fun p => { p with bank := 3, bankSince := s.time }
    else s
/-- BANKED_COMMIT_END (R625, R626): 15 ns after the window began. -/
def execBankedCommitEnd (s : State) : Host.Outcome State Fault Refusal :=
  s.act fun s =>
    if s.power.bank == 3 && s.power.bankSince + 15 ≤ s.time then
      let level := s.power.level
      let s := (s.put pgPWR Fld.PWR_STAT_STATE 2).modPower fun p => { p with bank := 0, bankSince := s.time, level := false }
      let s := if s.smith.op == some 0x0A then s.mbEnd 0 else s
      if level then s.leaveBanked false 0 else s
    else s
/-- BANKED_EXIT_DONE (R627); the 20 us of an interrupt message did not run since Banked began (R692). -/
def execBankedExitDone (s : State) : Host.Outcome State Fault Refusal :=
  s.act fun s =>
    if s.get pgPWR Fld.PWR_STAT_STATE == 3 then
      let s := forAll (List.range 24) (fun n s => s.put (pgMC n) Fld.MC_STAT_SR 0) s
      let s := { s with sites := s.sites.map fun (x : Site) => { x with intr := x.intr.map fun (y : IntrMsg) =>
        { y with since := y.since + (s.time - max y.since s.power.bankSince) } } }
      (List.range 16).foldl (fun s i => s.intrPump i) (s.put pgPWR Fld.PWR_STAT_STATE 0)
    else s
/-- BMC_HEARTBEAT (R652, R676): an In-Band Interrupt, every 100 ms; where no image booted, the boot ROM sends it. -/
def execBmcHeartbeat (s : State) : Host.Outcome State Fault Refusal :=
  s.act fun s =>
    if (s.smith.running || s.power.bootFail) && s.smith.beat + 100000000 ≤ s.time then
      s.modSmith fun x => { x with beat := s.time, ibi := some s.bmcState }
    else s
/-- BMC_MB_STAT_READ (R663). -/
def execBmcMbStatRead (s : State) : Host.Outcome State Fault Refusal := s.act fun s => if s.smith.running then s.bmcRead else s
/-- PLAT_UPDATE (R659, R767): Smith firmware updates the Plat, and goes on with an operation whose wait has ended. -/
def execPlatUpdate (s : State) : Host.Outcome State Fault Refusal := s.act fun s => s.smithPoll.platUpdate
/-- START_RECEIVED (R657): a Qorsy C32 takes its start PA. -/
def execStartReceived (site m pa : Nat) (w : List (List Nat)) (s : State) : Host.Outcome State Fault Refusal :=
  s.actDom (·.lmWhen site m .die [4] 0x63 [pa] w fun a s => s.modDie site fun d => { d with start := some (nthD a 0 0) })

end Sys2Proof.Machine
end

