-- ==== Sys2Proof/Machine/RegAccess.lean ====
section
/-! DEFINITION. Accesses to the registers of the control region (R53 to R86): reads with what each register shows, clearing reads,
writes by field type, the bit-alias window, the shadow view, the page header, and the refusals of R62, R65, R74 and R78. -/

namespace Sys2Proof.Machine

namespace State

/-! ### What each register shows -/

/-- The page header (R76). -/
def headerValue (s : State) (p off : Nat) : Nat :=
  if off == 0x00 then pageInst p % 256 + pageType p * 256
  else if off == 0x04 then 0x0100
  else if off == 0x08 then
    b2n (s.qGroup p).isSome + 2 * b2n (instrumented p) + 4 * b2n (!(p == pgPKG || (pgFAB 0 ≤ p && p ≤ pgFAB 6)))
  else if off == Reg.PAGE_STAT then
    let v := s.reg p Reg.PAGE_STAT
    b2n (!s.pageOff p && (summarised p).any fun f => s.get p f != 0) + 2 * b2n (s.pagePending p) + 4 * b2n (s.pageOff p) +
      bits v 3 2 * 8
  else if off == Reg.PAGE_QGRP then (s.qGroup p).getD 0
  else if off == Reg.PAGE_CFG then s.reg p off % 2
  else 0

/-- Tracker entries of a home that a class holds (R225). -/
def trkHeld (s : State) (h c : Nat) : Nat :=
  ((s.homeAt h).trk.filter fun e => match e.2.held with
    | .reserved k => k == c
    | .shared k => k == c
    | .rsvEntry => false).length

/-- The directory entry that HOME_DIR_SEL selects (R259), word 0 to 2. -/
def dirWord (s : State) (h k : Nat) : Nat :=
  let p := pgHOME h
  let i := s.get p Fld.HOME_DIR_SEL_WAY
  let w := nthD (s.dirAt h (s.get p Fld.HOME_DIR_SEL_SET)) i {}
  let pa := paOf w.line
  let repl := (s.homeAt h).trk.any fun e => e.2.victim == some (w.line, i)
  match k with
  | 0 => if w.st == 0 then 0 else bits pa 10 32
  | 1 => (if w.st == 0 then 0 else bits pa 42 10) + w.st * 2 ^ 10 + b2n (w.st != 0 && s.lineBusy h w.line) * 2 ^ 12 +
         b2n (w.st != 0 && repl) * 2 ^ 13 + bits w.age 0 4 * 2 ^ 14
  | _ => if w.st == 0 then 0 else bits w.pv 0 16 + (if w.st == 1 then bits w.lead 0 4 * 2 ^ 16 + b2n w.lv * 2 ^ 20 else 0)

/-- Ways of a slice locked or reserved for range `i`, and those reserved that hold no line (R324). -/
def rangeWays (s : State) (h i : Nat) (emptyOnly : Bool) : Nat :=
  (((s.hearthAt h).ways.flatMap fun e => e.2).filter fun w => match w.lock with
    | .locked r => r == i && !emptyOnly
    | .reserved r _ => r == i
    | .none => false).length

/-- The router that RTR_SEL of a FAB page selects. -/
def selRouter (s : State) (p : Nat) : Nat := 48 * (p - pgFAB 6) + s.get p Fld.RTR_SEL_RTR

/-- The route entry that RT_SEL of a FAB page selects: source and destination. -/
def selRoute (s : State) (p : Nat) : Nat × Nat := (32 * (p - pgFAB 0) + s.get p Fld.RT_SEL_SRC, s.get p Fld.RT_SEL_DST)

/-- A windowed register of a FAB page (R146): live, or with `pend` its pending value. -/
def windowValue (s : State) (p k : Nat) (pend : Bool) : Nat :=
  if k < 2 then
    let (src, dst) := s.selRoute p
    let e := if pend then s.routeProp src dst else s.route src dst
    if k == 0 then bits e 0 32 else bits e 32 9
  else
    let r := s.selRouter p
    if pend then s.weightProp r (k - 2) else s.weight r (k - 2)

/-- The largest refresh debt among a controller's banks (MC_REF_DEBT). -/
def maxDebt (s : State) (n : Nat) : Nat := (s.mem.debt.filter fun e => e.1 / 512 == n).foldl (fun m e => max m e.2) 0

/-- Registers whose value the hub computes from other state; none for a stored one. -/
def computed (s : State) (p off : Nat) : Option Nat :=
  match pageType p with
  | 0x01 => if off == Reg.MB_STAT then some (setBits (s.reg p off) 0 1 (b2n s.mbBusy)) else none
  | 0x04 =>
    if off == Reg.TIME_LO then some (bits s.time 0 32)
    else if off == Reg.TIME_HI then some (bits s.time 32 32)
    else if Reg.TIME_DLY 0 ≤ off && off < Reg.TIME_DLY 16 then
      let site := (off - Reg.TIME_DLY 0) / 4
      some (match s.lowActive site with
        | some m => (s.lk site m .hub).delay % 2 ^ 16
        | none => 0)
    else none
  | 0x05 =>
    if off == Reg.FB_TAG then
      some (match s.book.fifo with
        | [] => 0
        | w :: _ => w.vbytes % 32 + b2n w.sor * 2 ^ 5 + b2n w.ue * 2 ^ 6 + 2 ^ 31)
    else if Reg.FB_DATA 0 ≤ off && off < Reg.FB_DATA 4 then some (nthD s.fbHead ((off - Reg.FB_DATA 0) / 4) 0)
    else none
  | 0x08 =>
    match fabWindow p off with
    | some k => some (s.windowValue p k false)
    | none =>
      if p < pgFAB 6 then none
      else
        let r := s.selRouter p
        if off == Reg.RTR_INFO then some (rtrInfo r)
        else if Reg.RTR_PORT 0 ≤ off && off < Reg.RTR_PORT 15 then
          let i := (off - Reg.RTR_PORT 0) / 4
          let k := (Config.portKind r i).toNat
          some (k + (Config.portPeer r i).toNat * 2 ^ 2 + (if k == 1 then (Config.portPeerPort r i).toNat * 2 ^ 10 else 0))
        else none
  | 0x10 => if Reg.DATUM 0 ≤ off && off < Reg.DATUM 128 && s.get p Fld.TRAV_RESULT_RESULT == 0 then some 0 else none
  | 0x20 =>
    let h := pageInst p
    if off == Reg.HOME_TRK_OCC0 then some (s.trkHeld h 0 + s.trkHeld h 1 * 2 ^ 16)
    else if off == Reg.HOME_TRK_OCC1 then some (s.trkHeld h 2 + s.trkHeld h 3 * 2 ^ 16)
    else if off == Reg.HOME_POOL then
      let shared := ((s.homeAt h).trk.filter fun e => match e.2.held with
        | .shared _ => true
        | _ => false).length
      some (1024 - 4 * s.get p Fld.HOME_TRK_CFG_CLASS_RES - shared + (s.homeAt h).rsv.length * 2 ^ 16 +
        ((s.homeAt h).wb.filter fun e => e.1 < 64).length * 2 ^ 20)
    else if off == Reg.HOME_DIR_ENTRY0 then some (s.dirWord h 0)
    else if off == Reg.HOME_DIR_ENTRY1 then some (s.dirWord h 1)
    else if off == Reg.HOME_DIR_ENTRY2 then some (s.dirWord h 2)
    else none
  | 0x21 =>
    let h := pageInst p
    if off == Reg.HRTH_VB then
      some ((s.hearthAt h).vb.length + ((s.hearthAt h).vb.filter fun e => e.dirty).length * 2 ^ 8)
    else if Reg.RANGE_LOCK 0 ≤ off && off < Reg.RANGE_LOCK 8 then
      some (s.rangeWays h ((off - Reg.RANGE_LOCK 0) / 8) ((off - Reg.RANGE_LOCK 0) % 8 == 4))
    else none
  | 0x28 => if off == Reg.MC_REF_DEBT then some (s.maxDebt (pageInst p)) else none
  | 0x29 => if off == Reg.STK_STAT && s.flag p Fld.STK_STAT_SPARE_BUSY then
      some (setBits (s.reg p off) Fld.STK_STAT_PROGRESS.lo Fld.STK_STAT_PROGRESS.width (s.spareProgress (pageInst p)))
    else none
  | _ => none

/-- The value that a 4-byte read of an ordinary or header offset returns, before anything it does (R56, R65, R68, R73, R87). -/
def regValue (s : State) (p off : Nat) : Nat :=
  if off < 0x100 then s.headerValue p off
  else if s.pageOff p then 0
  else match findReg p off with
    | none => 0
    | some d => match s.computed p off with
      | some v => v % 2 ^ 32
      | none => s.reg p off &&& (2 ^ 32 - 1 - d.accMask .wo)

/-- The value that a read of the shadow view returns: only RWQ registers have one (R56, R87). -/
def shadowValue (s : State) (p off : Nat) : Nat :=
  if off < 0x100 || s.pageOff p then 0
  else match findReg p off with
    | none => 0
    | some d =>
      if d.rwqMask == 0 then 0
      else match fabWindow p off with
        | some k => s.windowValue p k true
        | none => (s.reg p off - (s.reg p off &&& d.rwqMask)) + (s.shadowOrLive p off &&& d.rwqMask)

/-! ### Status bits -/

/-- What a cleared status bit takes with it: the V bit of a location register that says so, ALERT_N of a fatal error (R679, R760). -/
def clearedHooks (s : State) (p off m : Nat) : State :=
  let gone := fun (f : FRef) => f.off == off && (m / 2 ^ f.lo) % 2 ^ f.width != 0 && s.get p f == 0
  match pageType p with
  | 0x20 => if gone Fld.HOME_STAT_SNP_TO then s.put p Fld.HOME_SNP_TO_LOC_V 0 else s
  | 0x28 => if gone Fld.MC_STAT_UE then s.put p Fld.MC_ERR_LOC_HI_V 0 else s
  | 0x10 =>
    if gone Fld.BND_VIOL_KIND then s.put p Fld.BND_VIOL_LOC_HI_V 0
    else if gone Fld.DRAIN_STAT_DRAIN_ERR then s.put p Fld.DRAIN_ERR_LOC_V 0 else s
  | 0x08 =>
    if (gone Fld.ERR_STAT_HDR_UE || gone Fld.ERR_STAT_DATA_UE) && !s.flag p Fld.ERR_STAT_HDR_UE && !s.flag p Fld.ERR_STAT_DATA_UE
    then s.put p Fld.ERR_LOC_V 0 else s
  | 0x06 =>
    if gone Fld.EVT_STAT_FATAL then
      let s := s.put p Fld.EVT_FATAL_SRC_V 0
      { s with alert := { s.alert with fatal := false } }
    else s
  | 0x30 => if gone Fld.IXU_STAT_CQ_ERR then s.put p Fld.CQ_ERR_V 0 else s
  | _ => s

/-- Clear the status bits that `m` selects (R68, R70, R82). -/
def clearBits (s : State) (p off m : Nat) : State :=
  match findReg p off with
  | none => s
  | some d =>
    let m := m &&& d.accMask .w1c
    if m == 0 then s
    else if p == pgEVT && Reg.EVT_PEND 0 ≤ off && off < Reg.EVT_PEND 64 then s.evtWrite off m m
    else
      let old := s.reg p off
      (s.setReg p off (old - (old &&& m))).clearedHooks p off m

/-- A read clears what it returns of status bits while CLRMODE is 1 (R70), never where Smith firmware reads (R71). -/
def readClears (s : State) (p off m : Nat) (smith : Bool) : State :=
  if smith || !s.flag p Fld.PAGE_CFG_CLRMODE then s else s.clearBits p off (m &&& s.regValue p off)

/-! ### Writes -/

/-- Store the RW and RWS fields of a register: bits that `m` selects take their value from `v`; a reserved encoding leaves its field
and sets ACC_ERR (R68, R74). -/
def storeFields (s : State) (p off m v : Nat) (d : RegDef) : State :=
  d.fields.foldl (fun s (f : FieldDef) =>
    if f.acc != Acc.rw then s
    else
      let w := f.hi + 1 - f.lo
      let fm := bits m f.lo w
      if fm == 0 then s
      else
        let old := bits (s.reg p off) f.lo w
        let new := old - (old &&& fm) + (bits v f.lo w &&& fm)
        if reservedValue p off f.lo new then s.accErr0 p
        else s.setReg p off (setBits (s.reg p off) f.lo w new)) s

/-- A write to PAGE_QGRP (R78). -/
def qgrpWrite (s : State) (p g : Nat) : State :=
  if (s.qGroup p).isNone then s
  else if s.pagePending p || s.qHolds p then s.accErr0 p
  else s.put p Fld.PAGE_QGRP_GROUP g

/-- A write to LNK_CTL (R420, R442): EN stays, and sets ACC_ERR where host software carries another value. -/
def lnkCtlWrite (s : State) (p off m v : Nat) (smith : Bool) (d : RegDef) : State :=
  let i := (off - Reg.LNK_CTL 0) / 0x20
  let differs := bitN m 0 && bitN v 0 != bitN (s.reg p off) 0
  let s := if differs && !smith then s.accErr0 p else s
  let s := s.storeFields p off (if smith then m else m - m % 2) v d
  if bitN m 1 && bitN v 1 then s.lnkRetrain (pageInst p) i else s

/-- The write of a register that is an action as a whole; `full` holds its RW bits merged and the WO bits written. -/
def writeAction (s : State) (p off full : Nat) : Option State :=
  let is := fun (typ r : Nat) => pageType p == typ && off == r
  let i := pageInst p
  if is 0x01 Reg.QUENCH then some (s.quenchWrite full)
  else if is 0x01 Reg.PMU_CTL then some (s.pmuWrite full)
  else if is 0x01 Reg.MB_CMD then some (s.mailbox false (full % 256) (full / 256 % 256) [])
  else if is 0x06 Reg.EVT_SW_TRIG then some (s.swTrig (full % 2048))
  else if is 0x20 Reg.HOME_CNT_CLR then some (if bitN full 0 then s.homeClr i else s)
  else if is 0x21 Reg.ROP_CMD then some (s.ropStart (full % 8))
  else if is 0x28 Reg.MC_ROWSPARE_CMD then some (if bitN full 0 then s.rowSpareGo i else s)
  else if is 0x30 Reg.CQ_CMD then some (if bitN full 0 then s.cqResume else s)
  else if is 0x30 Reg.LOAD_CMD then
    let s := if bitN full 1 then (s.modIxu fun x => { x with loaded := [] }).put p Fld.LOAD_STAT_COUNT 0 else s
    some (if bitN full 0 then s.softLoad.afterDma else s)
  else if is 0x38 Reg.NE_INV then
    let k := bits full 24 2
    some (if k == 0 then s else s.neInv k (if k == 3 then 0 else full % 2 ^ 24))
  else if is 0x3A Reg.LANE_APPLY then some (s.laneApply i (full % 256))
  else none

/-- What the write of a stored register starts. -/
def writtenHook (s : State) (p off : Nat) : State :=
  if p == pgIXU && off == Reg.CQ_TAIL then s.cqKick
  else if p == pgIXU && off == Reg.FQ_HEAD then s.fqNe
  else if p == pgFB && off == Reg.FB_RING_WM then s.fbDataEv
  else if p == pgPWR && off == Reg.WAKE_EN then s.wakeEnabled
  else s

/-- A write of the bits that `m` selects to an ordinary or header register (R65, R68, R86). -/
def regWriteBits (s : State) (p off m v : Nat) (smith : Bool) : State :=
  if 0x100 ≤ off && s.pageOff p then s.accErr0 p
  else match findReg p off with
    | none => s
    | some d =>
      if off == Reg.PAGE_QGRP then s.qgrpWrite p (setBits ((s.qGroup p).getD 0) 0 4
        (let old := (s.qGroup p).getD 0; old - (old &&& m) + (v &&& m)))
      else if p == pgPWR && Reg.VOTE 0 ≤ off && off < Reg.VOTE 50 then
        s.setVotes ((off - Reg.VOTE 0) / 4) v (if smith then m else m &&& hostSlots)
      else if p == pgEVT && ((Reg.EVT_MASK 0 ≤ off && off < Reg.EVT_MASK 64) || (Reg.EVT_PEND 0 ≤ off && off < Reg.EVT_PEND 64) ||
          (Reg.EVT_ROUTE 0 ≤ off && off < Reg.EVT_ROUTE 64)) then s.evtWrite off v m
      else if pageType p == 0x11 && off < 0x200 && (off - Reg.LNK_CTL 0) % 0x20 == 0 then s.lnkCtlWrite p off m v smith d
      else
        let cur := s.reg p off
        match s.writeAction p off (cur - (cur &&& m) + (v &&& m)) with
        | some t => t
        | none =>
          let s := if m &&& d.rwqMask == 0 then s else s.shadowWrite p off (m &&& d.rwqMask) v
          let s := s.clearBits p off (m &&& v)
          let t := (s.storeFields p off m v d).writtenHook p off
          if pageType p == 0x28 && off == Reg.MC_CTL then
            (if s.get p Fld.MC_CTL_SCRUB_HRS == 0 && t.get p Fld.MC_CTL_SCRUB_HRS != 0 then t.scrubRestart (pageInst p) else t).rowScan (pageInst p)
          else t

/-- A write to the shadow view of the register at `off`: ignored where it is not RWQ (R86, R88). -/
def shadowViewWrite (s : State) (p off v : Nat) : State :=
  if s.pageOff p then s.accErr0 p
  else if off < 0x100 then s
  else match findReg p off with
    | none => s
    | some d => if d.rwqMask == 0 then s else s.shadowWrite p off d.rwqMask v

/-- The register and bit that an alias word stands for (R79). -/
def aliasPlace (off : Nat) : Nat × Nat := (0x100 + (off - 0x8000) / 128 * 4, (off - 0x8000) % 128 / 4)

/-- A write of `v` to the alias word of bit `b` of the register at `off` (R82 to R85). -/
def aliasWrite (s : State) (p off b : Nat) (v smith : Bool) : State :=
  if s.pageOff p then s.accErr0 p
  else match findReg p off with
    | none => s
    | some d =>
      match d.fields.find? fun f => f.lo ≤ b && b ≤ f.hi with
      | none => s
      | some f =>
        match f.acc with
        | .ro => s
        | .w1c => if v then s else s.regWriteBits p off (2 ^ b) (2 ^ b) smith
        | .wo => if v then s.regWriteBits p off (2 ^ b) (2 ^ b) smith else s
        | .rw => s.regWriteBits p off (2 ^ b) (b2n v * 2 ^ b) smith
        | .rwq => s.regWriteBits p off (2 ^ b) (b2n v * 2 ^ b) smith

/-! ### Whole accesses -/

/-- A permitted 4-byte write to any offset of a page. -/
def write4 (s : State) (p off v : Nat) (smith : Bool) : State :=
  if off < 0x4000 then s.regWriteBits p off (2 ^ 32 - 1) v smith
  else if off < 0x8000 then s.shadowViewWrite p (off - 0x4000) v
  else s.aliasWrite p (aliasPlace off).1 (aliasPlace off).2 (v % 2 == 1) smith

/-- A permitted 4-byte read of any offset of a page: its value and what it does (R61, R70, R80, R81, R706). -/
def read4 (s : State) (p off : Nat) (smith : Bool) (e : EccOutcome) : Nat × State :=
  if off < 0x4000 then
    if p == pgFB && off == Reg.FB_DATA 3 then
      let t := s.fbPop false e
      (t.readData.toNat % 2 ^ 32, t)
    else (s.regValue p off, s.readClears p off (2 ^ 32 - 1) smith)
  else if off < 0x8000 then (s.shadowValue p (off - 0x4000), s)
  else
    let (r, b) := aliasPlace off
    (bits (s.regValue p r) b 1, s.readClears p r (2 ^ b) smith)

/-- The page and offset answer as a reserved address (R53, R55). -/
def noRegister (p off : Nat) : Bool := (pageRow p).isNone || 0xE000 ≤ off

/-- A write of `n` bytes at `off` is one that R59, R62 and R80 permit. -/
def writePermitted (off n : Nat) : Bool := off % n == 0 && (n == 4 || (n == 8 && !(0x8000 ≤ off && off < 0xE000)))

/-- A read of `n` bytes at `off` is one that R59 and R80 permit. -/
def readPermitted (off n : Nat) : Bool :=
  off % n == 0 && (n == 4 || ((n == 1 || n == 2 || n == 8) && !(0x8000 ≤ off && off < 0xE000)))

/-- The byte mask of R62 for `n` bytes at `off`. -/
def maskAt (off n : Nat) : Nat := (2 ^ n - 1) * 2 ^ (off % 8) % 256

/-- Status bits of a register, whether they stood or not, that a write of `v` to the register before it sets: on one edge hardware decides
them (R72). -/
def setsNext (s : State) (p off v : Nat) (smith : Bool) : Nat :=
  let m := ((findReg p (off + 4)).map (·.accMask .w1c)).getD 0
  let old := s.reg p (off + 4)
  ((s.setReg p (off + 4) (old - (old &&& m))).write4 p off v smith).reg p (off + 4) &&& m

/-- A write of `n` bytes to an implemented page by node `src` (R59 to R62): the halves of 8 bytes act on one edge, the low one first
(log 139), and a status bit that the low half sets is not cleared by the high one (R72). -/
def ctlWrite (s : State) (src : BitVec 8) (p off n data : Nat) : State :=
  let smith := src == nodeSmith
  if !writePermitted off n then s.accErr p src.toNat off (maskAt off n)
  else if n == 4 then s.write4 p off (data % 2 ^ 32) smith
  else
    let lo := data % 2 ^ 32
    let hi := data / 2 ^ 32 % 2 ^ 32
    let kept := if off + 4 < 0x4000 then s.setsNext p off lo smith else 0
    (s.write4 p off lo smith).write4 p (off + 4) (hi - (hi &&& kept)) smith

/-- A read of `n` bytes of an implemented page by node `src`, answered in `readData`; both halves of 8 bytes are
sampled on one edge (R59 to R62). -/
def ctlRead (s : State) (src : BitVec 8) (p off n : Nat) (e : EccOutcome) : State :=
  let smith := src == nodeSmith
  let ret := fun (r : Nat × State) => ({ r.2 with readData := BitVec.ofNat 64 r.1 } : State)
  if !readPermitted off n then ret (0, s.accErr p src.toNat off (maskAt off n))
  else if n == 8 then
    if p == pgFB && off + 4 == Reg.FB_DATA 3 then s.fbPop true e
    else
      let a := s.read4 p off smith e
      ret (a.1 + (s.read4 p (off + 4) smith e).1 * 2 ^ 32, (a.2.read4 p (off + 4) smith e).2)
  else
    let o := off / 4 * 4
    let a := s.read4 p o smith e
    ret (bits a.1 (8 * (off - o)) (8 * n), a.2)

end State

/-- The request by which node `src` accesses offset `off` of a page. -/
def pageRequest (op : BitVec 7) (src : BitVec 8) (page off : Nat) : Pkt :=
  { op := op, vc := vcOfOp op, src := src, addr := BitVec.ofNat 46 ((controlBase + page * 0x10000 + off) / 64), dst := nodeSmith }

/-- REGISTER_WRITE (R59 to R74): node `src` writes `n` bytes at offset `off` of a page; where no register can be, the address is reserved
(R53, R55). -/
def execRegisterWrite (src : BitVec 8) (page off n data : Nat) (s : State) : Host.Outcome State Fault Refusal :=
  s.act fun s =>
    if State.noRegister page off then s.recReserved pgSMITH (pageRequest 0x68 src page off) else s.ctlWrite src page off n data

/-- STATUS_CLEARING_READ (R61, R70, R71): node `src` reads `n` bytes at offset `off` of a page; `e`: what a Field Book word read shows. -/
def execStatusClearingRead (src : BitVec 8) (page off n : Nat) (e : EccOutcome) (s : State) : Host.Outcome State Fault Refusal :=
  s.act fun s =>
    if State.noRegister page off then
      { s.recReserved pgSMITH (pageRequest 0x70 src page off) with readData := BitVec.ofNat 64 (2 ^ (8 * n) - 1) }
    else s.ctlRead src page off n e

/-- BIT_ALIAS_WRITE (R82): the alias word of bit `b` of the register at `off` is written with `v`. -/
def execBitAliasWrite (src : BitVec 8) (page off b : Nat) (v : Bool) (s : State) : Host.Outcome State Fault Refusal :=
  s.act fun s =>
    if (pageRow page).isSome && 0x100 ≤ off && off ≤ 0x3FF && off % 4 == 0 && b < 32 then s.aliasWrite page off b v (src == nodeSmith) else s

/-- SHADOW_WRITE (R86): an RWQ register is written at its ordinary offset, or with `view` at its shadow-view offset. -/
def execShadowWrite (page off data : Nat) (view : Bool) (s : State) : Host.Outcome State Fault Refusal :=
  s.act fun s =>
    if ((findReg page off).map (·.rwqMask)).getD 0 == 0 then s
    else if view then s.shadowViewWrite page off (data % 2 ^ 32) else s.regWriteBits page off (2 ^ 32 - 1) (data % 2 ^ 32) false

/-- PAGE_QGRP_WRITE (R78). -/
def execPageQgrpWrite (page g : Nat) (s : State) : Host.Outcome State Fault Refusal :=
  s.act fun s => if (pageRow page).isSome then s.qgrpWrite page (g % 16) else s

/-- RT_ENTRY_WRITE (R146): a half of the route entry that RT_SEL of FAB[k] selects is written. -/
def execRtEntryWrite (k : Nat) (hi : Bool) (data : Nat) (s : State) : Host.Outcome State Fault Refusal :=
  s.act fun s =>
    if k < 6 then s.shadowWrite (pgFAB k) (if hi then Reg.RT_ENTRY_HI else Reg.RT_ENTRY_LO) (if hi then 0x1FF else 2 ^ 32 - 1) data else s

/-- RTR_WEIGHT_WRITE (R146): RTR_CLASS (word 0), RTR_WEIGHT_LO (1) or RTR_WEIGHT_HI (2) of the router that RTR_SEL of FAB[k] selects. -/
def execRtrWeightWrite (k word data : Nat) (s : State) : Host.Outcome State Fault Refusal :=
  s.act fun s =>
    if (k == 6 || k == 7) && word < 3 then
      s.shadowWrite (pgFAB k) (if word == 0 then Reg.RTR_CLASS else if word == 1 then Reg.RTR_WEIGHT_LO else Reg.RTR_WEIGHT_HI) (2 ^ 32 - 1) data
    else s

end Sys2Proof.Machine
end

