-- ==== Sys2Proof/Machine/DevAccess.lean ====
section
/-! DEFINITION. Injection of units into the fabric (R122, R131, R269, R761), device requests at the agents that claim them and their
answers (R169, R268 to R271, R282, R577 to R580, R765), and the responses that end a requester's transaction (R171, R173, R186). -/

namespace Sys2Proof.Machine

/-- A posted device write, and a device request that is answered (R269). -/
def isPosted (op : BitVec 7) : Bool := op == 0x68
def isNonPosted (op : BitVec 7) : Bool := op == 0x70 || op == 0x71

namespace State

/-! ### Injection -/

/-- The unit waits at its source's interface and may be looked at now. -/
def waitsOut (s : State) (e : InFlight) : Bool := decide (e.at_ = .out) && decide (e.since ≤ s.time)

/-- Units of one interface, `by_`, toward a node that are injected and not yet consumed (R269). -/
def injectedCount (s : State) (by_ dst : BitVec 8) (kind : BitVec 7 → Bool) : Nat :=
  (s.net.filter fun e => e.p.by == by_ && e.p.dst == dst && kind e.p.op && (match e.at_ with
    | .rtr _ _ => true
    | .rx => true
    | _ => false)).length

/-- A device request may be injected (R268, R269): none of the other kind toward the node is unconsumed or waits before it, and fewer
than 255 of its own kind are. -/
def devMayInject (s : State) (p : Pkt) (before : List InFlight) : Bool :=
  if !(isPosted p.op || isNonPosted p.op) then true
  else
    let other := if isPosted p.op then isNonPosted else isPosted
    let own := if isPosted p.op then isPosted else isNonPosted
    s.injectedCount p.by p.dst other == 0 && decide (s.injectedCount p.by p.dst own < 255) &&
      !(before.any fun e => decide (e.at_ = .out) && e.p.by == p.by && e.p.dst == p.dst && other e.p.op)

/-- The unit is the oldest of its VC that waits at its interface (R121). -/
def nextOut (s : State) (e : InFlight) : Bool :=
  (s.net.find? fun f => s.waitsOut f && f.p.by == e.p.by && f.p.vc == e.p.vc) == some e

/-- A unit as its interface injects it: ROUTE of the interface's route table, its parity, and in a request the service class of its source
(R113, R122, R157, R222, R408). -/
def injected (s : State) (p : Pkt) : Pkt :=
  let route := BitVec.ofNat 40 (s.route p.by.toNat p.dst.toNat)
  { p with route := route, rpar := rparOf route, cls := if 1 ≤ p.op.toNat && p.op.toNat ≤ 8 then s.classOf p.src else p.cls }

/-- The interface that a unit waits at injects it (R122, R761): units of one interface and VC leave in order. -/
def inject (s : State) (p : Pkt) : State :=
  match s.net.find? fun e => s.waitsOut e && sameUnit e.p p with
  | none => s
  | some e =>
    let p' := e.p
    let vc := p'.vc.toNat
    let entry := s.route p'.by.toNat p'.dst.toNat
    let link := injectLink p'.by vc
    if !s.nextOut e || s.fab.hold || !s.devMayInject p' (s.net.takeWhile fun f => f != e) then s
    else if !nodeAssigned p'.dst.toNat || !bitN entry 40 then
      let s := ({ s with net := s.net.erase e }).discardUnit p' 3
      s.record { typ := 0x09, cls := 3, source := srcFAB 2, page := pgFAB 7, node := p'.src.toNat, opcode := p'.op.toNat, sub := 3,
                 words := [p'.dst.toNat] }
    else if !s.creditFree link vc p'.hasData then s
    else
      let at_ := injectPort p'.by vc
      let moved : InFlight := ⟨s.injected p', .rtr at_.1 at_.2, s.time⟩
      ({ s with net := s.net.erase e ++ [moved] }).creditTake link vc p'.hasData

/-- A unit at the interface of an agent that cannot accept it is discarded, its credits returned (R131). -/
def absentDiscard (s : State) (p : Pkt) : State :=
  if s.absentNode p.dst && s.arrived p then (s.consume p).discardUnit p 3 else s

/-! ### Device requests at the NE (R577 to R580) -/

/-- Bytes `lo` to `lo + n` of a device request, and its data there. -/
def devRun (p : Pkt) : Option (Nat × Nat) := match maskRun? p.mask with
  | some (lo, n) => if lo % n == 0 && (n == 1 || n == 2 || n == 4 || n == 8) then some (lo, n) else none
  | none => none

/-- The answer to a device read of `n` bytes at `lo` of its line. -/
def devAnswer (s : State) (me : BitVec 8) (p : Pkt) (lo : Nat) (v : Nat) (status : Nat := 0) : State :=
  s.respond 0x79 me p.src p.txn (BitVec.ofNat 46 status) true false
    (some (BitVec.ofNat 512 (v * 2 ^ (8 * lo)) &&& maskBits p.mask, p.mask))

/-- A read of configuration space or of a BAR: the bytes asked for, out of whole dwords. -/
def dwordsRead (dword : Nat → Nat) (off n : Nat) : Nat :=
  bits (dword (off / 4 * 4) + dword (off / 4 * 4 + 4) * 2 ^ 32) (8 * (off % 4)) (8 * n)

/-- A configuration write of `n` bytes (R576). -/
def cfgWriteBytes (s : State) (f off n data : Nat) : State :=
  let m := (2 ^ n - 1) * 2 ^ (off % 4)
  let d := data * 2 ^ (8 * (off % 4))
  let s := s.cfgWrite f (off / 4 * 4) (d % 2 ^ 32) (m % 16)
  if n == 8 then s.cfgWrite f (off / 4 * 4 + 4) (d / 2 ^ 32 % 2 ^ 32) (m / 16 % 16) else s

/-- A device request reaches the NE: configuration space, the BAR of a function (R580), or nothing it claims any more (R37). -/
def neDevice (s : State) (p : Pkt) : State :=
  let line := paOf p.addr.toNat
  let rd := p.op == 0x70
  let done := fun (s : State) => (if p.op == 0x71 then s.respond 0x78 nodeNE p.src p.txn 0 true else s).writeDone p
  let run := devRun p
  let (lo, n) := run.getD (0, 4)
  let pa := line + lo
  let data := lineField p.data lo n
  if isEcam1 pa then
    let f := (pa - 0xFFF2000000000) / 0x1000
    let off := (pa - 0xFFF2000000000) % 0x1000
    if run.isNone then (if rd then s.devAnswer nodeNE p 0 0 else done s)
    else if rd then s.devAnswer nodeNE p lo (dwordsRead (s.cfgDword f) off n) else done (s.cfgWriteBytes f off n data)
  else match s.barFn pa with
    | none => ((s.answerReserved p nodeNE).recReserved pgNE p).writeDone p
    | some f =>
      let off := if f == 0 then pa - (s.fnAt 0).bar else (pa - s.ne.vfBar) % 0x80000
      let bad := run.isNone || (!rd && n != 4 && n != 8)
      if bad then
        let s := s.modFn f fun x => { x with accErr := true }
        if rd then s.devAnswer nodeNE p lo 0 else done s
      else if rd then s.devAnswer nodeNE p lo (dwordsRead (s.barDword f) off n)
      else
        let s := s.barWrite f off (data % 2 ^ 32)
        done (if n == 8 then s.barWrite f (off + 4) (data / 2 ^ 32) else s)

/-! ### Device requests at Smith (R57 to R62, R765) -/

/-- A device request to the control region (R53 to R62, R270). -/
def smithDevice (s : State) (p : Pkt) (e : EccOutcome) : State :=
  let line := paOf p.addr.toNat
  let o := (line - controlBase) % 0x10000
  let pg := (line - controlBase) / 0x10000
  let done := fun (s : State) => (if p.op == 0x71 then s.respond 0x78 nodeSmith p.src p.txn 0 true else s).writeDone p
  if !isControl line || !(isDieNode p.src || p.src == nodeSmith) || noRegister pg o then
    ((s.answerReserved p nodeSmith).recReserved pgSMITH p).writeDone p
  else match devRun p with
    | none =>
      let first := ((List.range 64).find? fun i => p.mask.getLsbD i).getD 0
      let s := s.accErr pg p.src.toNat (o + first) (p.mask.toNat / 2 ^ (first / 8 * 8) % 256)
      if p.op == 0x70 then s.devAnswer nodeSmith p 0 0 else done s
    | some (lo, n) =>
      if p.op == 0x70 then
        let s := s.ctlRead p.src pg (o + lo) n e
        s.devAnswer nodeSmith p lo (s.readData.toNat % 2 ^ (8 * n))
      else done (s.ctlWrite p.src pg (o + lo) n (lineField p.data lo n))

/-- A unit reaches Smith (R765). -/
def smithUnit (s : State) (p : Pkt) (e : EccOutcome) : State :=
  let n := p.op.toNat
  if p.op == 0x68 || p.op == 0x70 || p.op == 0x71 then (s.consume p).smithDevice p e
  else if 1 ≤ n && n ≤ 8 then ((s.consume p).answerReserved p nodeSmith).recReserved pgSMITH p 1
  else (s.consume p).record
    { typ := 0x05, cls := 3, source := srcSmithRecord, page := pgSMITH, node := p.src.toNat, opcode := n, sub := 1 }

/-! ### Any agent -/

/-- A device request at the node that claims its address (R169, R270, R282, R291). -/
def devArrives (s : State) (p : Pkt) (e : EccOutcome) : State :=
  let d := p.dst
  let k := d.toNat
  if s.absentNode d then s.absentDiscard p
  else if d == nodeSmith then s.smithUnit p e
  else if d == nodeNE then (s.consume p).neDevice p
  else if 0xA4 ≤ k && k ≤ 0xA9 then
    let n := k - 0xA4
    if p.op == 0x70 then (s.consume p).groupSend n p
    else if 256 ≤ (s.groupAt n).pw.length then s
    else
      let s := (s.consume p).groupWrite n p
      if p.op == 0x71 then s.respond 0x78 d p.src p.txn 0 true else s
  else s

/-- The row's own opcode: at a home, which does not serve it (R193), at a Class D die that a module has delivered it to, or at the hub agent
that claims its address. -/
def devAs (s : State) (op : BitVec 7) (p : Pkt) (e : EccOutcome) : State :=
  if p.op != op then s
  else if (homeOfPkt p).isSome || (isDieNode p.dst && !s.absentNode p.dst) then s.dieRow op p fun s => s.dieConsumes p
  else if s.arrived p then (s.devArrives p e).afterDma else s

/-- A completion of a device request at its requester (R169). -/
def devEnds (s : State) (op : BitVec 7) (p : Pkt) : State :=
  if p.op != op then s
  else if (homeOfPkt p).isSome || isDieNode p.dst then s.dieRow op p fun s => s.dieTakes p
  else s.dmaResponse p

/-- DataRd at an uncached requester (R171, R186): a die's transaction, a walk, a command fetch or a DMA. -/
def dataRead (s : State) (p : Pkt) (w : Option Store) : State :=
  if p.op != 0x54 then s
  else if (homeOfPkt p).isSome || isDieNode p.dst then s.dieRow 0x54 p fun s => s.dieFinal p true w
  else match s.useOf p with
    | some (.walk id) =>
      match (Tab.get? id s.ixu.walks).map (fun (w : Walk) => w.wait) with
      | some (.update ..) => s.ixuDo (·.walkReturn p true)
      | some _ => s.ixuDo (·.walkReturn p false)
      | none => s.agentTakes p
    | some .cqRead => s.ixuDo (·.cqFetched p)
    | _ => s.dmaResponse p

/-- The end of a write of a hub agent (R495, R503, R710): `ok` where it was performed. -/
def agentWritten (s : State) (p : Pkt) (ok : Bool) : State :=
  match s.useOf p with
  | some .fault => s.ixuDo fun s => if p.last then (s.agentTakes p).faultWritten else s.agentTakes p
  | some .syncWrite => s.ixuDo fun s => if p.last then (s.agentTakes p).cqSyncWritten else s.agentTakes p
  | _ =>
    if p.dst != nodeFB then s.dmaResponse p
    else if !s.arrived p then s
    else if p.last then (s.consume p).fbRingDone ok else s.consume p

/-- Cmp at a requester (R171). -/
def cmpArrives (s : State) (p : Pkt) (w : Option Store) : State :=
  if p.op != 0x41 then s
  else if (homeOfPkt p).isSome || isDieNode p.dst then s.dieRow 0x41 p fun s => s.dieFinal p false w
  else s.agentWritten p (bits p.addr.toNat 0 3 == 0)

/-- A Nack at a hub agent (R173 to R177): its request is sent again, or ends without being performed. -/
def agentNacked (s : State) (p : Pkt) : State :=
  let reason := bits p.addr.toNat 0 4
  if !s.arrived p then s
  else if p.dst == nodeFB then
    let (again, s) := (s.consume p).fbNack reason
    if again then s else s.fbRingDone false
  else match s.agentOf p with
    | none => s.consume p
    | some a =>
      if 1 ≤ reason && reason ≤ 4 then ((s.consume p).agentNack p).2
      else
        let p : Pkt := { p with last := true }
        let t := (s.consume p).agentEnd p.dst p.txn.toNat
        match a.use with
        | .dma id => (t.dmaPart id 2 0 0).afterDma
        | .cqRead => (t.modIxu fun x => { x with cqBusy := false }).cqHalt 2
        | .walk id => (t.dmaEnd id 2 0).afterDma
        | .fault => t.ixuDo State.faultWritten
        | .syncWrite => t.ixuDo State.cqSyncWritten
        | .late => t

/-- NACK at a requester (R173). -/
def nackArrives (s : State) (p : Pkt) : State :=
  if p.op != 0x40 then s
  else if (homeOfPkt p).isSome || isDieNode p.dst then s.dieRow 0x40 p fun s => s.dieNack p
  else s.agentNacked p

end State

/-- PACKET_INJECT (R122). -/
def execPacketInject (p : Pkt) (s : State) : Host.Outcome State Fault Refusal := s.act (·.inject p)

/-- PACKET_TO_ABSENT_AGENT (R131). -/
def execPacketToAbsentAgent (p : Pkt) (s : State) : Host.Outcome State Fault Refusal := s.act (·.absentDiscard p)

/-- DEV_WR (R282). -/
def execDevWr (p : Pkt) (s : State) : Host.Outcome State Fault Refusal := s.act (·.devAs 0x68 p .clean)

/-- DEV_RD (R169): `e` is what a word of the Field Book shows where the read pops one. -/
def execDevRd (p : Pkt) (e : EccOutcome) (s : State) : Host.Outcome State Fault Refusal := s.act (·.devAs 0x70 p e)

/-- DEV_WR_N (R270). -/
def execDevWrN (p : Pkt) (s : State) : Host.Outcome State Fault Refusal := s.act (·.devAs 0x71 p .clean)

/-- DEV_CPL (R169). -/
def execDevCpl (p : Pkt) (s : State) : Host.Outcome State Fault Refusal := s.act (·.devEnds 0x78 p)

/-- DEV_CPLD (R169). -/
def execDevCpld (p : Pkt) (s : State) : Host.Outcome State Fault Refusal := s.act (·.devEnds 0x79 p)

/-- DATA_RD (R186): `w` is the store that the die's core makes on completion of a transaction that owns the line. -/
def execDataRd (p : Pkt) (w : Option Store) (s : State) : Host.Outcome State Fault Refusal := s.act (·.dataRead p w)

/-- CMP (R171). -/
def execCmp (p : Pkt) (w : Option Store) (s : State) : Host.Outcome State Fault Refusal := s.act (·.cmpArrives p w)

/-- NACK (R173). -/
def execNack (p : Pkt) (s : State) : Host.Outcome State Fault Refusal := s.act (·.nackArrives p)

/-- SMITH_REQUEST (R765): `e` is what a word of the Field Book shows where the request pops one. -/
def execSmithRequest (p : Pkt) (e : EccOutcome) (s : State) : Host.Outcome State Fault Refusal :=
  s.act fun s => if p.dst == nodeSmith && s.arrived p then s.smithUnit p e else s

end Sys2Proof.Machine
end

