-- ==== Sys2Proof/Machine/Dispatch.lean ====
section
/-! DEFINITION. The dispatcher: each command of the table runs its own meaning. -/

namespace Sys2Proof.Machine

/-- The meaning of a command on everything but the queue: one arm per row of the table. -/
def exec (i : Instr) (s : State) : Host.Outcome State Fault Refusal :=
  match i with
  | .coldReset sel straps part pop rails good bad load image trust => Sys2Proof.Machine.execColdReset sel straps part pop rails good bad load image trust s
  | .powerFail => Sys2Proof.Machine.execPowerFail s
  | .supplyFault => Sys2Proof.Machine.execSupplyFault s
  | .thermalTrip sensor => Sys2Proof.Machine.execThermalTrip sensor s
  | .pkgResetAssert => Sys2Proof.Machine.execPkgResetAssert s
  | .warmDrainExpire => Sys2Proof.Machine.execWarmDrainExpire s
  | .smithWatchdog => Sys2Proof.Machine.execSmithWatchdog s
  | .smithResume => Sys2Proof.Machine.execSmithResume s
  | .rootPllLossOfLock => Sys2Proof.Machine.execRootPllLossOfLock s
  | .registerWrite src page off n data => Sys2Proof.Machine.execRegisterWrite src page off n data s
  | .statusClearingRead src page off n e => Sys2Proof.Machine.execStatusClearingRead src page off n e s
  | .bitAliasWrite src page off b v => Sys2Proof.Machine.execBitAliasWrite src page off b v s
  | .shadowWrite page off data view => Sys2Proof.Machine.execShadowWrite page off data view s
  | .pageQgrpWrite page g => Sys2Proof.Machine.execPageQgrpWrite page g s
  | .quench gmask => Sys2Proof.Machine.execQuench gmask s
  | .quenchCancel gmask => Sys2Proof.Machine.execQuenchCancel gmask s
  | .quenchApply => Sys2Proof.Machine.execQuenchApply s
  | .quenchDone => Sys2Proof.Machine.execQuenchDone s
  | .rtEntryWrite k hi data => Sys2Proof.Machine.execRtEntryWrite k hi data s
  | .rtrWeightWrite k word data => Sys2Proof.Machine.execRtrWeightWrite k word data s
  | .packetInject p => Sys2Proof.Machine.execPacketInject p s
  | .unitReceive p router port e => Sys2Proof.Machine.execUnitReceive p router port e s
  | .outputArbitration router => Sys2Proof.Machine.execOutputArbitration router s
  | .creditReturn => Sys2Proof.Machine.execCreditReturn s
  | .packetToAbsentAgent p => Sys2Proof.Machine.execPacketToAbsentAgent p s
  | .rdShared p => Sys2Proof.Machine.execRdShared p s
  | .rdOwn p => Sys2Proof.Machine.execRdOwn p s
  | .upgrade p => Sys2Proof.Machine.execUpgrade p s
  | .rdOnce p => Sys2Proof.Machine.execRdOnce p s
  | .strike p => Sys2Proof.Machine.execStrike p s
  | .strikePart p => Sys2Proof.Machine.execStrikePart p s
  | .farAtomic p => Sys2Proof.Machine.execFarAtomic p s
  | .evictClean p => Sys2Proof.Machine.execEvictClean p s
  | .wbData p => Sys2Proof.Machine.execWbData p s
  | .snpAck p => Sys2Proof.Machine.execSnpAck p s
  | .wbSnp p => Sys2Proof.Machine.execWbSnp p s
  | .hearthReturn h k wb ecc => Sys2Proof.Machine.execHearthReturn h k wb ecc s
  | .memoryReturn h k wb => Sys2Proof.Machine.execMemoryReturn h k wb s
  | .transactionContinue h k => Sys2Proof.Machine.execTransactionContinue h k s
  | .rsvLapse h line => Sys2Proof.Machine.execRsvLapse h line s
  | .snpTo h k site => Sys2Proof.Machine.execSnpTo h k site s
  | .siteFence site => Sys2Proof.Machine.execSiteFence site s
  | .containVisit h => Sys2Proof.Machine.execContainVisit h s
  | .homeCntClr h => Sys2Proof.Machine.execHomeCntClr h s
  | .snpShare p => Sys2Proof.Machine.execSnpShare p s
  | .snpOwn p => Sys2Proof.Machine.execSnpOwn p s
  | .snpInv p => Sys2Proof.Machine.execSnpInv p s
  | .snpBack p => Sys2Proof.Machine.execSnpBack p s
  | .dataS p w => Sys2Proof.Machine.execDataS p w s
  | .dataL p w => Sys2Proof.Machine.execDataL p w s
  | .dataE p w => Sys2Proof.Machine.execDataE p w s
  | .dataM p w => Sys2Proof.Machine.execDataM p w s
  | .dataRd p w => Sys2Proof.Machine.execDataRd p w s
  | .grantUp p w => Sys2Proof.Machine.execGrantUp p w s
  | .cmp p w => Sys2Proof.Machine.execCmp p w s
  | .nack p => Sys2Proof.Machine.execNack p s
  | .wbAck p => Sys2Proof.Machine.execWbAck p s
  | .retrySend site line asOwn => Sys2Proof.Machine.execRetrySend site line asOwn s
  | .devWr p => Sys2Proof.Machine.execDevWr p s
  | .devRd p e => Sys2Proof.Machine.execDevRd p e s
  | .devWrN p => Sys2Proof.Machine.execDevWrN p s
  | .devCpl p => Sys2Proof.Machine.execDevCpl p s
  | .devCpld p => Sys2Proof.Machine.execDevCpld p s
  | .smithRequest p e => Sys2Proof.Machine.execSmithRequest p e s
  | .drain p => Sys2Proof.Machine.execDrain p s
  | .flushReadComplete n site addr => Sys2Proof.Machine.execFlushReadComplete n site addr s
  | .flushReadTimeout n site addr => Sys2Proof.Machine.execFlushReadTimeout n site addr s
  | .pcieLinkDown n port dpc => Sys2Proof.Machine.execPcieLinkDown n port dpc s
  | .drainComplete site => Sys2Proof.Machine.execDrainComplete site s
  | .pcieCplTimeout n src txn => Sys2Proof.Machine.execPcieCplTimeout n src txn s
  | .lateCompletion n rid tag => Sys2Proof.Machine.execLateCompletion n rid tag s
  | .deviceDma id => Sys2Proof.Machine.execDeviceDma id s
  | .vbWriteAccept h ecc => Sys2Proof.Machine.execVbWriteAccept h ecc s
  | .invalidate => Sys2Proof.Machine.execInvalidate s
  | .clean => Sys2Proof.Machine.execClean s
  | .cleanInv => Sys2Proof.Machine.execCleanInv s
  | .ropInvAll => Sys2Proof.Machine.execRopInvAll s
  | .ropSetVisit h es => Sys2Proof.Machine.execRopSetVisit h es s
  | .ropComplete => Sys2Proof.Machine.execRopComplete s
  | .hrthCleanDone h es => Sys2Proof.Machine.execHrthCleanDone h es s
  | .memRead line groups => Sys2Proof.Machine.execMemRead line groups s
  | .memWrite line => Sys2Proof.Machine.execMemWrite line s
  | .scrubRead n groups => Sys2Proof.Machine.execScrubRead n groups s
  | .go n => Sys2Proof.Machine.execGo n s
  | .rowSpareDone n bad => Sys2Proof.Machine.execRowSpareDone n bad s
  | .spareAutoStart st k => Sys2Proof.Machine.execSpareAutoStart st k s
  | .chanSpareSwitch st bad => Sys2Proof.Machine.execChanSpareSwitch st bad s
  | .chanSpareAbandon st => Sys2Proof.Machine.execChanSpareAbandon st s
  | .refreshDue n chan bank busy => Sys2Proof.Machine.execRefreshDue n chan bank busy s
  | .stackTempChange st temp => Sys2Proof.Machine.execStackTempChange st temp s
  | .refForcedPoll => Sys2Proof.Machine.execRefForcedPoll s
  | .farMemReturn line write data psn => Sys2Proof.Machine.execFarMemReturn line write data psn s
  | .farMemFail line write cause => Sys2Proof.Machine.execFarMemFail line write cause s
  | .dataFrame site m e units w => Sys2Proof.Machine.execDataFrame site m e units w s
  | .ackFrame site m e w => Sys2Proof.Machine.execAckFrame site m e w s
  | .rplFrame site m e w => Sys2Proof.Machine.execRplFrame site m e w s
  | .replayTimeout site m e => Sys2Proof.Machine.execReplayTimeout site m e s
  | .heartbeatSend site m e => Sys2Proof.Machine.execHeartbeatSend site m e s
  | .heartbeatLoss site m e => Sys2Proof.Machine.execHeartbeatLoss site m e s
  | .errorWindowEnd site m e => Sys2Proof.Machine.execErrorWindowEnd site m e s
  | .hello site m e resume answer mapSeq w => Sys2Proof.Machine.execHello site m e resume answer mapSeq w s
  | .helloRepeat site m e => Sys2Proof.Machine.execHelloRepeat site m e s
  | .surveyDone site m e w => Sys2Proof.Machine.execSurveyDone site m e w s
  | .calDone site m e w => Sys2Proof.Machine.execCalDone site m e w s
  | .mapPropose site m e seq failed w => Sys2Proof.Machine.execMapPropose site m e seq failed w s
  | .mapConfirm site m e seq dh hd w => Sys2Proof.Machine.execMapConfirm site m e seq dh hd w s
  | .trainingTimeout site m e => Sys2Proof.Machine.execTrainingTimeout site m e s
  | .credInit site m e grantH grantD w => Sys2Proof.Machine.execCredInit site m e grantH grantD w s
  | .repairReq site m e seq rec lane w => Sys2Proof.Machine.execRepairReq site m e seq rec lane w s
  | .repairGo site m e seq w => Sys2Proof.Machine.execRepairGo site m e seq w s
  | .repairDone site m e seq w => Sys2Proof.Machine.execRepairDone site m e seq w s
  | .repairReqResend site m e => Sys2Proof.Machine.execRepairReqResend site m e s
  | .repairPauseTimeout site m e => Sys2Proof.Machine.execRepairPauseTimeout site m e s
  | .moduleRetireTimer site m => Sys2Proof.Machine.execModuleRetireTimer site m s
  | .retireSync site m e retired last w => Sys2Proof.Machine.execRetireSync site m e retired last w s
  | .retireSyncRepeat site m e => Sys2Proof.Machine.execRetireSyncRepeat site m e s
  | .idleEntryStart site m e => Sys2Proof.Machine.execIdleEntryStart site m e s
  | .idleReq site m e w => Sys2Proof.Machine.execIdleReq site m e w s
  | .idleAck site m e w => Sys2Proof.Machine.execIdleAck site m e w s
  | .idleNak site m e w => Sys2Proof.Machine.execIdleNak site m e w s
  | .idleTimeout site m e => Sys2Proof.Machine.execIdleTimeout site m e s
  | .moduleWake site m => Sys2Proof.Machine.execModuleWake site m s
  | .retrainReq site m e w => Sys2Proof.Machine.execRetrainReq site m e w s
  | .retrain site m => Sys2Proof.Machine.execRetrain site m s
  | .lnkEnable site m => Sys2Proof.Machine.execLnkEnable site m s
  | .firstActiveTimeout site m => Sys2Proof.Machine.execFirstActiveTimeout site m s
  | .traverse site => Sys2Proof.Machine.execTraverse site s
  | .datumReq site m c data w => Sys2Proof.Machine.execDatumReq site m c data w s
  | .datumData site m c data registered w => Sys2Proof.Machine.execDatumData site m c data registered w s
  | .travFence site m result w => Sys2Proof.Machine.execTravFence site m result w s
  | .chal site m sig w => Sys2Proof.Machine.execChal site m sig w s
  | .chalRsp site m sig w => Sys2Proof.Machine.execChalRsp site m sig w s
  | .assign site m no node core cores w => Sys2Proof.Machine.execAssign site m no node core cores w s
  | .assignAck site m args w => Sys2Proof.Machine.execAssignAck site m args w s
  | .negOffer site m level caps w => Sys2Proof.Machine.execNegOffer site m level caps w s
  | .negAnswer site m level caps w => Sys2Proof.Machine.execNegAnswer site m level caps w s
  | .negCommit site m e level caps w => Sys2Proof.Machine.execNegCommit site m e level caps w s
  | .traverseAnswerTimeout site => Sys2Proof.Machine.execTraverseAnswerTimeout site s
  | .traverseAdmit site => Sys2Proof.Machine.execTraverseAdmit site s
  | .dieUnit site m p => Sys2Proof.Machine.execDieUnit site m p s
  | .meterRelease site m vc => Sys2Proof.Machine.execMeterRelease site m vc s
  | .snoopLateTimeout site => Sys2Proof.Machine.execSnoopLateTimeout site s
  | .sinkTimeout site m => Sys2Proof.Machine.execSinkTimeout site m s
  | .devCplTimeout site src txn => Sys2Proof.Machine.execDevCplTimeout site src txn s
  | .xlatInv p => Sys2Proof.Machine.execXlatInv p s
  | .xlatSync p => Sys2Proof.Machine.execXlatSync p s
  | .xlatInvFwd p => Sys2Proof.Machine.execXlatInvFwd p s
  | .xlatAck p => Sys2Proof.Machine.execXlatAck p s
  | .xlatTargetTimeout src txn target => Sys2Proof.Machine.execXlatTargetTimeout src txn target s
  | .dmaTranslate who rid va acc ro data mask op translated ep => Sys2Proof.Machine.execDmaTranslate who rid va acc ro data mask op translated ep s
  | .walkReadReturn p => Sys2Proof.Machine.execWalkReadReturn p s
  | .adUpdateReturn p => Sys2Proof.Machine.execAdUpdateReturn p s
  | .faultRecordCmp p => Sys2Proof.Machine.execFaultRecordCmp p s
  | .cqFetch p => Sys2Proof.Machine.execCqFetch p s
  | .invSpace => Sys2Proof.Machine.execInvSpace s
  | .invVaRange => Sys2Proof.Machine.execInvVaRange s
  | .invVmid => Sys2Proof.Machine.execInvVmid s
  | .invWalk => Sys2Proof.Machine.execInvWalk s
  | .invBind => Sys2Proof.Machine.execInvBind s
  | .ixuInvAll => Sys2Proof.Machine.execIxuInvAll s
  | .ixuSync => Sys2Proof.Machine.execIxuSync s
  | .resume => Sys2Proof.Machine.execResume s
  | .cqTailWrite v => Sys2Proof.Machine.execCqTailWrite v s
  | .atsTranslationRequest who rid va => Sys2Proof.Machine.execAtsTranslationRequest who rid va s
  | .atsInvComplete id => Sys2Proof.Machine.execAtsInvComplete id s
  | .atsInvTimeout id => Sys2Proof.Machine.execAtsInvTimeout id s
  | .softMissTimeout id => Sys2Proof.Machine.execSoftMissTimeout id s
  | .load => Sys2Proof.Machine.execLoad s
  | .loadInvAll => Sys2Proof.Machine.execLoadInvAll s
  | .rxFrame ix fr fcsOk fecOk corr buf => Sys2Proof.Machine.execRxFrame ix fr fcsOk fecOk corr buf s
  | .chainData id => Sys2Proof.Machine.execChainData id s
  | .chainAck id => Sys2Proof.Machine.execChainAck id s
  | .readResp id => Sys2Proof.Machine.execReadResp id s
  | .atomicResp id => Sys2Proof.Machine.execAtomicResp id s
  | .chainNak id => Sys2Proof.Machine.execChainNak id s
  | .chainRto c => Sys2Proof.Machine.execChainRto c s
  | .ackTimer c => Sys2Proof.Machine.execAckTimer c s
  | .rnrRetry c psn => Sys2Proof.Machine.execRnrRetry c psn s
  | .chainSend c buf => Sys2Proof.Machine.execChainSend c buf s
  | .ctxFill c => Sys2Proof.Machine.execCtxFill c s
  | .alignmentLost ix => Sys2Proof.Machine.execAlignmentLost ix s
  | .interfaceDown ix => Sys2Proof.Machine.execInterfaceDown ix s
  | .interfaceUp ix => Sys2Proof.Machine.execInterfaceUp ix s
  | .sqPi f q v => Sys2Proof.Machine.execSqPi f q v s
  | .rqPi f q v => Sys2Proof.Machine.execRqPi f q v s
  | .cqCi f q v => Sys2Proof.Machine.execCqCi f q v s
  | .descriptorFetch p => Sys2Proof.Machine.execDescriptorFetch p s
  | .nop f q => Sys2Proof.Machine.execNop f q s
  | .send f q => Sys2Proof.Machine.execSend f q s
  | .write f q => Sys2Proof.Machine.execWrite f q s
  | .read f q => Sys2Proof.Machine.execRead f q s
  | .fadd f q => Sys2Proof.Machine.execFadd f q s
  | .cswap f q => Sys2Proof.Machine.execCswap f q s
  | .raw f q => Sys2Proof.Machine.execRaw f q s
  | .completionWrite f q => Sys2Proof.Machine.execCompletionWrite f q s
  | .aqPi f v => Sys2Proof.Machine.execAqPi f v s
  | .aqBaseWrite f acq hi v => Sys2Proof.Machine.execAqBaseWrite f acq hi v s
  | .qpCreate f => Sys2Proof.Machine.execQpCreate f s
  | .qpDestroy f => Sys2Proof.Machine.execQpDestroy f s
  | .ctxCreate f => Sys2Proof.Machine.execCtxCreate f s
  | .ctxActivate f => Sys2Proof.Machine.execCtxActivate f s
  | .ctxModify f => Sys2Proof.Machine.execCtxModify f s
  | .ctxClose f => Sys2Proof.Machine.execCtxClose f s
  | .ctxDestroy f => Sys2Proof.Machine.execCtxDestroy f s
  | .ctxQuery f => Sys2Proof.Machine.execCtxQuery f s
  | .winSet f => Sys2Proof.Machine.execWinSet f s
  | .winClear f => Sys2Proof.Machine.execWinClear f s
  | .vfConfig f => Sys2Proof.Machine.execVfConfig f s
  | .ctxDrainDone c => Sys2Proof.Machine.execCtxDrainDone c s
  | .window index => Sys2Proof.Machine.execWindow index s
  | .flowBucket index => Sys2Proof.Machine.execFlowBucket index s
  | .flowAll => Sys2Proof.Machine.execFlowAll s
  | .neInvComplete => Sys2Proof.Machine.execNeInvComplete s
  | .flrStart f => Sys2Proof.Machine.execFlrStart f s
  | .flrComplete f => Sys2Proof.Machine.execFlrComplete f s
  | .vfEnable on => Sys2Proof.Machine.execVfEnable on s
  | .configWrite rid off data mask => Sys2Proof.Machine.execConfigWrite rid off data mask s
  | .neDmaResponse p => Sys2Proof.Machine.execNeDmaResponse p s
  | .neDmaTimeout id => Sys2Proof.Machine.execNeDmaTimeout id s
  | .emberInsert e rom ack registered => Sys2Proof.Machine.execEmberInsert e rom ack registered s
  | .emberChallengeDone e sig ready => Sys2Proof.Machine.execEmberChallengeDone e sig ready s
  | .emberRemove e => Sys2Proof.Machine.execEmberRemove e s
  | .emberFault e => Sys2Proof.Machine.execEmberFault e s
  | .emberFaultClear e chFault => Sys2Proof.Machine.execEmberFaultClear e chFault s
  | .emberPoll e ready fault chFault bias power hours => Sys2Proof.Machine.execEmberPoll e ready fault chFault bias power hours s
  | .laneSwitch o k => Sys2Proof.Machine.execLaneSwitch o k s
  | .laneApply o mask => Sys2Proof.Machine.execLaneApply o mask s
  | .voteWrite d data host => Sys2Proof.Machine.execVoteWrite d data host s
  | .domainDrop d => Sys2Proof.Machine.execDomainDrop d s
  | .domainDrainDone d => Sys2Proof.Machine.execDomainDrainDone d s
  | .domainDrainExpire d => Sys2Proof.Machine.execDomainDrainExpire d s
  | .domainCommitEnd d => Sys2Proof.Machine.execDomainCommitEnd d s
  | .domainRise d => Sys2Proof.Machine.execDomainRise d s
  | .domainRiseDone d => Sys2Proof.Machine.execDomainRiseDone d s
  | .wakeNAssert => Sys2Proof.Machine.execWakeNAssert s
  | .pcieWakeAssert n => Sys2Proof.Machine.execPcieWakeAssert n s
  | .wakeMatch n fr => Sys2Proof.Machine.execWakeMatch n fr s
  | .timeCmp => Sys2Proof.Machine.execTimeCmp s
  | .wakeStuck => Sys2Proof.Machine.execWakeStuck s
  | .bankedEnter bmc tag args => Sys2Proof.Machine.execBankedEnter bmc tag args s
  | .bankedCleanDone => Sys2Proof.Machine.execBankedCleanDone s
  | .selfRefreshDone => Sys2Proof.Machine.execSelfRefreshDone s
  | .bankedCommitEnd => Sys2Proof.Machine.execBankedCommitEnd s
  | .bankedExitDone => Sys2Proof.Machine.execBankedExitDone s
  | .timeSync site m t d w => Sys2Proof.Machine.execTimeSync site m t d w s
  | .powerPeriod energy hot => Sys2Proof.Machine.execPowerPeriod energy hot s
  | .pwrSet site m seq fmax imax w => Sys2Proof.Machine.execPwrSet site m seq fmax imax w s
  | .pwrAck site m seq w => Sys2Proof.Machine.execPwrAck site m seq w s
  | .pwrAckTimeout site => Sys2Proof.Machine.execPwrAckTimeout site s
  | .throttleAssert => Sys2Proof.Machine.execThrottleAssert s
  | .throttleDeassert => Sys2Proof.Machine.execThrottleDeassert s
  | .throttleLong => Sys2Proof.Machine.execThrottleLong s
  | .ping bmc tag args => Sys2Proof.Machine.execPing bmc tag args s
  | .mbUnknownCmd bmc code tag args => Sys2Proof.Machine.execMbUnknownCmd bmc code tag args s
  | .profileNext bmc tag args => Sys2Proof.Machine.execProfileNext bmc tag args s
  | .profileLive bmc tag args => Sys2Proof.Machine.execProfileLive bmc tag args s
  | .profileWrite bmc tag args => Sys2Proof.Machine.execProfileWrite bmc tag args s
  | .warmReset bmc tag args => Sys2Proof.Machine.execWarmReset bmc tag args s
  | .powerOff bmc tag args => Sys2Proof.Machine.execPowerOff bmc tag args s
  | .siteOffline bmc tag args => Sys2Proof.Machine.execSiteOffline bmc tag args s
  | .siteQuiesceDone => Sys2Proof.Machine.execSiteQuiesceDone s
  | .siteDrainDone => Sys2Proof.Machine.execSiteDrainDone s
  | .recallVisit h => Sys2Proof.Machine.execRecallVisit h s
  | .recallDone => Sys2Proof.Machine.execRecallDone s
  | .siteOnline bmc tag args => Sys2Proof.Machine.execSiteOnline bmc tag args s
  | .moduleRetire bmc tag args => Sys2Proof.Machine.execModuleRetire bmc tag args s
  | .alternateRouteApply site m => Sys2Proof.Machine.execAlternateRouteApply site m s
  | .moduleRepair bmc tag args => Sys2Proof.Machine.execModuleRepair bmc tag args s
  | .routeSwap bmc tag args => Sys2Proof.Machine.execRouteSwap bmc tag args s
  | .routeQuiesceDone => Sys2Proof.Machine.execRouteQuiesceDone s
  | .routeQuiesceTimeout => Sys2Proof.Machine.execRouteQuiesceTimeout s
  | .fwStage bmc tag args => Sys2Proof.Machine.execFwStage bmc tag args s
  | .fwActivate bmc tag args => Sys2Proof.Machine.execFwActivate bmc tag args s
  | .fwTrialTimeout => Sys2Proof.Machine.execFwTrialTimeout s
  | .smithRestart bmc tag args => Sys2Proof.Machine.execSmithRestart bmc tag args s
  | .chanSpare bmc tag args => Sys2Proof.Machine.execChanSpare bmc tag args s
  | .hearthOffline bmc tag args => Sys2Proof.Machine.execHearthOffline bmc tag args s
  | .hearthOnline bmc tag args => Sys2Proof.Machine.execHearthOnline bmc tag args s
  | .portMode bmc tag args => Sys2Proof.Machine.execPortMode bmc tag args s
  | .emberRelease bmc tag args => Sys2Proof.Machine.execEmberRelease bmc tag args s
  | .vote bmc tag args => Sys2Proof.Machine.execVote bmc tag args s
  | .bmcHeartbeat => Sys2Proof.Machine.execBmcHeartbeat s
  | .platUpdate => Sys2Proof.Machine.execPlatUpdate s
  | .eventFire n => Sys2Proof.Machine.execEventFire n s
  | .stormEnd n => Sys2Proof.Machine.execStormEnd n s
  | .evtSwTrig source => Sys2Proof.Machine.execEvtSwTrig source s
  | .evtMaskWrite off data => Sys2Proof.Machine.execEvtMaskWrite off data s
  | .interruptMessage p => Sys2Proof.Machine.execInterruptMessage p s
  | .intr site m seq core vector w => Sys2Proof.Machine.execIntr site m seq core vector w s
  | .intrAck site m seq w => Sys2Proof.Machine.execIntrAck site m seq w s
  | .intrResend site => Sys2Proof.Machine.execIntrResend site s
  | .intrTimeout site => Sys2Proof.Machine.execIntrTimeout site s
  | .fbRecord cut => Sys2Proof.Machine.execFbRecord cut s
  | .fbBankHandoff es => Sys2Proof.Machine.execFbBankHandoff es s
  | .fbTrunc => Sys2Proof.Machine.execFbTrunc s
  | .fbPop wide e => Sys2Proof.Machine.execFbPop wide e s
  | .fbRingWrite e => Sys2Proof.Machine.execFbRingWrite e s
  | .fbRingCmp p => Sys2Proof.Machine.execFbRingCmp p s
  | .fbDataTimer => Sys2Proof.Machine.execFbDataTimer s
  | .freeze snap clear dies => Sys2Proof.Machine.execFreeze snap clear dies s
  | .unfreeze snap clear dies => Sys2Proof.Machine.execUnfreeze snap clear dies s
  | .snap clear dies => Sys2Proof.Machine.execSnap clear dies s
  | .clear snap dies => Sys2Proof.Machine.execClear snap dies s
  | .pmuEdge => Sys2Proof.Machine.execPmuEdge s
  | .pmu site m seq acts t w => Sys2Proof.Machine.execPmu site m seq acts t w s
  | .pmuAck site m seq late w => Sys2Proof.Machine.execPmuAck site m seq late w s
  | .pmuAckTimeout site => Sys2Proof.Machine.execPmuAckTimeout site s
  | .pmcCntWrite page ix hi v => Sys2Proof.Machine.execPmcCntWrite page ix hi v s
  | .pkgResetDeassert => Sys2Proof.Machine.execPkgResetDeassert s
  | .clkLost site m e clk busy vld trk phyReset => Sys2Proof.Machine.execClkLost site m e clk busy vld trk phyReset s
  | .calibrationComplete site m e failed clkOk delay => Sys2Proof.Machine.execCalibrationComplete site m e failed clkOk delay s
  | .clkStopSeen site m e => Sys2Proof.Machine.execClkStopSeen site m e s
  | .wakeNDeassert => Sys2Proof.Machine.execWakeNDeassert s
  | .pcieWakeDeassert n => Sys2Proof.Machine.execPcieWakeDeassert n s
  | .rawFallingEdge ix => Sys2Proof.Machine.execRawFallingEdge ix s
  | .emberPresentAssert e => Sys2Proof.Machine.execEmberPresentAssert e s
  | .pcieLinkUp n port => Sys2Proof.Machine.execPcieLinkUp n port s
  | .stormWindowEnd n => Sys2Proof.Machine.execStormWindowEnd n s
  | .silentDrop site line => Sys2Proof.Machine.execSilentDrop site line s
  | .dieWrite site line w => Sys2Proof.Machine.execDieWrite site line w s
  | .deviceCompletion n src txn data ok => Sys2Proof.Machine.execDeviceCompletion n src txn data ok s
  | .startReceived site m pa w => Sys2Proof.Machine.execStartReceived site m pa w s
  | .trkBeacon site m e => Sys2Proof.Machine.execTrkBeacon site m e s
  | .spareFailed site m e k seen => Sys2Proof.Machine.execSpareFailed site m e k seen s
  | .counterWrap page ix q => Sys2Proof.Machine.execCounterWrap page ix q s
  | .bmcMbStatRead => Sys2Proof.Machine.execBmcMbStatRead s

end Sys2Proof.Machine
end

