-- ==== Sys2Proof/Machine/Tick.lean ====
section
/-! DEFINITION. What passes in one TCLK cycle (10 ns) in which no command runs (R633, log 1): TIME, the clocks of the counters with
the quantities they see as levels (R254, R712 to R714, R725), a posted write of each PCIe group (log 20), the heartbeat count of Smith
firmware, and the operations of Smith firmware that wait (log 90). -/

namespace Sys2Proof.Machine

/-- One occurrence that a level event sees in a cycle: how many, and its attributes S, C and U (R715). -/
structure Level where
  q : Nat := 1
  src : Option Nat := none
  cls : Option Nat := none
  sub : Option Nat := none
  deriving DecidableEq, Repr

namespace State

/-- Cycles of a page's counting clock in 10 ns (R631, R712); none while its clock stands (R625, R632, R734). -/
def cyclesOf (s : State) (p : Nat) : Nat :=
  let typ := ((pageRow p).map (·.typ)).getD 0
  if s.alert.pll then (if typ == 0x02 then 1 else 0)
  else if s.power.stopped && (pageDom p).isSome then 0
  else match typ with
    | 0x02 => 8
    | 0x20 | 0x21 => if s.banked then 0 else 24
    | 0x28 => if s.banked then 0 else 16
    | 0x38 | 0x39 | 0x3A => 12
    | _ => 24

/-- A home holds an admitted transaction, or a WbData in a writeback entry, that waits (R254, R318). -/
def homeWaits (s : State) (h : Nat) : Bool := !(s.homeAt h).trk.isEmpty || !(s.homeAt h).wb.isEmpty

/-- What a level event sees now at a page (R725). -/
def levelsOf (s : State) (p code : Nat) : List Level :=
  let i := pageInst p
  match code with
  | 0x001 => [{}]
  | 0x018 => (s.homeAt i).trk.map fun e => { cls := some e.2.req.cls.toNat }
  | 0x024 => if (s.hearthAt i).vb.length == 64 && ((s.hearthAt i).vb.all fun e => e.dirty) &&
      ((s.homeAt i).trk.any fun e => !e.2.hq.isEmpty) then [{}] else []
  | 0x034 => (s.mem.rd.filter fun r => isNear (paOf r.line) && (s.mcOf r.line).1 == i).map fun r => { sub := some (s.mcOf r.line).2 }
  | 0x043 => ([0, 1, 2, 3].filter fun m => s.net.any fun e => decide (e.at_ = .rx) && e.p.dst == nodeModule i m &&
      (match (s.lk i m .hub).link with
       | some l => !mayLink l e.p.vc.toNat e.p.hasData
       | none => false)).map fun m => { sub := some m }
  | 0x044 => ([0, 1, 2, 3].filter fun m => (s.lk i m .hub).st == 5).map fun m => { sub := some m }
  | 0x045 => ([0, 1, 2, 3].filter fun m => (s.siteAt i).held.any fun u => u.m == m).map fun m => { sub := some m }
  | 0x052 => (List.range 48).flatMap fun r =>
      let router := 48 * (p - pgFAB 6) + r
      ((List.range 15).filter fun o => (List.range 15).any fun j => (List.range 8).any fun vc =>
        match s.queueHead router j vc with
        | some q => outPort router q == o && !s.creditFree (router * 16 + o) vc q.hasData
        | none => false).map fun o => { src := some o, sub := some r }
  | 0x07C => [{ q := ((List.range 8).filter fun k => bitN (s.get p Fld.LANE_SRC_DARK) k).length }]
  | 0x080 => if s.throttled then [{}] else []
  | 0x081 => if s.fceil == s.get pgPWR Fld.PWR_FLOOR_FLOOR then [{}] else []
  | 0x092 => [{ q := (s.groupAt i).pw.length }]
  | _ => []

/-- Slots of a home in this cycle: all, those retired and those wasted (R254, R255): two in each FCLK cycle; steps beyond them fill the slots
of the next. -/
def homeSlots (s : State) (h : Nat) : Nat × Nat × Nat :=
  let all := 2 * s.cyclesOf (pgHOME h)
  let r := min (s.homeAt h).retired all
  (all, r, min (s.homeAt h).wasted (all - r))

/-- The slots of a home that an event of the four classes counts in this cycle; none for another event. -/
def slotsOf (s : State) (p code : Nat) : Option Nat :=
  let h := pageInst p
  if p < pgHOME 0 || pgHOME 63 < p then none
  else
    let (all, r, w) := s.homeSlots h
    match code with
    | 0x010 => some r
    | 0x011 => some w
    | 0x012 => some (if s.homeWaits h then 0 else all - r - w)
    | 0x013 => some (if s.homeWaits h then all - r - w else 0)
    | _ => none

/-- Counter `i` of a page over the cycle (R714): its slots or its levels; EDGE counts where it saw none in the last cycle. -/
def counterTick (s : State) (p i : Nat) : State :=
  let key := p * 8 + i
  let code := s.get p (Fld.PMC_CTL_EVENT i)
  let on := s.flag p (Fld.PMC_CTL_EN i) && !s.frozen && !s.pageOff p
  let q := match s.slotsOf p code with
    | some n => n
    | none => s.cyclesOf p * ((s.levelsOf p code).filter fun l => s.cntPass p i l.src l.cls l.sub).foldl (fun n l => n + l.q) 0
  if !on || q == 0 then { s with levels := s.levels.filter (· != key) }
  else
    let was := s.levels.contains key
    let s := if was then s else { s with levels := s.levels ++ [key] }
    if s.flag p (Fld.PMC_CTL_MODE i) then (if was then s else s.cntAdd p i 1) else s.cntAdd p i q

/-- The counters that software has programmed: page and number. -/
def programmed (s : State) : List (Nat × Nat) :=
  s.regs.filterMap fun e =>
    let p := e.1 / 0x10000
    let off := e.1 % 0x10000
    if instrumented p && Reg.PMC_CTL 0 ≤ off && off < Reg.PMC_CTL 8 then some (p, (off - Reg.PMC_CTL 0) / 4) else none

/-- Every programmed counter over the cycle, and the homes' slots of the next. -/
def pmuTick (s : State) : State :=
  let t := s.programmed.foldl (fun s c => s.counterTick c.1 c.2) s
  { t with homes := t.homes.mapIdx fun i (h : Home) =>
      let n := s.homeSlots i
      { h with retired := h.retired - n.2.1, wasted := h.wasted - n.2.2 } }

/-- Each PCIe group passes on the completions that nothing holds any more (R273), and sends the oldest posted write that it holds for a
port whose link is up (log 20). -/
def pcieTick (s : State) (n : Nat) : State :=
  if s.pageOff (pgPCIE n) || s.power.stopped then s
  else
    let s := s.cplRelease n
    match (s.groupAt n).pw.find? fun e => s.portUp n e.1 with
    | none => s
    | some e => (s.modGroup n fun g => { g with pw := g.pw.erase e }).tlpTx n e.1

/-- Smith firmware counts its heartbeat every millisecond while it runs (SMITH.HB). -/
def beatTick (s : State) : State :=
  if s.smith.running && s.time % 1000000 == 0 then s.bumpMod pgSMITH Fld.HB_COUNT else s

/-- Posted device writes that have reached their target end at their agents (R262), and far accesses that have lost their link fail
(R389). -/
def ioTick (s : State) : State := (if s.agents.isEmpty then s else s.afterDma).farSweep

/-- One TCLK cycle without a command (R633). In Off nothing passes (R629). -/
def tick (s : State) : State :=
  if s.off then s
  else
    let s := { s with time := s.time + 10 }
    s.settle ((forAll (List.range 6) (fun n s => s.pcieTick n) s).ioTick.pmuTick).beatTick.smithPoll

end State
end Sys2Proof.Machine
end

