-- ==== Sys2Proof/WellFormed.lean ====
section
/-! DEFINITION. Well-formed commands: every operand names a unit, register or entry that the spec gives the hub. A command with
an operand outside these ranges names nothing, and no rule speaks of it. -/

namespace Sys2Proof.WellFormed

open Sys2Proof.Machine

/-- Compute sites (R4). -/
def nSites : Nat := 16
/-- Flolaec modules of a site. -/
def nModules : Nat := 4
/-- Home slices, and Hearth slices. -/
def nHomes : Nat := 64
/-- Power domains (R612). -/
def nDomains : Nat := 50
/-- Ember modules. -/
def nEmbers : Nat := 4
/-- Functions of the NE: PF0 and 1,024 VFs (R575). -/
def nFunctions : Nat := 1025
/-- Optical engines. -/
def nEngines : Nat := 2
/-- Memory stacks. -/
def nStacks : Nat := 12
/-- 64-byte lines of the 52-bit physical address space. -/
def nLines : Nat := 70368744177664
/-- Fabric routers (R104). -/
def nRouters : Nat := 96
/-- Memory controllers. -/
def nControllers : Nat := 24
/-- Network ports. -/
def nPorts : Nat := 4
/-- PCIe groups. -/
def nGroups : Nat := 6
/-- Slow inputs (R641). -/
def nPins : Nat := 12
/-- Network interfaces (R522). -/
def nInterfaces : Nat := 16
/-- Tracker and reservation entries of a home (R202). -/
def nEntries : Nat := 1032
/-- Lanes of one direction of a module. -/
def nLanes : Nat := 68

/-- A number names one of `n` things. -/
def below (n k : Nat) : Bool := decide (k < n)
/-- An implemented page (R51). -/
def isPage (p : Nat) : Bool := (pageRow p).isSome
/-- A size of a register access (R59). -/
def isSize (n : Nat) : Bool := n == 1 || n == 2 || n == 4 || n == 8
/-- The part and the sites it populates: DV512-A all, DV512-H C0 to C11 and up to four more, DV384-A C0 to C11 (R2). -/
def partOk (part pop : Nat) : Bool :=
  (part == 1 && pop == 0xFFFF) || (part == 2 && pop % 0x1000 == 0xFFF && below 0x10000 pop) || (part == 3 && pop == 0xFFF)
/-- Bits turned on the wire of a frame, by copy: at most eight copies of a frame of 256 bytes (R404, R421). -/
def wireOk (w : List (List Nat)) : Bool := decide (w.length ≤ 8) && w.all fun l => l.all (below 2048)
/-- Bits turned in the crossing of a unit: 88 header and 8 HECC bits, ROUTE, RPAR, and nine words of 64 and 8 bits (R113). -/
def laneErrOk (e : LaneErr) : Bool :=
  e.hecc.all (below 96) && e.route.all (below 40) && e.rpar.all (below 10) && decide (e.words.length ≤ 9) && e.words.all fun l => l.all (below 72)

end Sys2Proof.WellFormed

namespace Sys2Proof

open WellFormed in
/-- The command's operands are all in range. -/
def Instr.wellFormed : Instr → Bool
  | .coldReset sel straps part pop _ _ _ _ _ _ => below 4 sel && below 0x1000 straps && partOk part pop
  | .powerFail => true
  | .supplyFault => true
  | .thermalTrip _ => true
  | .pkgResetAssert => true
  | .warmDrainExpire => true
  | .smithWatchdog => true
  | .smithResume => true
  | .rootPllLossOfLock => true
  | .registerWrite _ page off n _ => isPage page && below 0x10000 off && isSize n
  | .statusClearingRead _ page off n _ => isPage page && below 0x10000 off && isSize n
  | .bitAliasWrite _ page off b _ => isPage page && below 0x10000 off && below 32 b
  | .shadowWrite page off _ _ => isPage page && below 0x10000 off
  | .pageQgrpWrite page g => isPage page && below 16 g
  | .quench gmask => below 0x10000 gmask
  | .quenchCancel gmask => below 0x10000 gmask
  | .quenchApply => true
  | .quenchDone => true
  | .rtEntryWrite k _ _ => below 6 k
  | .rtrWeightWrite k word _ => (k == 6 || k == 7) && below 3 word
  | .packetInject _ => true
  | .unitReceive _ router port e => below nRouters router && below 15 port && laneErrOk e
  | .outputArbitration router => below nRouters router
  | .creditReturn => true
  | .packetToAbsentAgent _ => true
  | .rdShared _ => true
  | .rdOwn _ => true
  | .upgrade _ => true
  | .rdOnce _ => true
  | .strike _ => true
  | .strikePart _ => true
  | .farAtomic _ => true
  | .evictClean _ => true
  | .wbData _ => true
  | .snpAck _ => true
  | .wbSnp _ => true
  | .hearthReturn h k _ _ => below nHomes h && below nEntries k
  | .memoryReturn h k _ => below nHomes h && below nEntries k
  | .transactionContinue h k => below nHomes h && below nEntries k
  | .rsvLapse h line => below nHomes h && below nLines line
  | .snpTo h k site => below nHomes h && below nEntries k && below nSites site
  | .siteFence site => below nSites site
  | .containVisit h => below nHomes h
  | .homeCntClr h => below nHomes h
  | .snpShare _ => true
  | .snpOwn _ => true
  | .snpInv _ => true
  | .snpBack _ => true
  | .dataS _ _ => true
  | .dataL _ _ => true
  | .dataE _ _ => true
  | .dataM _ _ => true
  | .dataRd _ _ => true
  | .grantUp _ _ => true
  | .cmp _ _ => true
  | .nack _ => true
  | .wbAck _ => true
  | .retrySend site line _ => below nSites site && below nLines line
  | .devWr _ => true
  | .devRd _ _ => true
  | .devWrN _ => true
  | .devCpl _ => true
  | .devCpld _ => true
  | .smithRequest _ _ => true
  | .drain _ => true
  | .flushReadComplete n site _ => below nGroups n && below nSites site
  | .flushReadTimeout n site _ => below nGroups n && below nSites site
  | .pcieLinkDown n port _ => below nGroups n && below 4 port
  | .drainComplete site => below nSites site
  | .pcieCplTimeout n _ _ => below nGroups n
  | .lateCompletion n rid tag => below nGroups n && below 0x10000 rid && below 256 tag
  | .deviceDma _ => true
  | .vbWriteAccept h _ => below nHomes h
  | .invalidate => true
  | .clean => true
  | .cleanInv => true
  | .ropInvAll => true
  | .ropSetVisit h _ => below nHomes h
  | .ropComplete => true
  | .hrthCleanDone h _ => below nHomes h
  | .memRead line _ => below nLines line
  | .memWrite line => below nLines line
  | .scrubRead n _ => below nControllers n
  | .go n => below nControllers n
  | .rowSpareDone n _ => below nControllers n
  | .spareAutoStart st k => below nStacks st && below 16 k
  | .chanSpareSwitch st _ => below nStacks st
  | .chanSpareAbandon st => below nStacks st
  | .refreshDue n chan bank _ => below nControllers n && below 8 chan && below 64 bank
  | .stackTempChange st temp => below nStacks st && below 256 temp
  | .refForcedPoll => true
  | .farMemReturn line _ _ _ => below nLines line
  | .farMemFail line _ _ => below nLines line
  | .dataFrame site m _ _ w => below nSites site && below nModules m && wireOk w
  | .ackFrame site m _ w => below nSites site && below nModules m && wireOk w
  | .rplFrame site m _ w => below nSites site && below nModules m && wireOk w
  | .replayTimeout site m _ => below nSites site && below nModules m
  | .heartbeatSend site m _ => below nSites site && below nModules m
  | .heartbeatLoss site m _ => below nSites site && below nModules m
  | .errorWindowEnd site m _ => below nSites site && below nModules m
  | .hello site m _ _ _ _ w => below nSites site && below nModules m && wireOk w
  | .helloRepeat site m _ => below nSites site && below nModules m
  | .surveyDone site m _ w => below nSites site && below nModules m && wireOk w
  | .calDone site m _ w => below nSites site && below nModules m && wireOk w
  | .mapPropose site m _ _ _ w => below nSites site && below nModules m && wireOk w
  | .mapConfirm site m _ _ _ _ w => below nSites site && below nModules m && wireOk w
  | .trainingTimeout site m _ => below nSites site && below nModules m
  | .credInit site m _ _ _ w => below nSites site && below nModules m && wireOk w
  | .repairReq site m _ _ _ lane w => below nSites site && below nModules m && below nLanes lane && wireOk w
  | .repairGo site m _ _ w => below nSites site && below nModules m && wireOk w
  | .repairDone site m _ _ w => below nSites site && below nModules m && wireOk w
  | .repairReqResend site m _ => below nSites site && below nModules m
  | .repairPauseTimeout site m _ => below nSites site && below nModules m
  | .moduleRetireTimer site m => below nSites site && below nModules m
  | .retireSync site m _ _ _ w => below nSites site && below nModules m && wireOk w
  | .retireSyncRepeat site m _ => below nSites site && below nModules m
  | .idleEntryStart site m _ => below nSites site && below nModules m
  | .idleReq site m _ w => below nSites site && below nModules m && wireOk w
  | .idleAck site m _ w => below nSites site && below nModules m && wireOk w
  | .idleNak site m _ w => below nSites site && below nModules m && wireOk w
  | .idleTimeout site m _ => below nSites site && below nModules m
  | .moduleWake site m => below nSites site && below nModules m
  | .retrainReq site m _ w => below nSites site && below nModules m && wireOk w
  | .retrain site m => below nSites site && below nModules m
  | .lnkEnable site m => below nSites site && below nModules m
  | .firstActiveTimeout site m => below nSites site && below nModules m
  | .traverse site => below nSites site
  | .datumReq site m _ _ w => below nSites site && below nModules m && wireOk w
  | .datumData site m _ _ _ w => below nSites site && below nModules m && wireOk w
  | .travFence site m _ w => below nSites site && below nModules m && wireOk w
  | .chal site m _ w => below nSites site && below nModules m && wireOk w
  | .chalRsp site m _ w => below nSites site && below nModules m && wireOk w
  | .assign site m _ _ core _ w => below nSites site && below nModules m && below 512 core && wireOk w
  | .assignAck site m _ w => below nSites site && below nModules m && wireOk w
  | .negOffer site m _ _ w => below nSites site && below nModules m && wireOk w
  | .negAnswer site m _ _ w => below nSites site && below nModules m && wireOk w
  | .negCommit site m _ _ _ w => below nSites site && below nModules m && wireOk w
  | .traverseAnswerTimeout site => below nSites site
  | .traverseAdmit site => below nSites site
  | .dieUnit site m _ => below nSites site && below nModules m
  | .meterRelease site m vc => below nSites site && below nModules m && below 8 vc
  | .snoopLateTimeout site => below nSites site
  | .sinkTimeout site m => below nSites site && below nModules m
  | .devCplTimeout site _ _ => below nSites site
  | .xlatInv _ => true
  | .xlatSync _ => true
  | .xlatInvFwd _ => true
  | .xlatAck _ => true
  | .xlatTargetTimeout _ _ _ => true
  | .dmaTranslate _ rid _ acc _ _ _ _ _ _ => below 0x10000 rid && below 3 acc
  | .walkReadReturn _ => true
  | .adUpdateReturn _ => true
  | .faultRecordCmp _ => true
  | .cqFetch _ => true
  | .invSpace => true
  | .invVaRange => true
  | .invVmid => true
  | .invWalk => true
  | .invBind => true
  | .ixuInvAll => true
  | .ixuSync => true
  | .resume => true
  | .cqTailWrite _ => true
  | .atsTranslationRequest _ rid _ => below 0x10000 rid
  | .atsInvComplete _ => true
  | .atsInvTimeout _ => true
  | .softMissTimeout _ => true
  | .load => true
  | .loadInvAll => true
  | .rxFrame i _ _ _ _ _ => below nInterfaces i
  | .chainData _ => true
  | .chainAck _ => true
  | .readResp _ => true
  | .atomicResp _ => true
  | .chainNak _ => true
  | .chainRto c => below 0x100000 c
  | .ackTimer c => below 0x100000 c
  | .rnrRetry c _ => below 0x100000 c
  | .chainSend c _ => below 0x100000 c
  | .ctxFill c => below 0x100000 c
  | .alignmentLost i => below nInterfaces i
  | .interfaceDown i => below nInterfaces i
  | .interfaceUp i => below nInterfaces i
  | .sqPi f _ _ => below nFunctions f
  | .rqPi f _ _ => below nFunctions f
  | .cqCi f _ _ => below nFunctions f
  | .descriptorFetch _ => true
  | .nop f _ => below nFunctions f
  | .send f _ => below nFunctions f
  | .write f _ => below nFunctions f
  | .read f _ => below nFunctions f
  | .fadd f _ => below nFunctions f
  | .cswap f _ => below nFunctions f
  | .raw f _ => below nFunctions f
  | .completionWrite f _ => below nFunctions f
  | .aqPi f _ => below nFunctions f
  | .aqBaseWrite f _ _ _ => below nFunctions f
  | .qpCreate f => below nFunctions f
  | .qpDestroy f => below nFunctions f
  | .ctxCreate f => below nFunctions f
  | .ctxActivate f => below nFunctions f
  | .ctxModify f => below nFunctions f
  | .ctxClose f => below nFunctions f
  | .ctxDestroy f => below nFunctions f
  | .ctxQuery f => below nFunctions f
  | .winSet f => below nFunctions f
  | .winClear f => below nFunctions f
  | .vfConfig f => below nFunctions f
  | .ctxDrainDone c => below 0x100000 c
  | .window _ => true
  | .flowBucket _ => true
  | .flowAll => true
  | .neInvComplete => true
  | .flrStart f => below nFunctions f
  | .flrComplete f => below nFunctions f
  | .vfEnable _ => true
  | .configWrite rid off _ _ => below 0x10000 rid && below 0x1000 off
  | .neDmaResponse _ => true
  | .neDmaTimeout _ => true
  | .emberInsert e _ _ _ => below nEmbers e
  | .emberChallengeDone e _ _ => below nEmbers e
  | .emberRemove e => below nEmbers e
  | .emberFault e => below nEmbers e
  | .emberFaultClear e _ => below nEmbers e
  | .emberPoll e _ _ _ _ _ _ => below nEmbers e
  | .laneSwitch o k => below nEngines o && below 8 k
  | .laneApply o _ => below nEngines o
  | .voteWrite d _ _ => below nDomains d
  | .domainDrop d => below nDomains d
  | .domainDrainDone d => below nDomains d
  | .domainDrainExpire d => below nDomains d
  | .domainCommitEnd d => below nDomains d
  | .domainRise d => below nDomains d
  | .domainRiseDone d => below nDomains d
  | .wakeNAssert => true
  | .pcieWakeAssert n => below nGroups n
  | .wakeMatch n _ => below nPorts n
  | .timeCmp => true
  | .wakeStuck => true
  | .bankedEnter _ tag _ => below 256 tag
  | .bankedCleanDone => true
  | .selfRefreshDone => true
  | .bankedCommitEnd => true
  | .bankedExitDone => true
  | .timeSync site m _ _ w => below nSites site && below nModules m && wireOk w
  | .powerPeriod _ _ => true
  | .pwrSet site m _ _ _ w => below nSites site && below nModules m && wireOk w
  | .pwrAck site m _ w => below nSites site && below nModules m && wireOk w
  | .pwrAckTimeout site => below nSites site
  | .throttleAssert => true
  | .throttleDeassert => true
  | .throttleLong => true
  | .ping _ tag _ => below 256 tag
  | .mbUnknownCmd _ code tag _ => below 256 code && below 256 tag
  | .profileNext _ tag _ => below 256 tag
  | .profileLive _ tag _ => below 256 tag
  | .profileWrite _ tag _ => below 256 tag
  | .warmReset _ tag _ => below 256 tag
  | .powerOff _ tag _ => below 256 tag
  | .siteOffline _ tag _ => below 256 tag
  | .siteQuiesceDone => true
  | .siteDrainDone => true
  | .recallVisit h => below nHomes h
  | .recallDone => true
  | .siteOnline _ tag _ => below 256 tag
  | .moduleRetire _ tag _ => below 256 tag
  | .alternateRouteApply site m => below nSites site && below nModules m
  | .moduleRepair _ tag _ => below 256 tag
  | .routeSwap _ tag _ => below 256 tag
  | .routeQuiesceDone => true
  | .routeQuiesceTimeout => true
  | .fwStage _ tag _ => below 256 tag
  | .fwActivate _ tag _ => below 256 tag
  | .fwTrialTimeout => true
  | .smithRestart _ tag _ => below 256 tag
  | .chanSpare _ tag _ => below 256 tag
  | .hearthOffline _ tag _ => below 256 tag
  | .hearthOnline _ tag _ => below 256 tag
  | .portMode _ tag _ => below 256 tag
  | .emberRelease _ tag _ => below 256 tag
  | .vote _ tag _ => below 256 tag
  | .bmcHeartbeat => true
  | .platUpdate => true
  | .eventFire n => below 2048 n
  | .stormEnd n => below 2048 n
  | .evtSwTrig source => below 2048 source
  | .evtMaskWrite off _ => below 0x10000 off
  | .interruptMessage _ => true
  | .intr site m _ core vector w => below nSites site && below nModules m && below 32 core && below 0x1000 vector && wireOk w
  | .intrAck site m _ w => below nSites site && below nModules m && wireOk w
  | .intrResend site => below nSites site
  | .intrTimeout site => below nSites site
  | .fbRecord _ => true
  | .fbBankHandoff _ => true
  | .fbTrunc => true
  | .fbPop _ _ => true
  | .fbRingWrite _ => true
  | .fbRingCmp _ => true
  | .fbDataTimer => true
  | .freeze _ _ _ => true
  | .unfreeze _ _ _ => true
  | .snap _ _ => true
  | .clear _ _ => true
  | .pmuEdge => true
  | .pmu site m _ _ _ w => below nSites site && below nModules m && wireOk w
  | .pmuAck site m _ _ w => below nSites site && below nModules m && wireOk w
  | .pmuAckTimeout site => below nSites site
  | .pmcCntWrite page i _ _ => isPage page && below 8 i
  | .pkgResetDeassert => true
  | .clkLost site m _ _ _ _ _ _ => below nSites site && below nModules m
  | .calibrationComplete site m _ _ _ _ => below nSites site && below nModules m
  | .clkStopSeen site m _ => below nSites site && below nModules m
  | .wakeNDeassert => true
  | .pcieWakeDeassert n => below nGroups n
  | .rawFallingEdge i => below nPins i
  | .emberPresentAssert e => below nEmbers e
  | .pcieLinkUp n port => below nGroups n && below 4 port
  | .stormWindowEnd n => below 2048 n
  | .silentDrop site line => below nSites site && below nLines line
  | .dieWrite site line _ => below nSites site && below nLines line
  | .deviceCompletion n _ _ _ _ => below nGroups n
  | .startReceived site m _ w => below nSites site && below nModules m && wireOk w
  | .trkBeacon site m _ => below nSites site && below nModules m
  | .spareFailed site m _ k _ => below nSites site && below nModules m && below 4 k
  | .counterWrap page i _ => isPage page && below 8 i
  | .bmcMbStatRead => true

end Sys2Proof
end

