-- ==== Sys2Proof/Safety.lean ====
section
/-! DEFINITION. What counts as a safe run of the hub, in the terms the statements use. -/

namespace Sys2Proof.Safety

open Sys2Proof.Machine

/-- The command completes: the hub answers a next state. -/
def Completes (c : Instr) (s : State) : Prop := ∃ t, exec c s = .next t

/-- The command answers a next state of which `P` holds. -/
def Answers (c : Instr) (s : State) (P : State → Prop) : Prop := ∃ t, exec c s = .next t ∧ P t

/-- Every byte of memory reads the same in both states. -/
def SameMemory (s t : State) : Prop := ∀ a, Memory.read t.mem.cells a = Memory.read s.mem.cells a

/-- Every live register outside the listed (page, offset) pairs reads the same in both states. -/
def SameRegs (l : List (Nat × Nat)) (s t : State) : Prop := ∀ p off, off < 0x10000 → (p, off) ∉ l → t.reg p off = s.reg p off

/-- In Off the package holds nothing but what outlives Off (R629); a start-up that found a rail out of range also shows its alert and BMC state 5. -/
def NothingInOff (s : State) : Prop :=
  s.off = true → s = { s.offState with
    alert := s.alert, power := { bootFail := s.power.bootFail }
    smith := if s.power.bootFail then { running := false, ibi := some 5 } else {} }

/-- Near memory is in its canonical form. -/
def MemoryCanonical (s : State) : Prop := Memory.wf s.mem.cells = true

/-- The package is on, and no supply fault or thermal trip has stopped the clocks of its domains (R629, R734, R741). -/
def Running (s : State) : Prop := s.off = false ∧ s.power.stopped = false

/-- The package is running and not in Banked, so every clock runs (R625). -/
def Clocked (s : State) : Prop := Running s ∧ s.banked = false

/-- One entry of the table of R184: the state after (none is I), the opcode of data sent to SRC, and the answer to the home: WbSnp or
SnpAck, RESULT, FWD and WP. -/
structure SnoopRow where
  next : Option LineSt
  toSrc : Option Nat := none
  wb : Bool := false
  result : Nat := 0
  fwd : Bool := false
  wp : Bool := false
  deriving DecidableEq, Repr

/-- The table of R184: snoop opcode, whether forwarding, DISCARD, and the state of the line at the die. -/
def r184 (op : Nat) (fwd discard : Bool) : Option LineSt → SnoopRow
  | none => { next := none }
  | some .sWP => { next := some .sWP, wp := true }
  | some .sS => if op = 0x20 && !fwd then { next := some .sS, result := 1 } else { next := none }
  | some .sL =>
    if op = 0x20 then
      if fwd then { next := some .sS, toSrc := some 0x51, result := 1, fwd := true } else { next := some .sL, result := 2 }
    else if op = 0x21 then { next := none, toSrc := some 0x52, fwd := true } else { next := none }
  | some .sE =>
    if op = 0x20 then
      if fwd then { next := some .sS, toSrc := some 0x51, result := 1, fwd := true } else { next := some .sL, result := 2 }
    else if op = 0x21 then { next := none, toSrc := some 0x52, fwd := true } else { next := none }
  | some .sM =>
    if op = 0x20 then
      if fwd then { next := some .sS, toSrc := some 0x51, wb := true, result := 1, fwd := true }
      else { next := some .sL, wb := true, result := 2 }
    else if op = 0x21 then { next := none, toSrc := some 0x53, fwd := true }
    else if op = 0x22 && discard then { next := none } else { next := none, wb := true }

/-- The command of a snoop opcode at a die. -/
def snoopCommand (op : Nat) (p : Pkt) : Instr :=
  if op = 0x20 then .snpShare p else if op = 0x21 then .snpOwn p else if op = 0x22 then .snpInv p else .snpBack p

/-- The units in flight outside the listed positions at the end are those before: `l` were added. -/
def Sends (s t : State) (l : List Pkt) : Prop := ∃ k : List InFlight, t.net = s.net ++ k ∧ k.map (·.p) = l

/-- The die of a site has units `l` to send, each on the module it names as its source. -/
def DieSends (s t : State) (site : Nat) (l : List Pkt) : Prop :=
  ∃ k : List InFlight, t.net = s.net ++ k ∧ k.map (·.p) = l ∧ ∀ e ∈ k, e.at_ = .die site (moduleOf e.p.src)

/-- Of the registers and link sides only those of a site's own links change. -/
def LinksOnly (site : Nat) (s t : State) : Prop :=
  (∀ q off, q ≠ pgLNK site → off < 0x10000 → t.reg q off = s.reg q off) ∧ ∀ a b e, b < 4 → a ≠ site → t.lk a b e = s.lk a b e

/-- No line of any die but line `line` of die `site` changes. -/
def OtherLines (site line : Nat) (s t : State) : Prop :=
  ∀ i l, (i ≠ site ∨ l ≠ line) → t.dieLine i l = s.dieLine i l

/-! ### Registers and memory that a command leaves -/

/-- The live registers outside the counter block (R714, R716) and the listed (page, offset) pairs read as before. -/
def SameButCounters (l : List (Nat × Nat)) (s t : State) : Prop :=
  ∀ p off, off < 0x10000 → ¬ (0x3000 ≤ off ∧ off < 0x3100) → (p, off) ∉ l → t.reg p off = s.reg p off

/-! ### Homes (R187 to R259) -/

/-- The command of a request opcode at a home. -/
def homeCommand (p : Pkt) : Instr :=
  match p.op.toNat with
  | 1 => .rdShared p
  | 2 => .rdOwn p
  | 3 => .upgrade p
  | 4 => .rdOnce p
  | 5 => .strike p
  | 6 => .strikePart p
  | 7 => .farAtomic p
  | _ => .evictClean p

/-- A unit is the oldest of its queue at home `h`, and no step of a higher priority than `n` is to issue first (R121, R215, R216). -/
def Issues (s : State) (h n : Nat) (p : Pkt) : Prop :=
  Clocked s ∧ State.homeOfPkt p = some h ∧ s.arrived p = true ∧ s.homeTurn h n = true ∧ (n = 1 → s.firstAnswer h p = true)

/-- A request reaches home `h`, and checks 1 to 3 of R219 pass: the home and the backing of its address, and its site is not fenced. -/
def AtHome (s : State) (h : Nat) (p : Pkt) : Prop :=
  Issues s h 4 p ∧ 1 ≤ p.op.toNat ∧ p.op.toNat ≤ 8 ∧ s.home (paOf p.addr.toNat) = h ∧
  s.memBacked (paOf p.addr.toNat) = true ∧ (isDieNode p.src = true → s.fenced (siteOf p.src) = false)

/-- Checks 4 to 7 of R219 pass as well: no retired page, no quiesced site, line not BUSY and not held for a reservation. -/
def LineFree (s : State) (h : Nat) (p : Pkt) : Prop :=
  AtHome s h p ∧ (isDieNode p.src = true → s.quiesced (siteOf p.src) = false) ∧ s.pageRetired p.addr.toNat = false ∧
  s.lineBusy h p.addr.toNat = false ∧ s.oldestRsv h p.addr.toNat = none

/-- The entry of a line names no fenced site, so on-demand containment (R247) finds nothing to do. -/
def entryClean (s : State) (h l : Nat) : Bool :=
  match s.lineDir h l with
  | .nc => true
  | .ex o => !s.fenced o
  | .sh pv _ => (sitesOf pv).all fun x => !s.fenced x

/-- A request that every check of R219 passes: it takes tracker entry `k`, held as `held` (R225). -/
def HomeTakes (s : State) (h k : Nat) (p : Pkt) (held : Held) : Prop :=
  LineFree s h p ∧ p.rsv = false ∧ s.trackerCheck h p.cls.toNat = .inl held ∧ Tab.freeKey (s.homeAt h).trk 1024 = some k ∧
  entryClean s h p.addr.toNat = true

/-- A bad mask or OP, which the home answers at once (R161, R162). -/
def badOperand (p : Pkt) : Bool :=
  ((p.op.toNat == 5 || p.op.toNat == 6) && p.mask == 0) || (p.op.toNat == 7 && (atomicTarget p.size.toNat p.mask).isNone)

/-- One snoop of the table of R187: site, opcode, whether forwarding, DISCARD. -/
abbrev SnoopOut := Nat × Nat × Bool × Bool

/-- The snoops of the table of R187 for request opcode `op` from site `me` (16: not a die) to a line whose entry is shared. -/
def r187Shared (op : Nat) (nolead whole : Bool) (me : Nat) (pv : Nat) (lead : Option Nat) : List SnoopOut :=
  let others := (sitesOf pv).filter (· != me)
  match op with
  | 1 => match lead with
    | none => []
    | some x => if nolead ∨ x = me then [] else [(x, 0x20, true, false)]
  | 2 => others.map fun x => if lead = some x then (x, 0x21, true, false) else (x, 0x22, false, false)
  | 3 => others.map fun x => if bitN pv me then (x, 0x22, false, false)
      else if lead = some x then (x, 0x21, true, false) else (x, 0x22, false, false)
  | 5 => others.map fun x => (x, 0x22, false, whole)
  | 6 => others.map fun x => (x, 0x22, false, false)
  | 7 => others.map fun x => (x, 0x22, false, false)
  | _ => []

/-- The snoop of the table of R187 where the entry names owner `o`. -/
def r187Owned (op : Nat) (nolead whole : Bool) (o : Nat) : List SnoopOut :=
  match op with
  | 1 => [(o, 0x20, !nolead, false)]
  | 2 => [(o, 0x21, true, false)]
  | 3 => [(o, 0x21, true, false)]
  | 4 => [(o, 0x20, false, false)]
  | 5 => [(o, 0x22, false, whole)]
  | 6 => [(o, 0x22, false, false)]
  | 7 => [(o, 0x22, false, false)]
  | _ => []

/-- The snoop packet that stands for an entry of the table (R164, R165, R185): a forwarding snoop carries SRC and TXN of the request,
any other the home and the tracker entry. -/
def IsSnoop (h k : Nat) (req : Pkt) (o : SnoopOut) (q : Pkt) : Prop :=
  q.op.toNat = o.2.1 ∧ siteOf q.dst = o.1 % 64 ∧ q.src = (if o.2.2.1 then req.src else nodeHome h) ∧
  q.txn = (if o.2.2.1 then req.txn else BitVec.ofNat 12 k) ∧ q.addr = req.addr ∧ q.size.getLsbD 0 = o.2.2.2

/-- A Nack of home `h` to a request, for reason `r` (R167). -/
def IsNack (h : Nat) (req : Pkt) (r : Nat) (q : Pkt) : Prop :=
  q.op = 0x40 ∧ q.src = nodeHome h ∧ q.dst = req.src ∧ q.txn = req.txn ∧ q.addr.toNat = r ∧ q.last = true

/-- A response of home `h` to the requester of a transaction. -/
def IsReply (h : Nat) (req : Pkt) (op : BitVec 7) (last : Bool) (q : Pkt) : Prop :=
  q.op = op ∧ q.src = nodeHome h ∧ q.dst = req.src ∧ q.txn = req.txn ∧ q.last = last

/-- The directory states of all lines of home `h` but `l` are as before. -/
def OtherEntries (h l : Nat) (s t : State) : Prop := ∀ l', l' ≠ l → t.lineDir h l' = s.lineDir h l'

/-- The transaction `x` at entry `k` of home `h` is a request being served, with nothing else at the home, and its requester's site and
every site the entry may name are not fenced. -/
def Serving (s : State) (h k : Nat) (x : Txn) : Prop :=
  Clocked s ∧ h < 64 ∧ (s.homeAt h).trk = [(k, x)] ∧ (s.homeAt h).wb = [] ∧ (s.homeAt h).rsv = [] ∧ k < 1024 ∧
  x.kind = .request ∧ x.victim = none ∧ x.started = true ∧ x.wbSeen = [] ∧ x.wbDone = [] ∧ x.line < 2 ^ 46 ∧ x.line = x.req.addr.toNat ∧
  ∀ i, i < 16 → s.fenced i = false

/-- No job of the network engine has its accesses answered, no SYNC waits in the IXU or the network engine and no hub agent has a request
outstanding or waiting for a TXN: nothing else goes on after a command. -/
def Settled (s : State) : Prop := s.ne.jobs = [] ∧ s.agents = [] ∧ s.agentQ = [] ∧ s.ixu.syncs = [] ∧ s.ne.syncs = []

/-- The unit that SITE sends to the module of a die that asked (R160): it waits in LNK[s]. -/
def IsSiteReply (req : Pkt) (op : BitVec 7) (e : InFlight) : Prop :=
  e.p.op = op ∧ e.p.src = req.src ∧ e.p.dst = req.src ∧ e.p.txn = req.txn ∧ e.p.last = true ∧ e.at_ = .rx

/-! ### Die links (R397 to R444) -/

/-- The live registers of every other page read as before. -/
def OnlyPage (p : Nat) (s t : State) : Prop := ∀ q off, q ≠ p → off < 0x10000 → t.reg q off = s.reg q off

/-- Both sides of every other module are as before. -/
def OtherLinks (site m : Nat) (s t : State) : Prop :=
  ∀ a b e, b < 4 → (a ≠ site ∨ b ≠ m) → t.lk a b e = s.lk a b e

/-- Only the two sides of the module, the registers of its page, records and events change. -/
def ModuleOnly (site m : Nat) (s t : State) : Prop :=
  OnlyPage (pgLNK site) s t ∧ OtherLinks site m s t ∧
  t = { s with regs := t.regs, links := t.links, recs := t.recs, raised := t.raised }

/-- The side goes to state `st` now; the hub shows its own side in LNK_STAT (R420, R444). -/
def GoesTo (site m : Nat) (e : LinkEnd) (st : Nat) (s t : State) : Prop :=
  (t.lk site m e).st = st ∧ (t.lk site m e).since = s.time ∧ (e = .hub → t.get (pgLNK site) (Fld.LNK_STAT_STATE m) = st)

/-- The side sends these link-management messages (R418). -/
def SendsLm (site m : Nat) (e : LinkEnd) (l : List Lm) (s t : State) : Prop :=
  (t.lk site m e).outbox.map (·.lm) = (s.lk site m e).outbox.map (·.lm) ++ l ∧ (t.lk site m e).lastTx = s.time

/-- The side has no DATA frame unacknowledged, so the header of a frame it hears ends none. -/
def Quiet (s : State) (site m : Nat) (e : LinkEnd) : Prop := ∀ l, (s.lk site m e).link = some l → l.unacked = []

/-- SEQ sent and accepted are as before; link state is there where it was. -/
def SameSeqs (x y : LinkSide) : Prop := y.link.map (fun l => (l.txSeq, l.rxSeq)) = x.link.map fun l => (l.txSeq, l.rxSeq)

/-- The side reports what it has accepted: the ACK is due with its next frame, or an ACK frame has carried it (R416). -/
def Reports (site m : Nat) (e : LinkEnd) (t : State) : Prop :=
  (∃ l, (t.lk site m e).link = some l ∧ l.ackDue = true) ∨ ⟨0x102, []⟩ ∈ (t.lk site m e).outbox.map (·.lm)

/-- The HELLO of a side (R418, R421). -/
def helloOf (site m : Nat) (e : LinkEnd) (x : LinkSide) : Lm := ⟨0x01, [b2n (e == .die), site, m, b2n x.link.isSome, x.mapSeq]⟩

/-! ### Traverse and Boundary (R445 to R479) -/

/-- The hub waits, on module `m`, for the die's answer in step `tr.step` of the identity exchange; the module has not yet carried a DATA
frame (R412, R454). -/
def Exchanging (s : State) (site m : Nat) (tr : Trav) : Prop :=
  Running s ∧ site < 16 ∧ m < 4 ∧ (s.siteAt site).trav = some tr ∧ tr.m = m ∧ (s.lk site m .hub).st = 1 ∧ Quiet s site m .hub

/-- No service operation runs and no start-up is in progress. -/
def SmithFree (s : State) : Prop := s.smith.running = true ∧ s.smith.op = none ∧ s.smith.startup = false

/-- The exchange goes on: the hub sends one message and waits for its answer in `step`. -/
def Asks (site m step : Nat) (l : Lm) (s t : State) : Prop :=
  (∃ tr, (t.siteAt site).trav = some tr ∧ tr.step = step ∧ tr.m = m ∧ tr.sent = s.time) ∧ SendsLm site m .hub [l] s t

/-- Traverse ends with a result other than ADMITTED (R457). -/
def TravFails (site r : Nat) (s t : State) : Prop :=
  (t.siteAt site).trav = none ∧ t.get (pgSITE site) Fld.TRAV_RESULT_RESULT = r ∧
  (∀ m, m < 4 → (t.lk site m .hub).st = 0 ∧ t.flag (pgLNK site) (Fld.LNK_CTL_EN m) = false) ∧
  bitN (t.votes site) 0 = false ∧ t.fenced site = s.fenced site ∧ ∃ l q, t.recs = s.recs ++ l ∧ q ∈ l ∧ q.typ = 0x0D ∧ q.sub = r

/-- An enabled window of a site contains the page address and grants permission `b`: 0 R, 1 W, 2 C (R470). -/
def winGrants (s : State) (site pa i b : Nat) : Bool :=
  s.flag (pgSITE site) (Fld.BND_WIN_BASE_LO_EN i) &&
  s.pageAddr (pgSITE site) (Reg.BND_WIN_BASE_LO i) (Reg.BND_WIN_BASE_HI i) ≤ pa &&
  decide (pa < s.pageAddr (pgSITE site) (Reg.BND_WIN_LIMIT_LO i) (Reg.BND_WIN_LIMIT_HI i) + 4096) &&
  bitN (s.reg (pgSITE site) (Reg.BND_WIN_BASE_LO i)) (1 + b)

/-- The permissions of the table of R470. -/
def r470 (op : Nat) : List Nat :=
  if op = 1 then [0, 2] else if op = 2 ∨ op = 3 then [0, 1, 2] else if op = 4 ∨ op = 0x70 then [0]
  else if op = 5 ∨ op = 6 ∨ op = 0x68 ∨ op = 0x71 then [1] else if op = 7 then [0, 1] else []

/-- Which checks of the table of R469 a unit fails: FORMAT, SRC, OPCODE, WINDOW, OUTSTANDING; the last three only while EN is 1. -/
def r469Fails (s : State) (site : Nat) (p : Pkt) : List Bool :=
  let pg := pgSITE site
  let en := s.flag pg Fld.BND_CTL_EN
  let n := p.op.toNat
  [!(opAssigned p.op && p.vc == vcOfOp p.op),
   !(isDieNode p.src && siteOf p.src == site),
   en && !bitN (s.reg pg (Reg.BND_ALLOW (n / 32))) (n % 32),
   en && !((r470 n).all fun b => (List.range 16).any fun i => winGrants s site (paOf p.addr.toNat) i b),
   en && 1 ≤ n && n ≤ 7 && decide (s.get pg Fld.BND_OUT_MAX ≤ s.get pg Fld.BND_OUT_COUNT)]

/-- The unit is the only one in flight, accepted by LNK[s] from module `m` of an admitted site in RUN. -/
def AtBoundary (s : State) (site m : Nat) (p : Pkt) (t0 : Nat) : Prop :=
  Running s ∧ site < 16 ∧ m < 4 ∧ s.net = [⟨p, .link site m, t0⟩] ∧ s.get pgPWR Fld.PWR_STAT_STATE = 0 ∧ s.fenced site = false ∧
  s.quiesced site = false

/-- A violation of kind `k` is counted, located and recorded (R475). -/
def Violates (s t : State) (site k : Nat) (p : Pkt) : Prop :=
  t.get (pgSITE site) (Fld.BND_CNT_COUNT (k - 1)) = min (s.get (pgSITE site) (Fld.BND_CNT_COUNT (k - 1)) + 1) (2 ^ 32 - 1) ∧
  bitN (t.reg (pgSITE site) Reg.BND_VIOL) (k - 1) = true ∧ srcSITE site 1 ∈ t.raised ∧
  (s.flag (pgSITE site) Fld.BND_VIOL_LOC_HI_V = false → t.get (pgSITE site) Fld.BND_VIOL_LOC_HI_KIND = k ∧
    t.get (pgSITE site) Fld.BND_VIOL_LOC_HI_OPCODE = p.op.toNat) ∧
  (s.stormed (srcSITE site 1) = false → ∃ r ∈ t.recs, r.typ = 0x0E ∧ r.opcode = p.op.toNat ∧ r.words = [site + 16 * k])

/-! ### The IXU (R480 to R521) -/

/-- The IXU is on, nothing goes on in the network engine or among the SYNCs, no request waits for a TXN, and a read that has ended waits only
behind posted writes (R273). -/
def IxuIdle (s : State) : Prop :=
  Running s ∧ s.pageOff pgIXU = false ∧ s.ne.jobs = [] ∧ s.ixu.syncs = [] ∧ s.ne.syncs = [] ∧ s.agentQ = [] ∧
  (s.dmas.all fun e => match e.2.st with
    | .ended _ _ => s.postedBefore e.1 e.2
    | _ => true) = true

/-- The cached leaf is one that the command removes, by the table of R500; `x` is an IOTLB, device TLB or loaded entry. -/
def r500 (c : Nat) (x : Tlb) : Bool :=
  let any := bitN c 4
  let tags := decide (x.vmid = bits c 28 16) && (any || (!x.g && decide (x.space = bits c 8 20)))
  let size := 2 ^ (12 + 9 * x.size)
  let n := 4096 * 2 ^ bits c 48 6
  let base := bits c 64 45 * 4096 / n * n
  match x.stream with
  | some st => (bits c 0 4 == 5 && (any || decide (st = bits c 8 17))) || bits c 0 4 == 7
  | none =>
    match bits c 0 4 with
    | 1 => tags
    | 2 => tags && decide (x.va < base + n) && decide (base < x.va + size)
    | 3 => decide (x.vmid = bits c 28 16)
    | 4 => tags && decide (x.va < base + n) && decide (base < x.va + size)
    | 7 => true
    | _ => false

/-- A well-formed invalidation command of R499 other than SYNC, by its fields. -/
def r499 (c : Nat) : Prop :=
  bits c 0 4 ∈ [1, 2, 3, 4, 5, 7] ∧ invWellFormed c = true

/-- A response `p` that has arrived answers the one outstanding request of the IXU, which serves the walk `w` of DMA `id`. -/
def WalkWaits (s : State) (p : Pkt) (id : Nat) (d : Dma) (w : Walk) : Prop :=
  IxuIdle s ∧ s.arrived p = true ∧ p.dst = nodeIXU ∧ (∃ a, s.agents = [(State.agentKey nodeIXU p.txn.toNat, { p := a, use := AgUse.walk id })]) ∧
  Tab.get? id s.dmas = some d ∧ Tab.get? id s.ixu.walks = some w ∧ d.who < 6 ∧ d.spec = false

/-- The IXU reads the line of a PA with RdOnce (R488, R501). -/
def ReadsLine (s t : State) (pa : Nat) : Prop :=
  ∃ q, Sends s t [q] ∧ q.op = 0x04 ∧ q.src = nodeIXU ∧ q.dst = nodeHome (s.home pa) ∧ q.addr = BitVec.ofNat 46 (pa / 64)

/-- The DMA ends unsent, and a read or atomic of a device is answered Unsupported Request (R493), behind the posted writes that its answer
must not pass (R273). -/
def DmaFaults (id : Nat) (d : Dma) (s t : State) : Prop :=
  if d.kind = 2 ∧ d.acc ≠ 3 ∧ s.postedBefore id d = true then ∃ d', Tab.get? id t.dmas = some d' ∧ d'.st = .ended 2 false
  else Tab.get? id t.dmas = none ∧ (d.kind = 2 → d.acc ≠ 3 → ∃ a, t.dmaAns = some a ∧ a.rid = d.rid ∧ a.status = 2)

/-- The DMA is translated to `pa` (R490). -/
def DmaReady (id pa : Nat) (t : State) : Prop := ∃ d, Tab.get? id t.dmas = some d ∧ d.st = DmaSt.ready ∧ d.pa = pa

/-! ### Ember modules and lanes (R527 to R542) -/

/-- The ROM has the form of R532: FORMAT, LENGTH, CRC, and reserved bytes zero. -/
def romFormOk (rom : List Byte) : Prop :=
  rom.length = 512 ∧ leAt rom 0 2 = 1 ∧ leAt rom 2 2 = 512 ∧ crc32 (rom.take 508) = leAt rom 508 4 ∧ leAt rom 18 6 = 0 ∧ leAt rom 448 60 = 0

/-- MODEL, CHANNELS and STBY_PCT are those of an EM8 (R532, R535). -/
def romModelOk (rom : List Byte) : Prop := leAt rom 6 2 = 0x0E08 ∧ leAt rom 9 1 = 8 ∧ 10 ≤ leAt rom 16 1 ∧ leAt rom 16 1 ≤ 50

/-- Verification of a module ends with a code other than VERIFIED, and one record (R535). -/
def Refused (e code : Nat) (s t : State) : Prop :=
  t.get (pgEMB e) Fld.EMB_STAT_RESULT = code ∧ (t.embAt e).chal = none ∧
  (s.stormed (srcEMB e 5) = false → ∃ r, t.recs = s.recs ++ [r] ∧ r.typ = 0x10 ∧ r.sub = 0 ∧ r.words = [e + 256 * code])

/-- Lane `k` of engine `e / 2` is in use, fed by module `e`, and no move of it runs. -/
def LaneOf (s : State) (e k : Nat) : Prop :=
  e < 4 ∧ k < 8 ∧ s.laneInUse (e / 2) k = true ∧ s.laneSrc (e / 2) k = e ∧ s.laneFed (e / 2) k = true ∧ bitN (s.embAt e).lit k = true ∧
  Tab.get? (8 * (e / 2) + k) s.lanes = none

/-! ### The network engine (R543 to R611) -/

/-- The engine and the IXU are on with nothing going on in them, and the IXU holds the BYPASS record of function `f`. -/
def NeReady (s : State) (f : Nat) : Prop :=
  Running s ∧ s.pageOff pgNE = false ∧ s.pageOff pgIXU = false ∧ s.ne.jobs = [] ∧ s.agents = [] ∧ s.agentQ = [] ∧ s.dmas = [] ∧ s.ixu.syncs = [] ∧
  s.ne.syncs = [] ∧ s.get pgIXU Fld.IXU_CTL_MODE = 2 ∧ s.ixu.binds = [(0x10000 + f, 1)] ∧ f < 1025

/-- First addresses of the parts of `n` bytes at `va` that lie in one line each. -/
def lineStarts (va n : Nat) : List Nat := (List.range ((va % 64 + n + 63) / 64)).map fun i => if i = 0 then va else (va / 64 + i) * 64

/-- The engine begins one job: function `f` reads (`acc` 0), writes (1) or updates (2) the `n` bytes at `va`, one access to each line. -/
def NeJobOf (t : State) (kind : NeKind) (f acc va n : Nat) : Prop :=
  ∃ id j, t.ne.jobs = [(id, j)] ∧ j.kind = kind ∧ j.fn = f ∧ j.left = (lineStarts va n).length ∧
    (∀ e ∈ t.dmas, e.2.who = 16 ∧ e.2.rid = f ∧ e.2.acc = acc ∧ e.2.job = id) ∧ t.dmas.map (fun e => e.2.va) = lineStarts va n

/-- The engine begins to read one of its own tables: the lines that hold the `n` bytes at the PA. -/
def NeTableRead (t : State) (kind : NeKind) (pa n : Nat) : Prop :=
  ∃ id j, t.ne.jobs = [(id, j)] ∧ j.kind = kind ∧
    (∀ e ∈ t.dmas, e.2.who = 16 ∧ e.2.acc = 0 ∧ e.2.st = DmaSt.ready ∧ e.2.job = id) ∧
    t.dmas.map (fun e => e.2.pa) = (lineStarts pa n).map fun a => a / 64 * 64

/-- The final response `p`, which has arrived, answers access `k` of the only job `j` of the engine, its last. -/
def NeAnswered (s : State) (p : Pkt) (k id : Nat) (d : Dma) (j : NeJob) : Prop :=
  Running s ∧ s.pageOff pgNE = false ∧ s.ixu.syncs = [] ∧ s.ne.syncs = [] ∧ s.ne.jobs = [(id, j)] ∧ s.dmas = [(k, d)] ∧ d.parts ≤ 1 ∧ d.worst = 0 ∧ j.left = 1 ∧ j.got = [] ∧
  j.bad = false ∧ j.timed = false ∧ d.who = 16 ∧ d.job = id ∧ d.spec = false ∧ d.pos = 0 ∧ d.fgen = (s.fnAt d.rid).fgen ∧ s.arrived p = true ∧ s.agentQ = [] ∧
  p.dst = nodeNE ∧ p.last = true ∧ p.hasData = true ∧ p.op = 0x54 ∧ ∃ a, s.agents = [(State.agentKey nodeNE p.txn.toNat, { p := a, use := AgUse.dma k })]

/-- The message of vector `v` of function `f` may be sent, to the device address `pa` (R596, R597). -/
def MsixTo (s : State) (f v pa : Nat) : Prop :=
  (s.fnAt f).msixEn = true ∧ (s.fnAt f).msixMask = false ∧ (s.fnAt f).bme = true ∧ (s.fnAt f).flr = none ∧ (s.fnAt f).err = false ∧
  ∃ lo hi dw ctl, s.msixEntry f v = [lo, hi, dw, ctl] ∧ lo % 4 = 0 ∧ pa = lo + hi * 2 ^ 32 ∧ ctl % 2 = 0 ∧ isDeviceRange pa = true

/-- Nothing but the engine, its pages of registers, DMAs, the walks of the IXU, records and events changes. -/
def NeOnly (s t : State) : Prop :=
  t = { s with ne := t.ne, ixu := t.ixu, regs := t.regs, dmas := t.dmas, dmaSeq := t.dmaSeq, recs := t.recs, raised := t.raised, ctr := t.ctr }

/-- The queue pair after its next completion entry is due (R586, R588): `v`, or none where SIGNAL is 0 and all went well. -/
def CompletesWith (p : Qp) (v : Option Nat) (p' : Qp) : Prop :=
  match v with
  | some e => p' = { p with sq := [], cpl := p.cpl ++ [e] }
  | none => p' = { p with sq := [], reserved := p.reserved - 1 }

/-- Function `f` may execute the admin command `c` it has read. -/
def AdminRuns (s : State) (f c : Nat) : Prop :=
  NeReady s f ∧ s.fnLive f = true ∧ (s.fnAt f).cmd = some c ∧ (s.fnAt f).aqBusy = false ∧ (s.fnAt f).acqBase % 32 = 0 ∧ c < 2 ^ 512

/-- The command ends: its completion goes to the next slot of the ACQ, with TAG, STATUS, OPCODE, RESULT and PHASE (R589, R598). -/
def AdminEnds (s t : State) (f c status result : Nat) : Prop :=
  let x := s.fnAt f
  let va := x.acqBase + 32 * (x.acqPi % 2 ^ x.acqLog)
  NeJobOf t .acqWrite f 1 va 32 ∧ ∃ k d, t.dmas = [(k, d)] ∧ lineField d.data (va % 64) 32 =
    bits c 16 16 + status * 2 ^ 16 + bits c 0 8 * 2 ^ 24 + result * 2 ^ 32 + (if x.acqPi / 2 ^ x.acqLog % 2 = 0 then 2 ^ 255 else 0)

/-- The DCID in OBJ of the command names a context of function `f`. -/
def NamesCtx (s : State) (f c i : Nat) : Prop :=
  i = bits c 32 20 ∧ (s.ctxAt i).gen = bits c 52 12 ∧ (s.ctxAt i).fn = f ∧ (s.ctxAt i).st ≠ 0

/-- Counter register field `f` of a page has counted one more, up to its largest value. -/
def CountsOne (s t : State) (p : Nat) (f : FRef) : Prop := t.get p f = min (s.get p f + 1) (2 ^ f.width - 1)

/-- Chain receive holds frame `id` with packet `p`, whose DCID names context `c`, not encrypted, on an idle engine. -/
def ChainHeld (s : State) (id c : Nat) (p : ChainPkt) : Prop :=
  NeReady s (s.ctxAt c).fn ∧ s.ne.rops = [] ∧ c = p.dcid % 2 ^ 20 ∧ (s.ctxAt c).enc = false ∧ bitN p.flags 3 = false ∧ p.psn < 2 ^ 32 ∧
  ∃ i fr, s.ne.frames = [(id, (i, fr))] ∧ fr.chain = some p ∧ fr.ce = false

/-- Context `c` sends a packet of a TYPE: the last it has sent, with the fields of R553 that its context gives, sealed where the context is
encrypted, in a frame counted at its interface. -/
def SendsChain (s t : State) (c typ : Nat) (q : ChainPkt) : Prop :=
  Tab.get? c t.ne.sentPkt = some q ∧ q.typ = typ ∧ q.dcid = (s.ctxAt c).rcid ∧ q.ts = s.time % 2 ^ 32 ∧
  (let i := (s.ctxAt c).intf
   if s.intfUp i then CountsOne s t (pgNEP (i / 4)) (Fld.TX_FRAMES_COUNT (i % 4)) ∧ 
     (Tab.get? i t.ne.sentFrame).map (·.udp) = some (chainBytes (if (s.ctxAt c).enc then chainSeal (s.ctxAt c) q else q))
   else CountsOne s t (pgNEP (i / 4)) (Fld.TX_DOWN_COUNT (i % 4)))

/-- Whether a window's entry `e` passes KEY, PERM and BOUNDS for a packet of a context, in that order: 0, or the reason of the NAK (R569). -/
def r569 (e : Nat) (x : Ctx) (p : ChainPkt) : Nat :=
  let n := if p.op = 1 then p.data.length else if p.op = 2 then p.len else 8
  let perm := if p.op = 2 then 0 else if p.op = 1 then 1 else 2
  if bitN e 167 = false ∨ bits e 168 8 ≠ p.key % 256 then 1
  else if bits e 128 16 ≠ x.fn ∨ bits e 144 16 ≠ x.pd ∨ bitN e (160 + perm) = false then 3
  else if p.va < bits e 0 64 ∨ bits e 0 64 + bits e 64 64 < p.va + n ∨ (3 ≤ p.op ∧ p.va % 8 ≠ 0) then 2 else 0

/-! ### Power, reset and service (R612 to R677) -/

/-- Only the PWR page and the bookkeeping of power change. -/
def PowerOnly (s t : State) : Prop := OnlyPage pgPWR s t ∧ t = { s with regs := t.regs, power := t.power }

/-- Slow input `i` may become asserted: 1 us after a raw fall, or at a fall less than 2 us after the one before (R641). -/
def PinRises (s : State) (i : Nat) : Prop :=
  (s.pin i).filt = false ∧ ∃ f, (s.pin i).fall = some f ∧ ((s.pin i).quick = true ∨ f + 1000 ≤ s.time)

/-- Slow input `i` may become deasserted: no raw fall in the last 2 us (R641). -/
def PinFalls (s : State) (i : Nat) : Prop := (s.pin i).filt = true ∧ ∀ f, (s.pin i).fall = some f → f + 2000 ≤ s.time

/-- Smith firmware runs and is free to take a mailbox command (R662, R663). -/
def MbFree (s : State) : Prop :=
  s.off = false ∧ s.smith.running = true ∧ s.smith.op = none ∧ s.smith.autoOp = none ∧ s.power.warm = 0 ∧ s.power.bootFail = false

/-- A mailbox command has ended: its results, STATUS, CODE and TAG, DONE, BUSY clear, SEQ one more, the event SMITH_MB_DONE (R662). -/
def MbEnds (s t : State) (code tag status res0 res1 : Nat) : Prop :=
  t.smith.op = none ∧ t.get pgSMITH Fld.MB_STAT_STATUS = status ∧ t.get pgSMITH Fld.MB_STAT_CODE = code ∧
  t.get pgSMITH Fld.MB_STAT_TAG = tag % 256 ∧ t.flag pgSMITH Fld.MB_STAT_DONE = true ∧ t.flag pgSMITH Fld.MB_STAT_BUSY = false ∧
  t.get pgSMITH Fld.MB_STAT_SEQ = (s.get pgSMITH Fld.MB_STAT_SEQ + 1) % 256 ∧ t.get pgSMITH (Fld.MB_RES_RES 0) = res0 ∧
  t.get pgSMITH (Fld.MB_RES_RES 1) = res1 ∧ srcMbDone ∈ t.raised

/-- A mailbox command runs: BUSY, DONE clear, its code and client held. -/
def MbRuns (t : State) (code : Nat) (bmc : Bool) (args : List Nat) : Prop :=
  t.smith.op = some code ∧ t.smith.bmc = bmc ∧ t.smith.args = args ∧ t.flag pgSMITH Fld.MB_STAT_BUSY = true ∧
  t.flag pgSMITH Fld.MB_STAT_DONE = false

/-- Argument `i` of a command: MB_ARG from host software, the command's own from the BMC (R662). -/
def mbArgs (s : State) (bmc : Bool) (args : List Nat) : List Nat :=
  if bmc then args.map (· % 2 ^ 32) else (List.range 4).map fun i => s.reg pgSMITH (Reg.MB_ARG i)

/-- Command `c` is the one R664 lists with this code, for these clients: 1 host software, 2 the BMC, 3 both. -/
def r664 (bmc : Bool) (tag : Nat) (args : List Nat) (code clients : Nat) (c : Instr) : Prop :=
  code = 0x01 ∧ clients = 3 ∧ c = .ping bmc tag args ∨ code = 0x02 ∧ clients = 3 ∧ c = .profileNext bmc tag args ∨
  code = 0x03 ∧ clients = 3 ∧ c = .profileLive bmc tag args ∨ code = 0x04 ∧ clients = 1 ∧ c = .profileWrite bmc tag args ∨
  code = 0x08 ∧ clients = 3 ∧ c = .warmReset bmc tag args ∨ code = 0x09 ∧ clients = 3 ∧ c = .powerOff bmc tag args ∨
  code = 0x0A ∧ clients = 1 ∧ c = .bankedEnter bmc tag args ∨ code = 0x10 ∧ clients = 1 ∧ c = .siteOffline bmc tag args ∨
  code = 0x11 ∧ clients = 1 ∧ c = .siteOnline bmc tag args ∨ code = 0x12 ∧ clients = 1 ∧ c = .moduleRetire bmc tag args ∨
  code = 0x13 ∧ clients = 1 ∧ c = .moduleRepair bmc tag args ∨ code = 0x14 ∧ clients = 1 ∧ c = .routeSwap bmc tag args ∨
  code = 0x18 ∧ clients = 1 ∧ c = .fwStage bmc tag args ∨ code = 0x19 ∧ clients = 1 ∧ c = .fwActivate bmc tag args ∨
  code = 0x1A ∧ clients = 3 ∧ c = .smithRestart bmc tag args ∨ code = 0x20 ∧ clients = 1 ∧ c = .chanSpare bmc tag args ∨
  code = 0x21 ∧ clients = 1 ∧ c = .hearthOffline bmc tag args ∨ code = 0x22 ∧ clients = 1 ∧ c = .hearthOnline bmc tag args ∨
  code = 0x28 ∧ clients = 3 ∧ c = .portMode bmc tag args ∨ code = 0x30 ∧ clients = 3 ∧ c = .emberRelease bmc tag args ∨
  code = 0x38 ∧ clients = 2 ∧ c = .vote bmc tag args

/-- Argument `i` of a mailbox command. -/
def mbA (s : State) (bmc : Bool) (args : List Nat) (i : Nat) : Nat := nthD (mbArgs s bmc args) i 0

/-! ### Events, the Field Book and counters (R678 to R726) -/

/-- LNK[s] has taken one more interrupt message, for this core and vector, now (R689, R690). -/
def MsgTaken (s t : State) (core vec : Nat) : Prop :=
  (t.siteAt (core / 32)).intr.length = (s.siteAt (core / 32)).intr.length + 1 ∧
  ∃ y ∈ (t.siteAt (core / 32)).intr, y.core = core ∧ y.vector = vec ∧ y.since = s.time

/-- A message is discarded: counted, with its status, event and record (R690). -/
def MsgDropped (s t : State) (page core vec : Nat) : Prop :=
  CountsOne s t pgEVT Fld.EVT_MSG_DROP_CNT_COUNT ∧ t.flag pgEVT Fld.EVT_STAT_MSG_DROP = true ∧ srcMsgDrop ∈ t.raised ∧
  ∃ r, t.recs = s.recs ++ [r] ∧ r.typ = 0x15 ∧ r.page = page ∧ r.words = [core % 1024 + vec % 4096 * 1024]

/-- No message leaves: only registers of the EVT page, the events and the storms change. -/
def NoMessage (s t : State) : Prop :=
  OnlyPage pgEVT s t ∧ t = { s with regs := t.regs, raised := t.raised, smith := t.smith, storm := t.storm, recs := t.recs }

/-- The route of a group is enabled, and the bit is neither masked nor in a storm (R685). -/
def Routed (s : State) (n : Nat) : Prop :=
  s.flag pgEVT (Fld.EVT_ROUTE_EN (n / 32)) = true ∧ bitN (s.reg pgEVT (Reg.EVT_MASK (n / 32))) (n % 32) = false ∧
  bitN (s.reg pgEVT (Reg.EVT_STORM (n / 32))) (n % 32) = false

end Sys2Proof.Safety
end

