-- ==== Sys2Proof/Certificates/Slice0/Obligations.lean ====
section
/-! DEFINITION. The statements about the hub, from the spec's numbered rules. Each docstring says what it states and names the rules.
Where a clause rests on a choice of the model it names the log entry. -/

open Sys2Proof Sys2Proof.Machine Sys2Proof.Safety

/-! ### The machine as a whole -/

/-- A step runs the command at the front of the queue with the rest of the queue. -/
def Obligations.StepRunsFrontCommand : Prop :=
  ∀ (c : Instr) (rest : List Instr) (s : State),
    step { s with pending := c :: rest } = exec c { s with pending := rest }

/-- Every command of the table completes in every state, and none's effect touches the queue of commands that wait.

Off is left by no command but COLD_RESET: every other command leaves a package in Off exactly as it is (R629).

TIME: the idle step lets 10 ns pass, and no command but COLD_RESET moves it while the package stays on (R633). The idle step's
length is the model's own choice (log 1). -/
def Obligations.FramesOfEveryCommand : Prop :=
  (∀ (c : Instr) (s : State), Answers c s fun t => t.pending = s.pending) ∧
  (∀ (c : Instr) (s : State), s.off = true →
    (∀ sel straps part pop rails good bad load image trust, c ≠ .coldReset sel straps part pop rails good bad load image trust) →
    exec c s = .next s ∨ (c = .powerFail ∧ ∃ t, exec c s = .next t ∧ t.off = true)) ∧
  ((∀ s : State, s.off = false → s.pending = [] →
    ∃ t, step s = .next t ∧ t.pending = [] ∧ (t.off = false → t.time = s.time + 10)) ∧
  (∀ (c : Instr) (s : State),
    (∀ sel straps part pop rails good bad load image trust, c ≠ .coldReset sel straps part pop rails good bad load image trust) →
    Answers c s fun t => t.off = false → t.time = s.time))

/-- At reset nothing of the package is in Off, and near memory is in its canonical form. -/
def Obligations.ResetIsCanonical : Prop :=
  NothingInOff State.reset ∧ MemoryCanonical State.reset ∧ State.reset.pending = []

/-- Every step keeps it that a package in Off holds nothing but what outlives Off (R629). -/
def Obligations.StepKeepsNothingInOff : Prop :=
  ∀ s t : State, NothingInOff s → step s = .next t → NothingInOff t

/-! ### Registers and quench (R59 to R100) -/

/-- Registers by access type (R68, R70, R71): a write sets an RW register and nothing else; a read answers a status register and
clears it only in RC mode and never for Smith firmware.

Refused accesses (R62, R65): a write that is no aligned 4 or 8 bytes, and every write to a page whose domain is off, are discarded
and set ACC_ERR; a read of the latter returns zero.

One bit through its alias word (R82, R83): an RW bit takes the value written and every other bit stays; a W1C bit is cleared by 0
and ignores 1. -/
def Obligations.RegisterAccesses : Prop :=
  ((∀ (s : State) (src : BitVec 8) (data : Nat), s.off = false →
    Answers (.registerWrite src pgTIME Reg.TIME_CMP_LO 4 data) s fun t =>
      t.reg pgTIME Reg.TIME_CMP_LO = data % 2 ^ 32 ∧ SameRegs [(pgTIME, Reg.TIME_CMP_LO)] s t ∧ t = { s with regs := t.regs }) ∧
  (∀ (s : State) (src : BitVec 8) (h data : Nat) (e : EccOutcome), s.off = false → h < 64 →
    Answers (.registerWrite src (pgHOME h) Reg.HOME_CFG 4 data) s (fun t => t = s) ∧
    Answers (.statusClearingRead src (pgHOME h) Reg.HOME_STAT 4 e) s fun t =>
      t.readData.toNat = s.reg (pgHOME h) Reg.HOME_STAT ∧
      (src = nodeSmith ∨ s.flag (pgHOME h) Fld.PAGE_CFG_CLRMODE = false → t = { s with readData := t.readData }) ∧
      (src ≠ nodeSmith → s.flag (pgHOME h) Fld.PAGE_CFG_CLRMODE = true →
        t.reg (pgHOME h) Reg.HOME_STAT % 256 = 0 ∧
        SameRegs [(pgHOME h, Reg.HOME_STAT), (pgHOME h, Reg.HOME_SNP_TO_LOC)] s t ∧
        t = { s with regs := t.regs, readData := t.readData }))) ∧
  ((∀ (s : State) (src : BitVec 8) (page off n data : Nat), s.off = false → (pageRow page).isSome = true → off < 0xE000 →
    (n = 1 ∨ n = 2 ∨ (n = 4 ∧ off % 4 ≠ 0) ∨ (n = 8 ∧ off % 8 ≠ 0)) →
    Answers (.registerWrite src page off n data) s fun t =>
      t.flag page Fld.PAGE_STAT_ACC_ERR = true ∧ SameRegs [(page, Reg.PAGE_STAT)] s t ∧
      t = { s with regs := t.regs, raised := s.raised ++ [srcAccErr], recs := t.recs }) ∧
  (∀ (s : State) (src : BitVec 8) (page off data : Nat), s.off = false → s.pageOff page = true → 0x100 ≤ off → off < 0xE000 →
    off % 4 = 0 →
    Answers (.registerWrite src page off 4 data) s fun t =>
      t.flag page Fld.PAGE_STAT_ACC_ERR = true ∧ SameRegs [(page, Reg.PAGE_STAT)] s t ∧
      t = { s with regs := t.regs, raised := s.raised ++ [srcAccErr] }) ∧
  (∀ (s : State) (src : BitVec 8) (page off : Nat) (e : EccOutcome), s.off = false → s.pageOff page = true →
    0x100 ≤ off → off < 0x4000 → off % 4 = 0 → s.flag page Fld.PAGE_CFG_CLRMODE = false →
    Answers (.statusClearingRead src page off 4 e) s fun t => t = { s with readData := 0 })) ∧
  ((∀ (s : State) (src : BitVec 8) (b : Nat) (v : Bool), s.off = false → b < 32 →
    Answers (.bitAliasWrite src pgTIME Reg.TIME_CMP_LO b v) s fun t =>
      (∀ j, j < 32 → bitN (t.reg pgTIME Reg.TIME_CMP_LO) j = if j = b then v else bitN (s.reg pgTIME Reg.TIME_CMP_LO) j) ∧
      SameRegs [(pgTIME, Reg.TIME_CMP_LO)] s t ∧ t = { s with regs := t.regs }) ∧
  (∀ (s : State) (src : BitVec 8) (h b : Nat), s.off = false → h < 64 → b < 8 →
    Answers (.bitAliasWrite src (pgHOME h) Reg.HOME_STAT b true) s (fun t => t = s) ∧
    Answers (.bitAliasWrite src (pgHOME h) Reg.HOME_STAT b false) s (fun t =>
      (∀ j, j < 8 → bitN (t.reg (pgHOME h) Reg.HOME_STAT) j = (bitN (s.reg (pgHOME h) Reg.HOME_STAT) j && j != b)) ∧
      SameRegs [(pgHOME h, Reg.HOME_STAT), (pgHOME h, Reg.HOME_SNP_TO_LOC)] s t ∧ t = { s with regs := t.regs })))

/-- Pending values (R86, R146): a write to an RWQ register outside a quench of its group replaces the pending value and leaves the
live one; a window register's write goes to the entry or router that the selection register names.

PAGE_QGRP (R78): a write moves a page with RWQ registers to another group, unless it holds pending values or its group is in a
quench: then it is ignored and sets ACC_ERR. -/
def Obligations.PendingValues : Prop :=
  ((∀ (s : State) (page off data : Nat) (d : RegDef) (view : Bool), s.off = false → s.pageOff page = false → off < 0x4000 →
    0x100 ≤ off → findReg page off = some d → (∀ f ∈ d.fields, f.acc = .rwq) → d.fields ≠ [] → State.fabWindow page off = none →
    s.qHolds page = false →
    Answers (.shadowWrite page off data view) s fun t =>
      t.shadow? page off = some (s.shadowOrLive page off - (s.shadowOrLive page off &&& d.rwqMask) + (data % 2 ^ 32 &&& d.rwqMask)) ∧
      t.regs = s.regs ∧ t = { s with shadow := t.shadow }) ∧
  (∀ (s : State) (k data : Nat), s.off = false → k < 6 → s.qHolds (pgFAB k) = false →
    Answers (.rtEntryWrite k false data) s (fun t =>
      t.routeProp (s.selRoute (pgFAB k)).1 (s.selRoute (pgFAB k)).2 =
        setBits (s.routeProp (s.selRoute (pgFAB k)).1 (s.selRoute (pgFAB k)).2) 0 32 data ∧
      t = { s with routesPend := t.routesPend }) ∧
    Answers (.rtEntryWrite k true data) s (fun t =>
      t.routeProp (s.selRoute (pgFAB k)).1 (s.selRoute (pgFAB k)).2 =
        setBits (s.routeProp (s.selRoute (pgFAB k)).1 (s.selRoute (pgFAB k)).2) 32 9 data ∧
      t = { s with routesPend := t.routesPend })) ∧
  (∀ (s : State) (k word data : Nat), s.off = false → (k = 6 ∨ k = 7) → word < 3 → s.get (pgFAB k) Fld.RTR_SEL_RTR < 48 →
    s.qHolds (pgFAB k) = false → s.weightProp (s.selRouter (pgFAB k)) word < 2 ^ 32 →
    Answers (.rtrWeightWrite k word data) s fun t =>
      (word = 1 → t.weightProp (s.selRouter (pgFAB k)) word = data % 2 ^ 32) ∧ t.weights = s.weights ∧
      t = { s with weightsPend := t.weightsPend }) ∧
  (∀ (s : State) (h data : Nat) (view : Bool), s.off = false → h < 64 → s.qHolds (pgHOME h) = true →
    Answers (.shadowWrite (pgHOME h) Reg.HOME_RSV_CFG data view) s fun t =>
      t.quench.held.length = s.quench.held.length + 1 ∧ t.shadow = s.shadow ∧ t.regs = s.regs)) ∧
  ((∀ (s : State) (page g g0 : Nat), s.off = false → s.qGroup page = some g0 → s.pagePending page = false → s.qHolds page = false →
    Answers (.pageQgrpWrite page g) s fun t =>
      t.qGroup page = some (g % 16) ∧ SameRegs [(page, Reg.PAGE_QGRP)] s t ∧ t = { s with regs := t.regs }) ∧
  (∀ (s : State) (page g g0 : Nat), s.off = false → s.qGroup page = some g0 → (s.pagePending page = true ∨ s.qHolds page = true) →
    Answers (.pageQgrpWrite page g) s fun t =>
      t.flag page Fld.PAGE_STAT_ACC_ERR = true ∧ SameRegs [(page, Reg.PAGE_STAT)] s t ∧
      t = { s with regs := t.regs, raised := s.raised ++ [srcAccErr] }))

/-- A QUENCH write while BUSY is 1 is ignored and sets OVERLAP (R91). -/
def Obligations.QuenchOverlap : Prop :=
  ∀ (s : State) (g : Nat), s.off = false → s.quench.busy = true →
    Answers (.quench g) s (fun t => t.flag pgSMITH Fld.QUENCH_STAT_OVERLAP = true ∧
      SameRegs [(pgSMITH, Reg.QUENCH_STAT)] s t ∧ t = { s with regs := t.regs }) ∧
    Answers (.quenchCancel g) s (fun t => t.flag pgSMITH Fld.QUENCH_STAT_OVERLAP = true ∧
      SameRegs [(pgSMITH, Reg.QUENCH_STAT)] s t ∧ t = { s with regs := t.regs })

/-- Acceptance of a quench and of a cancel (R90, R92, R93): BUSY is set, DONE cleared, the groups are those of the mask, and no live or
pending value changes; one with GMASK zero has no effect. A group is rejected where one of its pages finds a pending value invalid, and that
page sets QREJ; with none invalid no group is.

The apply edge (R94 to R97): what was pending in the groups applied is so no longer, and what is pending in others stays; it comes once
in a quench. With pending values in HOME pages alone, each RWQ register of a group that is applied takes its
pending value and ceases to be pending, and every other live register stays; with pending routes and router words alone each of an
applied group takes effect and every other stays; a cancel discards the pending values of its groups and no live register changes.

Completion of a quench (R98, R99): DONE, BUSY, REJ and SEQ, the event, and the writes held become pending; before the apply edge there is
none. -/
def Obligations.Quenches : Prop :=
  ((∀ (s : State) (g : Nat), s.off = false → s.quench.busy = false → g % 0x10000 = 0 →
    Answers (.quench g) s (fun t => t = s) ∧ Answers (.quenchCancel g) s fun t => t = s) ∧
  ∀ (s : State) (g : Nat), s.off = false → s.quench.busy = false → g % 0x10000 ≠ 0 →
    Answers (.quench g) s (fun t => t.quench.busy = true ∧ t.quench.cancel = false ∧ t.quench.applied = false ∧
      t.quench.gmask = g % 0x10000 ∧ t.get pgSMITH Fld.QUENCH_STAT_BUSY = 1 ∧ t.get pgSMITH Fld.QUENCH_STAT_DONE = 0 ∧
      (∀ p ∈ s.qChecked (g % 0x10000),
        ({ s with quench := { busy := true, gmask := g % 0x10000, held := s.quench.held } } : State).pageBad p ≠ [] →
        bitN t.quench.rej ((s.qGroup p).getD 0) = true ∧ t.flag p Fld.PAGE_STAT_QREJ = true) ∧
      ((∀ p ∈ s.qChecked (g % 0x10000),
        ({ s with quench := { busy := true, gmask := g % 0x10000, held := s.quench.held } } : State).pageBad p = []) → t.quench.rej = 0) ∧
      t = { s with regs := t.regs, quench := t.quench, raised := t.raised, recs := t.recs }) ∧
    Answers (.quenchCancel g) s (fun t => t.quench.busy = true ∧ t.quench.cancel = true ∧ t.quench.rej = 0 ∧
      t.quench.gmask = g % 0x10000 ∧ t.get pgSMITH Fld.QUENCH_STAT_BUSY = 1 ∧ t.get pgSMITH Fld.QUENCH_STAT_DONE = 0 ∧
      SameRegs [(pgSMITH, Reg.QUENCH_STAT)] s t ∧ t = { s with regs := t.regs, quench := t.quench })) ∧
  ((∀ (s : State), s.off = false → s.quench.busy = false ∨ s.quench.applied = true → Answers .quenchApply s fun t => t = s) ∧
  (∀ (s : State), s.off = false → s.quench.busy = true → s.quench.applied = false → s.quench.cancel = false →
    Answers .quenchApply s fun t => t.quench.applied = true ∧ t.quench.busy = true ∧ ∀ page off, off < 0x10000 → t.shadow? page off =
      if s.qSelected page (s.quench.gmask - (s.quench.gmask &&& s.quench.rej)) then none else s.shadow? page off) ∧
  (∀ (s : State), s.off = false → s.quench.busy = true → s.quench.applied = false → s.quench.cancel = false →
    Tab.wf s.shadow = true → s.routesPend = [] → s.weightsPend = [] → s.routeBasePend = [] →
    (∀ e ∈ s.shadow, 0x40 ≤ e.1 / 0x10000 ∧ e.1 / 0x10000 < 0x80) →
    Answers .quenchApply s fun t => t.quench.applied = true ∧
      (∀ h off v d, h < 64 → off < 0x10000 → s.shadow? (pgHOME h) off = some v → findReg (pgHOME h) off = some d →
        s.qSelected (pgHOME h) (s.quench.gmask - (s.quench.gmask &&& s.quench.rej)) = true →
        t.shadow? (pgHOME h) off = none ∧
        t.reg (pgHOME h) off = s.reg (pgHOME h) off - (s.reg (pgHOME h) off &&& d.rwqMask) + (v &&& d.rwqMask)) ∧
      (∀ h off, h < 64 → off < 0x10000 →
        s.qSelected (pgHOME h) (s.quench.gmask - (s.quench.gmask &&& s.quench.rej)) = false →
        t.shadow? (pgHOME h) off = s.shadow? (pgHOME h) off ∧ t.reg (pgHOME h) off = s.reg (pgHOME h) off) ∧
      t = { s with regs := t.regs, shadow := t.shadow, quench := t.quench, routes := t.routes, weights := t.weights }) ∧
  (∀ (s : State), s.off = false → s.quench.busy = true → s.quench.applied = false → s.quench.cancel = false →
    s.shadow = [] → s.routeBasePend = [] → Tab.wf s.routesPend = true → Tab.wf s.weightsPend = true →
    Answers .quenchApply s fun t => t.quench.applied = true ∧
      (∀ src dst, dst < 256 → t.route src dst =
        if s.qSelected (State.routePage (routeKey src dst)) (s.quench.gmask - (s.quench.gmask &&& s.quench.rej)) then s.routeProp src dst
        else s.route src dst) ∧
      (∀ r word, word < 4 → t.weight r word =
        if s.qSelected (State.weightPage (State.weightKey r word)) (s.quench.gmask - (s.quench.gmask &&& s.quench.rej)) then s.weightProp r word
        else s.weight r word) ∧
      t = { s with quench := t.quench, routes := t.routes, routesPend := t.routesPend, weights := t.weights, weightsPend := t.weightsPend }) ∧
  (∀ (s : State), s.off = false → s.quench.busy = true → s.quench.applied = false → s.quench.cancel = true →
    Answers .quenchApply s fun t => t.quench.applied = true ∧
      (∀ page off, off < 0x10000 → t.shadow? page off = if s.qSelected page s.quench.gmask then none else s.shadow? page off) ∧
      t = { s with shadow := t.shadow, routesPend := t.routesPend, weightsPend := t.weightsPend,
                   routeBasePend := t.routeBasePend, quench := t.quench })) ∧
  ((∀ (s : State), s.off = false → s.quench.busy = false ∨ s.quench.applied = false → Answers .quenchDone s fun t => t = s) ∧
  (∀ (s : State), s.off = false → s.quench.busy = true → s.quench.applied = true → s.quench.held = [] →
    Answers .quenchDone s fun t => t.quench.busy = false ∧
      t.get pgSMITH Fld.QUENCH_STAT_BUSY = 0 ∧ t.get pgSMITH Fld.QUENCH_STAT_DONE = 1 ∧
      t.get pgSMITH Fld.QUENCH_STAT_REJ = (if s.quench.cancel then 0 else s.quench.rej) % 2 ^ 16 ∧
      t.get pgSMITH Fld.QUENCH_STAT_SEQ = (s.get pgSMITH Fld.QUENCH_STAT_SEQ + 1) % 256 ∧
      t.raised = s.raised ++ [srcQuenchDone] ∧ SameRegs [(pgSMITH, Reg.QUENCH_STAT)] s t ∧
      t = { s with regs := t.regs, raised := t.raised, quench := t.quench }) ∧
  (∀ (s : State) (h v : Nat), s.off = false → s.quench.busy = true → s.quench.applied = true → h < 64 →
    s.quench.held = [⟨pgHOME h, Reg.HOME_RSV_CFG, v, 2 ^ 32 - 1, 0, none⟩] →
    Answers .quenchDone s fun t => t.quench.held = [] ∧ (t.shadow? (pgHOME h) Reg.HOME_RSV_CFG).map (· % 256) = some (v % 256)))

/-! ### The fabric (R114 to R141, R761) -/

/-- The checks of a router input or interface on a unit that arrives with bits wrong (R113, R114): with none wrong nothing happens; a wrong
bit of the HECC code word or of a data word is corrected and noted; two in HECC, an SVC other than the header's VC or a wrong parity of the
selector that a router consumes discard the unit, returning its credits, which is located and fatal; two in a data word poison the unit.

A returned credit goes to its sender (R117).

The decision of a router output (R137): with no request it grants nothing; otherwise it grants a requesting input of the highest
class requesting, the first of them at or after the class's pointer.

Injection (R113, R116, R121, R122, R157, R408, R761): the oldest unit of its VC at an interface, with a valid route and credit, enters
the fabric with that route, its parity and, in a request, the service class of its source, and consumes a credit; toward a reserved node it
is consumed, counted and not answered. A unit that has reached the interface of an agent that cannot accept it is discarded and counted
(R131). -/
def Obligations.FabricUnits : Prop :=
  (∀ (s : State) (p : Pkt) (router port : Nat) (q : InFlight), s.off = false →
    s.net.find? (fun q => State.sameUnit q.p p && unitAt q router port) = some q → (∀ f ∈ s.net.erase q, f ≠ q) →
    (∀ r i, q.at_ = .rtr r i → parityGood q.p = true) →
    Answers (.unitReceive p router port {}) s (fun t => t = s) ∧
    (∀ k, k < 96 → Answers (.unitReceive p router port { hecc := [k] }) s fun t =>
      t.flag (pgFAB 7) Fld.ERR_STAT_HDR_CE = true ∧ t = { s with regs := t.regs, raised := s.raised ++ [srcFAB 3] }) ∧
    (∀ k, q.p.hasData = true → k < 72 → Answers (.unitReceive p router port { words := [[k]] }) s fun t =>
      t.flag (pgFAB 7) Fld.ERR_STAT_DATA_CE = true ∧ t = { s with regs := t.regs, raised := s.raised ++ [srcFAB 4] }) ∧
    (∀ e : LaneErr, (∃ i j, i ≠ j ∧ e = { hecc := [i, j] }) ∨ (∃ v, v ≠ q.p.vc ∧ e = { svc := some v }) ∨
        ((∃ r i, q.at_ = .rtr r i) ∧ e = { rpar := [0] }) ∨ ((∃ r i, q.at_ = .rtr r i) ∧ ∃ k, k < 4 ∧ e = { route := [k] }) →
      Answers (.unitReceive p router port e) s fun t =>
        t.flag (pgFAB 7) Fld.ERR_STAT_HDR_UE = true ∧ t.flag pgEVT Fld.EVT_STAT_FATAL = true ∧ t.alert.fatal = true ∧
        t.net = s.net.erase q ∧ t.fab.owed.length = s.fab.owed.length + 1 ∧
        (s.flag (pgFAB 7) Fld.ERR_LOC_V = false → router < 128 → port < 15 → t.get (pgFAB 7) Fld.ERR_LOC_RTR = router ∧
          t.get (pgFAB 7) Fld.ERR_LOC_PORT = port) ∧
        t = { s with regs := t.regs, raised := t.raised, recs := t.recs, net := t.net, fab := t.fab, alert := t.alert }) ∧
    (∀ i j, q.p.hasData = true → i ≠ j → i < 64 → j < 64 → Answers (.unitReceive p router port { words := [[i, j]] }) s fun t =>
      t.flag (pgFAB 7) Fld.ERR_STAT_DATA_UE = true ∧
      (∃ q', q'.at_ = q.at_ ∧ q'.p.psn = true ∧ q'.p.txn = q.p.txn ∧ q'.p.op = q.p.op ∧ t.net = s.net.map fun f => if f = q then q' else f) ∧
      t = { s with regs := t.regs, raised := t.raised, recs := t.recs, net := t.net })) ∧
  (∀ (s : State) (link vc : Nat) (d : Bool) (rest : List (Nat × Nat × Bool)), s.off = false → s.fab.owed = (link, vc, d) :: rest →
    Answers .creditReturn s fun t => t.fab.owed = rest ∧
      Tab.getD (creditKey link vc false) 0 t.fab.used = Tab.getD (creditKey link vc false) 0 s.fab.used - 1 ∧
      Tab.getD (creditKey link vc true) 0 t.fab.used = Tab.getD (creditKey link vc true) 0 s.fab.used - b2n d ∧
      t = { s with fab := t.fab }) ∧
  (∀ (s : State) (router : Nat), s.off = false →
    Answers (.outputArbitration router) s fun t => ∀ o, o < 15 →
      ((∀ i, i < 15 → s.requests router i o = false) → Tab.get? (router * 16 + o) t.fab.grant = none) ∧
      (∀ i, i < 15 → s.requests router i o = true → ∃ w, Tab.get? (router * 16 + o) t.fab.grant = some w ∧ w < 15 ∧
        s.requests router w o = true ∧ s.portClass router i ≤ s.portClass router w ∧
        (s.portClass router i = s.portClass router w →
          let p := (Tab.getD ((router * 16 + o) * 4 + s.portClass router w) (0, 0) s.fab.ptr).1 % 15
          (w + 15 - p) % 15 ≤ (i + 15 - p) % 15))) ∧
  ((∀ (s : State) (e : InFlight), s.off = false → s.fab.hold = false →
    s.net.find? (fun f => s.waitsOut f && f.p.by == e.p.by && f.p.vc == e.p.vc) = some e → e.p.op.toNat < 0x68 →
    s.net.find? (fun f => s.waitsOut f && State.sameUnit f.p e.p) = some e →
    (nodeAssigned e.p.dst.toNat = true → bitN (s.route e.p.by.toNat e.p.dst.toNat) 40 = true →
      s.creditFree (injectLink e.p.by e.p.vc.toNat) e.p.vc.toNat e.p.hasData = true →
      Answers (.packetInject e.p) s fun t =>
        t.net = s.net.erase e ++ [⟨{ e.p with route := BitVec.ofNat 40 (s.route e.p.by.toNat e.p.dst.toNat),
                                              rpar := rparOf (BitVec.ofNat 40 (s.route e.p.by.toNat e.p.dst.toNat)),
                                              cls := if 1 ≤ e.p.op.toNat ∧ e.p.op.toNat ≤ 8 then s.classOf e.p.src else e.p.cls },
          .rtr (injectPort e.p.by e.p.vc.toNat).1 (injectPort e.p.by e.p.vc.toNat).2, s.time⟩] ∧
        Tab.getD (creditKey (injectLink e.p.by e.p.vc.toNat) e.p.vc.toNat false) 0 t.fab.used =
          Tab.getD (creditKey (injectLink e.p.by e.p.vc.toNat) e.p.vc.toNat false) 0 s.fab.used + 1 ∧
        t = { s with net := t.net, fab := t.fab }) ∧
    (nodeAssigned e.p.dst.toNat = false → Answers (.packetInject e.p) s fun t => t.net = s.net.erase e ∧
      t.get (pgFAB 7) Fld.DISCARD_COUNT = min (s.get (pgFAB 7) Fld.DISCARD_COUNT + 1) (2 ^ 32 - 1) ∧
      t.flag (pgFAB 7) Fld.ERR_STAT_DISC = true ∧ t.fab = s.fab)) ∧
  (∀ (s : State) (e : InFlight), s.off = false → s.net.find? (fun f => State.sameUnit f.p e.p) = some e → s.absentNode e.p.dst = true →
    e.at_ = .rx → (∀ f ∈ s.net, f.at_ = .rx → f.p.vc = e.p.vc → f.p.dst = e.p.dst → f = e) → e.p.op.toNat < 0x68 →
    Answers (.packetToAbsentAgent e.p) s fun t => t.net = s.net.erase e ∧
      t.get (pgFAB 7) Fld.DISCARD_COUNT = min (s.get (pgFAB 7) Fld.DISCARD_COUNT + 1) (2 ^ 32 - 1) ∧
      t.flag (pgFAB 7) Fld.ERR_STAT_DISC = true ∧ t.fab.owed.length = s.fab.owed.length + 1))

/-! ### The die's side of coherence (R149 to R186) -/

/-- The answer of a die to a snoop that it need not hold: the table of R184, entry by entry, one answer to the home (R185), on the module
of its source (R199, R434), and nothing else changes but the link credits of the snoop's buffer.

A die holds a snoop for a line on which it has a RdShared, RdOwn or Upgrade outstanding (R179), and answers it when the final
response completes the transaction. -/
def Obligations.SnoopsAtDies : Prop :=
  (∀ (s : State) (op : Nat) (p : Pkt), Running s → 0x20 ≤ op → op ≤ 0x23 → p.op.toNat = op → isDieNode p.dst = true →
    s.atDie p = true → s.mustHold p = false →
    Answers (snoopCommand op p) s fun t =>
      let old := s.dieLine (siteOf p.dst) p.addr.toNat
      let row := r184 op (State.isForwarding p) (p.size.getLsbD 0) (old.map (·.st))
      (t.dieLine (siteOf p.dst) p.addr.toNat).map (·.st) = row.next ∧
      (∀ l l', old = some l → t.dieLine (siteOf p.dst) p.addr.toNat = some l' → l'.data = l.data ∧ l'.psn = l.psn) ∧
      OtherLines (siteOf p.dst) p.addr.toNat s t ∧
      (∃ (d a : Pkt), DieSends (s.dieConsumes p) t (siteOf p.dst) ((if row.toSrc = none then [] else [d]) ++ [a]) ∧
        (∀ o, row.toSrc = some o → d.op.toNat = o ∧ d.src = s.dieNode (siteOf p.dst) (moduleOf p.dst) ∧ d.dst = p.src ∧ d.txn = p.txn ∧ d.addr = p.addr ∧ d.last = false ∧
          ∀ l, old = some l → d.data = l.data ∧ d.psn = l.psn) ∧
        a.op.toNat = (if row.wb then 0x61 else 0x43) ∧ a.src = s.dieNode (siteOf p.dst) (moduleOf p.dst) ∧ a.txn = p.txn ∧ a.addr = p.addr ∧
        a.dst = nodeHome (s.home (paOf p.addr.toNat)) ∧ a.size.toNat = row.result + 4 * b2n row.wp ∧ a.na = row.fwd ∧
        (row.wb = true → ∀ l, old = some l → a.data = l.data ∧ a.psn = l.psn)) ∧
      LinksOnly (siteOf p.dst) s t ∧ t = { s with net := t.net, dies := t.dies, links := t.links, regs := t.regs }) ∧
  ((∀ (s : State) (op : Nat) (p : Pkt), Running s → 0x20 ≤ op → op ≤ 0x23 → p.op.toNat = op → isDieNode p.dst = true →
    s.atDie p = true → s.mustHold p = true →
    Answers (snoopCommand op p) s fun t =>
      (t.dieAt (siteOf p.dst)).heldSnoops = (s.dieAt (siteOf p.dst)).heldSnoops ++ [p] ∧ t.net = (s.dieConsumes p).net ∧
      LinksOnly (siteOf p.dst) s t ∧ t = { s with net := t.net, dies := t.dies, links := t.links, regs := t.regs }) ∧
  (∀ (s : State) (p q : Pkt) (k : Nat) (x : DieTxn), Running s → p.op = 0x52 → isDieNode p.dst = true → s.atDie p = true →
    p.hasData = true → p.last = true → s.dieTxnOf p = some (k, x) → x.req.op = 0x02 →
    (s.dieAt (siteOf p.dst)).txns = [(k, x)] → (s.dieAt (siteOf p.dst)).heldSnoops = [q] → q.op = 0x22 → q.size = 0 →
    q.addr = x.req.addr → siteOf q.dst = siteOf p.dst → isDieNode q.dst = true →
    Answers (.dataE p none) s fun t =>
      t.dieLine (siteOf p.dst) x.req.addr.toNat = none ∧ (t.dieAt (siteOf p.dst)).heldSnoops = [] ∧
      (∃ a, DieSends (s.dieConsumes p) t (siteOf p.dst) [a] ∧ a.op = 0x43 ∧ a.txn = q.txn ∧ a.size = 0)))

/-- Data and grants at a die (R112, R171, R186, R200): the line takes the bytes that the message's mask selects (the others are free values,
log 147), the state that the message grants and the poison that it carries; the
transaction ends with its final response, and not before.

Cmp, DataRd, Nack and WbAck at a die (R171 to R177, R186).

What a die does of itself (R149, R174, R175, R178): a retry when its spacing has passed and neither its TXN nor its line is in
use, with RSV after the fourth Nack; a silent
drop of a line in S; a store to a line in E or M. -/
def Obligations.ResponsesAtDies : Prop :=
  (∀ (s : State) (p : Pkt) (k : Nat) (x : DieTxn), Running s → isDieNode p.dst = true → s.atDie p = true →
    s.dieTxnOf p = some (k, x) → (s.dieAt (siteOf p.dst)).heldSnoops = [] →
    let site := siteOf p.dst
    let line := x.req.addr.toNat
    let ends := fun (t : State) =>
      ((x.final || p.last) = true → t.dieTxnOf p = none) ∧
      ((x.final || p.last) = false → ∃ y : DieTxn, t.dieTxnOf p = some (k, y) ∧ y.gotData = true ∧ y.final = false ∧ y.req = x.req)
    (p.op = 0x50 → p.hasData = true → x.req.op = 0x01 → Answers (.dataS p none) s fun t =>
      t.dieLine site line = some ⟨.sS, (s.lineTaken p).1, p.psn⟩ ∧ ends t ∧ OtherLines site line s t ∧ SameMemory s t) ∧
    (p.op = 0x51 → p.hasData = true → x.req.op = 0x01 → Answers (.dataL p none) s fun t =>
      t.dieLine site line = some ⟨.sL, (s.lineTaken p).1, p.psn⟩ ∧ ends t ∧ OtherLines site line s t ∧ SameMemory s t) ∧
    (p.op = 0x52 → p.hasData = true → (x.req.op = 0x01 ∨ x.req.op = 0x02 ∨ x.req.op = 0x03) → Answers (.dataE p none) s fun t =>
      t.dieLine site line = some ⟨.sE, (s.lineTaken p).1, p.psn⟩ ∧ ends t ∧ OtherLines site line s t ∧ SameMemory s t) ∧
    (p.op = 0x53 → p.hasData = true → (x.req.op = 0x02 ∨ x.req.op = 0x03) → Answers (.dataM p none) s fun t =>
      t.dieLine site line = some ⟨.sM, (s.lineTaken p).1, p.psn⟩ ∧ ends t ∧ OtherLines site line s t ∧ SameMemory s t) ∧
    (∀ l, p.op = 0x42 → p.hasData = false → x.req.op = 0x03 → s.dieLine site line = some l → Answers (.grantUp p none) s fun t =>
      t.dieLine site line = some { l with st := .sE } ∧ ends t ∧ OtherLines site line s t ∧ SameMemory s t) ∧
    (∀ w : Store, p.op = 0x52 → p.hasData = true → p.last = true → x.req.op = 0x02 → Answers (.dataE p (some w)) s fun t =>
      t.dieLine site line = some ⟨.sM, mergeLine (s.lineTaken p).1 w.data w.mask, p.psn⟩ ∧ t.dieTxnOf p = none)) ∧
  (∀ (s : State) (p : Pkt) (k : Nat) (x : DieTxn), Running s → isDieNode p.dst = true → s.atDie p = true →
    s.dieTxnOf p = some (k, x) → (s.dieAt (siteOf p.dst)).heldSnoops = [] →
    let site := siteOf p.dst
    let line := x.req.addr.toNat
    (p.op = 0x41 → Answers (.cmp p none) s fun t =>
      ((State.readsData x = false ∨ x.gotData = true) → t.dieTxnOf p = none) ∧
      (State.readsData x = true → x.gotData = false → ∃ y : DieTxn, t.dieTxnOf p = some (k, y) ∧ y.final = true ∧ y.req = x.req) ∧
      (∀ i l, t.dieLine i l = s.dieLine i l) ∧ SameMemory s t) ∧
    (p.op = 0x54 → (x.req.op = 0x04 ∨ x.req.op = 0x07) → Answers (.dataRd p none) s fun t =>
      t.dieTxnOf p = none ∧ (∀ i l, t.dieLine i l = s.dieLine i l) ∧ SameMemory s t) ∧
    (p.op = 0x40 → Answers (.nack p) s fun t =>
      t.dieTxnOf p = none ∧ (∀ i l, t.dieLine i l = s.dieLine i l) ∧
      (bits p.addr.toNat 0 4 = 5 ∨ bits p.addr.toNat 0 4 = 6 → Tab.get? line (t.dieAt site).retries = none) ∧
      (1 ≤ bits p.addr.toNat 0 4 → bits p.addr.toNat 0 4 ≤ 4 →
        (Tab.get? line (t.dieAt site).retries).map (fun r => (r.req, r.since)) = some (x.req, s.time) ∧
        (Tab.get? line (t.dieAt site).retries).map (·.nacks) =
          some (((Tab.get? line (s.dieAt site).retries).map (·.nacks)).getD 0 + 1))) ∧
    (p.op = 0x45 → Answers (.wbAck p) s fun t =>
      t.dieTxnOf p = none ∧ OtherLines site line s t ∧
      (∀ l, s.dieLine site line = some l → l.st = .sWP → x.req.op = 0x60 → t.dieLine site line = none) ∧
      (x.req.op ≠ 0x60 → t.dieLine site line = s.dieLine site line))) ∧
  ((∀ (s : State) (site line : Nat) (r : Retry) (asOwn : Bool), Running s → site < 16 →
    Tab.get? line (s.dieAt site).retries = some r → s.retryDue r = true →
    ∀ q : Pkt, q = { r.req with op := if asOwn && r.req.op == 0x03 then 0x02 else r.req.op, rsv := decide (4 ≤ r.nacks),
                                src := s.dieNode site (moduleOf r.req.src), vc := q.vc } →
    q.vc = vcOfOp q.op → s.dieFree q = true →
    Answers (.retrySend site line asOwn) s fun t =>
      DieSends s t site [q] ∧ ((Tab.get? (dieTxnKey q) (t.dieAt site).txns).map fun y => (y.final, y.gotData)) = some (false, false) ∧
      t = { s with net := t.net, dies := t.dies }) ∧
  (∀ (s : State) (site line : Nat) (l : DieLine), Running s → s.dieLine site line = some l →
    Answers (.silentDrop site line) s fun t =>
      t.dieLine site line = (if l.st = .sS then none else some l) ∧ OtherLines site line s t ∧ t = { s with dies := t.dies }) ∧
  (∀ (s : State) (site line : Nat) (l : DieLine) (w : Store), Running s → s.dieLine site line = some l →
    Answers (.dieWrite site line w) s fun t =>
      t.dieLine site line = (if l.st = .sE ∨ l.st = .sM then some ⟨.sM, mergeLine l.data w.data w.mask, l.psn⟩ else some l) ∧
      OtherLines site line s t ∧ t = { s with dies := t.dies }))

/-! ### Homes (R187 to R259) -/

/-- A request for a line whose directory state is NC that passes the checks of R219 takes its entry, makes the line BUSY, sends nothing,
and starts the Hearth access of R187 and R188: a read for the reads, a write of the whole line for a Strike of all bytes, a read to
merge into otherwise. A request that will install an entry is given a free way first (R221, R235).

A request for a line that the directory lists takes its entry and sends the snoops of the table of R187, in order of site, each with
the SRC and TXN of R185; the entry of the line stays until the transaction ends. A RdOwn without a forwarding snoop reads the Hearth at
once (R188). A lone sharer's Upgrade is granted and the line becomes EX of it.

EVICT_CLEAN (R187, R192): the site leaves the entry of the line, which becomes NC when nobody is left; WbAck answers it and no entry
is kept. An entry that does not name the site stays as it is. -/
def Obligations.RequestsAtHome : Prop :=
  (∀ (s : State) (h k : Nat) (p : Pkt) (held : Held), HomeTakes s h k p held → badOperand p = false →
    s.lineDir h p.addr.toNat = .nc →
    let way := s.freeWay h (dirSet (paOf p.addr.toNat))
    let taken := fun (q : List HOp) (w : Option Nat) (t : State) =>
      (∃ x : Txn, t.txn? h k = some x ∧ x.line = p.addr.toNat ∧ x.req = p ∧ x.held = held ∧ x.started = true ∧ x.snoops = [] ∧
        x.hq = q ∧ x.way = w) ∧
      t.lineBusy h p.addr.toNat = true ∧ Sends (s.consume p) t [] ∧ (∀ l, t.lineDir h l = s.lineDir h l) ∧ SameMemory s t ∧
      SameButCounters [(pgHOME h, Reg.HOME_OVL_DLY p.cls.toNat)] s t
    (p.op = 0x01 → way.isSome = true → Answers (.rdShared p) s (taken [.rd] way)) ∧
    (p.op = 0x02 → way.isSome = true → Answers (.rdOwn p) s (taken [.rd] way)) ∧
    (p.op = 0x03 → way.isSome = true → Answers (.upgrade p) s (taken [.rd] way)) ∧
    (p.op = 0x04 → Answers (.rdOnce p) s (taken [.rd] none)) ∧
    (p.op = 0x05 → p.mask = BitVec.allOnes 64 → Answers (.strike p) s (taken [.wr p.data p.psn] none)) ∧
    (p.op = 0x05 → p.mask ≠ BitVec.allOnes 64 → Answers (.strike p) s (taken [.rdm] none)) ∧
    (p.op = 0x06 → Answers (.strikePart p) s (taken [.rdm] none)) ∧
    (p.op = 0x07 → Answers (.farAtomic p) s (taken [.rdm] none))) ∧
  (∀ (s : State) (h k : Nat) (p : Pkt) (held : Held), HomeTakes s h k p held → badOperand p = false → p.op.toNat ≤ 7 →
    let me := if isDieNode p.src then siteOf p.src else 16
    let whole := decide (p.op = 0x05 ∧ p.mask = BitVec.allOnes 64)
    let snoops := fun (plan : List SnoopOut) (t : State) =>
      (∃ x : Txn, t.txn? h k = some x ∧ x.req = p ∧ x.started = true ∧
        x.snoops.map (fun n => ((n.site, n.op, n.fwd, n.discard) : SnoopOut)) = plan ∧
        (p.op = 0x02 → (∀ o ∈ plan, o.2.2.1 = false) → x.hq = [.rd])) ∧
      (∃ l : List Pkt, Sends (s.consume p) t l ∧ l.length = plan.length ∧
        ∀ (i : Nat) o q, plan[i]? = some o → l[i]? = some q → IsSnoop h k p o q) ∧
      (∀ l, t.lineDir h l = s.lineDir h l) ∧ SameMemory s t
    (∀ pv lead plan, s.lineDir h p.addr.toNat = .sh pv lead →
      plan = r187Shared p.op.toNat (p.size.getLsbD 0) whole me pv lead → plan ≠ [] →
      Answers (homeCommand p) s (snoops plan)) ∧
    (∀ o, s.lineDir h p.addr.toNat = .ex o → o ≠ me →
      Answers (homeCommand p) s (snoops (r187Owned p.op.toNat (p.size.getLsbD 0) whole o))) ∧
    (∀ pv lead, p.op = 0x03 → s.lineDir h p.addr.toNat = .sh pv lead → sitesOf pv = [me] → Answers (.upgrade p) s fun t =>
      t.txn? h k = none ∧ t.lineDir h p.addr.toNat = .ex me ∧ OtherEntries h p.addr.toNat s t ∧
      ∃ q, Sends (s.consume p) t [q] ∧ IsReply h p 0x42 true q)) ∧
  (∀ (s : State) (h k : Nat) (p : Pkt) (held : Held), HomeTakes s h k p held → p.op = 0x08 → isDieNode p.src = true →
    let l := p.addr.toNat
    let me := siteOf p.src
    let after := fun (d : DirSt) (t : State) =>
      t.lineDir h l = d ∧ OtherEntries h l s t ∧ t.txn? h k = none ∧ t.lineBusy h l = false ∧ SameMemory s t ∧
      ∃ q, Sends (s.consume p) t [q] ∧ IsReply h p 0x45 true q
    (s.lineDir h l = .nc → Answers (.evictClean p) s (after .nc)) ∧
    (∀ o, s.lineDir h l = .ex o → Answers (.evictClean p) s (after (if o = me then .nc else .ex o))) ∧
    (∀ pv lead, s.lineDir h l = .sh pv lead → bitN pv me = true →
      Answers (.evictClean p) s (after (if pv = 2 ^ me then .nc else .sh (pv - 2 ^ me) (if lead = some me then none else lead)))) ∧
    (∀ pv lead, s.lineDir h l = .sh pv lead → bitN pv me = false → Answers (.evictClean p) s (after (.sh pv lead))))

/-- The refusals of R219, for every request opcode, in the order of its table, and the refusal of a bad operand (R161, R162): what is
answered, and that the home takes nothing in. -/
def Obligations.RequestRefusals : Prop :=
  ∀ (s : State) (h : Nat) (p : Pkt), Issues s h 4 p → 1 ≤ p.op.toNat → p.op.toNat ≤ 8 →
    let l := p.addr.toNat
    let same := fun (t : State) => (∀ i, (t.homeAt i).trk = (s.homeAt i).trk) ∧ (∀ i a, t.lineDir i a = s.lineDir i a) ∧ SameMemory s t
    let nacked := fun (r : Nat) (t : State) => same t ∧ (∃ q, Sends (s.consume p) t [q] ∧ IsNack h p r q) ∧
      t.get (pgHOME h) (Fld.HOME_NACK_CNT_COUNT (r - 1)) =
        satAdd (s.get (pgHOME h) (Fld.HOME_NACK_CNT_COUNT (r - 1))) 1 (2 ^ (Fld.HOME_NACK_CNT_COUNT (r - 1)).width - 1)
    (s.home (paOf l) ≠ h → Answers (homeCommand p) s fun t =>
      t.net = ((s.consume p).answerReserved p (nodeHome h)).net ∧ t.flag (pgHOME h) Fld.HOME_STAT_MISROUTE = true ∧ same t) ∧
    (s.home (paOf l) = h → s.memBacked (paOf l) = false → Answers (homeCommand p) s fun t =>
      t.net = ((s.consume p).answerReserved p (nodeHome h)).net ∧ same t) ∧
    (s.home (paOf l) = h → s.memBacked (paOf l) = true → isDieNode p.src = true → s.fenced (siteOf p.src) = true →
      entryClean s h l = true → Answers (homeCommand p) s fun t => t.net = (s.consume p).net ∧ same t) ∧
    (AtHome s h p → entryClean s h l = true → p.op ≠ 0x08 → isDieNode p.src = true → s.quiesced (siteOf p.src) = true →
      Answers (homeCommand p) s (nacked nackFenced)) ∧
    (AtHome s h p → entryClean s h l = true → p.op ≠ 0x08 → (isDieNode p.src = true → s.quiesced (siteOf p.src) = false) → s.pageRetired l = true →
      Answers (homeCommand p) s (nacked nackRetired)) ∧
    (AtHome s h p → entryClean s h l = true → (isDieNode p.src = true → s.quiesced (siteOf p.src) = false) → s.pageRetired l = false →
      p.rsv = false →
      (s.lineBusy h l = true ∨ s.heldForOther h p.src.toNat l = true) → Answers (homeCommand p) s (nacked nackConflict)) ∧
    (LineFree s h p → p.rsv = false → entryClean s h l = true → p.op.toNat ≤ 3 → s.lineDir h l = .nc →
      s.freeWay h (dirSet (paOf l)) = none → s.victimWay h (dirSet (paOf l)) = none →
      Answers (homeCommand p) s fun t => nacked nackDirset t ∧ t.flag (pgHOME h) Fld.HOME_STAT_DIRSET = true) ∧
    (∀ r, LineFree s h p → p.rsv = false → entryClean s h l = true → 4 ≤ p.op.toNat → s.trackerCheck h p.cls.toNat = .inr r →
      (r = nackQos ∨ r = nackTracker) ∧ Answers (homeCommand p) s (nacked r)) ∧
    (∀ k held, HomeTakes s h k p held → badOperand p = true → Answers (homeCommand p) s fun t =>
      same t ∧ ∃ q, Sends (s.consume p) t [q] ∧ IsReply h p (if p.op = 0x07 then 0x54 else 0x41) true q ∧
        (p.op = 0x07 → q.psn = true) ∧ (p.op ≠ 0x07 → q.addr = 2))

/-- SNP_ACK and WB_SNP (R187, R189, R193, R238): the answer takes its snoop out of the transaction; the data of a WbSnp is to be written
to the Hearth and serves the transaction. The last answer ends an Upgrade of a sharer with GrantUp, and a RdOwn served by a forwarder
with Cmp; the line is EX of the requester. An answer that no snoop awaits sets PROTO and changes no transaction.

WB_DATA and the return of its Hearth access (R190, R191, R193): the owner's data takes a writeback entry, which makes the line BUSY;
when the data is written, WbAck answers it and the line becomes NC. From a site that does not own the line it is dropped, with PROTO set,
and still acknowledged.

The Hearth access of a transaction returns (R187, R188, R312, R314): a hit gives the line, and a read by a sole requester ends with
DataE (RdShared and RdOwn) or DataRd (RdOnce), the entry installed; a miss asks memory for the line, whose return ends the transaction in
the same way. A Strike of a whole line ends with Cmp when its write has been accepted. -/
def Obligations.AnswersAtHome : Prop :=
  (∀ (s : State) (h k : Nat) (x : Txn) (p : Pkt) (n : Snoop), Serving s h k x → Issues s h 1 p → isDieNode p.src = true →
    p.addr.toNat = x.line →
    (x.snoops.find? (fun e => e.site == siteOf p.src && e.txn == p.txn.toNat) = some n → x.hq ≠ [] →
      State.resultOk n (p.size.toNat % 4) = true → p.size.toNat < 4 → p.op = 0x43 → Answers (.snpAck p) s fun t =>
        (∃ y, t.txn? h k = some y ∧ y.snoops = x.snoops.erase n ∧ y.fwd = (x.fwd || p.na) ∧ y.hq = x.hq ∧ y.wpWait = x.wpWait) ∧
        Sends (s.consume p) t [] ∧ (∀ l, t.lineDir h l = s.lineDir h l) ∧ SameMemory s t) ∧
    (x.snoops.find? (fun e => e.site == siteOf p.src && e.txn == p.txn.toNat) = some n → p.op = 0x61 →
      State.resultOk n (p.size.toNat % 4) = true → Answers (.wbSnp p) s fun t =>
        (∃ y, t.txn? h k = some y ∧ y.snoops = x.snoops.erase n ∧ y.hq = x.hq ++ [.wr (s.lineTaken p).1 p.psn] ∧
          y.data = some ((s.lineTaken p).1, p.psn)) ∧
        Sends (s.consume p) t [] ∧ (∀ l, t.lineDir h l = s.lineDir h l) ∧ SameMemory s t) ∧
    (x.snoops = [n] → n.site = siteOf p.src → n.txn = p.txn.toNat → x.wpWait = [] → x.hq = [] → n.op = 0x22 → p.size = 0 →
      isDieNode x.req.src = true → x.req.op = 0x03 → p.op = 0x43 →
      (∃ pv lead, x.d0 = .sh pv lead ∧ bitN pv (siteOf x.req.src) = true) → (s.dirFind h x.line).isSome = true →
      Answers (.snpAck p) s fun t =>
        t.txn? h k = none ∧ t.lineBusy h x.line = false ∧ t.lineDir h x.line = .ex (siteOf x.req.src) ∧ OtherEntries h x.line s t ∧
        ∃ q, Sends (s.consume p) t [q] ∧ IsReply h x.req 0x42 true q) ∧
    (x.snoops = [n] → n.site = siteOf p.src → n.txn = p.txn.toNat → x.wpWait = [] → x.hq = [] → n.op = 0x21 → p.size = 0 → p.na = true →
      isDieNode x.req.src = true → x.req.op = 0x02 → p.op = 0x43 → (s.dirFind h x.line).isSome = true →
      Answers (.snpAck p) s fun t =>
        t.txn? h k = none ∧ t.lineBusy h x.line = false ∧ t.lineDir h x.line = .ex (siteOf x.req.src) ∧ OtherEntries h x.line s t ∧
        ∃ q, Sends (s.consume p) t [q] ∧ IsReply h x.req 0x41 true q) ∧
    (x.snoops = [] → p.op = 0x43 → Answers (.snpAck p) s fun t =>
      (t.homeAt h).trk = [(k, x)] ∧ Sends (s.consume p) t [] ∧ t.flag (pgHOME h) Fld.HOME_STAT_PROTO = true) ∧
    (x.snoops = [] → p.op = 0x61 → Answers (.wbSnp p) s fun t =>
      (t.homeAt h).trk = [(k, x)] ∧ Sends (s.consume p) t [] ∧ t.flag (pgHOME h) Fld.HOME_STAT_PROTO = true)) ∧
  (∀ (s : State) (h : Nat) (p : Pkt), Issues s h 1 p → h < 64 → isDieNode p.src = true →
    (∀ i, i < 16 → s.fenced i = false) → p.op = 0x60 →
    let l := p.addr.toNat
    let me := siteOf p.src
    (s.lineDir h l = .ex me → s.lineBusy h l = false → (s.homeAt h).wb = [] → Answers (.wbData p) s fun t =>
      (∃ a, t.aux? h 0 = some a ∧ a.line = l ∧ a.site = me ∧ a.hq = [.wr (s.lineTaken p).1 p.psn]) ∧ t.lineBusy h l = true ∧
      t.lineDir h l = .ex me ∧ Sends (s.consume p) t [] ∧ SameMemory s t) ∧
    (s.lineDir h l ≠ .ex me → Answers (.wbData p) s fun t =>
      t.flag (pgHOME h) Fld.HOME_STAT_PROTO = true ∧ (∀ i, (t.homeAt i).wb = (s.homeAt i).wb) ∧ (∀ a, t.lineDir h a = s.lineDir h a) ∧
      SameMemory s t ∧ ∃ q, Sends (s.consume p) t [q] ∧ IsReply h p 0x45 true q) ∧
    (∀ s' ecc d, (s.homeAt h).wb = [(0, ⟨l, some p, me, false, [.wr d p.psn], false⟩)] → (s.homeAt h).rsv = [] →
      s.homeTurn h 2 = true → s.hearthWrite h l d p.psn false = some s' → Answers (.hearthReturn h 0 true ecc) s fun t =>
        (t.homeAt h).wb = [] ∧ t.lineDir h l = .nc ∧ OtherEntries h l s t ∧ t.mem = s'.mem ∧ t.hearths = s'.hearths ∧
        ∃ q, Sends s t [q] ∧ IsReply h p 0x45 true q)) ∧
  (∀ (s : State) (h k : Nat) (x : Txn), Serving s h k x → s.homeTurn h 2 = true → x.d0 = .nc → s.lineDir h x.line = .nc → x.snoops = [] → x.wpWait = [] →
    x.fwd = false → x.data = none → x.psnOut = false → x.dataSent = false →
    let me := siteOf x.req.src
    let ends := fun (d : LineData) (psn : Bool) (t : State) =>
      t.txn? h k = none ∧ t.lineBusy h x.line = false ∧ OtherEntries h x.line s t ∧
      t.lineDir h x.line = (if x.req.op = 0x04 then .nc else .ex me) ∧
      ∃ q, Sends s t [q] ∧ IsReply h x.req (if x.req.op = 0x04 then 0x54 else 0x52) true q ∧ q.data = d ∧ q.psn = psn
    (∀ w ecc d psn s', x.hq = [.rd] → x.memWait = false →
      (x.req.op = 0x04 ∨ ((x.req.op = 0x01 ∨ x.req.op = 0x02) ∧ isDieNode x.req.src = true ∧ x.way = some w ∧ w < 16 ∧
        (nthD (s.dirAt h (dirSet (paOf x.line))) w {}).st = 0 ∧ s.dirFind h x.line = none)) →
      s.hearthRead h x.line x.req.na ecc = .hit d psn s' →
      Answers (.hearthReturn h k false ecc) s fun t => ends d psn t ∧ t.hearths = s'.hearths) ∧
    (∀ ecc s', x.hq = [.rd] → x.memWait = false → s.hearthRead h x.line x.req.na ecc = .miss s' →
      Answers (.hearthReturn h k false ecc) s fun t =>
        t.txn? h k = some { x with memWait := true } ∧ t.mem.rd = s.mem.rd ++ [⟨x.line, h, k, false, s.time, s.farDec (paOf x.line)⟩] ∧
        Sends s t [] ∧ (∀ l, t.lineDir h l = s.lineDir h l)) ∧
    (∀ w d psn rd, x.hq = [.rd] → x.memWait = true → s.mem.ret = [⟨rd, d, psn, false⟩] → rd.line = x.line → rd.home = h → rd.key = k →
      rd.aux = false →
      (x.req.op = 0x04 ∨ ((x.req.op = 0x01 ∨ x.req.op = 0x02) ∧ isDieNode x.req.src = true ∧ x.way = some w ∧ w < 16 ∧
        (nthD (s.dirAt h (dirSet (paOf x.line))) w {}).st = 0 ∧ s.dirFind h x.line = none)) →
      Answers (.memoryReturn h k false) s fun t => ends d psn t ∧ t.mem.ret = [] ∧ SameMemory s t) ∧
    (∀ d psn ecc s', x.req.op = 0x05 → x.req.mask = BitVec.allOnes 64 → x.hq = [.wr d psn] → x.memWait = false → x.wrote = true →
      s.hearthWrite h x.line d psn x.req.na x.looked = some s' → Answers (.hearthReturn h k false ecc) s fun t =>
        t.txn? h k = none ∧ t.lineBusy h x.line = false ∧ t.lineDir h x.line = .nc ∧ OtherEntries h x.line s t ∧
        t.hearths = s'.hearths ∧ t.mem = s'.mem ∧ ∃ q, Sends s t [q] ∧ IsReply h x.req 0x41 true q))

/-- What a home does as time passes, and its reservations (R215, R226 to R232, R241, R257): a request that waited for a way goes on when
one is free; a reservation lapses when its line has been held past the lapse time; a snoop outstanding for 20 us is noted once; a refused
RSV request makes a reservation, a taken one uses it; CLR clears the refusal and delay counts and nothing else.

The walks over a directory (R245 to R250, R667): a request that is refused has its line's entry contained first, so an entry of a fenced
owner becomes NC (R247); a visit of the containment walk takes fenced sites out of every entry of its set,
writes poisoned the lines they owned, and moves to the next set; a visit of the recall walk sends SnpBack for an entry that names the site
and stays at the set, and goes on from a set that names it nowhere. SITE_FENCE sets FENCED and starts the walk at every home. -/
def Obligations.HomeTimersAndWalks : Prop :=
  ((∀ (s : State) (h k : Nat) (x : Txn) (w : Nat), Clocked s → h < 64 → s.txn? h k = some x → x.kind = .request → x.victim = none →
    x.started = false → x.req.op = 0x01 → x.hq = [] → x.data = none → x.fwd = false → x.wpWait = [] → x.wbSeen = [] → x.line < 2 ^ 46 →
    s.homeTurn h 3 = true → (∀ e ∈ (s.homeAt h).trk, x.born ≤ e.2.born) → s.lineDir h x.line = .nc → s.freeWay h (dirSet (paOf x.line)) = some w →
    Answers (.transactionContinue h k) s fun t =>
      (∃ y, t.txn? h k = some y ∧ y.started = true ∧ y.way = some w ∧ y.hq = [.rd] ∧ y.req = x.req ∧ y.snoops = []) ∧
      t = { s with homes := t.homes }) ∧
  (∀ (s : State) (h line n b : Nat) (r : Rsv), Clocked s → h < 64 → s.oldestRsv h line = some (n, r) →
    Tab.get? line (s.homeAt h).heldSince = some b → s.lineBusy h line = false → Answers (.rsvLapse h line) s fun t =>
      (b + 100 * s.get (pgHOME h) Fld.HOME_RSV_CFG_LAPSE ≤ s.time →
        Tab.get? n (t.homeAt h).rsv = none ∧ t.flag (pgHOME h) Fld.HOME_STAT_RSV_LAPSE = true ∧
        t = { s with homes := t.homes, regs := t.regs } ∧ SameRegs [(pgHOME h, Reg.HOME_STAT)] s t) ∧
      (s.time < b + 100 * s.get (pgHOME h) Fld.HOME_RSV_CFG_LAPSE → t = s)) ∧
  (∀ (s : State) (h k : Nat) (x : Txn) (n : Snoop), Clocked s → h < 64 → k < 2048 → s.txn? h k = some x → x.snoops = [n] → x.wpWait = [] →
    n.timedOut = false → n.site < 16 → s.flag (pgHOME h) Fld.HOME_SNP_TO_LOC_V = false → Answers (.snpTo h k n.site) s fun t =>
      (n.start + 20000 ≤ s.time →
        t.txn? h k = some { x with snoops := [{ n with timedOut := true }] } ∧ t.flag (pgHOME h) Fld.HOME_STAT_SNP_TO = true ∧
        t.flag (pgHOME h) Fld.HOME_SNP_TO_LOC_V = true ∧ t.get (pgHOME h) Fld.HOME_SNP_TO_LOC_SITE = n.site ∧
        t.get (pgHOME h) Fld.HOME_SNP_TO_LOC_ENTRY = k % 1024 ∧ srcHOME h 0 ∈ t.raised ∧ t.net = s.net ∧
        SameRegs [(pgHOME h, Reg.HOME_STAT), (pgHOME h, Reg.HOME_SNP_TO_LOC)] s t ∧
        (s.stormed (srcHOME h 0) = false → ∃ r, t.recs = s.recs ++ [r] ∧ r.typ = 0x06 ∧ r.cls = 3 ∧ r.addr = some (paOf n.line))) ∧
      (s.time < n.start + 20000 → t = s)) ∧
  (∀ (s : State) (h n : Nat) (p : Pkt), AtHome s h p → entryClean s h p.addr.toNat = true → (isDieNode p.src = true → s.quiesced (siteOf p.src) = false) →
    s.pageRetired p.addr.toNat = false → p.rsv = true → s.lineBusy h p.addr.toNat = true → s.rsvOf h p.src.toNat p.addr.toNat = none →
    Tab.freeKey (s.homeAt h).rsv 8 = some n → Answers (homeCommand p) s fun t =>
      (Tab.get? n (t.homeAt h).rsv).map (fun r => (r.srcNode, r.line)) = some (p.src.toNat, p.addr.toNat) ∧
      ∃ q, Sends (s.consume p) t [q] ∧ IsNack h p nackConflict q) ∧
  (∀ (s : State) (h n : Nat) (p : Pkt), LineFree s h p → p.rsv = true → p.op = 0x04 → s.lineDir h p.addr.toNat = .nc →
    s.rsvOf h p.src.toNat p.addr.toNat = none → Tab.freeKey (s.homeAt h).rsv 8 = some n → Answers (.rdOnce p) s fun t =>
      (∃ x, t.txn? h (1024 + n) = some x ∧ x.req = p ∧ x.held = .rsvEntry ∧ x.hq = [.rd]) ∧
      (Tab.get? n (t.homeAt h).rsv).map (fun r => (r.srcNode, r.line)) = some (p.src.toNat, p.addr.toNat)) ∧
  (∀ (s : State) (h : Nat), Clocked s → h < 64 → Answers (.homeCntClr h) s fun t =>
    (∀ i, i < 6 → t.reg (pgHOME h) (Reg.HOME_NACK_CNT i) = 0) ∧
    (∀ c, c < 4 → t.reg (pgHOME h) (Reg.HOME_OVL_REF c) = 0 ∧ t.reg (pgHOME h) (Reg.HOME_OVL_DLY c) = 0) ∧
    SameRegs ((List.range 6).map (fun i => (pgHOME h, Reg.HOME_NACK_CNT i)) ++ (List.range 4).map (fun c => (pgHOME h, Reg.HOME_OVL_REF c)) ++
      (List.range 4).map fun c => (pgHOME h, Reg.HOME_OVL_DLY c)) s t ∧ t = { s with regs := t.regs })) ∧
  ((∀ (s : State) (h o : Nat) (p : Pkt), AtHome s h p → p.op ≠ 0x08 → isDieNode p.src = true → s.quiesced (siteOf p.src) = true →
    s.lineDir h p.addr.toNat = .ex o → s.fenced o = true → s.lineBusy h p.addr.toNat = false → Answers (homeCommand p) s fun t =>
      t.lineDir h p.addr.toNat = .nc ∧ OtherEntries h p.addr.toNat s t ∧ t.flag (pgHOME h) Fld.HOME_STAT_POISON = true ∧
      ∃ q, Sends (s.consume p) t [q] ∧ IsNack h p nackFenced q) ∧
  (∀ (s : State) (h site n : Nat), Clocked s → h < 64 → s.homeTurn h 5 = true → (s.homeAt h).walk = [(site, n + 2)] → (s.homeAt h).walkSet < 12288 →
    Answers (.containVisit h) s fun t =>
      let set := (s.homeAt h).walkSet
      (t.homeAt h).walkSet = (set + 1) % 12288 ∧ (t.homeAt h).walk = [(site, n + 1)] ∧
      t.get (pgHOME h) Fld.HOME_LOSS_SET_SET = (set + 1) % 12288 ∧
      (∀ l o, dirSet (paOf l) = set → s.lineDir h l = .ex o → t.lineDir h l = if s.fenced o then .nc else .ex o) ∧
      (∀ l pv lead, dirSet (paOf l) = set → s.lineDir h l = .sh pv lead → (∀ x, x < 16 → bitN pv x = true → s.fenced x = false) →
        t.lineDir h l = .sh pv lead) ∧
      (∀ l pv lead x, dirSet (paOf l) = set → s.lineDir h l = .sh pv lead → x < 16 → s.fenced x = true →
        ∀ pv' lead', t.lineDir h l = .sh pv' lead' → bitN pv' x = false) ∧
      (∀ l, dirSet (paOf l) ≠ set → t.lineDir h l = s.lineDir h l)) ∧
  (∀ (s : State) (h site set : Nat), Clocked s → h < 64 → s.homeTurn h 5 = true → site < 16 → set < 12288 →
    (∀ w ∈ s.dirAt h set, entryClean s h w.line = true) → (s.homeAt h).recallOp = some (site, set) →
    Answers (.recallVisit h) s fun t =>
      ((∀ w ∈ s.dirAt h set, w.state ≠ .ex site ∧ ∀ pv lead, w.state = .sh pv lead → bitN pv site = false) →
        (t.homeAt h).recallOp = some (site, set + 1) ∧ t.net = s.net ∧ (t.homeAt h).trk = (s.homeAt h).trk) ∧
      (∀ (w : DirWay) (held : Held) (k : Nat), s.dirAt h set = [w] → w.state = .ex site → s.lineBusy h w.line = false →
        s.trackerCheck h 3 = .inl held → Tab.freeKey (s.homeAt h).trk 1024 = some k →
        (∃ y, t.txn? h k = some y ∧ y.line = w.line ∧ y.kind = .recall site ∧ y.snoops.length = 1) ∧
        (∃ q, Sends s t [q] ∧ q.op = 0x23 ∧ siteOf q.dst = site ∧ q.src = nodeHome h ∧ q.addr.toNat = w.line % 2 ^ 46) ∧
        (t.homeAt h).recallOp = some (site, set))))

/-! ### The Hearth (R308 to R350) -/

/-- The four range operations (R331, R332, R334, R335): a write to ROP_CMD while none runs starts the operation over the recorded range, every
slice at its first set; a range that is empty or not wholly in one memory ends it at once with BADRANGE, no line touched; while one runs the
write sets OVERLAP and does nothing else.

A slice visits a set for the running operation (R324, R331, R332): a valid line of the range is kept and clean after CLEAN, and not valid
after the others; a dirty line is written to memory, but for an unlocked line under INVALIDATE; a locked line's way becomes reserved; a line
outside the range keeps its way, and the slice goes to its next set. A line written whose words hold an uncorrectable error is written poisoned
and shows in the result (R334, R345). The operation completes when every online slice has visited its last set and memory has accepted its
writes (R332, R334, R338).

The victim buffer and cleaning (R317, R336 to R338, R345): the oldest dirty entry's write is accepted and it becomes clean, in place, with
its mark, or poisoned where its words hold an uncorrectable error; a slice in cleaning has then written its dirty lines and enters bypass,
with STALE_RISK set where it is the first, and MODE reads 2 once every online slice is there. -/
def Obligations.RangeOperations : Prop :=
  (∀ (s : State) (op : Nat) (c : Instr), Clocked s →
    (op = 1 ∧ c = .invalidate) ∨ (op = 2 ∧ c = .clean) ∨ (op = 3 ∧ c = .cleanInv) ∨ (op = 4 ∧ c = .ropInvAll) →
    let base := s.pageAddr (pgHRTH 0) Reg.ROP_BASE_LO Reg.ROP_BASE_HI
    let limit := s.pageAddr (pgHRTH 0) Reg.ROP_LIMIT_LO Reg.ROP_LIMIT_HI + 0xFFF
    let good := base ≤ limit ∧ ((isNear base = true ∧ isNear limit = true) ∨ (isFar base = true ∧ isFar limit = true))
    let busy := s.flag (pgHRTH 0) Fld.ROP_STAT_BUSY = true
    let only := fun (t : State) => SameRegs [(pgHRTH 0, Reg.ROP_STAT)] s t
    (¬ busy → (op = 4 ∨ good) → Answers c s fun t =>
      t.flag (pgHRTH 0) Fld.ROP_STAT_BUSY = true ∧ t.flag (pgHRTH 0) Fld.ROP_STAT_DONE = false ∧
      t.get (pgHRTH 0) Fld.ROP_STAT_OP = op ∧ t.rop = { op := op, base := base, limit := limit, err := false } ∧ only t ∧
      t = { s with regs := t.regs, rop := t.rop, hearths := s.hearths.map fun x => { x with ropSet := 0 } }) ∧
    (¬ busy → op ≠ 4 → ¬ good → Answers c s fun t =>
      t.flag (pgHRTH 0) Fld.ROP_STAT_BUSY = false ∧ t.flag (pgHRTH 0) Fld.ROP_STAT_DONE = true ∧ t.get (pgHRTH 0) Fld.ROP_STAT_STATUS = 1 ∧
      t.raised = s.raised ++ [srcWide 0] ∧ only t ∧ t = { s with regs := t.regs, raised := t.raised }) ∧
    (busy → Answers c s fun t =>
      t.flag (pgHRTH 0) Fld.ROP_STAT_OVERLAP = true ∧ t.flag (pgHRTH 0) Fld.ROP_STAT_BUSY = true ∧ only t ∧ t = { s with regs := t.regs })) ∧
  ((∀ (s : State) (h i : Nat) (es : List (Nat × EccOutcome)), Clocked s → h < 64 → s.flag (pgHRTH 0) Fld.ROP_STAT_BUSY = true →
    s.hearthOffline h = false → (s.hearthAt h).ropSet < 8192 → i < 16 → 1 ≤ s.rop.op → s.rop.op ≤ 4 →
    let n := (s.hearthAt h).ropSet
    let w := nthD (s.waysAt h n) i {}
    Answers (.ropSetVisit h es) s fun t =>
      let w' := nthD (t.waysAt h n) i {}
      let writes := w.dirty = true ∧ (s.rop.op ≠ 1 ∨ ∃ r, w.lock = .locked r)
      (t.hearthAt h).ropSet = n + 1 ∧
      ((w.valid = false ∨ s.inRop w.line = false) → w' = w) ∧
      (w.valid = true → s.inRop w.line = true →
        w'.valid = decide (s.rop.op = 2) ∧ w'.dirty = false ∧ w'.line = w.line ∧
        (w.lock = .none → w'.lock = .none) ∧ (s.rop.op = 2 → w'.lock = w.lock) ∧
        (s.rop.op = 2 → (w.dirty = false ∨ eccOf es w.line ≠ .uncorrectable) → w'.data = w.data ∧ w'.psn = w.psn) ∧
        (∀ r, w.lock = .locked r → s.rop.op ≠ 2 → w'.lock = .reserved r w.line) ∧
        (writes → eccOf es w.line ≠ .uncorrectable → ⟨w.line, w.data, w.psn, true, s.time, s.farDec (paOf w.line)⟩ ∈ t.mem.wr) ∧
        (writes → eccOf es w.line = .uncorrectable →
          (∃ d, ⟨w.line, d, true, true, s.time, s.farDec (paOf w.line)⟩ ∈ t.mem.wr) ∧ t.rop.err = true)) ∧
      (∀ e ∈ s.mem.wr, e ∈ t.mem.wr) ∧ SameMemory s t ∧
      SameButCounters [(pgHRTH h, Reg.HRTH_SSTAT), (pgHRTH h, Reg.HRTH_ERR_CNT)] s t ∧
      ((∀ l, eccOf es l = .clean) → SameButCounters [] s t ∧
        t = { s with hearths := t.hearths, mem := { s.mem with wr := t.mem.wr } })) ∧
  (∀ (s : State), Clocked s → s.flag (pgHRTH 0) Fld.ROP_STAT_BUSY = true → (∀ h, h < 64 → s.hearthOffline h = false → (s.hearthAt h).ropSet = 8192) →
    (∀ w ∈ s.mem.wr, w.rop = true → isNear (paOf w.line) = true) → Answers .ropComplete s fun t =>
      t.flag (pgHRTH 0) Fld.ROP_STAT_BUSY = false ∧ t.flag (pgHRTH 0) Fld.ROP_STAT_DONE = true ∧
      t.get (pgHRTH 0) Fld.ROP_STAT_STATUS = (if s.rop.err then 3 else 0) ∧ t.raised = s.raised ++ [srcWide 0] ∧
      (s.rop.op = 4 → s.rop.err = false → t.flag (pgHRTH 0) Fld.HRTH_GSTAT_STALE_RISK = false) ∧
      SameRegs [(pgHRTH 0, Reg.ROP_STAT), (pgHRTH 0, Reg.HRTH_GSTAT)] s t ∧ t = { s with regs := t.regs, raised := t.raised })) ∧
  ((∀ (s : State) (h : Nat) (a b : List VbEntry) (e : VbEntry), Clocked s → h < 64 → (s.hearthAt h).vb = a ++ e :: b →
    (∀ x ∈ a, x.dirty = false) → e.dirty = true → e ∉ b →
    (∀ ecc, ecc ≠ .uncorrectable → Answers (.vbWriteAccept h ecc) s fun t =>
      (t.hearthAt h).vb = a ++ { e with dirty := false } :: b ∧
      t.mem.wr = s.mem.wr ++ [⟨e.line, e.data, e.psn, false, s.time, s.farDec (paOf e.line)⟩] ∧
      (ecc = .clean → t = { s with hearths := t.hearths, mem := { s.mem with wr := t.mem.wr } }) ∧
      (ecc = .corrected → t.flag (pgHRTH h) Fld.HRTH_SSTAT_CE = true ∧ CountsOne s t (pgHRTH h) Fld.HRTH_ERR_CNT_CE) ∧
      SameRegs [(pgHRTH h, Reg.HRTH_SSTAT), (pgHRTH h, Reg.HRTH_ERR_CNT)] s t ∧ ∀ i, i ≠ h → t.hearthAt i = s.hearthAt i) ∧
    Answers (.vbWriteAccept h .uncorrectable) s fun t =>
      (∃ d, (t.hearthAt h).vb = a ++ { e with dirty := false, data := d, psn := true } :: b ∧
        t.mem.wr = s.mem.wr ++ [⟨e.line, d, true, false, s.time, s.farDec (paOf e.line)⟩]) ∧
      t.flag (pgHRTH h) Fld.HRTH_SSTAT_UE = true ∧ CountsOne s t (pgHRTH h) Fld.HRTH_ERR_CNT_UE ∧ srcHRTH h 0 ∈ t.raised ∧
      SameRegs [(pgHRTH h, Reg.HRTH_SSTAT), (pgHRTH h, Reg.HRTH_ERR_CNT)] s t ∧ ∀ i, i ≠ h → t.hearthAt i = s.hearthAt i) ∧
  (∀ (s : State) (h set i : Nat) (ws : List HWay) (es : List (Nat × EccOutcome)), Clocked s → h < 64 → (s.hearthAt h).mode = 1 →
    (s.hearthAt h).vb = [] → (s.hearthAt h).ways = [(set, ws)] → i < 16 → Answers (.hrthCleanDone h es) s fun t =>
      let w := nthD ws i {}
      let w' := nthD (t.waysAt h set) i {}
      (t.hearthAt h).mode = 2 ∧
      ((∀ j, j < 64 → s.hearthOffline j = false → (s.hearthAt j).mode ≠ 2) → t.flag (pgHRTH 0) Fld.HRTH_GSTAT_STALE_RISK = true) ∧
      (w.valid = false → w' = w) ∧
      (w.valid = true → w'.valid = true ∧ w'.dirty = false ∧ w'.line = w.line ∧ w'.lock = w.lock) ∧
      (w.valid = true → eccOf es w.line ≠ .uncorrectable → w' = { w with dirty := false } ∧
        (w.dirty = true → ⟨w.line, w.data, w.psn, false, s.time, s.farDec (paOf w.line)⟩ ∈ t.mem.wr)) ∧
      (w.valid = true → w.dirty = true → eccOf es w.line = .uncorrectable → w'.psn = true ∧
        ⟨w.line, w'.data, true, false, s.time, s.farDec (paOf w.line)⟩ ∈ t.mem.wr) ∧
      (s.get (pgHRTH 0) Fld.HRTH_GSTAT_MODE ≠ 0 →
        (∀ j, j < 64 → j ≠ h → s.hearthOffline j = false → (s.hearthAt j).mode = 2) → t.get (pgHRTH 0) Fld.HRTH_GSTAT_MODE = 2) ∧
      SameRegs [(pgHRTH 0, Reg.HRTH_GSTAT), (pgHRTH h, Reg.HRTH_SSTAT), (pgHRTH h, Reg.HRTH_ERR_CNT)] s t ∧ SameMemory s t))

/-! ### Memory (R351 to R396) -/

/-- MEM_READ (R357 to R360): with no error the line as stored, with the mark it carries; errors in one lane group are corrected: the same,
counted for its channel, CE set, nothing rewritten; errors in two mark the line, count it, and return it poisoned, the first such line's address
and one record kept where it was not marked before; in more, the read returns some line (log 145). An accepted write of the line that waits is
what the read sees (log 8).

MEM_WRITE (R352, R360): the oldest accepted write of the line takes effect: all its 64 bytes, and the mark as the write carries it; every
byte outside the line, and every other mark, stays.

Far memory (R388 to R391): on a port that is up, the device's answer returns to the slice with its poison and may be kept; an access fails
once it has waited for the completion timeout, its link is down or contained, the device answers with an error, or its domain is off: a read is
then answered poisoned with every byte 0xFF and is not kept, a write is lost, and ends the range operation that issued it with ERR; either is
counted for its port, recorded with the line, the cause and the port (log 15), and raised. Near memory is not touched. -/
def Obligations.MemoryAccesses : Prop :=
  (∀ (s : State) (l : Nat) (r : MemRd), Clocked s → isNear (paOf l) = true → s.mem.rd.find? (fun r => r.line == l && isNear (paOf l)) = some r →
    s.rowHeld l = false → s.selfRefresh (s.mcOf l).1 = false →
    let mc := pgMC (s.mcOf l).1
    let ch := (s.mcOf l).2
    let back := fun (t : State) (d : LineData) (psn : Bool) =>
      t.mem.ret = s.mem.ret ++ [⟨r, d, psn, true⟩] ∧ t.mem.rd = s.mem.rd.erase r ∧ t.mem.wr = s.mem.wr
    (∀ w groups, s.pendingWrite l = some w → Answers (.memRead l groups) s fun t => back t w.data w.psn ∧ SameMemory s t) ∧
    (s.pendingWrite l = none → Answers (.memRead l 0) s fun t =>
      back t (s.memLine l) (s.memPoison l) ∧ SameMemory s t ∧ t.mem.marks = s.mem.marks ∧ SameButCounters [] s t) ∧
    (s.pendingWrite l = none → Answers (.memRead l 1) s fun t =>
      back t (s.memLine l) (s.memPoison l) ∧ SameMemory s t ∧ t.mem.marks = s.mem.marks ∧ t.flag mc Fld.MC_STAT_CE = true ∧
      t.get mc (Fld.MC_CE_CNT_COUNT ch) = min (s.get mc (Fld.MC_CE_CNT_COUNT ch) + 1) (2 ^ 32 - 1) ∧
      SameButCounters [(mc, Reg.MC_STAT), (mc, Reg.MC_CE_CNT ch), (mc, Reg.MC_ROWSPARE_STAT)] s t ∧
      (s.flag mc Fld.MC_CTL_ROW_AUTO = false → SameButCounters [(mc, Reg.MC_STAT), (mc, Reg.MC_CE_CNT ch)] s t)) ∧
    (∀ groups, 2 < groups → s.pendingWrite l = none → Answers (.memRead l groups) s fun t =>
      (∃ d psn, back t d psn) ∧ ∀ a, (a < paOf l ∨ paOf l + 64 ≤ a) → Memory.read t.mem.cells a = Memory.read s.mem.cells a) ∧
    (s.pendingWrite l = none → Answers (.memRead l 2) s fun t =>
      (∃ d, back t d true) ∧ t.memPoison l = true ∧ (∀ k, k ≠ l → t.memPoison k = s.memPoison k) ∧
      (∀ a, (a < paOf l ∨ paOf l + 64 ≤ a) → Memory.read t.mem.cells a = Memory.read s.mem.cells a) ∧
      t.flag mc Fld.MC_STAT_UE = true ∧ t.get mc Fld.MC_UE_CNT_COUNT = min (s.get mc Fld.MC_UE_CNT_COUNT + 1) (2 ^ 32 - 1) ∧
      (s.memPoison l = true → t.raised = s.raised ∧ t.recs = s.recs) ∧
      (s.memPoison l = false → t.raised = s.raised ++ [srcMC (s.mcOf l).1 0] ∧ t.flag mc Fld.MC_ERR_LOC_HI_V = true ∧
        (s.flag mc Fld.MC_ERR_LOC_HI_V = false → t.get mc Fld.MC_ERR_LOC_LO_ADDR_LO = l % 2 ^ 26 ∧ t.get mc Fld.MC_ERR_LOC_HI_CHAN = ch)))) ∧
  (∀ (s : State) (l : Nat) (w : MemWr), Clocked s → isNear (paOf l) = true →
    s.mem.wr.find? (fun w => w.line == l && isNear (paOf l)) = some w → s.rowHeld l = false → s.selfRefresh (s.mcOf l).1 = false →
    Answers (.memWrite l) s fun t =>
      (∀ i, i < 64 → Memory.read t.mem.cells (paOf l + i) = lineByte w.data i) ∧
      (∀ a, (a < paOf l ∨ paOf l + 64 ≤ a) → Memory.read t.mem.cells a = Memory.read s.mem.cells a) ∧
      t.memPoison l = w.psn ∧ (∀ k, k ≠ l → t.memPoison k = s.memPoison k) ∧ (MemoryCanonical s → MemoryCanonical t) ∧
      t.mem.wr = s.mem.wr.erase w ∧ SameButCounters [] s t ∧
      t = { s with regs := t.regs, ctr := t.ctr, mem := { s.mem with cells := t.mem.cells, marks := t.mem.marks, wr := t.mem.wr } }) ∧
  ((∀ (s : State) (n p since : Nat), s.farFails (some (n, p)) since 1 = decide (since + 1000 * s.get (pgPCIE n) Fld.CPL_TO_VALUE ≤ s.time) ∧
    s.farFails (some (n, p)) since 2 = (s.domOn (43 + n) && !s.portUp n p) ∧
    s.farFails (some (n, p)) since 3 = (s.domOn (43 + n) && s.portUp n p) ∧
    s.farFails (some (n, p)) since 4 = !s.domOn (43 + n)) ∧
  ∀ (s : State) (l n p : Nat), Clocked s → isFar (paOf l) = true → n < 6 → p < 4 →
    let loc := fun (t : State) (cause : Nat) => t.raised = s.raised ++ [srcPCIE n 7] ∧ (s.stormed (srcPCIE n 7) = false →
      ∃ r, t.recs = s.recs ++ [r] ∧ r.typ = 0x09 ∧ r.page = pgPCIE n ∧ r.addr = some (paOf l) ∧ r.words = [cause + p * 256])
    (∀ r d psn, s.mem.rd.find? (fun r => r.line == l) = some r → r.port = some (n, p) → s.domOn (43 + n) = true → s.portUp n p = true →
      Answers (.farMemReturn l false d psn) s fun t =>
        t.mem.ret = s.mem.ret ++ [⟨r, d, psn, true⟩] ∧ t.mem.rd = s.mem.rd.erase r ∧
        t = { s with mem := { s.mem with rd := t.mem.rd, ret := t.mem.ret } }) ∧
    (∀ w d psn, s.mem.wr.find? (fun w => w.line == l) = some w → w.port = some (n, p) → s.domOn (43 + n) = true → s.portUp n p = true →
      Answers (.farMemReturn l true d psn) s fun t => t = { s with mem := { s.mem with wr := s.mem.wr.erase w } }) ∧
    (∀ r cause, s.mem.rd.find? (fun r => r.line == l) = some r → r.port = some (n, p) → s.farFails r.port r.since cause = true →
      Answers (.farMemFail l false cause) s fun t =>
      t.mem.ret = s.mem.ret ++ [⟨r, BitVec.allOnes 512, true, false⟩] ∧
      t.get (pgPCIE n) (Fld.FM_RD_FAIL_COUNT p) = min (s.get (pgPCIE n) (Fld.FM_RD_FAIL_COUNT p) + 1) (2 ^ 32 - 1) ∧
      SameRegs [(pgPCIE n, Reg.FM_RD_FAIL p)] s t ∧ loc t cause ∧ SameMemory s t) ∧
    (∀ w cause, s.mem.wr.find? (fun w => w.line == l) = some w → w.port = some (n, p) → s.farFails w.port w.since cause = true →
      Answers (.farMemFail l true cause) s fun t =>
      t.mem.wr = s.mem.wr.erase w ∧ t.rop.err = (s.rop.err || w.rop) ∧
      t.get (pgPCIE n) (Fld.FM_WR_FAIL_COUNT p) = min (s.get (pgPCIE n) (Fld.FM_WR_FAIL_COUNT p) + 1) (2 ^ 32 - 1) ∧
      SameRegs [(pgPCIE n, Reg.FM_WR_FAIL p)] s t ∧ loc t cause ∧ SameMemory s t))

/-- Patrol scrub and row sparing (R361 to R367): a scrub read without an error moves to the next line, and at the end of a channel to the next;
with a correctable one it counts it; with an uncorrectable one it marks the line. GO starts a row sparing of the line MC_ROWSPARE_ADDR names, or ends with BADADDR where it is not near
memory of the controller or its channel is being spared; while one runs GO is ignored. A copy ends in a free spare row, its uncorrectable lines
poisoned, or with NOSPARE where the bank has none; a trigger that waited is then performed.

Channel sparing, refresh and temperature (R368 to R373, R377 to R380, R383): the automatic start, the switch and the abandonment of a channel
sparing, lines of the channel found uncorrectable poisoned and the map kept in boot flash; a refresh postponed while its bank is busy, forced at the limit, and the repayment of a debt; the temperature of a stack and HOT; the
record of a rise of MC_REF_FORCED. -/
def Obligations.MemoryUpkeep : Prop :=
  ((∀ (s : State) (n groups : Nat), Clocked s → n < 24 → s.get (pgMC n) Fld.MC_CTL_SCRUB_HRS ≠ 0 → s.selfRefresh n = false →
    s.pageOff (pgMC n) = false →
    let j := s.get (pgMC n) Fld.MC_SCRUB_POS_CHAN
    let o := s.get (pgMC n) Fld.MC_SCRUB_POS_O
    let sub := Tab.getD n 0 s.mem.scrubSub
    let l := lineAt s.quad (n / 2) (j + 8 * (n % 2)) o sub
    s.sparing (n / 2) (j + 8 * (n % 2)) = false → (s.mcOf l).1 = n → s.rowHeld l = false → sub < 4 → Answers (.scrubRead n groups) s fun t =>
      (sub < 3 → Tab.getD n 0 t.mem.scrubSub = sub + 1 ∧ t.get (pgMC n) Fld.MC_SCRUB_POS_O = o ∧ t.get (pgMC n) Fld.MC_SCRUB_POS_CHAN = j) ∧
      (sub = 3 → Tab.getD n 0 t.mem.scrubSub = 0 ∧
        (o + 1 < 2 ^ 23 → t.get (pgMC n) Fld.MC_SCRUB_POS_O = o + 1 ∧ t.get (pgMC n) Fld.MC_SCRUB_POS_CHAN = j) ∧
        (o + 1 = 2 ^ 23 → t.get (pgMC n) Fld.MC_SCRUB_POS_O = 0 ∧ t.get (pgMC n) Fld.MC_SCRUB_POS_CHAN = (j + 1) % 8 ∧
          (j = 7 → t.flag (pgMC n) Fld.MC_STAT_SCRUB_PASS = true))) ∧
      (groups < 2 → SameMemory s t ∧ ∀ k, t.memPoison k = s.memPoison k) ∧
      (groups = 1 → t.flag (pgMC n) Fld.MC_STAT_CE = true) ∧
      (groups = 2 → t.memPoison l = true ∧ t.flag (pgMC n) Fld.MC_STAT_UE = true) ∧
      (∀ k, k ≠ l → t.memPoison k = s.memPoison k) ∧
      ∀ a, (a < paOf l ∨ paOf l + 64 ≤ a) → Memory.read t.mem.cells a = Memory.read s.mem.cells a) ∧
  (∀ (s : State) (n : Nat), Clocked s → n < 24 → s.pageOff (pgMC n) = false →
    let l := s.get (pgMC n) Fld.MC_ROWSPARE_ADDR_LO_ADDR_LO + s.get (pgMC n) Fld.MC_ROWSPARE_ADDR_HI_ADDR_HI * 2 ^ 26
    let ours := isNear (paOf l) = true ∧ (s.mcOf l).1 = n ∧ s.sparing (nearPlace s.quad (paOf l)).1 (nearPlace s.quad (paOf l)).2.1 = false
    (s.flag (pgMC n) Fld.MC_ROWSPARE_STAT_BUSY = true → Answers (.go n) s fun t => t = s) ∧
    (s.flag (pgMC n) Fld.MC_ROWSPARE_STAT_BUSY = false → ours → Answers (.go n) s fun t =>
      t.flag (pgMC n) Fld.MC_ROWSPARE_STAT_BUSY = true ∧ t.flag (pgMC n) Fld.MC_ROWSPARE_STAT_DONE = false ∧ t.rowHeld l = true ∧
      SameRegs [(pgMC n, Reg.MC_ROWSPARE_STAT)] s t ∧ SameMemory s t) ∧
    (s.flag (pgMC n) Fld.MC_ROWSPARE_STAT_BUSY = false → ¬ ours → Answers (.go n) s fun t =>
      t.flag (pgMC n) Fld.MC_ROWSPARE_STAT_DONE = true ∧ t.get (pgMC n) Fld.MC_ROWSPARE_STAT_STATUS = 3 ∧
      t.flag (pgMC n) Fld.MC_ROWSPARE_STAT_BUSY = false ∧ SameRegs [(pgMC n, Reg.MC_ROWSPARE_STAT)] s t ∧ t = { s with regs := t.regs })) ∧
  (∀ (s : State) (n l : Nat) (bad : List Nat), Clocked s → n < 24 → Tab.get? n s.mem.rowCur = some l → (s.mcOf l).1 = n →
    let place := nearPlace s.quad (paOf l)
    let bank := (place.1 * 16 + place.2.1) * 64 + bankOf place.2.2
    let used := Tab.getD bank 0 s.mem.spareUsed
    let marked := (∃ x ∈ s.rowLines l, s.memPoison x = true) ∨ ∃ i ∈ bad, i < 32
    (used < 8 → s.mem.rowQ = [] → Answers (.rowSpareDone n bad) s fun t =>
      t.flag (pgMC n) Fld.MC_ROWSPARE_STAT_BUSY = false ∧ t.flag (pgMC n) Fld.MC_ROWSPARE_STAT_DONE = true ∧
      (marked → t.get (pgMC n) Fld.MC_ROWSPARE_STAT_STATUS = 1) ∧ (¬ marked → t.get (pgMC n) Fld.MC_ROWSPARE_STAT_STATUS = 0) ∧
      (∀ i ∈ bad, i < 32 → t.memPoison (nthD (s.rowLines l) i 0) = true) ∧
      t.get (pgMC n) Fld.MC_ROWSPARE_STAT_LEFT = 7 - used ∧ Tab.getD bank 0 t.mem.spareUsed = used + 1 ∧
      Tab.get? (s.rowKey l) t.mem.rowMap = some (used + 1) ∧ t.flash.rowMap = t.mem.rowMap ∧ Tab.get? n t.mem.rowCur = none ∧
      ((∀ i ∈ bad, 32 ≤ i) → SameMemory s t)) ∧
    (8 ≤ used → s.mem.rowQ = [] → Answers (.rowSpareDone n bad) s fun t =>
      t.get (pgMC n) Fld.MC_ROWSPARE_STAT_STATUS = 2 ∧ t.flag (pgMC n) Fld.MC_STAT_ROW_NOSPARE = true ∧
      t.raised = s.raised ++ [srcMC n 3] ∧ Tab.getD bank 0 t.mem.spareUsed = used ∧ SameMemory s t) ∧
    (∀ l2, s.mem.rowQ = [(n, l2)] → isNear (paOf l2) = true → (s.mcOf l2).1 = n → bad = [] →
      s.sparing (nearPlace s.quad (paOf l2)).1 (nearPlace s.quad (paOf l2)).2.1 = false → Answers (.rowSpareDone n bad) s fun t =>
      t.flag (pgMC n) Fld.MC_ROWSPARE_STAT_BUSY = true ∧ t.rowHeld l2 = true ∧ t.mem.rowQ = [] ∧ SameMemory s t))) ∧
  ((∀ (s : State) (st k : Nat), Clocked s → st < 12 → s.smith.running = true → s.flag (pgSTK st) Fld.STK_CFG_SPARE_AUTO = true →
    s.chanSpareRefused st = false → s.serving = false →
    s.get (pgSTK st) Fld.STK_CFG_SPARE_THR <
      ((Tab.getD (st * 16 + k) [] s.mem.chanCe).filter fun t => s.time ≤ t + 3600000000000).length →
    Answers (.spareAutoStart st k) s fun t => t.flag (pgSTK st) Fld.STK_STAT_SPARE_BUSY = true ∧ t.sparing st k = true ∧
      t.smith.autoOp = some (1, st) ∧ SameRegs [(pgSTK st, Reg.STK_STAT)] s t ∧ SameMemory s t) ∧
  (∀ (s : State) (st k : Nat), Clocked s → st < 12 → k < 16 → Tab.get? st s.mem.spareChan = some k → s.smith.op ≠ some 0x20 →
    let only := fun (t : State) =>
      SameRegs [(pgSTK st, Reg.STK_STAT), (pgMC (2 * st), Reg.MC_ROWSPARE_STAT), (pgMC (2 * st + 1), Reg.MC_ROWSPARE_STAT)] s t ∧ SameMemory s t
    (∀ bad, Answers (.chanSpareSwitch st bad) s fun t => t.flag (pgSTK st) Fld.STK_STAT_SPARE_USED = true ∧
      t.get (pgSTK st) Fld.STK_STAT_SPARED_CHAN = k ∧ t.flag (pgSTK st) Fld.STK_STAT_SPARE_DONE = true ∧
      t.flag (pgSTK st) Fld.STK_STAT_SPARE_BUSY = false ∧ t.get (pgSTK st) Fld.STK_STAT_PROGRESS = 0xFFFF ∧
      srcSTK st 0 ∈ t.raised ∧ Tab.get? st t.flash.chanMap = some k ∧ t.sparing st k = false ∧
      (∀ l ∈ bad, isNear (paOf l) = true → (nearPlace s.quad (paOf l)).1 = st → (nearPlace s.quad (paOf l)).2.1 = k → t.memPoison l = true) ∧
      (bad = [] → t.raised = s.raised ++ [srcSTK st 0] ∧ only t)) ∧
    (Answers (.chanSpareAbandon st) s fun t => t.flag (pgSTK st) Fld.STK_STAT_SPARE_ERR = true ∧
      t.flag (pgSTK st) Fld.STK_STAT_SPARE_USED = s.flag (pgSTK st) Fld.STK_STAT_SPARE_USED ∧
      t.flag (pgSTK st) Fld.STK_STAT_SPARE_BUSY = false ∧ t.raised = s.raised ++ [srcSTK st 1] ∧
      t.flash.chanMap = s.flash.chanMap ∧ only t)) ∧
  (∀ (s : State) (n chan bank : Nat), Clocked s → n < 24 → chan < 8 → bank < 64 → s.pageOff (pgMC n) = false → s.selfRefresh n = false →
    let key := (n * 8 + chan) * 64 + bank
    let debt := Tab.getD key 0 s.mem.debt
    let limit := s.get (pgMC n) Fld.MC_CTL_REF_POSTPONE
    (Tab.get? key s.mem.repay = none → debt < limit → Answers (.refreshDue n chan bank true) s fun t =>
      Tab.getD key 0 t.mem.debt = debt + 1 ∧ SameRegs [] s t) ∧
    (Tab.get? key s.mem.repay = none → limit ≤ debt → 0 < debt → ∀ busy, Answers (.refreshDue n chan bank busy) s fun t =>
      Tab.getD key 0 t.mem.debt = debt ∧ Tab.get? key t.mem.repay = some 0 ∧ t.flag (pgMC n) Fld.MC_STAT_REF_FORCED = true ∧
      t.get (pgMC n) Fld.MC_REF_FORCED_COUNT = min (s.get (pgMC n) Fld.MC_REF_FORCED_COUNT + 1) (2 ^ 32 - 1)) ∧
    (Tab.get? key s.mem.repay = some 1 → 1 < debt → ∀ busy, Answers (.refreshDue n chan bank busy) s fun t =>
      Tab.getD key 0 t.mem.debt = debt - 1 ∧ Tab.get? key t.mem.repay = some 0) ∧
    (Tab.get? key s.mem.repay = some 1 → debt = 1 → ∀ busy, Answers (.refreshDue n chan bank busy) s fun t =>
      Tab.getD key 0 t.mem.debt = 0 ∧ Tab.get? key t.mem.repay = none)) ∧
  (∀ (s : State) (st temp : Nat), Clocked s → st < 12 → temp < 256 → Answers (.stackTempChange st temp) s fun t =>
    t.get (pgSTK st) Fld.STK_TEMP_TEMP = temp ∧ t.flag (pgSTK st) Fld.STK_TEMP_REF2X = decide (85 < temp) ∧
    (95 < temp → s.get (pgSTK st) Fld.STK_TEMP_TEMP ≤ 95 → t.flag (pgSTK st) Fld.STK_STAT_HOT = true ∧ t.raised = s.raised ++ [srcSTK st 2]) ∧
    (temp ≤ 95 → t.raised = s.raised) ∧ SameRegs [(pgSTK st, Reg.STK_TEMP), (pgSTK st, Reg.STK_STAT)] s t) ∧
  (∀ (s : State) (n : Nat), s.off = false → s.smith.running = true → n < 24 →
    Tab.getD n 0 s.mem.lastForced < s.get (pgMC n) Fld.MC_REF_FORCED_COUNT → s.stormed (srcMC n 2) = false → Answers .refForcedPoll s fun t =>
      Tab.getD n 0 t.mem.lastForced = s.get (pgMC n) Fld.MC_REF_FORCED_COUNT ∧
      (∃ r ∈ t.recs, r.page = pgMC n ∧ r.sub = 3 ∧ r.words = [0, s.get (pgMC n) Fld.MC_REF_FORCED_COUNT - Tab.getD n 0 s.mem.lastForced]) ∧
      SameRegs [] s t))

/-! ### Device accesses and barriers (R260 to R298) -/

/-- DRAIN and DRAIN_COMPLETE (R280 to R285, R288): a Drain covers every write of its site that LNK[s] had received before it and that has not
been accepted, takes over an earlier failure and the flushing reads still outstanding; a group that records blocks of the site sends a flushing read to each and clears the record. A Drain with nothing left to wait for
is answered on the module that sent it, with OK, or with ERR, DRAIN_ERR set, counted, located and recorded; until then nothing happens.

Flushing reads (R282, R286, R287): the completion of one ends it and the writes that its port held before it; at CPL_TO the group gives it up,
and the Drain it serves, or the next one, fails with cause 1; a link that goes down takes its port out of use and ends its flushes, posted
writes and the requests its devices have not completed, the writes counted in PW_DISC, and its far-memory accesses (R389). -/
def Obligations.DrainsAndFlushes : Prop :=
  ((∀ (s : State) (p : Pkt), Running s → isDieNode p.src = true → State.homeOfPkt p = none → s.arrived p = true →
    Answers (.drain p) s fun t => ∃ d ∈ (t.siteAt (siteOf p.src)).drains, d.p = p ∧ d.start = s.time) ∧
  (∀ (s : State) (p : Pkt), Running s → isDieNode p.src = true → State.homeOfPkt p = none → s.arrived p = true →
    (s.siteAt (siteOf p.src)).drains = [] → (∀ n, Tab.get? (siteOf p.src) (s.groupAt n).blocks = none) →
    (∀ w ∈ (s.siteAt (siteOf p.src)).devw, ∀ n, n < 6 → State.towardGroup w n = false) → Answers (.drain p) s fun t =>
      let x := s.siteAt (siteOf p.src)
      (∃ d, (t.siteAt (siteOf p.src)).drains = [d] ∧ d.p = p ∧ d.start = s.time ∧ d.need = [] ∧ d.fail = x.devFail ∧
        (x.drainMark.find? (fun m => m.1 == State.unitKey p) = none → d.waits = x.devw) ∧
        (∀ m, x.drainMark.find? (fun m => m.1 == State.unitKey p) = some m → d.waits = m.2.filter fun w => x.devw.contains w) ∧
        (∀ w ∈ d.waits, w ∈ d.covers) ∧
        (∀ n, (t.groupAt n).flushes = (s.groupAt n).flushes.map fun f =>
          if f.site = siteOf p.src ∧ f.drain = none then { f with drain := some d.id } else f)) ∧
      t.get (pgSITE (siteOf p.src)) Fld.DRAIN_STAT_PEND = 1 ∧ (t.siteAt (siteOf p.src)).devFail = none ∧ t.net = (s.consume p).net ∧
      SameRegs [(pgSITE (siteOf p.src), Reg.DRAIN_STAT)] s t ∧ SameMemory s t) ∧
  (∀ (s : State) (p : Pkt) (n blk addr : Nat), Running s → isDieNode p.src = true → State.homeOfPkt p = none → s.arrived p = true → n < 6 →
    (s.siteAt (siteOf p.src)).drains = [] →
    (s.siteAt (siteOf p.src)).devw = [] → (∀ m, m ≠ n → Tab.get? (siteOf p.src) (s.groupAt m).blocks = none) →
    Tab.get? (siteOf p.src) (s.groupAt n).blocks = some [(blk, addr)] → (s.groupAt n).flushes = [] →
    s.portUp n (Config.pciePort n addr) = true → Answers (.drain p) s fun t =>
      (∃ f d, (t.groupAt n).flushes = [f] ∧ f.addr = addr ∧ f.start = s.time ∧ f.limit = s.cplTo n ∧ f.drain = some d ∧
        (t.siteAt (siteOf p.src)).drains.map (fun e => (e.id, e.need)) = [(d, [])]) ∧
      Tab.get? (siteOf p.src) (t.groupAt n).blocks = none) ∧
  (∀ (s : State) (site : Nat) (d : DrainRec) (rest : List DrainRec), Running s → site < 16 → (s.siteAt site).drains = d :: rest →
    siteOf d.p.src = site → s.fenced site = false → d.p.op ≠ 0 →
    (s.drainReady d = true → d.fail = none → Answers (.drainComplete site) s fun t =>
      (t.siteAt site).drains = rest ∧ t.get (pgSITE site) Fld.DRAIN_STAT_PEND = rest.length % 32 ∧
      (∃ e, t.net = s.net ++ [e] ∧ IsSiteReply d.p 0x41 e ∧ e.p.addr = 0) ∧ t.raised = s.raised ∧
      SameRegs [(pgSITE site, Reg.DRAIN_STAT)] s t) ∧
    (∀ f, s.drainReady d = true → d.fail = some f → Answers (.drainComplete site) s fun t =>
      (t.siteAt site).drains = rest ∧ (∃ e, t.net = s.net ++ [e] ∧ IsSiteReply d.p 0x41 e ∧ e.p.addr = 2) ∧
      t.flag (pgSITE site) Fld.DRAIN_STAT_DRAIN_ERR = true ∧ t.raised = s.raised ++ [srcSITE site 0] ∧
      t.get (pgSITE site) Fld.DRAIN_ERR_CNT_COUNT = min (s.get (pgSITE site) Fld.DRAIN_ERR_CNT_COUNT + 1) (2 ^ 32 - 1) ∧
      (s.flag (pgSITE site) Fld.DRAIN_ERR_LOC_V = false → t.get (pgSITE site) Fld.DRAIN_ERR_LOC_CAUSE = f.1 % 16 ∧
        t.get (pgSITE site) Fld.DRAIN_ERR_LOC_TARGET = f.2.1 % 16) ∧
      (s.stormed (srcSITE site 0) = false → ∃ r, t.recs = s.recs ++ [r] ∧ r.typ = 0x08 ∧ r.addr = some f.2.2)) ∧
    (s.drainReady d = false → Answers (.drainComplete site) s fun t => t = s))) ∧
  ((∀ (s : State) (n site addr : Nat) (f : Flush), Running s → n < 6 →
    (s.groupAt n).flushes.find? (fun f => f.site == site && f.addr == addr) = some f → Answers (.flushReadComplete n site addr) s fun t =>
      (t.groupAt n).flushes = (s.groupAt n).flushes.erase f ∧
      (t.groupAt n).pw = f.ahead.foldl (fun l e => l.erase e) (s.groupAt n).pw ∧
      t = { s with groups := t.groups, regs := t.regs } ∧ SameButCounters [] s t) ∧
  (∀ (s : State) (n site addr : Nat) (f : Flush), Running s → n < 6 → site < 16 → (s.groupAt n).flushes = [f] → f.site = site → f.addr = addr →
    (f.start + f.limit ≤ s.time → Answers (.flushReadTimeout n site addr) s fun t =>
      (t.groupAt n).flushes = [] ∧ srcPCIE n 4 ∈ t.raised ∧ t.regs = s.regs ∧
      (∀ d, f.drain = some d → (t.siteAt site).drains = (s.siteAt site).drains.map fun e =>
        if e.id = d ∧ e.fail = none then { e with fail := some (1, n, addr) } else e) ∧
      (f.drain = none → (s.siteAt site).devFail = none → (t.siteAt site).devFail = some (1, n, addr))) ∧
    (s.time < f.start + f.limit → Answers (.flushReadTimeout n site addr) s fun t => t = s)) ∧
  (∀ (s : State) (n port : Nat) (dpc : Bool), Running s → n < 6 → (∀ i, (s.siteAt i).drains = []) →
    (∀ w ∈ s.mem.wr, isFar (paOf w.line) = false) → (∀ r ∈ s.mem.rd, isFar (paOf r.line) = false) →
    Answers (.pcieLinkDown n port dpc) s fun t =>
      t.portUp n port = false ∧ (∀ e ∈ (t.groupAt n).pw, e.1 ≠ port) ∧ (∀ f ∈ (t.groupAt n).flushes, f.port ≠ port) ∧
      (∀ q ∈ (t.groupAt n).nonp, q.port ≠ port ∨ q.cpl ≠ none) ∧
      t.get (pgPCIE n) Fld.PW_DISC_COUNT =
        min (s.get (pgPCIE n) Fld.PW_DISC_COUNT + ((s.groupAt n).pw.filter fun e => e.1 == port).length) (2 ^ 32 - 1) ∧
      (if dpc then srcPCIE n 3 else srcPCIE n 9) ∈ t.raised ∧ SameRegs [(pgPCIE n, Reg.PW_DISC)] s t ∧ SameMemory s t) ∧
  (∀ (s : State) (n port : Nat) (dpc : Bool) (w : MemWr) (r : MemRd), Running s → n < 6 → port < 4 → s.domOn (43 + n) = true →
    (∀ i, (s.siteAt i).drains = []) → s.mem.wr = [w] → s.mem.rd = [r] → isFar (paOf w.line) = true → isFar (paOf r.line) = true →
    w.port = some (n, port) → r.port = some (n, port) → Answers (.pcieLinkDown n port dpc) s fun t =>
      t.mem.wr = [] ∧ t.mem.rd = [] ∧ t.mem.ret = s.mem.ret ++ [⟨r, BitVec.allOnes 512, true, false⟩] ∧
      CountsOne s t (pgPCIE n) (Fld.FM_WR_FAIL_COUNT port) ∧ CountsOne s t (pgPCIE n) (Fld.FM_RD_FAIL_COUNT port) ∧ SameMemory s t) ∧
  (∀ (s : State) (n port : Nat), Running s → n < 6 → s.domState (43 + n) = 2 → s.portUp n port = false → portExists s.straps n port = true →
    Answers (.pcieLinkUp n port) s fun t => t.portUp n port = true ∧ t.raised = s.raised ++ [srcPCIE n 8] ∧
      t = { s with groups := t.groups, raised := t.raised }))

/-- Requests of a PCIe group to its devices (R273, R291, R606): a completion is answered to the requester with the bytes asked for, once no
posted write of the group's devices is before it; at CPL_TO
the answer is ERR with every byte 0xFF and the tag stays late for one second, in which a completion is counted and recorded.

Device messages at the agents that claim them (R57, R169, R270, R282, R291, R765): a group buffers a posted write, answers a DevWrN when it
has, and sends a read to its device; a write to the control region writes the register, and a read is answered with its value; a coherent
request at Smith gets the error response of R38, and any other unit is consumed and recorded.

Completions of device requests and DMAs of devices (R169, R272, R273, R464, R490): a completion ends the request of the die it is for, and
BND_OUT counts one less; at a hub agent it ends the DMA that waits for it, and a device read is answered with its data. A translated DMA goes
to the home of its line as RdOnce, Strike, StrikePart or FarAtomic, unless an earlier posted write of its requester has no final response. -/
def Obligations.DeviceAccesses : Prop :=
  (∀ (s : State) (n : Nat) (q : NonPosted), Running s → n < 6 → (s.groupAt n).nonp = [q] → q.cpl = none →
    let answer := fun (t : State) (st : BitVec 46) (d : LineData) =>
      (t.groupAt n).nonp = [] ∧ ∃ r, Sends s t [r] ∧ r.op = (if q.p.op = 0x70 then 0x79 else 0x78) ∧ r.src = nodePCIE n ∧ r.dst = q.p.src ∧
        r.txn = q.p.txn ∧ r.addr = st ∧ r.last = true ∧ (q.p.op = 0x70 → r.data = d &&& maskBits q.p.mask ∧ r.mask = q.p.mask)
    (∀ d, s.postedOf n = [] → Answers (.deviceCompletion n q.p.src q.p.txn d true) s fun t => answer t 0 d ∧ SameButCounters [] s t) ∧
    (∀ d, s.postedOf n = [] → Answers (.deviceCompletion n q.p.src q.p.txn d false) s fun t => answer t 2 (BitVec.allOnes 512)) ∧
    (∀ d ok, s.postedOf n ≠ [] → Answers (.deviceCompletion n q.p.src q.p.txn d ok) s fun t =>
      (t.groupAt n).nonp = [{ q with cpl := some (if ok then 0 else 2, if ok then d else BitVec.allOnes 512, s.postedOf n) }] ∧
      t = { s with groups := t.groups, regs := t.regs } ∧ SameButCounters [] s t) ∧
    (q.start + q.limit ≤ s.time → Answers (.pcieCplTimeout n q.p.src q.p.txn) s fun t =>
      answer t 2 (BitVec.allOnes 512) ∧ srcPCIE n 4 ∈ t.raised ∧
      (t.groupAt n).lateTags = (s.groupAt n).lateTags ++ [(q.p.src.toNat, q.p.txn.toNat, s.time + 1000000000)]) ∧
    (s.time < q.start + q.limit → Answers (.pcieCplTimeout n q.p.src q.p.txn) s fun t => t = s) ∧
    (∀ rid tag till, (s.groupAt n).lateTags = [(rid, tag, till)] → s.time ≤ till → Answers (.lateCompletion n rid tag) s fun t =>
      (t.groupAt n).lateTags = [] ∧ srcPCIE n 6 ∈ t.raised ∧
      t.get (pgPCIE n) Fld.PCIE_LATE_CPL_COUNT = min (s.get (pgPCIE n) Fld.PCIE_LATE_CPL_COUNT + 1) (2 ^ 32 - 1) ∧
      SameButCounters [(pgPCIE n, Reg.PCIE_LATE_CPL)] s t ∧ SameMemory s t)) ∧
  ((∀ (s : State) (n : Nat) (p : Pkt), Running s → Settled s → n < 6 → p.dst = nodePCIE n → s.absentNode p.dst = false → s.arrived p = true →
    isDieNode p.by = true → (s.groupAt n).pw.length < 256 → (s.siteAt (siteOf p.by)).drains = [] →
    (Tab.getD (siteOf p.by) [] (s.groupAt n).blocks).length < 64 →
    (p.op = 0x68 → Answers (.devWr p) s fun t =>
      (t.groupAt n).pw = (s.groupAt n).pw ++ [(Config.pciePort n (paOf p.addr.toNat), p)] ∧ t.net = (s.consume p).net ∧ t.regs = s.regs ∧
      (∃ b ∈ Tab.getD (siteOf p.by) [] (t.groupAt n).blocks, b.1 = (paOf p.addr.toNat + ((maskRun? p.mask).map (·.1)).getD 0) / 0x10000) ∧
      (t.siteAt (siteOf p.by)).devw = (s.siteAt (siteOf p.by)).devw.erase (State.carriedKey p)) ∧
    (p.op = 0x71 → Answers (.devWrN p) s fun t =>
      (t.groupAt n).pw = (s.groupAt n).pw ++ [(Config.pciePort n (paOf p.addr.toNat), p)] ∧
      ∃ q, Sends (s.consume p) t [q] ∧ q.op = 0x78 ∧ q.dst = p.src ∧ q.txn = p.txn ∧ q.addr = 0) ∧
    (∀ e, p.op = 0x70 → s.portUp n (Config.pciePort n (paOf p.addr.toNat)) = true → Answers (.devRd p e) s fun t =>
      (t.groupAt n).nonp = (s.groupAt n).nonp ++ [⟨p, Config.pciePort n (paOf p.addr.toNat), s.time, s.cplTo n, none⟩] ∧ t.net = (s.consume p).net) ∧
    (∀ e, p.op = 0x70 → s.portUp n (Config.pciePort n (paOf p.addr.toNat)) = false → Answers (.devRd p e) s fun t =>
      ∃ q, Sends (s.consume p) t [q] ∧ q.op = 0x79 ∧ q.dst = p.src ∧ q.txn = p.txn ∧ q.addr = 2 ∧ q.data = maskBits p.mask)) ∧
  (∀ (s : State) (p : Pkt), Running s → Settled s → p.dst = nodeSmith → s.arrived p = true → isDieNode p.src = true →
    (s.siteAt (siteOf p.by)).drains = [] →
    paOf p.addr.toNat = 0xFFF0000000000 + 0x10000 * pgTIME + Reg.TIME_CMP_LO / 64 * 64 →
    p.mask = maskRun (Reg.TIME_CMP_LO % 64) 4 →
    (p.op = 0x68 → Answers (.devWr p) s fun t =>
      t.reg pgTIME Reg.TIME_CMP_LO = lineField p.data (Reg.TIME_CMP_LO % 64) 4 ∧ SameRegs [(pgTIME, Reg.TIME_CMP_LO)] s t ∧
      t.net = (s.consume p).net) ∧
    (p.op = 0x71 → Answers (.smithRequest p .clean) s fun t =>
      t.reg pgTIME Reg.TIME_CMP_LO = lineField p.data (Reg.TIME_CMP_LO % 64) 4 ∧
      ∃ q, Sends (s.consume p) t [q] ∧ q.op = 0x78 ∧ q.dst = p.src ∧ q.txn = p.txn) ∧
    (p.op = 0x70 → Answers (.devRd p .clean) s fun t => t.regs = s.regs ∧
      ∃ q, Sends (s.consume p) t [q] ∧ q.op = 0x79 ∧ q.dst = p.src ∧ q.txn = p.txn ∧ q.addr = 0 ∧
        lineField q.data (Reg.TIME_CMP_LO % 64) 4 = s.reg pgTIME Reg.TIME_CMP_LO)) ∧
  (∀ (s : State) (p : Pkt) (e : EccOutcome), Running s → p.dst = nodeSmith → s.arrived p = true → s.stormed srcReservedAddr = false →
    (1 ≤ p.op.toNat → p.op.toNat ≤ 8 → Answers (.smithRequest p e) s fun t =>
      t.net = ((s.consume p).answerReserved p nodeSmith).net ∧ t.regs = s.regs ∧
      ∃ r, t.recs = s.recs ++ [r] ∧ r.typ = 0x01 ∧ r.cls = 3 ∧ r.sub = 1 ∧ r.node = p.src.toNat) ∧
    (p.op = 0x43 → s.stormed srcSmithRecord = false → Answers (.smithRequest p e) s fun t =>
      t.net = (s.consume p).net ∧ t.regs = s.regs ∧ ∃ r, t.recs = s.recs ++ [r] ∧ r.typ = 0x05 ∧ r.opcode = 0x43))) ∧
  ((∀ (s : State) (p : Pkt), Running s → isDieNode p.dst = true → s.atDie p = true → p.last = true →
    let site := siteOf p.dst
    let ends := fun (t : State) => t.net = (s.dieConsumes p).net ∧
      (t.siteAt site).outReq = (s.siteAt site).outReq.erase (p.dst.toNat, p.txn.toNat) ∧
      t.get (pgSITE site) Fld.BND_OUT_COUNT =
        ((s.siteAt site).outReq.erase (p.dst.toNat, p.txn.toNat)).length % 2 ^ Fld.BND_OUT_COUNT.width ∧
      SameRegs [(pgSITE site, Reg.BND_OUT)] s t ∧ SameMemory s t
    (p.op = 0x78 → Answers (.devCpl p) s ends) ∧ (p.op = 0x79 → Answers (.devCpld p) s ends)) ∧
  (∀ (s : State) (p : Pkt) (id : Nat) (d : Dma) (a : AgReq), Running s → isDieNode p.dst = false → State.homeOfPkt p = none → s.arrived p = true →
    p.last = true → p.psn = false → s.agentQ = [] → d.parts ≤ 1 → d.worst = 0 → s.agents = [(State.agentKey p.dst p.txn.toNat, a)] → a.use = .dma id → s.dmas = [(id, d)] → d.who < 6 → d.spec = false → d.kind = 2 → d.acc = 0 →
    s.ne.jobs = [] → s.ixu.syncs = [] → s.ne.syncs = [] →
    (p.op = 0x79 → p.addr = 0 → Answers (.devCpld p) s fun t =>
      t.dmas = [] ∧ t.agents = [] ∧ t.net = (s.consume p).net ∧
      t.dmaAns = some { rid := d.rid, status := 0, data := mergeLine d.got p.data p.mask &&& maskBits d.mask } ∧ SameButCounters [] s t) ∧
    (p.op = 0x54 → ∀ w, Answers (.dataRd p w) s fun t => t.dmas = [] ∧ t.agents = [] ∧
      t.dmaAns = some { rid := d.rid, status := 0, data := mergeLine d.got (s.lineTaken p).1 (BitVec.allOnes 64) &&& maskBits d.mask })) ∧
  (∀ (s : State) (id : Nat) (d : Dma), Running s → Settled s → s.dmas = [(id, d)] → d.st = .ready → d.who < 6 → s.pageOff (State.dmaPage d.who) = false →
    isMemRange d.pa = true →
    let sent := fun (op : BitVec 7) (t : State) => ∃ q, Sends s t [q] ∧ q.op = op ∧ q.src = nodePCIE d.who ∧ q.dst = nodeHome (s.home d.pa) ∧
      q.addr.toNat = d.pa / 64 % 2 ^ 46 ∧ q.na = d.na ∧ q.psn = d.psn ∧
      (d.psn = false → t.recs = s.recs) ∧
      (d.psn = true → s.stormed (srcPCIE d.who 1) = false → ∃ r, t.recs = s.recs ++ [r] ∧ r.typ = 0x14 ∧ r.addr = some d.pa) ∧
      (∃ x, Tab.get? id t.dmas = some x ∧ x.st = .sent s.time) ∧ ∃ k a, t.agents = [(k, a)] ∧ a.use = .dma id
    (d.acc = 0 → Answers (.deviceDma id) s (sent 0x04)) ∧
    (d.acc = 1 → d.mask = BitVec.allOnes 64 → Answers (.deviceDma id) s (sent 0x05)) ∧
    (d.acc = 1 → d.mask ≠ BitVec.allOnes 64 → Answers (.deviceDma id) s (sent 0x06)) ∧
    (d.acc = 2 → Answers (.deviceDma id) s (sent 0x07))) ∧
  (∀ (s : State) (id : Nat) (d : Dma), Running s → Tab.get? id s.dmas = some d → s.dmaBlocked id d = true →
    Answers (.deviceDma id) s fun t => t = s))

/-! ### Flolaec links (R397 to R444) -/

/-- DATA_FRAME (R410, R413 to R416): a side sends its next frame, of units it may pack, and holds it until it is acknowledged; the receiver
accepts the frame that follows the last it accepted and reports it, the die taking the units and the hub, within its credit, holding the unit
for Boundary; a unit beyond its credit is a CREDIT violation. A frame asked for again goes before any new one, each in turn, and one sent a
fourth time without acknowledgement makes its side retrain. A frame accepted before is discarded; one that skips a SEQ, or fails its CRC, is
discarded and answered by RPL, at most once in 200 ns.

ACK_FRAME, RPL_FRAME, REPLAY_TIMEOUT and CRED_INIT (R406, R409, R410, R415 to R417, R442): acknowledged frames leave the replay buffer, an
ACK of a frame never sent changes nothing there; a request for replay, or 500 ns without acknowledgement of the oldest frame, makes the side
send every unacknowledged frame again from the oldest. A frame with a bad CRC is discarded and counts, whatever it carries. -/
def Obligations.LinkFrames : Prop :=
  (∀ (s : State) (site m : Nat) (e : LinkEnd) (l lo : LinkState) (units : List Pkt), Running s → site < 16 → m < 4 → (s.lk site m e).st = 4 →
    (s.lk site m e).link = some l → (s.lk site m e.other).st = 4 → (s.lk site m e.other).link = some lo →
    (s.nextData site m e.other units = none → Answers (.dataFrame site m e units []) s fun t => t = s) ∧
    ((s.lk site m e.other).pause = none → (s.lk site m e.other).idleReq = none → (s.lk site m e.other).idleAck = none →
    (lo.unacked.find? (fun f => some f.seq == lo.replay) = none → lo.unacked.length < 64 → s.mayPack site m e.other units = true →
      lo.txSeq = l.rxSeq → l.rxSeq < 4096 → (s.lk site m e).badSeqs = [] → Answers (.dataFrame site m e units []) s fun t =>
        let sent := units.map fun p => { p with route := 0, rpar := 0 }
        (∃ l', (t.lk site m e).link = some l' ∧ l'.rxSeq = (l.rxSeq + 1) % 4096) ∧ Reports site m e t ∧
        (∃ lo', (t.lk site m e.other).link = some lo' ∧ lo'.txSeq = (lo.txSeq + 1) % 4096 ∧
          lo'.unacked = lo.unacked ++ [{ seq := lo.txSeq, units := sent, since := s.time }]) ∧
        (e = .die → ∀ p ∈ sent, ⟨p, .dlv site m, s.time⟩ ∈ t.net) ∧
        (∀ p, e = .hub → sent = [p] → State.holdsCredit l p.vc.toNat p.hasData = true → ⟨{ p with inj := none }, .link site m, s.time⟩ ∈ t.net ∧
          ∃ l', (t.lk site m .hub).link = some l' ∧ l'.recvH = State.addAt l.recvH p.vc.toNat 1 256) ∧
        (∀ p, e = .hub → sent = [p] → State.holdsCredit l p.vc.toNat p.hasData = false → Quiet s site m e →
          (∀ q ∈ t.net, q ∈ s.net) ∧ CountsOne s t (pgSITE site) (Fld.BND_CNT_COUNT 9)) ∧
        (e = .hub → (s.lk site m .hub).repFinish = true → t.flag (pgLNK site) (Fld.LNK_STAT_REPAIRED m) = true ∧ srcSITE site 6 ∈ t.raised) ∧
        OtherLinks site m s t ∧ SameMemory s t) ∧
    (∀ f, lo.unacked.find? (fun f => some f.seq == lo.replay) = some f → f.seq < 4096 → l.rxSeq < 4096 →
      let ahead := (f.seq + 4096 - l.rxSeq) % 4096
      (2048 ≤ ahead → Answers (.dataFrame site m e units []) s fun t =>
        (∃ l', (t.lk site m e).link = some l' ∧ l'.rxSeq = l.rxSeq) ∧ Reports site m e t ∧
        ((∀ g ∈ lo.unacked, g.seq = f.seq → g.sends < 3) → (t.lk site m e.other).st = 4 ∧ ∃ lo', (t.lk site m e.other).link = some lo' ∧ lo'.txSeq = lo.txSeq ∧
          lo'.unacked = (lo.unacked.map fun g => if g.seq = f.seq then { g with sends := g.sends + 1, since := s.time } else g) ∧
          lo'.replay = (((lo.unacked.dropWhile fun g => g.seq != f.seq).drop 1).head?.map (·.seq))) ∧
        (3 ≤ f.sends → GoesTo site m e.other 6 s t) ∧
        (e = .die → CountsOne s t (pgLNK site) (Fld.LNK_RPL_CNT_COUNT m)) ∧ (Quiet s site m e → ModuleOnly site m s t)) ∧
      (0 < ahead → ahead < 2048 → (s.lk site m e).lastRpl = none → Answers (.dataFrame site m e units []) s fun t =>
        (∃ l', (t.lk site m e).link = some l' ∧ l'.rxSeq = l.rxSeq) ∧ SendsLm site m e [⟨0x101, []⟩] s t ∧
        (t.lk site m e).lastRpl = some s.time ∧ (Quiet s site m e → ModuleOnly site m s t)) ∧
      (∀ t0, 0 < ahead → ahead < 2048 → (s.lk site m e).lastRpl = some t0 → s.time < t0 + 200 → Answers (.dataFrame site m e units []) s fun t =>
        (t.lk site m e).outbox = (s.lk site m e).outbox ∧ (t.lk site m e).link.map (·.rxSeq) = some l.rxSeq))) ∧
    (∀ seq us fresh flips, s.nextData site m e.other units = some (seq, us, fresh) → readDataFrame (State.nextHdr lo 1 seq) us flips = .badCrc →
      (s.lk site m e).lastRpl = none → (s.lk site m e).crcFails + 1 < s.crcThr site e → Answers (.dataFrame site m e units [flips]) s fun t =>
        (∃ l', (t.lk site m e).link = some l' ∧ l'.rxSeq = l.rxSeq) ∧ SendsLm site m e [⟨0x101, []⟩] s t ∧
        (t.lk site m e).crcFails = (s.lk site m e).crcFails + 1 ∧ (t.lk site m e).badSeqs = (s.lk site m e).badSeqs ++ [(seq, flips)] ∧
        (e = .hub → CountsOne s t (pgLNK site) (Fld.LNK_CRC_CNT_COUNT m)) ∧ OtherLinks site m s t ∧ SameMemory s t)) ∧
  ((∀ (s : State) (site m : Nat) (e : LinkEnd) (l : LinkState) (units : List Pkt), Running s → site < 16 → m < 4 → (s.lk site m e).st = 4 →
    (s.lk site m e).link = some l →
    (∀ fr i, (s.lk site m e.other).outbox.find? (fun f => f.lm.code == 0x102) = some fr → l.unacked.findIdx? (fun f => f.seq == fr.hdr.ack) = some i →
      Answers (.ackFrame site m e []) s fun t => (t.lk site m e).link.map (·.unacked) = some (l.unacked.drop (i + 1)) ∧
        (t.lk site m e.other).outbox = (s.lk site m e.other).outbox.erase fr ∧ OtherLinks site m s t ∧ SameMemory s t) ∧
    (∀ fr, (s.lk site m e.other).outbox.find? (fun f => f.lm.code == 0x102) = some fr → (∀ f ∈ l.unacked, f.seq ≠ fr.hdr.ack) →
      Answers (.ackFrame site m e []) s fun t => (t.lk site m e).link.map (·.unacked) = some l.unacked ∧ (t.lk site m e).lastRx = s.time ∧
        (t.lk site m e.other).outbox = (s.lk site m e.other).outbox.erase fr ∧ ModuleOnly site m s t) ∧
    (∀ fr, (s.lk site m e.other).outbox.find? (fun f => f.lm.code == 0x101) = some fr → l.unacked ≠ [] →
      (∀ f ∈ l.unacked, f.seq ≠ fr.hdr.ack) → Answers (.rplFrame site m e []) s fun t =>
        (∃ l', (t.lk site m e).link = some l' ∧ l'.unacked = l.unacked ∧ l'.replay = l.unacked.head?.map (·.seq)) ∧ (t.lk site m e).st = 4 ∧
        ModuleOnly site m s t) ∧
    (∀ f rest, l.unacked = f :: rest →
      (f.since + 500 < s.time → Answers (.replayTimeout site m e) s fun t =>
        (t.lk site m e).link = some { l with replay := some f.seq } ∧ ModuleOnly site m s t) ∧
      (s.time ≤ f.since + 500 → Answers (.replayTimeout site m e) s fun t => t = s)) ∧
    (∀ f, (s.lk site m e).pause = none → (s.lk site m e).idleReq = none → (s.lk site m e).idleAck = none →
      l.unacked.find? (fun g => some g.seq == l.replay) = some f → s.nextData site m e units = some (f.seq, f.units, false)) ∧
    (∀ gh gd, gh.length = 8 → Answers (.credInit site m e gh gd []) s fun t =>
      (∃ l', (t.lk site m e).link = some l' ∧ l'.grantH = gh ∧ l'.grantD = gd ∧ l'.granted = true ∧ l'.txSeq = l.txSeq ∧ l'.rxSeq = l.rxSeq) ∧
      (Quiet s site m e → ModuleOnly site m s t))) ∧
  (∀ (s : State) (site m code : Nat) (e : LinkEnd) (args states : List Nat) (w : List (List Nat)) (c : Instr), Running s → site < 16 → m < 4 →
    (c, code, args, states) ∈ [(.hello site m e false false 0 w, 0x01, [b2n (e == .hub), site, m, 0, 0], [1, 2, 3, 4, 5, 6]),
      (.surveyDone site m e w, 0x02, [], [1, 2, 3, 4, 5, 6]), (.calDone site m e w, 0x10, [], [2, 6]), (.mapPropose site m e 1 0 w, 0x20, [1, 0], [3]),
      (.mapConfirm site m e 1 0 0 w, 0x21, [1, 0, 0], [3]), (.repairReq site m e 1 0 0 w, 0x30, [1, 0, 0], [4]),
      (.repairGo site m e 1 w, 0x31, [1], [4]), (.repairDone site m e 1 w, 0x32, [1], [4]), (.idleReq site m e w, 0x40, [], [4]),
      (.idleNak site m e w, 0x42, [], [4]), (.retrainReq site m e w, 0x50, [], [4, 5])] →
    let x := s.lk site m e
    x.st ∈ states → readFrame (s.frameIn site m e ⟨code, args⟩).1 (if x.st = 1 then w else w.take 1) = .badCrc →
    x.crcFails + 1 < s.crcThr site e → Answers c s fun t =>
      (t.lk site m e) = { x with crcFails := x.crcFails + 1 } ∧
      (e = .hub → CountsOne s t (pgLNK site) (Fld.LNK_CRC_CNT_COUNT m)) ∧ ModuleOnly site m s t))

/-- SURVEY (R420 to R423, R764): each HELLO without ANSWER is answered; SURVEY_DONE follows once HELLO has gone both ways, with no identity
exchange in progress, and the state ends once SURVEY_DONE has gone both ways. A HELLO is repeated every 10 us. A RESUME other than the hub's
own at the first HELLO of an admitted site is LOST. A SURVEY frame in a later state before retirement takes the side back to SURVEY.

CALIBRATE, RETRAIN and MAP (R400, R420, R424 to R426, R764): a side sends CAL_DONE when it has calibrated, and the state ends once CAL_DONE
has gone both ways, with MAP_PROPOSE of the failed set; a usable pair of failed sets is answered by MAP_CONFIRM of the width and records of
R425; the matching MAP_CONFIRM, whichever comes first, applies them and makes the module ACTIVE. A mismatch returns to SURVEY, and the third
running retires; so do an unusable CLK, VLD or TRK and a pair of failed sets with no width.

The clocks of training (R420, R432, R442): LNK_ENABLE takes a module with its domain on out of RESET; SURVEY ends at 1 ms, by way of RESET,
CALIBRATE at 100 us, MAP at 2 us and RETRAIN at 8 us; the third SURVEY failure running retires the module. -/
def Obligations.LinkTraining : Prop :=
  (∀ (s : State) (site m : Nat) (e : LinkEnd), Running s → site < 16 → m < 4 → (s.siteAt site).trav = none →
    let x := s.lk site m e
    (∀ answer seq, 2 ≤ x.st → x.st ≤ 6 → (x.st = 5 → s.get pgPWR Fld.PWR_STAT_STATE ≠ 1) → Answers (.hello site m e x.link.isSome answer seq []) s fun t =>
      GoesTo site m e 1 s t ∧ (t.lk site m e).helloRecv = true ∧ (Quiet s site m e → ModuleOnly site m s t)) ∧
    (2 ≤ x.st → x.st ≤ 6 → (x.st = 5 → s.get pgPWR Fld.PWR_STAT_STATE ≠ 1) → Answers (.surveyDone site m e []) s fun t =>
      GoesTo site m e 1 s t ∧ SendsLm site m e [helloOf site m e x] s t ∧ (Quiet s site m e → ModuleOnly site m s t)) ∧
    (x.st = 1 →
    (∀ resume seq, x.helloSent = true → x.surveySent = false → x.surveyRecv = false →
      (x.link.isSome = resume ∨ s.admitted site = false ∨ e = .die ∨ x.helloRecv = true) →
      (Answers (.hello site m e resume false seq []) s fun t =>
        SendsLm site m e [⟨0x01, [b2n (e == .die), site, m, b2n x.link.isSome + 2, x.mapSeq]⟩, ⟨0x02, []⟩] s t ∧
        (t.lk site m e).helloRecv = true ∧ (t.lk site m e).surveySent = true ∧ (t.lk site m e).partnerSeq = seq ∧ (t.lk site m e).st = 1 ∧
        (Quiet s site m e → ModuleOnly site m s t)) ∧
      (Answers (.hello site m e resume true seq []) s fun t =>
        SendsLm site m e [⟨0x02, []⟩] s t ∧ (Quiet s site m e → ModuleOnly site m s t))) ∧
    (∀ resume answer seq, e = .hub → x.link.isSome ≠ resume → x.helloRecv = false → s.admitted site = true →
      s.stormed (srcSITE site 4) = false → Quiet s site m e → Answers (.hello site m e resume answer seq []) s fun t =>
        (t.lk site m .hub).link = none ∧ t.flag (pgLNK site) (Fld.LNK_STAT_LOST m) = true ∧ t.raised = s.raised ++ [srcSITE site 4] ∧
        ∃ r, t.recs = s.recs ++ [r] ∧ r.typ = 0x0C ∧ r.cls = 3 ∧ r.page = pgLNK site) ∧
    (x.helloRecv = false → x.lastTx + 10000 ≤ s.time → Answers (.helloRepeat site m e) s fun t =>
      SendsLm site m e [helloOf site m e x] s t ∧ ModuleOnly site m s t) ∧
    (x.surveySent = true → Answers (.surveyDone site m e []) s fun t =>
      GoesTo site m e 2 s t ∧ (t.lk site m e).mapSeq = max x.mapSeq x.partnerSeq ∧ (t.lk site m e).sv = 0 ∧ (Quiet s site m e → ModuleOnly site m s t)) ∧
    (x.surveySent = false → x.helloRecv = false → Answers (.surveyDone site m e []) s fun t =>
      (t.lk site m e).st = 1 ∧ (t.lk site m e).surveyRecv = true ∧ (Quiet s site m e → ModuleOnly site m s t)))) ∧
  (∀ (s : State) (site m : Nat) (e : LinkEnd), Running s → site < 16 → m < 4 →
    let x := s.lk site m e
    let noSync := ∀ k, (s.lk site k e).syncDue = false
    let calm := fun (t : State) => Quiet s site m e → ModuleOnly site m s t
    let retires := fun (t : State) => GoesTo site m e 7 s t ∧ (x.link = none → s.smith.running = true → ModuleOnly site m s t)
    ((x.st = 2 ∨ x.st = 6) →
      (x.calSent = false → Answers (.calDone site m e []) s fun t => (t.lk site m e).st = x.st ∧ (t.lk site m e).calRecv = true ∧ calm t) ∧
      (x.calSent = true → Answers (.calDone site m e []) s fun t =>
        GoesTo site m e 3 s t ∧ SendsLm site m e [⟨0x20, [(x.mapSeq + 1) % 256, s.failedSet site m e]⟩] s t ∧ calm t) ∧
      (∀ bad d, x.calRecv = false → Answers (.calibrationComplete site m e bad true d) s fun t =>
        (t.lk site m e).st = x.st ∧ (t.lk site m e).calSent = true ∧ (t.lk site m e).calFail = bad % 2 ^ 68 ∧ (t.lk site m e).delay = d ∧
        SendsLm site m e [⟨0x10, []⟩] s t ∧ ModuleOnly site m s t) ∧
      (∀ bad d, x.calRecv = true → Answers (.calibrationComplete site m e bad true d) s fun t =>
        GoesTo site m e 3 s t ∧ (t.lk site m e).calFail = bad % 2 ^ 68 ∧ ModuleOnly site m s t) ∧
      (∀ bad d, Answers (.calibrationComplete site m e bad false d) s retires)) ∧
    (x.st = 3 → ∀ failed v, v = (match e with | .hub => widthOf (s.failedSet site m e) failed | .die => widthOf failed (s.failedSet site m e)) →
      let rd := recordOf (match e with | .hub => s.failedSet site m e | .die => failed) v
      let rh := recordOf (match e with | .hub => failed | .die => s.failedSet site m e) v
      (v ≠ 3 → x.earlyConf = none → Answers (.mapPropose site m e ((x.mapSeq + 1) % 256) failed []) s fun t =>
        SendsLm site m e [⟨0x21, [(x.mapSeq + 1) % 256, rd, rh]⟩] s t ∧ (t.lk site m e).newDh = rd ∧ (t.lk site m e).newHd = rh ∧
        (t.lk site m e).newWidth = v ∧ (t.lk site m e).confSent = true ∧ (t.lk site m e).st = 3 ∧ calm t) ∧
      (v ≠ 3 → x.earlyConf = some (rd, rh) → Answers (.mapPropose site m e ((x.mapSeq + 1) % 256) failed []) s fun t =>
        GoesTo site m e 4 s t ∧ (t.lk site m e).mapDh = rd ∧ (t.lk site m e).mapHd = rh ∧ (t.lk site m e).width = v) ∧
      (v = 3 → Answers (.mapPropose site m e ((x.mapSeq + 1) % 256) failed []) s retires)) ∧
    (x.st = 3 → ∀ seq failed, seq ≠ (x.mapSeq + 1) % 256 → x.mm < 2 → Answers (.mapPropose site m e seq failed []) s fun t =>
      GoesTo site m e 1 s t ∧ (t.lk site m e).mm = x.mm + 1 ∧ (e = .hub → t.flag (pgLNK site) (Fld.LNK_STAT_MISMATCH m) = true) ∧ calm t) ∧
    (x.st = 3 → x.confSent = false → ∀ dh hd, Answers (.mapConfirm site m e ((x.mapSeq + 1) % 256) dh hd []) s fun t =>
      (t.lk site m e).st = 3 ∧ (t.lk site m e).earlyConf = some (dh, hd) ∧ calm t) ∧
    (x.st = 3 → x.confSent = true → Answers (.mapConfirm site m e ((x.mapSeq + 1) % 256) x.newDh x.newHd []) s fun t =>
        GoesTo site m e 4 s t ∧ (t.lk site m e).width = x.newWidth ∧ (t.lk site m e).mapDh = x.newDh ∧ (t.lk site m e).mapHd = x.newHd ∧
        (t.lk site m e).mapSeq = (x.mapSeq + 1) % 256 ∧ (t.lk site m e).mm = 0 ∧ (t.lk site m e).link.isSome = true ∧
        (x.link ≠ none → SameSeqs x (t.lk site m e)) ∧
        (x.link = none → noSync → (e = .hub → s.admitted site = false) → SendsLm site m e
          [⟨0x28, match e with
                  | .hub => State.hubGrantH ++ State.hubGrantD
                  | .die => State.dieGrantH ++ State.dieGrantD⟩] s t) ∧
        (noSync → (e = .hub → s.admitted site = false) → calm t)) ∧
    (x.st = 3 → x.mm = 2 → x.confSent = true → ∀ dh hd, dh ≠ x.newDh → Answers (.mapConfirm site m e ((x.mapSeq + 1) % 256) dh hd []) s retires) ∧
    (x.st = 3 → x.mm < 2 → ∀ seq dh hd, seq ≠ (x.mapSeq + 1) % 256 → Answers (.mapConfirm site m e seq dh hd []) s fun t =>
      GoesTo site m e 1 s t ∧ (t.lk site m e).mm = x.mm + 1 ∧ calm t)) ∧
  ((∀ (s : State) (site m : Nat), Running s → site < 16 → m < 4 → s.domOn site = true → (s.lk site m .hub).st = 0 → (s.lk site m .die).st = 0 →
    Answers (.lnkEnable site m) s fun t =>
      GoesTo site m .hub 1 s t ∧ GoesTo site m .die 1 s t ∧ t.flag (pgLNK site) (Fld.LNK_CTL_EN m) = true ∧
      SendsLm site m .hub [helloOf site m .hub (s.lk site m .hub)] s t ∧ SendsLm site m .die [helloOf site m .die (s.lk site m .die)] s t ∧
      ModuleOnly site m s t) ∧
  (∀ (s : State) (site m : Nat) (e : LinkEnd) (lim : Nat), Running s → site < 16 → m < 4 → (s.siteAt site).trav = none →
    let x := s.lk site m e
    (x.st, lim) ∈ [(1, 1000000), (2, 100000), (3, 2000), (6, 8000)] →
    (s.time - x.since < lim → Answers (.trainingTimeout site m e) s fun t => t = s) ∧
    (lim ≤ s.time - x.since → (x.st = 1 → x.sv < 2) → Answers (.trainingTimeout site m e) s fun t =>
      GoesTo site m e 1 s t ∧ SendsLm site m e [helloOf site m e (if x.st = 1 then { x with link := none } else x)] s t ∧
      (t.lk site m e).sv = (if x.st = 1 then x.sv + 1 else x.sv) ∧ (x.st = 1 → (t.lk site m e).link = none) ∧ ModuleOnly site m s t) ∧
    (lim ≤ s.time - x.since → x.st = 1 → x.sv = 2 → Answers (.trainingTimeout site m e) s fun t =>
      GoesTo site m e 7 s t ∧ (x.link = none → s.smith.running = true → ModuleOnly site m s t))))

/-- In-service lane repair (R427 to R430): the transmitter pauses, copies the lane on its spare and answers REPAIR_GO; the receiver applies the
new record and sends REPAIR_DONE; the transmitter applies it, ends the pause and replays, and no DATA frame leaves it in the pause. REPAIR_REQ is
repeated after 500 ns, and a pause of 2 us makes both sides retrain with the lane in the failed set.

What makes a side retrain, and what it sends while ACTIVE (R403, R426, R440 to R442): 1 us without a frame sent gives a heartbeat; loss of
heartbeats, loss of CLK, VLD or TRK, RETRAIN_REQ and LNK_CTL.RETRAIN give RETRAIN, counted at the hub; a partial reset of a PHY also clears that
side's map and MAPSEQ and keeps its link state; an unused spare that reaches LANE_THR errors against PRBS15 stays unused; the 1 ms window ends. -/
def Obligations.LaneRepairAndRetrain : Prop :=
  ((∀ (s : State) (site m : Nat) (e : LinkEnd) (seq rec lane : Nat), Running s → site < 16 → m < 4 → (s.lk site m e).st = 4 →
    (s.lk site m e).pause = none → Answers (.repairReq site m e seq rec lane []) s fun t =>
      SendsLm site m e [⟨0x31, [seq]⟩] s t ∧ (t.lk site m e).pause = some s.time ∧ (t.lk site m e).pauseRec = rec ∧
      t.flag (pgLNK site) (Fld.LNK_STAT_PAUSE m) = true ∧ (∀ units, t.nextData site m e units = none) ∧ (Quiet s site m e → ModuleOnly site m s t)) ∧
  (∀ (s : State) (site m : Nat) (e : LinkEnd) (r : Repair), Running s → site < 16 → m < 4 → (s.lk site m e).st = 4 → (s.lk site m e).rep = some r →
    (Answers (.repairGo site m e r.seq []) s fun t => (t.lk site m e).mapSeq = r.seq ∧
      (match e with | .hub => (t.lk site m e).mapDh | .die => (t.lk site m e).mapHd) = r.record ∧ ⟨0x32, [r.seq]⟩ ∈ (t.lk site m e).outbox.map (·.lm)) ∧
    ((s.lk site m e).repQueue = [] → Answers (.repairGo site m e r.seq []) s fun t =>
      SendsLm site m e [⟨0x32, [r.seq]⟩] s t ∧ (t.lk site m e).rep = none ∧ (Quiet s site m e → ModuleOnly site m s t)) ∧
    (r.sent + 500 ≤ s.time → Answers (.repairReqResend site m e) s fun t =>
      SendsLm site m e [⟨0x30, [r.seq, r.record, r.lane]⟩] s t ∧ (t.lk site m e).rep = some { r with sent := s.time } ∧ ModuleOnly site m s t) ∧
    (s.time < r.sent + 500 → Answers (.repairReqResend site m e) s fun t => t = s)) ∧
  (∀ (s : State) (site m seq t0 : Nat), Running s → site < 16 → m < 4 → (s.lk site m .die).st = 4 → (s.lk site m .die).pause = some t0 →
    (s.lk site m .hub).pause = none → (s.lk site m .die).pauseSeq % 256 = seq →
    Answers (.repairDone site m .die seq []) s fun t =>
      (t.lk site m .die).pause = none ∧ (t.lk site m .die).mapSeq = seq ∧ (t.lk site m .die).mapDh = (s.lk site m .die).pauseRec ∧
      t.flag (pgLNK site) (Fld.LNK_STAT_PAUSE m) = false ∧ (t.lk site m .die).copy = none ∧
      (∀ l, (t.lk site m .die).link = some l → l.replay = l.unacked.head?.map (·.seq)) ∧ ModuleOnly site m s t) ∧
  (∀ (s : State) (site m seq t0 : Nat), Running s → site < 16 → m < 4 → (s.lk site m .hub).st = 4 → (s.lk site m .hub).pause = some t0 →
    (s.lk site m .hub).pauseSeq % 256 = seq → Quiet s site m .hub → s.stormed (srcSITE site 6) = false →
    Answers (.repairDone site m .hub seq []) s fun t =>
      (t.lk site m .hub).pause = none ∧ (t.lk site m .hub).mapHd = (s.lk site m .hub).pauseRec ∧
      t.flag (pgLNK site) (Fld.LNK_STAT_REPAIRED m) = true ∧ t.raised = s.raised ++ [srcSITE site 6] ∧
      CountsOne s t (pgLNK site) (Fld.LNK_REPAIR_CNT_COUNT m) ∧
      (∃ r, t.recs = s.recs ++ [r] ∧ r.typ = 0x0C ∧ r.cls = 1) ∧ ModuleOnly site m s t) ∧
  (∀ (s : State) (site m t0 : Nat) (e : LinkEnd), Running s → site < 16 → m < 4 → (s.lk site m e).st = 4 → (s.lk site m e.other).st = 4 →
    (s.lk site m e).pause = some t0 →
    (t0 + 2000 ≤ s.time → Answers (.repairPauseTimeout site m e) s fun t =>
      GoesTo site m e 6 s t ∧ GoesTo site m e.other 6 s t ∧ (t.lk site m e).pause = none ∧
      (∀ r, (s.lk site m e.other).rep = some r → bitN (t.lk site m e.other).thrFail r.lane = true) ∧ ModuleOnly site m s t) ∧
    (s.time < t0 + 2000 → Answers (.repairPauseTimeout site m e) s fun t => t = s))) ∧
  (∀ (s : State) (site m : Nat) (e : LinkEnd), Running s → site < 16 → m < 4 →
    let x := s.lk site m e
    let retrains := fun (t : State) => GoesTo site m e 6 s t ∧ (t.lk site m e).calSent = false ∧ SameSeqs x (t.lk site m e) ∧
      (e = .hub → t.flag (pgLNK site) (Fld.LNK_STAT_RETRAINED m) = true ∧
        CountsOne s t (pgLNK site) (Fld.LNK_RETRAIN_CNT_COUNT m) ∧ srcSITE site 9 ∈ t.raised) ∧ ModuleOnly site m s t
    (x.st = 4 → x.lastTx + 1000 ≤ s.time → Answers (.heartbeatSend site m e) s fun t =>
      SendsLm site m e [⟨0x102, []⟩] s t ∧ SameSeqs x (t.lk site m e) ∧ ModuleOnly site m s t) ∧
    (s.time < x.lastTx + 1000 → Answers (.heartbeatSend site m e) s fun t => t = s) ∧
    ((x.st = 4 ∨ x.st = 5 ∧ s.get pgPWR Fld.PWR_STAT_STATE ≠ 1) →
      let lim := match e with | .hub => 1000 * s.get (pgLNK site) Fld.LNK_LCFG_HB_TO | .die => 2000
      (x.lastRx + lim ≤ s.time → Answers (.heartbeatLoss site m e) s fun t =>
        retrains t ∧ (e = .hub → t.flag (pgLNK site) (Fld.LNK_STAT_HB_LOSS m) = true ∧ srcSITE site 5 ∈ t.raised)) ∧
      (s.time < x.lastRx + lim → Answers (.heartbeatLoss site m e) s fun t => t = s) ∧
      (Quiet s site m e → Answers (.retrainReq site m e []) s retrains) ∧
      (¬ Quiet s site m e → Answers (.retrainReq site m e []) s fun t => GoesTo site m e 6 s t) ∧
      (e = .hub → Answers (.retrain site m) s fun t => retrains t ∧ SendsLm site m .hub [⟨0x50, []⟩] s t)) ∧
    (∀ clk busy vld trk, x.st = 4 →
      let lost := clk = false ∨ departs vld (vldAt x.width fun k => nthD busy k false) = true ∨ departs trk trkAt = true
      (lost → Answers (.clkLost site m e clk busy vld trk false) s retrains) ∧
      (¬ lost → Answers (.clkLost site m e clk busy vld trk false) s fun t => t = s) ∧
      ((s.lk site m e.other).st = 4 → Answers (.clkLost site m e clk busy vld trk true) s fun t =>
        GoesTo site m e 6 s t ∧ GoesTo site m e.other 6 s t ∧ (t.lk site m e.other).mapSeq = 0 ∧ (t.lk site m e.other).mapDh = 0 ∧
        (t.lk site m e.other).mapHd = 0 ∧ SameSeqs (s.lk site m e.other) (t.lk site m e.other) ∧ (t.lk site m e).mapSeq = x.mapSeq ∧
        ModuleOnly site m s t)) ∧
    (∀ k seen, x.st = 4 → k < 4 → bitN (State.rxRecord x e) (7 * k + 6) = false →
      let n := Tab.getD k 0 x.spareErr + prbsErrors seen
      (s.laneThr site e ≤ n → Answers (.spareFailed site m e k seen) s fun t =>
        bitN (t.lk site m e).thrFail (spareLane k) = true ∧ (t.lk site m e).st = 4 ∧
        (e = .hub → bitN (t.failedSet site m e) (spareLane k) = true) ∧ ModuleOnly site m s t) ∧
      (n < s.laneThr site e → Answers (.spareFailed site m e k seen) s fun t =>
        (t.lk site m e).thrFail = x.thrFail ∧ Tab.getD k 0 (t.lk site m e).spareErr = n ∧ ModuleOnly site m s t)) ∧
    (x.winStart + 1000000 ≤ s.time → Answers (.errorWindowEnd site m e) s fun t =>
      (t.lk site m e).winStart = s.time ∧ (t.lk site m e).crcFails = 0 ∧ (t.lk site m e).laneErr = [] ∧ (t.lk site m e).spareErr = [] ∧
      ModuleOnly site m s t) ∧
    (s.time < x.winStart + 1000000 → Answers (.errorWindowEnd site m e) s fun t => t = s))

/-- Retirement (R420, R432, R433, R670): 12 us outside ACTIVE and IDLE with another module up retires a module that has been ACTIVE, with
LNK_STAT.RETIRED, a record and an event; RETIRE_SYNC is sent on another ACTIVE module, at once or when there is one, repeated every 200 ns, and
on the partner's each side takes back the units after the last SEQ the partner accepted, to send them again, and discards the link state.

IDLE (R437 to R440): entry starts with IDLE_REQ where nothing is in hand for the threshold; IDLE_REQ is answered IDLE_ACK under the same
conditions, else IDLE_NAK; IDLE_ACK, or seeing CLK stop, takes the side to IDLE; 200 ns without either keeps it ACTIVE; in IDLE it toggles TRK; a
wake returns both sides to ACTIVE. -/
def Obligations.RetirementAndIdle : Prop :=
  ((∀ (s : State) (site m : Nat), Running s → site < 16 → m < 4 → s.smith.running = true →
    let x := s.lk site m .hub
    (∀ k l, x.st ∉ [0, 4, 5, 7] → x.active = true → x.link = some l → [0, 1, 2, 3].find? (fun j => j != m && (s.lk site j .hub).st == 4) = some k →
      x.outSince + 12000 ≤ s.time → s.stormed (srcSITE site 8) = false → Answers (.moduleRetireTimer site m) s fun t =>
      GoesTo site m .hub 7 s t ∧ t.flag (pgLNK site) (Fld.LNK_STAT_RETIRED m) = true ∧ t.raised = s.raised ++ [srcSITE site 8] ∧
      (∃ r, t.recs = s.recs ++ [r] ∧ r.typ = 0x0C ∧ r.cls = 3) ∧ SendsLm site k .hub [⟨0x38, [m, (l.rxSeq + 4095) % 4096]⟩] s t ∧
      OnlyPage (pgLNK site) s t ∧ t = { s with regs := t.regs, links := t.links, recs := t.recs, raised := t.raised }) ∧
    (∀ k, x.st ∉ [0, 4, 5, 7] → x.active = true → x.link ≠ none → (∀ j, j < 4 → j ≠ m → (s.lk site j .hub).st ≠ 4) → k < 4 → k ≠ m →
      (s.lk site k .hub).st = 5 → x.outSince + 12000 ≤ s.time → Answers (.moduleRetireTimer site m) s fun t =>
      GoesTo site m .hub 7 s t ∧ (t.lk site m .hub).syncDue = true ∧ (t.lk site m .hub).link.isSome = true) ∧
    (s.time < x.outSince + 12000 ∨ x.active = false → Answers (.moduleRetireTimer site m) s fun t => t = s)) ∧
  (∀ (s : State) (site m k last q0 t0 : Nat) (e : LinkEnd) (l : LinkState), Running s → site < 16 → m < 4 → k < 4 → k ≠ m → last < 4096 →
    (s.lk site m e).st = 4 → (s.lk site k e).st = 7 → (s.lk site k e).link = some l → Tab.get? k (s.lk site m e).retSync = some (q0, t0, false) →
    (∀ i, l.unacked.findIdx? (fun f => f.seq == last) = some i → Answers (.retireSync site m e k last []) s fun t =>
      (t.lk site k e).link = none ∧
      (t.lk site m e).resend = (s.lk site m e).resend ++ ((l.unacked.drop (i + 1)).flatMap (·.units) ++ (s.lk site k e).resend) ∧
      Tab.get? k (t.lk site m e).retSync = some (q0, t0, true)) ∧
    ((∀ f ∈ l.unacked, f.seq ≠ last) → Answers (.retireSync site m e k last []) s fun t =>
      (t.lk site k e).link = none ∧
      (t.lk site m e).resend = (s.lk site m e).resend ++ (l.unacked.flatMap (·.units) ++ (s.lk site k e).resend))) ∧
  (∀ (s : State) (site m k last : Nat) (e : LinkEnd), Running s → site < 16 → m < 4 → k < 4 → k ≠ m → (s.lk site m e).st = 4 →
    (s.lk site k e).st ≠ 0 → Answers (.retireSync site m e k last []) s fun t => (t.lk site k e).st = 7 ∧ (t.lk site k e).link = none) ∧
  (∀ (s : State) (site m k q t0 : Nat) (e : LinkEnd), Running s → site < 16 → m < 4 → (s.lk site m e).retSync = [(k, q, t0, false)] →
    (t0 + 200 ≤ s.time → (s.lk site m e).st = 4 → Answers (.retireSyncRepeat site m e) s fun t =>
      SendsLm site m e [⟨0x38, [k, q]⟩] s t ∧ (t.lk site m e).retSync = [(k, q, s.time, false)] ∧ ModuleOnly site m s t) ∧
    (∀ j, t0 + 200 ≤ s.time → (s.lk site m e).st ≠ 4 → [0, 1, 2, 3].find? (fun j => j != k && (s.lk site j e).st == 4) = some j →
      Answers (.retireSyncRepeat site m e) s fun t =>
        SendsLm site j e [⟨0x38, [k, q]⟩] s t ∧ Tab.get? k (t.lk site j e).retSync = some (q, s.time, false) ∧ (t.lk site m e).retSync = []) ∧
    (s.time < t0 + 200 → Answers (.retireSyncRepeat site m e) s fun t => t = s))) ∧
  (∀ (s : State) (site m : Nat) (e : LinkEnd), Running s → site < 16 → m < 4 →
    let x := s.lk site m e
    (s.idleReady site m e = true → x.idleReq = none → x.idleAck = none →
      (e = .hub → s.flag (pgLNK site) (Fld.LNK_CTL_IDLE_EN m) = true) →
      (x.lastUnit + s.idleThresh site e ≤ s.time → Answers (.idleEntryStart site m e) s fun t =>
        SendsLm site m e [⟨0x40, []⟩] s t ∧ (t.lk site m e).idleReq = some s.time ∧ (t.lk site m e).st = 4 ∧ ModuleOnly site m s t) ∧
      (s.time < x.lastUnit + s.idleThresh site e → Answers (.idleEntryStart site m e) s fun t => t = s)) ∧
    (s.idleReady site m e = true → x.idleReq = none → Answers (.idleReq site m e []) s fun t =>
        SendsLm site m e [⟨0x41, []⟩] s t ∧ (t.lk site m e).idleAck = some s.time ∧ ModuleOnly site m s t) ∧
    (x.st = 4 → x.idleReq = none → s.idleReady site m e = false → Quiet s site m e → Answers (.idleReq site m e []) s fun t =>
      SendsLm site m e [⟨0x42, []⟩] s t ∧ (t.lk site m e).st = 4 ∧ (t.lk site m e).idleAck = x.idleAck ∧ ModuleOnly site m s t) ∧
    (x.st = 4 → x.idleReq = none → Answers (.idleReq site m e []) s fun t =>
      SendsLm site m e [⟨0x41, []⟩] s t ∧ (t.lk site m e).idleAck = some s.time ∨ SendsLm site m e [⟨0x42, []⟩] s t ∧ (t.lk site m e).idleAck = x.idleAck) ∧
    (∀ t0, x.st = 4 → x.idleReq = some t0 →
      let calm := fun (t : State) => Quiet s site m e → ModuleOnly site m s t
      (Answers (.idleAck site m e []) s fun t => GoesTo site m e 5 s t ∧ calm t) ∧
      (e = .hub → Answers (.idleReq site m e []) s fun t => GoesTo site m e 5 s t ∧ calm t) ∧
      (e = .die → Answers (.idleReq site m e []) s fun t =>
        (t.lk site m e).idleReq = none ∧ (t.lk site m e).idleAck = some s.time ∧ (t.lk site m e).st = 4 ∧ calm t) ∧
      (Answers (.idleNak site m e []) s fun t => (t.lk site m e).idleReq = none ∧ (t.lk site m e).st = 4 ∧ calm t) ∧
      (t0 + 200 ≤ s.time → Answers (.idleTimeout site m e) s fun t => (t.lk site m e).idleReq = none ∧ (t.lk site m e).st = 4 ∧ ModuleOnly site m s t) ∧
      (s.time < t0 + 200 → Answers (.idleTimeout site m e) s fun t => (t.lk site m e).idleReq = some t0 ∧ ModuleOnly site m s t)) ∧
    (∀ t0, x.st = 4 → x.idleAck = some t0 → Answers (.clkStopSeen site m e) s fun t => GoesTo site m e 5 s t ∧ ModuleOnly site m s t) ∧
    (x.st = 5 → (s.lk site m e.other).st = 5 → Answers (.trkBeacon site m e) s fun t =>
      (t.lk site m e).lastTx = s.time ∧ (t.lk site m e.other).lastRx = s.time ∧ (t.lk site m e).st = 5 ∧ ModuleOnly site m s t) ∧
    ((s.lk site m .hub).st = 5 → (s.lk site m .die).st = 5 → s.admitted site = false → Answers (.moduleWake site m) s fun t =>
      GoesTo site m .hub 4 s t ∧ GoesTo site m .die 4 s t ∧ ((∀ k f, (s.lk site k f).syncDue = false) → ModuleOnly site m s t)))

/-- MAPSEQ after SURVEY (R423): a side that passes from SURVEY to CALIBRATE, as it receives SURVEY_DONE or the partner's last HELLO, has as its MAPSEQ the
larger of its own, which its HELLO gave, and that of the partner's HELLO; SURVEY_DONE after its own was sent is such a passage. -/
def Obligations.SurveyAlignsMapSeq : Prop :=
  ∀ (s : State) (site m : Nat) (e : LinkEnd), Running s → site < 16 → m < 4 → (s.lk site m e).st = 1 →
    let x := s.lk site m e
    (∀ resume answer seq, Answers (.hello site m e resume answer seq []) s fun t => (t.lk site m e).st = 2 → (t.lk site m e).mapSeq = max x.mapSeq seq) ∧
    (∀ resume answer seq, (s.siteAt site).trav = none → x.surveyRecv = false → Answers (.hello site m e resume answer seq []) s fun t =>
      (t.lk site m e).partnerSeq = seq ∧ (t.lk site m e).mapSeq = x.mapSeq) ∧
    (Answers (.surveyDone site m e []) s fun t => ((t.lk site m e).st = 2 → (t.lk site m e).mapSeq = max x.mapSeq x.partnerSeq) ∧
      (x.surveySent = true → (t.lk site m e).st = 2))

/-! ### Traverse and Boundary (R445 to R479) -/

/-- SITE_FENCE (R243, R245, R247, R616): an admitted site is fenced and no longer admitted, what its links and site control held is gone, its
slot 0 is withdrawn and every home starts a containment walk. -/
def Obligations.SiteFence : Prop :=
  ∀ (s : State) (site : Nat), s.off = false → site < 16 → s.admitted site = true → (∀ h, (s.homeAt h).trk = []) → SmithFree s →
    Answers (.siteFence site) s fun t =>
      t.fenced site = true ∧ t.admitted site = false ∧ (t.siteAt site).held = [] ∧ (t.siteAt site).drains = [] ∧ (t.siteAt site).outReq = [] ∧
      bitN (t.votes site) 0 = false ∧
      ∀ h, h < 64 → t.flag (pgHOME h) Fld.HOME_LOSS_STAT_ACTIVE = true ∧ Tab.get? site (t.homeAt h).walk = some 12288

/-- TRAVERSE (R452, R454): a populated, fenced site whose containment has ended is voted on and its modules are in RESET; with the domain
already on, module 0 leaves RESET. Traverse of an admitted or unpopulated site does not start.

The bounds of R455, and step 1 (R456): an answer late by more than 5 us past its bound, or a domain not on in its rise time, ends Traverse. A
module not ACTIVE 5 ms after EN retires (R670).

TRAVERSE_ADMIT (R460, R471, R472, R479): with every module trained and the same die as before, nothing pending, the fence is lifted: the site is admitted with
the class, level, capabilities, cores and MAX_OUT of its Datum block, meters full and no request outstanding. -/
def Obligations.TraverseAndAdmission : Prop :=
  (∀ (s : State) (site : Nat), s.off = false → s.smith.running = true → site < 16 →
    (s.populated site = true → (s.siteAt site).trav = none → s.admitted site = false → s.fenced site = true → s.walkClear site = true →
      (s.domOn site = false → Answers (.traverse site) s fun t =>
        (∃ tr, (t.siteAt site).trav = some tr ∧ tr.step = 1 ∧ tr.sent = s.time) ∧ bitN (t.votes site) 0 = true ∧
        (∀ m e, m < 4 → (t.lk site m e).st = 0 ∧ (t.lk site m e).link = none) ∧ SameMemory s t) ∧
      (s.domOn site = true → Answers (.traverse site) s fun t =>
        (∃ tr, (t.siteAt site).trav = some tr ∧ tr.step = 2 ∧ tr.m = 0) ∧ GoesTo site 0 .hub 1 s t ∧
        t.flag (pgLNK site) (Fld.LNK_CTL_EN 0) = true ∧ (∀ m, 0 < m → m < 4 → (t.lk site m .hub).st = 0))) ∧
    (s.populated site = false ∨ s.admitted site = true → Answers (.traverse site) s fun t => t = s)) ∧
  ((∀ (s : State) (site : Nat) (tr : Trav), s.off = false → SmithFree s → site < 16 → (s.siteAt site).trav = some tr →
    s.stormed (srcSITE site 3) = false →
    (∀ lim r, (tr.step, lim, r) ∈ [(3, 25000, 3), (4, 305000, 10), (5, 25000, 11), (6, 25000, 11), (7, 25000, 11)] →
      (tr.sent + lim < s.time → Answers (.traverseAnswerTimeout site) s (TravFails site r s)) ∧
      (s.time ≤ tr.sent + lim → Answers (.traverseAnswerTimeout site) s fun t => t = s)) ∧
    (tr.step = 1 → s.domOn site = false → tr.sent + riseTime site < s.time →
      Answers (.traverseAnswerTimeout site) s (TravFails site 12 s)) ∧
    (tr.step = 9 → (∀ m, m < 4 → (s.lk site m .hub).st ≠ 4 ∧ (s.lk site m .hub).st ≠ 5) → tr.sent + 5000000 < s.time →
      Answers (.traverseAnswerTimeout site) s (TravFails site 13 s))) ∧
  (∀ (s : State) (site m : Nat), Running s → SmithFree s → site < 16 → m < 4 → (s.siteAt site).trav = none →
    s.flag (pgLNK site) (Fld.LNK_CTL_EN m) = true → (s.lk site m .hub).active = false → (s.lk site m .hub).link = none →
    (s.lk site m .hub).st ∉ [0, 7] →
    ((s.lk site m .hub).enSince + 5000000 ≤ s.time → Answers (.firstActiveTimeout site m) s fun t => GoesTo site m .hub 7 s t ∧ ModuleOnly site m s t) ∧
    (s.time < (s.lk site m .hub).enSince + 5000000 → Answers (.firstActiveTimeout site m) s fun t => t = s))) ∧
  (∀ (s : State) (site : Nat) (tr : Trav), s.off = false → SmithFree s → site < 16 → (s.siteAt site).trav = some tr → tr.step = 9 →
    s.travTrained site = true → s.shadow = [] → s.routesPend = [] → s.weightsPend = [] → s.routeBasePend = [] → s.quench.busy = false →
    s.quench.held = [] → (s.siteAt site).lastDie = some (datumAt tr.bytes 4 2, datumAt tr.bytes 6 2, datumAt tr.bytes 40 8) →
    datumAt tr.bytes 9 1 ≤ 2 → tr.level ≤ 2 → tr.caps < 16 → datumAt tr.bytes 24 2 ≤ 2048 → Answers (.traverseAdmit site) s fun t =>
      t.admitted site = true ∧ t.fenced site = false ∧ (t.siteAt site).trav = none ∧ (t.siteAt site).outReq = [] ∧
      t.get (pgSITE site) Fld.TRAV_RESULT_RESULT = 1 ∧ t.get (pgSITE site) Fld.TRAV_RESULT_CLASS = datumAt tr.bytes 9 1 ∧
      t.get (pgSITE site) Fld.TRAV_RESULT_LEVEL = tr.level ∧ t.get (pgSITE site) Fld.TRAV_RESULT_CORES = min (datumAt tr.bytes 26 1) 32 ∧
      t.get (pgSITE site) Fld.TRAV_CAP_LO_CAP = tr.caps ∧ t.get (pgSITE site) Fld.BND_OUT_MAX = datumAt tr.bytes 24 2 ∧
      t.get (pgSITE site) Fld.BND_OUT_COUNT = 0 ∧ srcSITE site 3 ∈ t.raised ∧
      (∀ k, k < 4 → t.tokensNow site k = 1000 * s.get (pgSITE site) (Fld.BND_METER_BURST k)))

/-- The hub's side of the identity exchange (R453 to R459): each right answer is followed by the next message of R453; a wrong one ends
Traverse with the result of R456 for its step, and so does a block or a signature that does not verify. An answer to another step is not
taken.

The die's side of the identity exchange (R451, R453, R458, R459): it answers each frame it receives in SURVEY, echoing ASSIGN and
NEG_COMMIT; it presents each chunk of its Datum block as it did the first time; a frame of SURVEY in a later state takes it back to SURVEY
(R420). -/
def Obligations.IdentityExchanges : Prop :=
  (∀ (s : State) (site m : Nat) (tr : Trav), Exchanging s site m tr → SmithFree s → s.stormed (srcSITE site 3) = false →
    (tr.step = 3 → ∀ data k, data.length = 128 →
      let b := tr.bytes ++ data.map (·.toNat)
      (tr.chunk < 3 → Answers (.datumData site m tr.chunk data k []) s fun t => Asks site m 3 ⟨0x08, [tr.chunk + 1]⟩ s t ∧
        ∃ tr', (t.siteAt site).trav = some tr' ∧ tr'.bytes = b ∧ tr'.chunk = tr.chunk + 1) ∧
      (tr.chunk = 3 → s.datumCheck site b k = 1 → Answers (.datumData site m 3 data k []) s fun t =>
        (∃ nonce, Asks site m 4 ⟨0x0A, [nonce]⟩ s t ∧ (t.siteAt site).trav.map (·.nonce) = some nonce) ∧
        ∀ i, i < 128 → t.reg (pgSITE site) (Reg.DATUM i) = datumAt b (4 * i) 4) ∧
      (tr.chunk = 3 → ∀ r, s.datumCheck site b k = r → r ≠ 1 → Answers (.datumData site m 3 data k []) s (TravFails site r s))) ∧
    (tr.step = 3 → ∀ c data k, data.length ≠ 128 ∨ c ≠ tr.chunk → Answers (.datumData site m c data k []) s (TravFails site 3 s)) ∧
    (tr.step = 4 → ∀ sig, sig < 2 ^ 768 →
      (s.chalOk site sig = true → Answers (.chalRsp site m sig []) s
        (Asks site m 5 ⟨0x0C, [site, 4 * site, 32 * site, min (datumAt tr.bytes 26 1) 32]⟩ s)) ∧
      (s.chalOk site sig = false → Answers (.chalRsp site m sig []) s (TravFails site 10 s))) ∧
    (tr.step = 5 →
      (Answers (.assignAck site m [site, 4 * site, 32 * site, min (datumAt tr.bytes 26 1) 32] []) s
        (Asks site m 6 ⟨0x0E, [2, 1, capsOf (datumAt tr.bytes 9 1) &&& datumAt tr.bytes 12 8]⟩ s)) ∧
      (∀ args, args ≠ [site, 4 * site, 32 * site, min (datumAt tr.bytes 26 1) 32] →
        Answers (.assignAck site m args []) s (TravFails site 11 s))) ∧
    (tr.step = 6 → ∀ caps,
      let offer := capsOf (datumAt tr.bytes 9 1) &&& datumAt tr.bytes 12 8
      (caps ||| offer = offer → Answers (.negAnswer site m (levelOf tr.bytes) caps []) s
        (Asks site m 7 ⟨0x03, [levelOf tr.bytes, caps]⟩ s)) ∧
      (∀ level, level ≠ levelOf tr.bytes ∨ caps ||| offer ≠ offer → Answers (.negAnswer site m level caps []) s (TravFails site 11 s))) ∧
    (tr.step = 7 →
      ((s.lk site m .hub).helloSent = true → (s.lk site m .hub).helloRecv = true → (s.lk site m .hub).surveySent = false →
        (s.lk site m .hub).surveyRecv = false → Answers (.negCommit site m .hub tr.level tr.caps []) s fun t =>
          (∃ tr', (t.siteAt site).trav = some tr' ∧ tr'.step = 8) ∧ SendsLm site m .hub [⟨0x02, []⟩] s t) ∧
      (∀ level caps, level ≠ tr.level ∨ caps ≠ tr.caps → Answers (.negCommit site m .hub level caps []) s (TravFails site 11 s))) ∧
    (∀ k c, k ≠ tr.step → (k, c) ∈ [(3, .datumData site m 0 [] true []), (4, .chalRsp site m 0 []), (5, .assignAck site m [] []),
        (6, .negAnswer site m 0 0 []), (7, .negCommit site m .hub 0 0 [])] → Answers c s fun t =>
      (t.siteAt site).trav = some tr ∧ (t.lk site m .hub).outbox = (s.lk site m .hub).outbox ∧ SameMemory s t)) ∧
  (∀ (s : State) (site m : Nat), Running s → site < 16 → m < 4 →
    ((s.lk site m .die).st = 1 →
      (∀ c data, data.length = 128 → Tab.get? c (s.dieAt site).datum = none → Answers (.datumReq site m c data []) s fun t =>
        SendsLm site m .die [⟨0x09, c :: data.map (·.toNat)⟩] s t ∧ Tab.get? c (t.dieAt site).datum = some data) ∧
      (∀ c data b, Tab.get? c (s.dieAt site).datum = some b → Answers (.datumReq site m c data []) s fun t =>
        SendsLm site m .die [⟨0x09, c :: b.map (·.toNat)⟩] s t ∧ Tab.get? c (t.dieAt site).datum = some b) ∧
      (∀ sig, sig < 2 ^ 768 → Answers (.chal site m sig []) s fun t =>
        SendsLm site m .die [⟨0x0B, [sig]⟩] s t ∧ (Quiet s site m .die → ModuleOnly site m s t)) ∧
      (∀ no node core cores, Answers (.assign site m no node core cores []) s fun t =>
        SendsLm site m .die [⟨0x0D, [no, node, core, cores]⟩] s t ∧ (t.dieAt site).site = no ∧ (t.dieAt site).node = node ∧
        (t.dieAt site).coreBase = core ∧ (t.dieAt site).cores = cores) ∧
      (∀ level caps, Answers (.negOffer site m level caps []) s fun t =>
        SendsLm site m .die [⟨0x0F, [level, caps]⟩] s t ∧ (Quiet s site m .die → ModuleOnly site m s t)) ∧
      (∀ level caps, Answers (.negCommit site m .die level caps []) s fun t =>
        SendsLm site m .die [⟨0x03, [level, caps]⟩] s t ∧ (t.dieAt site).level = level ∧ (t.dieAt site).caps = caps)) ∧
    (2 ≤ (s.lk site m .die).st → (s.lk site m .die).st ≤ 6 → ∀ c, c ∈ [.datumReq site m 0 [] [], .chal site m 0 [], .assign site m 0 0 0 0 [],
        .negOffer site m 0 0 [], .negCommit site m .die 0 0 []] → Answers c s fun t => GoesTo site m .die 1 s t ∧ SameMemory s t) ∧
    (∀ r, Answers (.travFence site m r []) s fun t => (t.dieAt site).refused = some r ∧ SameMemory s t))

/-- DIE_UNIT (R160, R469, R474, R475): a unit that every check passes leaves for its home, or for SITE; one that fails a check is a violation of the first
kind it fails, and the action of that kind drops it with an answer, or discards it; a unit of a fenced site is discarded.

Rate meters (R472): a unit that needs a token of an empty meter is held, with every later unit of its VC and module, and counted where it
finds a meter empty; METER_RELEASE sends the oldest on once tokens are there, taking one of each.

The timers of the die contract (R468, R473): an overdue snoop, XlatInvFwd, sink unit or device request is a violation of its kind, once; the
device request is answered with ERR. -/
def Obligations.BoundaryRules : Prop :=
  ((∀ (s : State) (site m t0 : Nat) (p : Pkt), AtBoundary s site m p t0 → (r469Fails s site p).all (fun b => !b) = true →
    (∀ k, k < 4 → s.flag (pgSITE site) (Fld.BND_METER_EN k) = false) → (s.siteAt site).held = [] →
    (1 ≤ p.op.toNat → p.op.toNat ≤ 8 → Answers (.dieUnit site m p) s fun t =>
      t.net.map (fun e => (e.p, e.at_)) =
        [({ p with vc := 0, cls := s.classOf p.src, dst := nodeHome (s.home (paOf p.addr.toNat)), inj := some (nodeModule site m) }, .out)] ∧
      (p.op.toNat ≤ 7 → (t.siteAt site).outReq = (s.siteAt site).outReq ++ [(p.src.toNat, p.txn.toNat)]) ∧ t.recs = s.recs) ∧
    (9 ≤ p.op.toNat → p.op.toNat ≤ 11 → Answers (.dieUnit site m p) s fun t =>
      t.net.map (fun e => (e.p.op, e.p.txn, e.at_)) = [(p.op, p.txn, .site site)] ∧ t.recs = s.recs)) ∧
  (∀ (s : State) (site m t0 k : Nat) (p : Pkt), AtBoundary s site m p t0 → (r469Fails s site p).findIdx? id = some k →
    let act := bits (s.reg (pgSITE site) Reg.BND_ACT) (2 * k) 2
    (act = 1 → 1 ≤ p.op.toNat → p.op.toNat ≤ 8 → Answers (.dieUnit site m p) s fun t =>
      Violates s t site (k + 1) p ∧ t.net.map (fun e => (e.p.op, e.p.txn, e.p.addr, e.p.dst)) =
        [(0x40, p.txn, 5, if isDieNode p.src ∧ siteOf p.src = site then p.src else nodeModule site m)]) ∧
    (act = 2 → p.op ≠ 0x68 → p.op ≠ 0x71 → (s.siteAt site).snoops = [] → Answers (.dieUnit site m p) s fun t => Violates s t site (k + 1) p ∧ t.net = []) ∧
    (act = 0 → ((r469Fails s site p).drop (k + 1)).all (fun b => !b) = true → s.flag (pgSITE site) Fld.BND_CTL_EN = true →
      (∀ i, i < 4 → s.flag (pgSITE site) (Fld.BND_METER_EN i) = false) → (s.siteAt site).held = [] → 1 ≤ p.op.toNat → p.op.toNat ≤ 8 →
      Answers (.dieUnit site m p) s fun t => Violates s t site (k + 1) p ∧
        t.net.map (fun e => (e.p.op, e.p.txn, e.p.dst, e.at_)) = [(p.op, p.txn, nodeHome (s.home (paOf p.addr.toNat)), .out)])) ∧
  (∀ (s : State) (site m t0 : Nat) (p : Pkt), Running s → site < 16 → m < 4 → s.net = [⟨p, .link site m, t0⟩] →
    s.get pgPWR Fld.PWR_STAT_STATE = 0 → s.fenced site = true → Answers (.dieUnit site m p) s fun t =>
      t.net = [] ∧ t.recs = s.recs ∧ t.get (pgFAB 7) Fld.DISCARD_COUNT = min (s.get (pgFAB 7) Fld.DISCARD_COUNT + 1) (2 ^ 32 - 1))) ∧
  ((∀ (s : State) (site m t0 : Nat) (p : Pkt), AtBoundary s site m p t0 → (r469Fails s site p).all (fun b => !b) = true →
    s.flag (pgSITE site) Fld.BND_CTL_EN = true → (s.siteAt site).held = [] → 1 ≤ p.op.toNat → p.op.toNat ≤ 7 → p.rsv = false →
    s.flag (pgSITE site) (Fld.BND_METER_EN 0) = true → s.tokensNow site 0 < 1000 → Answers (.dieUnit site m p) s fun t =>
      (∃ q, (t.siteAt site).held = [⟨q, m⟩] ∧ State.sameUnit { q with dst := p.dst } p = true) ∧ t.net = [] ∧
      t.flag (pgSITE site) Fld.BND_VIOL_HELD = true ∧
      t.get (pgSITE site) (Fld.BND_HELD_COUNT 0) = min (s.get (pgSITE site) (Fld.BND_HELD_COUNT 0) + 1) (2 ^ 32 - 1)) ∧
  (∀ (s : State) (site m : Nat) (q : Pkt), Running s → site < 16 → m < 4 → (s.siteAt site).held = [⟨q, m⟩] →
    s.flag (pgSITE site) Fld.BND_CTL_EN = true → 1 ≤ q.op.toNat → q.op.toNat ≤ 7 → q.rsv = false →
    s.flag (pgSITE site) (Fld.BND_METER_EN 0) = true →
    (1000 ≤ s.tokensNow site 0 → Answers (.meterRelease site m q.vc.toNat) s fun t =>
      (t.siteAt site).held = [] ∧ t.tokensNow site 0 = s.tokensNow site 0 - 1000 ∧
      t.net.map (·.p) = s.net.map (·.p) ++ [{ q with vc := 0, cls := s.classOf q.src, inj := some (nodeModule site m) }]) ∧
    (s.tokensNow site 0 < 1000 → Answers (.meterRelease site m q.vc.toNat) s fun t => t = s))) ∧
  ((∀ (s : State) (site : Nat) (q : SnpPend), Running s → site < 16 → (s.siteAt site).snoops = [q] →
    let lim := if q.p.op = 0x24 then 10000 else 2000
    (q.noted = false → q.since + lim < s.time → Answers (.snoopLateTimeout site) s fun t =>
      Violates s t site (if q.p.op = 0x24 then 7 else 6) q.p ∧ (t.siteAt site).snoops = [{ q with noted := true }] ∧ t.net = s.net) ∧
    (q.noted = true ∨ s.time ≤ q.since + lim → Answers (.snoopLateTimeout site) s fun t => t = s)) ∧
  (∀ (s : State) (site m : Nat) (e : InFlight) (l : LinkState), Running s → site < 16 → m < 4 → s.net = [e] → e.at_ = .rx →
    e.p.dst = nodeModule site m → e.p.vc.toNat ∈ [2, 3, 4, 7] → (s.lk site m .hub).link = some l →
    State.mayLink l e.p.vc.toNat e.p.hasData = false → (s.siteAt site).sink = [] →
    (e.since + 100000 ≤ s.time → Answers (.sinkTimeout site m) s fun t => Violates s t site 9 e.p ∧ t.net = s.net) ∧
    (s.time < e.since + 100000 → Answers (.sinkTimeout site m) s fun t => t = s)) ∧
  (∀ (s : State) (site : Nat) (d : DevPend), Running s → site < 16 → (s.siteAt site).dev = [d] →
    (d.since + s.devCplNs site ≤ s.time → Answers (.devCplTimeout site d.p.src d.p.txn) s fun t =>
      Violates s t site 8 d.p ∧ (t.siteAt site).dev = [] ∧ (t.siteAt site).devGone = (s.siteAt site).devGone ++ [d.p] ∧
      ∃ q, Sends s t [q] ∧ q.op = (if d.p.op = 0x70 then 0x79 else 0x78) ∧ q.dst = d.p.src ∧ q.txn = d.p.txn ∧ q.addr = 2 ∧
        (d.p.op = 0x70 → q.data = maskBits d.p.mask)) ∧
    (s.time < d.since + s.devCplNs site → Answers (.devCplTimeout site d.p.src d.p.txn) s fun t => t = s)))

/-! ### I/O translation (R480 to R521) -/

/-- XLAT_INV and XLAT_SYNC (R504, R507): SITE forwards a well-formed broadcast of OP 1 to 4, or a SYNC, to the IXU, the network engine and
every other admitted Class F site, with the SRC and TXN of the module that sent it; one with another OP or a reserved field is answered ERR and
forwarded to no one; an XlatSync waits for an earlier XlatInv.

XLAT_INV_FWD, XLAT_ACK and XLAT_TARGET_TIMEOUT (R500, R505, R506): a target answers each forwarded command once, ERR and with nothing changed for a
reserved field; the IXU first loses every entry the command removes; SITE answers its die once every target has answered, ERR if any was. -/
def Obligations.TranslationBroadcasts : Prop :=
  (∀ (s : State) (p : Pkt), Running s → s.arrived p = true → State.homeOfPkt p = none → isDieNode p.src = true → s.pageOff pgIXU = false → s.pageOff pgNE = false →
    (∀ i, i < 16 → s.admitted i = true → s.fenced i = false) → s.fenced (siteOf p.src) = false →
    let site := siteOf p.src
    let line := (s.lineTaken p).1
    let c := lineField line 0 16
    let dsts := [nodeIXU, nodeNE] ++ ((List.range 16).filter fun i => i != site && s.admitted i &&
      s.get (pgSITE i) Fld.TRAV_RESULT_CLASS == 0).map fun i => nodeModule i (s.devModule i 0)
    let forwards := fun (cmd : Nat) (t : State) => ∃ l, Sends (s.consume p) t l ∧ l.map (·.dst) = dsts ∧
      ∀ q ∈ l, q.op = 0x24 ∧ q.src = p.src ∧ q.txn = p.txn ∧ q.addr = 0 ∧ lineField q.data 0 16 = cmd ∧ q.mask = maskRun 0 16
    ((s.siteAt site).xlat = [] →
      (p.op = 0x0A → r499 c → bits c 0 4 ≤ 4 → Answers (.xlatInv p) s fun t =>
        forwards c t ∧ ∃ x, (t.siteAt site).xlat = [x] ∧ x.p = { p with data := line } ∧ x.start = s.time ∧ t.regs = s.regs) ∧
      (p.op = 0x0B → Answers (.xlatSync p) s fun t => forwards 6 t ∧ ∃ x, (t.siteAt site).xlat = [x] ∧ x.p = p)) ∧
    (p.op = 0x0A → (invWellFormed c = false ∨ 4 < bits c 0 4) → Answers (.xlatInv p) s fun t =>
      (∃ e, t.net = (s.consume p).net ++ [e] ∧ IsSiteReply p 0x44 e ∧ e.p.addr = 2) ∧ (t.siteAt site).xlat = (s.siteAt site).xlat) ∧
    (∀ x, p.op = 0x0B → (s.siteAt site).xlat = [x] → x.p.op = 0x0A → x.started = true → (∃ k ∈ x.waits, s.xlatGone k = false) →
      Answers (.xlatSync p) s fun t => t.net = (s.consume p).net ∧ (t.siteAt site).xlat.map (·.p) = [x.p, p])) ∧
  ((∀ (s : State) (p : Pkt), Running s → p.op = 0x24 → isDieNode p.dst = true → s.atDie p = true → Answers (.xlatInvFwd p) s fun t =>
    ∃ q, DieSends (s.dieConsumes p) t (siteOf p.dst) [q] ∧ q.op = 0x44 ∧ q.txn = p.txn ∧ q.src = p.dst ∧ q.dst = p.src ∧
      q.addr = (if invWellFormed (lineField p.data 0 16) then 0 else 2)) ∧
  (∀ (s : State) (p : Pkt), IxuIdle s → s.arrived p = true → p.op = 0x24 → p.dst = nodeIXU → s.agents = [] →
    let c := lineField p.data 0 16
    let ack := fun (st : BitVec 46) (t : State) => ∃ q, Sends (s.consume p) t [q] ∧ q.op = 0x44 ∧ q.src = nodeIXU ∧ q.dst = p.src ∧
      q.txn = p.txn ∧ q.addr = st ∧ q.last = false
    (r499 c → Answers (.xlatInvFwd p) s fun t => ack 0 t ∧ t.ixu.tlb = s.ixu.tlb.filter (fun x => !r500 c x) ∧
      t.ixu.loaded = s.ixu.loaded.filter (fun x => !r500 c x) ∧ t.ne.tlb = s.ne.tlb) ∧
    (c = 6 → s.ixu.neOut = [] → s.ixu.ats = [] → (∀ e ∈ s.dmas, e.2.stale = false) → Answers (.xlatInvFwd p) s fun t => ack 0 t ∧ t.ixu.tlb = s.ixu.tlb) ∧
    (invWellFormed c = false → Answers (.xlatInvFwd p) s fun t => ack 2 t ∧ t.ixu.tlb = s.ixu.tlb ∧ t.ixu.loaded = s.ixu.loaded ∧
      t.ixu.binds = s.ixu.binds ∧ t.ixu.walkc = s.ixu.walkc)) ∧
  (∀ (s : State) (p : Pkt), IxuIdle s → s.arrived p = true → s.pageOff pgNE = false → p.op = 0x24 → p.dst = nodeNE → s.agents = [] → r499 (lineField p.data 0 16) →
    Answers (.xlatInvFwd p) s fun t => t.ne.tlb = s.ne.tlb.filter (fun x => !r500 (lineField p.data 0 16) x) ∧ t.ixu.tlb = s.ixu.tlb ∧
      ∃ q, Sends (s.consume p) t [q] ∧ q.op = 0x44 ∧ q.src = nodeNE ∧ q.dst = p.src ∧ q.txn = p.txn ∧ q.addr = 0) ∧
  (∀ (s : State) (p : Pkt) (x : XlatOp) (k : Nat), Running s → s.arrived p = true → p.op = 0x44 → isDieNode p.dst = true → s.fenced (siteOf p.dst) = false →
    (s.siteAt (siteOf p.dst)).xlat = [x] → x.started = true → x.p.txn = p.txn → x.p.src = p.dst → x.waits.contains k = true →
    (p.src = nodeIXU ∧ k = 16 ∨ p.src = nodeNE ∧ k = 17 ∨ isDieNode p.src = true ∧ k = siteOf p.src) → (∀ j ∈ x.waits, s.xlatGone j = false) →
    let err := x.err || bits p.addr.toNat 0 3 != 0
    (x.waits = [k] → Answers (.xlatAck p) s fun t => (t.siteAt (siteOf p.dst)).xlat = [] ∧
      ∃ e, t.net = (s.consume p).net ++ [e] ∧ IsSiteReply x.p (if x.p.op = 0x0A then 0x44 else 0x41) e ∧ e.p.addr = (if err then 2 else 0)) ∧
    (x.waits.filter (· != k) ≠ [] → Answers (.xlatAck p) s fun t => t.net = (s.consume p).net ∧
      (t.siteAt (siteOf p.dst)).xlat = [{ x with waits := x.waits.filter (· != k), err := err }])) ∧
  (∀ (s : State) (x : XlatOp) (k : Nat), Running s → isDieNode x.p.src = true → s.fenced (siteOf x.p.src) = false → k < 16 →
    (s.siteAt (siteOf x.p.src)).xlat = [x] → x.started = true → x.waits = [k] →
    (x.start + 20000 ≤ s.time → Answers (.xlatTargetTimeout x.p.src x.p.txn k) s fun t => (t.siteAt (siteOf x.p.src)).xlat = [] ∧
      ∃ e, t.net = s.net ++ [e] ∧ IsSiteReply x.p (if x.p.op = 0x0A then 0x44 else 0x41) e ∧ e.p.addr = 2) ∧
    (s.time < x.start + 20000 → Answers (.xlatTargetTimeout x.p.src x.p.txn k) s fun t => t = s)))

/-- DMA_TRANSLATE and ATS_TRANSLATION_REQUEST (R481, R482, R493, R496, R513, R516 to R518, R520): a DMA is refused in BLOCK mode; in SOFT mode only a loaded entry
serves it, and a miss is stalled; in HW mode a cached binding and leaf serve it, and a binding record not cached is read first; a stream that
may not use ATS gets no permission.

WALK_READ_RETURN and AD_UPDATE_RETURN (R483, R485 to R489, R492, R496): the binding record of a BYPASS stream makes its DMA ready, a bad record faults; a
table entry leads to the read of the next one; an entry not valid, poisoned, or without the permission faults; a leaf that grants makes the DMA ready and is
cached; a leaf that needs A or D is updated by one FarAtomic, and walked again where it changed. -/
def Obligations.DmaTranslation : Prop :=
  (∀ (s : State) (who rid va acc : Nat) (ro : Bool) (data : LineData) (mask : ByteMask) (op : Nat) (ep : Bool), IxuIdle s → s.agents = [] → s.dmas = [] →
    who < 6 → s.pageOff (pgPCIE who) = false → acc < 3 → rid < 0x10000 →
    let c := Instr.dmaTranslate who rid va acc ro data mask op false ep
    let id := s.dmaSeq
    (s.get pgIXU Fld.IXU_CTL_MODE = 0 → Answers c s fun t =>
      Tab.get? id t.dmas = none ∧ t.flag pgIXU Fld.IXU_STAT_BLOCKED = true ∧ (acc ≠ 1 → ∃ a, t.dmaAns = some a ∧ a.rid = rid ∧ a.status = 2) ∧
      (s.ixu.blockNoted = true → t.recs = s.recs) ∧
      (s.ixu.blockNoted = false → s.stormed (srcWide 7) = false → ∃ r, t.recs = s.recs ++ [r] ∧ r.typ = 0x0F ∧ r.sub = 2)) ∧
    (s.get pgIXU Fld.IXU_CTL_MODE = 1 →
      (∀ x, s.ixu.loaded = [x] → x.stream = some rid → x.va ≤ va → va < x.va + 2 ^ (12 + 9 * x.size) → x.r = true → x.w = true →
        Answers c s fun t => DmaReady id (x.pa + (va - x.va)) t ∧ t.net = s.net) ∧
      (s.ixu.loaded = [] → s.stormed (srcWide 4) = false → Answers c s fun t =>
        (∃ d, Tab.get? id t.dmas = some d ∧ d.st = DmaSt.stalled s.time) ∧ t.flag pgIXU Fld.IXU_STAT_SOFT_MISS = true ∧
        t.get pgIXU Fld.SOFT_MISS_INFO_PEND = 1 ∧ t.get pgIXU Fld.SOFT_MISS_INFO_STREAM = rid ∧ srcWide 4 ∈ t.raised ∧
        ∃ r, t.recs = s.recs ++ [r] ∧ r.typ = 0x0F ∧ r.sub = 3)) ∧
    (s.get pgIXU Fld.IXU_CTL_MODE = 2 →
      (∀ b, s.ixu.binds = [(rid, b)] → bindOk b = true → bindMode b = 1 → va < 2 ^ 52 → Answers c s fun t => DmaReady id va t ∧ t.net = s.net) ∧
      (∀ b x, s.ixu.binds = [(rid, b)] → bindOk b = true → bindMode b = 2 → s.ixu.tlb = [x] → x.vmid = bindVmid b → x.space = bindSpace b →
        x.va ≤ va → va < x.va + 2 ^ (12 + 9 * x.size) → x.r = true → x.w = true → x.u = true →
        Answers c s fun t => DmaReady id (x.pa + (va - x.va)) t ∧ t.net = s.net) ∧
      (s.ixu.binds = [] → rid < 2 ^ s.get pgIXU (Fld.BIND_TAB_LO_LOG2 0) →
        let pa := s.pageAddr pgIXU (Reg.BIND_TAB_LO 0) (Reg.BIND_TAB_HI 0) + 32 * rid
        isMemRange pa = true → Answers c s fun t => ReadsLine s t pa ∧ (∃ w, Tab.get? id t.ixu.walks = some w ∧ w.wait = .binding)) ∧
      (2 ^ s.get pgIXU (Fld.BIND_TAB_LO_LOG2 0) ≤ rid → s.flag pgIXU Fld.FQ_BASE_LO_EN = false → s.ixu.binds = [] → Answers c s fun t =>
        Tab.get? id t.dmas = none ∧ t.net = s.net ∧
        t.get pgIXU Fld.FQ_OVF_CNT_COUNT = min (s.get pgIXU Fld.FQ_OVF_CNT_COUNT + 1) (2 ^ 32 - 1) ∧ t.flag pgIXU Fld.IXU_STAT_FQ_OVF = true)) ∧
    ((s.get pgIXU Fld.IXU_CTL_MODE = 1 ∨ s.get pgIXU Fld.IXU_CTL_MODE = 2 ∧ ∃ b, s.ixu.binds = [(rid, b)] ∧ bindOk b = true ∧ bindAts b = false) →
      Answers (.atsTranslationRequest who rid va) s fun t =>
        Tab.get? id t.dmas = none ∧ ∃ a, t.dmaAns = some a ∧ a.rid = rid ∧ a.r = false ∧ a.w = false)) ∧
  (∀ (s : State) (p : Pkt) (id : Nat) (d : Dma) (w : Walk), WalkWaits s p id d w → p.last = true →
    (w.wait = .binding → ∀ bp, s.bindAddr d.stream = some bp → p.psn = false →
      let b := lineField (s.lineTaken p).1 (bp % 64) 32
      (bindOk b = true → bindMode b = 1 → d.translated = false → d.acc ≠ 3 → d.va < 2 ^ 52 → w.keep = true → s.ixu.binds = [] →
        Answers (.walkReadReturn p) s fun t => DmaReady id d.va t ∧ t.ixu.binds = [(d.stream, b)]) ∧
      (bindOk b = false → Answers (.walkReadReturn p) s fun t => DmaFaults id d s t ∧ t.ixu.binds = s.ixu.binds) ∧
      (bindOk b = true → bindMode b = 2 → d.translated = false → d.acc ≠ 3 → d.va < 2 ^ (39 + 9 * bindS1Va b) → s.ixu.tlb = [] → s.ixu.walkc = [] →
        let e := bindS1Root b + 8 * bits d.va (12 + 9 * (2 + bindS1Va b)) 9
        isMemRange e = true → Answers (.walkReadReturn p) s fun t => ReadsLine (s.consume p) t e)) ∧
    (∀ pa, w.wait = .entry pa → bindMode w.bind = 2 → w.s2 = none → p.psn = false →
      let e := lineField (s.lineTaken p).1 (pa % 64) 8
      let nonzero := bits e 52 7 = 0 ∧ bitN e 63 = false
      (bitN e 0 = false → Answers (.walkReadReturn p) s fun t => DmaFaults id d s t ∧ t.ixu.tlb = s.ixu.tlb) ∧
      (bitN e 0 = true → nonzero → bitN e 1 = true → 1 ≤ w.level →
        let next := bits e 12 40 * 4096 + 8 * bits d.va (12 + 9 * (w.level - 1)) 9
        isMemRange next = true → Answers (.walkReadReturn p) s fun t => ReadsLine (s.consume p) t next ∧
          ∃ w', Tab.get? id t.ixu.walks = some w' ∧ w'.wait = .entry next ∧ w'.level = w.level - 1) ∧
      (bitN e 0 = true → nonzero → bitN e 1 = false → w.level = 0 → bits e 9 3 < 3 → w.leaf1 = none → w.leaf2 = none →
        (bitN e 2 = false → d.acc = 0 → Answers (.walkReadReturn p) s fun t => DmaFaults id d s t ∧ t.ixu.tlb = s.ixu.tlb) ∧
        (bitN e 5 = true → bitN e 2 = true → bitN e 7 = true → d.acc = 0 → w.keep = true → s.ixu.tlb = [] →
          Answers (.walkReadReturn p) s fun t => DmaReady id (bits e 12 40 * 4096 + d.va % 4096) t ∧ ∃ x, t.ixu.tlb = [x] ∧
            x.r = true ∧ x.w = (bitN e 3 && bitN e 8) ∧ x.va = d.va / 4096 * 4096 ∧ x.g = bitN e 6) ∧
        (bitN e 5 = true → bitN e 2 = true → bitN e 7 = false → d.acc = 0 → bindHwad w.bind = true → Answers (.walkReadReturn p) s fun t =>
          ∃ q, Sends (s.consume p) t [q] ∧ q.op = 0x07 ∧ q.dst = nodeHome (s.home pa) ∧ q.addr = BitVec.ofNat 46 (pa / 64) ∧
            q.size = (if pa % 64 < 32 then 2 else 3)) ∧
        (bitN e 5 = true → bitN e 2 = true → bitN e 7 = false → d.acc = 0 → bindHwad w.bind = false →
          Answers (.walkReadReturn p) s (DmaFaults id d s)))) ∧
    (∀ pa, w.wait = .entry pa → p.psn = true → Answers (.walkReadReturn p) s fun t => DmaFaults id d s t ∧ t.ixu.tlb = s.ixu.tlb) ∧
    (∀ pa old new l, w.wait = .update pa old new false → bindMode w.bind = 2 → w.leaf1 = some l → w.leaf2 = none → p.psn = false →
      (lineField (s.lineTaken p).1 (pa % 64) 8 = old → w.keep = false → d.acc = 0 → d.translated = false → l.level ≤ 2 → Answers (.adUpdateReturn p) s
        (DmaReady id (bits new 12 40 * 4096 + d.va % 2 ^ (12 + 9 * l.level)))) ∧
      (lineField (s.lineTaken p).1 (pa % 64) 8 ≠ old → w.fails = 3 → Answers (.adUpdateReturn p) s (DmaFaults id d s)) ∧
      (lineField (s.lineTaken p).1 (pa % 64) 8 ≠ old → w.fails < 3 → d.va < 2 ^ (39 + 9 * bindS1Va w.bind) →
        let e := bindS1Root w.bind + 8 * bits d.va (12 + 9 * (2 + bindS1Va w.bind)) 9
        isMemRange e = true → Answers (.adUpdateReturn p) s fun t => ReadsLine (s.consume p) t e ∧
          ∃ w', Tab.get? id t.ixu.walks = some w' ∧ w'.fails = w.fails + 1)))

/-- The IXU's queues (R495, R501 to R503): a new CQ_TAIL makes the IXU read the command at CQ_HEAD; a bad one halts the queue, RESUME reads it again; an
invalidation removes what R500 says, goes to the network engine and advances CQ_HEAD; a SYNC with nothing to wait for completes; a fault record's Cmp
advances FQ_TAIL.

CQ_FETCH and FAULT_RECORD_CMP (R495, R501, R502): the command read is taken for execution, or halts the queue with CQ_HEAD at it, CQ_ERR and a
record; a Cmp advances FQ_TAIL, and IXU_FAULT fires when the queue was empty.

ATS invalidations and SOFT mode (R514, R518, R519): a completion ends its invalidation; at TO_MS the stream is blocked, ATS_TO set and recorded; LOAD
installs the entry of the LOAD registers, or sets FULL; INV_ALL removes all; a stalled DMA faults at 1 ms. -/
def Obligations.IxuCommands : Prop :=
  (∀ (s : State), IxuIdle s → s.agents = [] →
    let head := s.get pgIXU Fld.CQ_HEAD_INDEX
    let pa := s.pageAddr pgIXU Reg.CQ_BASE_LO Reg.CQ_BASE_HI + 16 * head
    (s.flag pgIXU Fld.IXU_STAT_CQ_HALT = false → s.ixu.cqBusy = false → s.ixu.cqCmd = none →
      (∀ v, v < 0x10000 → v ≠ head → Answers (.cqTailWrite v) s fun t => t.get pgIXU Fld.CQ_TAIL_INDEX = v ∧ ReadsLine s t pa ∧ t.ixu.cqBusy = true)) ∧
    (s.flag pgIXU Fld.IXU_STAT_CQ_HALT = true → s.ixu.cqBusy = false → s.ixu.cqCmd = none → head ≠ s.get pgIXU Fld.CQ_TAIL_INDEX →
      Answers .resume s fun t => t.flag pgIXU Fld.IXU_STAT_CQ_HALT = false ∧ t.get pgIXU Fld.CQ_HEAD_INDEX = head ∧ ReadsLine s t pa) ∧
    (∀ c op cmd, s.ixu.cqCmd = some c → bits c 0 4 = op → s.ixu.cqBusy = false → s.pageOff pgNE = false → s.flag pgIXU Fld.IXU_STAT_CQ_HALT = false →
      (op, cmd) ∈ [(1, Instr.invSpace), (2, .invVaRange), (3, .invVmid), (4, .invWalk), (5, .invBind), (7, .ixuInvAll)] →
      (head + 1) % 2 ^ s.get pgIXU Fld.CQ_BASE_LO_LOG2 = s.get pgIXU Fld.CQ_TAIL_INDEX → s.get pgIXU Fld.CQ_TAIL_INDEX < 0x10000 → c < 2 ^ 128 →
      Answers cmd s fun t => t.ixu.tlb = s.ixu.tlb.filter (fun x => !r500 c x) ∧ t.ixu.loaded = s.ixu.loaded.filter (fun x => !r500 c x) ∧
        t.get pgIXU Fld.CQ_HEAD_INDEX = s.get pgIXU Fld.CQ_TAIL_INDEX ∧ t.ixu.cqCmd = none ∧
        (op = 7 → t.ixu.binds = [] ∧ t.ixu.walkc = []) ∧
        ∃ q, Sends s t [q] ∧ q.op = 0x24 ∧ q.src = nodeIXU ∧ q.dst = nodeNE ∧ lineField q.data 0 16 = c ∧ t.ixu.neOut = s.ixu.neOut ++ [q.txn.toNat]) ∧
    (∀ c, s.ixu.cqCmd = some c → bits c 0 4 = 6 → s.ixu.syncW = false → s.ixu.neOut = [] → s.ixu.ats = [] → (∀ e ∈ s.dmas, e.2.stale = false) →
      s.ixu.cqBusy = false → (head + 1) % 2 ^ s.get pgIXU Fld.CQ_BASE_LO_LOG2 = s.get pgIXU Fld.CQ_TAIL_INDEX → s.get pgIXU Fld.CQ_TAIL_INDEX < 0x10000 →
      (bitN c 6 = false → Answers .ixuSync s fun t => t.get pgIXU Fld.CQ_HEAD_INDEX = s.get pgIXU Fld.CQ_TAIL_INDEX ∧ t.net = s.net ∧
        t.raised = s.raised ++ (if bitN c 5 then [srcWide 3] else [])) ∧
      (bitN c 6 = true → isMemRange (bits c 66 50 * 4) = true → Answers .ixuSync s fun t => t.get pgIXU Fld.CQ_HEAD_INDEX = head ∧
        ∃ q, Sends s t [q] ∧ q.op = 0x06 ∧ q.addr = BitVec.ofNat 46 (bits c 66 50 * 4 / 64) ∧ q.mask = maskRun (bits c 66 50 * 4 % 64) 4 ∧
          lineField q.data (bits c 66 50 * 4 % 64) 4 = bits c 32 32)) ∧
    (∀ c n, s.ixu.cqCmd = some c → bits c 0 4 = 6 → s.ixu.syncW = false → s.ixu.neOut = [n] → s.ixu.ats = [] → Answers .ixuSync s fun t =>
      t.net = s.net ∧ t.get pgIXU Fld.CQ_HEAD_INDEX = head ∧ t.ixu.cqCmd = some c)) ∧
  (∀ (s : State) (p a : Pkt), IxuIdle s → s.arrived p = true → p.last = true → p.dst = nodeIXU →
    (s.agents = [(State.agentKey nodeIXU p.txn.toNat, { p := a, use := .cqRead })] → s.ixu.cqBusy = true → s.ixu.cqCmd = none →
      let pa := s.pageAddr pgIXU Reg.CQ_BASE_LO Reg.CQ_BASE_HI + 16 * s.get pgIXU Fld.CQ_HEAD_INDEX
      let c := lineField (s.lineTaken p).1 (pa % 64) 16
      (r499 c → p.psn = false → Answers (.cqFetch p) s fun t => t.ixu.cqCmd = some c ∧ t.ixu.cqBusy = false ∧ t.agents = [] ∧ t.regs = s.regs) ∧
      (invWellFormed c = false → p.psn = false → s.stormed (srcWide 5) = false → Answers (.cqFetch p) s fun t =>
        t.ixu.cqCmd = none ∧ t.flag pgIXU Fld.IXU_STAT_CQ_HALT = true ∧ t.flag pgIXU Fld.IXU_STAT_CQ_ERR = true ∧ t.get pgIXU Fld.CQ_ERR_CAUSE = 1 ∧
        t.get pgIXU Fld.CQ_HEAD_INDEX = s.get pgIXU Fld.CQ_HEAD_INDEX ∧ srcWide 5 ∈ t.raised ∧ ∃ r, t.recs = s.recs ++ [r] ∧ r.typ = 0x0F)) ∧
    (s.agents = [(State.agentKey nodeIXU p.txn.toNat, { p := a, use := .fault })] → s.ixu.fqBusy = true → s.ixu.faults = [] →
      4 ≤ s.get pgIXU Fld.FQ_BASE_LO_LOG2 → s.get pgIXU Fld.FQ_BASE_LO_LOG2 ≤ 16 → Answers (.faultRecordCmp p) s fun t =>
        t.get pgIXU Fld.FQ_TAIL_INDEX = (s.get pgIXU Fld.FQ_TAIL_INDEX + 1) % 2 ^ s.get pgIXU Fld.FQ_BASE_LO_LOG2 ∧ t.ixu.fqBusy = false ∧ t.agents = [] ∧
        (s.get pgIXU Fld.FQ_TAIL_INDEX = s.get pgIXU Fld.FQ_HEAD_INDEX → t.raised = s.raised ++ [srcWide 2]) ∧
        (s.get pgIXU Fld.FQ_TAIL_INDEX ≠ s.get pgIXU Fld.FQ_HEAD_INDEX → t.raised = s.raised))) ∧
  (∀ (s : State), IxuIdle s → s.agents = [] →
    (∀ a, s.ixu.ats = [a] →
      (Answers (.atsInvComplete a.id) s fun t => t.ixu.ats = [] ∧ t.ixu.blocked = s.ixu.blocked ∧ t.regs = s.regs ∧ t.net = s.net) ∧
      (a.since + 1000000 * s.get pgIXU Fld.ATS_CFG_TO_MS ≤ s.time → s.stormed (srcWide 6) = false → Answers (.atsInvTimeout a.id) s fun t =>
        t.ixu.ats = [] ∧ a.stream ∈ t.ixu.blocked ∧ t.flag pgIXU Fld.IXU_STAT_ATS_TO = true ∧ t.raised = s.raised ++ [srcWide 6] ∧
        ∃ r, t.recs = s.recs ++ [r] ∧ r.typ = 0x0F ∧ r.sub = 1) ∧
      (s.time < a.since + 1000000 * s.get pgIXU Fld.ATS_CFG_TO_MS → Answers (.atsInvTimeout a.id) s fun t => t = s)) ∧
    (∀ d since, s.dmas = [(0, d)] → d.st = .stalled since → d.spec = false → d.who < 6 → s.stormed (srcWide 4) = false →
      (since + 1000000 ≤ s.time → Answers (.softMissTimeout 0) s fun t => DmaFaults 0 d s t ∧ t.get pgIXU Fld.SOFT_MISS_INFO_PEND = 0 ∧
        ∃ r, t.recs = s.recs ++ [r] ∧ r.typ = 0x0F ∧ r.sub = 4) ∧
      (s.time < since + 1000000 → Answers (.softMissTimeout 0) s fun t => t = s)) ∧
    (s.dmas = [] → s.ixu.loaded.length < 8192 → s.get pgIXU Fld.LOAD_PA_LO_SIZE = 0 →
      (∀ x ∈ s.ixu.loaded, x.stream ≠ some (s.get pgIXU Fld.LOAD_STREAM_STREAM)) → Answers .load s fun t =>
        t.get pgIXU Fld.LOAD_STAT_COUNT = s.ixu.loaded.length + 1 ∧ ∃ x, t.ixu.loaded = s.ixu.loaded ++ [x] ∧
          x.stream = some (s.get pgIXU Fld.LOAD_STREAM_STREAM) ∧
          x.va = s.get pgIXU Fld.LOAD_VA_LO_VA_LO * 4096 + s.get pgIXU Fld.LOAD_VA_HI_VA_HI * 2 ^ 32 ∧
          x.pa = s.get pgIXU Fld.LOAD_PA_LO_PA_LO * 4096 + s.get pgIXU Fld.LOAD_PA_HI_PA_HI * 2 ^ 32 ∧
          x.r = s.flag pgIXU Fld.LOAD_PA_LO_R ∧ x.w = s.flag pgIXU Fld.LOAD_PA_LO_W) ∧
    (8192 ≤ s.ixu.loaded.length → Answers .load s fun t => t.flag pgIXU Fld.LOAD_STAT_FULL = true ∧ t.ixu.loaded = s.ixu.loaded) ∧
    (Answers .loadInvAll s fun t => t.ixu.loaded = [] ∧ t.get pgIXU Fld.LOAD_STAT_COUNT = 0 ∧ t.net = s.net))

/-! ### Optics and Ember modules (R527 to R542) -/

/-- Verification of an Ember module (R535, R536, R542): 100 ms after it is present its ROM is read and checked in the order of the table, the
first failing check giving the result and one record: form, vendor, the two signatures (of the registry over the vendor's key, of the vendor over
the block), model; a challenge signed with the module's key in time makes it VERIFIED, and LASER_EN follows READY.

Faults, removal and the polls of an Ember module (R537 to R540, R542, R645): a filtered fault or a removal without release puts every channel at
fault; what the status map shows is mirrored; HOURS that pass 90% of RATED_HOURS warn once; a channel after 1 s at nominal level with high BIAS or
low POWER is at end of life; when the fault input clears, the channels that the map shows are at fault. -/
def Obligations.EmberModules : Prop :=
  (∀ (s : State) (e : Nat), Running s → e < 4 →
    let pg := pgEMB e
    (s.flag pg Fld.EMB_STAT_PRESENT = false → Answers (.emberPresentAssert e) s fun t =>
      t.flag pg Fld.EMB_STAT_PRESENT = true ∧ (t.embAt e).since = some s.time ∧ OnlyPage pg s t) ∧
    (∀ t0 rom ack registered, (s.embAt e).since = some t0 → s.get pg Fld.EMB_STAT_RESULT = 0 → s.smith.running = true →
      (s.time < t0 + 100000000 → Answers (.emberInsert e rom ack registered) s fun t => t = s) ∧
      (t0 + 100000000 ≤ s.time →
        let refused := registered = false ∨ leAt rom 4 2 = 0 ∨ leAt rom 4 2 = 0xFFFF ∨
          s.trust.revoked (leAt rom 4 2) ((rom.drop 160).take 96) ((rom.drop 24).take 8) = true
        let certs := certsOk (s.trust.root.map (·.toNat)) (rom.map (·.toNat))
        Answers (.emberInsert e rom ack registered) s fun t =>
        t.flag pg Fld.EMB_STAT_INSERT = true ∧ t.flag pg Fld.EMB_STAT_RELEASED = false ∧ OnlyPage pg s t ∧
        (∀ i, i < 128 → t.get pg (Fld.EMB_ROM_BYTES i) = leAt rom (4 * i) 4) ∧
        (ack = false → Refused e 3 s t) ∧
        (ack = true → ¬ romFormOk rom → Refused e 4 s t) ∧
        (ack = true → romFormOk rom → refused → Refused e 5 s t) ∧
        (ack = true → romFormOk rom → ¬ refused →
          (certs = false → Refused e 6 s t) ∧
          (certs = true → ¬ romModelOk rom → Refused e 7 s t) ∧
          (certs = true → romModelOk rom → t.get pg Fld.EMB_STAT_RESULT = 1 ∧ (t.embAt e).chal = some s.time ∧ t.recs = s.recs)))) ∧
    (∀ t0 sig ready,
      let part := fun off n => (((s.embAt e).rom.drop off).take n).map (·.toNat)
      let ok := ecdsaOk (part 64 96) (sig.map (·.toNat)) ((bytesOf (s.embAt e).nonce 48).map (·.toNat) ++ part 24 8)
      (s.embAt e).chal = some t0 → s.smith.running = true → s.flag pg Fld.EMB_STAT_PRESENT = true →
      s.flag pg Fld.EMB_STAT_RELEASED = false →
      (ok = true → s.time ≤ t0 + 200000000 → Answers (.emberChallengeDone e sig ready) s fun t =>
        t.get pg Fld.EMB_STAT_RESULT = 2 ∧ (t.embAt e).chal = none ∧
        t.flag pg Fld.EMB_STAT_LIT = (ready && s.domState (40 + e / 2) == 2)) ∧
      ((ok = false ∨ t0 + 200000000 < s.time) → Answers (.emberChallengeDone e sig ready) s fun t => Refused e 8 s t ∧ OnlyPage pg s t))) ∧
  (∀ (s : State) (e : Nat), Running s → e < 4 →
    let pg := pgEMB e
    (s.pinMayAssert (pinEmb e) = true → Answers (.emberFault e) s fun t =>
      t.get pg Fld.EMB_CHAN_STAT_CH_FAULT = 0xFF ∧ t.flag pg Fld.EMB_STAT_FAULT = true ∧ srcEMB e 2 ∈ t.raised ∧ (t.pin (pinEmb e)).filt = true) ∧
    (∀ chFault, chFault < 256 → s.pinMayDeassert (pinEmb e) = true → Answers (.emberFaultClear e chFault) s fun t =>
      t.get pg Fld.EMB_CHAN_STAT_CH_FAULT = chFault ∧ (t.pin (pinEmb e)).filt = false) ∧
    (s.flag pg Fld.EMB_STAT_PRESENT = true → Answers (.emberRemove e) s fun t =>
      t.flag pg Fld.EMB_STAT_PRESENT = false ∧ t.get pg Fld.EMB_STAT_RESULT = 0 ∧ t.flag pg Fld.EMB_STAT_LIT = false ∧
      t.flag pg Fld.EMB_STAT_REMOVE = true ∧ (∀ i, i < 128 → t.get pg (Fld.EMB_ROM_BYTES i) = 0) ∧
      (s.flag pg Fld.EMB_STAT_RELEASED = false → t.get pg Fld.EMB_CHAN_STAT_CH_FAULT = 0xFF)) ∧
    (∀ ready fault chFault bias power hours, s.smith.running = true → s.get pg Fld.EMB_STAT_RESULT = 2 → chFault < 256 →
      (∀ x ∈ bias ++ power, x < 2 ^ 16) → (∀ x ∈ hours, x < 2 ^ 24) → hours ≠ [] → hours.length ≤ 8 → leAt (s.embAt e).rom 12 4 ≠ 0 →
      Answers (.emberPoll e ready fault chFault bias power hours) s fun t =>
        (∀ k, k < 8 → t.get pg (Fld.EMB_CHAN_BIAS k) = nthD bias k 0 ∧ t.get pg (Fld.EMB_CHAN_POWER k) = nthD power k 0 ∧
          t.get pg (Fld.EMB_CHAN_HOURS_HOURS k) = nthD hours k 0) ∧
        (∀ h ∈ hours, h ≤ t.get pg Fld.EMB_LIFE_HOURS) ∧ t.get pg Fld.EMB_LIFE_HOURS ∈ hours ∧
        t.get pg Fld.EMB_CHAN_STAT_CH_FAULT = (if fault || (s.pin (pinEmb e)).filt then 0xFF else chFault) ∧
        (10 * s.get pg Fld.EMB_LIFE_HOURS < 9 * leAt (s.embAt e).rom 12 4 → 9 * leAt (s.embAt e).rom 12 4 ≤ 10 * t.get pg Fld.EMB_LIFE_HOURS →
          t.flag pg Fld.EMB_STAT_LIFE_WARN = true ∧ srcEMB e 4 ∈ t.raised ∧
          (s.stormed (srcEMB e 4) = false → ∃ r ∈ t.recs, r.typ = 0x10 ∧ r.sub = 1 ∧ r.words = [e])) ∧
        (∀ k, k < 8 → bitN (t.get pg Fld.EMB_CHAN_STAT_CH_EOL) k = (bitN (s.get pg Fld.EMB_CHAN_STAT_CH_EOL) k ||
          (match Tab.get? k (s.embAt e).steady with
           | some t0 => decide (t0 + 1000000000 ≤ s.time) && (decide (13 * leAt (s.embAt e).rom (32 + 2 * k) 2 ≤ 10 * nthD bias k 0) ||
               decide (nthD power k 0 < leAt (s.embAt e).rom (48 + 2 * k) 2))
           | none => false)))))

/-- Lanes (R529 to R531): when the module that feeds a lane has a fault, the lane moves to the partner's channel where that is healthy, and else goes
dark; LANE_APPLY moves the lanes of its mask that are not fed by their preferred, healthy channel; a move ends in the switch of the selector. -/
def Obligations.LaneMoves : Prop :=
  (∀ (s : State) (e k : Nat), Running s → s.smith.running = true → LaneOf s e k → s.pinMayAssert (pinEmb e) = true →
    (s.chanHealthy (State.emPartner e) k = true → Answers (.emberFault e) s fun t =>
      Tab.get? (8 * (e / 2) + k) t.lanes = some (State.emPartner e, 0) ∧ t.laneFed (e / 2) k = false ∧
      bitN (t.get (pgOPT (e / 2)) Fld.LANE_SRC_DARK) k = bitN (s.get (pgOPT (e / 2)) Fld.LANE_SRC_DARK) k) ∧
    (s.chanHealthy (State.emPartner e) k = false → Answers (.emberFault e) s fun t =>
      Tab.get? (8 * (e / 2) + k) t.lanes = none ∧ t.laneFed (e / 2) k = false ∧
      bitN (t.get (pgOPT (e / 2)) Fld.LANE_SRC_DARK) k = true)) ∧
  (∀ (s : State) (o k mask : Nat), Running s → o < 2 → k < 8 → s.pageOff (pgOPT o) = false → Answers (.laneApply o mask) s fun t =>
    (bitN mask k = true → s.laneSrc o k ≠ s.lanePref o k → s.laneInUse o k = true → s.chanHealthy (s.lanePref o k) k = true →
      Tab.get? (8 * o + k) t.lanes = some (s.lanePref o k, 2)) ∧
    (bitN mask k = false ∨ s.laneSrc o k = s.lanePref o k ∨ s.chanHealthy (s.lanePref o k) k = false →
      Tab.get? (8 * o + k) t.lanes = Tab.get? (8 * o + k) s.lanes) ∧ t = { s with lanes := t.lanes }) ∧
  (∀ (s : State) (o k e why : Nat), Running s → s.smith.running = true → s.smith.op = none → o < 2 → k < 8 → e / 2 = o → e < 4 →
    s.lanes = [(8 * o + k, (e, why))] → s.laneInUse o k = true → s.chanUsable e k = true →
    (∀ j, j < 8 → j ≠ k → s.laneInUse o j = true → s.laneFed o j = true ∧ s.chanUsable (s.laneSrc o j) j = true) → Answers (.laneSwitch o k) s fun t =>
      t.laneSrc o k = e ∧ t.laneFed o k = true ∧ Tab.get? (8 * o + k) t.lanes = none ∧
      bitN (t.get (pgOPT o) Fld.LANE_SRC_DARK) k = false ∧ bitN (t.get (pgOPT o) Fld.LANE_SRC_DEGRADED) k = false ∧
      bitN (t.get (pgEMB e) Fld.EMB_CHAN_STAT_CH_USED) k = true ∧ SameMemory s t ∧
      (why = 0 → t.get (pgOPT o) Fld.FAILOVER_CNT_COUNT = min (s.get (pgOPT o) Fld.FAILOVER_CNT_COUNT + 1) (2 ^ 32 - 1) ∧
        t.flag (pgOPT o) Fld.OPT_STAT_FAILOVER = true ∧ srcOPT o 0 ∈ t.raised) ∧
      (why ≠ 0 → t.get (pgOPT o) Fld.FAILOVER_CNT_COUNT = s.get (pgOPT o) Fld.FAILOVER_CNT_COUNT ∧ t.raised = s.raised))

/-! ### The network engine: queue pairs, descriptors, commands (R575 to R611) -/

/-- Doorbells (R587, R591, R593, R595, R596): SQ_PI with an entry free makes the engine reserve a CQ entry and fetch the next descriptor; RQ_PI and CQ_CI
move their indices; an index out of reach puts the pair in QP error; a pair that does not exist is counted; within an FLR nothing happens.

COMPLETION_WRITE and DESCRIPTOR_FETCH (R585, R588 to R591, R595, R608): the oldest completion that waits is written, with the PHASE of its pass, to the
next CQ slot; a descriptor fetched joins the pair's operations, one that R585 does not allow completes with BADDESC, and a failed fetch puts the
function in its error state; a descriptor with a reserved opcode, too long an inline or a LEN above 2^31 is one that R585 does not allow; its
reserved bits are ignored (R11).

NOP, SEND, WRITE, READ, FADD, CSWAP and RAW (R548, R565, R572, R584 to R586, R588): a NOP completes at once, an operation joins an ACTIVE context of its
pair, its first packet ready or its payload being read; on another context it completes with STATE, CONN_ERR or BADDESC; a RAW frame is read, or, inline, goes
to the flow table; an operation with FENCE waits for an earlier READ. -/
def Obligations.QueuePairs : Prop :=
  (∀ (s : State) (f q v : Nat), NeReady s f → v < 0x10000 →
    (∀ t0, (s.fnAt f).flr = some t0 → ∀ c ∈ [Instr.sqPi f q v, .rqPi f q v, .cqCi f q v], Answers c s fun t => t = s) ∧
    ((s.fnAt f).flr = none → s.qp? f q = none → ∀ c ∈ [Instr.sqPi f q v, .rqPi f q v, .cqCi f q v], Answers c s fun t =>
      (t.fnAt f).dbDrop = min ((s.fnAt f).dbDrop + 1) 0xFFFFFFFF ∧ t.dmas = [] ∧ t.ne.qps = s.ne.qps ∧ t.regs = s.regs) ∧
    (∀ p, (s.fnAt f).flr = none → s.qp? f q = some p → p.err = false →
      (v = p.sqPi → Answers (.sqPi f q v) s fun t => t = s) ∧
      (v ≠ p.sqPi → (v + 0x10000 - p.sqCi) % 0x10000 ≤ 2 ^ p.sqLog → p.fetching = false → v ≠ p.sqCi → s.fnLive f = true →
        (State.cqFree p ≠ 0 → Answers (.sqPi f q v) s fun t =>
          t.qp? f q = some { p with sqPi := v, fetching := true, reserved := p.reserved + 1, sqCi := (p.sqCi + 1) % 0x10000 } ∧
          NeJobOf t (.sqFetch q p.sqCi) f 0 (p.sqBase + 64 * (p.sqCi % 2 ^ p.sqLog)) 64 ∧ SameMemory s t) ∧
        (State.cqFree p = 0 → Answers (.sqPi f q v) s fun t => t.qp? f q = some { p with sqPi := v } ∧ t.dmas = [])) ∧
      (2 ^ p.sqLog < (v + 0x10000 - p.sqCi) % 0x10000 → v ≠ p.sqPi → Answers (.sqPi f q v) s fun t =>
        (t.fnAt f).qpErr = true ∧ (∃ p', t.qp? f q = some p' ∧ p'.err = true ∧ p'.sqCi = p.sqPi ∧ p'.rqCi = p.rqPi) ∧ t.dmas = [] ∧ NeOnly s t) ∧
      (v ≠ p.rqPi → (v + 0x10000 - p.rqCi) % 0x10000 ≤ 2 ^ p.rqLog → Answers (.rqPi f q v) s fun t =>
        t.qp? f q = some { p with rqPi := v } ∧ t.dmas = [] ∧ t.regs = s.regs) ∧
      (2 ^ p.rqLog < (v + 0x10000 - p.rqCi) % 0x10000 → v ≠ p.rqPi → Answers (.rqPi f q v) s fun t => (t.fnAt f).qpErr = true) ∧
      ((p.cqPi + 0x10000 - v) % 0x10000 ≤ 2 ^ p.cqLog → p.sqPi = p.sqCi →
        (Answers (.cqCi f q v) s fun t => t.qp? f q = some { p with cqCi := v } ∧ t.dmas = []) ∧
        (v = p.cqPi → Answers (.cqCi f q (v + 0x10000)) s fun t => t.qp? f q = some { p with cqCi := v, arm := true } ∧ t.dmas = []) ∧
        (v ≠ p.cqPi → p.cqPi < 0x10000 → ∀ pa, MsixTo s f p.vec pa → Answers (.cqCi f q (v + 0x10000)) s fun t =>
          t.qp? f q = some { p with cqCi := v, arm := false } ∧ NeJobOf t .msix f 1 pa 4)) ∧
      (2 ^ p.cqLog < (p.cqPi + 0x10000 - v) % 0x10000 → Answers (.cqCi f q v) s fun t => (t.fnAt f).qpErr = true))) ∧
  ((∀ (s : State) (f q e : Nat) (rest : List Nat) (p : Qp), NeReady s f → s.fnLive f = true → s.qp? f q = some p → p.cpl = e :: rest →
    p.cplBusy = false → p.arm = false → p.cqBase % 32 = 0 → e < 2 ^ 255 → Answers (.completionWrite f q) s fun t =>
      let va := p.cqBase + 32 * (p.cqPi % 2 ^ p.cqLog)
      t.qp? f q = some { p with cpl := rest, cplBusy := true, cqPi := (p.cqPi + 1) % 0x10000, reserved := p.reserved - 1 } ∧
      NeJobOf t (.cplWrite q) f 1 va 32 ∧
      (∃ d, t.dmas = [(s.dmaSeq, d)] ∧ lineField d.data (va % 64) 32 = e + (if p.cqPi / 2 ^ p.cqLog % 2 = 0 then 2 ^ 255 else 0) ∧
        d.mask = maskRun (va % 64) 32) ∧ SameMemory s t) ∧
  (∀ (s : State) (pk : Pkt) (k id f q idx : Nat) (d : Dma) (j : NeJob) (p : Qp), NeAnswered s pk k id d j → j.kind = .sqFetch q idx → j.fn = f →
    j.off = 0 → d.rid = f → s.qp? f q = some p → p.sq = [] → p.sqPi = p.sqCi → p.err = false →
    let w := (s.lineTaken pk).1.toNat
    (pk.psn = false → State.descOk w = true → Answers (.descriptorFetch pk) s fun t =>
      t.qp? f q = some { p with fetching := false, sq := [{ idx := idx, code := bits w 0 8, cid := bits w 32 20, wrid := bits w 64 64
                                                            signal := bitN w 8, fence := bitN w 10, desc := w }] } ∧
      t.dmas = [] ∧ t.agents = [] ∧ t.ne.jobs = []) ∧
    (pk.psn = false → State.descOk w = false → Answers (.descriptorFetch pk) s fun t =>
      t.qp? f q = some { p with fetching := false, cpl := p.cpl ++ [State.cplEntry (bits w 64 64) 0 (bits w 32 20) idx (bits w 0 8) 11 false] }) ∧
    (pk.psn = true → (s.fnAt f).err = false → (s.fnAt f).msixEn = false → s.ctxsOf f = [] → Answers (.descriptorFetch pk) s fun t =>
      (t.fnAt f).err = true ∧ (t.fnAt f).cause = 1 ∧ srcNE 4 ∈ t.raised ∧
      (s.stormed (srcNE 4) = false → ∃ r ∈ t.recs, r.typ = 0x11 ∧ r.sub = 2))) ∧
  (∀ (d : Nat), d < 2 ^ 512 →
    (6 ≤ bits d 0 8 ∧ bits d 0 8 ≠ 8 ∨ 2 ^ 31 < bits d 192 32 ∨
      bitN d 9 = true ∧ (bits d 0 8 = 2 ∧ 8 < bits d 192 32 ∨ (bits d 0 8 = 1 ∨ bits d 0 8 = 8) ∧ 32 < bits d 192 32) → State.descOk d = false) ∧
    (bitN d 9 = false → bits d 192 32 ≤ 2 ^ 31 → (bits d 0 8 ≤ 3 ∨ bits d 0 8 = 8) →
      State.descOk d = true))) ∧
  ((∀ (s : State) (f q : Nat) (p : Qp) (e : SqOp), NeReady s f → s.fnLive f = true → s.qp? f q = some p → p.sq = [e] → e.started = false →
    e.status = none → e.bytes = 0 → p.sqPi = p.sqCi →
    let done := fun (st : Nat) (t : State) => ∃ p', t.qp? f q = some p' ∧ t.dmas = [] ∧ NeOnly s t ∧
      CompletesWith p (if e.signal || st != 0 then some (State.cplEntry e.wrid 0 e.cid e.idx e.code st false) else none) p'
    let d := e.desc
    let len := bits d 192 32
    (e.code = 0 → Answers (.nop f q) s (done 0)) ∧
    (∀ c n, (c, n) ∈ [(Instr.send f q, 1), (.write f q, 2), (.read f q, 3), (.fadd f q, 4), (.cswap f q, 5)] → e.code = n →
      ((s.ctxAt e.cid).st = 0 ∨ (s.ctxAt e.cid).fn ≠ f ∨ (s.ctxAt e.cid).qp ≠ q → Answers c s (done 11)) ∧
      ((s.ctxAt e.cid).fn = f → (s.ctxAt e.cid).qp = q →
        ((s.ctxAt e.cid).st = 4 → Answers c s (done 8)) ∧
        ((s.ctxAt e.cid).st = 1 ∨ (s.ctxAt e.cid).st = 3 → Answers c s (done 7)) ∧
        ((s.ctxAt e.cid).st = 2 → (s.ctxAt e.cid).ops = [] → (s.ctxAt e.cid).ready = none → (s.ctxAt e.cid).building = false →
          (s.ctxAt e.cid).unacked = [] → s.ne.onDie.length < 16384 → (bitN d 9 = true → n ≤ 2) → Answers c s fun t =>
            (∃ o, (t.ctxAt e.cid).ops = [o] ∧ o.code = n ∧ o.fn = f ∧ o.q = q ∧ o.idx = e.idx ∧ o.lva = bits d 128 64 ∧ o.len = len ∧
              o.key = bits d 224 32 ∧ o.rva = bits d 256 64 ∧ o.msn = (s.ctxAt e.cid).msn ∧
              ((t.ctxAt e.cid).msn = if n = 1 then ((s.ctxAt e.cid).msn + 1) % 2 ^ 32 else (s.ctxAt e.cid).msn) ∧
              (n ≤ 2 → bitN d 9 = false → 0 < len → (t.ctxAt e.cid).building = true ∧
                NeJobOf t (.payload e.cid o.id 0 (min s.mtu len)) f 0 o.lva (min s.mtu len)) ∧
              (3 ≤ n ∨ bitN d 9 = true ∨ len = 0 → t.dmas = [] ∧ ∃ pk, (t.ctxAt e.cid).ready = some (pk, o.id) ∧ pk.typ = 0 ∧ pk.op = n - 1 ∧
                bitN pk.flags 0 = true ∧ (n = 3 → pk.va = o.rva ∧ pk.key = o.key ∧ pk.len = len) ∧
                (4 ≤ n → pk.va = o.rva ∧ pk.key = o.key ∧ pk.operand = bits d 320 64) ∧ (n = 5 → pk.compare = bits d 384 64))) ∧
            (∃ p', t.qp? f q = some p' ∧ p'.sq = [{ e with started := true }]) ∧ SameMemory s t))) ∧
    (e.code = 8 → p.raw = false → Answers (.raw f q) s (done 11)) ∧
    (e.code = 8 → p.raw = true → bitN d 9 = false → 0 < len → Answers (.raw f q) s fun t => NeJobOf t (.rawPay q e.idx) f 0 (bits d 128 64) len) ∧
    (e.code = 8 → p.raw = true → bitN d 9 = true → s.flag pgNE Fld.FLOW_BASE_LO_EN = false → s.flag pgNE Fld.NE_CFG_EXC_EN = false →
      Answers (.raw f q) s fun t => done 0 t ∧ t.get pgNE Fld.FLOW_MISS_COUNT = min (s.get pgNE Fld.FLOW_MISS_COUNT + 1) (2 ^ 32 - 1))) ∧
  (∀ (s : State) (f q : Nat) (p : Qp) (x e : SqOp), NeReady s f → s.qp? f q = some p → p.sq = [x, e] → x.started = true → x.status = none →
    3 ≤ x.code → x.code ≤ 5 → e.started = false → e.status = none → e.fence = true →
    ∀ c ∈ [Instr.nop f q, .send f q, .write f q, .read f q, .fadd f q, .cswap f q, .raw f q], Answers c s fun t => t = s))

/-- The admin queue (R598, R599, R610): AQ_PI makes the engine read the next command; a write of a ring's base clears the indices, or is discarded with
ACC_ERR while a command runs or one is due.

QP_CREATE and QP_DESTROY (R583, R584, R599): the pair exists with the rings, vector and type of the arguments (their layout: log 33), or the command ends with
BADARG or BUSY; a pair to which no context is bound is gone.

WIN_SET, WIN_CLEAR and VF_CONFIG (R568, R571, R599, R600): the engine writes the window's entry with FUNC the issuer, or VALID 0, and keeps no cached copy; it
waits for operations that use the old entry, and refuses an index out of the function's range; VF_CONFIG gives a VF its resources, or ends with PERM, STATE or
BADARG. -/
def Obligations.EngineAdmin : Prop :=
  (∀ (s : State) (f v : Nat), NeReady s f → (s.fnAt f).flr = none → v < 2 ^ 32 →
    let x := s.fnAt f
    (x.cmd = none → x.aqBusy = false → s.fnLive f = true → v < 0x10000 →
      (v ≠ x.aqCi → Answers (.aqPi f v) s fun t =>
        t.fnAt f = { x with aqPi := v, aqBusy := true } ∧ NeJobOf t .aqFetch f 0 (x.aqBase + 64 * (x.aqCi % 2 ^ x.aqLog)) 64) ∧
      (v = x.aqCi → Answers (.aqPi f v) s fun t => t.fnAt f = { x with aqPi := v } ∧ t.dmas = [])) ∧
    (x.aqPi = x.aqCi → x.cmd = none → x.aqBusy = false →
      (4 ≤ v % 16 → v % 16 ≤ 12 →
        (Answers (.aqBaseWrite f false false v) s fun t => t.fnAt f =
          { x with aqBase := x.aqBase / 2 ^ 32 * 2 ^ 32 + bits v 12 20 * 4096, aqLog := v % 16, aqPi := 0, aqCi := 0, acqPi := 0, acqCi := 0 }) ∧
        (Answers (.aqBaseWrite f true false v) s fun t => t.fnAt f =
          { x with acqBase := x.acqBase / 2 ^ 32 * 2 ^ 32 + bits v 12 20 * 4096, acqLog := v % 16, aqPi := 0, aqCi := 0, acqPi := 0, acqCi := 0 })) ∧
      (Answers (.aqBaseWrite f false true v) s fun t => t.fnAt f =
        { x with aqBase := bits x.aqBase 0 32 + v % 2 ^ 25 * 2 ^ 32, aqPi := 0, aqCi := 0, acqPi := 0, acqCi := 0 }) ∧
      (Answers (.aqBaseWrite f true true v) s fun t => t.fnAt f =
        { x with acqBase := bits x.acqBase 0 32 + v % 2 ^ 25 * 2 ^ 32, aqPi := 0, aqCi := 0, acqPi := 0, acqCi := 0 })) ∧
    ((x.aqPi ≠ x.aqCi ∨ x.cmd ≠ none ∨ x.aqBusy = true) → ∀ acq hi, Answers (.aqBaseWrite f acq hi v) s fun t =>
      t.fnAt f = { x with accErr := true } ∧ t.regs = s.regs)) ∧
  (∀ (s : State) (f c : Nat), AdminRuns s f c →
    let q := bits c 32 32
    let arg := fun (off n : Nat) => bits c (8 * off) (8 * n)
    let ring := fun (off : Nat) => (arg off 8 / 16 * 16, arg off 1 % 16)
    let aligned := fun (b l n : Nat) => 4 ≤ l ∧ l ≤ 15 ∧ b % (n * 2 ^ l) = 0
    let bad := s.fnQps f ≤ q ∨ s.fnVecs f ≤ arg 48 2 ∨ ¬ aligned (ring 16).1 (ring 16).2 64 ∨ ¬ aligned (ring 24).1 (ring 24).2 64 ∨
      ¬ aligned (ring 32).1 (ring 32).2 32 ∨ 1 < arg 50 1 ∨ (bitN (arg 51 1) 1 = true ∧ f ≠ 0)
    (bits c 0 8 = 0x01 →
      (bad → Answers (.qpCreate f) s fun t => AdminEnds s t f c 2 0 ∧ t.ne.qps = s.ne.qps) ∧
      (¬ bad → s.qp? f q ≠ none → Answers (.qpCreate f) s fun t => AdminEnds s t f c 4 0 ∧ t.ne.qps = s.ne.qps) ∧
      (¬ bad → s.qp? f q = none → Answers (.qpCreate f) s fun t => AdminEnds s t f c 0 0 ∧ t.qp? f q = some
        { sqBase := (ring 16).1, sqLog := (ring 16).2, rqBase := (ring 24).1, rqLog := (ring 24).2, cqBase := (ring 32).1, cqLog := (ring 32).2
          dbr := arg 40 8, vec := arg 48 2, raw := arg 50 1 == 1, rawDefault := bitN (arg 51 1) 0, exc := bitN (arg 51 1) 1 })) ∧
    (∀ p, bits c 0 8 = 0x02 → s.qp? f q = some p →
      ((∃ e ∈ s.ne.ctxs, e.2.st ≠ 0 ∧ e.2.fn = f ∧ e.2.qp = q) → Answers (.qpDestroy f) s fun t => AdminEnds s t f c 4 0 ∧ t.qp? f q = some p) ∧
      ((∀ e ∈ s.ne.ctxs, e.2.st = 0 ∨ e.2.fn ≠ f ∨ e.2.qp ≠ q) → p.sq = [] → p.cpl = [] → p.sqPi = p.sqCi → p.rqPi = p.rqCi →
        p.sqPi < 0x10000 → p.rqPi < 0x10000 → Answers (.qpDestroy f) s fun t => AdminEnds s t f c 0 0 ∧ t.qp? f q = none))) ∧
  (∀ (s : State) (f c : Nat), AdminRuns s f c →
    let obj := bits c 32 32
    let arg := fun (off n : Nat) => bits c (8 * off) (8 * n)
    let va := s.pageAddr pgNE Reg.WIN_BASE_LO Reg.WIN_BASE_HI + 32 * obj
    (∀ k ∈ [(0x20, Instr.winSet f), (0x21, .winClear f)], bits c 0 8 = k.1 →
      (s.fnOwnsWin f obj = false → Answers k.2 s fun t => AdminEnds s t f c 7 0 ∧ t.ne.wins = s.ne.wins) ∧
      (s.fnOwnsWin f obj = true → (∃ e ∈ s.ne.rops, e.2.win = some obj) → Answers k.2 s fun t => t = s) ∧
      (s.fnOwnsWin f obj = true → (∀ e ∈ s.ne.rops, e.2.win ≠ some obj) → Answers k.2 s fun t =>
        Tab.get? obj t.ne.wins = none ∧ ∃ id j d, t.ne.jobs = [(id, j)] ∧ j.kind = .winWrite ∧ j.fn = f ∧ t.dmas = [(s.dmaSeq, d)] ∧ d.st = .ready ∧ d.pa = va ∧
          d.acc = 1 ∧ d.mask = maskRun (va % 64) 32 ∧
          lineField d.data (va % 64) 32 = (if k.1 = 0x20 then arg 16 8 + arg 24 8 * 2 ^ 64 + f * 2 ^ 128 + arg 32 2 * 2 ^ 144 +
            (arg 34 1 % 8 + 128) * 2 ^ 160 + arg 35 1 * 2 ^ 168 else 0))) ∧
    (bits c 0 8 = 0x30 →
      let others := s.vfCfgs.filter (·.1 != obj)
      let meets := fun (a n b m : Nat) => n ≠ 0 ∧ m ≠ 0 ∧ a < b + m ∧ b < a + n
      let bad := obj = 0 ∨ 1024 < obj ∨ 64 < arg 16 2 ∨ arg 24 2 = 0 ∨ 64 < arg 24 2 ∨ arg 20 4 < 1024 ∨ 32768 < arg 20 4 + arg 16 2 ∨
        arg 28 4 < 2048 ∨ 16384 < arg 28 4 + arg 24 2 ∨ s.winMax < arg 36 4 + arg 40 4 ∨
        s.ctxMax < arg 32 4 + (others.map (·.2.ctxQuota)).foldl (· + ·) 0 ∨
        ∃ e ∈ others, meets (arg 20 4) (arg 16 2) e.2.qpFirst e.2.qpCount ∨ meets (arg 28 4) (arg 24 2) e.2.vecFirst e.2.vecCount ∨
          meets (arg 36 4) (arg 40 4) e.2.winFirst e.2.winCount
      (f ≠ 0 → Answers (.vfConfig f) s fun t => AdminEnds s t f c 7 0) ∧
      (f = 0 → s.ne.vfEn = true → Answers (.vfConfig f) s fun t => AdminEnds s t f c 5 0) ∧
      (f = 0 → s.ne.vfEn = false → bad → Answers (.vfConfig f) s fun t => AdminEnds s t f c 2 0) ∧
      (f = 0 → s.ne.vfEn = false → ¬ bad → Answers (.vfConfig f) s fun t => AdminEnds s t f c 0 0 ∧ t.fnAt obj =
        { s.fnAt obj with configured := true, qpCount := arg 16 2, qpFirst := arg 20 4, vecCount := arg 24 2, vecFirst := arg 28 4, ctxQuota := arg 32 4
                          winFirst := arg 36 4, winCount := arg 40 4, mac := arg 44 6 })))

/-- Context commands (R564 to R566, R599): CREATE gives a FREE context to the pair, in INIT, within the quota; ACTIVATE takes INIT to ACTIVE with the parameter
block; MODIFY changes DSCP, rate, the inactive key and, with ROTATE, the phase; CLOSE takes ACTIVE to DRAIN; DESTROY frees a context in INIT or ERROR, its
GEN advanced; QUERY writes 64 bytes; any other state answers STATE, and a context of another function PERM. -/
def Obligations.ContextCommands : Prop :=
  (∀ (s : State) (f c : Nat), AdminRuns s f c → bits c 0 8 = 0x10 →
    let b := (s.fnAt f).blk
    let q := bits c 32 32
    let bad := s.qp? f q = none ∨ 16 ≤ leAt b 0 2 ∨ (leAt b 2 1 ≠ 4 ∧ leAt b 2 1 ≠ 6)
    (bad → Answers (.ctxCreate f) s fun t => AdminEnds s t f c 2 0 ∧ t.ne.ctxs = s.ne.ctxs) ∧
    (¬ bad → s.fnQuota f ≤ (s.ctxsOf f).length → Answers (.ctxCreate f) s fun t => AdminEnds s t f c 3 0 ∧ t.ne.ctxs = s.ne.ctxs) ∧
    (¬ bad → (s.ctxsOf f).length < s.fnQuota f → s.ne.ctxs.length < s.ctxMax → s.ctxMax ≤ 2 ^ 20 → s.ne.onDie.length < 16384 → (∀ i, (s.ctxAt i).gen < 4096) →
      Answers (.ctxCreate f) s fun t => ∃ i, i < s.ctxMax ∧ (s.ctxAt i).st = 0 ∧ AdminEnds s t f c 0 (i + (s.ctxAt i).gen * 2 ^ 20) ∧
        t.ctxAt i = { st := 1, gen := (s.ctxAt i).gen, fn := f, qp := q, parm := b } ∧ i ∈ t.ne.onDie ∧ ∀ j, j ≠ i → t.ctxAt j = s.ctxAt j)) ∧
  (∀ (s : State) (f c i : Nat), AdminRuns s f c → NamesCtx s f c i →
    let b := (s.fnAt f).blk
    let x := s.ctxAt i
    (bits c 0 8 = 0x11 →
      (x.st = 1 → Answers (.ctxActivate f) s fun t => AdminEnds s t f c 0 0 ∧ t.ctxAt i =
        { x with st := 2, parm := b, rcid := leAt b 48 4, psn := leAt b 52 4, apsn := leAt b 56 4, iv := 0, kph := false
                 rate := if leAt b 136 2 = 0 then s.lineRate (leAt b 0 2) else leAt b 136 2 }) ∧
      (x.st ≠ 1 → Answers (.ctxActivate f) s fun t => AdminEnds s t f c 5 0 ∧ t.ctxAt i = x)) ∧
    (bits c 0 8 = 0x12 → x.st ≠ 4 → b.length = 160 → x.parm.length = 160 → Answers (.ctxModify f) s fun t => AdminEnds s t f c 0 0 ∧
      ∃ y, t.ctxAt i = { x with parm := y, kph := if bitN (leAt b 60 1) 1 then !x.kph else x.kph, iv := if bitN (leAt b 60 1) 1 then 0 else x.iv
                                ivLow := !bitN (leAt b 60 1) 1 && x.ivLow } ∧
        y.length = 160 ∧ slice y 3 1 = slice b 3 1 ∧ slice y 136 2 = slice b 136 2 ∧ slice y 0 3 = slice x.parm 0 3 ∧ slice y 4 60 = slice x.parm 4 60 ∧
        (let k := if x.kph then 0 else 1
         slice y (64 + 32 * k) 32 = slice b (64 + 32 * k) 32 ∧ slice y (128 + 4 * k) 4 = slice b (128 + 4 * k) 4 ∧
         slice y (64 + 32 * (1 - k)) 32 = slice x.parm (64 + 32 * (1 - k)) 32 ∧ slice y (128 + 4 * (1 - k)) 4 = slice x.parm (128 + 4 * (1 - k)) 4)) ∧
    (bits c 0 8 = 0x13 → (x.st = 2 → Answers (.ctxClose f) s fun t => AdminEnds s t f c 0 0 ∧ t.ctxAt i = { x with st := 3 }) ∧
      (x.st ≠ 2 → Answers (.ctxClose f) s fun t => AdminEnds s t f c 5 0 ∧ t.ctxAt i = x)) ∧
    (bits c 0 8 = 0x14 → (x.st = 1 ∨ x.st = 4 → Answers (.ctxDestroy f) s fun t => AdminEnds s t f c 0 0 ∧ t.ctxAt i = { gen := (x.gen + 1) % 4096 }) ∧
      (x.st ≠ 1 → x.st ≠ 4 → Answers (.ctxDestroy f) s fun t => AdminEnds s t f c 5 0 ∧ t.ctxAt i = x)) ∧
    (bits c 0 8 = 0x15 → Answers (.ctxQuery f) s fun t => NeJobOf t .aqQuery f 1 (bits c 64 64) 64 ∧ t.ctxAt i = x)) ∧
  (∀ (s : State) (f c : Nat), AdminRuns s f c → (s.ctxAt (bits c 32 20)).st ≠ 0 → (s.ctxAt (bits c 32 20)).gen = bits c 52 12 →
    (s.ctxAt (bits c 32 20)).fn ≠ f → ∀ k ∈ [(0x11, Instr.ctxActivate f), (0x12, .ctxModify f), (0x13, .ctxClose f), (0x14, .ctxDestroy f), (0x15, .ctxQuery f)],
    bits c 0 8 = k.1 → Answers k.2 s fun t => AdminEnds s t f c 7 0 ∧ t.ne.ctxs = s.ne.ctxs) ∧
  (∀ (s : State) (f c : Nat), NeReady s f → (s.ctxAt c).st = 3 →
    ((s.ctxAt c).ops = [] → (s.ctxAt c).unacked = [] → Answers (.ctxDrainDone c) s fun t => t.ctxAt c = { gen := ((s.ctxAt c).gen + 1) % 4096 }) ∧
    ((s.ctxAt c).ops ≠ [] ∨ (s.ctxAt c).unacked ≠ [] → Answers (.ctxDrainDone c) s fun t => t = s))

/-- NE_INV (R551, R571, R574): a write of KIND WINDOW, FLOW_BUCKET or FLOW_ALL makes the engine hold no cached copy of what it names, BUSY until it completes;
a write while BUSY is ignored; it completes once no operation that was checked against the window is in progress.

Function-level reset and SR-IOV (R576, R578, R601 to R605): an FLR advances FGEN and puts every context of the function in ERROR; one in progress is joined; it
completes once no DMA of the function is in flight, with contexts FREE, pairs gone and registers reset; an FLR of PF0 clears VF Enable, and clearing VF Enable
starts an FLR of every VF.

Responses and timeouts of the engine's DMAs (R493, R573, R605, R607): a response under the FGEN of its issue serves its job; under another it is discarded and
counted; a device access that reaches DMA_TO has failed and is recorded; its TXN stays in use until a completion comes, which is counted (R172). -/
def Obligations.EngineUpkeep : Prop :=
  (∀ (s : State) (f : Nat), NeReady s f → s.pageOff pgNE = false →
    (∀ ix, ix < 2 ^ 24 → s.flag pgNE Fld.NE_INV_STAT_BUSY = true → ∀ c ∈ [Instr.window ix, .flowBucket ix, .flowAll], Answers c s fun t => t = s) ∧
    (∀ ix, ix < 2 ^ 24 → s.flag pgNE Fld.NE_INV_STAT_BUSY = false →
      (Answers (.window ix) s fun t => t.ne = { s.ne with inv := some (1, ix), wins := Tab.del ix s.ne.wins } ∧
        t.flag pgNE Fld.NE_INV_STAT_BUSY = true ∧ t.flag pgNE Fld.NE_INV_STAT_DONE = false ∧ NeOnly s t) ∧
      (Answers (.flowBucket ix) s fun t => t.ne = { s.ne with inv := some (2, ix), flows := Tab.del ix s.ne.flows } ∧
        t.flag pgNE Fld.NE_INV_STAT_BUSY = true ∧ t.flag pgNE Fld.NE_INV_STAT_DONE = false ∧ NeOnly s t) ∧
      (Answers .flowAll s fun t => t.ne = { s.ne with inv := some (3, 0), flows := [] } ∧
        t.flag pgNE Fld.NE_INV_STAT_BUSY = true ∧ t.flag pgNE Fld.NE_INV_STAT_DONE = false ∧ NeOnly s t)) ∧
    (∀ k ix, s.ne.inv = some (k, ix) →
      (k = 1 → (∃ e ∈ s.ne.rops, e.2.win = some ix) → Answers .neInvComplete s fun t => t = s) ∧
      ((k = 1 → ∀ e ∈ s.ne.rops, e.2.win ≠ some ix) → Answers .neInvComplete s fun t =>
        t.ne.inv = none ∧ t.flag pgNE Fld.NE_INV_STAT_BUSY = false ∧ t.flag pgNE Fld.NE_INV_STAT_DONE = true ∧
        (k = 1 → Tab.get? ix t.ne.wins = none) ∧ (k = 2 → Tab.get? ix t.ne.flows = none) ∧ (k = 3 → t.ne.flows = []) ∧ NeOnly s t))) ∧
  ((∀ (s : State) (f : Nat), NeReady s f → s.fnPresent f = true → (s.fnAt f).flr = none → f ≠ 0 → s.ne.winSet = [] → Answers (.flrStart f) s fun t =>
    (t.fnAt f).flr = some s.time ∧ (t.fnAt f).fgen = ((s.fnAt f).fgen + 1) % 256 ∧ t.dmas = [] ∧ (∀ c, (s.ctxAt c).fn = f → (s.ctxAt c).st ≠ 0 →
      (s.ctxAt c).ops = [] → (t.ctxAt c).st = (if (s.ctxAt c).st = 1 ∨ (s.ctxAt c).st = 2 ∨ (s.ctxAt c).st = 3 then 4 else (s.ctxAt c).st)) ∧
    (∀ g, g ≠ f → t.fnAt g = s.fnAt g) ∧ NeOnly s t) ∧
  (∀ (s : State) (f t0 : Nat), NeReady s f → (s.fnAt f).flr = some t0 → f ≠ 0 → Answers (.flrStart f) s fun t => t = s) ∧
  (∀ (s : State) (f t0 : Nat), NeReady s f → (s.fnAt f).flr = some t0 → (s.ctxsOf f).Nodup → Answers (.flrComplete f) s fun t =>
    (∀ c, (s.ctxAt c).fn = f → (s.ctxAt c).st ≠ 0 → t.ctxAt c = { gen := ((s.ctxAt c).gen + 1) % 4096 }) ∧ (∀ q, q < 4096 → t.qp? f q = none) ∧
    t.fnAt f = { fgen := (s.fnAt f).fgen, configured := (s.fnAt f).configured, qpCount := (s.fnAt f).qpCount, qpFirst := (s.fnAt f).qpFirst
                 vecCount := (s.fnAt f).vecCount, vecFirst := (s.fnAt f).vecFirst, ctxQuota := (s.fnAt f).ctxQuota, winFirst := (s.fnAt f).winFirst
                 winCount := (s.fnAt f).winCount, mac := (s.fnAt f).mac } ∧ t.regs = s.regs) ∧
  (∀ (s : State) (f t0 : Nat), IxuIdle s → s.pageOff pgNE = false → s.agents = [] →
    (s.fnAt f).flr = some t0 → (∃ e ∈ s.dmas, e.2.who = 16 ∧ e.2.rid = f) → Answers (.flrComplete f) s fun t => t = s) ∧
  (∀ (s : State) (f : Nat), NeReady s f → s.ne.vfEn = false →
    (Answers (.vfEnable true) s fun t => t = { s with ne := { s.ne with vfEn := true } } ∧ ∀ v, 1 ≤ v → v ≤ s.ne.numVfs → v ≤ 1024 → t.fnPresent v = true) ∧
    (Answers (.vfEnable false) s fun t => t = s)) ∧
  (∀ (s : State) (f : Nat), NeReady s f → s.ne.vfEn = true → s.ne.ctxs = [] → s.ne.winSet = [] → (∀ v, 1 ≤ v → (s.fnAt v).flr = none) →
    ∀ c ∈ [Instr.vfEnable false, .configWrite 0 0x118 0 0xF], ((s.fnAt 0).flr = none) → Answers c s fun t =>
      t.ne.vfEn = false ∧ ∀ v, 1 ≤ v → v ≤ s.ne.numVfs → v ≤ 1024 → (t.fnAt v).flr = some s.time ∧ (t.fnAt v).fgen = ((s.fnAt v).fgen + 1) % 256) ∧
  (∀ (s : State) (f d off : Nat), NeReady s f → d < 2 ^ 32 → off < 0x1000 →
    (s.cfgPresent f = false → Answers (.configWrite f off d 0xF) s fun t => t = s) ∧
    (s.fnPresent f = true → (s.fnAt f).flr = none →
      (s.ne.qps = [] → (s.fnAt f).aqPi = (s.fnAt f).aqCi → Answers (.configWrite f 0x04 d 0xF) s fun t =>
        t.fnAt f = { s.fnAt f with mse := f == 0 && bitN d 1, bme := bitN d 2 } ∧ t.dmas = []) ∧
      (d % 4 = 3 → Answers (.configWrite f 0x44 d 0xF) s fun t => t.fnAt f = { s.fnAt f with d3 := true }) ∧
      ((s.fnAt f).d3 = true → d % 4 = 0 → f ≠ 0 → Answers (.configWrite f 0x44 d 0xF) s fun t =>
        (t.fnAt f).flr = some s.time ∧ (t.fnAt f).fgen = ((s.fnAt f).fgen + 1) % 256) ∧
      (bitN d 15 = true → f ≠ 0 → Answers (.configWrite f 0x78 d 0xF) s fun t => (t.fnAt f).flr = some s.time)))) ∧
  ((∀ (s : State) (pk : Pkt) (k id : Nat) (d : Dma) (j : NeJob), NeAnswered s pk k id d j → j.kind = .respWrite 0 → s.ne.rops = [] → pk.psn = false →
    Answers (.neDmaResponse pk) s fun t => t.dmas = [] ∧ t.agents = [] ∧ t.ne.jobs = [] ∧ t.regs = s.regs ∧ SameMemory s t) ∧
  (∀ (s : State) (pk : Pkt) (k id : Nat) (d : Dma) (j : NeJob) (a : Pkt), Running s → s.pageOff pgNE = false → s.ixu.syncs = [] → s.ne.syncs = [] →
    s.ne.jobs = [(id, j)] → j.left = 1 → j.bad = false → s.dmas = [(k, d)] → d.parts ≤ 1 → d.who = 16 → d.spec = false →
    d.fgen ≠ (s.fnAt d.rid).fgen → s.arrived pk = true → s.agentQ = [] → pk.dst = nodeNE →
    pk.last = true → pk.psn = false → s.agents = [(State.agentKey nodeNE pk.txn.toNat, { p := a, use := AgUse.dma k })] →
    Answers (.neDmaResponse pk) s fun t => t.dmas = [] ∧ t.agents = [] ∧ t.ne = s.ne ∧
      t.get pgNE Fld.STALE_CPL_COUNT = min (s.get pgNE Fld.STALE_CPL_COUNT + 1) (2 ^ 32 - 1) ∧ SameRegs [(pgNE, (Fld.STALE_CPL_COUNT).off)] s t) ∧
  (∀ (s : State) (pk a : Pkt), IxuIdle s → s.pageOff pgNE = false → s.arrived pk = true → pk.dst = nodeNE → pk.last = true →
    s.agents = [(State.agentKey nodeNE pk.txn.toNat, { p := a, use := AgUse.late })] → s.stormed (srcNE 4) = false →
    Answers (.neDmaResponse pk) s fun t => t.agents = [] ∧
      t.get pgNE Fld.NE_LATE_CPL_COUNT = min (s.get pgNE Fld.NE_LATE_CPL_COUNT + 1) (2 ^ 32 - 1) ∧
      ∃ r, t.recs = s.recs ++ [r] ∧ r.typ = 0x11 ∧ r.sub = 0) ∧
  (∀ (s : State) (id k since f q txn : Nat) (d : Dma) (j : NeJob) (a : Pkt), Running s → s.pageOff pgNE = false → s.ixu.syncs = [] → s.ne.syncs = [] →
    s.ne.jobs = [(id, j)] → j.kind = .cplWrite q → j.fn = f → j.left = 1 → j.bad = false → s.dmas = [(k, d)] → d.who = 16 → d.spec = false → d.job = id →
    d.rid = f → d.fgen = (s.fnAt f).fgen → d.st = .sent since → s.agents = [(State.agentKey nodeNE txn, { p := a, use := AgUse.dma k })] → txn < 4096 →
    (a.op = 0x70 ∨ a.op = 0x71) →
    (s.time < since + 1000000 * s.get pgNE Fld.DMA_TO_MS → Answers (.neDmaTimeout k) s fun t => t = s) ∧
    (since + 1000000 * s.get pgNE Fld.DMA_TO_MS ≤ s.time → (s.fnAt f).err = false → s.ctxsOf f = [] → (s.fnAt f).msixEn = false →
      s.stormed (srcNE 4) = false → Answers (.neDmaTimeout k) s fun t =>
        t.dmas = [] ∧ t.agents = [(State.agentKey nodeNE txn, { p := a, use := AgUse.late })] ∧ (t.fnAt f).err = true ∧ (t.fnAt f).cause = 4 ∧
        ∃ r ∈ t.recs, r.typ = 0x11 ∧ r.sub = 1)))

/-! ### Frames and the Chain transport (R524 to R573) -/

/-- RX_FRAME (R524, R544, R545, R547 to R550): each frame at an interface that holds alignment is counted; one with a bad FCS or FEC, an
uncorrectable buffer word, or no bank is dropped and counted; a Chain packet for a context on die is held for it, one that names none is dropped and counted;
any other frame is looked up.

Context fills and interfaces (R524, R525, R567): a fill lets the frames that waited proceed; an interface that loses alignment is reported down after LD_HOLD,
at once where LD_HOLD is 0; one that has alignment on powered domains is up. -/
def Obligations.FramesAndInterfaces : Prop :=
  (∀ (s : State) (i corr : Nat) (fr : Frame) (fcsOk : Bool), NeReady s 0 → i < 16 →
    let n := i / 4
    let pg := pgNEP n
    let k := i % 4
    let rx := fun (fec : Bool) (b : EccOutcome) (P : State → Prop) => Answers (.rxFrame i fr fcsOk fec corr b) s P
    let good : Frame := { fr with fcs := true, fec := true }
    let chain := fr.proto = 17 ∧ (fr.etype = 0x0800 ∨ fr.etype = 0x86DD) ∧ fr.dport = s.get pgNE Fld.NE_CFG_CHAIN_PORT
    let dropped := fun (t : State) => t.ne.frames = s.ne.frames ∧ t.dmas = [] ∧ (nthD t.ne.ports n {}).rxCur = [] ∧ (nthD t.ne.ports n {}).rxOther = []
    (s.intfUp i = false ∨ (nthD s.ne.intfs i {}).lost.isSome = true → ∀ fec b, rx fec b fun t => t = s) ∧
    (s.intfUp i = true → (nthD s.ne.intfs i {}).lost = none →
      (s.stormed (srcNEP n 1) = false → ∀ fec, rx fec .uncorrectable fun t => CountsOne s t pg (Fld.RX_FRAMES_COUNT k) ∧
        CountsOne s t pg (Fld.BUF_UE_COUNT 0) ∧ t.flag pg Fld.PORT_STAT_BUF_UE = true ∧ srcNEP n 1 ∈ t.raised ∧ t.ne = s.ne ∧
        ∃ r, t.recs = s.recs ++ [r] ∧ r.typ = 0x10 ∧ r.sub = 2) ∧
      (∀ p e l fec, nthD s.ne.ports n {} = p → p.rxOther = e :: l →
        8192 < State.rxUsed p.rxCur + frameWords (s.get pg Fld.PORT_CFG_MAXFRAME) →
        rx fec .clean fun t => CountsOne s t pg (Fld.RX_DROP_BUF_COUNT k) ∧ t.ne = s.ne) ∧
      ((nthD s.ne.ports n {}).rxOther = [] → (nthD s.ne.ports n {}).rxCur = [] → s.get pg Fld.PORT_CFG_MAXFRAME ≤ 9216 → fr.len ≤ 9216 →
        (∀ b, b ≠ .uncorrectable → rx false b fun t => CountsOne s t pg (Fld.RX_FRAMES_COUNT k) ∧ CountsOne s t pg (Fld.FEC_UNCORR_COUNT k) ∧ dropped t) ∧
        (∀ b, b ≠ .uncorrectable → fcsOk = false → rx true b fun t =>
          CountsOne s t pg (Fld.RX_FRAMES_COUNT k) ∧ CountsOne s t pg (Fld.RX_FCS_ERR_COUNT k) ∧ dropped t)) ∧
      (fcsOk = true → (nthD s.ne.ports n {}).rxOther = [] → (nthD s.ne.ports n {}).rxCur = [] → s.get pg Fld.PORT_CFG_MAXFRAME ≤ 9216 → fr.len ≤ 9216 →
        (chain → fr.chain = none → rx true .clean fun t => CountsOne s t pgNE Fld.CHAIN_DROP_COUNT) ∧
        (∀ p, chain → fr.chain = some p → (s.ctxAt (p.dcid % 2 ^ 20)).st = 0 ∨ (s.ctxAt (p.dcid % 2 ^ 20)).st = 4 ∨
            (s.ctxAt (p.dcid % 2 ^ 20)).gen ≠ p.dcid / 2 ^ 20 ∨ (s.ctxAt (p.dcid % 2 ^ 20)).intf ≠ i ∨ (s.ctxAt (p.dcid % 2 ^ 20)).sip ≠ fr.dip →
          rx true .clean fun t => CountsOne s t pgNE Fld.CHAIN_DROP_COUNT ∧ t.ne.frames = s.ne.frames) ∧
        (∀ p, chain → fr.chain = some p → s.chainAdmits i fr p = true →
          (p.dcid % 2 ^ 20 ∈ s.ne.onDie → s.ne.onDie.length ≤ 16384 → s.ne.frames = [] → rx true .clean fun t =>
            t.ne.frames = [(s.ne.seq, (i, good))] ∧ t.dmas = []) ∧
          (p.dcid % 2 ^ 20 ∉ s.ne.onDie → s.ne.fills = [] → rx true .corrected fun t => t.flag pg Fld.PORT_STAT_BUF_CE = true ∧
            t.ne.fills = [(p.dcid % 2 ^ 20, [(i, good)])] ∧
            NeTableRead t (.ctxFill (p.dcid % 2 ^ 20)) (s.pageAddr pgNE Reg.CTX_BASE_LO Reg.CTX_BASE_HI + 256 * (p.dcid % 2 ^ 20)) 256)) ∧
        (¬ chain → s.flag pgNE Fld.FLOW_BASE_LO_EN = false → s.flag pgNE Fld.NE_CFG_EXC_EN = false → rx true .clean fun t =>
          CountsOne s t pgNE Fld.FLOW_MISS_COUNT ∧ t.dmas = []) ∧
        (¬ chain → s.flag pgNE Fld.FLOW_BASE_LO_EN = true →
          let key := flowKey (s.get pgNE Fld.FLOW_MASK_FIELDS) i fr
          let b := crc32c key % 2 ^ s.get pgNE Fld.FLOW_BASE_LO_LOG2
          (Tab.get? b s.ne.flows = none → rx true .clean fun t => ∃ id, NeTableRead t (.flowRead id b)
            (s.pageAddr pgNE Reg.FLOW_BASE_LO Reg.FLOW_BASE_HI + 256 * b) 256) ∧
          (∀ e l, Tab.get? b s.ne.flows = some (e :: l) → bitN e 104 = true → entryKey e = key → bits e 408 8 = 0 →
            (bits e 400 8 = 0 → rx true .clean fun t => t.dmas = [] ∧ t.ne.sentFrame = s.ne.sentFrame) ∧
            (∀ j, bits e 400 8 = 1 → bits e 432 16 = j → j < 16 → s.intfUp j = true → rx true .clean fun t =>
              t.ne.sentFrame = Tab.put j good s.ne.sentFrame)))))) ∧
  ((∀ (s : State) (c : Nat) (l : List (Nat × Frame)), NeReady s 0 → s.ne.fills = [(c, l)] → s.ne.onDie.length < 16384 → s.ne.frames = [] →
    (∀ p ∈ s.ne.ports, p.rxCur = [] ∧ p.rxOther = []) → Answers (.ctxFill c) s fun t =>
      t.ne.fills = [] ∧ c ∈ t.ne.onDie ∧ t.ne.frames.map (·.2) = l ∧ t.dmas = []) ∧
  (∀ (s : State) (i : Nat), Running s → i < 16 →
    let pg := pgNEP (i / 4)
    (s.intfUp i = true → s.get pg Fld.PORT_TIMING_LD_HOLD ≠ 0 → (nthD s.ne.intfs i {}).lost = none → Answers (.alignmentLost i) s fun t =>
      t.intfUp i = true ∧ (nthD t.ne.intfs i {}).lost = some s.time ∧ bitN (t.get pg Fld.PORT_STAT_LFAULT) (i % 4) = true) ∧
    (s.intfUp i = true → s.get pg Fld.PORT_TIMING_LD_HOLD = 0 → Answers (.alignmentLost i) s fun t =>
      t.intfUp i = false ∧ bitN (t.get pg Fld.PORT_STAT_DOWN) (i % 4) = true ∧ srcNEP (i / 4) 0 ∈ t.raised) ∧
    (∀ t0, s.intfUp i = true → (nthD s.ne.intfs i {}).lost = some t0 →
      (s.time < t0 + 1000 * s.get pg Fld.PORT_TIMING_LD_HOLD → Answers (.interfaceDown i) s fun t => t = s) ∧
      (t0 + 1000 * s.get pg Fld.PORT_TIMING_LD_HOLD ≤ s.time → Answers (.interfaceDown i) s fun t =>
        t.intfUp i = false ∧ bitN (t.get pg Fld.PORT_STAT_UP) (i % 4) = false ∧ bitN (t.get pg Fld.PORT_STAT_DOWN) (i % 4) = true ∧
        srcNEP (i / 4) 0 ∈ t.raised)) ∧
    (s.intfExists i = true → s.intfPowered i = true → Answers (.interfaceUp i) s fun t =>
      t.intfUp i = true ∧ bitN (t.get pg Fld.PORT_STAT_UP) (i % 4) = true ∧ bitN (t.get pg Fld.PORT_STAT_LFAULT) (i % 4) = false) ∧
    (s.intfExists i = false ∨ s.intfPowered i = false → Answers (.interfaceUp i) s fun t => t = s)))

/-- CHAIN_DATA (R548, R556, R557, R563, R565, R569, R570): a packet of the wrong encryption is dropped and counted; a context in INIT answers NAK STATE; a packet in the
window that was not received begins its accesses where its window's entry passes, and is refused with the first failing check; a duplicate is counted and
acknowledged; a sealed packet whose tag verifies acts as it reads once opened.

Acknowledgements and responses at the requester (R558, R559, R570, R572): an ACK releases the PSNs below APSN and those of SACK and completes the operations that have
no packet left; response data is placed at the operation's address; a NAK completes its operation with its reason, and RNR holds the packet for RNR_DELAY.

The timers and the pacer of a connection (R555, R557 to R560): at the retransmission timeout the oldest unreleased PSN is sent again, and after RETRY_MAX expiries the
connection enters ERROR; 2 us after the oldest packet not acknowledged an ACK goes; after RNR_DELAY the packet goes again; a packet that is ready goes once the
rate allows, with the next PSN. Before its time nothing happens. -/
def Obligations.ChainConnections : Prop :=
  ((∀ (s : State) (id c : Nat) (p : ChainPkt) (typ : Nat) (cmd : Instr), NeReady s 0 →
    (typ, cmd) ∈ [(0, Instr.chainData id), (1, .chainAck id), (2, .readResp id), (3, .atomicResp id), (4, .chainNak id)] → p.typ = typ → c = p.dcid % 2 ^ 20 →
    (∃ i fr, s.ne.frames = [(id, (i, fr))] ∧ fr.chain = some p) → ((s.ctxAt c).enc ≠ bitN p.flags 3 ∨ (s.ctxAt c).enc = true ∧ chainOpen (s.ctxAt c) p = none) →
    Answers cmd s fun t => CountsOne s t pgNE Fld.TAG_FAIL_COUNT ∧ t.flag pgNE Fld.NE_STAT_TAG_FAIL = true ∧ srcNE 2 ∈ t.raised ∧ t.ne.frames = [] ∧
      t.ctxAt c = s.ctxAt c ∧ t.dmas = []) ∧
  (∀ (s : State) (id c : Nat) (p p' : ChainPkt), NeReady s (s.ctxAt c).fn → c = p.dcid % 2 ^ 20 → p.typ = 0 → bitN p.flags 3 = true →
    (∃ i fr, s.ne.frames = [(id, (i, fr))] ∧ fr.chain = some p) → (s.ctxAt c).enc = true → chainOpen (s.ctxAt c) p = some p' → (s.ctxAt c).st = 1 →
    Answers (.chainData id) s fun t => t.ne.frames = [] ∧ ∃ q, SendsChain s t c 4 q ∧ q.psn = p'.psn ∧ q.status = 6 ∧ q.iv = (s.ctxAt c).iv) ∧
  (∀ (s : State) (id c : Nat) (p : ChainPkt), ChainHeld s id c p → p.typ = 0 →
    let x := s.ctxAt c
    (x.st = 1 → Answers (.chainData id) s fun t => t.ne.frames = [] ∧ ∃ q, SendsChain s t c 4 q ∧ q.psn = p.psn ∧ q.status = 6) ∧
    (x.st = 2 → x.apsn < 2 ^ 32 →
      (2 ^ 31 < (p.psn + 2 ^ 32 - x.apsn) % 2 ^ 32 → x.atomics = [] → p.op ≠ 2 → Answers (.chainData id) s fun t =>
        CountsOne s t pgNE Fld.CHAIN_DROP_COUNT ∧ (∃ q, SendsChain s t c 1 q ∧ q.apsn = x.apsn) ∧ (t.ctxAt c).got = x.got ∧ t.dmas = []) ∧
      (64 ≤ (p.psn + 2 ^ 32 - x.apsn) % 2 ^ 32 → (p.psn + 2 ^ 32 - x.apsn) % 2 ^ 32 < 2 ^ 31 → Answers (.chainData id) s fun t =>
        CountsOne s t pgNE Fld.CHAIN_DROP_COUNT ∧ (t.ctxAt c).got = x.got ∧ t.dmas = [] ∧ t.ne.sentPkt = s.ne.sentPkt) ∧
      (p.psn = x.apsn → x.got = [] → 1 ≤ p.op → p.op ≤ 4 → p.key / 256 < 2 ^ s.get pgNE Fld.WIN_BASE_LO_LOG2 →
        (Tab.get? (p.key / 256) s.ne.wins = none → Answers (.chainData id) s fun t => (t.ctxAt c).got = [p.psn] ∧
          ∃ r, NeTableRead t (.winRead r (p.key / 256)) (s.pageAddr pgNE Reg.WIN_BASE_LO Reg.WIN_BASE_HI + 32 * (p.key / 256)) 32) ∧
        (∀ e, Tab.get? (p.key / 256) s.ne.wins = some e → (s.fnAt (bits e 128 16)).flr = none →
          (r569 e x p = 0 → Answers (.chainData id) s fun t => (t.ctxAt c).got = [p.psn] ∧ (t.ctxAt c).apsn = x.apsn ∧
            (p.op = 1 → p.data ≠ [] → ∃ r, NeJobOf t (.respWrite r) x.fn 1 p.va p.data.length) ∧
            (p.op = 2 → 0 < p.len → ∃ r, NeJobOf t (.respRead r) x.fn 0 p.va p.len) ∧
            (3 ≤ p.op → ∃ r, NeJobOf t (.respWrite r) x.fn 2 p.va 8)) ∧
          (r569 e x p ≠ 0 → bitN p.flags 2 = false → x.since < 15 → x.recvs = [] → x.perf = [] → x.ackReqs = [] → Answers (.chainData id) s fun t =>
            (∃ q, SendsChain s t c 4 q ∧ q.psn = p.psn ∧ q.status = r569 e x p) ∧ (t.ctxAt c).apsn = (x.apsn + 1) % 2 ^ 32 ∧ t.dmas = [])))))) ∧
  ((∀ (s : State) (id c : Nat) (p : ChainPkt), ChainHeld s id c p → (s.ctxAt c).st = 2 →
    let x := s.ctxAt c
    (p.typ = 1 → p.sack = 0 → p.apsn < 2 ^ 32 → x.ops = [] → Answers (.chainAck id) s fun t => t.ne.frames = [] ∧ t.dmas = [] ∧
      (t.ctxAt c).unacked = x.unacked.filter (fun u => !decide ((p.apsn + 2 ^ 32 - u.psn) % 2 ^ 32 ≠ 0 ∧ (p.apsn + 2 ^ 32 - u.psn) % 2 ^ 32 < 2 ^ 31)) ∧
      t.ne.sentPkt = s.ne.sentPkt) ∧
    (∀ o u f q pr e, p.typ = 1 → p.sack = 0 → x.ops = [o] → o.code = 2 → o.packed = o.len → o.lastPsn = some u.psn → o.fn = f → o.q = q → x.unacked = [u] →
      u.op = o.id → u.psn = x.apsn → p.apsn = (u.psn + 1) % 2 ^ 32 → u.psn < 2 ^ 32 → s.qp? f q = some pr → pr.sq = [e] → e.idx = o.idx → e.status = none →
      e.signal = true → pr.sqPi = pr.sqCi → Answers (.chainAck id) s fun t => (t.ctxAt c).ops = [] ∧ (t.ctxAt c).unacked = [] ∧ (t.ctxAt c).rto = none ∧
        t.qp? f q = some { pr with sq := [], cpl := pr.cpl ++ [State.cplEntry e.wrid o.len e.cid e.idx e.code 0 false] }) ∧
    (∀ o, x.ops = [o] → o.lastPsn = some p.psn → o.fn = x.fn →
      (p.typ = 2 → o.code = 3 → p.data ≠ [] → Answers (.readResp id) s fun t =>
        NeJobOf t (.place c o.id p.off p.data.length) x.fn 1 (o.lva + p.off) p.data.length) ∧
      (p.typ = 3 → 4 ≤ o.code → o.lva % 8 = 0 → Answers (.atomicResp id) s fun t => NeJobOf t (.place c o.id 0 8) x.fn 1 o.lva 8 ∧
        ∃ k d, t.dmas = [(k, d)] ∧ lineField d.data (o.lva % 64) 8 = p.operand % 2 ^ 64)) ∧
    (∀ u, p.typ = 4 → x.unacked = [u] → u.psn = p.psn → p.status = 5 →
      (s.get pgNE Fld.REL_CFG_RNR_MAX = 7 ∨ u.rnr < s.get pgNE Fld.REL_CFG_RNR_MAX) → Answers (.chainNak id) s fun t =>
        (t.ctxAt c).unacked = [{ u with rnr := u.rnr + 1, hold := some (s.time + 1000 * s.get pgNE Fld.REL_CFG_RNR_DELAY) }]) ∧
    (∀ o u f q pr e, p.typ = 4 → 1 ≤ p.status → p.status ≤ 4 → x.ops = [o] → x.unacked = [u] → u.psn = p.psn → u.op = o.id → o.fn = f → o.q = q →
      s.qp? f q = some pr → pr.sq = [e] → e.idx = o.idx → e.status = none → pr.sqPi = pr.sqCi → Answers (.chainNak id) s fun t =>
        (t.ctxAt c).st = 2 ∧ (t.ctxAt c).ops = [] ∧ (t.ctxAt c).unacked = [] ∧
        t.qp? f q = some { pr with sq := [], cpl := pr.cpl ++ [State.cplEntry e.wrid 0 e.cid e.idx e.code (p.status + 1) false] }))) ∧
  (∀ (s : State) (c : Nat), NeReady s (s.ctxAt c).fn → (s.ctxAt c).st = 2 → (s.ctxAt c).enc = false →
    let x := s.ctxAt c
    let rto := max (1000 * s.get pgNE Fld.REL_CFG_RTO_MIN) (2 * x.srtt) * 2 ^ x.retries
    (∀ t0, x.rto = some t0 →
      (s.time < t0 + rto → Answers (.chainRto c) s fun t => t = s) ∧
      (∀ u l, t0 + rto ≤ s.time → x.unacked = u :: l → x.retries + 1 < s.get pgNE Fld.REL_CFG_RETRY_MAX → Answers (.chainRto c) s fun t =>
        (∃ q, SendsChain s t c u.p.typ q ∧ q.psn = u.p.psn ∧ q.data = u.p.data) ∧ (t.ctxAt c).retries = x.retries + 1 ∧ (t.ctxAt c).rto = some s.time ∧
        (t.ctxAt c).st = 2) ∧
      (t0 + rto ≤ s.time → s.get pgNE Fld.REL_CFG_RETRY_MAX ≤ x.retries + 1 → x.ops = [] → Answers (.chainRto c) s fun t =>
        (t.ctxAt c).st = 4 ∧ (t.ctxAt c).unacked = [] ∧ CountsOne s t pgNE Fld.CTX_ERR_CNT_COUNT ∧ srcNE 0 ∈ t.raised)) ∧
    (∀ t0, x.oldest = some t0 →
      (s.time < t0 + 2000 → Answers (.ackTimer c) s fun t => t = s) ∧
      (t0 + 2000 ≤ s.time → Answers (.ackTimer c) s fun t => (∃ q, SendsChain s t c 1 q ∧ q.apsn = x.apsn ∧ bitN q.flags 5 = x.ece) ∧
        (t.ctxAt c).oldest = none ∧ (t.ctxAt c).since = 0 ∧ (t.ctxAt c).ece = false)) ∧
    (∀ u h, x.unacked = [u] → u.hold = some h →
      (s.time < h → Answers (.rnrRetry c u.psn) s fun t => t = s) ∧
      (h ≤ s.time → Answers (.rnrRetry c u.psn) s fun t => (∃ q, SendsChain s t c u.p.typ q ∧ q.psn = u.p.psn) ∧
        (t.ctxAt c).unacked = [{ u with sent := s.time, hold := none }])) ∧
    (∀ p op, x.ready = some (p, op) →
      (∀ b, s.time < x.nextSend → Answers (.chainSend c b) s fun t => t = s) ∧
      (∀ b, x.nextSend ≤ s.time → x.ops = [] → Answers (.chainSend c b) s fun t => (∃ q, SendsChain s t c p.typ q ∧ q.psn = x.psn ∧ q.data = p.data) ∧
        (t.ctxAt c).ready = none ∧ (t.ctxAt c).psn = (x.psn + 1) % 2 ^ 32 ∧
        (t.ctxAt c).unacked.map (fun u => (u.psn, u.op)) = x.unacked.map (fun u => (u.psn, u.op)) ++ [(x.psn, op)] ∧
        (x.rto = none → (t.ctxAt c).rto = some s.time))))

/-! ### Power domains, wakes and the control loop (R612 to R646) -/

/-- Votes (R3, R614, R615, R616, R618): in Run, a write of VOTE[d] changes the slots its sender may change, slots 10 to 15 stay zero, Smith firmware's
slots of an unpopulated site stay clear, and slot 9 stays set while a level wake holds it; the target is ON while a slot that counts holds 1; a target that becomes ON in DRAIN abandons the drop.

Dropping a domain (R294, R296, R385, R612, R617): a domain ON whose target is OFF enters DRAIN with its drain work, memory stacks never; the work
done, or its wait expired with the held writes, in the group's buffer and on the way to it, discarded, counted and recorded, it passes to COMMIT; 15 ns later it is OFF, what it held is
gone and the drop is counted.

Rising of a domain (R34, R67, R344, R612, R619): a domain OFF whose target is ON rises, and is then ON with the registers of its block at their reset
values but for those that RWS fields keep; a Hearth group comes back with empty slices, the first with the profile's SCR_WAYS. -/
def Obligations.PowerDomains : Prop :=
  (∀ (s : State) (d data : Nat) (host : Bool), s.off = false → s.get pgPWR Fld.PWR_STAT_STATE = 0 →
    (50 ≤ d → Answers (.voteWrite d data host) s fun t => t = s) ∧
    (d < 50 →
      let held := 43 ≤ d ∧ d ≤ 48 ∧ (s.pin (6 + (d - 43))).filt = true ∧ bitN (s.get pgPWR Fld.WAKE_EN_PCIE) (d - 43) = true
      Answers (.voteWrite d data host) s fun t =>
        (∀ j, 10 ≤ j → j < 16 → bitN (t.votes d) j = false) ∧
        (∀ j, j < 10 ∨ 16 ≤ j ∧ j < 32 → (j = 9 → ¬ held) → bitN (t.votes d) j =
          (if d < 16 ∧ bitN s.pop d = false ∧ j < 8 then false else bitN (if host = true ∧ j < 8 then s.votes d else data) j)) ∧
        (held → bitN (t.votes d) 9 = true) ∧
        (t.flag pgPWR (Fld.DOM_STAT_TARGET d) = true ↔ ∃ j, (j < 8 ∨ 36 ≤ d ∧ (j < 10 ∨ 16 ≤ j ∧ j < 32)) ∧ bitN (t.votes d) j = true) ∧
        (s.domState d = 3 → t.flag pgPWR (Fld.DOM_STAT_TARGET d) = true → t.domState d = 2 ∧
          t.get pgPWR (Fld.DOM_STAT_ABANDONS d) = (s.get pgPWR (Fld.DOM_STAT_ABANDONS d) + 1) % 256) ∧
        (s.domState d ≠ 3 ∨ t.flag pgPWR (Fld.DOM_STAT_TARGET d) = false → t.domState d = s.domState d ∧
          t.get pgPWR (Fld.DOM_STAT_ABANDONS d) = s.get pgPWR (Fld.DOM_STAT_ABANDONS d)) ∧
        (∀ d', d' < 50 → d' ≠ d → t.votes d' = s.votes d' ∧ t.reg pgPWR (Reg.DOM_STAT d') = s.reg pgPWR (Reg.DOM_STAT d')) ∧ PowerOnly s t)) ∧
  (∀ (s : State) (d : Nat), s.off = false → d < 50 →
    let goes := fun (t : State) (st : Nat) => t.domState d = st ∧ Tab.get? d t.power.domSince = some s.time
    let drops := s.domState d = 2 ∧ s.flag pgPWR (Fld.DOM_STAT_TARGET d) = false ∧ (d < 16 ∨ 28 ≤ d)
    (¬ drops → Answers (.domainDrop d) s fun t => t = s) ∧
    (drops → Answers (.domainDrop d) s fun t => goes t 3 ∧ (d < 36 ∨ 43 ≤ d → PowerOnly s t) ∧
      (36 ≤ d → d < 40 → ∀ k, k < 4 → t.intfUp (4 * (d - 36) + k) = false) ∧
      (d = 40 ∨ d = 41 → ∀ e, e / 2 = d - 40 → t.flag (pgEMB e) Fld.EMB_STAT_LIT = false ∧ t.get (pgEMB e) Fld.EMB_CHAN_STAT_CH_USED = 0) ∧
      (d = 42 → ∀ c, (s.ctxAt c).st = 2 ∨ (s.ctxAt c).st = 3 → (t.ctxAt c).st = 4)) ∧
    (s.domState d = 3 → s.flag pgPWR (Fld.DOM_STAT_TARGET d) = false →
      (s.drainOver d = true → Answers (.domainDrainDone d) s fun t => goes t 5 ∧ (∀ p off, p ∈ State.domPages d → off < 0x10000 → t.shadow? p off = none) ∧
        (43 ≤ d → d ≤ 48 → (t.groupAt (d - 43)).up = []) ∧ (d = 40 ∨ d = 41 → ∀ k, k < 8 → t.intfUp (8 * (d - 40) + k) = false)) ∧
      (s.drainOver d = false → Answers (.domainDrainDone d) s fun t => t = s) ∧
      (∀ n, d = 43 + n → n < 6 → s.stormed (srcPCIE n 5) = false →
        let held := (s.groupAt n).pw.length + (s.heldToward (nodePCIE n)).length
        held ≠ 0 →
        let wait := Tab.getD d 0 s.power.domSince + s.cplTo n
        (s.time < wait → Answers (.domainDrainExpire d) s fun t => t = s) ∧
        (wait ≤ s.time → Answers (.domainDrainExpire d) s fun t => goes t 5 ∧ (t.groupAt n).pw = [] ∧
          t.get (pgPCIE n) Fld.PW_DISC_COUNT = min (s.get (pgPCIE n) Fld.PW_DISC_COUNT + held) (2 ^ 32 - 1) ∧
          ∃ r ∈ t.recs, r.typ = 0x09 ∧ r.sub = 0 ∧ r.page = pgPCIE n ∧ r.words = [held]))) ∧
    (s.domState d = 5 →
      let due := Tab.getD d 0 s.power.domSince + 15
      (s.time < due → Answers (.domainCommitEnd d) s fun t => t = s) ∧
      (due ≤ s.time → Answers (.domainCommitEnd d) s fun t => goes t 0 ∧
        t.get pgPWR (Fld.DOM_STAT_DROPS d) = min (s.get pgPWR (Fld.DOM_STAT_DROPS d) + 1) 0xFFFF ∧
        (d < 16 → ∀ m, m < 4 → (t.lk d m .hub).st = 0 ∧ (t.lk d m .die).st = 0) ∧
        (43 ≤ d → d ≤ 48 → t.groupAt (d - 43) = {}) ∧ (d = 49 → t.ixu = {}) ∧ (d = 42 → t.ne.ctxs = [] ∧ t.ne.jobs = [])))) ∧
  (∀ (s : State) (d : Nat), Running s → d < 50 →
    (s.domState d = 0 → s.flag pgPWR (Fld.DOM_STAT_TARGET d) = true → Answers (.domainRise d) s fun t =>
      t.domState d = 1 ∧ Tab.get? d t.power.domSince = some s.time ∧ PowerOnly s t) ∧
    (s.domState d ≠ 0 ∨ s.flag pgPWR (Fld.DOM_STAT_TARGET d) = false → Answers (.domainRise d) s fun t => t = s) ∧
    (s.domState d ≠ 1 → Answers (.domainRiseDone d) s fun t => t = s) ∧
    (s.domState d = 1 → Answers (.domainRiseDone d) s fun t => t.domState d = 2 ∧
      (42 ≤ d → (∀ p off, p ∈ State.domPages d → 0x100 ≤ off → off < 0x10000 → ((findReg p off).map RegDef.rwsMask).getD 0 = 0 →
        t.reg p off = regReset p off) ∧ SameMemory s t ∧
        ((∀ e ∈ s.net, e.at_ = .rx → e.p.dst ∉ State.domNodes d) → t = { s with regs := t.regs, power := t.power, fab := t.fab })) ∧
      (d = 28 → t.get (pgHRTH 0) Fld.HRTH_CTL_SCR_WAYS = s.profNow.scr % 16) ∧
      (∀ g i, d = 28 + g → 0 < g → g < 8 → i < 8 → bitN (t.get (pgHRTH 0) Fld.HRTH_GSTAT_OFFLINE) g = false ∧
        t.hearthAt (8 * g + i) = { mode := if s.flag (pgHRTH 0) Fld.HRTH_CTL_EN then 0 else 2 })))

/-- The slow inputs (R641, R643, R644): each raw falling edge is counted; a filtered level rises and falls as the filter says, else nothing happens;
1 s of THROTTLE_N or WAKE_N sets its status once, with its record and event.

Wakes (R620, R621, R622, R627): an enabled PCIE_WAKE_N votes slot 9 of its group; a frame that is a wake match for an interface of its port votes slot 9 of the NE, a TIME compare with WAKE that of its
domain, unless the drop of that domain is in COMMIT, when the wake is lost, counted and recorded; in Banked a wake starts the exit. -/
def Obligations.InputsAndWakes : Prop :=
  ((∀ (s : State) (i : Nat), s.off = false → i < 12 → Answers (.rawFallingEdge i) s fun t =>
    CountsOne s t pgPWR (if i = 0 then Fld.THR_EDGES_COUNT else Fld.PIN_EDGES_COUNT (i - 1)) ∧
    t.pin i = { s.pin i with fall := some s.time, quick := (s.pin i).fall.any fun f => decide (s.time < f + 2000) } ∧ PowerOnly s t) ∧
  (∀ (s : State), s.off = false →
    (PinRises s 1 → s.get pgPWR Fld.PWR_STAT_STATE = 0 → Answers (.wakeNAssert) s fun t =>
      (t.pin 1).filt = true ∧ (t.pin 1).since = s.time ∧ t.flag pgPWR Fld.PWR_STAT_WAKE = true ∧ PowerOnly s t) ∧
    (¬ PinRises s 1 → Answers (.wakeNAssert) s fun t => t = s) ∧
    (PinFalls s 1 → Answers (.wakeNDeassert) s fun t => (t.pin 1).filt = false ∧ t.flag pgPWR Fld.PWR_STAT_WAKE = false ∧ PowerOnly s t) ∧
    (¬ PinFalls s 1 → Answers (.wakeNDeassert) s fun t => t = s) ∧
    (¬ PinRises s 0 → Answers (.throttleAssert) s fun t => t = s) ∧ (¬ PinFalls s 0 → Answers (.throttleDeassert) s fun t => t = s) ∧
    (∀ i c src sub f, (i, c, src, sub, f) ∈ [(0, Instr.throttleLong, srcThrLong, 3, Fld.PWR_STAT_THR_LONG), (1, .wakeStuck, srcWakeStuck, 4, Fld.PWR_STAT_WAKE_STUCK)] →
      ((s.pin i).filt = false ∨ (s.pin i).noted = true ∨ s.time < (s.pin i).since + 1000000000 → Answers c s fun t => t = s) ∧
      ((s.pin i).filt = true → (s.pin i).noted = false → (s.pin i).since + 1000000000 ≤ s.time → s.stormed src = false → Answers c s fun t =>
        t.flag pgPWR f = true ∧ (t.pin i).noted = true ∧ (t.pin i).filt = true ∧ t.raised = s.raised ++ [src] ∧
        ∃ r, t.recs = s.recs ++ [r] ∧ r.typ = 0x12 ∧ r.sub = sub ∧ r.source = src)))) ∧
  ((∀ (s : State) (n : Nat), s.off = false → n < 6 →
    (¬ PinRises s (6 + n) → Answers (.pcieWakeAssert n) s fun t => t = s) ∧
    (PinRises s (6 + n) → Answers (.pcieWakeAssert n) s fun t => (t.pin (6 + n)).filt = true ∧
      (bitN (s.get pgPWR Fld.WAKE_EN_PCIE) n = true → bitN (t.votes (43 + n)) 9 = true ∧ t.flag pgPWR (Fld.DOM_STAT_TARGET (43 + n)) = true ∧
        (s.get pgPWR Fld.PWR_STAT_STATE = 2 → t.get pgPWR Fld.PWR_STAT_STATE = 3)) ∧
      (bitN (s.get pgPWR Fld.WAKE_EN_PCIE) n = false → t.votes (43 + n) = s.votes (43 + n) ∧ t.get pgPWR Fld.PWR_STAT_STATE = s.get pgPWR Fld.PWR_STAT_STATE)) ∧
    (PinFalls s (6 + n) → Answers (.pcieWakeDeassert n) s fun t => (t.pin (6 + n)).filt = false ∧ t.votes (43 + n) = s.votes (43 + n) ∧ t = { s with power := t.power }) ∧
    (¬ PinFalls s (6 + n) → Answers (.pcieWakeDeassert n) s fun t => t = s)) ∧
  (∀ (s : State) (n : Nat) (fr : Frame), s.off = false → n < 4 → s.get pgPWR Fld.PWR_STAT_STATE ≠ 1 →
    let matched := ∃ k, k < 4 ∧ wakeFrame fr (bytesOf (Config.portMac (4 * n + k)).toNat 6) = true
    (s.domOn (36 + n) = false ∨ bitN (s.get pgPWR Fld.WAKE_EN_PORT) n = false ∨ ¬ matched → Answers (.wakeMatch n fr) s fun t => t = s) ∧
    (s.domOn (36 + n) = true → bitN (s.get pgPWR Fld.WAKE_EN_PORT) n = true → matched →
      (s.domState 42 ≠ 5 → Answers (.wakeMatch n fr) s fun t => bitN (t.votes 42) 9 = true ∧ t.flag pgPWR (Fld.DOM_STAT_TARGET 42) = true ∧
        (s.get pgPWR Fld.PWR_STAT_STATE = 2 → t.get pgPWR Fld.PWR_STAT_STATE = 3 ∧ t.power.exitSince = s.time) ∧ PowerOnly s t) ∧
      (s.domState 42 = 5 → s.stormed srcWakeLost = false → Answers (.wakeMatch n fr) s fun t => t.votes 42 = s.votes 42 ∧ CountsOne s t pgPWR Fld.WAKE_LOST_CNT_COUNT ∧
        t.flag pgPWR Fld.PWR_STAT_WAKE_LOST = true ∧ srcWakeLost ∈ t.raised ∧ ∃ r, t.recs = s.recs ++ [r] ∧ r.typ = 0x12 ∧ r.sub = 0 ∧ r.words = [n]))) ∧
  (∀ (s : State), s.off = false →
    let due := s.flag pgTIME Fld.TIME_CMP_CTL_EN = true ∧ s.reg pgTIME Reg.TIME_CMP_LO + 2 ^ 32 * s.reg pgTIME Reg.TIME_CMP_HI ≤ s.time
    (¬ due → Answers (.timeCmp) s fun t => t = s) ∧
    (due → s.get pgPWR Fld.PWR_STAT_STATE = 0 → Answers (.timeCmp) s fun t => t.flag pgTIME Fld.TIME_CMP_CTL_HIT = true ∧
      t.flag pgTIME Fld.TIME_CMP_CTL_EN = false ∧ srcTimeCmp ∈ t.raised ∧
      (s.flag pgTIME Fld.TIME_CMP_CTL_WAKE = false → ∀ off, off < 0x10000 → t.reg pgPWR off = s.reg pgPWR off) ∧
      (∀ d, s.flag pgTIME Fld.TIME_CMP_CTL_WAKE = true → s.get pgTIME Fld.TIME_CMP_CTL_DOM = d → d < 50 → s.domState d ≠ 5 → bitN (t.votes d) 9 = true))))

/-- THROTTLE_N and PWR_SET (R636, R637, R642): while it is asserted every admitted site is sent at most FLOOR, and FCEIL when it deasserts; a die applies its
PWR_SET and acknowledges it; a PWR_ACK later than 10 us is late, with its status, event and record, and the frame goes again every 10 us.

The control loop, TIME_SYNC and the root PLL (R632, R634, R635, R638, R639): a period reads the energy, shows P and its lag and moves FCEIL in steps of 25 MHz
between FLOOR and FCAP; TIME_SYNC goes at its interval and the die keeps T and D; a loss of lock is a fatal error. -/
def Obligations.PowerControl : Prop :=
  ((∀ (s : State) (site m f : Nat) (c : Instr) (on : Bool), s.off = false →
    (on, c) ∈ [(true, Instr.throttleAssert), (false, .throttleDeassert)] → (if on then PinRises s 0 else PinFalls s 0) →
    f = (if on then min s.fceil (s.get pgPWR Fld.PWR_FLOOR_FLOOR) else s.fceil) → site < 16 → s.admitted site = true → s.lowActive site = some m →
    (∀ x, Tab.get? site s.power.sets = some x → x.fmax ≠ f) → Answers c s fun t =>
      (t.pin 0).filt = on ∧ t.flag pgPWR Fld.PWR_STAT_THR = on ∧ t.get pgPWR (Fld.SITE_FMAX_FMAX site) = f ∧
      t.flag pgPWR (Fld.SITE_FMAX_ACKED site) = false ∧ ∃ q, SendsLm site m .hub [⟨0x61, [q, f, s.imaxFor site f]⟩] s t ∧
        (Tab.get? site t.power.sets).map (fun x => (x.seq, x.fmax, x.first)) = some (q, f, s.time)) ∧
  (∀ (s : State) (site m seq fmax imax : Nat), Running s → site < 16 → m < 4 → (s.lk site m .die).st = 4 → Answers (.pwrSet site m seq fmax imax []) s fun t =>
    (t.dieAt site).fmax = fmax ∧ (t.dieAt site).imax = imax ∧ SendsLm site m .die [⟨0x62, [seq]⟩] s t) ∧
  (∀ (s : State) (site m : Nat) (x : PwrSet), s.off = false → site < 16 → m < 4 → Tab.get? site s.power.sets = some x → x.acked = false →
    (s.lk site m .hub).st = 4 → Quiet s site m .hub →
    (s.time ≤ x.first + 10000 → Answers (.pwrAck site m x.seq []) s fun t => t.flag pgPWR (Fld.SITE_FMAX_ACKED site) = true ∧
      t.flag pgPWR Fld.PWR_STAT_PWRSET_LATE = s.flag pgPWR Fld.PWR_STAT_PWRSET_LATE ∧ t.recs = s.recs ∧ t.raised = s.raised) ∧
    (x.first + 10000 < s.time → x.late = false → s.stormed srcPwrsetLate = false → Answers (.pwrAck site m x.seq []) s fun t =>
      t.flag pgPWR (Fld.SITE_FMAX_ACKED site) = true ∧ t.flag pgPWR Fld.PWR_STAT_PWRSET_LATE = true ∧ t.raised = s.raised ++ [srcPwrsetLate] ∧
      ∃ r, t.recs = s.recs ++ [r] ∧ r.typ = 0x12 ∧ r.sub = 2 ∧ r.words = [site]) ∧
    (s.time ≤ x.last + 10000 → Answers (.pwrAckTimeout site) s fun t => t = s) ∧
    (x.last + 10000 < s.time → x.late = false → s.smith.running = true → s.lowActive site = some m → Answers (.pwrAckTimeout site) s fun t =>
      t.flag pgPWR Fld.PWR_STAT_PWRSET_LATE = true ∧ t.raised = s.raised ++ [srcPwrsetLate] ∧ SendsLm site m .hub [⟨0x61, [x.seq, x.fmax, x.imax]⟩] s t ∧
      Tab.get? site t.power.sets = some { x with late := true, last := s.time }))) ∧
  ((∀ (s : State) (energy t0 : Nat) (hot : Bool), s.off = false → s.power.lastStart = some t0 → t0 < s.time →
    (s.smith.running = false ∨ s.time < max (50000 * s.power.period) (t0 + 25000) → Answers (.powerPeriod energy hot) s fun t => t = s) ∧
    (s.smith.running = true → max (50000 * s.power.period) (t0 + 25000) ≤ s.time →
      let el := s.time - t0
      let lim := s.get pgPWR Fld.PWR_LIMIT_PLIMIT
      let f := s.fceil
      let e := 1000 * energy
      let f' := if lim * el < e ∨ hot = true ∨ s.stackHot = true then f - max 25 (25 * ceilDiv (f * (e - lim * el)) (25 * lim * el))
                else if 100 * e < 97 * lim * el then f + 25 else f
      Answers (.powerPeriod energy hot) s fun t =>
        t.power.period = s.power.period + 1 ∧ t.power.lastStart = some s.time ∧
        t.get pgPWR Fld.LOOP_STAT_LAG = min ((s.time - 50000 * s.power.period) / 1000) 0xFFFF ∧
        (50000 * s.power.period < s.time → t.flag pgPWR Fld.PWR_STAT_LOOP_LATE = true) ∧
        t.get pgPWR Fld.PKG_POWER_POWER = min (energy * 10000 / el) 0xFFFF ∧
        t.get pgPWR Fld.LOOP_STAT_FCEIL = max (s.get pgPWR Fld.PWR_FLOOR_FLOOR) (min f' (s.get pgPWR Fld.PWR_LIMIT_FCAP)))) ∧
  (∀ (s : State) (site m t1 d1 : Nat), Running s → site < 16 → m < 4 → (s.lk site m .die).st = 4 →
    (s.lk site m .hub).outbox.map (·.lm) = [⟨0x60, [t1, d1]⟩] →
    Answers (.timeSync site m t1 d1 []) s fun t => (t.dieAt site).sync = some (t1, d1) ∧ (t.lk site m .hub).outbox = []) ∧
  (∀ (s : State) (site m t1 d1 : Nat), Running s → site < 16 → s.lowActive site = some m → s.admitted site = true → bitN (s.get (pgSITE site) Fld.TRAV_CAP_LO_CAP) 2 = true →
    (s.lk site m .hub).outbox = [] → (s.siteAt site).lastSync + 1000000 * s.get pgTIME Fld.TIME_CFG_SYNC_MS ≤ s.time → t1 ≠ s.time →
    Answers (.timeSync site m t1 d1 []) s fun t => (t.lk site m .hub).outbox.map (·.lm) = [⟨0x60, [s.time, (s.lk site m .hub).delay]⟩] ∧ (t.siteAt site).lastSync = s.time) ∧
  (∀ (s : State), s.off = false → s.stormed srcRootLol = false → Answers (.rootPllLossOfLock) s fun t =>
    t.flag pgCLK Fld.CLK_STAT_ROOT_LOCK = false ∧ t.flag pgCLK Fld.CLK_STAT_ROOT_LOL = true ∧ CountsOne s t pgCLK Fld.CLK_LOL_CNT_COUNT ∧
    t.flag pgEVT Fld.EVT_STAT_FATAL = true ∧ t.alert.pll = true ∧ t.alert.fatal = true ∧ t.raised = s.raised ++ [srcRootLol] ∧
    (s.flag pgEVT Fld.EVT_FATAL_SRC_V = false → t.get pgEVT Fld.EVT_FATAL_SRC_SOURCE = srcRootLol) ∧
    ∃ r, t.recs = s.recs ++ [r] ∧ r.typ = 0x12 ∧ r.cls = 4 ∧ r.sub = 1))

/-- Banked (R384, R624 to R627): BANKED_ENTER is refused with the first condition that fails, else it starts the CLEAN with PACE 1; then self-refresh, the commit
window, BANKED; a wake before the commit window aborts the entry, a level wake within it leaves Banked at its end; the exit ends in Run. -/
def Obligations.Banked : Prop :=
  (∀ (s : State) (tag : Nat) (args : List Nat), MbFree s →
    let c1 := ∃ i, i < 8 ∧ s.domState (42 + i) ≠ 0
    let c2 := ∃ i m, i < 16 ∧ m < 4 ∧ s.admitted i = true ∧ (s.lk i m .hub).st ≠ 5
    let c3 := (s.pin 1).filt = true ∨ ∃ n, n < 6 ∧ (s.pin (6 + n)).filt = true ∧ bitN (s.get pgPWR Fld.WAKE_EN_PCIE) n = true
    let c4 := s.flag (pgHRTH 0) Fld.ROP_STAT_BUSY = true ∨ s.mem.spareChan ≠ []
    (c1 → Answers (.bankedEnter false tag args) s fun t => MbEnds s t 0x0A tag 4 1 0) ∧
    (¬ c1 → c2 → Answers (.bankedEnter false tag args) s fun t => MbEnds s t 0x0A tag 4 2 0) ∧
    (¬ c1 → ¬ c2 → c3 → Answers (.bankedEnter false tag args) s fun t => MbEnds s t 0x0A tag 4 3 0) ∧
    (¬ c1 → ¬ c2 → ¬ c3 → c4 → Answers (.bankedEnter false tag args) s fun t => MbEnds s t 0x0A tag 4 4 0) ∧
    (¬ c1 → ¬ c2 → ¬ c3 → ¬ c4 → Answers (.bankedEnter false tag args) s fun t => MbRuns t 0x0A false (mbArgs s false args) ∧
      t.get pgPWR Fld.PWR_STAT_STATE = 1 ∧ t.power.bank = 1 ∧ t.get (pgHRTH 0) Fld.ROP_CFG_PACE = 1 ∧ t.power.pace = s.get (pgHRTH 0) Fld.ROP_CFG_PACE ∧
      t.rop.op = 2 ∧ t.rop.base = 0 ∧ t.rop.limit = 2 ^ 52 - 1)) ∧
  (∀ (s : State), s.off = false →
    (s.power.bank = 1 → s.smith.running = true → s.flag (pgHRTH 0) Fld.ROP_STAT_BUSY = false → Answers (.bankedCleanDone) s fun t =>
      t.power.bank = 2 ∧ t.get (pgHRTH 0) Fld.ROP_CFG_PACE = s.power.pace % 2 ^ 8 ∧ OnlyPage (pgHRTH 0) s t) ∧
    (s.power.bank = 1 → s.flag (pgHRTH 0) Fld.ROP_STAT_BUSY = true → Answers (.bankedCleanDone) s fun t => t = s) ∧
    (s.power.bank = 2 → s.mem.wr = [] → s.mem.rowCur = [] → Answers (.selfRefreshDone) s fun t => t.power.bank = 3 ∧ t.power.bankSince = s.time ∧
      t.mem.debt = [] ∧ (∀ n, n < 24 → t.flag (pgMC n) Fld.MC_STAT_SR = true) ∧ SameMemory s t) ∧
    (s.power.bank = 2 → s.mem.wr ≠ [] → Answers (.selfRefreshDone) s fun t => t = s) ∧
    (s.power.bank = 3 →
      (s.time < s.power.bankSince + 15 → Answers (.bankedCommitEnd) s fun t => t = s) ∧
      (s.power.bankSince + 15 ≤ s.time → s.smith.op = some 0x0A → Answers (.bankedCommitEnd) s fun t => t.power.bank = 0 ∧
        MbEnds s t 0x0A s.smith.tag 0 0 0 ∧ t.get pgPWR Fld.PWR_STAT_STATE = (if s.power.level then 3 else 2))) ∧
    (s.get pgPWR Fld.PWR_STAT_STATE = 1 → (s.power.bank = 1 ∨ s.power.bank = 2) → s.smith.op = some 0x0A → PinRises s 1 → s.flag pgPWR Fld.WAKE_EN_PIN = true →
      Answers (.wakeNAssert) s fun t => t.get pgPWR Fld.PWR_STAT_STATE = 0 ∧ t.power.bank = 0 ∧ MbEnds s t 0x0A s.smith.tag 5 0 0 ∧
        ∀ n, n < 24 → t.flag (pgMC n) Fld.MC_STAT_SR = false) ∧
    (s.get pgPWR Fld.PWR_STAT_STATE = 1 → s.power.bank = 3 → PinRises s 1 → s.flag pgPWR Fld.WAKE_EN_PIN = true →
      Answers (.wakeNAssert) s fun t => t.power.level = true ∧ t.get pgPWR Fld.PWR_STAT_STATE = 1) ∧
    (s.get pgPWR Fld.PWR_STAT_STATE = 3 → (∀ x ∈ s.sites, x.intr = []) → Answers (.bankedExitDone) s fun t => t.get pgPWR Fld.PWR_STAT_STATE = 0 ∧
      (∀ n, n < 24 → t.flag (pgMC n) Fld.MC_STAT_SR = false) ∧ SameMemory s t) ∧
    (s.get pgPWR Fld.PWR_STAT_STATE ≠ 3 → Answers (.bankedExitDone) s fun t => t = s)) ∧
  (∀ (s : State) (site m : Nat) (c : Instr), Running s → site < 16 → m < 4 → c ∈ [Instr.moduleWake site m, .retrain site m] → (s.lk site m .hub).st = 5 → s.admitted site = true →
    s.get pgPWR Fld.PWR_STAT_STATE = 1 → s.power.bank ≠ 3 → s.smith.op = some 0x0A → Answers c s fun t =>
      t.get pgPWR Fld.PWR_STAT_STATE = 0 ∧ t.power.bank = 0 ∧ MbEnds s t 0x0A s.smith.tag 5 0 0 ∧ (t.lk site m .hub).st = (if c = .retrain site m then 6 else 4))

/-! ### Resets and restarts of Smith firmware (R647 to R661, R732 to R741) -/

/-- Cold reset (R42, R46, R47, R652, R655, R732, R745): PWROK takes the profile from its pins and the Smith image of the ACTIVE slot, else of the other with FALLBACK;
stacks and Hearth groups are voted on and every populated site traverses; with no image, or a rail out of range, the package does not start and
asserts ALERT_N.

Off (R629, R745): when PWROK falls the package is Off and drives SPI_SCK and SPI_CS_N no longer, and only boot flash, fuses, straps and the SMITH page's MB_STAT are kept; nothing of memory is. -/
def Obligations.ColdResetAndOff : Prop :=
  (∀ (s : State) (sel straps part pop bad load : Nat) (good : List Bool) (image : List Byte) (trust : List Trust), s.flash.slot < 2 →
    let c := fun (rails : Bool) => Instr.coldReset sel straps part pop rails good bad load image trust
    let k := s.flash.slot
    Answers (c false) s (fun t => t.off = true ∧ t.spiDriven = true ∧ t.power.bootFail = true ∧ t.alert.railAtPwrok = true ∧ t.smith.ibi = some 5 ∧ t.pending = s.pending) ∧
    (nthD good k false = false → nthD good (1 - k) false = false → Answers (c true) s fun t => t.off = false ∧ t.power.bootFail = true ∧ t.alert.noImage = true ∧
      t.smith.running = false ∧ t.smith.ibi = some 5 ∧ (∀ d, d < 50 → t.votes d = 0)) ∧
    (∀ j, j = (if nthD good k false then k else 1 - k) → nthD good j false = true → Answers (c true) s fun t =>
      t.off = false ∧ t.spiDriven = true ∧ t.flash.trust = trust ∧ t.time = 0 ∧ t.smith.running = true ∧ t.power.bootFail = false ∧ t.part = part ∧ t.straps = straps ∧ t.pop = pop ∧ t.pending = s.pending ∧
      t.get pgSMITH Fld.FW_STAT_SLOT = j ∧ t.flag pgSMITH Fld.FW_STAT_FALLBACK = decide (j ≠ k) ∧ t.flash.slot = j ∧
      t.get pgSMITH Fld.PROFILE_PINS = sel % 4 ∧ t.get pgSMITH Fld.PROFILE_IN_FORCE = sel % 4 ∧ t.flag pgCLK Fld.CLK_STAT_ROOT_LOCK = true ∧
      t.get pgSMITH Fld.RESET_CAUSE_LAST = 0 ∧ (∀ d, 16 ≤ d → d < 36 → bitN (t.votes d) 0 = true ∧ t.flag pgPWR (Fld.DOM_STAT_TARGET d) = true) ∧
      (∀ i, i < 16 → bitN pop i = true → (t.siteAt i).trav.isSome = true ∧ bitN (t.votes i) 0 = true) ∧
      (s.flash.prof = [] → t.get pgPWR Fld.PWR_LIMIT_PLIMIT = nthD [700, 850, 1000, 1100] (sel % 4) 0 ∧ t.get pgPWR Fld.PWR_LIMIT_FCAP = nthD [2400, 2800, 3200, 3400] (sel % 4) 0 ∧
        t.get pgPWR Fld.PWR_FLOOR_FLOOR = 1200 ∧ (∀ h, h < 64 → t.flag (pgHOME h) Fld.HOME_CFG_HASH = decide (sel % 4 = 0)) ∧
        (∀ d, 36 ≤ d → d < 50 → bitN (t.votes d) 8 = decide (42 ≤ d))) ∧
      (pop = 0 → t.alert.noBootSite = true ∧ t.smith.startup = false ∧ ∀ i, i < image.length → load + image.length ≤ 2 ^ 52 →
        Memory.read t.mem.cells (load + i) = image.getD i 0))) ∧
  (∀ (s : State), s.off = false → Answers (.powerFail) s fun t => t.off = true ∧ t.spiDriven = false ∧ t.mem.cells = [] ∧ t.flash = s.flash ∧ t.pending = s.pending ∧ t.homes = State.reset.homes)

/-- A warm reset begins (R660, R661, R662): filtered PKG_RESET_N, or WARM_RESET from either client, closes the mailbox, fences every site, takes every module to
RESET and drops ports and engines; the cause is kept, and whether it ended an in-service operation; while one runs a further one joins it.

A warm reset goes on (R256, R298, R348, R384, R647, R660, R661): 1 ms after it began the writes still held are discarded and counted, and every hub block but Smith,
CLK and TIME is reset; while PKG_RESET_N is asserted the package holds there, and then it applies the profile and starts up, with the cause shown. -/
def Obligations.WarmReset : Prop :=
  ((∀ (s : State) (tag cause : Nat) (args : List Nat) (c : Instr), MbFree s → s.power.stopped = false →
    (cause, c) ∈ [(1, Instr.pkgResetAssert), (2, .warmReset false tag args), (3, .warmReset true tag args)] → Answers c s fun t =>
      t.power.warm = 1 ∧ t.power.warmSince = s.time ∧ t.power.warmCause = cause ∧ t.smith.op = none ∧ t.power.pkgLow = (decide (cause = 1) || s.power.pkgLow) ∧
      (∀ i, i < 16 → t.admitted i = false) ∧ (∀ i m, i < 16 → m < 4 → (t.lk i m .hub).st = 0 ∧ (t.lk i m .die).st = 0) ∧
      (∀ d, 36 ≤ d → d ≤ 41 → s.domOn d = true → t.domState d = 0)) ∧
  (∀ (s : State) (code : Nat), s.off = false → s.power.warm = 0 → s.power.stopped = false → s.power.bootFail = false → s.smith.op = some code → s.smith.autoOp = none →
    Answers (.pkgResetAssert) s fun t => t.power.warm = 1 ∧ t.smith.op = none ∧
      t.power.warmCause = (if code ∈ [0x0A, 0x10, 0x11, 0x12, 0x13, 0x14, 0x19, 0x20, 0x21, 0x22, 0x28, 0x30] then 5 else 1)) ∧
  (∀ (s : State), s.off = false → s.power.warm ≠ 0 → Answers (.pkgResetAssert) s fun t => t = { s with power := { s.power with pkgLow := true } }) ∧
  (∀ (s : State), s.off = false → s.power.warm ≠ 2 → Answers (.pkgResetDeassert) s fun t => t = { s with power := { s.power with pkgLow := false } })) ∧
  (∀ (s : State), s.off = false →
    (s.power.warm = 1 → s.time < s.power.warmSince + 1000000 → Answers (.warmDrainExpire) s fun t => t = s) ∧
    (s.power.warm ≠ 1 → Answers (.warmDrainExpire) s fun t => t = s) ∧
    (s.power.warm = 1 → s.power.warmSince + 1000000 ≤ s.time → s.power.pkgLow = true → Answers (.warmDrainExpire) s fun t =>
      t.power.warm = 2 ∧ t.homes = List.replicate 64 {} ∧ t.net = [] ∧ t.dmas = [] ∧ t.links = [] ∧ t.raised = [] ∧
      (∀ h set i, h < 64 → (t.hearthAt h).vb = [] ∧ (nthD (t.waysAt h set) i {}).valid = false) ∧
      (s.hearths.length = 64 → ∀ h, h < 64 → (t.hearthAt h).mode = if s.domOn (28 + h / 8) then 0 else 2) ∧
      (∀ h off, h < 64 → off < 0x10000 → ((findReg (pgHOME h) off).map RegDef.rwsMask).getD 0 = 0 → t.reg (pgHOME h) off = regReset (pgHOME h) off) ∧
      (∀ p off, p ∈ [pgCLK, pgTIME] → off < 0x10000 → t.reg p off = s.reg p off) ∧
      (∀ n, n < 24 → t.flag (pgMC n) Fld.MC_STAT_SR = true) ∧ (∀ d, 16 ≤ d → d < 28 → t.domState d = 2) ∧
      (∀ n, n < 6 → s.stormed (srcPCIE n 5) = false →
        let lost := (s.groupAt n).pw.length + (s.heldToward (nodePCIE n)).length
        t.get (pgPCIE n) Fld.PW_DISC_COUNT = min (s.get (pgPCIE n) Fld.PW_DISC_COUNT + lost) (2 ^ 32 - 1) ∧
        (0 < lost → ∃ r ∈ t.recs, r.typ = 0x09 ∧ r.sub = 1 ∧ r.page = pgPCIE n ∧ r.words = [lost])) ∧
      (s.homes = List.replicate 64 {} → s.hearths = List.replicate 64 {} → s.mem.wr = [] → s.mem.rowQ = [] → s.mem.rowCur = [] → t.mem.cells = s.mem.cells ∧ t.mem.marks = s.mem.marks)) ∧
    (∀ c, s.power.warm = 1 ∧ s.power.warmSince + 1000000 ≤ s.time ∧ s.power.pkgLow = false ∧ c = Instr.warmDrainExpire ∨ s.power.warm = 2 ∧ c = .pkgResetDeassert →
      s.power.warmCause < 8 → Answers c s fun t =>
      t.power.warm = 0 ∧ t.power.pkgLow = false ∧ t.get pgSMITH Fld.RESET_CAUSE_LAST = s.power.warmCause % 4 ∧ t.flag pgSMITH Fld.RESET_CAUSE_OP_ABORT = decide (4 ≤ s.power.warmCause) ∧
      t.flag pgSMITH Fld.PROFILE_NEXT_V = false ∧
      t.get pgSMITH Fld.PROFILE_IN_FORCE = (if s.flag pgSMITH Fld.PROFILE_NEXT_V then s.get pgSMITH Fld.PROFILE_NEXT else s.get pgSMITH Fld.PROFILE_IN_FORCE) ∧
      (∀ n, n < 24 → t.flag (pgMC n) Fld.MC_STAT_SR = false) ∧ (∀ d, 28 ≤ d → d < 36 → bitN (t.votes d) 0 = true)))

/-- Supply fault and thermal trip (R679, R734, R741): every laser is dark and the clocks of the domains stop; a supply fault loses memory; a trip is a fatal error with its
record, once until PWROK falls.

Restarts of Smith firmware (R648, R649, R650, R674, R675): a restart is counted and stops Smith firmware; when it resumes it writes the records of its pause and ends the
operation it met: a restart OK, an activation OK or FAILED, and one that had not passed its point of no return ABORTED with its holds released;
a trial not running 2 ms on gives back the previous image. -/
def Obligations.FaultsAndRestarts : Prop :=
  (∀ (s : State), s.off = false →
    let dark := fun (t : State) => t.power.stopped = true ∧ ∀ e, e < 4 → t.flag (pgEMB e) Fld.EMB_STAT_LIT = false
    Answers (.supplyFault) s (fun t => dark t ∧ t.alert.supply = true ∧ t.mem.cells = [] ∧ t.mem.marks = []) ∧
    (∀ sensor, s.power.trip = true → Answers (.thermalTrip sensor) s fun t => t = s) ∧
    (∀ sensor, s.power.trip = false → s.stormed srcThermtrip = false → Answers (.thermalTrip sensor) s fun t => dark t ∧ t.power.trip = true ∧ t.alert.thermal = true ∧
      t.flag pgEVT Fld.EVT_STAT_FATAL = true ∧ t.alert.fatal = true ∧ t.raised = s.raised ++ [srcThermtrip] ∧ SameMemory s t ∧
      (s.flag pgEVT Fld.EVT_FATAL_SRC_V = false → t.get pgEVT Fld.EVT_FATAL_SRC_SOURCE = srcThermtrip) ∧
      ∃ r, t.recs = s.recs ++ [r] ∧ r.typ = 0x12 ∧ r.cls = 4 ∧ r.sub = 5 ∧ r.words = [sensor % 256])) ∧
  ((∀ (s : State), s.off = false →
    (s.smith.running = false → Answers (.smithWatchdog) s fun t => t = s) ∧
    (s.smith.running = true → Answers (.smithWatchdog) s fun t => t.smith.running = false ∧ t.smith.down = s.time ∧ CountsOne s t pgSMITH Fld.RESET_CAUSE_SMITH_RST ∧
      t.smith.op = s.smith.op ∧ OnlyPage pgSMITH s t ∧ t = { s with regs := t.regs, smith := t.smith }) ∧
    (s.smith.running = true ∨ s.power.bootFail = true → Answers (.smithResume) s fun t => t = s) ∧
    (∀ t0, s.smith.trial = some t0 →
      (s.smith.running = true ∨ s.time < t0 + 2000000 → Answers (.fwTrialTimeout) s fun t => t = s) ∧
      (s.smith.running = false → t0 + 2000000 ≤ s.time → Answers (.fwTrialTimeout) s fun t => t.flash.slot = 1 - s.flash.slot ∧ t.smith.trial = none ∧ t.smith.running = false ∧
        t.flag pgSMITH Fld.FW_STAT_FALLBACK = true ∧ t.flag pgSMITH Fld.FW_STAT_TRIAL = false ∧ CountsOne s t pgSMITH Fld.RESET_CAUSE_SMITH_RST ∧ OnlyPage pgSMITH s t))) ∧
  (∀ (s : State), s.off = false → s.smith.running = false → s.power.bootFail = false → s.smith.autoOp = none →
    let tag := s.smith.tag
    let ph := s.smith.phase
    let resumes := fun (P : State → Prop) => Answers (.smithResume) s fun t => t.smith.running = true ∧ t.smith.pauseNotes = [] ∧ t.flag pgSMITH Fld.FW_STAT_TRIAL = false ∧ P t
    (s.smith.op = none → (∀ r ∈ s.smith.pauseNotes, s.stormed r.source = false) → resumes fun t => ∀ r ∈ s.smith.pauseNotes, r ∈ t.recs) ∧
    (s.smith.op = some 0x1A → resumes fun t => MbEnds s t 0x1A tag 0 0 0) ∧
    (s.smith.op = some 0x19 → ph ≠ 2 → resumes fun t => MbEnds s t 0x19 tag 0 0 0 ∧ t.flag pgSMITH Fld.FW_STAT_STAGED = false ∧ t.flag pgSMITH Fld.FW_STAT_FALLBACK = false) ∧
    (s.smith.op = some 0x19 → ph = 2 → resumes fun t => MbEnds s t 0x19 tag 6 0 0) ∧
    (s.smith.op = some 0x10 → ph ≤ 3 → resumes fun t => MbEnds s t 0x10 tag 5 0 0 ∧ ∀ h, h < 64 → (t.homeAt h).recallOp = none) ∧
    (∀ code, code ∈ [0x12, 0x13, 0x14] → s.smith.op = some code → resumes fun t => MbEnds s t code tag 5 0 0 ∧ t.fab.hold = false) ∧
    (∀ code, code ∈ [0x03, 0x28] → s.smith.op = some code → resumes fun t => MbEnds s t code tag 5 0 0) ∧
    (s.smith.op = some 0x0A → s.power.bank = 1 ∨ s.power.bank = 2 → resumes fun t => MbEnds s t 0x0A tag 5 0 0 ∧ t.get pgPWR Fld.PWR_STAT_STATE = 0 ∧ t.power.bank = 0)))

/-! ### The mailbox and in-service operations (R657 to R676) -/

/-- Which commands the mailbox takes (R662, R663, R664): host software's write while BUSY is ignored with OVERLAP, a BMC's is answered BUSY to the BMC alone at its next
read; a code its client may not send ends with BADCMD and no effect; during an automatic operation an in-service command ends BUSY, BANKED_ENTER
and FW_ACTIVATE REFUSED.

Short commands (R3, R44, R48, R629, R653, R654, R664, R665): PING, PROFILE_NEXT, PROFILE_WRITE, PROFILE_LIVE, POWER_OFF and VOTE, with the cases each refuses.
That PROFILE_LIVE makes its profile the one in force is the model's choice (log 159). -/
def Obligations.MailboxCommands : Prop :=
  (∀ (s : State) (bmc : Bool) (code cl tag : Nat) (args : List Nat) (c : Instr), s.off = false → s.power.warm = 0 → s.power.bootFail = false → r664 bmc tag args code cl c →
    (s.smith.op ≠ none ∨ s.smith.running = false →
      (bmc = false → Answers c s fun t => t.flag pgSMITH Fld.MB_STAT_OVERLAP = true ∧ OnlyPage pgSMITH s t ∧ t = { s with regs := t.regs }) ∧
      (bmc = true → s.smith.running = true → Answers c s fun t => t = { s with smith := { s.smith with bmcBusy := some (code, tag % 256) } })) ∧
    (s.smith.op = none → s.smith.running = true →
      (bitN cl (b2n bmc) = false → Answers c s fun t => MbEnds s t code tag 1 0 0 ∧ OnlyPage pgSMITH s t ∧ t = { s with regs := t.regs, smith := t.smith, raised := t.raised }) ∧
      (bitN cl (b2n bmc) = true → s.smith.autoOp.isSome = true → code ∈ [0x0A, 0x10, 0x11, 0x12, 0x13, 0x14, 0x19, 0x20, 0x21, 0x22, 0x28, 0x30] →
        Answers c s fun t => MbEnds s t code tag (if code = 0x0A ∨ code = 0x19 then 4 else 3) 0 0 ∧ OnlyPage pgSMITH s t ∧
          t = { s with regs := t.regs, smith := t.smith, raised := t.raised }) ∧
      (∀ code', code' < 256 → (∀ cl' c', r664 bmc tag args code' cl' c' → bitN cl' (b2n bmc) = false) → Answers (.mbUnknownCmd bmc code' tag args) s fun t =>
        MbEnds s t code' tag 1 0 0 ∧ OnlyPage pgSMITH s t ∧ t = { s with regs := t.regs, smith := t.smith, raised := t.raised }))) ∧
  (∀ (s : State) (bmc : Bool) (tag : Nat) (args : List Nat), MbFree s →
    let a := mbA s bmc args
    Answers (.ping bmc tag args) s (fun t => MbEnds s t 0x01 tag 0 (nthD s.flash.ver s.flash.slot 0 % 2 ^ 32) 0 ∧ OnlyPage pgSMITH s t) ∧
    (4 ≤ a 0 → Answers (.profileNext bmc tag args) s (fun t => MbEnds s t 0x02 tag 2 0 0 ∧ t.reg pgSMITH Reg.PROFILE = s.reg pgSMITH Reg.PROFILE) ∧
      Answers (.profileLive bmc tag args) s fun t => MbEnds s t 0x03 tag 2 0 0 ∧ OnlyPage pgSMITH s t) ∧
    (a 0 < 4 → Answers (.profileNext bmc tag args) s fun t => MbEnds s t 0x02 tag 0 0 0 ∧ t.get pgSMITH Fld.PROFILE_NEXT = a 0 ∧
      t.flag pgSMITH Fld.PROFILE_NEXT_V = true ∧ t.get pgSMITH Fld.PROFILE_IN_FORCE = s.get pgSMITH Fld.PROFILE_IN_FORCE ∧ OnlyPage pgSMITH s t) ∧
    (bmc = false → 4 ≤ a 0 → Answers (.profileWrite bmc tag args) s fun t => MbEnds s t 0x04 tag 2 0 0 ∧ t.flash = s.flash) ∧
    (bmc = false → a 0 < 4 → s.readBytes ((a 1 + 2 ^ 32 * a 2) % 2 ^ 52) 128 = none → Answers (.profileWrite bmc tag args) s fun t => MbEnds s t 0x04 tag 6 0 0 ∧ t.flash = s.flash) ∧
    (∀ b, bmc = false → a 0 < 4 → s.readBytes ((a 1 + 2 ^ 32 * a 2) % 2 ^ 52) 128 = some b →
      (State.profRecordOk (a 0) b = false → Answers (.profileWrite bmc tag args) s fun t => MbEnds s t 0x04 tag 2 0 0 ∧ t.flash = s.flash) ∧
      (State.profRecordOk (a 0) b = true → Answers (.profileWrite bmc tag args) s fun t => MbEnds s t 0x04 tag 0 0 0 ∧ t.flash.prof = Tab.put (a 0) (State.profParse b) s.flash.prof ∧
        bitN t.flash.bad (a 0) = false ∧ bitN t.flash.bad (4 + a 0) = false ∧ OnlyPage pgSMITH s t)) ∧
    (a 0 < 4 → s.groupPending 3 = true → Answers (.profileLive bmc tag args) s fun t => MbEnds s t 0x03 tag 4 0 0 ∧ OnlyPage pgSMITH s t) ∧
    (a 0 < 4 → s.groupPending 3 = false → s.quench.busy = true → Answers (.profileLive bmc tag args) s fun t => MbRuns t 0x03 bmc (mbArgs s bmc args) ∧ OnlyPage pgSMITH s t) ∧
    (a 0 < 4 → s.groupPending 3 = false → s.quench.busy = false → s.quench.held = [] → s.qGroup pgPWR = some 0 → s.flash.prof = [] → s.get pgPWR Fld.PWR_FLOOR_FLOOR = 1200 →
      s.weights = [] → (∀ e ∈ s.routes, routeReason (e.1 / 256) (e.1 % 256) (s.route (e.1 / 256) (e.1 % 256)) = 0) →
      Answers (.profileLive bmc tag args) s fun t => MbEnds s t 0x03 tag 0 0 0 ∧ t.get pgSMITH Fld.PROFILE_IN_FORCE = a 0 ∧
        t.get pgPWR Fld.PWR_LIMIT_PLIMIT = nthD [700, 850, 1000, 1100] (a 0) 0 ∧ t.get pgPWR Fld.PWR_LIMIT_FCAP = nthD [2400, 2800, 3200, 3400] (a 0) 0 ∧ t.get pgPWR Fld.PWR_FLOOR_FLOOR = 1200) ∧
    Answers (.powerOff bmc tag args) s (fun t => t.off = true ∧ t.get pgSMITH Fld.MB_STAT_STATUS = 0 ∧ t.get pgSMITH Fld.MB_STAT_CODE = 0x09 ∧ t.mem.cells = []) ∧
    (bmc = true → (50 ≤ a 0 ∨ a 1 < 4 ∨ 7 < a 1 → Answers (.vote bmc tag args) s fun t => MbEnds s t 0x38 tag 2 0 0 ∧ OnlyPage pgSMITH s t) ∧
      (a 0 < 50 → 4 ≤ a 1 → a 1 ≤ 7 → s.get pgPWR Fld.PWR_STAT_STATE = 0 → Answers (.vote bmc tag args) s fun t => MbEnds s t 0x38 tag 0 0 0 ∧
        ∀ j, j < 9 → bitN (t.votes (a 0)) j =
          (if a 0 < 16 ∧ bitN s.pop (a 0) = false ∧ j < 8 then false else if j = a 1 then decide (a 2 % 2 = 1) else bitN (s.votes (a 0)) j))))

/-- Site offline (R667, R668): SITE_OFFLINE is refused for a site that has no die to take or is the boot site beside others; it quiesces the site and frees its
reservations, runs a Drain for it, recalls its lines with a walk in every home, then fences it, takes its modules down and withdraws its vote.

Site online and START (R251, R454, R657, R669): SITE_ONLINE is refused for a site that is admitted or whose containment has not ended; else Traverse of the site starts
with its domain voted on; a Qorsy C32 takes the start PA of START. -/
def Obligations.SiteService : Prop :=
  ((∀ (s : State) (tag : Nat) (args : List Nat), MbFree s →
    let i := mbA s false args 0
    (16 ≤ i → Answers (.siteOffline false tag args) s fun t => MbEnds s t 0x10 tag 2 0 0) ∧
    (i < 16 → s.populated i = false → Answers (.siteOffline false tag args) s fun t => MbEnds s t 0x10 tag 4 0 0) ∧
    (i < 16 → s.bootSite = some i → (∃ j, j < 16 ∧ j ≠ i ∧ s.admitted j = true) → Answers (.siteOffline false tag args) s fun t => MbEnds s t 0x10 tag 4 0 0 ∧ t.admitted i = s.admitted i) ∧
    (i < 16 → s.populated i = true → s.admitted i = true → (s.bootSite ≠ some i ∨ ∀ j, j < 16 → j ≠ i → s.admitted j = false) → (∀ h ∈ s.homes, h.rsv = []) →
      Answers (.siteOffline false tag args) s fun t => MbRuns t 0x10 false (mbArgs s false args) ∧ t.smith.site = i ∧ t.smith.phase = 1 ∧ t.admitted i = true ∧ t.homes = s.homes)) ∧
  (∀ (s : State) (i : Nat), s.off = false → i < 16 → s.smith.op = some 0x10 → s.smith.site = i → s.smith.running = true →
    (s.smith.phase = 1 → s.siteQuiet i = false → Answers (.siteQuiesceDone) s fun t => t = s) ∧
    (s.smith.phase = 1 → s.siteQuiet i = true → Answers (.siteQuiesceDone) s fun t => t.smith.phase = 2 ∧
      ∃ d ∈ (t.siteAt i).drains, d.p.op = 0 ∧ d.start = s.time) ∧
    (∀ d l, s.smith.phase = 2 → (s.siteAt i).drains = d :: l → d.p.op = 0 →
      (s.drainReady d = false → Answers (.siteDrainDone) s fun t => t = s) ∧
      (s.drainReady d = true → Answers (.siteDrainDone) s fun t => t.smith.phase = 3 ∧ t.smith.args = [i, if d.fail.isSome then 2 else 0] ∧ (t.siteAt i).drains = l ∧
        (∀ h, h < 64 → (t.homeAt h).recallOp = some (i, 0) ∧ t.flag (pgHOME h) Fld.HOME_LOSS_STAT_RECALL = true ∧ t.get (pgHOME h) Fld.HOME_LOSS_STAT_RSITE = i) ∧
        (d.fail.isSome = true → t.flag (pgSITE i) Fld.DRAIN_STAT_DRAIN_ERR = true))) ∧
    (s.smith.phase = 3 → (∃ h ∈ s.homes, h.recallOp = some (i, 12287)) → Answers (.recallDone) s fun t => t = s) ∧
    (s.smith.phase = 3 → s.homes.length = 64 → (∀ h ∈ s.homes, h.recallOp = some (i, 12288) ∧ h.trk = [] ∧ h.dir = []) → s.domState i = 2 → (∀ j, 4 ≤ j → j < 8 → bitN (s.votes i) j = false) → (∀ j, j < 4 → 0 < j → bitN (s.votes i) j = false) →
      Answers (.recallDone) s fun t => t.smith.phase = 5 ∧ t.smith.op = some 0x10 ∧ t.admitted i = false ∧ t.fenced i = true ∧ (∀ m, m < 4 → (t.lk i m .hub).st = 0 ∧ t.flag (pgLNK i) (Fld.LNK_CTL_EN m) = false) ∧
        bitN (t.votes i) 0 = false ∧ (t.siteAt i).pub = 3 ∧ (∀ h, h < 64 → (t.homeAt h).recallOp = none))) ∧
  (∀ (s : State) (i st : Nat), s.off = false → s.smith.op = some 0x10 → s.smith.phase = 5 → s.smith.site = i → s.smith.running = true → s.smith.args = [i, st] → st < 2 ^ 32 → s.power.warm = 0 →
    s.domState i = 0 → Answers (.platUpdate) s fun t => MbEnds s t 0x10 s.smith.tag 0 0 st)) ∧
  ((∀ (s : State) (tag : Nat) (args : List Nat), MbFree s →
    let i := mbA s false args 0
    (16 ≤ i → Answers (.siteOnline false tag args) s fun t => MbEnds s t 0x11 tag 2 0 0) ∧
    (i < 16 → s.populated i = false ∨ s.admitted i = true ∨ s.walkClear i = false → Answers (.siteOnline false tag args) s fun t => MbEnds s t 0x11 tag 4 0 0 ∧ t.admitted i = s.admitted i) ∧
    (i < 16 → s.populated i = true → s.admitted i = false → s.fenced i = true → s.walkClear i = true → (s.siteAt i).trav = none → s.groupPending (2 ^ (s.qGroup (pgSITE i)).getD 2) = false →
      s.get pgPWR Fld.PWR_STAT_STATE = 0 → Answers (.siteOnline false tag args) s fun t => MbRuns t 0x11 false (mbArgs s false args) ∧ t.smith.site = i ∧
        t.smith.startPa = (mbA s false args 1 + 2 ^ 32 * mbA s false args 2) % 2 ^ 52 ∧ (t.siteAt i).trav.isSome = true ∧ bitN (t.votes i) 0 = true ∧ t.flag pgPWR (Fld.DOM_STAT_TARGET i) = true)) ∧
  (∀ (s : State) (site m pa : Nat), Running s → site < 16 → m < 4 → (s.lk site m .die).st = 4 → Answers (.startReceived site m pa []) s fun t => (t.dieAt site).start = some pa))

/-- Modules and routes (R435, R665, R670 to R673): MODULE_RETIRE retires both ends and holds injections for the alternate set, refused for the last module; a
spontaneous retirement does the same, cancelling pending values; MODULE_REPAIR clears the failed lanes and trains; ROUTE_SWAP with avoid is refused where
a pending route crosses the router; the change ends once the fabric is empty, or with TIMEOUT after 20 us. -/
def Obligations.ModulesAndRoutes : Prop :=
  (∀ (s : State) (tag : Nat) (args : List Nat), MbFree s →
    let i := mbA s false args 0
    let m := mbA s false args 1
    (16 ≤ i ∨ 4 ≤ m → Answers (.moduleRetire false tag args) s (fun t => MbEnds s t 0x12 tag 2 0 0) ∧ Answers (.moduleRepair false tag args) s fun t => MbEnds s t 0x13 tag 2 0 0) ∧
    (i < 16 → m < 4 → s.admitted i = true → ((∀ k, k < 4 → k ≠ m → (s.lk i k .hub).st ∉ [4, 5]) ∨ s.groupPending 2 = true) →
      Answers (.moduleRetire false tag args) s fun t => MbEnds s t 0x12 tag 4 0 0 ∧ t.links = s.links) ∧
    (∀ k, i < 16 → m < 4 → s.admitted i = true → k < 4 → k ≠ m → (s.lk i k .hub).st = 4 → (s.lk i m .hub).st = 4 → (s.lk i m .die).st ≠ 0 → s.groupPending 2 = false → s.smith.routeSet = 0 →
      Answers (.moduleRetire false tag args) s fun t => (t.lk i m .hub).st = 7 ∧ (t.lk i m .die).st = 7 ∧ t.fab.hold = true ∧ t.smith.routeSet = 1 + 4 * i + m ∧ t.smith.hold = s.time ∧
        MbRuns t 0x12 false (mbArgs s false args)) ∧
    (∀ k, i < 16 → m < 4 → s.admitted i = true → k < 4 → k ≠ m → (s.lk i k .hub).st = 4 → (s.lk i m .hub).st = 4 → s.groupPending 2 = false → s.smith.routeSet ≠ 0 → (s.smith.routeSet - 1) / 4 = i →
      s.stormed srcSmithRecord = false → Answers (.moduleRetire false tag args) s fun t => MbEnds s t 0x12 tag 0 0 0 ∧ (t.lk i m .hub).st = 7 ∧ t.fab.hold = s.fab.hold ∧ t.smith.routeSet = s.smith.routeSet ∧
        ∃ r ∈ t.recs, r.typ = 0x13 ∧ r.sub = 4) ∧
    (i < 16 → m < 4 → (s.lk i m .hub).st ≠ 7 → Answers (.moduleRepair false tag args) s fun t => MbEnds s t 0x13 tag 4 0 0 ∧ t.links = s.links) ∧
    (i < 16 → m < 4 → (s.lk i m .hub).st = 7 → s.groupPending 2 = false → s.domOn i = true → Answers (.moduleRepair false tag args) s fun t => MbRuns t 0x13 false (mbArgs s false args) ∧
      (t.lk i m .hub).st = 1 ∧ (t.lk i m .die).st = 1 ∧ t.flag (pgLNK i) (Fld.LNK_CTL_EN m) = true ∧
      t.reg (pgLNK i) (Reg.LNK_RXFAIL0 m) = 0 ∧ t.reg (pgLNK i) (Reg.LNK_RXFAIL1 m) = 0 ∧ t.reg (pgLNK i) (Reg.LNK_RXFAIL2 m) = 0) ∧
    (bitN i 7 = true → 96 ≤ bits i 0 7 → Answers (.routeSwap false tag args) s fun t => MbEnds s t 0x14 tag 2 0 0 ∧ t.fab = s.fab) ∧
    (bitN i 7 = false → Answers (.routeSwap false tag args) s fun t => MbRuns t 0x14 false (mbArgs s false args) ∧ t.fab.hold = true ∧ t.smith.hold = s.time ∧ t.routesPend = s.routesPend)) ∧
  (∀ (s : State) (site m : Nat), s.off = false → s.smith.running = true → site < 16 → m < 4 →
    (s.serving = true ∨ s.admitted site = false ∨ (s.lk site m .hub).st ≠ 7 → Answers (.alternateRouteApply site m) s fun t => t = s) ∧
    (s.serving = false → s.fab.hold = false → s.quench.busy = false → s.admitted site = true → (s.lk site m .hub).st = 7 → s.smith.routeSet = 0 → s.groupPending 2 = false →
      Answers (.alternateRouteApply site m) s fun t => t.smith.autoOp = some (2, 4 * site + m) ∧ t.smith.routeSet = 1 + 4 * site + m ∧ t.fab.hold = true ∧ t.smith.hold = s.time)) ∧
  (∀ (s : State), s.off = false → s.fab.hold = true → s.smith.running = true →
    (s.fabricEmpty = false → Answers (.routeQuiesceDone) s fun t => t = s) ∧
    (s.fabricEmpty = true → s.quench.busy = false → s.quench.held = [] → s.routesPend = [] → s.weightsPend = [] → s.shadow = [] → s.routes = [] → s.weights = [] → s.smith.autoOp = none →
      ∀ code, code ∈ [0x12, 0x13, 0x14] → s.smith.op = some code → Answers (.routeQuiesceDone) s fun t => MbEnds s t code s.smith.tag 0 0 0 ∧ t.fab.hold = false ∧
        ∀ k v, k < 8 → s.qGroup (pgFAB k) = some 1 → (k, v) ∈ s.routeBasePend → (∀ v', (k, v') ∈ s.routeBasePend → v' = v) → t.baseSet k = v) ∧
    (s.fabricEmpty = true ∨ s.time < s.smith.hold + 20000 → Answers (.routeQuiesceTimeout) s fun t => t = s) ∧
    (s.fabricEmpty = false → s.smith.hold + 20000 ≤ s.time → ∀ code, code ∈ [0x12, 0x13, 0x14] → s.smith.op = some code → s.smith.autoOp = none →
      Answers (.routeQuiesceTimeout) s fun t => MbEnds s t code s.smith.tag 7 0 0 ∧ t.fab.hold = false ∧ t.routesPend = s.routesPend ∧ t.weightsPend = s.weightsPend ∧ t.routeBasePend = s.routeBasePend))

/-- Firmware, memory, Hearth, ports and Ember (R342, R343, R344, R369, R370, R541, R647, R665, R674): FW_STAGE, FW_ACTIVATE, SMITH_RESTART, CHAN_SPARE, HEARTH_OFFLINE,
HEARTH_ONLINE, PORT_MODE and EMBER_RELEASE, with the cases each refuses. -/
def Obligations.ServiceCommands : Prop :=
  (∀ (s : State) (tag : Nat) (args : List Nat), MbFree s →
    let a := mbA s false args
    let run := fun (t : State) (code : Nat) => MbRuns t code false (mbArgs s false args)
    let img := s.readBytes ((a 0 + 2 ^ 32 * a 1) % 2 ^ 52) (min (a 2) 0x400000)
    (img = none → Answers (.fwStage false tag args) s fun t => MbEnds s t 0x18 tag 6 0 0 ∧ t.flash = s.flash) ∧
    (∀ b, img = some b → (a 2 = 0 ∨ 0x400000 < a 2 ∨ Config.imageOk b = false) → Answers (.fwStage false tag args) s fun t => MbEnds s t 0x18 tag 4 0 0 ∧ t.flash = s.flash) ∧
    (∀ b, img = some b → 0 < a 2 → a 2 ≤ 0x400000 → Config.imageOk b = true → Answers (.fwStage false tag args) s fun t => MbEnds s t 0x18 tag 0 0 0 ∧
      t.flag pgSMITH Fld.FW_STAT_STAGED = true ∧ t.flash.slot = s.flash.slot ∧ OnlyPage pgSMITH s t) ∧
    (s.flag pgSMITH Fld.FW_STAT_STAGED = false → Answers (.fwActivate false tag args) s fun t => MbEnds s t 0x19 tag 4 0 0 ∧ t.flash = s.flash) ∧
    (s.flag pgSMITH Fld.FW_STAT_STAGED = true → Answers (.fwActivate false tag args) s fun t => run t 0x19 ∧ t.smith.running = false ∧ t.flash.slot = 1 - s.flash.slot ∧
      t.flag pgSMITH Fld.FW_STAT_TRIAL = true ∧ t.smith.trial = some s.time ∧ CountsOne s t pgSMITH Fld.RESET_CAUSE_SMITH_RST) ∧
    (12 ≤ a 0 ∨ 16 ≤ a 1 → Answers (.chanSpare false tag args) s fun t => MbEnds s t 0x20 tag 2 0 0) ∧
    (a 0 < 12 → a 1 < 16 → s.flag (pgSTK (a 0)) Fld.STK_STAT_SPARE_USED = true ∨ s.flag (pgSTK (a 0)) Fld.STK_STAT_SPARE_BUSY = true ∨ s.get pgPWR Fld.PWR_STAT_STATE ≠ 0 →
      Answers (.chanSpare false tag args) s fun t => MbEnds s t 0x20 tag 4 0 0 ∧ t.mem = s.mem) ∧
    (a 0 < 12 → a 1 < 16 → s.flag (pgSTK (a 0)) Fld.STK_STAT_SPARE_USED = false → s.flag (pgSTK (a 0)) Fld.STK_STAT_SPARE_BUSY = false → s.get pgPWR Fld.PWR_STAT_STATE = 0 →
      Answers (.chanSpare false tag args) s fun t => run t 0x20 ∧ t.flag (pgSTK (a 0)) Fld.STK_STAT_SPARE_BUSY = true ∧ Tab.get? (a 0) t.mem.spareChan = some (a 1) ∧ SameMemory s t) ∧
    (8 ≤ a 0 → Answers (.hearthOffline false tag args) s (fun t => MbEnds s t 0x21 tag 2 0 0) ∧ Answers (.hearthOnline false tag args) s fun t => MbEnds s t 0x22 tag 2 0 0) ∧
    (a 0 < 8 → a 0 = 0 ∨ s.scrWays ≠ 0 ∨ s.flag (pgHRTH 0) Fld.ROP_STAT_BUSY = true → Answers (.hearthOffline false tag args) s fun t => MbEnds s t 0x21 tag 4 0 0 ∧ t.hearths = s.hearths) ∧
    (0 < a 0 → a 0 < 8 → s.scrWays = 0 → s.flag (pgHRTH 0) Fld.ROP_STAT_BUSY = false → bitN (s.get (pgHRTH 0) Fld.HRTH_GSTAT_OFFLINE) (a 0) = false → (∀ j, 0 < j → j < 8 → bitN (s.votes (28 + a 0)) j = false) →
      s.get pgPWR Fld.PWR_STAT_STATE = 0 → Answers (.hearthOffline false tag args) s fun t => run t 0x21 ∧ bitN (t.get (pgHRTH 0) Fld.HRTH_GSTAT_OFFLINE) (a 0) = true ∧
        (∀ i, i < 8 → t.hearthAt (8 * a 0 + i) = { mode := 2 }) ∧ t.flag pgPWR (Fld.DOM_STAT_TARGET (28 + a 0)) = false) ∧
    (a 0 < 8 → bitN (s.get (pgHRTH 0) Fld.HRTH_GSTAT_OFFLINE) (a 0) = false → Answers (.hearthOnline false tag args) s fun t => MbEnds s t 0x22 tag 4 0 0 ∧ t.hearths = s.hearths) ∧
    (a 0 < 8 → bitN (s.get (pgHRTH 0) Fld.HRTH_GSTAT_OFFLINE) (a 0) = true → s.domState (28 + a 0) = 0 → s.get pgPWR Fld.PWR_STAT_STATE = 0 → Answers (.hearthOnline false tag args) s fun t =>
      run t 0x22 ∧ bitN (t.votes (28 + a 0)) 0 = true ∧ t.flag pgPWR (Fld.DOM_STAT_TARGET (28 + a 0)) = true)) ∧
  (∀ (s : State) (bmc : Bool) (tag : Nat) (args : List Nat), MbFree s →
    let a := mbA s bmc args
    Answers (.smithRestart bmc tag args) s (fun t => MbRuns t 0x1A bmc (mbArgs s bmc args) ∧ t.smith.running = false ∧ CountsOne s t pgSMITH Fld.RESET_CAUSE_SMITH_RST ∧ OnlyPage pgSMITH s t) ∧
    (4 ≤ a 0 ∨ 3 ≤ a 1 → Answers (.portMode bmc tag args) s fun t => MbEnds s t 0x28 tag 2 0 0) ∧
    (a 0 < 4 → a 1 < 3 → s.groupPending 0x100 = true → Answers (.portMode bmc tag args) s fun t => MbEnds s t 0x28 tag 4 0 0 ∧ OnlyPage pgSMITH s t) ∧
    (∀ n, a 0 = n → n < 4 → a 1 < 3 → s.groupPending 0x100 = false → s.quench.busy = false → s.quench.held = [] → s.pageOff (pgNEP n) = false → s.qGroup (pgNEP n) = some 8 → (∀ k, k < 6 → s.qGroup (pgFAB k) ≠ some 8) → s.ne.ctxs = [] →
      1518 ≤ s.get (pgNEP n) Fld.PORT_CFG_MAXFRAME → s.get (pgNEP n) Fld.PORT_CFG_MAXFRAME ≤ 9216 → s.get (pgNEP n) Fld.PORT_CFG_PFC_EN = 0 → s.get (pgNEP n) Fld.PFC_THR_XOFF < s.get (pgNEP n) Fld.PFC_THR_XON →
      Answers (.portMode bmc tag args) s fun t => MbEnds s t 0x28 tag 0 0 0 ∧ t.get (pgNEP n) Fld.PORT_CFG_MODE = a 1) ∧
    (4 ≤ a 0 → Answers (.emberRelease bmc tag args) s fun t => MbEnds s t 0x30 tag 2 0 0) ∧
    (∀ e k, a 0 = e → e < 4 → k < 8 → s.laneInUse (e / 2) k = true → s.laneSrc (e / 2) k = e → s.laneFed (e / 2) k = true → s.chanUsable (State.emPartner e) k = false →
      Answers (.emberRelease bmc tag args) s fun t => MbEnds s t 0x30 tag 4 0 0 ∧ t.lanes = s.lanes) ∧
    (∀ e, a 0 = e → e < 4 → s.lanes = [] → (∀ k, k < 8 → s.laneSrc (e / 2) k ≠ e ∨ s.laneFed (e / 2) k = false) → Answers (.emberRelease bmc tag args) s fun t =>
      MbEnds s t 0x30 tag 0 0 0 ∧ t.flag (pgEMB e) Fld.EMB_STAT_RELEASED = true))

/-- The BMC link and the Plat (R658, R659, R663, R676, R767): a heartbeat every 100 ms gives the state; a BMC that was turned away reads BUSY with its command once; Smith firmware
brings the Plat up to date between two increments of PLAT_SEQ and leaves it where nothing changed. -/
def Obligations.BmcAndPlat : Prop :=
  ∀ (s : State), s.off = false →
    (s.time < s.smith.beat + 100000000 → Answers (.bmcHeartbeat) s fun t => t = s) ∧
    (s.smith.beat + 100000000 ≤ s.time → s.smith.running = true → Answers (.bmcHeartbeat) s fun t => t = { s with smith := { s.smith with beat := s.time, ibi := some s.bmcState } }) ∧
    (s.smith.running = true → s.smith.bmcBusy = none → Answers (.bmcMbStatRead) s fun t =>
      t.smith.bmcData / 2 = s.reg pgSMITH Reg.MB_STAT / 2 ∧ bitN t.smith.bmcData 0 = s.smith.op.isSome ∧ t = { s with smith := t.smith }) ∧
    (∀ code tag, s.smith.running = true → s.smith.bmcBusy = some (code, tag) → code < 256 → tag < 256 → Answers (.bmcMbStatRead) s fun t =>
      bits t.smith.bmcData 4 3 = 3 ∧ bits t.smith.bmcData 8 8 = tag ∧ bits t.smith.bmcData 16 8 = code ∧ t.smith.bmcBusy = none ∧ t = { s with smith := t.smith }) ∧
    (s.smith.running = true → s.smith.op = none → s.power.warm = 0 →
      ((∀ w, w < 80 → s.reg pgPKG (Reg.PLAT w) = ((List.range 4).map fun b => s.platByte (4 * w + b) * 256 ^ b).sum) → Answers (.platUpdate) s fun t => t = s) ∧
      ((∃ w, w < 80 ∧ s.reg pgPKG (Reg.PLAT w) ≠ ((List.range 4).map fun b => s.platByte (4 * w + b) * 256 ^ b).sum) → (∀ i, i < 320 → s.platByte i < 256) → Answers (.platUpdate) s fun t =>
        (∀ w, w < 80 → t.reg pgPKG (Reg.PLAT w) = ((List.range 4).map fun b => s.platByte (4 * w + b) * 256 ^ b).sum) ∧
        t.get pgPKG Fld.PLAT_SEQ_SEQ = (s.get pgPKG Fld.PLAT_SEQ_SEQ + 2) % 2 ^ 32 ∧ OnlyPage pgPKG s t ∧ t = { s with regs := t.regs })) ∧
    (s.smith.running = false → Answers (.platUpdate) s fun t => t = s)

/-! ### Events and interrupt messages (R682 to R695) -/

/-- Firings (R683 to R687, R693): a firing reaches Smith firmware and sets its EVT_PEND bit; the first of a pending bit that is routed sends one message,
which the checks of R690 may discard; no other sends one; in a storm it is counted and sends none. -/
def Obligations.EventFirings : Prop :=
  ∀ (s : State) (n : Nat), s.off = false →
    let g := n / 32
    let core := s.get pgEVT (Fld.EVT_ROUTE_CORE g)
    let vec := s.get pgEVT (Fld.EVT_ROUTE_VECTOR g)
    let pending := bitN (s.reg pgEVT (Reg.EVT_PEND g)) (n % 32) = true
    let win := 100000 * s.get pgEVT Fld.EVT_STORM_CFG_WINDOW
    let calm := stormable n = false ∨ Tab.get? n s.storm.on = none ∧ 0 < s.get pgEVT Fld.EVT_STORM_CFG_COUNT ∧
      ∀ t0 k, Tab.get? n s.storm.win = some (t0, k) → s.time < t0 + win → k < s.get pgEVT Fld.EVT_STORM_CFG_COUNT
    let fires := fun (P : State → Prop) => Answers (.eventFire n) s fun t => bitN (t.reg pgEVT (Reg.EVT_PEND g)) (n % 32) = true ∧
      (∀ b, b < 32 → b ≠ n % 32 → bitN (t.reg pgEVT (Reg.EVT_PEND g)) b = bitN (s.reg pgEVT (Reg.EVT_PEND g)) b) ∧ t.smith.copies = s.smith.copies ++ [n] ∧ P t
    (srcAssigned n = false → Answers (.eventFire n) s fun t => t = s) ∧
    (srcAssigned n = true → calm →
      (¬ Routed s n ∨ pending → fires (NoMessage s)) ∧
      (Routed s n → ¬ pending → s.coreOk core = true → fires fun t => MsgTaken s t core vec) ∧
      (Routed s n → ¬ pending → s.coreOk core = false → s.stormed srcMsgDrop = false → fires fun t => MsgDropped s t pgEVT core vec ∧ t.sites = s.sites)) ∧
    (∀ t0 k, srcAssigned n = true → stormable n = true → Tab.get? n s.storm.on = some (t0, some k) → bitN (s.reg pgEVT (Reg.EVT_STORM g)) (n % 32) = true → fires fun t =>
      Tab.get? n t.storm.on = some (t0, some (k + 1)) ∧ NoMessage s t)

/-- A firing (R684) of any source that R682 assigns: a copy goes to Smith firmware and the source's bit of EVT_PEND is set, whatever its mask, route and storm. -/
def Obligations.FiringSetsPending : Prop :=
  ∀ (s : State) (n : Nat), s.off = false → srcAssigned n = true → Answers (.eventFire n) s fun t =>
    t.smith.copies = s.smith.copies ++ [n] ∧ bitN (t.reg pgEVT (Reg.EVT_PEND (n / 32))) (n % 32) = true

/-- Storms (R693, R694): the firing that exceeds COUNT in its window sets the storm bit with one STORM record and sends no message; after HOLDOFF the bit clears with a
STORM_END of the firings suppressed, and a pending bit that is routed sends its message; a window ends without a storm.

Masks and routes (R68, R70, R687): a write of EVT_MASK or EVT_ROUTE stores its bits, a write of EVT_PEND clears the bits it names; a write that makes a pending bit
eligible sends one message for the group. -/
def Obligations.StormsAndMasks : Prop :=
  (∀ (s : State) (n : Nat), s.off = false → n < 2048 →
    let g := n / 32
    let win := 100000 * s.get pgEVT Fld.EVT_STORM_CFG_WINDOW
    let hold := 1000000 * s.get pgEVT Fld.EVT_STORM_CFG_HOLDOFF
    (∀ t0, srcAssigned n = true → stormable n = true → Tab.get? n s.storm.on = none → Tab.get? n s.storm.win = some (t0, s.get pgEVT Fld.EVT_STORM_CFG_COUNT) → s.time < t0 + win →
      (s.storm.on.filter fun e => e.2.2.isSome).length < 64 → Answers (.eventFire n) s fun t => bitN (t.reg pgEVT (Reg.EVT_STORM g)) (n % 32) = true ∧
        bitN (t.reg pgEVT (Reg.EVT_PEND g)) (n % 32) = true ∧ t.flag pgEVT Fld.EVT_STAT_STORM = true ∧ srcEvtStorm ∈ t.raised ∧ Tab.get? n t.storm.on = some (s.time, some 1) ∧
        Tab.get? n t.storm.win = none ∧ (∃ r, t.recs = s.recs ++ [r] ∧ r.typ = 0x16 ∧ r.source = n) ∧ NoMessage s t) ∧
    (∀ t0 k, Tab.get? n s.storm.on = some (t0, k) →
      (s.time < t0 + hold → Answers (.stormEnd n) s fun t => t = s) ∧
      (t0 + hold ≤ s.time → s.stormed n = true → bitN (s.reg pgEVT (Reg.EVT_PEND g)) (n % 32) = false ∨ s.flag pgEVT (Fld.EVT_ROUTE_EN g) = false → Answers (.stormEnd n) s fun t =>
        t.stormed n = false ∧ Tab.get? n t.storm.on = none ∧ (∃ r, t.recs = s.recs ++ [r] ∧ r.typ = 0x17 ∧ r.source = n ∧ r.words = [k.getD 0xFFFFFFFF]) ∧ NoMessage s t) ∧
      (t0 + hold ≤ s.time → s.stormed n = true → bitN (s.reg pgEVT (Reg.EVT_PEND g)) (n % 32) = true → s.flag pgEVT (Fld.EVT_ROUTE_EN g) = true → bitN (s.reg pgEVT (Reg.EVT_MASK g)) (n % 32) = false →
        s.coreOk (s.get pgEVT (Fld.EVT_ROUTE_CORE g)) = true → Answers (.stormEnd n) s fun t => t.stormed n = false ∧ MsgTaken s t (s.get pgEVT (Fld.EVT_ROUTE_CORE g)) (s.get pgEVT (Fld.EVT_ROUTE_VECTOR g)))) ∧
    (Tab.get? n s.storm.on = none → Answers (.stormEnd n) s fun t => t = s) ∧
    (∀ t0 k, Tab.get? n s.storm.win = some (t0, k) →
      (s.time < t0 + win → Answers (.stormWindowEnd n) s fun t => t = s) ∧
      (t0 + win ≤ s.time → Answers (.stormWindowEnd n) s fun t => Tab.get? n t.storm.win = none ∧ t = { s with storm := t.storm })) ∧
    (n < 1280 → Answers (.evtSwTrig n) s fun t => t.flag pgEVT Fld.PAGE_STAT_ACC_ERR = true ∧ t.raised = s.raised ++ [srcAccErr] ∧ OnlyPage pgEVT s t) ∧
    (1280 ≤ n → n < 2048 → Answers (.evtSwTrig n) s fun t => t = { s with raised := s.raised ++ [n] })) ∧
  (∀ (s : State) (g data : Nat), s.off = false → g < 64 → data < 2 ^ 32 →
    let core := s.get pgEVT (Fld.EVT_ROUTE_CORE g)
    let vec := s.get pgEVT (Fld.EVT_ROUTE_VECTOR g)
    let writes := fun (off v : Nat) => Answers (.evtMaskWrite off data) s fun t => t.reg pgEVT off = v ∧ OnlyPage pgEVT s t ∧ t = { s with regs := t.regs } ∧
      ∀ o, o < 0x10000 → o ≠ off → t.reg pgEVT o = s.reg pgEVT o
    (s.flag pgEVT (Fld.EVT_ROUTE_EN g) = false → writes (Reg.EVT_MASK g) data) ∧
    (writes (Reg.EVT_PEND g) (s.reg pgEVT (Reg.EVT_PEND g) - (s.reg pgEVT (Reg.EVT_PEND g) &&& data))) ∧
    (s.reg pgEVT (Reg.EVT_PEND g) = 0 → data &&& 0x7FC00000 = 0 → writes (Reg.EVT_ROUTE g) data) ∧
    (∀ b, b < 32 → s.flag pgEVT (Fld.EVT_ROUTE_EN g) = true → bitN (s.reg pgEVT (Reg.EVT_PEND g)) b = true → bitN (s.reg pgEVT (Reg.EVT_STORM g)) b = false →
      bitN (s.reg pgEVT (Reg.EVT_MASK g)) b = true → bitN data b = false → s.coreOk core = true → Answers (.evtMaskWrite (Reg.EVT_MASK g) data) s fun t =>
        t.reg pgEVT (Reg.EVT_MASK g) = data ∧ MsgTaken s t core vec))

/-- Interrupt messages (R689 to R692): LNK[s] consumes a write to a core's block and answers DevWrN; INTR is acknowledged and its vector delivered once; INTR_ACK ends a
message; one unacknowledged for 1 us is sent again, and 20 us after its consumption, outside Banked, it is discarded and counted. -/
def Obligations.InterruptMessages : Prop :=
  (∀ (s : State) (p : Pkt) (core : Nat), s.off = false → core < 512 → paOf p.addr.toNat = 0xFFEFFFF000000 + core * 0x4000 → s.net = [⟨p, .rx, 0⟩] →
    (p.op = 0x68 → Answers (.interruptMessage p) s fun t => MsgTaken s t core (lineField p.data 0 4 % 4096) ∧ ∀ e ∈ t.net, e.p.op ≠ 0x78) ∧
    (p.op = 0x71 → Answers (.interruptMessage p) s fun t => MsgTaken s t core (lineField p.data 0 4 % 4096) ∧
      ∃ e ∈ t.net, e.p.op = 0x78 ∧ e.p.dst = p.src ∧ e.p.txn = p.txn ∧ bits e.p.addr.toNat 0 4 = 0)) ∧
  (∀ (s : State) (site m seq core vector : Nat), Running s → site < 16 → m < 4 →
    let msg : Lm := ⟨0x64, [seq, core, vector]⟩
    let out := fun (s : State) => (s.lk site m .hub).outbox.map (·.lm)
    (msg ∉ out s → Answers (.intr site m seq core vector []) s fun t => t = s) ∧
    (msg ∈ out s → (s.lk site m .die).st = 4 → Answers (.intr site m seq core vector []) s fun t => SendsLm site m .die [⟨0x65, [seq]⟩] s t ∧
      out t = (out s).erase msg ∧
      (t.dieAt site).intrs = (if seq ∈ (s.dieAt site).intrSeen then (s.dieAt site).intrs else (s.dieAt site).intrs ++ [(core, vector)]))) ∧
  (∀ (s : State) (site m : Nat) (y : IntrMsg) (q : Nat), s.off = false → site < 16 → (s.siteAt site).intr = [y] → y.seq = some q →
    (m < 4 → (s.lk site m .hub).st = 4 → Answers (.intrAck site m q []) s fun t => (t.siteAt site).intr = []) ∧
    (s.lowActive site = some m → y.sent + 1000 ≤ s.time → Answers (.intrResend site) s fun t => SendsLm site m .hub [⟨0x64, [q, y.core % 32, y.vector]⟩] s t ∧
      (t.siteAt site).intr = [{ y with sent := s.time }]) ∧
    (s.time < y.sent + 1000 → Answers (.intrResend site) s fun t => t.links = s.links ∧ (t.siteAt site).intr = [y]) ∧
    (s.time < y.since + 20000 ∨ 2 ≤ s.get pgPWR Fld.PWR_STAT_STATE → Answers (.intrTimeout site) s fun t => t = s) ∧
    (y.since + 20000 ≤ s.time → s.get pgPWR Fld.PWR_STAT_STATE < 2 → s.stormed srcMsgDrop = false → Answers (.intrTimeout site) s fun t =>
      (t.siteAt site).intr = [] ∧ MsgDropped s t (pgLNK site) y.core y.vector))

/-! ### The Field Book (R696 to R710) -/

/-- Capture (R696 to R700, R702 to R704): a record opens with LEN, TYPE, SOURCE, CLASS, TIME, PAGE, NODE, OPCODE and SUB, packed four words to a capture word; without
room it is dropped whole and counted, its source raised all the same, and the next that finds room follows a DROP record; one that gets no word for 10 us is closed with TRUNC. -/
def Obligations.FieldBookCapture : Prop :=
  (∀ (r : Rec) (n : Nat), r.words.length ≤ 26 → let ws := recWords r n
    (if r.addr = none ∧ r.words = [] then ws.length = 4 else ws.length = 6 + r.words.length) ∧ bits (nthD ws 0 0) 0 6 = ws.length ∧ bits (nthD ws 0 0) 8 8 = r.typ % 256 ∧
    bits (nthD ws 0 0) 16 11 = r.source % 2048 ∧ bits (nthD ws 0 0) 27 3 = r.cls % 8 ∧ nthD ws 1 0 = n % 2 ^ 32 ∧ nthD ws 2 0 = n / 2 ^ 32 % 2 ^ 32 ∧ bits (nthD ws 3 0) 0 12 = r.page % 4096 ∧
    bits (nthD ws 3 0) 12 8 = r.node % 256 ∧ bits (nthD ws 3 0) 20 7 = r.opcode % 128 ∧ bits (nthD ws 3 0) 27 5 = r.sub % 32 ∧
    (let c := packWords 8 ws true
     (c.flatMap (·.w)).take ws.length = ws ∧ (c.map (·.vbytes)).sum = 4 * ws.length ∧ (∀ x ∈ c, x.w.length = 4 ∧ x.ue = false) ∧ c.map (·.sor) = true :: List.replicate (c.length - 1) false)) ∧
  (∀ (s : State) (r : Rec) (l : List Rec), s.off = false → s.book.openRec = none → s.recs = r :: l →
    let pack := fun (x : Rec) => packWords 8 (recWords x s.time) true
    (s.book.cur.length ≤ 504 → s.book.drops = none → Answers (.fbRecord none) s fun t => t.recs = l ∧ t.book = { s.book with cur := s.book.cur ++ pack r } ∧
      t.raised = s.raised ++ (if r.fires = true ∧ r.cls ≠ 0 then [r.source] else [])) ∧
    (504 < s.book.cur.length → s.book.other ≠ [] → s.book.drops = none → Answers (.fbRecord none) s fun t => t.recs = l ∧ t.book = { s.book with drops := some (1, s.time) } ∧
      CountsOne s t pgFB Fld.FB_DROP_CNT_COUNT ∧ t.flag pgFB Fld.FB_STAT_DROP = true ∧ t.raised = s.raised ++ (if r.fires = true ∧ r.cls ≠ 0 then [r.source] else []) ++ [srcFbDrop]) ∧
    (∀ n t0, 504 < s.book.cur.length → s.book.other ≠ [] → s.book.drops = some (n, t0) → Answers (.fbRecord none) s fun t => t.book = { s.book with drops := some (n + 1, t0) }) ∧
    (∀ n t0, s.book.cur.length ≤ 500 → s.book.drops = some (n, t0) → Answers (.fbRecord none) s fun t => ∃ d, d.typ = 0x18 ∧ d.words = [n, t0, t0 / 2 ^ 32] ∧
      t.book = { s.book with cur := s.book.cur ++ pack d ++ pack r, drops := none }) ∧
    (∀ k, r.page = pgSMITH → 4 ≤ k → k < (recWords r s.time).length → s.book.cur.length ≤ 504 → s.book.drops = none → Answers (.fbRecord (some k)) s fun t =>
      t.book = { s.book with openRec := some { words := recWords r s.time, written := k, last := s.time } })) ∧
  (∀ (s : State), s.off = false → s.book.openRec = none → s.recs = [] → ∀ cut, Answers (.fbRecord cut) s fun t => t = s) ∧
  (∀ (s : State) (o : FbOpen), s.off = false → s.book.openRec = some o →
    (o.writer = true → Answers (.fbRecord none) s fun t => t.book = { s.book with openRec := none, cur := s.book.cur ++ packWords 8 o.words true } ∧ t.recs = s.recs) ∧
    (s.time < o.last + 10000 → Answers (.fbTrunc) s fun t => t = s) ∧
    (o.last + 10000 ≤ s.time → 0 < o.written → o.written ≤ o.words.length → o.written < 64 → Answers (.fbTrunc) s fun t => CountsOne s t pgFB Fld.FB_TRUNC_CNT_COUNT ∧ t.flag pgFB Fld.FB_STAT_TRUNC = true ∧
      ∃ w, bits w 0 6 = o.written ∧ bitN w 6 = true ∧ w / 2 ^ 7 = nthD o.words 0 0 / 2 ^ 7 ∧
        t.book = { s.book with openRec := none, cur := s.book.cur ++ packWords 8 (w :: (o.words.take o.written).drop 1) true })) ∧
  (∀ (s : State), s.off = false → s.book.openRec = none → s.book.cur ≠ [] → s.book.other = [] → s.book.fifo.length + s.book.cur.length ≤ 1024 → Answers (.fbBankHandoff []) s fun t =>
    t.book = { s.book with cur := [], fifo := s.book.fifo ++ s.book.cur } ∧ t.get pgFB Fld.FB_STAT_LEVEL = s.book.fifo.length + s.book.cur.length) ∧
  (∀ (s : State) (k : Nat) (w : FbWord), s.off = false → s.book.openRec = none → s.book.other = [] → s.book.cur[k]? = some w → s.book.fifo = [] → s.book.cur.length ≤ 512 →
    (Answers (.fbBankHandoff [(k, .corrected)]) s fun t => CountsOne s t pgFB Fld.FB_CE_COUNT_COUNT ∧ t.flag pgFB Fld.FB_STAT_CE = true ∧ t.book.fifo = s.book.cur) ∧
    (Answers (.fbBankHandoff [(k, .uncorrectable)]) s fun t => t.flag pgFB Fld.FB_STAT_UE = true ∧ srcFbUe ∈ t.raised ∧ t.book.fifo.length = s.book.cur.length ∧
      t.book.fifo[k]?.map (fun x => (x.ue, x.vbytes, x.sor)) = some (true, w.vbytes, w.sor)))

/-- Reading and the ring (R706 to R710): a read of FB_DATA3 pops the head, or while empty returns the last word popped with UNDERRUN; with DMA it reads zero with ACC_ERR.
With DMA the head is written into the ring while it is not full; on OK TAIL and PHASE go on, else the Field Book stops with RING_ERR; FB_DATA fires at
the watermark or 100 us after the first entry. -/
def Obligations.FieldBookReading : Prop :=
  ∀ (s : State), s.off = false →
    let val := fun (wide : Bool) (l : List Nat) => BitVec.ofNat 64 (if wide then nthD l 2 0 + 2 ^ 32 * nthD l 3 0 else nthD l 3 0)
    (∀ wide e, s.flag pgFB Fld.FB_CTL_DMA = true → Answers (.fbPop wide e) s fun t => t.readData = 0 ∧ t.flag pgFB Fld.PAGE_STAT_ACC_ERR = true ∧ t.book = s.book) ∧
    (∀ wide e, s.flag pgFB Fld.FB_CTL_DMA = false → s.book.fifo = [] → Answers (.fbPop wide e) s fun t => t.flag pgFB Fld.FB_STAT_UNDERRUN = true ∧ t.book = s.book ∧
      t.readData = (match s.book.last with | some w => val wide w.w | none => 0)) ∧
    (∀ wide w l, s.flag pgFB Fld.FB_CTL_DMA = false → s.book.fifo = w :: l → s.book.other = [] →
      (Answers (.fbPop wide .clean) s fun t => t.readData = val wide w.w ∧ t.book = { s.book with fifo := l, last := some w } ∧ t.flag pgFB Fld.FB_STAT_UNDERRUN = s.flag pgFB Fld.FB_STAT_UNDERRUN) ∧
      (Answers (.fbPop wide .corrected) s fun t => t.readData = val wide w.w ∧ t.book.fifo = l ∧ CountsOne s t pgFB Fld.FB_CE_COUNT_COUNT) ∧
      (Answers (.fbPop wide .uncorrectable) s fun t => t.book.fifo = l ∧ t.flag pgFB Fld.FB_STAT_UE = true ∧ srcFbUe ∈ t.raised)) ∧
    (s.book.fifo = [] ∨ s.flag pgFB Fld.FB_CTL_DMA = false ∨ s.book.busy = true ∨ s.book.halt = true ∨
        (s.ringTail + 1) % 2 ^ s.ringLog = s.get pgFB Fld.FB_RING_HEAD_INDEX → ∀ e, Answers (.fbRingWrite e) s fun t => t = s) ∧
    (∀ w l, s.book.fifo = w :: l → s.flag pgFB Fld.FB_CTL_DMA = true → s.book.busy = false → s.book.halt = false → (s.ringTail + 1) % 2 ^ s.ringLog ≠ s.get pgFB Fld.FB_RING_HEAD_INDEX →
      w.w.length = 4 → (∀ x ∈ w.w, x < 2 ^ 32) → w.vbytes < 256 → Answers (.fbRingWrite .clean) s fun t => t.book = { s.book with busy := true, req := t.book.req, nacks := 0 } ∧
        let pa := s.ringBase + 32 * s.ringTail
        ∃ q, t.net.map (·.p) = s.net.map (·.p) ++ [q] ∧ q.op = 0x06 ∧ q.src = nodeFB ∧ q.dst = nodeHome (s.home pa) ∧ q.addr = BitVec.ofNat 46 (pa / 64) ∧ q.mask = maskRun (pa % 64) 32 ∧
          (∀ i, i < 4 → lineField q.data (pa % 64 + 4 * i) 4 = nthD w.w i 0) ∧ lineField q.data (pa % 64 + 16) 1 = w.vbytes ∧
          lineField q.data (pa % 64 + 17) 1 = b2n w.sor + 2 * b2n w.ue ∧ lineField q.data (pa % 64 + 31) 1 = 128 * b2n s.book.phase ∧
          t.book.req.map (fun x => (x.addr, x.data, x.mask)) = some (q.addr, q.data, q.mask)) ∧
    (∀ p, s.book.busy = true → p.dst = nodeFB → p.op = 0x41 → s.arrived p = true → bits p.addr.toNat 0 4 ≠ 0 → Answers (.fbRingCmp p) s fun t =>
      t.flag pgFB Fld.FB_STAT_RING_ERR = true ∧ t.book = { s.book with busy := false, halt := true }) ∧
    (∀ p w l, s.book.busy = true → p.dst = nodeFB → p.op = 0x41 → s.arrived p = true → bits p.addr.toNat 0 4 = 0 → s.book.fifo = w :: l → s.book.other = [] → 6 ≤ s.ringLog → s.ringLog ≤ 16 → Answers (.fbRingCmp p) s fun t =>
      t.ringTail = (s.ringTail + 1) % 2 ^ s.ringLog ∧ t.book.fifo = l ∧ t.book.busy = false ∧ t.book.phase = (if (s.ringTail + 1) % 2 ^ s.ringLog = 0 then !s.book.phase else s.book.phase) ∧
      (if s.get pgFB Fld.FB_RING_WM_WM ≤ s.book.since + 1 then t.raised = s.raised ++ [srcFbData] ∧ t.book.since = 0 ∧ t.book.first = none
       else t.raised = s.raised ∧ t.book.since = s.book.since + 1 ∧ t.book.first = some (s.book.first.getD s.time))) ∧
    (∀ t0, s.book.first = some t0 →
      (s.time < t0 + 100000 → Answers (.fbDataTimer) s fun t => t = s) ∧
      (t0 + 100000 ≤ s.time → Answers (.fbDataTimer) s fun t => t.raised = s.raised ++ [srcFbData] ∧ t.book = { s.book with since := 0, first := none }))

/-! ### Performance counters (R712 to R726) -/

/-- PMU_CTL (R718, R721, R724): a write while BUSY only sets OVERLAP; any other is accepted, its FREEZE kept, and with DIES each admitted site with SNAP committed is sent a PMU
frame for 2 us ahead. At edge E every counter of every page that is on is kept in its snapshot, then cleared, then frozen or counting as written. -/
def Obligations.CounterActions : Prop :=
  (∀ (s : State) (c : Instr) (fr snap clear dies : Bool), s.off = false →
    (c = .freeze snap clear dies ∧ fr = true ∨ c = .unfreeze snap clear dies ∧ fr = false ∨ c = .snap clear dies ∧ snap = true ∧ fr = s.flag pgSMITH Fld.PMU_CTL_FREEZE ∨
      c = .clear snap dies ∧ clear = true ∧ fr = s.flag pgSMITH Fld.PMU_CTL_FREEZE) →
    let was := s.flag pgSMITH Fld.PMU_CTL_FREEZE
    let acts := b2n (fr && !was) + 2 * b2n (!fr && was) + 4 * b2n snap + 8 * b2n clear
    let sends := fun (l : List Nat) => Answers c s fun t => t.pmu = some { freeze := fr && !was, unfreeze := !fr && was, snap := snap, clear := clear, seq := s.pmuSeq % 256, waits := l, t := if l = [] then none else some (s.time + 2000) } ∧
      t.flag pgSMITH Fld.PMU_STAT_BUSY = true ∧ t.flag pgSMITH Fld.PMU_STAT_DONE = false ∧ t.flag pgSMITH Fld.PMU_CTL_FREEZE = fr ∧ t.get pgSMITH Fld.PMU_LATE_SITE = 0 ∧ OnlyPage pgSMITH s t ∧
      t = { s with regs := t.regs, pmu := t.pmu, pmuSeq := s.pmuSeq + 1, links := t.links } ∧ (l = [] → t.links = s.links) ∧
      ∀ site m, site ∈ l → s.lowActive site = some m → SendsLm site m .hub [⟨0x66, [s.pmuSeq % 256, acts, s.time + 2000]⟩] s t
    (s.pmu ≠ none → Answers c s fun t => t.flag pgSMITH Fld.PMU_STAT_OVERLAP = true ∧ t.get pgSMITH Fld.PMU_STAT_SEQ = s.get pgSMITH Fld.PMU_STAT_SEQ ∧
      t.flag pgSMITH Fld.PMU_CTL_FREEZE = was ∧ OnlyPage pgSMITH s t ∧ t = { s with regs := t.regs }) ∧
    (s.pmu = none → dies = false → sends []) ∧
    (s.pmu = none → dies = true → ∃ l, (∀ i, i ∈ l ↔ i < 16 ∧ s.admitted i = true ∧ bitN (s.get (pgSITE i) Fld.TRAV_CAP_LO_CAP) 3 = true) ∧ sends l)) ∧
  (∀ (s : State) (a : PmuAct), s.off = false → s.pmu = some a →
    (a.edge = true ∨ s.time < a.t.getD 0 → Answers (.pmuEdge) s fun t => t = s) ∧
    (a.edge = false → a.t.getD 0 ≤ s.time → Answers (.pmuEdge) s fun t => t.frozen = ((s.frozen || a.freeze) && !a.unfreeze) ∧
      t.get pgSMITH Fld.SNAP_TIME_LO_TIME + 2 ^ 32 * t.get pgSMITH Fld.SNAP_TIME_HI_TIME = s.time % 2 ^ 64 ∧
      (∀ p i, State.instrumented p = true → s.pageOff p = false → i < 8 →
        t.get p (Fld.PMC_SNAP_LO_SNAP_LO i) = (if a.snap then s.get p (Fld.PMC_CNT_LO_CNT_LO i) else s.get p (Fld.PMC_SNAP_LO_SNAP_LO i)) ∧
        t.get p (Fld.PMC_SNAP_HI_SNAP_HI i) = (if a.snap then s.get p (Fld.PMC_CNT_HI_CNT_HI i) else s.get p (Fld.PMC_SNAP_HI_SNAP_HI i)) ∧
        t.get p (Fld.PMC_CNT_LO_CNT_LO i) = (if a.clear then 0 else s.get p (Fld.PMC_CNT_LO_CNT_LO i)) ∧
        t.get p (Fld.PMC_CNT_HI_CNT_HI i) = (if a.clear then 0 else s.get p (Fld.PMC_CNT_HI_CNT_HI i)) ∧
        t.get p Fld.PMC_OVF_OVF = (if a.clear then 0 else s.get p Fld.PMC_OVF_OVF)) ∧
      (∀ p off, p ≠ pgSMITH → State.instrumented p = false ∨ s.pageOff p = true ∨ off < 0x3040 ∨ 0x30C1 ≤ off → off < 0x10000 → t.reg p off = s.reg p off) ∧
      (a.waits = [] → t.pmu = none ∧ t.flag pgSMITH Fld.PMU_STAT_BUSY = false ∧ t.flag pgSMITH Fld.PMU_STAT_DONE = true ∧ t.get pgSMITH Fld.PMU_STAT_SEQ = (s.get pgSMITH Fld.PMU_STAT_SEQ + 1) % 256) ∧
      (a.waits ≠ [] → t.pmu = some { a with edge := true } ∧ t.reg pgSMITH Reg.PMU_STAT = s.reg pgSMITH Reg.PMU_STAT)))

/-- The dies' part (R721 to R723): a die applies the actions at T, or on arrival after T with LATE, and answers; a site that answers late or not by T + 10 us sets its bit of
PMU_LATE; BUSY ends after E with the last of them.

Counter writes and wraps (R65, R716, R717): a write sets CNT_LO or CNT_HI of a counter and nothing else, and is lost while the page is off; an increment past 48 bits keeps the
low 48 bits and sets the counter's bit of PMC_OVF, with no event, and only where the counter is enabled and not frozen. -/
def Obligations.CountersOfDiesAndWrites : Prop :=
  ((∀ (s : State) (site m q acts T : Nat), Running s → site < 16 → m < 4 → acts < 16 →
    let msg : Lm := ⟨0x66, [q, acts, T]⟩
    let out := fun (s : State) => (s.lk site m .hub).outbox.map (·.lm)
    (msg ∈ out s → (s.lk site m .die).st = 4 → Answers (.pmu site m q acts T []) s fun t => out t = (out s).erase msg ∧
      (if s.time < T then (t.dieAt site).pmu = some (q, T, acts) ∧ (t.lk site m .die).outbox = (s.lk site m .die).outbox
       else (t.dieAt site).pmu = none ∧ (t.dieAt site).pmuDone = acts ∧ SendsLm site m .die [⟨0x67, [q, if T < s.time then 1 else 0]⟩] s t)) ∧
    (msg ∉ out s → (s.dieAt site).pmu = none → Answers (.pmu site m q acts T []) s fun t => t = s) ∧
    (∀ q0 T0, msg ∉ out s → (s.dieAt site).pmu = some (q0, T0, acts) →
      (s.time < T0 → Answers (.pmu site m q acts T []) s fun t => t = s) ∧
      (T0 ≤ s.time → Answers (.pmu site m q acts T []) s fun t => (t.dieAt site).pmu = none ∧ (t.dieAt site).pmuDone = acts ∧ SendsLm site m .die [⟨0x67, [q0, 0]⟩] s t))) ∧
  (∀ (s : State) (a : PmuAct) (site m : Nat), s.off = false → site < 16 → m < 4 → s.pmu = some a →
    let others := a.waits.filter fun x => x != site
    let ends := fun (late : Bool) (t : State) => (∀ i, i < 16 → bitN (t.get pgSMITH Fld.PMU_LATE_SITE) i = (bitN (s.get pgSMITH Fld.PMU_LATE_SITE) i || late && i == site)) ∧
      (if a.edge = true ∧ others = [] then t.pmu = none ∧ t.flag pgSMITH Fld.PMU_STAT_BUSY = false ∧ t.flag pgSMITH Fld.PMU_STAT_DONE = true ∧
          t.get pgSMITH Fld.PMU_STAT_SEQ = (s.get pgSMITH Fld.PMU_STAT_SEQ + 1) % 256
       else t.pmu = some { a with waits := others } ∧ t.reg pgSMITH Reg.PMU_STAT = s.reg pgSMITH Reg.PMU_STAT)
    (site ∈ a.waits → (s.lk site m .hub).st = 4 → Quiet s site m .hub → ∀ late, Answers (.pmuAck site m a.seq late []) s (ends late)) ∧
    (∀ q late, q ≠ a.seq ∨ site ∉ a.waits → Quiet s site m .hub → Answers (.pmuAck site m q late []) s fun t => t.pmu = s.pmu ∧ t.regs = s.regs) ∧
    (∀ T, a.t = some T → (T + 10000 ≤ s.time → site ∈ a.waits → Answers (.pmuAckTimeout site) s (ends true)) ∧
      (s.time < T + 10000 ∨ site ∉ a.waits → Answers (.pmuAckTimeout site) s fun t => t = s)))) ∧
  (∀ (s : State) (p i : Nat), s.off = false → i < 8 →
    let v := s.get p (Fld.PMC_CNT_LO_CNT_LO i) + 2 ^ 32 * s.get p (Fld.PMC_CNT_HI_CNT_HI i)
    (State.instrumented p = false ∨ s.pageOff p = true → ∀ hi x, Answers (.pmcCntWrite p i hi x) s fun t => t = s) ∧
    (State.instrumented p = true → s.pageOff p = false → ∀ hi x, Answers (.pmcCntWrite p i hi x) s fun t =>
      t.get p (Fld.PMC_CNT_LO_CNT_LO i) = (if hi then s.get p (Fld.PMC_CNT_LO_CNT_LO i) else x % 2 ^ 32) ∧
      t.get p (Fld.PMC_CNT_HI_CNT_HI i) = (if hi then x % 2 ^ 16 else s.get p (Fld.PMC_CNT_HI_CNT_HI i)) ∧
      SameRegs [(p, (Fld.PMC_CNT_LO_CNT_LO i).off), (p, (Fld.PMC_CNT_HI_CNT_HI i).off)] s t ∧ t = { s with regs := t.regs }) ∧
    (∀ q, s.frozen = true ∨ s.flag p (Fld.PMC_CTL_EN i) = false ∨ v + q < 2 ^ 48 → Answers (.counterWrap p i q) s fun t => t = s) ∧
    (∀ q, State.instrumented p = true → s.pageOff p = false → s.frozen = false → s.flag p (Fld.PMC_CTL_EN i) = true → 2 ^ 48 ≤ v + q → Answers (.counterWrap p i q) s fun t =>
      t.get p (Fld.PMC_CNT_LO_CNT_LO i) + 2 ^ 32 * t.get p (Fld.PMC_CNT_HI_CNT_HI i) = (v + q) % 2 ^ 48 ∧ bitN (t.get p Fld.PMC_OVF_OVF) i = true ∧
      (∀ j, j < 8 → j ≠ i → bitN (t.get p Fld.PMC_OVF_OVF) j = bitN (s.get p Fld.PMC_OVF_OVF) j) ∧
      SameRegs [(p, (Fld.PMC_CNT_LO_CNT_LO i).off), (p, (Fld.PMC_CNT_HI_CNT_HI i).off), (p, Reg.PMC_OVF)] s t ∧ t = { s with regs := t.regs }))
end

