-- ==== Sys2Proof/Laws/Tab.lean ====
section
/-! SUPPORT. Laws of the sparse tables, of bit fields and of memory bytes: a read after a write to the same place, a write
leaves every other place alone, and every memory operation keeps the canonical form. -/

namespace Sys2Proof.Machine

variable {α : Type}

@[simp] theorem Tab.get?_nil (k : Nat) : Tab.get? k ([] : Tab α) = none := rfl

@[simp] theorem Tab.get?_put_same (k : Nat) (v : α) (t : Tab α) : Tab.get? k (Tab.put k v t) = some v := by
  induction t with
  | nil => simp [Tab.put, Tab.get?]
  | cons e t ih =>
    obtain ⟨k', v'⟩ := e
    simp only [Tab.put]
    split
    · simp [Tab.get?]
    · split
      · simp [Tab.get?]
      · rename_i h; simp [Tab.get?, Ne.symm h, ih]

theorem Tab.get?_put_ne {k j : Nat} (h : j ≠ k) (v : α) (t : Tab α) : Tab.get? j (Tab.put k v t) = Tab.get? j t := by
  induction t with
  | nil => simp [Tab.put, Tab.get?, Ne.symm h]
  | cons e t ih =>
    obtain ⟨k', v'⟩ := e
    simp only [Tab.put]
    split
    · simp [Tab.get?, Ne.symm h]
    · split
      · rename_i h2; subst h2; simp [Tab.get?, Ne.symm h]
      · simp only [Tab.get?, ih]

@[simp] theorem Tab.get?_del_same (k : Nat) (t : Tab α) : Tab.get? k (Tab.del k t) = none := by
  induction t with
  | nil => rfl
  | cons e t ih =>
    obtain ⟨k', v'⟩ := e
    simp only [Tab.del]
    split
    · exact ih
    · rename_i h; simp [Tab.get?, h, ih]

theorem Tab.get?_del_ne {k j : Nat} (h : j ≠ k) (t : Tab α) : Tab.get? j (Tab.del k t) = Tab.get? j t := by
  induction t with
  | nil => rfl
  | cons e t ih =>
    obtain ⟨k', v'⟩ := e
    simp only [Tab.del]
    split
    · rename_i h2; subst h2; simp [Tab.get?, Ne.symm h, ih]
    · simp only [Tab.get?, ih]

@[simp] theorem Tab.getD_putD_same [DecidableEq α] (d : α) (k : Nat) (v : α) (t : Tab α) :
    Tab.getD k d (Tab.putD d k v t) = v := by
  unfold Tab.putD Tab.getD
  split
  · rename_i h; simp [h]
  · simp

theorem Tab.getD_putD_ne [DecidableEq α] {k j : Nat} (h : j ≠ k) (d : α) (v : α) (t : Tab α) :
    Tab.getD j d (Tab.putD d k v t) = Tab.getD j d t := by
  unfold Tab.putD Tab.getD
  split
  · rw [Tab.get?_del_ne h]
  · rw [Tab.get?_put_ne h]

/-- What a table that has lost the entries of some keys still lists. -/
theorem Tab.get?_filter (f : Nat → Bool) (j : Nat) (t : Tab α) :
    Tab.get? j (t.filter fun e => f e.1) = if f j then Tab.get? j t else none := by
  induction t with
  | nil => simp
  | cons e t ih =>
    obtain ⟨k, v⟩ := e
    by_cases hk : f k = true
    · rw [List.filter_cons_of_pos (by simpa using hk)]
      simp only [Tab.get?, ih]
      split
      · rename_i h; subst h; simp [hk]
      · rfl
    · rw [List.filter_cons_of_neg (by simpa using hk), ih]
      by_cases hj : f j = true
      · have : k ≠ j := fun h => hk (h ▸ hj)
        simp [Tab.get?, hj, this]
      · simp [hj]

theorem Tab.mem_put {e : Nat × α} {k : Nat} {v : α} {t : Tab α} (h : e ∈ Tab.put k v t) : e = (k, v) ∨ e ∈ t := by
  induction t with
  | nil => simpa [Tab.put] using h
  | cons a t ih =>
    obtain ⟨k', v'⟩ := a
    simp only [Tab.put] at h
    split at h
    · simpa using h
    · split at h
      · simp only [List.mem_cons] at h ⊢; tauto
      · simp only [List.mem_cons] at h ⊢; rcases h with h | h
        · tauto
        · rcases ih h with h | h <;> tauto

theorem Tab.mem_del {e : Nat × α} {k : Nat} {t : Tab α} (h : e ∈ Tab.del k t) : e ∈ t := by
  induction t with
  | nil => simp [Tab.del] at h
  | cons a t ih =>
    obtain ⟨k', v'⟩ := a
    simp only [Tab.del] at h
    split at h
    · exact List.mem_cons_of_mem _ (ih h)
    · simp only [List.mem_cons] at h ⊢; rcases h with h | h
      · exact Or.inl h
      · exact Or.inr (ih h)

/-- Inserting keeps the canonical form of a table. -/
theorem Tab.wf_put (k : Nat) (v : α) (t : Tab α) (h : Tab.wf t = true) : Tab.wf (Tab.put k v t) = true := by
  induction t with
  | nil => simp [Tab.put, Tab.wf]
  | cons a t ih =>
    obtain ⟨k', v'⟩ := a
    simp only [Tab.wf, Bool.and_eq_true, List.all_eq_true, decide_eq_true_eq] at h
    simp only [Tab.put]
    split
    · rename_i hlt
      simp only [Tab.wf, Bool.and_eq_true, List.all_eq_true, decide_eq_true_eq, List.mem_cons, forall_eq_or_imp]
      exact ⟨⟨hlt, fun e he => lt_trans hlt (h.1 e he)⟩, h⟩
    · split
      · rename_i heq; subst heq
        simp only [Tab.wf, Bool.and_eq_true, List.all_eq_true, decide_eq_true_eq]
        exact h
      · rename_i h1 h2
        simp only [Tab.wf, Bool.and_eq_true, List.all_eq_true, decide_eq_true_eq]
        refine ⟨fun e he => ?_, ih h.2⟩
        rcases Tab.mem_put he with rfl | he
        · simp only; omega
        · exact h.1 e he

/-- Removing keeps the canonical form of a table. -/
theorem Tab.wf_del (k : Nat) (t : Tab α) (h : Tab.wf t = true) : Tab.wf (Tab.del k t) = true := by
  induction t with
  | nil => rfl
  | cons a t ih =>
    obtain ⟨k', v'⟩ := a
    simp only [Tab.wf, Bool.and_eq_true, List.all_eq_true, decide_eq_true_eq] at h
    simp only [Tab.del]
    split
    · exact ih h.2
    · simp only [Tab.wf, Bool.and_eq_true, List.all_eq_true, decide_eq_true_eq]
      exact ⟨fun e he => h.1 e (Tab.mem_del he), ih h.2⟩

/-! ### Memory bytes -/

@[simp] theorem Memory.read_write_same (m : List Host.Cell) (a : Nat) (b : Byte) :
    Memory.read (Memory.write m a b) a = b := Tab.getD_putD_same _ _ _ _

theorem Memory.read_write_ne {a c : Nat} (h : c ≠ a) (m : List Host.Cell) (b : Byte) :
    Memory.read (Memory.write m a b) c = Memory.read m c := Tab.getD_putD_ne h _ _ _

/-- Writing a run of bytes leaves every byte outside the run. -/
theorem Memory.read_writeBytes_out (m : List Host.Cell) (a c n : Nat) (f : Nat → Byte) (h : c < a ∨ a + n ≤ c) :
    Memory.read (Memory.writeBytes m a f n) c = Memory.read m c := by
  induction n with
  | zero => rfl
  | succ n ih =>
    rw [Memory.writeBytes, Memory.read_write_ne (by omega), ih (by omega)]

/-- Writing a run of bytes sets each byte of it. -/
theorem Memory.read_writeBytes_in (m : List Host.Cell) (a n i : Nat) (f : Nat → Byte) (h : i < n) :
    Memory.read (Memory.writeBytes m a f n) (a + i) = f i := by
  induction n with
  | zero => omega
  | succ n ih =>
    rw [Memory.writeBytes]
    by_cases hi : i = n
    · subst hi; simp
    · rw [Memory.read_write_ne (by omega), ih (by omega)]

/-- Writing a byte keeps the canonical form. -/
theorem Memory.wf_write (m : List Host.Cell) (a : Nat) (b : Byte) (h : Memory.wf m = true) :
    Memory.wf (Memory.write m a b) = true := by
  unfold Memory.wf at h ⊢
  rw [Bool.and_eq_true] at h ⊢
  unfold Memory.write Tab.putD
  split
  · refine ⟨Tab.wf_del a m h.1, ?_⟩
    rw [List.all_eq_true] at h ⊢
    exact fun e he => h.2 e (Tab.mem_del he)
  · rename_i hb
    refine ⟨Tab.wf_put a b m h.1, ?_⟩
    rw [List.all_eq_true] at h ⊢
    intro e he
    rcases Tab.mem_put he with rfl | he
    · simpa using hb
    · exact h.2 e he

/-- Writing a run of bytes keeps the canonical form. -/
theorem Memory.wf_writeBytes (m : List Host.Cell) (a n : Nat) (f : Nat → Byte) (h : Memory.wf m = true) :
    Memory.wf (Memory.writeBytes m a f n) = true := by
  induction n with
  | zero => exact h
  | succ n ih => exact Memory.wf_write _ _ _ ih

/-- Keeping the bytes of some addresses keeps the canonical form. -/
theorem Memory.wf_filter (m : List Host.Cell) (f : Host.Cell → Bool) (h : Memory.wf m = true) :
    Memory.wf (m.filter f) = true := by
  induction m with
  | nil => rfl
  | cons e m ih =>
    obtain ⟨k, v⟩ := e
    simp only [Memory.wf, Tab.wf, List.all_cons, Bool.and_eq_true, List.all_eq_true, decide_eq_true_eq] at h ih ⊢
    have ih := ih ⟨h.1.2, h.2.2⟩
    by_cases hf : f (k, v) = true
    · rw [List.filter_cons_of_pos hf]
      simp only [Tab.wf, Bool.and_eq_true, List.all_eq_true, decide_eq_true_eq, List.mem_cons, forall_eq_or_imp]
      exact ⟨⟨fun e he => h.1.1 e (List.mem_filter.1 he).1, ih.1⟩, h.2.1, ih.2⟩
    · rw [List.filter_cons_of_neg hf]; exact ih

/-! ### Bit fields -/

@[simp] theorem bits_setBits_same (v lo w x : Nat) : bits (setBits v lo w x) lo w = x % 2 ^ w := by
  unfold bits setBits bits
  have hp : 0 < 2 ^ lo := by positivity
  have hw : 0 < 2 ^ w := by positivity
  obtain ⟨q, hq⟩ : ∃ q, q = v / 2 ^ lo := ⟨_, rfl⟩
  have hv : v = 2 ^ lo * q + v % 2 ^ lo := by rw [hq]; exact (Nat.div_add_mod v (2 ^ lo)).symm
  rw [← hq]
  have hq2 : q = 2 ^ w * (q / 2 ^ w) + q % 2 ^ w := (Nat.div_add_mod q (2 ^ w)).symm
  have h1 : v - q % 2 ^ w * 2 ^ lo = 2 ^ lo * (2 ^ w * (q / 2 ^ w)) + v % 2 ^ lo := by
    have : 2 ^ lo * q = 2 ^ lo * (2 ^ w * (q / 2 ^ w)) + q % 2 ^ w * 2 ^ lo := by
      conv_lhs => rw [hq2]
      ring
    omega
  rw [h1]
  have h2 : 2 ^ lo * (2 ^ w * (q / 2 ^ w)) + v % 2 ^ lo + x % 2 ^ w * 2 ^ lo =
      v % 2 ^ lo + 2 ^ lo * (2 ^ w * (q / 2 ^ w) + x % 2 ^ w) := by ring
  rw [h2, Nat.add_mul_div_left _ _ hp, Nat.div_eq_of_lt (Nat.mod_lt _ hp), Nat.zero_add, Nat.mul_add_mod,
    Nat.mod_mod]

end Sys2Proof.Machine
end

