-- ==== Sys2Proof/Laws/Regs.lean ====
section
/-! SUPPORT. Laws of the register file: what a register reads as after a write, for every operation that writes one, and what
those operations leave alone. -/

namespace Sys2Proof.Machine

theorem regKey_inj {p q a b : Nat} (ha : a < 0x10000) (hb : b < 0x10000) (h : regKey p a = regKey q b) : p = q ∧ a = b := by
  unfold regKey at h; omega

/-- Every register definition has a reset value of 32 bits. -/
theorem resetVal_lt : ∀ r ∈ pageRows, ∀ d ∈ r.regs ++ pmcRegs ++ hdrRegs, d.resetVal < 2 ^ 32 := by decide +kernel

theorem qgrp_lt : ∀ r ∈ pageRows, (r.grp.getD 0) < 2 ^ 32 := by decide +kernel

/-- A register found at a page is one that its row gives. -/
theorem findReg_mem {p off : Nat} {d : RegDef} (h : findReg p off = some d) :
    ∃ r ∈ pageRows, d ∈ r.regs ++ pmcRegs ++ hdrRegs := by
  unfold findReg at h
  split at h
  · cases h
  · rename_i r hr
    refine ⟨r, List.mem_of_find?_eq_some hr, ?_⟩
    split at h
    · rename_i d' hd
      cases h
      simp [List.mem_of_find?_eq_some hd]
    · have := List.mem_of_find?_eq_some h
      simp only [List.mem_append] at this ⊢
      rcases this with h1 | h1
      · split at h1
        · exact .inl (.inr h1)
        · cases h1
      · exact .inr h1

theorem regReset_lt (p off : Nat) : regReset p off < 2 ^ 32 := by
  unfold regReset
  split
  · cases h : pageRow p with
    | none => simp
    | some r => exact qgrp_lt r (List.mem_of_find?_eq_some h)
  · split
    · rename_i d hd
      obtain ⟨r, hr, hm⟩ := findReg_mem hd
      exact resetVal_lt r hr d hm
    · decide

/-- What the register file reads as at a key. -/
theorem reg_eq (s : State) (p off : Nat) :
    s.reg p off = (Tab.getD (regKey p off) (BitVec.ofNat 32 (regReset p off)) s.regs).toNat := by
  unfold State.reg Tab.getD
  cases Tab.get? (regKey p off) s.regs with
  | none => have := regReset_lt p off; simp; omega
  | some v => rfl

/-- A register holds 32 bits. -/
theorem reg_lt (s : State) (p off : Nat) : s.reg p off < 2 ^ 32 := by
  rw [reg_eq]; exact BitVec.isLt _

/-- A register after a write to it holds what was written, in 32 bits. -/
@[simp] theorem reg_setReg_same (s : State) (p off v : Nat) : (s.setReg p off v).reg p off = v % 2 ^ 32 := by
  rw [reg_eq]
  simp only [State.setReg, Tab.getD_putD_same, BitVec.toNat_ofNat]

/-- A write to one register leaves every other. -/
theorem reg_setReg_ne (s : State) (p q a b v : Nat) (h : regKey q b ≠ regKey p a) : (s.setReg p a v).reg q b = s.reg q b := by
  rw [reg_eq, reg_eq]
  unfold State.setReg Tab.putD Tab.getD
  split
  · simp only [Tab.get?_del_ne h]
  · simp only [Tab.get?_put_ne h]

theorem reg_put_ne (s : State) (p q b v : Nat) (f : FRef) (h : regKey q b ≠ regKey p f.off) : (s.put p f v).reg q b = s.reg q b :=
  reg_setReg_ne s p q f.off b _ h

theorem bits_mod32 (x lo w : Nat) (h : lo + w ≤ 32) : bits (x % 2 ^ 32) lo w = bits x lo w := by
  unfold bits
  apply Nat.eq_of_testBit_eq
  intro i
  simp only [Nat.testBit_mod_two_pow, Nat.testBit_div_two_pow]
  by_cases hi : i < w
  · have : i + lo < 32 := by omega
    simp [hi, this]
  · simp [hi]

/-- A field after a write to it holds what was written, in its width. -/
theorem get_put_same (s : State) (p v : Nat) (f : FRef) (hf : f.lo + f.width ≤ 32) :
    (s.put p f v).get p f = v % 2 ^ f.width := by
  unfold State.get State.put
  rw [reg_setReg_same, bits_mod32 _ _ _ hf, bits_setBits_same]

/-- A write to one register leaves the fields of every other. -/
theorem get_put_ne (s : State) (p q v : Nat) (f g : FRef) (h : regKey q g.off ≠ regKey p f.off) :
    (s.put p f v).get q g = s.get q g := by
  unfold State.get
  rw [reg_put_ne _ _ _ _ _ _ h]

/-- Writing a field of a number leaves the fields beside it. -/
theorem bits_setBits_ne (v lo w x lo' w' : Nat) (h : lo' + w' ≤ lo ∨ lo + w ≤ lo') :
    bits (setBits v lo w x) lo' w' = bits v lo' w' := by
  have hset : ∀ i, (setBits v lo w x).testBit i = if lo ≤ i ∧ i < lo + w then x.testBit (i - lo) else v.testBit i := by
    intro i
    have h1 : setBits v lo w x = v / 2 ^ (lo + w) * 2 ^ (lo + w) + (x % 2 ^ w * 2 ^ lo + v % 2 ^ lo) := by
      unfold setBits bits
      have e1 : v = 2 ^ lo * (v / 2 ^ lo) + v % 2 ^ lo := (Nat.div_add_mod _ _).symm
      have e2 : v / 2 ^ lo = 2 ^ w * (v / 2 ^ (lo + w)) + v / 2 ^ lo % 2 ^ w := by
        rw [Nat.pow_add, ← Nat.div_div_eq_div_mul]; exact (Nat.div_add_mod _ _).symm
      have e3 : 2 ^ lo * (v / 2 ^ lo) = v / 2 ^ (lo + w) * 2 ^ (lo + w) + v / 2 ^ lo % 2 ^ w * 2 ^ lo := by
        conv_lhs => rw [e2]
        rw [Nat.pow_add]; ring
      omega
    have hx : x % 2 ^ w * 2 ^ lo + v % 2 ^ lo < 2 ^ (lo + w) := by
      have a1 : x % 2 ^ w < 2 ^ w := Nat.mod_lt _ (by positivity)
      have a2 : v % 2 ^ lo < 2 ^ lo := Nat.mod_lt _ (by positivity)
      have a3 : (x % 2 ^ w + 1) * 2 ^ lo ≤ 2 ^ w * 2 ^ lo := Nat.mul_le_mul_right _ a1
      rw [Nat.pow_add, Nat.mul_comm (2 ^ lo)]
      have a4 : (x % 2 ^ w + 1) * 2 ^ lo = x % 2 ^ w * 2 ^ lo + 2 ^ lo := by ring
      omega
    rw [h1, Nat.mul_comm, Nat.testBit_two_pow_mul_add _ hx, Nat.mul_comm (x % 2 ^ w),
      Nat.testBit_two_pow_mul_add _ (Nat.mod_lt _ (by positivity))]
    simp only [Nat.testBit_mod_two_pow, Nat.testBit_div_two_pow]
    by_cases h2 : i < lo + w
    · by_cases h3 : i < lo
      · have : ¬ lo ≤ i := by omega
        simp [h2, h3, this]
      · have : lo ≤ i := by omega
        have h4 : i - lo < w := by omega
        simp [h2, h3, this, h4]
    · have : i - (lo + w) + (lo + w) = i := by omega
      simp [h2, this]
  unfold bits
  apply Nat.eq_of_testBit_eq
  intro i
  simp only [Nat.testBit_mod_two_pow, Nat.testBit_div_two_pow, hset]
  by_cases hi : i < w'
  · have : ¬ (lo ≤ i + lo' ∧ i + lo' < lo + w) := by omega
    simp [hi, this]
  · simp [hi]

/-- A write to a field leaves the fields beside it in its register. -/
theorem get_put_beside (s : State) (p v : Nat) (f g : FRef) (ho : g.off = f.off) (hg : g.lo + g.width ≤ 32)
    (h : g.lo + g.width ≤ f.lo ∨ f.lo + f.width ≤ g.lo) : (s.put p f v).get p g = s.get p g := by
  unfold State.get State.put
  rw [ho, reg_setReg_same, bits_mod32 _ _ _ hg, bits_setBits_ne _ _ _ _ _ _ h]

end Sys2Proof.Machine
end

