-- ==== Sys2Proof/Laws/State.lean ====
section
/-! SUPPORT. What the updates of State leave: one lemma per field that an update does not write, and what the fields it writes hold. -/

namespace Sys2Proof.Machine.State

@[simp] theorem setReg_pending (s : State) (p off v : Nat) : (s.setReg p off v).pending = s.pending := rfl
@[simp] theorem setReg_off (s : State) (p off v : Nat) : (s.setReg p off v).off = s.off := rfl
@[simp] theorem setReg_pwrok (s : State) (p off v : Nat) : (s.setReg p off v).pwrok = s.pwrok := rfl
@[simp] theorem setReg_time (s : State) (p off v : Nat) : (s.setReg p off v).time = s.time := rfl
@[simp] theorem setReg_ctr (s : State) (p off v : Nat) : (s.setReg p off v).ctr = s.ctr := rfl
@[simp] theorem setReg_shadow (s : State) (p off v : Nat) : (s.setReg p off v).shadow = s.shadow := rfl
@[simp] theorem setReg_routes (s : State) (p off v : Nat) : (s.setReg p off v).routes = s.routes := rfl
@[simp] theorem setReg_routesPend (s : State) (p off v : Nat) : (s.setReg p off v).routesPend = s.routesPend := rfl
@[simp] theorem setReg_routeBase (s : State) (p off v : Nat) : (s.setReg p off v).routeBase = s.routeBase := rfl
@[simp] theorem setReg_routeBasePend (s : State) (p off v : Nat) : (s.setReg p off v).routeBasePend = s.routeBasePend := rfl
@[simp] theorem setReg_weights (s : State) (p off v : Nat) : (s.setReg p off v).weights = s.weights := rfl
@[simp] theorem setReg_weightsPend (s : State) (p off v : Nat) : (s.setReg p off v).weightsPend = s.weightsPend := rfl
@[simp] theorem setReg_quench (s : State) (p off v : Nat) : (s.setReg p off v).quench = s.quench := rfl
@[simp] theorem setReg_readData (s : State) (p off v : Nat) : (s.setReg p off v).readData = s.readData := rfl
@[simp] theorem setReg_frozen (s : State) (p off v : Nat) : (s.setReg p off v).frozen = s.frozen := rfl
@[simp] theorem setReg_alert (s : State) (p off v : Nat) : (s.setReg p off v).alert = s.alert := rfl
@[simp] theorem setReg_smith (s : State) (p off v : Nat) : (s.setReg p off v).smith = s.smith := rfl
@[simp] theorem setReg_flash (s : State) (p off v : Nat) : (s.setReg p off v).flash = s.flash := rfl
@[simp] theorem setReg_part (s : State) (p off v : Nat) : (s.setReg p off v).part = s.part := rfl
@[simp] theorem setReg_pop (s : State) (p off v : Nat) : (s.setReg p off v).pop = s.pop := rfl
@[simp] theorem setReg_straps (s : State) (p off v : Nat) : (s.setReg p off v).straps = s.straps := rfl
@[simp] theorem setReg_recs (s : State) (p off v : Nat) : (s.setReg p off v).recs = s.recs := rfl
@[simp] theorem setReg_raised (s : State) (p off v : Nat) : (s.setReg p off v).raised = s.raised := rfl
@[simp] theorem setReg_net (s : State) (p off v : Nat) : (s.setReg p off v).net = s.net := rfl
@[simp] theorem setReg_fab (s : State) (p off v : Nat) : (s.setReg p off v).fab = s.fab := rfl
@[simp] theorem setReg_homes (s : State) (p off v : Nat) : (s.setReg p off v).homes = s.homes := rfl
@[simp] theorem setReg_hearths (s : State) (p off v : Nat) : (s.setReg p off v).hearths = s.hearths := rfl
@[simp] theorem setReg_rop (s : State) (p off v : Nat) : (s.setReg p off v).rop = s.rop := rfl
@[simp] theorem setReg_mem (s : State) (p off v : Nat) : (s.setReg p off v).mem = s.mem := rfl
@[simp] theorem setReg_sites (s : State) (p off v : Nat) : (s.setReg p off v).sites = s.sites := rfl
@[simp] theorem setReg_links (s : State) (p off v : Nat) : (s.setReg p off v).links = s.links := rfl
@[simp] theorem setReg_groups (s : State) (p off v : Nat) : (s.setReg p off v).groups = s.groups := rfl
@[simp] theorem setReg_dies (s : State) (p off v : Nat) : (s.setReg p off v).dies = s.dies := rfl
@[simp] theorem setReg_power (s : State) (p off v : Nat) : (s.setReg p off v).power = s.power := rfl
@[simp] theorem setReg_storm (s : State) (p off v : Nat) : (s.setReg p off v).storm = s.storm := rfl
@[simp] theorem setReg_book (s : State) (p off v : Nat) : (s.setReg p off v).book = s.book := rfl
@[simp] theorem setReg_pmu (s : State) (p off v : Nat) : (s.setReg p off v).pmu = s.pmu := rfl
@[simp] theorem setReg_pmuSeq (s : State) (p off v : Nat) : (s.setReg p off v).pmuSeq = s.pmuSeq := rfl
@[simp] theorem setReg_ixu (s : State) (p off v : Nat) : (s.setReg p off v).ixu = s.ixu := rfl
@[simp] theorem setReg_dmas (s : State) (p off v : Nat) : (s.setReg p off v).dmas = s.dmas := rfl
@[simp] theorem setReg_dmaSeq (s : State) (p off v : Nat) : (s.setReg p off v).dmaSeq = s.dmaSeq := rfl
@[simp] theorem setReg_agents (s : State) (p off v : Nat) : (s.setReg p off v).agents = s.agents := rfl
@[simp] theorem setReg_agentQ (s : State) (p off v : Nat) : (s.setReg p off v).agentQ = s.agentQ := rfl
@[simp] theorem setReg_dmaAns (s : State) (p off v : Nat) : (s.setReg p off v).dmaAns = s.dmaAns := rfl
@[simp] theorem setReg_ne (s : State) (p off v : Nat) : (s.setReg p off v).ne = s.ne := rfl
@[simp] theorem setReg_embers (s : State) (p off v : Nat) : (s.setReg p off v).embers = s.embers := rfl
@[simp] theorem setReg_lanes (s : State) (p off v : Nat) : (s.setReg p off v).lanes = s.lanes := rfl
@[simp] theorem setReg_levels (s : State) (p off v : Nat) : (s.setReg p off v).levels = s.levels := rfl

@[simp] theorem put_pending (s : State) (p : Nat) (f : FRef) (v : Nat) : (s.put p f v).pending = s.pending := rfl
@[simp] theorem put_off (s : State) (p : Nat) (f : FRef) (v : Nat) : (s.put p f v).off = s.off := rfl
@[simp] theorem put_pwrok (s : State) (p : Nat) (f : FRef) (v : Nat) : (s.put p f v).pwrok = s.pwrok := rfl
@[simp] theorem put_time (s : State) (p : Nat) (f : FRef) (v : Nat) : (s.put p f v).time = s.time := rfl
@[simp] theorem put_ctr (s : State) (p : Nat) (f : FRef) (v : Nat) : (s.put p f v).ctr = s.ctr := rfl
@[simp] theorem put_shadow (s : State) (p : Nat) (f : FRef) (v : Nat) : (s.put p f v).shadow = s.shadow := rfl
@[simp] theorem put_routes (s : State) (p : Nat) (f : FRef) (v : Nat) : (s.put p f v).routes = s.routes := rfl
@[simp] theorem put_routesPend (s : State) (p : Nat) (f : FRef) (v : Nat) : (s.put p f v).routesPend = s.routesPend := rfl
@[simp] theorem put_routeBase (s : State) (p : Nat) (f : FRef) (v : Nat) : (s.put p f v).routeBase = s.routeBase := rfl
@[simp] theorem put_routeBasePend (s : State) (p : Nat) (f : FRef) (v : Nat) : (s.put p f v).routeBasePend = s.routeBasePend := rfl
@[simp] theorem put_weights (s : State) (p : Nat) (f : FRef) (v : Nat) : (s.put p f v).weights = s.weights := rfl
@[simp] theorem put_weightsPend (s : State) (p : Nat) (f : FRef) (v : Nat) : (s.put p f v).weightsPend = s.weightsPend := rfl
@[simp] theorem put_quench (s : State) (p : Nat) (f : FRef) (v : Nat) : (s.put p f v).quench = s.quench := rfl
@[simp] theorem put_readData (s : State) (p : Nat) (f : FRef) (v : Nat) : (s.put p f v).readData = s.readData := rfl
@[simp] theorem put_frozen (s : State) (p : Nat) (f : FRef) (v : Nat) : (s.put p f v).frozen = s.frozen := rfl
@[simp] theorem put_alert (s : State) (p : Nat) (f : FRef) (v : Nat) : (s.put p f v).alert = s.alert := rfl
@[simp] theorem put_smith (s : State) (p : Nat) (f : FRef) (v : Nat) : (s.put p f v).smith = s.smith := rfl
@[simp] theorem put_flash (s : State) (p : Nat) (f : FRef) (v : Nat) : (s.put p f v).flash = s.flash := rfl
@[simp] theorem put_part (s : State) (p : Nat) (f : FRef) (v : Nat) : (s.put p f v).part = s.part := rfl
@[simp] theorem put_pop (s : State) (p : Nat) (f : FRef) (v : Nat) : (s.put p f v).pop = s.pop := rfl
@[simp] theorem put_straps (s : State) (p : Nat) (f : FRef) (v : Nat) : (s.put p f v).straps = s.straps := rfl
@[simp] theorem put_recs (s : State) (p : Nat) (f : FRef) (v : Nat) : (s.put p f v).recs = s.recs := rfl
@[simp] theorem put_raised (s : State) (p : Nat) (f : FRef) (v : Nat) : (s.put p f v).raised = s.raised := rfl
@[simp] theorem put_net (s : State) (p : Nat) (f : FRef) (v : Nat) : (s.put p f v).net = s.net := rfl
@[simp] theorem put_fab (s : State) (p : Nat) (f : FRef) (v : Nat) : (s.put p f v).fab = s.fab := rfl
@[simp] theorem put_homes (s : State) (p : Nat) (f : FRef) (v : Nat) : (s.put p f v).homes = s.homes := rfl
@[simp] theorem put_hearths (s : State) (p : Nat) (f : FRef) (v : Nat) : (s.put p f v).hearths = s.hearths := rfl
@[simp] theorem put_rop (s : State) (p : Nat) (f : FRef) (v : Nat) : (s.put p f v).rop = s.rop := rfl
@[simp] theorem put_mem (s : State) (p : Nat) (f : FRef) (v : Nat) : (s.put p f v).mem = s.mem := rfl
@[simp] theorem put_sites (s : State) (p : Nat) (f : FRef) (v : Nat) : (s.put p f v).sites = s.sites := rfl
@[simp] theorem put_links (s : State) (p : Nat) (f : FRef) (v : Nat) : (s.put p f v).links = s.links := rfl
@[simp] theorem put_groups (s : State) (p : Nat) (f : FRef) (v : Nat) : (s.put p f v).groups = s.groups := rfl
@[simp] theorem put_dies (s : State) (p : Nat) (f : FRef) (v : Nat) : (s.put p f v).dies = s.dies := rfl
@[simp] theorem put_power (s : State) (p : Nat) (f : FRef) (v : Nat) : (s.put p f v).power = s.power := rfl
@[simp] theorem put_storm (s : State) (p : Nat) (f : FRef) (v : Nat) : (s.put p f v).storm = s.storm := rfl
@[simp] theorem put_book (s : State) (p : Nat) (f : FRef) (v : Nat) : (s.put p f v).book = s.book := rfl
@[simp] theorem put_pmu (s : State) (p : Nat) (f : FRef) (v : Nat) : (s.put p f v).pmu = s.pmu := rfl
@[simp] theorem put_pmuSeq (s : State) (p : Nat) (f : FRef) (v : Nat) : (s.put p f v).pmuSeq = s.pmuSeq := rfl
@[simp] theorem put_ixu (s : State) (p : Nat) (f : FRef) (v : Nat) : (s.put p f v).ixu = s.ixu := rfl
@[simp] theorem put_dmas (s : State) (p : Nat) (f : FRef) (v : Nat) : (s.put p f v).dmas = s.dmas := rfl
@[simp] theorem put_dmaSeq (s : State) (p : Nat) (f : FRef) (v : Nat) : (s.put p f v).dmaSeq = s.dmaSeq := rfl
@[simp] theorem put_agents (s : State) (p : Nat) (f : FRef) (v : Nat) : (s.put p f v).agents = s.agents := rfl
@[simp] theorem put_agentQ (s : State) (p : Nat) (f : FRef) (v : Nat) : (s.put p f v).agentQ = s.agentQ := rfl
@[simp] theorem put_dmaAns (s : State) (p : Nat) (f : FRef) (v : Nat) : (s.put p f v).dmaAns = s.dmaAns := rfl
@[simp] theorem put_ne (s : State) (p : Nat) (f : FRef) (v : Nat) : (s.put p f v).ne = s.ne := rfl
@[simp] theorem put_embers (s : State) (p : Nat) (f : FRef) (v : Nat) : (s.put p f v).embers = s.embers := rfl
@[simp] theorem put_lanes (s : State) (p : Nat) (f : FRef) (v : Nat) : (s.put p f v).lanes = s.lanes := rfl
@[simp] theorem put_levels (s : State) (p : Nat) (f : FRef) (v : Nat) : (s.put p f v).levels = s.levels := rfl

@[simp] theorem raise1_pending (s : State) (p : Nat) (f : FRef) : (s.raise1 p f).pending = s.pending := rfl
@[simp] theorem raise1_off (s : State) (p : Nat) (f : FRef) : (s.raise1 p f).off = s.off := rfl
@[simp] theorem raise1_pwrok (s : State) (p : Nat) (f : FRef) : (s.raise1 p f).pwrok = s.pwrok := rfl
@[simp] theorem raise1_time (s : State) (p : Nat) (f : FRef) : (s.raise1 p f).time = s.time := rfl
@[simp] theorem raise1_ctr (s : State) (p : Nat) (f : FRef) : (s.raise1 p f).ctr = s.ctr := rfl
@[simp] theorem raise1_shadow (s : State) (p : Nat) (f : FRef) : (s.raise1 p f).shadow = s.shadow := rfl
@[simp] theorem raise1_routes (s : State) (p : Nat) (f : FRef) : (s.raise1 p f).routes = s.routes := rfl
@[simp] theorem raise1_routesPend (s : State) (p : Nat) (f : FRef) : (s.raise1 p f).routesPend = s.routesPend := rfl
@[simp] theorem raise1_routeBase (s : State) (p : Nat) (f : FRef) : (s.raise1 p f).routeBase = s.routeBase := rfl
@[simp] theorem raise1_routeBasePend (s : State) (p : Nat) (f : FRef) : (s.raise1 p f).routeBasePend = s.routeBasePend := rfl
@[simp] theorem raise1_weights (s : State) (p : Nat) (f : FRef) : (s.raise1 p f).weights = s.weights := rfl
@[simp] theorem raise1_weightsPend (s : State) (p : Nat) (f : FRef) : (s.raise1 p f).weightsPend = s.weightsPend := rfl
@[simp] theorem raise1_quench (s : State) (p : Nat) (f : FRef) : (s.raise1 p f).quench = s.quench := rfl
@[simp] theorem raise1_readData (s : State) (p : Nat) (f : FRef) : (s.raise1 p f).readData = s.readData := rfl
@[simp] theorem raise1_frozen (s : State) (p : Nat) (f : FRef) : (s.raise1 p f).frozen = s.frozen := rfl
@[simp] theorem raise1_alert (s : State) (p : Nat) (f : FRef) : (s.raise1 p f).alert = s.alert := rfl
@[simp] theorem raise1_smith (s : State) (p : Nat) (f : FRef) : (s.raise1 p f).smith = s.smith := rfl
@[simp] theorem raise1_flash (s : State) (p : Nat) (f : FRef) : (s.raise1 p f).flash = s.flash := rfl
@[simp] theorem raise1_part (s : State) (p : Nat) (f : FRef) : (s.raise1 p f).part = s.part := rfl
@[simp] theorem raise1_pop (s : State) (p : Nat) (f : FRef) : (s.raise1 p f).pop = s.pop := rfl
@[simp] theorem raise1_straps (s : State) (p : Nat) (f : FRef) : (s.raise1 p f).straps = s.straps := rfl
@[simp] theorem raise1_recs (s : State) (p : Nat) (f : FRef) : (s.raise1 p f).recs = s.recs := rfl
@[simp] theorem raise1_raised (s : State) (p : Nat) (f : FRef) : (s.raise1 p f).raised = s.raised := rfl
@[simp] theorem raise1_net (s : State) (p : Nat) (f : FRef) : (s.raise1 p f).net = s.net := rfl
@[simp] theorem raise1_fab (s : State) (p : Nat) (f : FRef) : (s.raise1 p f).fab = s.fab := rfl
@[simp] theorem raise1_homes (s : State) (p : Nat) (f : FRef) : (s.raise1 p f).homes = s.homes := rfl
@[simp] theorem raise1_hearths (s : State) (p : Nat) (f : FRef) : (s.raise1 p f).hearths = s.hearths := rfl
@[simp] theorem raise1_rop (s : State) (p : Nat) (f : FRef) : (s.raise1 p f).rop = s.rop := rfl
@[simp] theorem raise1_mem (s : State) (p : Nat) (f : FRef) : (s.raise1 p f).mem = s.mem := rfl
@[simp] theorem raise1_sites (s : State) (p : Nat) (f : FRef) : (s.raise1 p f).sites = s.sites := rfl
@[simp] theorem raise1_links (s : State) (p : Nat) (f : FRef) : (s.raise1 p f).links = s.links := rfl
@[simp] theorem raise1_groups (s : State) (p : Nat) (f : FRef) : (s.raise1 p f).groups = s.groups := rfl
@[simp] theorem raise1_dies (s : State) (p : Nat) (f : FRef) : (s.raise1 p f).dies = s.dies := rfl
@[simp] theorem raise1_power (s : State) (p : Nat) (f : FRef) : (s.raise1 p f).power = s.power := rfl
@[simp] theorem raise1_storm (s : State) (p : Nat) (f : FRef) : (s.raise1 p f).storm = s.storm := rfl
@[simp] theorem raise1_book (s : State) (p : Nat) (f : FRef) : (s.raise1 p f).book = s.book := rfl
@[simp] theorem raise1_pmu (s : State) (p : Nat) (f : FRef) : (s.raise1 p f).pmu = s.pmu := rfl
@[simp] theorem raise1_pmuSeq (s : State) (p : Nat) (f : FRef) : (s.raise1 p f).pmuSeq = s.pmuSeq := rfl
@[simp] theorem raise1_ixu (s : State) (p : Nat) (f : FRef) : (s.raise1 p f).ixu = s.ixu := rfl
@[simp] theorem raise1_dmas (s : State) (p : Nat) (f : FRef) : (s.raise1 p f).dmas = s.dmas := rfl
@[simp] theorem raise1_dmaSeq (s : State) (p : Nat) (f : FRef) : (s.raise1 p f).dmaSeq = s.dmaSeq := rfl
@[simp] theorem raise1_agents (s : State) (p : Nat) (f : FRef) : (s.raise1 p f).agents = s.agents := rfl
@[simp] theorem raise1_agentQ (s : State) (p : Nat) (f : FRef) : (s.raise1 p f).agentQ = s.agentQ := rfl
@[simp] theorem raise1_dmaAns (s : State) (p : Nat) (f : FRef) : (s.raise1 p f).dmaAns = s.dmaAns := rfl
@[simp] theorem raise1_ne (s : State) (p : Nat) (f : FRef) : (s.raise1 p f).ne = s.ne := rfl
@[simp] theorem raise1_embers (s : State) (p : Nat) (f : FRef) : (s.raise1 p f).embers = s.embers := rfl
@[simp] theorem raise1_lanes (s : State) (p : Nat) (f : FRef) : (s.raise1 p f).lanes = s.lanes := rfl
@[simp] theorem raise1_levels (s : State) (p : Nat) (f : FRef) : (s.raise1 p f).levels = s.levels := rfl

@[simp] theorem count_pending (s : State) (p : Nat) (f : FRef) (n : Nat) : (s.count p f n).pending = s.pending := rfl
@[simp] theorem count_off (s : State) (p : Nat) (f : FRef) (n : Nat) : (s.count p f n).off = s.off := rfl
@[simp] theorem count_pwrok (s : State) (p : Nat) (f : FRef) (n : Nat) : (s.count p f n).pwrok = s.pwrok := rfl
@[simp] theorem count_time (s : State) (p : Nat) (f : FRef) (n : Nat) : (s.count p f n).time = s.time := rfl
@[simp] theorem count_ctr (s : State) (p : Nat) (f : FRef) (n : Nat) : (s.count p f n).ctr = s.ctr := rfl
@[simp] theorem count_shadow (s : State) (p : Nat) (f : FRef) (n : Nat) : (s.count p f n).shadow = s.shadow := rfl
@[simp] theorem count_routes (s : State) (p : Nat) (f : FRef) (n : Nat) : (s.count p f n).routes = s.routes := rfl
@[simp] theorem count_routesPend (s : State) (p : Nat) (f : FRef) (n : Nat) : (s.count p f n).routesPend = s.routesPend := rfl
@[simp] theorem count_routeBase (s : State) (p : Nat) (f : FRef) (n : Nat) : (s.count p f n).routeBase = s.routeBase := rfl
@[simp] theorem count_routeBasePend (s : State) (p : Nat) (f : FRef) (n : Nat) : (s.count p f n).routeBasePend = s.routeBasePend := rfl
@[simp] theorem count_weights (s : State) (p : Nat) (f : FRef) (n : Nat) : (s.count p f n).weights = s.weights := rfl
@[simp] theorem count_weightsPend (s : State) (p : Nat) (f : FRef) (n : Nat) : (s.count p f n).weightsPend = s.weightsPend := rfl
@[simp] theorem count_quench (s : State) (p : Nat) (f : FRef) (n : Nat) : (s.count p f n).quench = s.quench := rfl
@[simp] theorem count_readData (s : State) (p : Nat) (f : FRef) (n : Nat) : (s.count p f n).readData = s.readData := rfl
@[simp] theorem count_frozen (s : State) (p : Nat) (f : FRef) (n : Nat) : (s.count p f n).frozen = s.frozen := rfl
@[simp] theorem count_alert (s : State) (p : Nat) (f : FRef) (n : Nat) : (s.count p f n).alert = s.alert := rfl
@[simp] theorem count_smith (s : State) (p : Nat) (f : FRef) (n : Nat) : (s.count p f n).smith = s.smith := rfl
@[simp] theorem count_flash (s : State) (p : Nat) (f : FRef) (n : Nat) : (s.count p f n).flash = s.flash := rfl
@[simp] theorem count_part (s : State) (p : Nat) (f : FRef) (n : Nat) : (s.count p f n).part = s.part := rfl
@[simp] theorem count_pop (s : State) (p : Nat) (f : FRef) (n : Nat) : (s.count p f n).pop = s.pop := rfl
@[simp] theorem count_straps (s : State) (p : Nat) (f : FRef) (n : Nat) : (s.count p f n).straps = s.straps := rfl
@[simp] theorem count_recs (s : State) (p : Nat) (f : FRef) (n : Nat) : (s.count p f n).recs = s.recs := rfl
@[simp] theorem count_raised (s : State) (p : Nat) (f : FRef) (n : Nat) : (s.count p f n).raised = s.raised := rfl
@[simp] theorem count_net (s : State) (p : Nat) (f : FRef) (n : Nat) : (s.count p f n).net = s.net := rfl
@[simp] theorem count_fab (s : State) (p : Nat) (f : FRef) (n : Nat) : (s.count p f n).fab = s.fab := rfl
@[simp] theorem count_homes (s : State) (p : Nat) (f : FRef) (n : Nat) : (s.count p f n).homes = s.homes := rfl
@[simp] theorem count_hearths (s : State) (p : Nat) (f : FRef) (n : Nat) : (s.count p f n).hearths = s.hearths := rfl
@[simp] theorem count_rop (s : State) (p : Nat) (f : FRef) (n : Nat) : (s.count p f n).rop = s.rop := rfl
@[simp] theorem count_mem (s : State) (p : Nat) (f : FRef) (n : Nat) : (s.count p f n).mem = s.mem := rfl
@[simp] theorem count_sites (s : State) (p : Nat) (f : FRef) (n : Nat) : (s.count p f n).sites = s.sites := rfl
@[simp] theorem count_links (s : State) (p : Nat) (f : FRef) (n : Nat) : (s.count p f n).links = s.links := rfl
@[simp] theorem count_groups (s : State) (p : Nat) (f : FRef) (n : Nat) : (s.count p f n).groups = s.groups := rfl
@[simp] theorem count_dies (s : State) (p : Nat) (f : FRef) (n : Nat) : (s.count p f n).dies = s.dies := rfl
@[simp] theorem count_power (s : State) (p : Nat) (f : FRef) (n : Nat) : (s.count p f n).power = s.power := rfl
@[simp] theorem count_storm (s : State) (p : Nat) (f : FRef) (n : Nat) : (s.count p f n).storm = s.storm := rfl
@[simp] theorem count_book (s : State) (p : Nat) (f : FRef) (n : Nat) : (s.count p f n).book = s.book := rfl
@[simp] theorem count_pmu (s : State) (p : Nat) (f : FRef) (n : Nat) : (s.count p f n).pmu = s.pmu := rfl
@[simp] theorem count_pmuSeq (s : State) (p : Nat) (f : FRef) (n : Nat) : (s.count p f n).pmuSeq = s.pmuSeq := rfl
@[simp] theorem count_ixu (s : State) (p : Nat) (f : FRef) (n : Nat) : (s.count p f n).ixu = s.ixu := rfl
@[simp] theorem count_dmas (s : State) (p : Nat) (f : FRef) (n : Nat) : (s.count p f n).dmas = s.dmas := rfl
@[simp] theorem count_dmaSeq (s : State) (p : Nat) (f : FRef) (n : Nat) : (s.count p f n).dmaSeq = s.dmaSeq := rfl
@[simp] theorem count_agents (s : State) (p : Nat) (f : FRef) (n : Nat) : (s.count p f n).agents = s.agents := rfl
@[simp] theorem count_agentQ (s : State) (p : Nat) (f : FRef) (n : Nat) : (s.count p f n).agentQ = s.agentQ := rfl
@[simp] theorem count_dmaAns (s : State) (p : Nat) (f : FRef) (n : Nat) : (s.count p f n).dmaAns = s.dmaAns := rfl
@[simp] theorem count_ne (s : State) (p : Nat) (f : FRef) (n : Nat) : (s.count p f n).ne = s.ne := rfl
@[simp] theorem count_embers (s : State) (p : Nat) (f : FRef) (n : Nat) : (s.count p f n).embers = s.embers := rfl
@[simp] theorem count_lanes (s : State) (p : Nat) (f : FRef) (n : Nat) : (s.count p f n).lanes = s.lanes := rfl
@[simp] theorem count_levels (s : State) (p : Nat) (f : FRef) (n : Nat) : (s.count p f n).levels = s.levels := rfl

@[simp] theorem bumpMod_pending (s : State) (p : Nat) (f : FRef) : (s.bumpMod p f).pending = s.pending := rfl
@[simp] theorem bumpMod_off (s : State) (p : Nat) (f : FRef) : (s.bumpMod p f).off = s.off := rfl
@[simp] theorem bumpMod_pwrok (s : State) (p : Nat) (f : FRef) : (s.bumpMod p f).pwrok = s.pwrok := rfl
@[simp] theorem bumpMod_time (s : State) (p : Nat) (f : FRef) : (s.bumpMod p f).time = s.time := rfl
@[simp] theorem bumpMod_ctr (s : State) (p : Nat) (f : FRef) : (s.bumpMod p f).ctr = s.ctr := rfl
@[simp] theorem bumpMod_shadow (s : State) (p : Nat) (f : FRef) : (s.bumpMod p f).shadow = s.shadow := rfl
@[simp] theorem bumpMod_routes (s : State) (p : Nat) (f : FRef) : (s.bumpMod p f).routes = s.routes := rfl
@[simp] theorem bumpMod_routesPend (s : State) (p : Nat) (f : FRef) : (s.bumpMod p f).routesPend = s.routesPend := rfl
@[simp] theorem bumpMod_routeBase (s : State) (p : Nat) (f : FRef) : (s.bumpMod p f).routeBase = s.routeBase := rfl
@[simp] theorem bumpMod_routeBasePend (s : State) (p : Nat) (f : FRef) : (s.bumpMod p f).routeBasePend = s.routeBasePend := rfl
@[simp] theorem bumpMod_weights (s : State) (p : Nat) (f : FRef) : (s.bumpMod p f).weights = s.weights := rfl
@[simp] theorem bumpMod_weightsPend (s : State) (p : Nat) (f : FRef) : (s.bumpMod p f).weightsPend = s.weightsPend := rfl
@[simp] theorem bumpMod_quench (s : State) (p : Nat) (f : FRef) : (s.bumpMod p f).quench = s.quench := rfl
@[simp] theorem bumpMod_readData (s : State) (p : Nat) (f : FRef) : (s.bumpMod p f).readData = s.readData := rfl
@[simp] theorem bumpMod_frozen (s : State) (p : Nat) (f : FRef) : (s.bumpMod p f).frozen = s.frozen := rfl
@[simp] theorem bumpMod_alert (s : State) (p : Nat) (f : FRef) : (s.bumpMod p f).alert = s.alert := rfl
@[simp] theorem bumpMod_smith (s : State) (p : Nat) (f : FRef) : (s.bumpMod p f).smith = s.smith := rfl
@[simp] theorem bumpMod_flash (s : State) (p : Nat) (f : FRef) : (s.bumpMod p f).flash = s.flash := rfl
@[simp] theorem bumpMod_part (s : State) (p : Nat) (f : FRef) : (s.bumpMod p f).part = s.part := rfl
@[simp] theorem bumpMod_pop (s : State) (p : Nat) (f : FRef) : (s.bumpMod p f).pop = s.pop := rfl
@[simp] theorem bumpMod_straps (s : State) (p : Nat) (f : FRef) : (s.bumpMod p f).straps = s.straps := rfl
@[simp] theorem bumpMod_recs (s : State) (p : Nat) (f : FRef) : (s.bumpMod p f).recs = s.recs := rfl
@[simp] theorem bumpMod_raised (s : State) (p : Nat) (f : FRef) : (s.bumpMod p f).raised = s.raised := rfl
@[simp] theorem bumpMod_net (s : State) (p : Nat) (f : FRef) : (s.bumpMod p f).net = s.net := rfl
@[simp] theorem bumpMod_fab (s : State) (p : Nat) (f : FRef) : (s.bumpMod p f).fab = s.fab := rfl
@[simp] theorem bumpMod_homes (s : State) (p : Nat) (f : FRef) : (s.bumpMod p f).homes = s.homes := rfl
@[simp] theorem bumpMod_hearths (s : State) (p : Nat) (f : FRef) : (s.bumpMod p f).hearths = s.hearths := rfl
@[simp] theorem bumpMod_rop (s : State) (p : Nat) (f : FRef) : (s.bumpMod p f).rop = s.rop := rfl
@[simp] theorem bumpMod_mem (s : State) (p : Nat) (f : FRef) : (s.bumpMod p f).mem = s.mem := rfl
@[simp] theorem bumpMod_sites (s : State) (p : Nat) (f : FRef) : (s.bumpMod p f).sites = s.sites := rfl
@[simp] theorem bumpMod_links (s : State) (p : Nat) (f : FRef) : (s.bumpMod p f).links = s.links := rfl
@[simp] theorem bumpMod_groups (s : State) (p : Nat) (f : FRef) : (s.bumpMod p f).groups = s.groups := rfl
@[simp] theorem bumpMod_dies (s : State) (p : Nat) (f : FRef) : (s.bumpMod p f).dies = s.dies := rfl
@[simp] theorem bumpMod_power (s : State) (p : Nat) (f : FRef) : (s.bumpMod p f).power = s.power := rfl
@[simp] theorem bumpMod_storm (s : State) (p : Nat) (f : FRef) : (s.bumpMod p f).storm = s.storm := rfl
@[simp] theorem bumpMod_book (s : State) (p : Nat) (f : FRef) : (s.bumpMod p f).book = s.book := rfl
@[simp] theorem bumpMod_pmu (s : State) (p : Nat) (f : FRef) : (s.bumpMod p f).pmu = s.pmu := rfl
@[simp] theorem bumpMod_pmuSeq (s : State) (p : Nat) (f : FRef) : (s.bumpMod p f).pmuSeq = s.pmuSeq := rfl
@[simp] theorem bumpMod_ixu (s : State) (p : Nat) (f : FRef) : (s.bumpMod p f).ixu = s.ixu := rfl
@[simp] theorem bumpMod_dmas (s : State) (p : Nat) (f : FRef) : (s.bumpMod p f).dmas = s.dmas := rfl
@[simp] theorem bumpMod_dmaSeq (s : State) (p : Nat) (f : FRef) : (s.bumpMod p f).dmaSeq = s.dmaSeq := rfl
@[simp] theorem bumpMod_agents (s : State) (p : Nat) (f : FRef) : (s.bumpMod p f).agents = s.agents := rfl
@[simp] theorem bumpMod_agentQ (s : State) (p : Nat) (f : FRef) : (s.bumpMod p f).agentQ = s.agentQ := rfl
@[simp] theorem bumpMod_dmaAns (s : State) (p : Nat) (f : FRef) : (s.bumpMod p f).dmaAns = s.dmaAns := rfl
@[simp] theorem bumpMod_ne (s : State) (p : Nat) (f : FRef) : (s.bumpMod p f).ne = s.ne := rfl
@[simp] theorem bumpMod_embers (s : State) (p : Nat) (f : FRef) : (s.bumpMod p f).embers = s.embers := rfl
@[simp] theorem bumpMod_lanes (s : State) (p : Nat) (f : FRef) : (s.bumpMod p f).lanes = s.lanes := rfl
@[simp] theorem bumpMod_levels (s : State) (p : Nat) (f : FRef) : (s.bumpMod p f).levels = s.levels := rfl

@[simp] theorem setShadow_pending (s : State) (p off v : Nat) : (s.setShadow p off v).pending = s.pending := rfl
@[simp] theorem setShadow_off (s : State) (p off v : Nat) : (s.setShadow p off v).off = s.off := rfl
@[simp] theorem setShadow_pwrok (s : State) (p off v : Nat) : (s.setShadow p off v).pwrok = s.pwrok := rfl
@[simp] theorem setShadow_time (s : State) (p off v : Nat) : (s.setShadow p off v).time = s.time := rfl
@[simp] theorem setShadow_ctr (s : State) (p off v : Nat) : (s.setShadow p off v).ctr = s.ctr := rfl
@[simp] theorem setShadow_regs (s : State) (p off v : Nat) : (s.setShadow p off v).regs = s.regs := rfl
@[simp] theorem setShadow_routes (s : State) (p off v : Nat) : (s.setShadow p off v).routes = s.routes := rfl
@[simp] theorem setShadow_routesPend (s : State) (p off v : Nat) : (s.setShadow p off v).routesPend = s.routesPend := rfl
@[simp] theorem setShadow_routeBase (s : State) (p off v : Nat) : (s.setShadow p off v).routeBase = s.routeBase := rfl
@[simp] theorem setShadow_routeBasePend (s : State) (p off v : Nat) : (s.setShadow p off v).routeBasePend = s.routeBasePend := rfl
@[simp] theorem setShadow_weights (s : State) (p off v : Nat) : (s.setShadow p off v).weights = s.weights := rfl
@[simp] theorem setShadow_weightsPend (s : State) (p off v : Nat) : (s.setShadow p off v).weightsPend = s.weightsPend := rfl
@[simp] theorem setShadow_quench (s : State) (p off v : Nat) : (s.setShadow p off v).quench = s.quench := rfl
@[simp] theorem setShadow_readData (s : State) (p off v : Nat) : (s.setShadow p off v).readData = s.readData := rfl
@[simp] theorem setShadow_frozen (s : State) (p off v : Nat) : (s.setShadow p off v).frozen = s.frozen := rfl
@[simp] theorem setShadow_alert (s : State) (p off v : Nat) : (s.setShadow p off v).alert = s.alert := rfl
@[simp] theorem setShadow_smith (s : State) (p off v : Nat) : (s.setShadow p off v).smith = s.smith := rfl
@[simp] theorem setShadow_flash (s : State) (p off v : Nat) : (s.setShadow p off v).flash = s.flash := rfl
@[simp] theorem setShadow_part (s : State) (p off v : Nat) : (s.setShadow p off v).part = s.part := rfl
@[simp] theorem setShadow_pop (s : State) (p off v : Nat) : (s.setShadow p off v).pop = s.pop := rfl
@[simp] theorem setShadow_straps (s : State) (p off v : Nat) : (s.setShadow p off v).straps = s.straps := rfl
@[simp] theorem setShadow_recs (s : State) (p off v : Nat) : (s.setShadow p off v).recs = s.recs := rfl
@[simp] theorem setShadow_raised (s : State) (p off v : Nat) : (s.setShadow p off v).raised = s.raised := rfl
@[simp] theorem setShadow_net (s : State) (p off v : Nat) : (s.setShadow p off v).net = s.net := rfl
@[simp] theorem setShadow_fab (s : State) (p off v : Nat) : (s.setShadow p off v).fab = s.fab := rfl
@[simp] theorem setShadow_homes (s : State) (p off v : Nat) : (s.setShadow p off v).homes = s.homes := rfl
@[simp] theorem setShadow_hearths (s : State) (p off v : Nat) : (s.setShadow p off v).hearths = s.hearths := rfl
@[simp] theorem setShadow_rop (s : State) (p off v : Nat) : (s.setShadow p off v).rop = s.rop := rfl
@[simp] theorem setShadow_mem (s : State) (p off v : Nat) : (s.setShadow p off v).mem = s.mem := rfl
@[simp] theorem setShadow_sites (s : State) (p off v : Nat) : (s.setShadow p off v).sites = s.sites := rfl
@[simp] theorem setShadow_links (s : State) (p off v : Nat) : (s.setShadow p off v).links = s.links := rfl
@[simp] theorem setShadow_groups (s : State) (p off v : Nat) : (s.setShadow p off v).groups = s.groups := rfl
@[simp] theorem setShadow_dies (s : State) (p off v : Nat) : (s.setShadow p off v).dies = s.dies := rfl
@[simp] theorem setShadow_power (s : State) (p off v : Nat) : (s.setShadow p off v).power = s.power := rfl
@[simp] theorem setShadow_storm (s : State) (p off v : Nat) : (s.setShadow p off v).storm = s.storm := rfl
@[simp] theorem setShadow_book (s : State) (p off v : Nat) : (s.setShadow p off v).book = s.book := rfl
@[simp] theorem setShadow_pmu (s : State) (p off v : Nat) : (s.setShadow p off v).pmu = s.pmu := rfl
@[simp] theorem setShadow_pmuSeq (s : State) (p off v : Nat) : (s.setShadow p off v).pmuSeq = s.pmuSeq := rfl
@[simp] theorem setShadow_ixu (s : State) (p off v : Nat) : (s.setShadow p off v).ixu = s.ixu := rfl
@[simp] theorem setShadow_dmas (s : State) (p off v : Nat) : (s.setShadow p off v).dmas = s.dmas := rfl
@[simp] theorem setShadow_dmaSeq (s : State) (p off v : Nat) : (s.setShadow p off v).dmaSeq = s.dmaSeq := rfl
@[simp] theorem setShadow_agents (s : State) (p off v : Nat) : (s.setShadow p off v).agents = s.agents := rfl
@[simp] theorem setShadow_agentQ (s : State) (p off v : Nat) : (s.setShadow p off v).agentQ = s.agentQ := rfl
@[simp] theorem setShadow_dmaAns (s : State) (p off v : Nat) : (s.setShadow p off v).dmaAns = s.dmaAns := rfl
@[simp] theorem setShadow_ne (s : State) (p off v : Nat) : (s.setShadow p off v).ne = s.ne := rfl
@[simp] theorem setShadow_embers (s : State) (p off v : Nat) : (s.setShadow p off v).embers = s.embers := rfl
@[simp] theorem setShadow_lanes (s : State) (p off v : Nat) : (s.setShadow p off v).lanes = s.lanes := rfl
@[simp] theorem setShadow_levels (s : State) (p off v : Nat) : (s.setShadow p off v).levels = s.levels := rfl

@[simp] theorem fire_pending (s : State) (n : Nat) : (s.fire n).pending = s.pending := rfl
@[simp] theorem fire_off (s : State) (n : Nat) : (s.fire n).off = s.off := rfl
@[simp] theorem fire_pwrok (s : State) (n : Nat) : (s.fire n).pwrok = s.pwrok := rfl
@[simp] theorem fire_time (s : State) (n : Nat) : (s.fire n).time = s.time := rfl
@[simp] theorem fire_ctr (s : State) (n : Nat) : (s.fire n).ctr = s.ctr := rfl
@[simp] theorem fire_regs (s : State) (n : Nat) : (s.fire n).regs = s.regs := rfl
@[simp] theorem fire_shadow (s : State) (n : Nat) : (s.fire n).shadow = s.shadow := rfl
@[simp] theorem fire_routes (s : State) (n : Nat) : (s.fire n).routes = s.routes := rfl
@[simp] theorem fire_routesPend (s : State) (n : Nat) : (s.fire n).routesPend = s.routesPend := rfl
@[simp] theorem fire_routeBase (s : State) (n : Nat) : (s.fire n).routeBase = s.routeBase := rfl
@[simp] theorem fire_routeBasePend (s : State) (n : Nat) : (s.fire n).routeBasePend = s.routeBasePend := rfl
@[simp] theorem fire_weights (s : State) (n : Nat) : (s.fire n).weights = s.weights := rfl
@[simp] theorem fire_weightsPend (s : State) (n : Nat) : (s.fire n).weightsPend = s.weightsPend := rfl
@[simp] theorem fire_quench (s : State) (n : Nat) : (s.fire n).quench = s.quench := rfl
@[simp] theorem fire_readData (s : State) (n : Nat) : (s.fire n).readData = s.readData := rfl
@[simp] theorem fire_frozen (s : State) (n : Nat) : (s.fire n).frozen = s.frozen := rfl
@[simp] theorem fire_alert (s : State) (n : Nat) : (s.fire n).alert = s.alert := rfl
@[simp] theorem fire_smith (s : State) (n : Nat) : (s.fire n).smith = s.smith := rfl
@[simp] theorem fire_flash (s : State) (n : Nat) : (s.fire n).flash = s.flash := rfl
@[simp] theorem fire_part (s : State) (n : Nat) : (s.fire n).part = s.part := rfl
@[simp] theorem fire_pop (s : State) (n : Nat) : (s.fire n).pop = s.pop := rfl
@[simp] theorem fire_straps (s : State) (n : Nat) : (s.fire n).straps = s.straps := rfl
@[simp] theorem fire_recs (s : State) (n : Nat) : (s.fire n).recs = s.recs := rfl
@[simp] theorem fire_net (s : State) (n : Nat) : (s.fire n).net = s.net := rfl
@[simp] theorem fire_fab (s : State) (n : Nat) : (s.fire n).fab = s.fab := rfl
@[simp] theorem fire_homes (s : State) (n : Nat) : (s.fire n).homes = s.homes := rfl
@[simp] theorem fire_hearths (s : State) (n : Nat) : (s.fire n).hearths = s.hearths := rfl
@[simp] theorem fire_rop (s : State) (n : Nat) : (s.fire n).rop = s.rop := rfl
@[simp] theorem fire_mem (s : State) (n : Nat) : (s.fire n).mem = s.mem := rfl
@[simp] theorem fire_sites (s : State) (n : Nat) : (s.fire n).sites = s.sites := rfl
@[simp] theorem fire_links (s : State) (n : Nat) : (s.fire n).links = s.links := rfl
@[simp] theorem fire_groups (s : State) (n : Nat) : (s.fire n).groups = s.groups := rfl
@[simp] theorem fire_dies (s : State) (n : Nat) : (s.fire n).dies = s.dies := rfl
@[simp] theorem fire_power (s : State) (n : Nat) : (s.fire n).power = s.power := rfl
@[simp] theorem fire_storm (s : State) (n : Nat) : (s.fire n).storm = s.storm := rfl
@[simp] theorem fire_book (s : State) (n : Nat) : (s.fire n).book = s.book := rfl
@[simp] theorem fire_pmu (s : State) (n : Nat) : (s.fire n).pmu = s.pmu := rfl
@[simp] theorem fire_pmuSeq (s : State) (n : Nat) : (s.fire n).pmuSeq = s.pmuSeq := rfl
@[simp] theorem fire_ixu (s : State) (n : Nat) : (s.fire n).ixu = s.ixu := rfl
@[simp] theorem fire_dmas (s : State) (n : Nat) : (s.fire n).dmas = s.dmas := rfl
@[simp] theorem fire_dmaSeq (s : State) (n : Nat) : (s.fire n).dmaSeq = s.dmaSeq := rfl
@[simp] theorem fire_agents (s : State) (n : Nat) : (s.fire n).agents = s.agents := rfl
@[simp] theorem fire_agentQ (s : State) (n : Nat) : (s.fire n).agentQ = s.agentQ := rfl
@[simp] theorem fire_dmaAns (s : State) (n : Nat) : (s.fire n).dmaAns = s.dmaAns := rfl
@[simp] theorem fire_ne (s : State) (n : Nat) : (s.fire n).ne = s.ne := rfl
@[simp] theorem fire_embers (s : State) (n : Nat) : (s.fire n).embers = s.embers := rfl
@[simp] theorem fire_lanes (s : State) (n : Nat) : (s.fire n).lanes = s.lanes := rfl
@[simp] theorem fire_levels (s : State) (n : Nat) : (s.fire n).levels = s.levels := rfl

@[simp] theorem status_pending (s : State) (p : Nat) (f : FRef) (n : Nat) : (s.status p f n).pending = s.pending := rfl
@[simp] theorem status_off (s : State) (p : Nat) (f : FRef) (n : Nat) : (s.status p f n).off = s.off := rfl
@[simp] theorem status_pwrok (s : State) (p : Nat) (f : FRef) (n : Nat) : (s.status p f n).pwrok = s.pwrok := rfl
@[simp] theorem status_time (s : State) (p : Nat) (f : FRef) (n : Nat) : (s.status p f n).time = s.time := rfl
@[simp] theorem status_ctr (s : State) (p : Nat) (f : FRef) (n : Nat) : (s.status p f n).ctr = s.ctr := rfl
@[simp] theorem status_shadow (s : State) (p : Nat) (f : FRef) (n : Nat) : (s.status p f n).shadow = s.shadow := rfl
@[simp] theorem status_routes (s : State) (p : Nat) (f : FRef) (n : Nat) : (s.status p f n).routes = s.routes := rfl
@[simp] theorem status_routesPend (s : State) (p : Nat) (f : FRef) (n : Nat) : (s.status p f n).routesPend = s.routesPend := rfl
@[simp] theorem status_routeBase (s : State) (p : Nat) (f : FRef) (n : Nat) : (s.status p f n).routeBase = s.routeBase := rfl
@[simp] theorem status_routeBasePend (s : State) (p : Nat) (f : FRef) (n : Nat) : (s.status p f n).routeBasePend = s.routeBasePend := rfl
@[simp] theorem status_weights (s : State) (p : Nat) (f : FRef) (n : Nat) : (s.status p f n).weights = s.weights := rfl
@[simp] theorem status_weightsPend (s : State) (p : Nat) (f : FRef) (n : Nat) : (s.status p f n).weightsPend = s.weightsPend := rfl
@[simp] theorem status_quench (s : State) (p : Nat) (f : FRef) (n : Nat) : (s.status p f n).quench = s.quench := rfl
@[simp] theorem status_readData (s : State) (p : Nat) (f : FRef) (n : Nat) : (s.status p f n).readData = s.readData := rfl
@[simp] theorem status_frozen (s : State) (p : Nat) (f : FRef) (n : Nat) : (s.status p f n).frozen = s.frozen := rfl
@[simp] theorem status_alert (s : State) (p : Nat) (f : FRef) (n : Nat) : (s.status p f n).alert = s.alert := rfl
@[simp] theorem status_smith (s : State) (p : Nat) (f : FRef) (n : Nat) : (s.status p f n).smith = s.smith := rfl
@[simp] theorem status_flash (s : State) (p : Nat) (f : FRef) (n : Nat) : (s.status p f n).flash = s.flash := rfl
@[simp] theorem status_part (s : State) (p : Nat) (f : FRef) (n : Nat) : (s.status p f n).part = s.part := rfl
@[simp] theorem status_pop (s : State) (p : Nat) (f : FRef) (n : Nat) : (s.status p f n).pop = s.pop := rfl
@[simp] theorem status_straps (s : State) (p : Nat) (f : FRef) (n : Nat) : (s.status p f n).straps = s.straps := rfl
@[simp] theorem status_recs (s : State) (p : Nat) (f : FRef) (n : Nat) : (s.status p f n).recs = s.recs := rfl
@[simp] theorem status_net (s : State) (p : Nat) (f : FRef) (n : Nat) : (s.status p f n).net = s.net := rfl
@[simp] theorem status_fab (s : State) (p : Nat) (f : FRef) (n : Nat) : (s.status p f n).fab = s.fab := rfl
@[simp] theorem status_homes (s : State) (p : Nat) (f : FRef) (n : Nat) : (s.status p f n).homes = s.homes := rfl
@[simp] theorem status_hearths (s : State) (p : Nat) (f : FRef) (n : Nat) : (s.status p f n).hearths = s.hearths := rfl
@[simp] theorem status_rop (s : State) (p : Nat) (f : FRef) (n : Nat) : (s.status p f n).rop = s.rop := rfl
@[simp] theorem status_mem (s : State) (p : Nat) (f : FRef) (n : Nat) : (s.status p f n).mem = s.mem := rfl
@[simp] theorem status_sites (s : State) (p : Nat) (f : FRef) (n : Nat) : (s.status p f n).sites = s.sites := rfl
@[simp] theorem status_links (s : State) (p : Nat) (f : FRef) (n : Nat) : (s.status p f n).links = s.links := rfl
@[simp] theorem status_groups (s : State) (p : Nat) (f : FRef) (n : Nat) : (s.status p f n).groups = s.groups := rfl
@[simp] theorem status_dies (s : State) (p : Nat) (f : FRef) (n : Nat) : (s.status p f n).dies = s.dies := rfl
@[simp] theorem status_power (s : State) (p : Nat) (f : FRef) (n : Nat) : (s.status p f n).power = s.power := rfl
@[simp] theorem status_storm (s : State) (p : Nat) (f : FRef) (n : Nat) : (s.status p f n).storm = s.storm := rfl
@[simp] theorem status_book (s : State) (p : Nat) (f : FRef) (n : Nat) : (s.status p f n).book = s.book := rfl
@[simp] theorem status_pmu (s : State) (p : Nat) (f : FRef) (n : Nat) : (s.status p f n).pmu = s.pmu := rfl
@[simp] theorem status_pmuSeq (s : State) (p : Nat) (f : FRef) (n : Nat) : (s.status p f n).pmuSeq = s.pmuSeq := rfl
@[simp] theorem status_ixu (s : State) (p : Nat) (f : FRef) (n : Nat) : (s.status p f n).ixu = s.ixu := rfl
@[simp] theorem status_dmas (s : State) (p : Nat) (f : FRef) (n : Nat) : (s.status p f n).dmas = s.dmas := rfl
@[simp] theorem status_dmaSeq (s : State) (p : Nat) (f : FRef) (n : Nat) : (s.status p f n).dmaSeq = s.dmaSeq := rfl
@[simp] theorem status_agents (s : State) (p : Nat) (f : FRef) (n : Nat) : (s.status p f n).agents = s.agents := rfl
@[simp] theorem status_agentQ (s : State) (p : Nat) (f : FRef) (n : Nat) : (s.status p f n).agentQ = s.agentQ := rfl
@[simp] theorem status_dmaAns (s : State) (p : Nat) (f : FRef) (n : Nat) : (s.status p f n).dmaAns = s.dmaAns := rfl
@[simp] theorem status_ne (s : State) (p : Nat) (f : FRef) (n : Nat) : (s.status p f n).ne = s.ne := rfl
@[simp] theorem status_embers (s : State) (p : Nat) (f : FRef) (n : Nat) : (s.status p f n).embers = s.embers := rfl
@[simp] theorem status_lanes (s : State) (p : Nat) (f : FRef) (n : Nat) : (s.status p f n).lanes = s.lanes := rfl
@[simp] theorem status_levels (s : State) (p : Nat) (f : FRef) (n : Nat) : (s.status p f n).levels = s.levels := rfl

@[simp] theorem record_pending (s : State) (r : Rec) : (s.record r).pending = s.pending := by
  unfold record fire; split <;> (try split) <;> rfl
@[simp] theorem record_off (s : State) (r : Rec) : (s.record r).off = s.off := by
  unfold record fire; split <;> (try split) <;> rfl
@[simp] theorem record_pwrok (s : State) (r : Rec) : (s.record r).pwrok = s.pwrok := by
  unfold record fire; split <;> (try split) <;> rfl
@[simp] theorem record_time (s : State) (r : Rec) : (s.record r).time = s.time := by
  unfold record fire; split <;> (try split) <;> rfl
@[simp] theorem record_ctr (s : State) (r : Rec) : (s.record r).ctr = s.ctr := by
  unfold record fire; split <;> (try split) <;> rfl
@[simp] theorem record_regs (s : State) (r : Rec) : (s.record r).regs = s.regs := by
  unfold record fire; split <;> (try split) <;> rfl
@[simp] theorem record_shadow (s : State) (r : Rec) : (s.record r).shadow = s.shadow := by
  unfold record fire; split <;> (try split) <;> rfl
@[simp] theorem record_routes (s : State) (r : Rec) : (s.record r).routes = s.routes := by
  unfold record fire; split <;> (try split) <;> rfl
@[simp] theorem record_routesPend (s : State) (r : Rec) : (s.record r).routesPend = s.routesPend := by
  unfold record fire; split <;> (try split) <;> rfl
@[simp] theorem record_routeBase (s : State) (r : Rec) : (s.record r).routeBase = s.routeBase := by
  unfold record fire; split <;> (try split) <;> rfl
@[simp] theorem record_routeBasePend (s : State) (r : Rec) : (s.record r).routeBasePend = s.routeBasePend := by
  unfold record fire; split <;> (try split) <;> rfl
@[simp] theorem record_weights (s : State) (r : Rec) : (s.record r).weights = s.weights := by
  unfold record fire; split <;> (try split) <;> rfl
@[simp] theorem record_weightsPend (s : State) (r : Rec) : (s.record r).weightsPend = s.weightsPend := by
  unfold record fire; split <;> (try split) <;> rfl
@[simp] theorem record_quench (s : State) (r : Rec) : (s.record r).quench = s.quench := by
  unfold record fire; split <;> (try split) <;> rfl
@[simp] theorem record_readData (s : State) (r : Rec) : (s.record r).readData = s.readData := by
  unfold record fire; split <;> (try split) <;> rfl
@[simp] theorem record_frozen (s : State) (r : Rec) : (s.record r).frozen = s.frozen := by
  unfold record fire; split <;> (try split) <;> rfl
@[simp] theorem record_alert (s : State) (r : Rec) : (s.record r).alert = s.alert := by
  unfold record fire; split <;> (try split) <;> rfl
@[simp] theorem record_smith (s : State) (r : Rec) : (s.record r).smith = s.smith := by
  unfold record fire; split <;> (try split) <;> rfl
@[simp] theorem record_flash (s : State) (r : Rec) : (s.record r).flash = s.flash := by
  unfold record fire; split <;> (try split) <;> rfl
@[simp] theorem record_part (s : State) (r : Rec) : (s.record r).part = s.part := by
  unfold record fire; split <;> (try split) <;> rfl
@[simp] theorem record_pop (s : State) (r : Rec) : (s.record r).pop = s.pop := by
  unfold record fire; split <;> (try split) <;> rfl
@[simp] theorem record_straps (s : State) (r : Rec) : (s.record r).straps = s.straps := by
  unfold record fire; split <;> (try split) <;> rfl
@[simp] theorem record_net (s : State) (r : Rec) : (s.record r).net = s.net := by
  unfold record fire; split <;> (try split) <;> rfl
@[simp] theorem record_fab (s : State) (r : Rec) : (s.record r).fab = s.fab := by
  unfold record fire; split <;> (try split) <;> rfl
@[simp] theorem record_homes (s : State) (r : Rec) : (s.record r).homes = s.homes := by
  unfold record fire; split <;> (try split) <;> rfl
@[simp] theorem record_hearths (s : State) (r : Rec) : (s.record r).hearths = s.hearths := by
  unfold record fire; split <;> (try split) <;> rfl
@[simp] theorem record_rop (s : State) (r : Rec) : (s.record r).rop = s.rop := by
  unfold record fire; split <;> (try split) <;> rfl
@[simp] theorem record_mem (s : State) (r : Rec) : (s.record r).mem = s.mem := by
  unfold record fire; split <;> (try split) <;> rfl
@[simp] theorem record_sites (s : State) (r : Rec) : (s.record r).sites = s.sites := by
  unfold record fire; split <;> (try split) <;> rfl
@[simp] theorem record_links (s : State) (r : Rec) : (s.record r).links = s.links := by
  unfold record fire; split <;> (try split) <;> rfl
@[simp] theorem record_groups (s : State) (r : Rec) : (s.record r).groups = s.groups := by
  unfold record fire; split <;> (try split) <;> rfl
@[simp] theorem record_dies (s : State) (r : Rec) : (s.record r).dies = s.dies := by
  unfold record fire; split <;> (try split) <;> rfl
@[simp] theorem record_power (s : State) (r : Rec) : (s.record r).power = s.power := by
  unfold record fire; split <;> (try split) <;> rfl
@[simp] theorem record_storm (s : State) (r : Rec) : (s.record r).storm = s.storm := by
  unfold record fire; split <;> (try split) <;> rfl
@[simp] theorem record_book (s : State) (r : Rec) : (s.record r).book = s.book := by
  unfold record fire; split <;> (try split) <;> rfl
@[simp] theorem record_pmu (s : State) (r : Rec) : (s.record r).pmu = s.pmu := by
  unfold record fire; split <;> (try split) <;> rfl
@[simp] theorem record_pmuSeq (s : State) (r : Rec) : (s.record r).pmuSeq = s.pmuSeq := by
  unfold record fire; split <;> (try split) <;> rfl
@[simp] theorem record_ixu (s : State) (r : Rec) : (s.record r).ixu = s.ixu := by
  unfold record fire; split <;> (try split) <;> rfl
@[simp] theorem record_dmas (s : State) (r : Rec) : (s.record r).dmas = s.dmas := by
  unfold record fire; split <;> (try split) <;> rfl
@[simp] theorem record_dmaSeq (s : State) (r : Rec) : (s.record r).dmaSeq = s.dmaSeq := by
  unfold record fire; split <;> (try split) <;> rfl
@[simp] theorem record_agents (s : State) (r : Rec) : (s.record r).agents = s.agents := by
  unfold record fire; split <;> (try split) <;> rfl
@[simp] theorem record_agentQ (s : State) (r : Rec) : (s.record r).agentQ = s.agentQ := by
  unfold record fire; split <;> (try split) <;> rfl
@[simp] theorem record_dmaAns (s : State) (r : Rec) : (s.record r).dmaAns = s.dmaAns := by
  unfold record fire; split <;> (try split) <;> rfl
@[simp] theorem record_ne (s : State) (r : Rec) : (s.record r).ne = s.ne := by
  unfold record fire; split <;> (try split) <;> rfl
@[simp] theorem record_embers (s : State) (r : Rec) : (s.record r).embers = s.embers := by
  unfold record fire; split <;> (try split) <;> rfl
@[simp] theorem record_lanes (s : State) (r : Rec) : (s.record r).lanes = s.lanes := by
  unfold record fire; split <;> (try split) <;> rfl
@[simp] theorem record_levels (s : State) (r : Rec) : (s.record r).levels = s.levels := by
  unfold record fire; split <;> (try split) <;> rfl

@[simp] theorem modHome_pending (s : State) (h : Nat) (f : Home → Home) : (s.modHome h f).pending = s.pending := rfl
@[simp] theorem modHome_off (s : State) (h : Nat) (f : Home → Home) : (s.modHome h f).off = s.off := rfl
@[simp] theorem modHome_pwrok (s : State) (h : Nat) (f : Home → Home) : (s.modHome h f).pwrok = s.pwrok := rfl
@[simp] theorem modHome_time (s : State) (h : Nat) (f : Home → Home) : (s.modHome h f).time = s.time := rfl
@[simp] theorem modHome_ctr (s : State) (h : Nat) (f : Home → Home) : (s.modHome h f).ctr = s.ctr := rfl
@[simp] theorem modHome_regs (s : State) (h : Nat) (f : Home → Home) : (s.modHome h f).regs = s.regs := rfl
@[simp] theorem modHome_shadow (s : State) (h : Nat) (f : Home → Home) : (s.modHome h f).shadow = s.shadow := rfl
@[simp] theorem modHome_routes (s : State) (h : Nat) (f : Home → Home) : (s.modHome h f).routes = s.routes := rfl
@[simp] theorem modHome_routesPend (s : State) (h : Nat) (f : Home → Home) : (s.modHome h f).routesPend = s.routesPend := rfl
@[simp] theorem modHome_routeBase (s : State) (h : Nat) (f : Home → Home) : (s.modHome h f).routeBase = s.routeBase := rfl
@[simp] theorem modHome_routeBasePend (s : State) (h : Nat) (f : Home → Home) : (s.modHome h f).routeBasePend = s.routeBasePend := rfl
@[simp] theorem modHome_weights (s : State) (h : Nat) (f : Home → Home) : (s.modHome h f).weights = s.weights := rfl
@[simp] theorem modHome_weightsPend (s : State) (h : Nat) (f : Home → Home) : (s.modHome h f).weightsPend = s.weightsPend := rfl
@[simp] theorem modHome_quench (s : State) (h : Nat) (f : Home → Home) : (s.modHome h f).quench = s.quench := rfl
@[simp] theorem modHome_readData (s : State) (h : Nat) (f : Home → Home) : (s.modHome h f).readData = s.readData := rfl
@[simp] theorem modHome_frozen (s : State) (h : Nat) (f : Home → Home) : (s.modHome h f).frozen = s.frozen := rfl
@[simp] theorem modHome_alert (s : State) (h : Nat) (f : Home → Home) : (s.modHome h f).alert = s.alert := rfl
@[simp] theorem modHome_smith (s : State) (h : Nat) (f : Home → Home) : (s.modHome h f).smith = s.smith := rfl
@[simp] theorem modHome_flash (s : State) (h : Nat) (f : Home → Home) : (s.modHome h f).flash = s.flash := rfl
@[simp] theorem modHome_part (s : State) (h : Nat) (f : Home → Home) : (s.modHome h f).part = s.part := rfl
@[simp] theorem modHome_pop (s : State) (h : Nat) (f : Home → Home) : (s.modHome h f).pop = s.pop := rfl
@[simp] theorem modHome_straps (s : State) (h : Nat) (f : Home → Home) : (s.modHome h f).straps = s.straps := rfl
@[simp] theorem modHome_recs (s : State) (h : Nat) (f : Home → Home) : (s.modHome h f).recs = s.recs := rfl
@[simp] theorem modHome_raised (s : State) (h : Nat) (f : Home → Home) : (s.modHome h f).raised = s.raised := rfl
@[simp] theorem modHome_net (s : State) (h : Nat) (f : Home → Home) : (s.modHome h f).net = s.net := rfl
@[simp] theorem modHome_fab (s : State) (h : Nat) (f : Home → Home) : (s.modHome h f).fab = s.fab := rfl
@[simp] theorem modHome_hearths (s : State) (h : Nat) (f : Home → Home) : (s.modHome h f).hearths = s.hearths := rfl
@[simp] theorem modHome_rop (s : State) (h : Nat) (f : Home → Home) : (s.modHome h f).rop = s.rop := rfl
@[simp] theorem modHome_mem (s : State) (h : Nat) (f : Home → Home) : (s.modHome h f).mem = s.mem := rfl
@[simp] theorem modHome_sites (s : State) (h : Nat) (f : Home → Home) : (s.modHome h f).sites = s.sites := rfl
@[simp] theorem modHome_links (s : State) (h : Nat) (f : Home → Home) : (s.modHome h f).links = s.links := rfl
@[simp] theorem modHome_groups (s : State) (h : Nat) (f : Home → Home) : (s.modHome h f).groups = s.groups := rfl
@[simp] theorem modHome_dies (s : State) (h : Nat) (f : Home → Home) : (s.modHome h f).dies = s.dies := rfl
@[simp] theorem modHome_power (s : State) (h : Nat) (f : Home → Home) : (s.modHome h f).power = s.power := rfl
@[simp] theorem modHome_storm (s : State) (h : Nat) (f : Home → Home) : (s.modHome h f).storm = s.storm := rfl
@[simp] theorem modHome_book (s : State) (h : Nat) (f : Home → Home) : (s.modHome h f).book = s.book := rfl
@[simp] theorem modHome_pmu (s : State) (h : Nat) (f : Home → Home) : (s.modHome h f).pmu = s.pmu := rfl
@[simp] theorem modHome_pmuSeq (s : State) (h : Nat) (f : Home → Home) : (s.modHome h f).pmuSeq = s.pmuSeq := rfl
@[simp] theorem modHome_ixu (s : State) (h : Nat) (f : Home → Home) : (s.modHome h f).ixu = s.ixu := rfl
@[simp] theorem modHome_dmas (s : State) (h : Nat) (f : Home → Home) : (s.modHome h f).dmas = s.dmas := rfl
@[simp] theorem modHome_dmaSeq (s : State) (h : Nat) (f : Home → Home) : (s.modHome h f).dmaSeq = s.dmaSeq := rfl
@[simp] theorem modHome_agents (s : State) (h : Nat) (f : Home → Home) : (s.modHome h f).agents = s.agents := rfl
@[simp] theorem modHome_agentQ (s : State) (h : Nat) (f : Home → Home) : (s.modHome h f).agentQ = s.agentQ := rfl
@[simp] theorem modHome_dmaAns (s : State) (h : Nat) (f : Home → Home) : (s.modHome h f).dmaAns = s.dmaAns := rfl
@[simp] theorem modHome_ne (s : State) (h : Nat) (f : Home → Home) : (s.modHome h f).ne = s.ne := rfl
@[simp] theorem modHome_embers (s : State) (h : Nat) (f : Home → Home) : (s.modHome h f).embers = s.embers := rfl
@[simp] theorem modHome_lanes (s : State) (h : Nat) (f : Home → Home) : (s.modHome h f).lanes = s.lanes := rfl
@[simp] theorem modHome_levels (s : State) (h : Nat) (f : Home → Home) : (s.modHome h f).levels = s.levels := rfl

@[simp] theorem modHearth_pending (s : State) (h : Nat) (f : Hearth → Hearth) : (s.modHearth h f).pending = s.pending := rfl
@[simp] theorem modHearth_off (s : State) (h : Nat) (f : Hearth → Hearth) : (s.modHearth h f).off = s.off := rfl
@[simp] theorem modHearth_pwrok (s : State) (h : Nat) (f : Hearth → Hearth) : (s.modHearth h f).pwrok = s.pwrok := rfl
@[simp] theorem modHearth_time (s : State) (h : Nat) (f : Hearth → Hearth) : (s.modHearth h f).time = s.time := rfl
@[simp] theorem modHearth_ctr (s : State) (h : Nat) (f : Hearth → Hearth) : (s.modHearth h f).ctr = s.ctr := rfl
@[simp] theorem modHearth_regs (s : State) (h : Nat) (f : Hearth → Hearth) : (s.modHearth h f).regs = s.regs := rfl
@[simp] theorem modHearth_shadow (s : State) (h : Nat) (f : Hearth → Hearth) : (s.modHearth h f).shadow = s.shadow := rfl
@[simp] theorem modHearth_routes (s : State) (h : Nat) (f : Hearth → Hearth) : (s.modHearth h f).routes = s.routes := rfl
@[simp] theorem modHearth_routesPend (s : State) (h : Nat) (f : Hearth → Hearth) : (s.modHearth h f).routesPend = s.routesPend := rfl
@[simp] theorem modHearth_routeBase (s : State) (h : Nat) (f : Hearth → Hearth) : (s.modHearth h f).routeBase = s.routeBase := rfl
@[simp] theorem modHearth_routeBasePend (s : State) (h : Nat) (f : Hearth → Hearth) : (s.modHearth h f).routeBasePend = s.routeBasePend := rfl
@[simp] theorem modHearth_weights (s : State) (h : Nat) (f : Hearth → Hearth) : (s.modHearth h f).weights = s.weights := rfl
@[simp] theorem modHearth_weightsPend (s : State) (h : Nat) (f : Hearth → Hearth) : (s.modHearth h f).weightsPend = s.weightsPend := rfl
@[simp] theorem modHearth_quench (s : State) (h : Nat) (f : Hearth → Hearth) : (s.modHearth h f).quench = s.quench := rfl
@[simp] theorem modHearth_readData (s : State) (h : Nat) (f : Hearth → Hearth) : (s.modHearth h f).readData = s.readData := rfl
@[simp] theorem modHearth_frozen (s : State) (h : Nat) (f : Hearth → Hearth) : (s.modHearth h f).frozen = s.frozen := rfl
@[simp] theorem modHearth_alert (s : State) (h : Nat) (f : Hearth → Hearth) : (s.modHearth h f).alert = s.alert := rfl
@[simp] theorem modHearth_smith (s : State) (h : Nat) (f : Hearth → Hearth) : (s.modHearth h f).smith = s.smith := rfl
@[simp] theorem modHearth_flash (s : State) (h : Nat) (f : Hearth → Hearth) : (s.modHearth h f).flash = s.flash := rfl
@[simp] theorem modHearth_part (s : State) (h : Nat) (f : Hearth → Hearth) : (s.modHearth h f).part = s.part := rfl
@[simp] theorem modHearth_pop (s : State) (h : Nat) (f : Hearth → Hearth) : (s.modHearth h f).pop = s.pop := rfl
@[simp] theorem modHearth_straps (s : State) (h : Nat) (f : Hearth → Hearth) : (s.modHearth h f).straps = s.straps := rfl
@[simp] theorem modHearth_recs (s : State) (h : Nat) (f : Hearth → Hearth) : (s.modHearth h f).recs = s.recs := rfl
@[simp] theorem modHearth_raised (s : State) (h : Nat) (f : Hearth → Hearth) : (s.modHearth h f).raised = s.raised := rfl
@[simp] theorem modHearth_net (s : State) (h : Nat) (f : Hearth → Hearth) : (s.modHearth h f).net = s.net := rfl
@[simp] theorem modHearth_fab (s : State) (h : Nat) (f : Hearth → Hearth) : (s.modHearth h f).fab = s.fab := rfl
@[simp] theorem modHearth_homes (s : State) (h : Nat) (f : Hearth → Hearth) : (s.modHearth h f).homes = s.homes := rfl
@[simp] theorem modHearth_rop (s : State) (h : Nat) (f : Hearth → Hearth) : (s.modHearth h f).rop = s.rop := rfl
@[simp] theorem modHearth_mem (s : State) (h : Nat) (f : Hearth → Hearth) : (s.modHearth h f).mem = s.mem := rfl
@[simp] theorem modHearth_sites (s : State) (h : Nat) (f : Hearth → Hearth) : (s.modHearth h f).sites = s.sites := rfl
@[simp] theorem modHearth_links (s : State) (h : Nat) (f : Hearth → Hearth) : (s.modHearth h f).links = s.links := rfl
@[simp] theorem modHearth_groups (s : State) (h : Nat) (f : Hearth → Hearth) : (s.modHearth h f).groups = s.groups := rfl
@[simp] theorem modHearth_dies (s : State) (h : Nat) (f : Hearth → Hearth) : (s.modHearth h f).dies = s.dies := rfl
@[simp] theorem modHearth_power (s : State) (h : Nat) (f : Hearth → Hearth) : (s.modHearth h f).power = s.power := rfl
@[simp] theorem modHearth_storm (s : State) (h : Nat) (f : Hearth → Hearth) : (s.modHearth h f).storm = s.storm := rfl
@[simp] theorem modHearth_book (s : State) (h : Nat) (f : Hearth → Hearth) : (s.modHearth h f).book = s.book := rfl
@[simp] theorem modHearth_pmu (s : State) (h : Nat) (f : Hearth → Hearth) : (s.modHearth h f).pmu = s.pmu := rfl
@[simp] theorem modHearth_pmuSeq (s : State) (h : Nat) (f : Hearth → Hearth) : (s.modHearth h f).pmuSeq = s.pmuSeq := rfl
@[simp] theorem modHearth_ixu (s : State) (h : Nat) (f : Hearth → Hearth) : (s.modHearth h f).ixu = s.ixu := rfl
@[simp] theorem modHearth_dmas (s : State) (h : Nat) (f : Hearth → Hearth) : (s.modHearth h f).dmas = s.dmas := rfl
@[simp] theorem modHearth_dmaSeq (s : State) (h : Nat) (f : Hearth → Hearth) : (s.modHearth h f).dmaSeq = s.dmaSeq := rfl
@[simp] theorem modHearth_agents (s : State) (h : Nat) (f : Hearth → Hearth) : (s.modHearth h f).agents = s.agents := rfl
@[simp] theorem modHearth_agentQ (s : State) (h : Nat) (f : Hearth → Hearth) : (s.modHearth h f).agentQ = s.agentQ := rfl
@[simp] theorem modHearth_dmaAns (s : State) (h : Nat) (f : Hearth → Hearth) : (s.modHearth h f).dmaAns = s.dmaAns := rfl
@[simp] theorem modHearth_ne (s : State) (h : Nat) (f : Hearth → Hearth) : (s.modHearth h f).ne = s.ne := rfl
@[simp] theorem modHearth_embers (s : State) (h : Nat) (f : Hearth → Hearth) : (s.modHearth h f).embers = s.embers := rfl
@[simp] theorem modHearth_lanes (s : State) (h : Nat) (f : Hearth → Hearth) : (s.modHearth h f).lanes = s.lanes := rfl
@[simp] theorem modHearth_levels (s : State) (h : Nat) (f : Hearth → Hearth) : (s.modHearth h f).levels = s.levels := rfl

@[simp] theorem setMemLine_pending (s : State) (l : Nat) (d : LineData) (b : Bool) : (s.setMemLine l d b).pending = s.pending := rfl
@[simp] theorem setMemLine_off (s : State) (l : Nat) (d : LineData) (b : Bool) : (s.setMemLine l d b).off = s.off := rfl
@[simp] theorem setMemLine_pwrok (s : State) (l : Nat) (d : LineData) (b : Bool) : (s.setMemLine l d b).pwrok = s.pwrok := rfl
@[simp] theorem setMemLine_time (s : State) (l : Nat) (d : LineData) (b : Bool) : (s.setMemLine l d b).time = s.time := rfl
@[simp] theorem setMemLine_ctr (s : State) (l : Nat) (d : LineData) (b : Bool) : (s.setMemLine l d b).ctr = s.ctr := rfl
@[simp] theorem setMemLine_regs (s : State) (l : Nat) (d : LineData) (b : Bool) : (s.setMemLine l d b).regs = s.regs := rfl
@[simp] theorem setMemLine_shadow (s : State) (l : Nat) (d : LineData) (b : Bool) : (s.setMemLine l d b).shadow = s.shadow := rfl
@[simp] theorem setMemLine_routes (s : State) (l : Nat) (d : LineData) (b : Bool) : (s.setMemLine l d b).routes = s.routes := rfl
@[simp] theorem setMemLine_routesPend (s : State) (l : Nat) (d : LineData) (b : Bool) : (s.setMemLine l d b).routesPend = s.routesPend := rfl
@[simp] theorem setMemLine_routeBase (s : State) (l : Nat) (d : LineData) (b : Bool) : (s.setMemLine l d b).routeBase = s.routeBase := rfl
@[simp] theorem setMemLine_routeBasePend (s : State) (l : Nat) (d : LineData) (b : Bool) : (s.setMemLine l d b).routeBasePend = s.routeBasePend := rfl
@[simp] theorem setMemLine_weights (s : State) (l : Nat) (d : LineData) (b : Bool) : (s.setMemLine l d b).weights = s.weights := rfl
@[simp] theorem setMemLine_weightsPend (s : State) (l : Nat) (d : LineData) (b : Bool) : (s.setMemLine l d b).weightsPend = s.weightsPend := rfl
@[simp] theorem setMemLine_quench (s : State) (l : Nat) (d : LineData) (b : Bool) : (s.setMemLine l d b).quench = s.quench := rfl
@[simp] theorem setMemLine_readData (s : State) (l : Nat) (d : LineData) (b : Bool) : (s.setMemLine l d b).readData = s.readData := rfl
@[simp] theorem setMemLine_frozen (s : State) (l : Nat) (d : LineData) (b : Bool) : (s.setMemLine l d b).frozen = s.frozen := rfl
@[simp] theorem setMemLine_alert (s : State) (l : Nat) (d : LineData) (b : Bool) : (s.setMemLine l d b).alert = s.alert := rfl
@[simp] theorem setMemLine_smith (s : State) (l : Nat) (d : LineData) (b : Bool) : (s.setMemLine l d b).smith = s.smith := rfl
@[simp] theorem setMemLine_flash (s : State) (l : Nat) (d : LineData) (b : Bool) : (s.setMemLine l d b).flash = s.flash := rfl
@[simp] theorem setMemLine_part (s : State) (l : Nat) (d : LineData) (b : Bool) : (s.setMemLine l d b).part = s.part := rfl
@[simp] theorem setMemLine_pop (s : State) (l : Nat) (d : LineData) (b : Bool) : (s.setMemLine l d b).pop = s.pop := rfl
@[simp] theorem setMemLine_straps (s : State) (l : Nat) (d : LineData) (b : Bool) : (s.setMemLine l d b).straps = s.straps := rfl
@[simp] theorem setMemLine_recs (s : State) (l : Nat) (d : LineData) (b : Bool) : (s.setMemLine l d b).recs = s.recs := rfl
@[simp] theorem setMemLine_raised (s : State) (l : Nat) (d : LineData) (b : Bool) : (s.setMemLine l d b).raised = s.raised := rfl
@[simp] theorem setMemLine_net (s : State) (l : Nat) (d : LineData) (b : Bool) : (s.setMemLine l d b).net = s.net := rfl
@[simp] theorem setMemLine_fab (s : State) (l : Nat) (d : LineData) (b : Bool) : (s.setMemLine l d b).fab = s.fab := rfl
@[simp] theorem setMemLine_homes (s : State) (l : Nat) (d : LineData) (b : Bool) : (s.setMemLine l d b).homes = s.homes := rfl
@[simp] theorem setMemLine_hearths (s : State) (l : Nat) (d : LineData) (b : Bool) : (s.setMemLine l d b).hearths = s.hearths := rfl
@[simp] theorem setMemLine_rop (s : State) (l : Nat) (d : LineData) (b : Bool) : (s.setMemLine l d b).rop = s.rop := rfl
@[simp] theorem setMemLine_sites (s : State) (l : Nat) (d : LineData) (b : Bool) : (s.setMemLine l d b).sites = s.sites := rfl
@[simp] theorem setMemLine_links (s : State) (l : Nat) (d : LineData) (b : Bool) : (s.setMemLine l d b).links = s.links := rfl
@[simp] theorem setMemLine_groups (s : State) (l : Nat) (d : LineData) (b : Bool) : (s.setMemLine l d b).groups = s.groups := rfl
@[simp] theorem setMemLine_dies (s : State) (l : Nat) (d : LineData) (b : Bool) : (s.setMemLine l d b).dies = s.dies := rfl
@[simp] theorem setMemLine_power (s : State) (l : Nat) (d : LineData) (b : Bool) : (s.setMemLine l d b).power = s.power := rfl
@[simp] theorem setMemLine_storm (s : State) (l : Nat) (d : LineData) (b : Bool) : (s.setMemLine l d b).storm = s.storm := rfl
@[simp] theorem setMemLine_book (s : State) (l : Nat) (d : LineData) (b : Bool) : (s.setMemLine l d b).book = s.book := rfl
@[simp] theorem setMemLine_pmu (s : State) (l : Nat) (d : LineData) (b : Bool) : (s.setMemLine l d b).pmu = s.pmu := rfl
@[simp] theorem setMemLine_pmuSeq (s : State) (l : Nat) (d : LineData) (b : Bool) : (s.setMemLine l d b).pmuSeq = s.pmuSeq := rfl
@[simp] theorem setMemLine_ixu (s : State) (l : Nat) (d : LineData) (b : Bool) : (s.setMemLine l d b).ixu = s.ixu := rfl
@[simp] theorem setMemLine_dmas (s : State) (l : Nat) (d : LineData) (b : Bool) : (s.setMemLine l d b).dmas = s.dmas := rfl
@[simp] theorem setMemLine_dmaSeq (s : State) (l : Nat) (d : LineData) (b : Bool) : (s.setMemLine l d b).dmaSeq = s.dmaSeq := rfl
@[simp] theorem setMemLine_agents (s : State) (l : Nat) (d : LineData) (b : Bool) : (s.setMemLine l d b).agents = s.agents := rfl
@[simp] theorem setMemLine_agentQ (s : State) (l : Nat) (d : LineData) (b : Bool) : (s.setMemLine l d b).agentQ = s.agentQ := rfl
@[simp] theorem setMemLine_dmaAns (s : State) (l : Nat) (d : LineData) (b : Bool) : (s.setMemLine l d b).dmaAns = s.dmaAns := rfl
@[simp] theorem setMemLine_ne (s : State) (l : Nat) (d : LineData) (b : Bool) : (s.setMemLine l d b).ne = s.ne := rfl
@[simp] theorem setMemLine_embers (s : State) (l : Nat) (d : LineData) (b : Bool) : (s.setMemLine l d b).embers = s.embers := rfl
@[simp] theorem setMemLine_lanes (s : State) (l : Nat) (d : LineData) (b : Bool) : (s.setMemLine l d b).lanes = s.lanes := rfl
@[simp] theorem setMemLine_levels (s : State) (l : Nat) (d : LineData) (b : Bool) : (s.setMemLine l d b).levels = s.levels := rfl

@[simp] theorem send_pending (s : State) (p : Pkt) (d : BitVec 8) : (s.send p d).pending = s.pending := rfl
@[simp] theorem send_off (s : State) (p : Pkt) (d : BitVec 8) : (s.send p d).off = s.off := rfl
@[simp] theorem send_pwrok (s : State) (p : Pkt) (d : BitVec 8) : (s.send p d).pwrok = s.pwrok := rfl
@[simp] theorem send_time (s : State) (p : Pkt) (d : BitVec 8) : (s.send p d).time = s.time := rfl
@[simp] theorem send_ctr (s : State) (p : Pkt) (d : BitVec 8) : (s.send p d).ctr = s.ctr := rfl
@[simp] theorem send_regs (s : State) (p : Pkt) (d : BitVec 8) : (s.send p d).regs = s.regs := rfl
@[simp] theorem send_shadow (s : State) (p : Pkt) (d : BitVec 8) : (s.send p d).shadow = s.shadow := rfl
@[simp] theorem send_routes (s : State) (p : Pkt) (d : BitVec 8) : (s.send p d).routes = s.routes := rfl
@[simp] theorem send_routesPend (s : State) (p : Pkt) (d : BitVec 8) : (s.send p d).routesPend = s.routesPend := rfl
@[simp] theorem send_routeBase (s : State) (p : Pkt) (d : BitVec 8) : (s.send p d).routeBase = s.routeBase := rfl
@[simp] theorem send_routeBasePend (s : State) (p : Pkt) (d : BitVec 8) : (s.send p d).routeBasePend = s.routeBasePend := rfl
@[simp] theorem send_weights (s : State) (p : Pkt) (d : BitVec 8) : (s.send p d).weights = s.weights := rfl
@[simp] theorem send_weightsPend (s : State) (p : Pkt) (d : BitVec 8) : (s.send p d).weightsPend = s.weightsPend := rfl
@[simp] theorem send_quench (s : State) (p : Pkt) (d : BitVec 8) : (s.send p d).quench = s.quench := rfl
@[simp] theorem send_readData (s : State) (p : Pkt) (d : BitVec 8) : (s.send p d).readData = s.readData := rfl
@[simp] theorem send_frozen (s : State) (p : Pkt) (d : BitVec 8) : (s.send p d).frozen = s.frozen := rfl
@[simp] theorem send_alert (s : State) (p : Pkt) (d : BitVec 8) : (s.send p d).alert = s.alert := rfl
@[simp] theorem send_smith (s : State) (p : Pkt) (d : BitVec 8) : (s.send p d).smith = s.smith := rfl
@[simp] theorem send_flash (s : State) (p : Pkt) (d : BitVec 8) : (s.send p d).flash = s.flash := rfl
@[simp] theorem send_part (s : State) (p : Pkt) (d : BitVec 8) : (s.send p d).part = s.part := rfl
@[simp] theorem send_pop (s : State) (p : Pkt) (d : BitVec 8) : (s.send p d).pop = s.pop := rfl
@[simp] theorem send_straps (s : State) (p : Pkt) (d : BitVec 8) : (s.send p d).straps = s.straps := rfl
@[simp] theorem send_recs (s : State) (p : Pkt) (d : BitVec 8) : (s.send p d).recs = s.recs := rfl
@[simp] theorem send_raised (s : State) (p : Pkt) (d : BitVec 8) : (s.send p d).raised = s.raised := rfl
@[simp] theorem send_fab (s : State) (p : Pkt) (d : BitVec 8) : (s.send p d).fab = s.fab := rfl
@[simp] theorem send_homes (s : State) (p : Pkt) (d : BitVec 8) : (s.send p d).homes = s.homes := rfl
@[simp] theorem send_hearths (s : State) (p : Pkt) (d : BitVec 8) : (s.send p d).hearths = s.hearths := rfl
@[simp] theorem send_rop (s : State) (p : Pkt) (d : BitVec 8) : (s.send p d).rop = s.rop := rfl
@[simp] theorem send_mem (s : State) (p : Pkt) (d : BitVec 8) : (s.send p d).mem = s.mem := rfl
@[simp] theorem send_sites (s : State) (p : Pkt) (d : BitVec 8) : (s.send p d).sites = s.sites := rfl
@[simp] theorem send_links (s : State) (p : Pkt) (d : BitVec 8) : (s.send p d).links = s.links := rfl
@[simp] theorem send_groups (s : State) (p : Pkt) (d : BitVec 8) : (s.send p d).groups = s.groups := rfl
@[simp] theorem send_dies (s : State) (p : Pkt) (d : BitVec 8) : (s.send p d).dies = s.dies := rfl
@[simp] theorem send_power (s : State) (p : Pkt) (d : BitVec 8) : (s.send p d).power = s.power := rfl
@[simp] theorem send_storm (s : State) (p : Pkt) (d : BitVec 8) : (s.send p d).storm = s.storm := rfl
@[simp] theorem send_book (s : State) (p : Pkt) (d : BitVec 8) : (s.send p d).book = s.book := rfl
@[simp] theorem send_pmu (s : State) (p : Pkt) (d : BitVec 8) : (s.send p d).pmu = s.pmu := rfl
@[simp] theorem send_pmuSeq (s : State) (p : Pkt) (d : BitVec 8) : (s.send p d).pmuSeq = s.pmuSeq := rfl
@[simp] theorem send_ixu (s : State) (p : Pkt) (d : BitVec 8) : (s.send p d).ixu = s.ixu := rfl
@[simp] theorem send_dmas (s : State) (p : Pkt) (d : BitVec 8) : (s.send p d).dmas = s.dmas := rfl
@[simp] theorem send_dmaSeq (s : State) (p : Pkt) (d : BitVec 8) : (s.send p d).dmaSeq = s.dmaSeq := rfl
@[simp] theorem send_agents (s : State) (p : Pkt) (d : BitVec 8) : (s.send p d).agents = s.agents := rfl
@[simp] theorem send_agentQ (s : State) (p : Pkt) (d : BitVec 8) : (s.send p d).agentQ = s.agentQ := rfl
@[simp] theorem send_dmaAns (s : State) (p : Pkt) (d : BitVec 8) : (s.send p d).dmaAns = s.dmaAns := rfl
@[simp] theorem send_ne (s : State) (p : Pkt) (d : BitVec 8) : (s.send p d).ne = s.ne := rfl
@[simp] theorem send_embers (s : State) (p : Pkt) (d : BitVec 8) : (s.send p d).embers = s.embers := rfl
@[simp] theorem send_lanes (s : State) (p : Pkt) (d : BitVec 8) : (s.send p d).lanes = s.lanes := rfl
@[simp] theorem send_levels (s : State) (p : Pkt) (d : BitVec 8) : (s.send p d).levels = s.levels := rfl

@[simp] theorem fire_raised (s : State) (n : Nat) : (s.fire n).raised = s.raised ++ [n] := rfl
theorem record_recs (s : State) (r : Rec) : (s.record r).recs = if s.stormed r.source then s.recs else s.recs ++ [r] := by
  unfold record fire; cases s.stormed r.source <;> cases r.fires <;> rfl
theorem record_raised (s : State) (r : Rec) :
    (s.record r).raised = if s.stormed r.source && r.fires then s.raised ++ [r.source] else s.raised := by
  unfold record fire; cases s.stormed r.source <;> cases r.fires <;> rfl
@[simp] theorem modHome_homes (s : State) (h : Nat) (f : Home → Home) : (s.modHome h f).homes = modOf 64 {} s.homes h f := rfl
@[simp] theorem modHearth_hearths (s : State) (h : Nat) (f : Hearth → Hearth) : (s.modHearth h f).hearths = modOf 64 {} s.hearths h f := rfl

end Sys2Proof.Machine.State
end

