-- ==== Sys2Proof/Laws/Act.lean ====
section
/-! SUPPORT. What every command's effect has in common: nothing in Off, the queue and TIME stay, and the effect's other fields
are those of the state. -/

namespace Sys2Proof.Machine

/-- In Off only PWROK acts. -/
theorem act_off (s : State) (f : State → State) (h : s.off = true) : s.act f = .next s := by simp [State.act, h]

/-- Outside Off the effect is carried out. -/
theorem act_on (s : State) (f : State → State) (h : s.off = false) : s.act f = .next (s.settle (f s)) := by simp [State.act, h]

/-- An effect that leaves the package on keeps the queue and TIME, and nothing else of the state before. -/
theorem settle_on (s t : State) (h : t.off = false) : s.settle t = { t with pending := s.pending, time := s.time } := by
  simp [State.settle, h]

/-- An effect that leaves the package on, queue and TIME as they were is the whole of the next state. -/
theorem settle_eq (s t : State) (h : t.off = false) (hp : t.pending = s.pending) (ht : t.time = s.time) : s.settle t = t := by
  rw [settle_on s t h, ← hp, ← ht]

/-- Every effect answers a next state. -/
theorem act_next (s : State) (f : State → State) : ∃ t, s.act f = .next t := ⟨_, rfl⟩

/-- The queue is not the effect's. -/
theorem act_pending (s t : State) (f : State → State) (h : s.act f = .next t) : t.pending = s.pending := by
  unfold State.act at h
  cases h
  split
  · rfl
  · unfold State.settle; split <;> rfl

/-- TIME does not move but where the package enters Off, which keeps none (R629, R633). -/
theorem act_time (s t : State) (f : State → State) (h : s.act f = .next t) : t.time = s.time ∨ t.off = true := by
  unfold State.act at h
  cases h
  split
  · exact .inl rfl
  · unfold State.settle
    split
    · exact .inr rfl
    · exact .inl rfl

/-- The effect of a block in a power domain, outside Off and with its clocks running. -/
theorem actDom_on (s : State) (f : State → State) (h : s.off = false) (hs : s.power.stopped = false) :
    s.actDom f = .next (s.settle (f s)) := by simp [State.actDom, State.act, h, hs]

theorem actFclk_on (s : State) (f : State → State) (h : s.off = false) (hb : s.banked = false) :
    s.actFclk f = .next (s.settle (f s)) := by simp [State.actFclk, State.act, h, hb]

theorem actMem_on (s : State) (f : State → State) (h : s.off = false) (hs : s.power.stopped = false) (hb : s.banked = false) :
    s.actMem f = .next (s.settle (f s)) := by simp [State.actMem, State.actDom, State.act, h, hs, hb]

end Sys2Proof.Machine
end

