-- ==== Sys2Proof/Laws/Memory.lean ====
section
/-! SUPPORT. Memory after each operation that writes it: a line reads back as written, every other byte as before, and the canonical
form is kept by all of them and holds at reset. -/

namespace Sys2Proof.Machine

theorem reset_memory_wf : Memory.wf State.reset.mem.cells = true := rfl

/-- Bytes of a line after it is written (R352). -/
theorem read_setMemLine_in (s : State) (l i : Nat) (d : LineData) (psn : Bool) (h : i < 64) :
    Memory.read (s.setMemLine l d psn).mem.cells (paOf l + i) = lineByte d i :=
  Memory.read_writeBytes_in _ _ _ _ _ h

/-- Every byte outside a line after it is written. -/
theorem read_setMemLine_out (s : State) (l a : Nat) (d : LineData) (psn : Bool) (h : a < paOf l ∨ paOf l + 64 ≤ a) :
    Memory.read (s.setMemLine l d psn).mem.cells a = Memory.read s.mem.cells a :=
  Memory.read_writeBytes_out _ _ _ _ _ h

theorem setMemLine_wf (s : State) (l : Nat) (d : LineData) (psn : Bool) (h : Memory.wf s.mem.cells = true) :
    Memory.wf (s.setMemLine l d psn).mem.cells = true :=
  Memory.wf_writeBytes _ _ _ _ h

/-- A line is marked as it was last written, and no other line's mark moves (R360). -/
theorem memPoison_setMemLine (s : State) (l k : Nat) (d : LineData) (psn : Bool) :
    (s.setMemLine l d psn).memPoison k = if k = l then psn else s.memPoison k := by
  unfold State.memPoison State.setMemLine
  rw [Bool.eq_iff_iff]
  by_cases hk : k = l
  · subst hk
    cases psn <;> simp
  · cases psn <;> simp [hk]

theorem loadImage_wf (s : State) (pa : Nat) (l : List Byte) (h : Memory.wf s.mem.cells = true) :
    Memory.wf (s.loadImage pa l).mem.cells = true := by
  unfold State.loadImage
  split
  · exact h
  · exact Memory.wf_writeBytes _ _ _ _ h

/-- Zeroing scratch empties the Hearth's ways and leaves memory (R330). -/
@[simp] theorem zeroScratch_mem (s : State) : s.zeroScratch.mem = s.mem := rfl

theorem wf_foldl_write (f : Host.Cell → Nat) (l m : List Host.Cell) (h : Memory.wf m = true) :
    Memory.wf (l.foldl (fun (m : List Host.Cell) c => Memory.write m (f c) c.2) m) = true := by
  induction l generalizing m with
  | nil => exact h
  | cons c l ih => exact ih _ (Memory.wf_write _ _ _ h)

theorem rehash_wf (s : State) (was : Bool) : Memory.wf (s.rehash was).mem.cells = true :=
  wf_foldl_write (fun c => 64 * _ + c.1 % 64) _ [] rfl

end Sys2Proof.Machine
end

