-- ==== Sys2Proof/Laws/Ops.lean ====
section
/-! SUPPORT. What each shared operation can do, said once: blocks held in lists, counters, records, and units sent and consumed. -/

namespace Sys2Proof.Machine

/-! ### Blocks held in lists -/

theorem nthD_modOf_same {α : Type} (n : Nat) (d : α) (l : List α) (i : Nat) (f : α → α) (h : i < n) :
    nthD (modOf n d l i f) i d = f (nthD l i d) := by
  unfold nthD modOf
  split
  · rename_i hl
    simp [List.getD, hl]
  · rename_i hl
    have h1 : l[i]? = none := List.getElem?_eq_none (by omega)
    have h2 : i < (l ++ List.replicate (n - l.length) d).length := by simp; omega
    have h3 : (l ++ List.replicate (n - l.length) d)[i]? = some d := by
      rw [List.getElem?_append_right (by omega), List.getElem?_replicate]
      simp; omega
    simp [List.getD, h1, h3]

theorem nthD_modOf_ne {α : Type} (n : Nat) (d : α) (l : List α) {i j : Nat} (f : α → α) (h : j ≠ i) :
    nthD (modOf n d l i f) j d = nthD l j d := by
  unfold nthD modOf
  split
  · simp [List.getD, Ne.symm h]
  · split
    · rename_i hl hn
      simp only [List.getD, List.getElem?_modify, if_neg (Ne.symm h)]
      by_cases hj : j < l.length
      · rw [List.getElem?_append_left hj]; simp
      · rw [List.getElem?_append_right (by omega), List.getElem?_replicate, List.getElem?_eq_none (by omega)]
        split <;> simp
    · rfl

@[simp] theorem homeAt_modHome_same (s : State) (h : Nat) (f : Home → Home) (hh : h < 64) : (s.modHome h f).homeAt h = f (s.homeAt h) :=
  nthD_modOf_same _ _ _ _ _ hh

theorem homeAt_modHome_ne (s : State) {h k : Nat} (f : Home → Home) (hk : k ≠ h) : (s.modHome h f).homeAt k = s.homeAt k :=
  nthD_modOf_ne _ _ _ _ hk

@[simp] theorem hearthAt_modHearth_same (s : State) (h : Nat) (f : Hearth → Hearth) (hh : h < 64) :
    (s.modHearth h f).hearthAt h = f (s.hearthAt h) := nthD_modOf_same _ _ _ _ _ hh

theorem hearthAt_modHearth_ne (s : State) {h k : Nat} (f : Hearth → Hearth) (hk : k ≠ h) : (s.modHearth h f).hearthAt k = s.hearthAt k :=
  nthD_modOf_ne _ _ _ _ hk

/-! ### Records and events -/

/-- A record changes the records that wait or, while its source is in a storm, the sources that fired; nothing else (R693). -/
theorem record_eq (s : State) (r : Rec) :
    s.record r = { s with
      recs := if s.stormed r.source then s.recs else s.recs ++ [r]
      raised := if s.stormed r.source && r.fires then s.raised ++ [r.source] else s.raised } := by
  unfold State.record State.fire; cases s.stormed r.source <;> cases r.fires <;> rfl

/-- A status bit set by hardware: the register field, and the event named after it. -/
theorem status_eq (s : State) (page : Nat) (f : FRef) (src : Nat) :
    s.status page f src = { s.put page f 1 with raised := s.raised ++ [src] } := rfl

/-! ### Counters -/

/-- An increment of a counter changes registers alone. -/
theorem cntAdd_eq (s : State) (p i q : Nat) : s.cntAdd p i q = { s with regs := (s.cntAdd p i q).regs } := by
  unfold State.cntAdd; dsimp only; split <;> rfl

/-- An increment of a counter changes the counter and PMC_OVF of its page alone. -/
theorem cntAdd_reg (s : State) (p i q r off : Nat) (ho : off < 0x10000) (hi : i < 8) (h : r ≠ p ∨ off < 0x3040 ∨ 0x30C0 < off) :
    (s.cntAdd p i q).reg r off = s.reg r off := by
  have e1 : (Fld.PMC_CNT_LO_CNT_LO i).off = 0x3040 + 8 * i := by simp [Fld.PMC_CNT_LO_CNT_LO]
  have e2 : (Fld.PMC_CNT_HI_CNT_HI i).off = 0x3044 + 8 * i := by simp [Fld.PMC_CNT_HI_CNT_HI]
  have e3 : Reg.PMC_OVF = 0x30C0 := rfl
  have k1 : regKey r off ≠ regKey p (Fld.PMC_CNT_LO_CNT_LO i).off := by
    intro hk; obtain ⟨a, b⟩ := regKey_inj ho (by omega) hk; omega
  have k2 : regKey r off ≠ regKey p (Fld.PMC_CNT_HI_CNT_HI i).off := by
    intro hk; obtain ⟨a, b⟩ := regKey_inj ho (by omega) hk; omega
  have k3 : off ≠ 0x30C0 ∨ r ≠ p → regKey r off ≠ regKey p Reg.PMC_OVF := by
    intro hne hk; obtain ⟨a, b⟩ := regKey_inj ho (by omega) hk; omega
  have k3 := k3 (by omega)
  unfold State.cntAdd
  dsimp only
  split
  · rw [reg_put_ne _ _ _ _ _ _ k2, reg_put_ne _ _ _ _ _ _ k1]
  · rw [reg_setReg_ne _ _ _ _ _ _ k3, reg_put_ne _ _ _ _ _ _ k2, reg_put_ne _ _ _ _ _ _ k1]

/-- What holds of a state and is kept by each step of a run over a list holds after the run. -/
theorem forAll_keeps {α σ : Type} (P : σ → Prop) (l : List α) (f : α → σ → σ) (s : σ) (h0 : P s) (hs : ∀ a ∈ l, ∀ t, P t → P (f a t)) :
    P (forAll l f s) := by
  unfold forAll
  induction l generalizing s with
  | nil => exact h0
  | cons a l ih => exact ih _ (hs a (List.mem_cons_self ..) s h0) fun b hb t ht => hs b (List.mem_cons_of_mem _ hb) t ht

/-- Occurrences of an event change registers alone (R714). -/
theorem bump_eq (s : State) (p code q : Nat) (a b c : Option Nat) :
    s.bump p code q a b c = { s with regs := (s.bump p code q a b c).regs } := by
  unfold State.bump
  split
  · rfl
  · refine forAll_keeps (fun t : State => t = { s with regs := t.regs }) _ _ _ rfl ?_
    intro i _ t ht
    split
    · rw [cntAdd_eq]; rw [ht]
    · exact ht

/-- Occurrences of an event change the counters and PMC_OVF of their page alone. -/
theorem bump_reg (s : State) (p code q r off : Nat) (a b c : Option Nat) (ho : off < 0x10000) (h : r ≠ p ∨ off < 0x3040 ∨ 0x30C0 < off) :
    (s.bump p code q a b c).reg r off = s.reg r off := by
  unfold State.bump
  split
  · rfl
  · refine forAll_keeps (fun t : State => t.reg r off = s.reg r off) _ _ _ rfl ?_
    intro i hi t ht
    split
    · rw [cntAdd_reg _ _ _ _ _ _ ho (List.mem_range.mp hi) h]; exact ht
    · exact ht

/-! ### Units in flight -/

/-- A unit consumed leaves those in flight, and may owe a credit; nothing else changes (R117). -/
theorem consume_eq (s : State) (p : Pkt) : s.consume p = { s with net := (s.consume p).net, fab := (s.consume p).fab } := by
  unfold State.consume
  split
  · rfl
  · dsimp only; split <;> rfl

/-- A unit that is not in flight leaves nothing changed (log 3). -/
theorem consume_absent (s : State) (p : Pkt) (h : ∀ e ∈ s.net, State.sameUnit e.p p = false) : s.consume p = s := by
  unfold State.consume
  have : s.net.find? (fun e => State.sameUnit e.p p) = none := by
    rw [List.find?_eq_none]; intro e he; simp [h e he]
  rw [this]

/-- The unit that is consumed leaves the units in flight. -/
theorem consume_net (s : State) (p : Pkt) (e : InFlight) (h : s.net.find? (fun e => State.sameUnit e.p p) = some e) :
    (s.consume p).net = s.net.erase e := by
  unfold State.consume
  rw [h]
  dsimp only
  split <;> rfl

/-- A unit that is not in flight arrives from outside the model, and none stands before it (log 3). -/
theorem arrived_absent (s : State) (p : Pkt) (h : ∀ e ∈ s.net, State.sameUnit e.p p = false) : s.arrived p = true := by
  unfold State.arrived
  have : s.net.find? (fun e => State.sameUnit e.p p) = none := by
    rw [List.find?_eq_none]; intro e he; simp [h e he]
  rw [this]

/-- A unit in flight is taken only as the oldest of its receiver's queue (R121). -/
theorem arrived_head (s : State) (p : Pkt) (e : InFlight) (h : s.net.find? (fun e => State.sameUnit e.p p) = some e)
    (ha : s.arrived p = true) : (s.queueOf e).head? = some e := by
  unfold State.arrived at ha
  rw [h] at ha
  simp only [Bool.and_eq_true, beq_iff_eq] at ha
  exact ha.2

/-- An agent's unit joins those in flight, at its interface; nothing else changes. -/
theorem send_eq (s : State) (p : Pkt) (dst : BitVec 8) : s.send p dst = { s with net := (s.send p dst).net } := rfl

theorem send_net (s : State) (p : Pkt) (dst : BitVec 8) : (s.send p dst).net = s.net ++ [⟨{ p with
    vc := vcOfOp p.op, cls := if 1 ≤ p.op.toNat && p.op.toNat ≤ 8 then s.classOf p.src else p.cls, dst := dst }, .out, s.time⟩] := rfl

end Sys2Proof.Machine
end

