-- ==== Sys2Proof/Tests/Slice0.lean ====
section
/-! SUPPORT. Tests: an ill-formed command that each check refuses, and for each clause of the statements a concrete state and operands
that meet its hypotheses, most with one or two fields of what the command then does. Expected values are worked out by hand from
the rules that the statement's docstring names. -/

set_option Elab.async false

namespace Sys2Proof.Tests

open Sys2Proof Sys2Proof.Machine Sys2Proof.Safety

/-- The state a command leads to. -/
def out (c : Instr) (s : State) : State := match exec c s with
  | .next t => t
  | _ => s

/-- The hub with one unit in flight. -/
def withUnit (p : Pkt) (l : Loc) : State := { State.reset with net := [⟨p, l, 0⟩] }


/-- The hub with no site fenced (SITE_STAT.FENCED resets to 1). -/
def up : State := forAll (List.range 16) (fun i s => s.put (pgSITE i) Fld.SITE_STAT_FENCED 0) State.reset

/-- That hub with one unit in flight. -/
def upWith (p : Pkt) (l : Loc) : State := { up with net := [⟨p, l, 0⟩] }
/-! ### Registers, quench and fabric -/

theorem wit_tick : State.reset.off = false ∧ State.reset.pending = [] ∧ State.reset.tick.time = 10 := by decide +kernel

theorem wit_off : ({ State.reset with off := true } : State).off = true := by decide +kernel

theorem wit_registerWrite : State.reset.off = false ∧
    (out (.registerWrite 0 pgTIME Reg.TIME_CMP_LO 4 0x12345678) State.reset).reg pgTIME Reg.TIME_CMP_LO = 0x12345678 := by decide +kernel

def homeStat : State := (State.reset.setReg (pgHOME 63) Reg.HOME_STAT 0x83).put (pgHOME 63) Fld.PAGE_CFG_CLRMODE 1

theorem wit_clearingRead : (63 : Nat) < 64 ∧ homeStat.flag (pgHOME 63) Fld.PAGE_CFG_CLRMODE = true ∧
    (out (.statusClearingRead 0 (pgHOME 63) Reg.HOME_STAT 4 .clean) homeStat).reg (pgHOME 63) Reg.HOME_STAT = 0 ∧
    (out (.statusClearingRead nodeSmith (pgHOME 63) Reg.HOME_STAT 4 .clean) homeStat).reg (pgHOME 63) Reg.HOME_STAT = 0x83 := by
  decide +kernel

theorem wit_refusedWrite : (pageRow pgFB).isSome = true ∧
    (out (.registerWrite 0 pgFB Reg.FB_CTL 2 1) State.reset).flag pgFB Fld.PAGE_STAT_ACC_ERR = true := by decide +kernel

theorem wit_domainOff : State.reset.pageOff (pgMC 23) = true ∧ State.reset.flag (pgMC 23) Fld.PAGE_CFG_CLRMODE = false ∧
    (out (.registerWrite 0 (pgMC 23) Reg.MC_CTL 4 1) State.reset).flag (pgMC 23) Fld.PAGE_STAT_ACC_ERR = true ∧
    (out (.statusClearingRead 0 (pgMC 23) Reg.MC_CTL 4 .clean) State.reset).readData = 0 := by decide +kernel

theorem wit_alias : (31 : Nat) < 32 ∧
    (out (.bitAliasWrite 0 pgTIME Reg.TIME_CMP_LO 31 true) State.reset).reg pgTIME Reg.TIME_CMP_LO = 0x80000000 ∧
    (out (.bitAliasWrite 0 (pgHOME 63) Reg.HOME_STAT 7 true) homeStat).reg (pgHOME 63) Reg.HOME_STAT = 0x83 ∧
    (out (.bitAliasWrite 0 (pgHOME 63) Reg.HOME_STAT 7 false) homeStat).reg (pgHOME 63) Reg.HOME_STAT = 0x03 := by decide +kernel

theorem wit_shadowWrite : State.reset.pageOff (pgHOME 63) = false ∧ (findReg (pgHOME 63) Reg.HOME_TRK_CAP).isSome = true ∧
    State.fabWindow (pgHOME 63) Reg.HOME_TRK_CAP = none ∧ State.reset.qHolds (pgHOME 63) = false ∧
    (((findReg (pgHOME 63) Reg.HOME_TRK_CAP).map (·.fields)).getD []).all (fun f => f.acc == .rwq) = true ∧
    (out (.shadowWrite (pgHOME 63) Reg.HOME_TRK_CAP 0x01020304 true) State.reset).shadow? (pgHOME 63) Reg.HOME_TRK_CAP
      = some 0x01020304 := by decide +kernel

theorem wit_rtEntryWrite : (5 : Nat) < 6 ∧ State.reset.qHolds (pgFAB 5) = false := by decide +kernel

theorem wit_rtrWeightWrite :
    let s := { State.reset with weights := [(State.weightKey 95 1, 7)] }.setReg (pgFAB 7) Reg.RTR_SEL 47
    s.get (pgFAB 7) Fld.RTR_SEL_RTR < 48 ∧ s.qHolds (pgFAB 7) = false ∧ s.weightProp (s.selRouter (pgFAB 7)) 1 < 2 ^ 32 ∧
    (out (.rtrWeightWrite 7 1 0x11111111) s).weightProp 95 1 = 0x11111111 := by decide +kernel

/-- A quench of group 4 (the HOME pages) in progress. -/
def inQuench : State := { State.reset with quench := { busy := true, gmask := 0x10 } }

theorem wit_heldWrite : inQuench.qHolds (pgHOME 0) = true ∧
    (out (.shadowWrite (pgHOME 0) Reg.HOME_RSV_CFG 20 false) inQuench).quench.held.length = 1 := by decide +kernel

theorem wit_pageQgrpWrite : State.reset.qGroup pgPWR = some 0 ∧ State.reset.pagePending pgPWR = false ∧
    State.reset.qHolds pgPWR = false ∧ inQuench.qGroup (pgHOME 1) = some 4 ∧ inQuench.qHolds (pgHOME 1) = true ∧
    (out (.pageQgrpWrite (pgHOME 1) 12) inQuench).qGroup (pgHOME 1) = some 4 := by decide +kernel

theorem wit_quenchOverlap : inQuench.quench.busy = true ∧
    (out (.quench 1) inQuench).flag pgSMITH Fld.QUENCH_STAT_OVERLAP = true ∧ out (.quench 0x10000) State.reset = State.reset ∧
    out .quenchApply State.reset = State.reset ∧ out .quenchDone inQuench = inQuench := by decide +kernel

theorem wit_quench : State.reset.quench.busy = false ∧ (0x8000 : Nat) % 0x10000 ≠ 0 ∧
    (out (.quench 0x10) (State.reset.setShadow (pgHOME 3) Reg.HOME_RSV_CFG 0)).quench.rej = 0x10 ∧
    (out (.quench 0x10) (State.reset.setShadow (pgHOME 3) Reg.HOME_RSV_CFG 0)).flag (pgHOME 3) Fld.PAGE_STAT_QREJ = true := by
  decide +kernel

def quenchReady : State := inQuench.setShadow (pgHOME 63) Reg.HOME_RSV_CFG 20

theorem wit_quenchApply : quenchReady.quench.busy = true ∧ quenchReady.quench.applied = false ∧ quenchReady.quench.cancel = false ∧
    Tab.wf quenchReady.shadow = true ∧ quenchReady.shadow.all (fun e => decide (0x40 ≤ e.1 / 0x10000 ∧ e.1 / 0x10000 < 0x80)) = true ∧
    quenchReady.shadow? (pgHOME 63) Reg.HOME_RSV_CFG = some 20 ∧
    (findReg (pgHOME 63) Reg.HOME_RSV_CFG).isSome = true ∧ quenchReady.qSelected (pgHOME 63) 0x10 = true ∧
    (out .quenchApply quenchReady).reg (pgHOME 63) Reg.HOME_RSV_CFG = 20 := by decide +kernel

theorem wit_quenchReject :
    let s := { quenchReady with quench := { quenchReady.quench with rej := 0x10 } }
    s.qSelected (pgHOME 63) (s.quench.gmask - (s.quench.gmask &&& s.quench.rej)) = false ∧
    (out .quenchApply s).reg (pgHOME 63) Reg.HOME_RSV_CFG = 10 ∧
    (out .quenchApply s).shadow? (pgHOME 63) Reg.HOME_RSV_CFG = some 20 := by decide +kernel

theorem wit_quenchCancel :
    let s := { quenchReady with quench := { quenchReady.quench with cancel := true } }
    s.quench.cancel = true ∧ (out .quenchApply s).shadow = [] := by decide +kernel

theorem wit_quenchDone :
    let s := { State.reset with quench := { busy := true, applied := true, gmask := 0x12, rej := 0x10 } }
    s.quench.held = [] ∧ (out .quenchDone s).reg pgSMITH Reg.QUENCH_STAT = 0x01020010 := by decide +kernel

theorem wit_quenchDoneHeld :
    let s := { State.reset with quench := { busy := true, applied := true, gmask := 0x10,
                                            held := [⟨pgHOME 63, Reg.HOME_RSV_CFG, 9, 2 ^ 32 - 1, 0, none⟩] } }
    (out .quenchDone s).shadow? (pgHOME 63) Reg.HOME_RSV_CFG = some 9 := by decide +kernel

theorem wit_creditReturn :
    let s := { State.reset with fab := { owed := [(5, 3, true)], used := [(creditKey 5 3 false, 2), (creditKey 5 3 true, 1)] } }
    s.fab.owed = [(5, 3, true)] ∧ (out .creditReturn s).fab.used = [(creditKey 5 3 false, 1)] := by decide +kernel

/-- Ports 2, 5 and 7 of router 1 hold a packet for output 9 each, of classes 1, 1, 2. -/
def threeInputs : State :=
  { State.reset with
    net := [⟨{ op := 1, src := 0, route := 9 }, .rtr 1 2, 0⟩, ⟨{ op := 1, src := 1, route := 9 }, .rtr 1 5, 0⟩,
            ⟨{ op := 1, src := 2, route := 9 }, .rtr 1 7, 0⟩]
    weights := [(State.weightKey 1 0, 0x8410), (State.weightKey 1 1, 0x11111111), (State.weightKey 1 2, 0x1111111)] }

theorem wit_outputArbitration : threeInputs.requests 1 7 9 = true ∧ threeInputs.requests 1 2 8 = false ∧
    Tab.get? (16 + 9) (out (.outputArbitration 1) threeInputs).fab.grant = some 7 := by decide +kernel

def fromModule : Pkt := { op := 1, src := 63, dst := 0x7F, txn := 9 }

def routed : State := { withUnit fromModule .out with routes := [(routeKey 63 0x7F, 2 ^ 40 + 0xFF12)] }

theorem wit_packetInject :
    routed.net.find? (fun f => routed.waitsOut f && f.p.by == 63 && f.p.vc == 0) = some ⟨fromModule, .out, 0⟩ ∧
    routed.net.find? (fun f => routed.waitsOut f && State.sameUnit f.p fromModule) = some ⟨fromModule, .out, 0⟩ ∧
    nodeAssigned fromModule.dst.toNat = true ∧ bitN (routed.route 63 0x7F) 40 = true ∧
    routed.creditFree (injectLink 63 0) 0 false = true ∧ fromModule.op.toNat < 0x68 ∧
    (out (.packetInject fromModule) routed).net.map (·.p.route) = [0xFF12] := by decide +kernel

def toReserved : Pkt := { fromModule with dst := 0x98 }

theorem wit_packetDiscard : nodeAssigned toReserved.dst.toNat = false ∧
    (out (.packetInject toReserved) (withUnit toReserved .out)).net = [] ∧
    (out (.packetInject toReserved) (withUnit toReserved .out)).reg (pgFAB 7) Reg.DISCARD = 1 := by decide +kernel

def toNE : Pkt := { fromModule with op := 0x40, vc := 2, dst := 0xA0 }

theorem wit_packetToAbsentAgent :
    (withUnit toNE .rx).net.find? (fun f => State.sameUnit f.p toNE) = some ⟨toNE, .rx, 0⟩ ∧
    (withUnit toNE .rx).absentNode 0xA0 = true ∧ toNE.op.toNat < 0x68 ∧
    (out (.packetToAbsentAgent toNE) (withUnit toNE .rx)).net = [] := by decide +kernel

/-- A unit with data at input 4 of router 3, whose next selector is 7 with its parity. -/
def hopped : Pkt := { fromModule with route := 7, rpar := 1, hasData := true }

theorem wit_unitReceive :
    let s := withUnit hopped (.rtr 3 4)
    s.net.find? (fun q => State.sameUnit q.p hopped && unitAt q 3 4) = some ⟨hopped, .rtr 3 4, 0⟩ ∧ parityGood hopped = true ∧
    out (.unitReceive hopped 3 4 {}) s = s ∧
    (out (.unitReceive hopped 3 4 { hecc := [95] }) s).net = s.net ∧
    (out (.unitReceive hopped 3 4 { words := [[71]] }) s).flag (pgFAB 7) Fld.ERR_STAT_DATA_CE = true := by decide +kernel

theorem wit_unitReceiveBad :
    let s := withUnit hopped (.rtr 3 4)
    (out (.unitReceive hopped 3 4 { hecc := [0, 95] }) s).alert.fatal = true ∧
    (out (.unitReceive hopped 3 4 { svc := some 7 }) s).net = [] ∧ (7 : BitVec 3) ≠ hopped.vc ∧
    (out (.unitReceive hopped 3 4 { rpar := [0] }) s).net = [] ∧ (out (.unitReceive hopped 3 4 { route := [3] }) s).net = [] ∧
    (out (.unitReceive hopped 3 4 { words := [[0, 63]] }) s).net.all (·.p.psn) = true ∧
    (out (.unitReceive hopped 3 4 { words := [[0, 63]] }) s).reg (pgFAB 7) Reg.ERR_LOC = 0x80000203 := by decide +kernel

theorem wit_quenchApplyRoutes :
    let s := { State.reset with quench := { busy := true, gmask := 2 ^ 16 - 1 }, routesPend := [(routeKey 63 0x7F, 2 ^ 40 + 0xFF12)] }
    s.quench.busy = true ∧ s.quench.applied = false ∧ s.quench.cancel = false ∧ s.shadow = [] ∧ s.routeBasePend = [] ∧
    Tab.wf s.routesPend = true ∧ Tab.wf s.weightsPend = true ∧ s.qSelected (State.routePage (routeKey 63 0x7F)) 0xFFFF = true ∧
    (out .quenchApply s).route 63 0x7F = 2 ^ 40 + 0xFF12 := by decide +kernel
/-! ### The die's side of coherence -/

/-- Die 9 holds line 5 in a state, and nothing else is going on. -/
def dieWith (st : LineSt) : State := State.reset.setDieLine 9 5 st 0xABCD false
/-- A forwarding and a non-forwarding snoop of line 5 to die 9. -/
def snpF (op : BitVec 7) : Pkt := { op := op, src := 0x0D, txn := 0x2A1, addr := 5, dst := 0x24 }
def snpN (op : BitVec 7) : Pkt := { op := op, src := 0x51, txn := 7, addr := 5, dst := 0x24 }

theorem wit_snoop : Running (dieWith .sM) ∧ isDieNode (snpF 0x21).dst = true ∧ (dieWith .sM).atDie (snpF 0x21) = true ∧ (dieWith .sM).mustHold (snpF 0x21) = false ∧
    (dieWith .sM).dies.length = 16 := by unfold Running; decide +kernel

theorem test_snpShare : ((out (.snpShare (snpF 0x20)) (dieWith .sM)).net.map fun e => (e.p.op, e.p.dst, e.p.data)) =
      [(0x51, 0x0D, 0xABCD), (0x61, nodeHome (State.reset.home 0x140), 0xABCD)] ∧
    ((out (.snpShare (snpN 0x20)) (dieWith .sE)).dieLine 9 5).map (·.st) = some .sL := by decide +kernel

theorem test_snpOwn : ((out (.snpOwn (snpF 0x21)) (dieWith .sM)).net.map fun e => (e.p.op, e.p.na)) = [(0x53, false), (0x43, true)] ∧
    (out (.snpOwn (snpF 0x21)) (dieWith .sM)).dieLine 9 5 = none := by decide +kernel

theorem test_snpInv : ((out (.snpInv { snpN 0x22 with size := 1 }) (dieWith .sM)).net.map fun e => e.p.op) = [0x43] ∧
    ((out (.snpInv (snpN 0x22)) (dieWith .sM)).net.map fun e => e.p.op) = [0x61] := by decide +kernel

theorem test_snpBack : ((out (.snpBack (snpN 0x23)) (dieWith .sWP)).net.map fun e => (e.p.op, e.p.size)) = [(0x43, 4)] := by
  decide +kernel

/-- Die 9 has a request outstanding on module 0 with TXN 0x44 for line 5. -/
def dieReq (op : BitVec 7) : State := State.reset.modDie 9 fun x =>
  { x with txns := [(0x44, { req := { op := op, src := 0x24, txn := 0x44, addr := 5 } })] }
def resp (op : BitVec 7) (last data : Bool) : Pkt :=
  { op := op, src := 0x51, dst := 0x24, txn := 0x44, addr := 5, last := last, hasData := data, data := 0x77, mask := BitVec.allOnes 64 }

theorem wit_snoopHeld : (dieReq 2).mustHold (snpN 0x22) = true ∧
    ((out (.snpInv (snpN 0x22)) (dieReq 2)).dieAt 9).heldSnoops = [snpN 0x22] ∧
    ((out (.dataE (resp 0x52 true true) none) (out (.snpInv (snpN 0x22)) (dieReq 2))).net.map (·.p.op)) = [0x43] := by decide +kernel

theorem wit_dataAtDie : Running (dieReq 1) ∧ ((dieReq 1).dieTxnOf (resp 0x50 true true)).isSome = true ∧
    ((dieReq 1).dieAt 9).heldSnoops = [] ∧
    ((out (.dataS (resp 0x50 true true) none) (dieReq 1)).dieLine 9 5).map (·.st) = some .sS ∧
    ((out (.dataL (resp 0x51 false true) none) (dieReq 1)).dieLine 9 5).map (·.st) = some .sL ∧
    ((out (.dataE (resp 0x52 true true) none) (dieReq 3)).dieLine 9 5).map (·.st) = some .sE ∧
    ((out (.dataM (resp 0x53 false true) none) (dieReq 2)).dieLine 9 5).map (·.st) = some .sM := by
  unfold Running; decide +kernel

theorem wit_grantUp : (((dieReq 3).setDieLine 9 5 .sS 1 false).dieLine 9 5).isSome = true ∧
    ((out (.grantUp (resp 0x42 true false) none) ((dieReq 3).setDieLine 9 5 .sS 1 false)).dieLine 9 5).map (·.st) = some .sE := by
  decide +kernel

theorem wit_dieStore : ((out (.dataE (resp 0x52 true true) (some ⟨0x11, 1⟩)) (dieReq 2)).dieLine 9 5).map (fun l => (l.st, l.data)) =
    some (.sM, 0x11) := by decide +kernel

theorem wit_cmpAtDie : ((out (.cmp (resp 0x41 true false) none) (dieReq 5)).dieAt 9).txns = [] ∧
    ((out (.cmp (resp 0x41 true false) none) (dieReq 1)).dieAt 9).txns.length = 1 := by decide +kernel

theorem wit_dataRdAtDie : ((out (.dataRd (resp 0x54 true true) none) (dieReq 4)).dieAt 9).txns = [] := by decide +kernel

theorem wit_nackAtDie : bits (({ resp 0x40 true false with addr := 1 } : Pkt).addr.toNat) 0 4 = 1 ∧
    ((out (.nack { resp 0x40 true false with addr := 1 }) (dieReq 3)).dieAt 9).retries.map (fun e => (e.1, e.2.nacks)) = [(5, 1)] := by
  decide +kernel

theorem wit_wbAck : (((dieReq 0x60).setDieLine 9 5 .sWP 1 false).dieLine 9 5).isSome = true ∧
    (out (.wbAck (resp 0x45 true false)) ((dieReq 0x60).setDieLine 9 5 .sWP 1 false)).dieLine 9 5 = none := by decide +kernel

def owesRetry : State := { State.reset with time := 10 }.modDie 9 fun x =>
  { x with retries := [(5, { req := { op := 3, src := 0x24, txn := 0x44, addr := 5, dst := 0x51 }, nacks := 4, since := 0 })] }

theorem wit_retrySend : (Tab.get? 5 (owesRetry.dieAt 9).retries).map (fun r => owesRetry.retryDue r) = some true ∧
    owesRetry.dieFree { op := 2, src := 0x24, txn := 0x44, addr := 5, dst := 0x51, rsv := true } = true ∧ owesRetry.dieNode 9 0 = 0x24 ∧
    (out (.retrySend 9 5 true) owesRetry).net.map (fun e => (e.p.op, e.p.rsv)) = [(2, true)] := by decide +kernel

theorem wit_silentDrop : (out (.silentDrop 9 5) (dieWith .sS)).dieLine 9 5 = none ∧
    ((out (.silentDrop 9 5) (dieWith .sL)).dieLine 9 5).map (·.st) = some .sL := by decide +kernel

theorem wit_dieWrite : ((out (.dieWrite 9 5 ⟨0xFF00, 2⟩) (dieWith .sE)).dieLine 9 5).map (fun l => (l.st, l.data)) =
    some (.sM, 0xFFCD) := by decide +kernel


/-! ### Homes -/

/-- A request of module 1 of site 3 for line 5, whose home is slice 5. -/
def req (op : BitVec 7) : Pkt :=
  { op := op, src := 0x0D, txn := 0x2A1, addr := 5, dst := 0x45, mask := BitVec.allOnes 64, data := 0xD00D, hasData := decide (5 ≤ op.toNat) }
def at5 (op : BitVec 7) : State := upWith (req op) .rx
/-- The same with an entry for line 5 in the directory. -/
def dir5 (d : DirSt) (s : State) : State := s.setLineDir 5 5 d (some 0)

theorem wit_homeTakes : HomeTakes (at5 1) 5 0 (req 1) (.reserved 0) := by
  unfold HomeTakes LineFree AtHome Issues Clocked Running; decide +kernel

theorem wit_homeTakesDir : HomeTakes (dir5 (.ex 2) (at5 2)) 5 0 (req 2) (.reserved 0) := by
  unfold HomeTakes LineFree AtHome Issues Clocked Running; decide +kernel

/-- What a request leaves: opcode, destination site and SRC of the units sent, the Hearth accesses of its entry, and its way. -/
structure After where
  sent : List (BitVec 7 × Nat × BitVec 8)
  entry : Option (List HOp × Option Nat)
  dir : DirSt
  deriving DecidableEq, Repr

def after5 (c : Instr) (s : State) : After :=
  let t := out c s
  ⟨t.net.map (fun e => (e.p.op, siteOf e.p.dst, e.p.src)), (t.txn? 5 0).map (fun x => (x.hq, x.way)), t.lineDir 5 5⟩

theorem wit_uncached_reads : badOperand (req 1) = false ∧ ((at5 1).freeWay 5 (dirSet (paOf 5))) = some 0 ∧ (at5 1).lineDir 5 5 = .nc ∧
    after5 (.rdShared (req 1)) (at5 1) = ⟨[], some ([.rd], some 0), .nc⟩ ∧
    after5 (.rdOwn (req 2)) (at5 2) = ⟨[], some ([.rd], some 0), .nc⟩ ∧
    after5 (.upgrade (req 3)) (at5 3) = ⟨[], some ([.rd], some 0), .nc⟩ ∧
    after5 (.rdOnce (req 4)) (at5 4) = ⟨[], some ([.rd], none), .nc⟩ := by decide +kernel

theorem wit_uncached_writes : after5 (.strike (req 5)) (at5 5) = ⟨[], some ([.wr 0xD00D false], none), .nc⟩ ∧
    after5 (.strike { req 5 with mask := 3 }) up = ⟨[], some ([.rdm], none), .nc⟩ ∧
    after5 (.strikePart { req 6 with mask := 3 }) up = ⟨[], some ([.rdm], none), .nc⟩ ∧
    badOperand { req 7 with mask := 0xFF } = false ∧
    after5 (.farAtomic { req 7 with mask := 0xFF }) up = ⟨[], some ([.rdm], none), .nc⟩ := by decide +kernel

/-- RdShared of a line whose Lead is site 2: a forwarding SnpShare to it; of a line of owner 9; RdOwn with sharers 1 and 4. -/
theorem wit_cached : after5 (.rdShared (req 1)) (dir5 (.sh 4 (some 2)) (at5 1)) = ⟨[(0x20, 2, 0x0D)], some ([], none), .sh 4 (some 2)⟩ ∧
    after5 (.rdShared (req 1)) (dir5 (.ex 9) (at5 1)) = ⟨[(0x20, 9, 0x0D)], some ([], none), .ex 9⟩ ∧
    after5 (.rdOwn (req 2)) (dir5 (.sh 18 none) (at5 2)) = ⟨[(0x22, 1, 0x45), (0x22, 4, 0x45)], some ([.rd], none), .sh 18 none⟩ ∧
    after5 (.upgrade (req 3)) (dir5 (.sh 8 none) (at5 3)) = ⟨[(0x42, 3, 0x45)], none, .ex 3⟩ ∧ sitesOf 8 = [3] ∧
    after5 (.strike (req 5)) (dir5 (.ex 9) (at5 5)) = ⟨[(0x22, 9, 0x45)], some ([], none), .ex 9⟩ := by decide +kernel

theorem wit_evict : after5 (.evictClean (req 8)) (dir5 (.ex 3) (at5 8)) = ⟨[(0x45, 3, 0x45)], none, .nc⟩ ∧
    after5 (.evictClean (req 8)) (dir5 (.ex 2) (at5 8)) = ⟨[(0x45, 3, 0x45)], none, .ex 2⟩ ∧
    after5 (.evictClean (req 8)) (dir5 (.sh 12 (some 3)) (at5 8)) = ⟨[(0x45, 3, 0x45)], none, .sh 4 none⟩ ∧
    after5 (.evictClean (req 8)) (dir5 (.sh 8 none) (at5 8)) = ⟨[(0x45, 3, 0x45)], none, .nc⟩ ∧
    after5 (.evictClean (req 8)) (dir5 (.sh 4 none) (at5 8)) = ⟨[(0x45, 3, 0x45)], none, .sh 4 none⟩ := by decide +kernel

/-- The first unit answered to a request: opcode, ADDR, DEST. -/
def ans (c : Instr) (s : State) : List (BitVec 7 × Nat × BitVec 8) := (out c s).net.map fun e => (e.p.op, e.p.addr.toNat, e.p.dst)

/-- Misrouted, unbacked, fenced, quiesced, and a line that is BUSY. -/
theorem wit_refusals1 : State.reset.home (paOf 8) = 8 ∧
    ans (.rdShared { req 1 with addr := 8 }) up = [(0x54, 8, 0x0D)] ∧
    (upWith { req 1 with addr := 0x3FFC00000005 } .rx).memBacked (paOf 0x3FFC00000005) = false ∧
    ans (.rdOwn (req 2)) (up.put (pgSITE 3) Fld.SITE_STAT_FENCED 1) = [] ∧
    ans (.rdOwn (req 2)) { up with smith := { op := some 0x10, site := 3, phase := 1 } } = [(0x40, 5, 0x0D)] ∧
    ans (.rdOwn (req 2)) (up.setTxn 5 9 { line := 5, req := req 1, held := .shared 0, started := true }) = [(0x40, 1, 0x0D)] := by decide +kernel

theorem wit_retired : ((up.put (pgSTK 0) (Fld.STK_RET_LO_V 2) 1).put (pgSTK 0) (Fld.STK_RET_LO_PAGE_LO 2) 0).pageRetired 5 = true ∧
    ans (.rdOwn (req 2)) (up.put (pgSTK 0) (Fld.STK_RET_LO_V 2) 1) = [(0x40, 6, 0x0D)] := by decide +kernel

/-- A set whose sixteen ways are all given to transactions. -/
def fullSet : State := up.modHome 5 fun x =>
  { x with trk := (List.range 16).map fun i => (i, { line := 6, req := req 1, held := .shared 0, way := some i }) }

theorem wit_refusals2 : dirSet (paOf 6) = dirSet (paOf 5) ∧ fullSet.freeWay 5 0 = none ∧ fullSet.victimWay 5 0 = none ∧
    ans (.rdOwn (req 2)) fullSet = [(0x40, 3, 0x0D)] ∧ (out (.rdOwn (req 2)) fullSet).flag (pgHOME 5) Fld.HOME_STAT_DIRSET = true := by
  decide +kernel

/-- Class 0 holds more than its cap: QOS. -/
def capped : State := ((up.setReg (pgHOME 5) Reg.HOME_TRK_CAP 0).put (pgHOME 5) Fld.HOME_TRK_CFG_CLASS_RES 0)

theorem wit_refusals3 : capped.trackerCheck 5 0 = .inr nackQos ∧ ans (.rdOnce (req 4)) capped = [(0x40, 4, 0x0D)] ∧
    (out (.rdOnce (req 4)) capped).get (pgHOME 5) (Fld.HOME_NACK_CNT_COUNT 3) = 1 := by decide +kernel

theorem wit_badOperand : badOperand { req 6 with mask := 0 } = true ∧ ans (.strikePart { req 6 with mask := 0 }) up = [(0x41, 2, 0x0D)] ∧
    ans (.farAtomic { req 7 with mask := 5 }) up = [(0x54, 5, 0x0D)] := by decide +kernel

/-- Entry 0 of home 5 serves a request. -/
def serving (op : BitVec 7) (f : Txn → Txn) (d : DirSt) : State :=
  dir5 d (up.setTxn 5 0 (f { line := 5, req := req op, held := .reserved 0, started := true }))
def snp (op : Nat) (fwd : Bool) : Snoop := ⟨4, op, 0, false, 5, 0, 9, fwd, false⟩
def answer (op : BitVec 7) : Pkt := { op := op, src := 0x10, dst := 0x45, txn := 9, addr := 5, hasData := decide (op = 0x61), data := 0xFEED, mask := BitVec.allOnes 64 }

theorem wit_serving : Serving (serving 3 (fun x => { x with snoops := [snp 0x22 false], d0 := .sh 24 none }) (.sh 24 none)) 5 0
    { line := 5, req := req 3, held := .reserved 0, started := true, snoops := [snp 0x22 false], d0 := .sh 24 none } := by
  unfold Serving Clocked Running; decide +kernel

theorem wit_answers : after5 (.snpAck (answer 0x43)) (serving 3 (fun x => { x with snoops := [snp 0x22 false], d0 := .sh 24 none }) (.sh 24 none)) =
      ⟨[(0x42, 3, 0x45)], none, .ex 3⟩ ∧
    after5 (.snpAck { answer 0x43 with na := true }) (serving 2 (fun x => { x with snoops := [snp 0x21 true], d0 := .ex 4 }) (.ex 4)) =
      ⟨[(0x41, 3, 0x45)], none, .ex 3⟩ ∧
    after5 (.wbSnp (answer 0x61)) (serving 5 (fun x => { x with snoops := [snp 0x22 false], d0 := .ex 4 }) (.ex 4)) =
      ⟨[], some ([.wr 0xFEED false], none), .ex 4⟩ ∧
    after5 (.snpAck (answer 0x43)) (serving 2 (fun x => { x with snoops := [snp 0x22 false, { snp 0x22 false with site := 6 }], hq := [.rd] })
      (.sh 80 none)) = ⟨[], some ([.rd], none), .sh 80 none⟩ ∧
    (out (.snpAck (answer 0x43)) (serving 2 id .nc)).flag (pgHOME 5) Fld.HOME_STAT_PROTO = true := by decide +kernel

/-- Site 3 owns line 5 and writes it back. -/
def wbp : Pkt := { req 0x60 with hasData := true }
def wbHeld : State := (dir5 (.ex 3) up).setAux 5 0 ⟨5, some wbp, 3, false, [.wr 0xD00D false], false⟩

theorem wit_wbData : ((out (.wbData wbp) (dir5 (.ex 3) up)).aux? 5 0).map (·.hq) = some [.wr 0xD00D false] ∧
    ans (.wbData wbp) (dir5 (.ex 2) up) = [(0x45, 0, 0x0D)] ∧
    (wbHeld.hearthWrite 5 5 0xD00D false false).isSome = true ∧
    ans (.hearthReturn 5 0 true .clean) wbHeld = [(0x45, 0, 0x0D)] ∧ (out (.hearthReturn 5 0 true .clean) wbHeld).lineDir 5 5 = .nc := by
  decide +kernel

/-- A read that hits in the Hearth, one that misses, one served from memory, and a Strike whose write is accepted. -/
def rdWait (op : BitVec 7) : State := serving op (fun x => { x with hq := [.rd], way := some 3 }) .nc
def hitIn (s : State) : State := s.placeWay 5 0 2 5 0xCAFE false false .none

theorem wit_returns : (match (hitIn (rdWait 1)).hearthRead 5 5 false .clean with
      | .hit d _ _ => d
      | _ => 0) = 0xCAFE ∧
    after5 (.hearthReturn 5 0 false .clean) (hitIn (rdWait 1)) = ⟨[(0x52, 3, 0x45)], none, .ex 3⟩ ∧
    after5 (.hearthReturn 5 0 false .clean) (hitIn (rdWait 4)) = ⟨[(0x54, 3, 0x45)], none, .nc⟩ ∧
    (out (.hearthReturn 5 0 false .clean) (rdWait 1)).mem.rd = [⟨5, 5, 0, false, 0, none⟩] ∧
    after5 (.memoryReturn 5 0 false) { serving 2 (fun x => { x with hq := [.rd], way := some 3, memWait := true }) .nc with
      mem := { ret := [⟨⟨5, 5, 0, false, 0, none⟩, 0xBEEF, false, false⟩] } } = ⟨[(0x52, 3, 0x45)], none, .ex 3⟩ ∧
    after5 (.hearthReturn 5 0 false .clean) (serving 5 (fun x => { x with hq := [.wr 0xD00D false], wrote := true }) .nc) =
      ⟨[(0x41, 3, 0x45)], none, .nc⟩ := by decide +kernel

theorem wit_continue : after5 (.transactionContinue 5 0) (up.setTxn 5 0 { line := 5, req := req 1, held := .reserved 0 }) =
    ⟨[], some ([.rd], some 0), .nc⟩ := by decide +kernel

def rsvHeld (now : Nat) : State :=
  { (up.modHome 5 fun x => { x with rsv := [(0, ⟨0x0D, 5, 0⟩)], heldSince := [(5, 0)] }) with time := now }

theorem wit_rsv : (rsvHeld 0).oldestRsv 5 5 = some (0, ⟨0x0D, 5, 0⟩) ∧ ((out (.rsvLapse 5 5) (rsvHeld 1000000000)).homeAt 5).rsv = [] ∧
    out (.rsvLapse 5 5) (rsvHeld 1) = rsvHeld 1 ∧
    ((out (.rdOnce { req 4 with rsv := true }) (up.setTxn 5 9 { line := 5, req := req 1, held := .shared 0, started := true })).homeAt 5).rsv =
      [(0, ⟨0x0D, 5, 0⟩)] ∧
    ((out (.rdOnce { req 4 with rsv := true }) up).txn? 5 1024).map (·.held) = some .rsvEntry := by decide +kernel

def snpOld (now : Nat) : State := { serving 5 (fun x => { x with snoops := [snp 0x22 false] }) (.ex 4) with time := now }

theorem wit_snpTo : ((out (.snpTo 5 0 4) (snpOld 20000)).get (pgHOME 5) Fld.HOME_SNP_TO_LOC_SITE) = 4 ∧ out (.snpTo 5 0 4) (snpOld 19999) = snpOld 19999 ∧
    (out (.homeCntClr 5) (out (.rdOnce (req 4)) capped)).reg (pgHOME 5) (Reg.HOME_NACK_CNT 3) = 0 := by decide +kernel

/-- A containment walk at set 0 with site 4 fenced. -/
def walking (d : DirSt) : State :=
  (dir5 d (up.put (pgSITE 4) Fld.SITE_STAT_FENCED 1)).modHome 5 fun x => { x with walk := [(4, 12288)] }

theorem wit_containRefused :
    let s := { (dir5 (.ex 4) (up.put (pgSITE 4) Fld.SITE_STAT_FENCED 1)) with smith := { op := some 0x10, site := 3, phase := 1 } }
    s.quiesced 3 = true ∧ s.lineDir 5 5 = .ex 4 ∧ s.lineBusy 5 5 = false ∧ ans (.rdOwn (req 2)) s = [(0x40, 5, 0x0D)] ∧
    (out (.rdOwn (req 2)) s).lineDir 5 5 = .nc := by decide +kernel

theorem wit_turns : (at5 4).homeTurn 5 4 = true ∧ up.homeTurn 5 2 = true ∧ up.homeTurn 5 3 = true ∧ up.homeTurn 5 5 = true ∧
    up.firstAnswer 5 (answer 0x43) = true := by decide +kernel

theorem wit_walk : (out (.containVisit 5) (walking (.ex 4))).lineDir 5 5 = .nc ∧ (out (.containVisit 5) (walking (.ex 3))).lineDir 5 5 = .ex 3 ∧
    (out (.containVisit 5) (walking (.sh 24 none))).lineDir 5 5 = .sh 8 none ∧
    ((out (.containVisit 5) (walking .nc)).homeAt 5).walkSet = 1 := by decide +kernel

def recallAt (d : DirSt) : State :=
  up.modHome 5 fun x => { x with recallOp := some (4, 0), dir := [(0, [dirWayOf 5 d 0])] }

theorem wit_recall : ((recallAt (.ex 4)).dirAt 5 0) = [dirWayOf 5 (.ex 4) 0] ∧
    ans (.recallVisit 5) (recallAt (.ex 4)) = [(0x23, 5, 0x11)] ∧ ((out (.recallVisit 5) (recallAt (.ex 4))).homeAt 5).recallOp = some (4, 0) ∧
    ((out (.recallVisit 5) (recallAt (.ex 3))).homeAt 5).recallOp = some (4, 1) := by decide +kernel

/-! ### Hearth and memory -/

/-- A range of near memory: base 0, limit 0xFFF at reset. -/
theorem wit_ropStart : Clocked State.reset ∧ State.reset.flag (pgHRTH 0) Fld.ROP_STAT_BUSY = false ∧
    isNear (State.reset.pageAddr (pgHRTH 0) Reg.ROP_LIMIT_LO Reg.ROP_LIMIT_HI + 0xFFF) = true ∧
    (out .clean State.reset).rop = { op := 2, base := 0, limit := 0xFFF } ∧
    (out .invalidate State.reset).get (pgHRTH 0) Fld.ROP_STAT_OP = 1 ∧ (out .ropInvAll State.reset).get (pgHRTH 0) Fld.ROP_STAT_OP = 4 ∧
    (out .cleanInv (out .clean State.reset)).flag (pgHRTH 0) Fld.ROP_STAT_OVERLAP = true := by unfold Clocked Running; decide +kernel

def badRange : State := State.reset.put (pgHRTH 0) Fld.ROP_BASE_LO_ADDR_LO 5
theorem wit_badRange : badRange.pageAddr (pgHRTH 0) Reg.ROP_BASE_LO Reg.ROP_BASE_HI = 0x5000 ∧
    (out .cleanInv badRange).get (pgHRTH 0) Fld.ROP_STAT_STATUS = 1 ∧ (out .cleanInv badRange).raised = [srcWide 0] := by decide +kernel

/-- Slice 5 holds line 5 dirty in way 2 of set 0, locked or not, while an operation runs. -/
def running (op : Nat) (lk : Lock) : State :=
  { (State.reset.placeWay 5 0 2 5 0xCAFE true false lk).put (pgHRTH 0) Fld.ROP_STAT_BUSY 1 with rop := { op := op, base := 0, limit := 0xFFF } }
def way2 (s : State) : HWay := nthD (s.waysAt 5 0) 2 {}

theorem wit_ropVisit : (running 3 .none).inRop 5 = true ∧ (way2 (running 3 .none)).valid = true ∧ (running 3 .none).hearthOffline 5 = false ∧
    ((out (.ropSetVisit 5 []) (running 3 .none)).mem.wr) = [⟨5, 0xCAFE, false, true, 0, none⟩] ∧
    (way2 (out (.ropSetVisit 5 []) (running 3 .none))).valid = false ∧ (out (.ropSetVisit 5 []) (running 1 .none)).mem.wr = [] ∧
    (way2 (out (.ropSetVisit 5 []) (running 1 (.locked 4)))).lock = .reserved 4 5 ∧ (way2 (out (.ropSetVisit 5 []) (running 2 .none))).dirty = false ∧
    (out (.ropSetVisit 5 [(5, .uncorrectable)]) (running 2 .none)).rop.err = true ∧
    (way2 (out (.ropSetVisit 5 [(5, .uncorrectable)]) (running 2 .none))).psn = true := by
  decide +kernel

def visited (s : State) : State := { s with hearths := s.hearths.map fun x => { x with ropSet := 8192 } }
theorem wit_ropComplete : (out .ropComplete (visited (running 4 .none))).flag (pgHRTH 0) Fld.ROP_STAT_DONE = true ∧
    (out .ropComplete (visited (running 4 .none))).raised = [srcWide 0] := by decide +kernel

def vb2 : State := State.reset.setVb 5 [⟨1, false, false, 1⟩, ⟨2, true, false, 2⟩]
theorem wit_vb : ((out (.vbWriteAccept 5 .clean) vb2).hearthAt 5).vb = [⟨1, false, false, 1⟩, ⟨2, false, false, 2⟩] ∧
    (out (.vbWriteAccept 5 .clean) vb2).mem.wr = [⟨2, 2, false, false, 0, none⟩] ∧
    (out (.vbWriteAccept 5 .corrected) vb2).get (pgHRTH 5) Fld.HRTH_ERR_CNT_CE = 1 ∧
    (out (.vbWriteAccept 5 .uncorrectable) vb2).mem.wr.map (·.psn) = [true] := by decide +kernel

def cleaning : State := (running 0 .none).modHearth 5 fun x => { x with mode := 1 }
theorem wit_cleanDone : (cleaning.hearthAt 5).ways.map (·.1) = [0] ∧ ((out (.hrthCleanDone 5 []) cleaning).hearthAt 5).mode = 2 ∧
    (way2 (out (.hrthCleanDone 5 []) cleaning)).dirty = false ∧ (out (.hrthCleanDone 5 []) cleaning).mem.wr = [⟨5, 0xCAFE, false, false, 0, none⟩] ∧
    (out (.hrthCleanDone 5 []) cleaning).flag (pgHRTH 0) Fld.HRTH_GSTAT_STALE_RISK = true ∧
    (out (.hrthCleanDone 5 [(5, .uncorrectable)]) cleaning).mem.wr.map (·.psn) = [true] := by decide +kernel

/-- R353's example: PA 0x4000_1FC0 lives in stack 1, channel 15, O 0x1_0000, with MC 3 as its local channel 7. -/
theorem test_place : nearPlace false 0x40001FC0 = (1, 15, 0x10000) ∧ nearPlace true 0x40001FC0 = (1, 15, 0x10000) ∧ ctrlOf 1 15 = (3, 7) ∧
    bankOf 0x10000 = 0 ∧ rowOf 0x10000 = 128 ∧ lineAt false 1 15 0x10000 3 = 0x40001FC0 / 64 := by decide +kernel

def exLine : Nat := 0x40001FC0 / 64
def reading : State := { State.reset with mem := { rd := [⟨exLine, 9, 0, false, 0, none⟩] } }
def noAuto (s : State) : State := s.put (pgMC 3) Fld.MC_CTL_ROW_AUTO 0

theorem wit_memRead : isNear (paOf exLine) = true ∧ reading.rowHeld exLine = false ∧ reading.selfRefresh (reading.mcOf exLine).1 = false ∧
    ((out (.memRead exLine 0) reading).mem.ret.map fun r => (r.data, r.psn)) = [(0, false)] ∧
    (out (.memRead exLine 1) (noAuto reading)).get (pgMC 3) (Fld.MC_CE_CNT_COUNT 7) = 1 ∧
    (noAuto reading).flag (pgMC (reading.mcOf exLine).1) Fld.MC_CTL_ROW_AUTO = false ∧
    (out (.memRead exLine 2) reading).memPoison exLine = true ∧
    (out (.memRead exLine 2) reading).get (pgMC 3) Fld.MC_ERR_LOC_HI_CHAN = 7 := by decide +kernel

def writing : State := { State.reset with mem := { wr := [⟨exLine, 0xAB00, true, false, 0, none⟩] } }
theorem wit_memWrite : Memory.read (out (.memWrite exLine) writing).mem.cells 0x40001FC1 = 0xAB ∧
    (out (.memWrite exLine) writing).memPoison exLine = true ∧ (out (.memWrite exLine) writing).mem.wr = [] := by decide +kernel

/-- Decoder 1 of PCIE0 maps 256 MiB at the bottom of the far window. -/
def far : State := ((((State.reset.put pgPWR (Fld.DOM_STAT_STATE 43) 2).modGroup 0 fun x => { x with up := [1] }).put (pgPCIE 0) (Fld.FM_BASE_LO_EN 1) 1).put (pgPCIE 0) (Fld.FM_BASE_HI_BASE_HI 1) 0x100).put (pgPCIE 0)
  (Fld.FM_SIZE_SIZE 1) 1
def farLine : Nat := 0x10000000000 / 64
def farRd : State := { far with mem := { rd := [⟨farLine, 9, 0, false, 0, some (0, 1)⟩] } }
def farWr : State := { far with mem := { wr := [⟨farLine, 7, false, true, 0, some (0, 1)⟩] } }

theorem wit_far : far.domOn 43 = true ∧ far.portUp 0 1 = true ∧ far.farFails (some (0, 1)) 0 3 = true ∧
    { far with time := 2 ^ 60 }.farFails (some (0, 1)) 0 1 = true ∧ State.reset.farFails (some (0, 1)) 0 4 = true ∧
    (far.modGroup 0 fun x => { x with up := [] }).farFails (some (0, 1)) 0 2 = true ∧ far.farDec (paOf farLine) = some (0, 1) ∧ isFar (paOf farLine) = true ∧
    ((out (.farMemReturn farLine false 0x77 true) farRd).mem.ret.map fun r => (r.data, r.psn)) = [(0x77, true)] ∧
    (out (.farMemReturn farLine true 0 false) farWr).mem.wr = [] ∧
    ((out (.farMemFail farLine false 3) farRd).mem.ret.map fun r => (r.data, r.fill)) = [(BitVec.allOnes 512, false)] ∧
    (out (.farMemFail farLine true 3) farWr).rop.err = true ∧
    (out (.farMemFail farLine true 3) farWr).get (pgPCIE 0) (Fld.FM_WR_FAIL_COUNT 1) = 1 := by decide +kernel

/-- The memory domains are on. -/
def memOn : State := forAll (List.range 12) (fun i s => s.put pgPWR (Fld.DOM_STAT_STATE (16 + i)) 2) State.reset

theorem wit_scrub : (noAuto memOn).pageOff (pgMC 3) = false ∧ memOn.get (pgMC 3) Fld.MC_CTL_SCRUB_HRS ≠ 0 ∧
    (memOn.mcOf (lineAt memOn.quad 1 8 0 0)).1 = 3 ∧ memOn.rowHeld (lineAt memOn.quad 1 8 0 0) = false ∧
    Tab.getD 3 0 (out (.scrubRead 3 0) (noAuto memOn)).mem.scrubSub = 1 ∧
    (out (.scrubRead 3 0) ({ memOn with mem := { scrubSub := [(3, 3)] } })).get (pgMC 3) Fld.MC_SCRUB_POS_O = 1 ∧
    (out (.scrubRead 3 2) (noAuto memOn)).flag (pgMC 3) Fld.MC_STAT_UE = true := by decide +kernel

def goAt : State := (memOn.put (pgMC 3) Fld.MC_ROWSPARE_ADDR_LO_ADDR_LO (0x40001FC0 / 64))
theorem wit_go : (goAt.mcOf exLine).1 = 3 ∧ (out (.go 3) goAt).flag (pgMC 3) Fld.MC_ROWSPARE_STAT_BUSY = true ∧ (out (.go 3) goAt).rowHeld exLine = true ∧
    (out (.go 2) memOn).get (pgMC 2) Fld.MC_ROWSPARE_STAT_STATUS = 3 ∧
    (out (.rowSpareDone 3 []) (out (.go 3) goAt)).get (pgMC 3) Fld.MC_ROWSPARE_STAT_LEFT = 7 ∧
    (out (.rowSpareDone 3 []) { out (.go 3) goAt with mem := { rowCur := [(3, exLine)], spareUsed := [((1 * 16 + 15) * 64, 8)] } }).get (pgMC 3)
      Fld.MC_ROWSPARE_STAT_STATUS = 2 := by decide +kernel

/-- A row that waited is spared next; a line found uncorrectable is copied poisoned. -/
def goAgain : State := { out (.go 3) goAt with mem := { (out (.go 3) goAt).mem with rowQ := [(3, exLine)] } }
theorem wit_rowQ : (out (.rowSpareDone 3 []) goAgain).flag (pgMC 3) Fld.MC_ROWSPARE_STAT_BUSY = true ∧
    (out (.rowSpareDone 3 []) goAgain).mem.rowQ = [] ∧
    (out (.rowSpareDone 3 [31]) (out (.go 3) goAt)).get (pgMC 3) Fld.MC_ROWSPARE_STAT_STATUS = 1 := by decide +kernel

def worn : State := { State.reset.put (pgSTK 1) Fld.STK_CFG_SPARE_THR 1 with mem := { chanCe := [(31, [0, 0])] } }
theorem wit_chanSpare : worn.chanSpareRefused 1 = false ∧ (out (.spareAutoStart 1 15) worn).smith.autoOp = some (1, 1) ∧
    (out (.chanSpareSwitch 1 []) (out (.spareAutoStart 1 15) worn)).get (pgSTK 1) Fld.STK_STAT_SPARED_CHAN = 15 ∧
    (out (.chanSpareSwitch 1 [exLine]) (out (.spareAutoStart 1 15) worn)).memPoison exLine = true ∧
    (out (.chanSpareAbandon 1) (out (.spareAutoStart 1 15) worn)).flag (pgSTK 1) Fld.STK_STAT_SPARE_ERR = true := by decide +kernel

/-- R378's example: the debt of bank 5 rises while the bank is busy; at 8 the refresh is forced and repayment begins. -/
def owing (d : Nat) (r : Tab Nat) : State := { memOn with mem := { debt := [((3 * 8 + 7) * 64 + 5, d)], repay := r } }
theorem wit_refresh : Tab.getD ((3 * 8 + 7) * 64 + 5) 0 (out (.refreshDue 3 7 5 true) (owing 7 [])).mem.debt = 8 ∧
    (out (.refreshDue 3 7 5 true) (owing 8 [])).get (pgMC 3) Fld.MC_REF_FORCED_COUNT = 1 ∧
    (out (.refreshDue 3 7 5 true) (owing 8 [((3 * 8 + 7) * 64 + 5, 1)])).mem.debt = [((3 * 8 + 7) * 64 + 5, 7)] ∧
    (out (.refreshDue 3 7 5 true) (owing 1 [((3 * 8 + 7) * 64 + 5, 1)])).mem.repay = [] := by decide +kernel

theorem wit_temp : (out (.stackTempChange 1 96) State.reset).flag (pgSTK 1) Fld.STK_STAT_HOT = true ∧
    (out (.stackTempChange 1 86) State.reset).flag (pgSTK 1) Fld.STK_TEMP_REF2X = true ∧
    (out (.stackTempChange 1 85) State.reset).flag (pgSTK 1) Fld.STK_TEMP_REF2X = false := by decide +kernel

theorem wit_refForced : ((out .refForcedPoll (State.reset.put (pgMC 3) Fld.MC_REF_FORCED_COUNT 4)).recs.map fun r => (r.page, r.words)) =
    [(pgMC 3, [0, 4])] := by decide +kernel

/-- The worked example under R327: the first and the last backed scratch line. -/
theorem test_scratchPlace :
    (State.reset.home 0xE000000000000, scratchSet false 0xE000000000000, scratchWay 4 0xE000000000000) = (14, 0, 12) ∧
    (State.reset.home 0xE000007FFFFC0, scratchSet false 0xE000007FFFFC0, scratchWay 4 0xE000007FFFFC0) = (54, 8191, 15) := by decide +kernel

/-! ### Device accesses and barriers -/

def drainP : Pkt := { op := 0x09, src := 0x0D, txn := 3, dst := 0x0D }
/-- A device write of module 1 of site 3 toward group 2. -/
def devw (op : BitVec 7) : Pkt :=
  { op := op, src := 0x0D, txn := 8, dst := nodePCIE 2, addr := 0x3C00100004000, hasData := true, data := 0x5500, mask := 0xF }
def upIf (a : Nat) (s : State) : State := s.modGroup 2 fun g => { g with up := [Config.pciePort 2 a] }
def recorded : State := (upIf 0x12340 up).modGroup 2 fun g => { g with blocks := [(3, [(1, 0x12340)])] }

theorem wit_drain : Running up ∧ up.arrived drainP = true ∧ State.homeOfPkt drainP = none ∧ (up.siteAt 3).drains = [] ∧ ((out (.drain drainP) up).siteAt 3).drains.map (·.need) = [[]] ∧
    (out (.drain drainP) up).get (pgSITE 3) Fld.DRAIN_STAT_PEND = 1 := by unfold Running; decide +kernel

theorem wit_drainFlush : recorded.portUp 2 (Config.pciePort 2 0x12340) = true ∧ Tab.get? 3 (recorded.groupAt 2).blocks = some [(1, 0x12340)] :=
  ⟨by simp [State.portUp, State.groupAt, recorded, upIf, State.modGroup, modOf, nthD, up, State.reset, forAll, State.put, State.setReg, List.range,
     List.range.loop, List.replicate],
   by decide +kernel⟩

def drained (f : Option (Nat × Nat × Nat)) : State :=
  up.modSite 3 fun x => { x with drains := [{ id := 0, p := drainP, start := 0, waits := [], need := [], fail := f }] }

theorem wit_drainComplete : (drained none).drainReady { id := 0, p := drainP, start := 0, waits := [], need := [] } = true ∧
    ((out (.drainComplete 3) (drained none)).net.map fun e => (e.p.op, e.p.addr, e.p.src)) = [(0x41, 0, 0x0D)] ∧
    ((out (.drainComplete 3) (drained (some (1, 2, 0x12340)))).net.map fun e => e.p.addr) = [2] ∧
    (out (.drainComplete 3) (drained (some (1, 2, 0x12340)))).get (pgSITE 3) Fld.DRAIN_ERR_LOC_TARGET = 2 := by decide +kernel

theorem wit_drainWaits : (up.modSite 3 fun x => { x with drains := [{ id := 0, p := drainP, start := 0, waits := [devw 0x68], need := [] }] }).drainReady
    { id := 0, p := drainP, start := 0, waits := [devw 0x68], need := [] } = false := by decide +kernel

def flushing (now : Nat) : State :=
  { (drained none).modGroup 2 fun g => { g with flushes := [⟨3, 0x12340, 1, 0, 16000000, some 0, [(1, devw 0x68)]⟩], pw := [(1, devw 0x68), (0, devw 0x68)] } with time := now }

theorem wit_flush : ((out (.flushReadComplete 2 3 0x12340) (flushing 5)).groupAt 2).pw.map (·.1) = [0] ∧
    ((out (.flushReadTimeout 2 3 0x12340) (flushing 16000000)).siteAt 3).drains.map (·.fail) = [some (1, 2, 0x12340)] ∧
    out (.flushReadTimeout 2 3 0x12340) (flushing 15999999) = flushing 15999999 := by decide +kernel

def linked : State := up.modGroup 2 fun g => { g with up := [0, 1], pw := [(1, devw 0x68), (0, devw 0x68)] }
theorem wit_linkDown : (out (.pcieLinkDown 2 1 true) linked).portUp 2 1 = false ∧
    (out (.pcieLinkDown 2 1 true) linked).get (pgPCIE 2) Fld.PW_DISC_COUNT = 1 ∧ srcPCIE 2 3 ∈ (out (.pcieLinkDown 2 1 true) linked).raised := by
  decide +kernel
theorem wit_linkDownFar : isFar (paOf (0x10000000000 / 64)) = true ∧
    (out (.pcieLinkDown 0 1 false) { State.reset.put pgPWR (Fld.DOM_STAT_STATE 43) 2 with
      mem := { wr := [⟨0x10000000000 / 64, 7, false, false, 0, some (0, 1)⟩], rd := [⟨0x10000000000 / 64, 9, 0, false, 0, some (0, 1)⟩] } }).mem.wr = [] := by
  decide +kernel

theorem wit_linkUp : portExists 0 2 0 = true ∧
    (out (.pcieLinkUp 2 0) (State.reset.put pgPWR (Fld.DOM_STAT_STATE 45) 2)).raised = [srcPCIE 2 8] := by decide +kernel

def asked (now : Nat) : State :=
  { up.modGroup 2 fun g => { g with nonp := [⟨devw 0x70, 1, 0, 16000000, none⟩], lateTags := [(13, 9, 100)] } with time := now }
theorem wit_deviceRequests : (asked 1).postedOf 2 = [] ∧ ((out (.deviceCompletion 2 0x0D 8 0x1122334455 true) (asked 1)).net.map fun e => (e.p.op, e.p.data, e.p.addr)) =
      [(0x79, 0x22334455, 0)] ∧
    ((out (.pcieCplTimeout 2 0x0D 8) (asked 16000000)).net.map fun e => (e.p.op, e.p.data, e.p.addr)) = [(0x79, 0xFFFFFFFF, 2)] ∧
    out (.pcieCplTimeout 2 0x0D 8) (asked 15999999) = asked 15999999 ∧
    (out (.lateCompletion 2 13 9) (asked 100)).get (pgPCIE 2) Fld.PCIE_LATE_CPL_COUNT = 1 := by decide +kernel

/-- A completion waits for a posted write of the group's devices. -/
def askedBehind : State := { asked 1 with dmas := [(0, { who := 2, rid := 0x100, stream := 0x100, va := 0, acc := 1, kind := 0, st := .sent 0 })] }
theorem wit_completionWaits : askedBehind.postedOf 2 = [0] ∧ (out (.deviceCompletion 2 0x0D 8 0x55 true) askedBehind).net = [] := by decide +kernel

/-- The domain of group 2 is on, and nothing else goes on. -/
def pcieOn : State := up.put pgPWR (Fld.DOM_STAT_STATE 45) 2
theorem wit_devWr : Settled pcieOn ∧ pcieOn.arrived (devw 0x68) = true ∧ pcieOn.absentNode (nodePCIE 2) = false ∧ (pcieOn.groupAt 2).pw.length < 256 ∧
    ((out (.devWr (devw 0x68)) pcieOn).groupAt 2).pw.map (·.2) = [devw 0x68] ∧
    ((out (.devWrN (devw 0x71)) pcieOn).net.map fun e => (e.p.op, e.p.dst)) = [(0x78, 0x0D)] := by unfold Settled; decide +kernel

theorem wit_devRd : (upIf (paOf (devw 0x70).addr.toNat) pcieOn).portUp 2 (Config.pciePort 2 (paOf (devw 0x70).addr.toNat)) = true ∧
    Settled (upIf (paOf (devw 0x70).addr.toNat) pcieOn) ∧ (upIf (paOf (devw 0x70).addr.toNat) pcieOn).absentNode (nodePCIE 2) = false ∧
    ((upIf (paOf (devw 0x70).addr.toNat) pcieOn).siteAt 3).drains = [] :=
  ⟨by simp [State.portUp, State.groupAt, pcieOn, upIf, State.modGroup, modOf, nthD, up, State.reset, forAll, State.put, State.setReg, List.range,
     List.range.loop, List.replicate],
   by unfold Settled; decide +kernel, by decide +kernel, by decide +kernel⟩

theorem wit_devRdDown : pcieOn.portUp 2 (Config.pciePort 2 (paOf (devw 0x70).addr.toNat)) = false ∧
    ((out (.devRd (devw 0x70) .clean) pcieOn).net.map fun e => (e.p.op, e.p.dst, e.p.txn)) = [(0x79, 0x0D, 8)] := by decide +kernel

/-- A device request of 4 bytes at TIME_CMP_LO. -/
def timeCmp (op : BitVec 7) : Pkt :=
  { op := op, src := 0x0D, txn := 8, dst := nodeSmith, addr := BitVec.ofNat 46 (0xFFF0000030100 / 64), hasData := true,
    data := 0x12345678 * 2 ^ 64, mask := 0xF00 }
theorem wit_devControl : paOf (timeCmp 0x68).addr.toNat = 0xFFF0000000000 + 0x10000 * pgTIME + Reg.TIME_CMP_LO / 64 * 64 ∧
    (timeCmp 0x68).mask = maskRun (Reg.TIME_CMP_LO % 64) 4 ∧ Settled up ∧
    (out (.devWr (timeCmp 0x68)) up).reg pgTIME Reg.TIME_CMP_LO = 0x12345678 ∧
    (out (.smithRequest (timeCmp 0x71) .clean) up).net.map (·.p.op) = [0x78] ∧
    ((out (.devRd (timeCmp 0x70) .clean) (out (.devWr (timeCmp 0x68)) up)).net.map fun e => e.p.data) = [0x12345678 * 2 ^ 64] := by
  unfold Settled; decide +kernel

theorem wit_smithRequest : up.stormed srcReservedAddr = false ∧
    ((out (.smithRequest { req 4 with dst := nodeSmith } .clean) up).net.map (·.p.op)) = [0x54] ∧
    ((out (.smithRequest { answer 0x43 with dst := nodeSmith } .clean) up).recs.map fun r => (r.typ, r.opcode)) = [(0x05, 0x43)] := by
  decide +kernel

def devAns (op : BitVec 7) (dst : BitVec 8) : Pkt := { op := op, src := nodePCIE 2, dst := dst, txn := 8, last := true, hasData := true, data := 0xAABB, mask := 0xF }
def dmaWaits : State :=
  { up with dmas := [(1, { who := 2, rid := 0x100, stream := 0x100, va := 0, acc := 0, kind := 2, mask := 0xF, st := .sent 0 })],
            agents := [(State.agentKey (nodePCIE 2) 8, { p := devw 0x70, use := .dma 1 })] }
theorem wit_devCpl : up.atDie (devAns 0x78 0x0D) = true ∧ ((out (.devCpl (devAns 0x78 0x0D)) (up.modSite 3 fun x => { x with outReq := [(13, 8)] })).siteAt 3).outReq = [] ∧
    (out (.devCpld (devAns 0x79 0x0D)) (up.modSite 3 fun x => { x with outReq := [(13, 8), (13, 9)] })).get (pgSITE 3) Fld.BND_OUT_COUNT = 1 ∧
    (out (.devCpld (devAns 0x79 (nodePCIE 2))) dmaWaits).dmaAns = some { rid := 0x100, status := 0, data := 0xAABB } ∧
    (out (.dataRd (devAns 0x54 (nodePCIE 2)) none) dmaWaits).dmas = [] := by decide +kernel

def dmaReady (acc : Nat) (mask : ByteMask) : State :=
  { pcieOn with dmas := [(1, { who := 2, rid := 0x100, stream := 0x100, va := 0, acc := acc, kind := acc, pa := 0x140, mask := mask, st := .ready })] }
theorem wit_deviceDma : Settled (dmaReady 0 0) ∧ (dmaReady 0 0).pageOff (State.dmaPage 2) = false ∧
    ((out (.deviceDma 1) (dmaReady 0 0)).net.map fun e => (e.p.op, e.p.dst)) = [(0x04, 0x45)] ∧
    ((out (.deviceDma 1) (dmaReady 1 (BitVec.allOnes 64))).net.map fun e => e.p.op) = [0x05] ∧
    ((out (.deviceDma 1) (dmaReady 1 3)).net.map fun e => e.p.op) = [0x06] ∧ ((out (.deviceDma 1) (dmaReady 2 3)).net.map fun e => e.p.op) = [0x07] := by unfold Settled; decide +kernel
/-- A device's write with EP set (R680, R681). -/
def dmaPoison : State := { dmaReady 1 3 with dmas := (dmaReady 1 3).dmas.map fun e => (e.1, { e.2 with psn := true }) }
theorem wit_deviceDmaEp : ((out (.deviceDma 1) dmaPoison).net.map fun e => e.p.psn) = [true] ∧
    ((out (.deviceDma 1) dmaPoison).recs.map fun r => (r.typ, r.page, r.addr)) = [(0x14, pgPCIE 2, some 0x140)] := by decide +kernel

def dmaHeld : State :=
  { pcieOn with dmas := [(0, { who := 2, rid := 0x100, stream := 0x100, va := 0, acc := 1, kind := 0, st := .sent 0 }),
                         (1, { who := 2, rid := 0x100, stream := 0x100, va := 0, acc := 0, kind := 2, pa := 0x140, st := .ready })] }
theorem wit_dmaBlocked : (Tab.get? 1 dmaHeld.dmas).map (fun d => dmaHeld.dmaBlocked 1 d) = some true ∧ out (.deviceDma 1) dmaHeld = dmaHeld := by
  decide +kernel

/-! ### Flolaec links -/

/-- Module 1 of site 3 with both sides in a state, changed by `f`. -/
def lnk (st : Nat) (f : LinkEnd → LinkSide → LinkSide := fun _ x => x) (s : State := up) : State :=
  let base : LinkSide := { st := st, link := some { granted := true, grantH := State.hubGrantH, grantD := State.hubGrantD } }
  (s.setLk 3 1 .hub (f .hub base)).setLk 3 1 .die (f .die base)
def at_ (now : Nat) (s : State) : State := { s with time := now }
def onEnd (e : LinkEnd) (f : LinkSide → LinkSide) : LinkEnd → LinkSide → LinkSide := fun e' x => if e' = e then f x else x
def devFrame : Pkt := { op := 0x68, src := 0x0D, dst := nodePCIE 2, vc := 5, hasData := true, mask := 0xF }
def side (s : State) (e : LinkEnd) : LinkSide := s.lk 3 1 e
def codes (s : State) (e : LinkEnd) : List (Nat × List Nat) := (side s e).outbox.map fun l => (l.lm.code, l.lm.args)
def lfr (n k : Nat) : TxFrame := { seq := n, units := [devFrame], since := 100, sends := k }
def held (l : List TxFrame) : LinkSide → LinkSide := fun x => { x with link := x.link.map fun l' => { l' with unacked := l, txSeq := l.length } }

/-- A die's write that waits at the die, as its DATA frame carries it. -/
def dieHas (s : State) : State := { s with net := [⟨devFrame, .die 3 1, 0⟩] }
def full (l : LinkState) : LinkState := { l with recvD := State.hubGrantD, recvH := State.hubGrantH }
theorem wit_dataFrame : Running (dieHas (lnk 4)) ∧ (side (lnk 4) .hub).link.map (·.rxSeq) = some 0 ∧
    (dieHas (lnk 4)).mayPack 3 1 .die [devFrame] = true ∧ (dieHas (lnk 4)).nextData 3 1 .die [] = none ∧
    (out (.dataFrame 3 1 .hub [devFrame] []) (dieHas (lnk 4))).net.map (fun e => (e.p, e.at_)) = [(devFrame, .link 3 1)] ∧
    (side (out (.dataFrame 3 1 .hub [devFrame] []) (dieHas (lnk 4))) .hub).link.map (fun l => (l.rxSeq, l.recvD)) =
      some (1, [0, 0, 0, 0, 0, 1, 0, 0]) := by unfold Running; decide +kernel
theorem wit_noCredit : (out (.dataFrame 3 1 .hub [devFrame] []) (dieHas (lnk 4 (onEnd .hub fun x => { x with link := x.link.map full })))).get (pgSITE 3)
    (Fld.BND_CNT_COUNT 9) = 1 := by decide +kernel

/-- LNK holds a response for module 1 of site 3. -/
def rspFrame : Pkt := { op := 0x41, src := 0x45, dst := 0x0D, vc := 2, txn := 3, last := true }
theorem wit_dieTakesFrame : ({ lnk 4 with net := [⟨rspFrame, .rx, 0⟩] } : State).mayPack 3 1 .hub [rspFrame] = true ∧
    (out (.dataFrame 3 1 .die [rspFrame] []) { lnk 4 with net := [⟨rspFrame, .rx, 0⟩] }).net = [⟨rspFrame, .dlv 3 1, 0⟩] := by decide +kernel

/-- The die's DATA frames 0 to 2 stand unacknowledged, and frame `n` is asked for again; the hub has accepted 0. -/
def lagging (n : Nat) : State := lnk 4 fun e x => match e with
  | .hub => { x with link := x.link.map fun l => { l with rxSeq := 1 } }
  | .die => let y := held [lfr 0 1, lfr 1 1, lfr 2 1] x
            { y with link := y.link.map fun l => { l with replay := some n } }
set_option maxRecDepth 200000 in
theorem wit_badFrames : codes (out (.dataFrame 3 1 .hub [] []) (lagging 0)) .hub = [(0x102, [])] ∧
    codes (out (.dataFrame 3 1 .hub [] []) (lagging 2)) .hub = [(0x101, [])] ∧
    codes (out (.dataFrame 3 1 .hub [] [[70]]) (lagging 1)) .hub = [(0x101, [])] ∧
    (out (.dataFrame 3 1 .hub [] [[70]]) (lagging 1)).get (pgLNK 3) (Fld.LNK_CRC_CNT_COUNT 1) = 1 ∧
    (side (out (.dataFrame 3 1 .hub [] []) (lagging 0)) .die).link.map (·.replay) = some (some 1) := by decide +kernel
theorem wit_fourth : (side (out (.dataFrame 3 1 .die [] []) (lnk 4 (onEnd .hub fun x =>
      let y := held [lfr 4095 3] x
      { y with link := y.link.map fun l => { l with replay := some 4095, txSeq := 0 } }))) .hub).st = 6 := by decide +kernel

def unackedOf (s : State) (e : LinkEnd) : List (Nat × Nat) := (((side s e).link.map (·.unacked)).getD []).map fun f => (f.seq, f.sends)
/-- The hub has sent a frame of a type that acknowledges `ack`. -/
def acking (code ack : Nat) : State := (lagging 9).modLk 3 1 .hub fun x => { x with outbox := [⟨{ typ := typeOf code, seq := 4095, ack := ack }, ⟨code, []⟩⟩] }
set_option maxRecDepth 200000 in
theorem wit_ack : unackedOf (out (.ackFrame 3 1 .die []) (acking 0x102 1)) .die = [(2, 1)] ∧
    unackedOf (out (.ackFrame 3 1 .die []) (acking 0x102 7)) .die = [(0, 1), (1, 1), (2, 1)] ∧
    unackedOf (out (.ackFrame 3 1 .die [[12]]) (acking 0x102 1)) .die = [(0, 1), (1, 1), (2, 1)] ∧
    (side (out (.rplFrame 3 1 .die []) (acking 0x101 7)) .die).link.map (·.replay) = some (some 0) ∧
    (side (out (.replayTimeout 3 1 .die) (at_ 601 (lagging 9))) .die).link.map (·.replay) = some (some 0) ∧
    (side (out (.replayTimeout 3 1 .die) (at_ 600 (lagging 9))) .die).link.map (·.replay) = some (some 9) := by decide +kernel
theorem wit_nextData : ((lagging 1).nextData 3 1 .die []).map (fun f => (f.1, f.2.2)) = some (1, false) := by decide +kernel
theorem wit_credInit : (side (out (.credInit 3 1 .hub [8, 8, 4, 8, 8, 4, 4, 4] [8, 2, 0, 8, 8, 4, 4, 4] []) (lnk 4)) .hub).link.map (·.grantD) =
      some [8, 2, 0, 8, 8, 4, 4, 4] := by decide +kernel
set_option maxRecDepth 200000 in
theorem wit_badMessage : readFrame ((lnk 2).frameIn 3 1 .hub ⟨0x10, []⟩).1 [[70]] = .badCrc ∧
    (side (out (.calDone 3 1 .hub [[70]]) (lnk 2)) .hub).calRecv = false ∧
    (out (.calDone 3 1 .hub [[70]]) (lnk 2)).get (pgLNK 3) (Fld.LNK_CRC_CNT_COUNT 1) = 1 := by decide +kernel

def surveying (f : LinkSide → LinkSide := id) : State := lnk 1 fun _ x => f { x with helloSent := true, mapSeq := 7 }
theorem wit_survey : (surveying.siteAt 3).trav = none ∧ surveying.admitted 3 = false ∧
    codes (out (.hello 3 1 .hub true false 9 []) surveying) .hub = [(0x01, [0, 3, 1, 3, 7]), (0x02, [])] ∧
    codes (out (.hello 3 1 .hub true true 9 []) surveying) .hub = [(0x02, [])] ∧
    codes (out (.helloRepeat 3 1 .die) (at_ 10000 surveying)) .die = [(0x01, [1, 3, 1, 1, 7])] ∧
    (side (out (.surveyDone 3 1 .hub []) (surveying fun x => { x with surveySent := true, partnerSeq := 9 })) .hub).mapSeq = 9 ∧
    (side (out (.surveyDone 3 1 .hub []) surveying) .hub).st = 1 ∧
    (side (out (.hello 3 1 .hub true false 9 []) (lnk 4)) .hub).st = 1 := by decide +kernel
theorem wit_lost : (out (.hello 3 1 .hub false false 9 []) ((surveying.put (pgSITE 3) Fld.SITE_STAT_ADMITTED 1))).raised = [srcSITE 3 4] := by decide +kernel

theorem wit_calibrate : (side (out (.calDone 3 1 .hub []) (lnk 2)) .hub).st = 2 ∧
    codes (out (.calDone 3 1 .hub []) (lnk 6 fun _ x => { x with calSent := true, mapSeq := 255, calFail := 5 })) .hub = [(0x20, [0, 5])] ∧
    codes (out (.calibrationComplete 3 1 .die 5 true 900) (lnk 2)) .die = [(0x10, [])] ∧
    (side (out (.calibrationComplete 3 1 .die 5 false 900) (lnk 2 fun _ x => { x with link := none })) .die).st = 7 ∧
    up.smith.running = true := by decide +kernel

/-- The two maps of the examples of R430 and R431: L5, L9 and L21 of one direction fail. -/
theorem wit_map : codes (out (.mapPropose 3 1 .hub 8 0 []) (lnk 3 fun _ x => { x with mapSeq := 7, calFail := 2 ^ 5 + 2 ^ 21 })) .hub =
      [(0x21, [8, 0x00002AC5, 0])] ∧
    codes (out (.mapPropose 3 1 .hub 8 0 []) (lnk 3 fun _ x => { x with mapSeq := 7, calFail := 2 ^ 5 + 2 ^ 9 + 2 ^ 21 })) .hub =
      [(0x21, [8, 0x20000000, 0x20000000])] ∧
    (side (out (.mapPropose 3 1 .hub 8 (7 * 2 ^ 34) []) (lnk 3 fun _ x => { x with mapSeq := 7, calFail := 7, link := none })) .hub).st = 7 ∧
    (side (out (.mapPropose 3 1 .hub 9 0 []) (lnk 3 fun _ x => { x with mapSeq := 7 })) .hub).st = 1 := by decide +kernel
def confirming : State := lnk 3 fun _ x => { x with mapSeq := 255, newDh := 0x2AC5, confSent := true, mm := 2, link := none }
theorem wit_mapConfirm : (side (out (.mapConfirm 3 1 .hub 0 0x2AC5 0 []) confirming) .hub).st = 4 ∧
    (out (.mapConfirm 3 1 .hub 0 0x2AC5 0 []) confirming).get (pgLNK 3) (Fld.LNK_MAP_DH_RECORD 1) = 0x2AC5 ∧
    (side (out (.mapConfirm 3 1 .hub 0 0x2AC4 0 []) confirming) .hub).st = 7 := by decide +kernel

def siteOn : State := up.put pgPWR (Fld.DOM_STAT_STATE 3) 2
theorem wit_enable : siteOn.domOn 3 = true ∧ codes (out (.lnkEnable 3 1) siteOn) .die = [(0x01, [1, 3, 1, 0, 0])] ∧
    (out (.lnkEnable 3 1) siteOn).get (pgLNK 3) (Fld.LNK_STAT_STATE 1) = 1 := by decide +kernel
theorem wit_training : (side (out (.trainingTimeout 3 1 .hub) (at_ 99999 (lnk 2))) .hub).st = 2 ∧
    (side (out (.trainingTimeout 3 1 .hub) (at_ 100000 (lnk 2))) .hub).st = 1 ∧
    (side (out (.trainingTimeout 3 1 .hub) (at_ 1000000 (lnk 1))) .hub).sv = 1 ∧
    (side (out (.trainingTimeout 3 1 .hub) (at_ 1000000 (lnk 1 fun _ x => { x with sv := 2, link := none }))) .hub).st = 7 := by decide +kernel

theorem wit_repairReq : codes (out (.repairReq 3 1 .die 8 0x2AC5 21 []) (lnk 4)) .die = [(0x31, [8])] ∧
    (out (.repairReq 3 1 .die 8 0x2AC5 21 []) (lnk 4)).flag (pgLNK 3) (Fld.LNK_STAT_PAUSE 1) = true := by decide +kernel
def repairing : State := lnk 4 (onEnd .hub fun x => { x with rep := some ⟨21, 0x2AC5, 8, 0⟩, mapSeq := 7 })
theorem wit_repairGo : codes (out (.repairGo 3 1 .hub 8 []) repairing) .hub = [(0x32, [8])] ∧
    (out (.repairGo 3 1 .hub 8 []) repairing).get (pgLNK 3) (Fld.LNK_MAP_DH_RECORD 1) = 0x2AC5 ∧
    codes (out (.repairReqResend 3 1 .hub) (at_ 500 repairing)) .hub = [(0x30, [8, 0x2AC5, 21])] ∧
    codes (out (.repairReqResend 3 1 .hub) (at_ 499 repairing)) .hub = [] := by decide +kernel
def paused (e : LinkEnd) : State := lnk 4 (onEnd e fun x => { x with pause := some 0, pauseRec := 0x2AC5, pauseSeq := 8 + 256 * 21 })
theorem wit_repairDone : (side (out (.repairDone 3 1 .die 8 []) (paused .die)) .die).mapDh = 0x2AC5 ∧
    (out (.repairDone 3 1 .die 8 []) (paused .die)).flag (pgLNK 3) (Fld.LNK_STAT_PAUSE 1) = false ∧
    (out (.repairDone 3 1 .hub 8 []) (paused .hub)).raised = [srcSITE 3 6] ∧
    (side (out (.repairPauseTimeout 3 1 .die) (at_ 2000 (paused .die))) .hub).st = 6 ∧
    (side (out (.repairPauseTimeout 3 1 .die) (at_ 1999 (paused .die))) .hub).st = 4 := by decide +kernel

theorem wit_heartbeat : codes (out (.heartbeatSend 3 1 .hub) (at_ 1000 (lnk 4))) .hub = [(0x102, [])] ∧
    codes (out (.heartbeatSend 3 1 .hub) (at_ 999 (lnk 4))) .hub = [] ∧
    (side (out (.heartbeatLoss 3 1 .hub) (at_ 4000 (lnk 5))) .hub).st = 6 ∧ (side (out (.heartbeatLoss 3 1 .hub) (at_ 3999 (lnk 5))) .hub).st = 5 ∧
    (out (.retrainReq 3 1 .hub []) (lnk 4)).get (pgLNK 3) (Fld.LNK_RETRAIN_CNT_COUNT 1) = 1 ∧
    codes (out (.retrain 3 1) (lnk 4)) .hub = [(0x50, [])] ∧ (side (out (.clkLost 3 1 .die false [] [] [] false) (lnk 4)) .die).st = 6 ∧
    (out (.spareFailed 3 1 .hub 1 (List.replicate 60 false ++ List.replicate 60 true)) (lnk 4)).failedSet 3 1 .hub = 2 ^ 33 ∧
    (side (out (.errorWindowEnd 3 1 .hub) (at_ 1000000 (lnk 4 fun _ x => { x with crcFails := 5 }))) .hub).crcFails = 0 ∧
    (side (out (.errorWindowEnd 3 1 .hub) (at_ 999999 (lnk 4 fun _ x => { x with crcFails := 5 }))) .hub).crcFails = 5 := by decide +kernel

/-- Module 1 has been out of ACTIVE since 0 while module 2 is ACTIVE. -/
def failing : State := (lnk 6 fun _ x => { x with active := true }).setLk 3 2 .hub { st := 4, link := some {} }
theorem wit_retire : (side (out (.moduleRetireTimer 3 1) (at_ 12000 failing)) .hub).st = 7 ∧
    ((out (.moduleRetireTimer 3 1) (at_ 12000 failing)).lk 3 2 .hub).outbox.map (fun l => (l.lm.code, l.lm.args)) = [(0x38, [1, 4095])] ∧
    (out (.moduleRetireTimer 3 1) (at_ 12000 failing)).raised = [srcSITE 3 8] ∧
    (side (out (.moduleRetireTimer 3 1) (at_ 11999 failing)) .hub).st = 6 := by decide +kernel
def retiredHub : State := (lnk 7 (onEnd .hub (held [lfr 0 1, lfr 1 1]))).setLk 3 2 .hub { st := 4, link := some {}, retSync := [(1, 4095, 0, false)] }
theorem wit_retireSync : ((out (.retireSync 3 2 .hub 1 0 []) retiredHub).lk 3 2 .hub).resend = [devFrame] ∧
    ((out (.retireSync 3 2 .hub 1 4095 []) retiredHub).lk 3 2 .hub).resend = [devFrame, devFrame] ∧
    (side (out (.retireSync 3 2 .hub 1 0 []) retiredHub) .hub).link = none ∧
    ((out (.retireSyncRepeat 3 2 .hub) (at_ 200 retiredHub)).lk 3 2 .hub).outbox.map (fun l => (l.lm.code, l.lm.args)) = [(0x38, [1, 4095])] ∧
    ((out (.retireSyncRepeat 3 2 .hub) (at_ 199 retiredHub)).lk 3 2 .hub).outbox = [] := by decide +kernel

def idleAble : State := (lnk 4).put (pgLNK 3) (Fld.LNK_CTL_IDLE_EN 1) 1
def idleAsked (a b : Option Nat) : State := lnk 4 fun _ x => { x with idleReq := a, idleAck := b }
theorem wit_idle : idleAble.idleReady 3 1 .hub = true ∧ idleAble.idleThresh 3 .hub = 1000 ∧
    codes (out (.idleEntryStart 3 1 .hub) (at_ 1000 idleAble)) .hub = [(0x40, [])] ∧
    codes (out (.idleEntryStart 3 1 .hub) (at_ 999 idleAble)) .hub = [] ∧
    codes (out (.idleReq 3 1 .die []) idleAble) .die = [(0x41, [])] ∧ codes (out (.idleReq 3 1 .die []) (lagging 9)) .die = [(0x42, [])] ∧
    (side (out (.idleAck 3 1 .die []) (idleAsked (some 0) none)) .die).st = 5 ∧
    (side (out (.idleReq 3 1 .hub []) (idleAsked (some 0) none)) .hub).st = 5 ∧
    (side (out (.idleReq 3 1 .die []) (idleAsked (some 0) none)) .die).idleAck = some 0 ∧
    (side (out (.idleNak 3 1 .die []) (idleAsked (some 0) none)) .die).idleReq = none ∧
    (side (out (.idleTimeout 3 1 .die) (at_ 200 (idleAsked (some 0) none))) .die).idleReq = none ∧
    (side (out (.idleTimeout 3 1 .die) (at_ 199 (idleAsked (some 0) none))) .die).idleReq = some 0 ∧
    (side (out (.clkStopSeen 3 1 .die) (idleAsked none (some 0))) .die).st = 5 ∧
    (side (out (.trkBeacon 3 1 .die) (at_ 9 (lnk 5))) .hub).lastRx = 9 ∧
    (side (out (.moduleWake 3 1) (lnk 5)) .hub).st = 4 ∧ (side (out (.moduleWake 3 1) (lnk 5)) .die).st = 4 := by decide +kernel

/-- Clauses of the link statements that the states above do not meet. -/
theorem wit_linkMore : (side (out (.surveyDone 3 1 .hub []) (lnk 4)) .hub).st = 1 ∧
    (side (out (.calibrationComplete 3 1 .die 5 true 900) (lnk 2 fun _ x => { x with calRecv := true })) .die).st = 3 ∧
    (side (out (.mapPropose 3 1 .hub 8 0 []) (lnk 3 fun _ x => { x with mapSeq := 7, earlyConf := some (0, 0) })) .hub).st = 4 ∧
    (side (out (.mapConfirm 3 1 .hub 8 1 2 []) (lnk 3 fun _ x => { x with mapSeq := 7 })) .hub).earlyConf = some (1, 2) ∧
    (side (out (.mapConfirm 3 1 .hub 9 1 2 []) (lnk 3 fun _ x => { x with mapSeq := 7 })) .hub).mm = 1 ∧
    (side (out (.clkLost 3 1 .die true [] [] [] true) (lnk 4 fun _ x => { x with mapSeq := 7 })) .hub).mapSeq = 0 ∧
    (side (out (.clkLost 3 1 .die true [] [] [] true) (lnk 4 fun _ x => { x with mapSeq := 7 })) .hub).st = 6 ∧
    (out (.clkLost 3 1 .die true [] [] [] false) (lnk 4)) = lnk 4 ∧
    (side (out (.dataFrame 3 1 .hub [devFrame] []) (dieHas (lnk 4 (onEnd .hub fun x => { x with repFinish := true })))) .hub).repFinish = false := by
  decide +kernel
/-- Module 2 is IDLE, so the RETIRE_SYNC of module 1 waits; later module 2 is ACTIVE and module 3 not. -/
def idling : State := (lnk 6 fun _ x => { x with active := true }).setLk 3 2 .hub { st := 5, link := some {} }
def syncMoves : State := (up.setLk 3 3 .hub { st := 6, retSync := [(1, 4095, 0, false)] }).setLk 3 2 .hub { st := 4, link := some {} }
theorem wit_syncDue : (side (out (.moduleRetireTimer 3 1) (at_ 12000 idling)) .hub).syncDue = true ∧
    ((out (.retireSyncRepeat 3 3 .hub) (at_ 200 syncMoves)).lk 3 2 .hub).outbox.map (fun l => (l.lm.code, l.lm.args)) = [(0x38, [1, 4095])] ∧
    ((out (.retireSync 3 2 .hub 1 4095 []) failing).lk 3 1 .hub).st = 7 := by decide +kernel

/-! ### Traverse and Boundary -/

/-- The Datum block of a Qorsy C32 with serial number 9. Its keys, its signatures (ECDSA P-384 over SHA-384) and its CRC (that of the
polynomial of R449) were made by an independent program. -/
def big (n : Nat) : List Nat := (bytesOf n 96).map (·.toNat)
def dieKey : List Nat := big
  0x3A71C1E6AB14441833FBE80A6D687731EB1A90B63365988CE8DED55477444B28C5E7000AE937580F2DF94074C796A68FBC846D83C3DBBC0AE697A21C4A2F8837B08365E5CB61664FC58FF9BF1DE508F267E425A05EAC3C5777C751C2A224DE11
def vendorKey : List Nat := big
  0xF11D2F0A60285FB698D2B5E46BBD4AC2AC1E11DC0E4C68F7A55A11851CB4208599FCA90296BE0B7D83420C0BCAF795C931C80005C7E5D7020D582650AEBB08B4A66D56D340F2A4BE06CD2D2010399DCB987DDC5F7E3C796414FA6F60D4417A07
def vendorSig : List Nat := big
  0x169788E48BC8F38F42377D2388B5680EF4700AA3ECCD695EBA561DD04F435BD7EF88863ED92509629B1D3E5EFD172532485B624BF421BAEFFD6ADF5A3197C00EB4CF5F359491DE74BE97EAF9C552FDEB9530F0FEEA03A9F1B9E558544652D1BF
def dieSig : List Nat := big
  0x115F8A4410A3C2443F3C5154B681EEEEBB1F302CCCA36C10C03F1F0B2300878C45806410784B7814811ADB47C9D0DA3B485B624BF421BAEFFD6ADF5A3197C00EB4CF5F359491DE74BE97EAF9C552FDEB9530F0FEEA03A9F1B9E558544652D1BF
def datumHead : List Nat := (List.range 64).map fun i => Tab.getD i 0
  [(0, 1), (3, 2), (4, 1), (6, 0x32), (7, 0x0C), (10, 1), (11, 2), (12, 7), (21, 0x80), (25, 2), (26, 32), (28, 48), (30, 27), (40, 9)]
def datum : List Nat := datumHead ++ dieKey ++ vendorKey ++ vendorSig ++ dieSig ++ List.replicate 60 0 ++ [247, 245, 30, 117]
def rootKey : List Nat := big
  0x8CEF12C5DA4C66649E8FA732DE4ED8305622BD1DD02CC9D9299779ED67D8611A4790168CDBEF52BA881BE46190C97594E1D0B68FB4050F04B2EBB9556F52058B501C7BFA9DCC582DFA5FEAFB97E96FADFEDF4E23BF8E9FF28847CE65731D3C28
def chunk (c : Nat) : List Byte := ((datum.drop (128 * c)).take 128).map (BitVec.ofNat 8)
/-- Both firmware images hold the registry's root key (R451). -/
def rooted (s : State) : State := { s with flash := { s.flash with trust := List.replicate 2 { root := rootKey.map (BitVec.ofNat 8) } } }
set_option maxRecDepth 200000 in
theorem test_datum : datumFormOk datum = true := by decide +kernel
set_option maxRecDepth 200000 in
theorem wit_datumCheck : (rooted up).datumCheck 3 datum true = 1 ∧ up.datumCheck 3 datum false = 4 ∧ up.datumCheck 3 datum true = 5 := by
  decide +kernel

def admitted3 (s : State := up) : State := s.put (pgSITE 3) Fld.SITE_STAT_ADMITTED 1
theorem wit_siteFence : SmithFree (admitted3) ∧ (out (.siteFence 3) admitted3).fenced 3 = true ∧ (out (.siteFence 3) admitted3).admitted 3 = false ∧
    Tab.get? 3 ((out (.siteFence 3) admitted3).homeAt 63).walk = some 12288 := by unfold SmithFree; decide +kernel

def fencedSite : State := { State.reset with pop := 0x8 }
theorem wit_traverse : fencedSite.populated 3 = true ∧ fencedSite.fenced 3 = true ∧ fencedSite.walkClear 3 = true ∧ fencedSite.domOn 3 = false ∧
    bitN ((out (.traverse 3) fencedSite).votes 3) 0 = true ∧
    ((out (.traverse 3) (fencedSite.put pgPWR (Fld.DOM_STAT_STATE 3) 2)).lk 3 0 .hub).st = 1 ∧
    out (.traverse 2) fencedSite = fencedSite := by decide +kernel

/-- The exchange of site 3 on module 1 waits for the answer of a step. -/
def asking (step : Nat) (f : Trav → Trav := id) : State :=
  (lnk 1 fun _ x => { x with helloSent := true, helloRecv := true }).modSite 3 fun x =>
    { x with trav := some (f { step := step, m := 1, bytes := datum, sent := 0, level := 2, caps := 7 }) }
def travStep (s : State) : Option Nat := (s.siteAt 3).trav.map (·.step)
def travRes (s : State) : Nat := s.get (pgSITE 3) Fld.TRAV_RESULT_RESULT
set_option maxRecDepth 200000 in
theorem wit_exchanging : Exchanging (asking 4) 3 1 { step := 4, m := 1, bytes := datum, sent := 0, level := 2, caps := 7 } ∧ SmithFree (asking 4) := by
  refine ⟨⟨by unfold Running; decide +kernel, by decide, by decide, by decide +kernel, rfl, by decide +kernel, ?_⟩, by unfold SmithFree; decide +kernel⟩
  intro l h
  have h' : ((asking 4).lk 3 1 .hub).link.map (·.unacked) = some [] := by decide +kernel
  rw [h] at h'; simpa using h'
theorem wit_datumData : travStep (out (.datumData 3 1 1 (chunk 1) true []) (asking 3 fun t => { t with bytes := datum.take 128, chunk := 1 })) = some 3 ∧
    codes (out (.datumData 3 1 1 (chunk 1) true []) (asking 3 fun t => { t with bytes := datum.take 128, chunk := 1 })) .hub = [(0x08, [2])] ∧
    travRes (out (.datumData 3 1 1 [] true []) (asking 3)) = 3 := by decide +kernel
def lastChunk : State := asking 3 fun t => { t with bytes := datum.take 384, chunk := 3 }
set_option maxRecDepth 200000 in
theorem wit_datumLast : travRes (out (.datumData 3 1 3 (chunk 3) true []) lastChunk) = 5 ∧ datum.take 384 ++ (chunk 3).map (·.toNat) = datum := by
  decide +kernel
set_option maxRecDepth 200000 in
theorem wit_lastChunk : travStep (out (.datumData 3 1 3 (chunk 3) true []) (rooted lastChunk)) = some 4 := by decide +kernel
/-- The nonce of a challenge, and the die's signature of nonce, site number and SERIAL, by the same program. -/
def nonceOf (t : Trav) : Trav := { t with nonce := 0x102030405060708090a0b0c0d0e0f101112131415161718191a1b1c1d1e1f202122232425262728292a2b2c2d2e2f }
def chalSig : Nat :=
  0xFF118BEECE65DA986B31E7D56EA04DDC60D390F955301F54C2BFFF7CCCEAA21714325E0C5CEAA6D88F088E30C17CCB1D485B624BF421BAEFFD6ADF5A3197C00EB4CF5F359491DE74BE97EAF9C552FDEB9530F0FEEA03A9F1B9E558544652D1BF
set_option maxRecDepth 200000 in
theorem wit_challenge : (asking 4 nonceOf).chalOk 3 chalSig = true ∧ (asking 4).chalOk 3 chalSig = false ∧
    codes (out (.chalRsp 3 1 chalSig []) (asking 4 nonceOf)) .hub = [(0x0C, [3, 12, 96, 32])] ∧
    travRes (out (.chalRsp 3 1 0 []) (asking 4 nonceOf)) = 10 := by decide +kernel
theorem wit_exchange : codes (out (.assignAck 3 1 [3, 12, 96, 32] []) (asking 5)) .hub = [(0x0E, [2, 1, 7])] ∧
    travRes (out (.assignAck 3 1 [] []) (asking 5)) = 11 ∧
    codes (out (.negAnswer 3 1 2 5 []) (asking 6)) .hub = [(0x03, [2, 5])] ∧ travRes (out (.negAnswer 3 1 2 8 []) (asking 6)) = 11 ∧
    travRes (out (.negAnswer 3 1 1 5 []) (asking 6)) = 11 ∧
    codes (out (.negCommit 3 1 .hub 2 7 []) (asking 7)) .hub = [(0x02, [])] ∧ travRes (out (.negCommit 3 1 .hub 2 6 []) (asking 7)) = 11 ∧
    travStep (out (.negCommit 3 1 .hub 0 0 []) (asking 5)) = some 5 := by decide +kernel
/-- The die presents at later times the bytes it presented first (R451). -/
def presented : State := out (.datumReq 3 1 1 (chunk 1) []) (asking 3)
set_option maxRecDepth 200000 in
theorem wit_die : codes presented .die = [(0x09, 1 :: (chunk 1).map (·.toNat))] ∧
    codes (out (.datumReq 3 1 1 (chunk 2) []) presented) .die = [(0x09, 1 :: (chunk 1).map (·.toNat)), (0x09, 1 :: (chunk 1).map (·.toNat))] ∧
    codes (out (.chal 3 1 7 []) (asking 4)) .die = [(0x0B, [7])] ∧
    codes (out (.assign 3 1 3 12 96 32 []) (asking 5)) .die = [(0x0D, [3, 12, 96, 32])] ∧
    codes (out (.negOffer 3 1 2 7 []) (asking 6)) .die = [(0x0F, [2, 7])] ∧ codes (out (.negCommit 3 1 .die 2 7 []) (asking 7)) .die = [(0x03, [2, 7])] ∧
    ((out (.travFence 3 1 5 []) up).dieAt 3).refused = some 5 ∧ (side (out (.chal 3 1 7 []) (lnk 4)) .die).st = 1 := by decide +kernel
theorem wit_bounds : travRes (out (.traverseAnswerTimeout 3) (at_ 25001 (asking 3))) = 3 ∧
    out (.traverseAnswerTimeout 3) (at_ 25000 (asking 3)) = at_ 25000 (asking 3) ∧
    travRes (out (.traverseAnswerTimeout 3) (at_ 305001 (asking 4))) = 10 ∧ travRes (out (.traverseAnswerTimeout 3) (at_ 200001 (asking 1))) = 12 ∧
    travRes (out (.traverseAnswerTimeout 3) (at_ 5000001 (asking 9))) = 13 := by decide +kernel
def enabled : State := (lnk 2 fun _ x => { x with link := none }).put (pgLNK 3) (Fld.LNK_CTL_EN 1) 1
theorem wit_firstActive : (side (out (.firstActiveTimeout 3 1) (at_ 5000000 enabled)) .hub).st = 7 ∧
    (side (out (.firstActiveTimeout 3 1) (at_ 4999999 enabled)) .hub).st = 2 := by decide +kernel

/-- Every module of site 3 has trained; the die is the one admitted before. -/
def trained : State :=
  ([0, 2, 3].foldl (fun s m => s.setLk 3 m .hub { st := 7 }) (lnk 4 (s := State.reset))).modSite 3 fun x =>
    { x with trav := some { step := 9, m := 1, bytes := datum, level := 2, caps := 7 }, lastDie := some (1, 0x0C32, 9) }
theorem wit_admit : trained.travTrained 3 = true ∧ (datumAt datum 4 2, datumAt datum 6 2, datumAt datum 40 8) = (1, 0x0C32, 9) ∧
    (out (.traverseAdmit 3) trained).admitted 3 = true ∧ (out (.traverseAdmit 3) trained).fenced 3 = false ∧
    (out (.traverseAdmit 3) trained).get (pgSITE 3) Fld.BND_OUT_MAX = 512 := by decide +kernel
/-- A first admission loads the allowlist of R476 for a Qorsy C32 with XLAT_ORIG committed, and its one window over the whole address space. -/
def firstTime : State := out (.traverseAdmit 3) (trained.modSite 3 fun x => { x with lastDie := none })
theorem test_defaults : [0, 1, 2, 3].map (fun i => firstTime.reg (pgSITE 3) (Reg.BND_ALLOW i)) = [0x00000FFE, 0, 0x000E0018, 0x00030103] ∧
    firstTime.windowGrants 3 0xFFFFFFFFFF000 = 7 ∧ firstTime.reg (pgSITE 3) Reg.BND_ACT = 0xA005A := by decide +kernel

/-- Site 3 admitted with the defaults of a Qorsy C32 and room for two requests. -/
def bounded : State := (firstTime.put pgPWR Fld.PWR_STAT_STATE 0).put (pgSITE 3) Fld.BND_OUT_MAX 2
def dieWants (op : BitVec 7) : Pkt := { req op.toNat with vc := 0 }
def arrives (p : Pkt) (s : State := bounded) : State := { s with net := [⟨p, .link 3 1, 0⟩], recs := [], raised := [] }
theorem wit_atBoundary : AtBoundary (arrives (dieWants 4)) 3 1 (dieWants 4) 0 ∧ r469Fails (arrives (dieWants 4)) 3 (dieWants 4) = [false, false, false, false, false] ∧
    (out (.dieUnit 3 1 (dieWants 4)) (arrives (dieWants 4))).net.map (fun e => (e.p.op, e.at_)) = [(4, .out)] ∧
    (out (.dieUnit 3 1 (dieWants 9)) (arrives (dieWants 9))).net.map (fun e => (e.p.op, e.at_)) = [(9, .site 3)] := by
  unfold AtBoundary Running; decide +kernel
/-- A window violation is dropped, a request above MAX_OUT is logged, a wrong SRC is a fence. -/
def closed : State := bounded.setReg (pgSITE 3) (Reg.BND_WIN_BASE_LO 0) 0
def fullOut : State := bounded.put (pgSITE 3) Fld.BND_OUT_COUNT 2
theorem wit_violations : (r469Fails (arrives (dieWants 4) closed) 3 (dieWants 4)).findIdx? id = some 3 ∧
    (out (.dieUnit 3 1 (dieWants 4)) (arrives (dieWants 4) closed)).net.map (fun e => (e.p.op, e.p.addr, e.p.dst)) = [(0x40, 5, 0x0D)] ∧
    (r469Fails (arrives (dieWants 4) fullOut) 3 (dieWants 4)).findIdx? id = some 4 ∧
    (out (.dieUnit 3 1 (dieWants 4)) (arrives (dieWants 4) fullOut)).net.map (fun e => (e.p.op, e.at_)) = [(4, .out)] ∧
    (out (.dieUnit 3 1 (dieWants 4)) (arrives (dieWants 4) fullOut)).get (pgSITE 3) (Fld.BND_CNT_COUNT 4) = 1 ∧
    (r469Fails (arrives { dieWants 4 with src := 0x11 }) 3 { dieWants 4 with src := 0x11 }).findIdx? id = some 1 ∧
    (out (.dieUnit 3 1 { dieWants 4 with src := 0x11 }) (arrives { dieWants 4 with src := 0x11 })).net = [] ∧
    (out (.dieUnit 3 1 (dieWants 4)) (arrives (dieWants 4) State.reset)).get (pgFAB 7) Fld.DISCARD_COUNT = 1 := by decide +kernel

/-- Meter 0 runs at 1 token per us with a depth of 2 and is empty at 0. -/
def metered : State := (bounded.setReg (pgSITE 3) (Reg.BND_METER 0) (1 + 2 * 2 ^ 16 + 2 ^ 31)).modSite 3 fun x => { x with tokens := [(0, 0)] }
def heldUnit : State := metered.modSite 3 fun x => { x with held := [⟨dieWants 4, 1⟩] }
theorem wit_meters : metered.tokensNow 3 0 = 0 ∧ ((out (.dieUnit 3 1 (dieWants 4)) (arrives (dieWants 4) metered)).siteAt 3).held.map (·.p.op) = [4] ∧
    (out (.dieUnit 3 1 (dieWants 4)) (arrives (dieWants 4) metered)).get (pgSITE 3) (Fld.BND_HELD_COUNT 0) = 1 ∧
    (at_ 1500 heldUnit).tokensNow 3 0 = 1500 ∧ (out (.meterRelease 3 1 0) (at_ 1500 heldUnit)).tokensNow 3 0 = 500 ∧
    ((out (.meterRelease 3 1 0) (at_ 1500 heldUnit)).siteAt 3).held = [] ∧ out (.meterRelease 3 1 0) (at_ 999 heldUnit) = at_ 999 heldUnit := by
  decide +kernel

def lateSnoop (op : BitVec 7) : State := up.modSite 3 fun x => { x with snoops := [⟨{ op := op, src := 0x45, dst := 0x0D }, 0, false⟩] }
def sinkUnit : State :=
  { lnk 4 (onEnd .hub fun x => { x with link := some {} }) with net := [⟨{ op := 0x41, src := 0x45, vc := 2, dst := 0x0D }, .rx, 0⟩] }
def lateDev : State := up.modSite 3 fun x => { x with dev := [⟨{ op := 0x70, src := 0xA0, dst := 0x0D, txn := 7, mask := 0xF }, 0⟩] }
theorem wit_timers : (out (.snoopLateTimeout 3) (at_ 2001 (lateSnoop 0x20))).get (pgSITE 3) (Fld.BND_CNT_COUNT 5) = 1 ∧
    (out (.snoopLateTimeout 3) (at_ 10001 (lateSnoop 0x24))).get (pgSITE 3) (Fld.BND_CNT_COUNT 6) = 1 ∧
    out (.snoopLateTimeout 3) (at_ 2000 (lateSnoop 0x20)) = at_ 2000 (lateSnoop 0x20) ∧
    (out (.sinkTimeout 3 1) (at_ 100000 sinkUnit)).get (pgSITE 3) (Fld.BND_CNT_COUNT 8) = 1 ∧
    out (.sinkTimeout 3 1) (at_ 99999 sinkUnit) = at_ 99999 sinkUnit ∧
    (out (.devCplTimeout 3 0xA0 7) (at_ 1 lateDev)).net.map (fun e => (e.p.op, e.p.data, e.p.addr)) = [(0x79, 0xFFFFFFFF, 2)] := by decide +kernel

/-! ### I/O translation -/

/-- The hub with the domains of the IXU, of the network engine and of group 2 on. -/
def ixuOn : State := ((up.put pgPWR (Fld.DOM_STAT_STATE 42) 2).put pgPWR (Fld.DOM_STAT_STATE 49) 2).put pgPWR (Fld.DOM_STAT_STATE 45) 2

def ixuIn (mode : Nat) (f : Ixu → Ixu := id) : State := (ixuOn.put pgIXU Fld.IXU_CTL_MODE mode).modIxu f
def sent (c : Instr) (s : State) : List (BitVec 7 × BitVec 8 × BitVec 46) := (out c s).net.map fun e => (e.p.op, e.p.dst, e.p.addr)

theorem wit_ixuIdle : IxuIdle ixuOn ∧ ixuOn.pageOff pgNE = false ∧ ixuOn.agents = [] ∧ ixuOn.dmas = [] ∧ (pgPCIE 2 |> ixuOn.pageOff) = false ∧
    ixuOn.frozen = false := by unfold IxuIdle Running; decide +kernel

/-- A broadcast of module 1 of site 3: INV_SPACE of SPACE 5, VMID 7. -/
def bcast (c : Nat) (op : BitVec 7 := 0x0A) : Pkt :=
  { op := op, src := 0x0D, txn := 3, dst := 0x0D, hasData := true, data := BitVec.ofNat 512 c, mask := BitVec.allOnes 64 }
def inv5 : Nat := 1 + 5 * 2 ^ 8 + 7 * 2 ^ 28
def cf9 : State := ixuOn.put (pgSITE 9) Fld.SITE_STAT_ADMITTED 1
def xl (s : State) : List (BitVec 7 × List Nat × Bool) := (s.siteAt 3).xlat.map fun x => (x.p.op, x.waits, x.err)

theorem wit_broadcasts : r499 inv5 ∧ invWellFormed (inv5 + 0x80) = false ∧ cf9.admitted 9 = true ∧ cf9.fenced 9 = false ∧
    sent (.xlatInv (bcast inv5)) cf9 = [(0x24, nodeIXU, 0), (0x24, nodeNE, 0), (0x24, 0x24, 0)] ∧
    xl (out (.xlatInv (bcast inv5)) cf9) = [(0x0A, [16, 17, 9], false)] ∧
    sent (.xlatInv (bcast (inv5 + 0x80))) cf9 = [(0x44, 0x0D, 2)] ∧ sent (.xlatInv (bcast 5)) cf9 = [(0x44, 0x0D, 2)] ∧
    xl (out (.xlatSync (bcast 0 0x0B)) (out (.xlatInv (bcast inv5)) cf9)) = [(0x0A, [16, 17, 9], false), (0x0B, [], false)] ∧
    (sent (.xlatSync (bcast 0 0x0B)) cf9).length = 3 := by
  unfold r499; decide +kernel

/-- The command forwarded to a node. -/
def fwd (c : Nat) (n : BitVec 8) : Pkt := { op := 0x24, src := 0x0D, txn := 3, dst := n, hasData := true, data := BitVec.ofNat 512 c, mask := 0xFFFF }
/-- Entries of SPACE 5 and 6 under VMID 7. -/
def leaf (space : Nat) : Tlb := { space := space, vmid := 7, va := 0x4000, size := 0, pa := 0x9000, r := true, w := true }
def cached : State := (ixuIn 2 fun x => { x with tlb := [leaf 5, leaf 6] }).modNe fun n => { n with tlb := [leaf 5, leaf 6] }
theorem wit_invFwd : IxuIdle cached ∧ (out (.xlatInvFwd (fwd inv5 nodeIXU)) cached).ixu.tlb = [leaf 6] ∧
    (out (.xlatInvFwd (fwd inv5 nodeNE)) cached).ne.tlb = [leaf 6] ∧ (out (.xlatInvFwd (fwd inv5 nodeNE)) cached).ixu.tlb = [leaf 5, leaf 6] ∧
    sent (.xlatInvFwd (fwd inv5 nodeIXU)) cached = [(0x44, 0x0D, 0)] ∧ sent (.xlatInvFwd (fwd 6 nodeIXU)) cached = [(0x44, 0x0D, 0)] ∧
    sent (.xlatInvFwd (fwd 0 nodeIXU)) cached = [(0x44, 0x0D, 2)] ∧ sent (.xlatInvFwd (fwd inv5 nodeNE)) cached = [(0x44, 0x0D, 0)] ∧
    sent (.xlatInvFwd (fwd inv5 0x11)) cached = [(0x44, 0x0D, 0)] ∧ sent (.xlatInvFwd (fwd 0 0x11)) cached = [(0x44, 0x0D, 2)] := by
  unfold IxuIdle Running; decide +kernel

def waiting (w : List Nat) (e : Bool) : State :=
  ixuOn.modSite 3 fun x => { x with xlat := [{ p := bcast inv5, started := true, waits := w, err := e }] }
def xack (n : BitVec 8) (st : BitVec 46) : Pkt := { op := 0x44, src := n, txn := 3, dst := 0x0D, addr := st }
theorem wit_xlatAck : sent (.xlatAck (xack nodeIXU 0)) (waiting [16] false) = [(0x44, 0x0D, 0)] ∧
    sent (.xlatAck (xack nodeNE 2)) (waiting [17] false) = [(0x44, 0x0D, 2)] ∧ sent (.xlatAck (xack nodeIXU 0)) (waiting [16] true) = [(0x44, 0x0D, 2)] ∧
    xl (out (.xlatAck (xack nodeIXU 2)) (waiting [16, 17] false)) = [(0x0A, [17], true)] ∧
    sent (.xlatTargetTimeout 0x0D 3 9) (at_ 20000 (waiting [9] false)) = [(0x44, 0x0D, 2)] ∧
    out (.xlatTargetTimeout 0x0D 3 9) (at_ 19999 (waiting [9] false)) = at_ 19999 (waiting [9] false) := by decide +kernel

def dma7 (acc : Nat) : Instr := .dmaTranslate 2 7 0x4010 acc false 0 0 0 false false
def ready (c : Instr) (s : State) : List (DmaSt × Nat) := (out c s).dmas.map fun e => (e.2.st, e.2.pa)
def soft7 : Tlb := { leaf 0 with stream := some 7 }
theorem wit_blockSoft : (out (dma7 0) (ixuIn 0)).dmaAns.map (fun a => (a.rid, a.status)) = some (7, 2) ∧
    ((out (dma7 0) (ixuIn 0)).recs.map fun r => (r.typ, r.sub)) = [(0x0F, 2)] ∧
    (out (dma7 1) (ixuIn 0 fun x => { x with blockNoted := true })).recs = [] ∧
    ready (dma7 1) (ixuIn 1 fun x => { x with loaded := [soft7] }) = [(.ready, 0x9010)] ∧
    ready (dma7 1) (ixuIn 1) = [(.stalled 0, 0)] ∧ (out (dma7 1) (ixuIn 1)).get pgIXU Fld.SOFT_MISS_INFO_STREAM = 7 := by decide +kernel
/-- Binding records: BYPASS; a MODE 2 stream of SPACE 5, VMID 7, root 0x100000, with A and D updates, and one that may use ATS. -/
def bypass : Nat := 1
def mode2 : Nat := 2 + 16 + 5 * 2 ^ 12 + 7 * 2 ^ 32 + 0x100 * 2 ^ 76
theorem wit_hw : bindOk bypass = true ∧ bindMode bypass = 1 ∧ bindOk mode2 = true ∧ bindMode mode2 = 2 ∧ bindAts mode2 = false ∧
    ready (dma7 1) (ixuIn 2 fun x => { x with binds := [(7, bypass)] }) = [(.ready, 0x4010)] ∧
    ready (dma7 1) (ixuIn 2 fun x => { x with binds := [(7, mode2)], tlb := [leaf 5] }) = [(.ready, 0x9010)] ∧
    sent (dma7 0) ((ixuIn 2).put pgIXU (Fld.BIND_TAB_LO_LOG2 0) 8) = [(0x04, nodeHome (ixuOn.home 224), 3)] ∧
    isMemRange 224 = true ∧ (out (dma7 0) (ixuIn 2)).get pgIXU Fld.FQ_OVF_CNT_COUNT = 1 ∧
    ((out (.atsTranslationRequest 2 7 0x4000) (ixuIn 1)).dmaAns.map fun a => (a.rid, a.r, a.w)) = some (7, false, false) ∧
    ((out (.atsTranslationRequest 2 7 0x4000) (ixuIn 2 fun x => { x with binds := [(7, mode2)] })).dmaAns.map fun a => (a.rid, a.r, a.w)) =
      some (7, false, false) := by decide +kernel

/-- DMA 0, a read of stream 7 at 0x4010, whose walk waits for the answer to TXN 0 of the IXU. -/
def dma0 : Dma := { who := 2, rid := 7, stream := 7, va := 0x4010, acc := 0, kind := 2 }
def ixWalk (w : Walk) (s : State := ixuIn 2) : State :=
  { (s.put pgIXU (Fld.BIND_TAB_LO_LOG2 0) 8) with
    dmas := [(0, dma0)], dmaSeq := 1, agents := [(State.agentKey nodeIXU 0, { p := { op := 0x04, src := nodeIXU }, use := .walk 0 })]
    ixu := { s.ixu with walks := [(0, w)] } }
def reply (v off : Nat) (psn : Bool := false) : Pkt :=
  { op := 0x54, src := 0x43, dst := nodeIXU, last := true, psn := psn, hasData := true, data := BitVec.ofNat 512 (v * 2 ^ (8 * off)), mask := BitVec.allOnes 64 }
theorem wit_walkWaits : WalkWaits (ixWalk { wait := .binding }) (reply bypass 32) 0 dma0 { wait := .binding } :=
  ⟨by unfold IxuIdle Running; decide +kernel, by decide +kernel, by decide +kernel, ⟨_, rfl⟩, by decide +kernel, by decide +kernel, by decide, by decide⟩
def rets (s : State) : Option (Nat × Nat) := s.dmaAns.map fun a => (a.rid, a.status)
theorem wit_binding : (ixWalk { wait := .binding }).bindAddr 7 = some 224 ∧
    ready (.walkReadReturn (reply bypass 32)) (ixWalk { wait := .binding }) = [(.ready, 0x4010)] ∧
    (out (.walkReadReturn (reply bypass 32)) (ixWalk { wait := .binding })).ixu.binds = [(7, bypass)] ∧
    rets (out (.walkReadReturn (reply 0 32)) (ixWalk { wait := .binding })) = some (7, 2) ∧
    sent (.walkReadReturn (reply mode2 32)) (ixWalk { wait := .binding }) = [(0x04, nodeHome (ixuOn.home 0x100000), 0x4000)] := by decide +kernel
/-- Entries: not valid; a table at 0x200000; leaves of page 0x9000 with U and R, with A, without it, and without R. -/
def table : Nat := 3 + 0x200000
def leafA : Nat := 1 + 4 + 32 + 128 + 0x9000
def leafNoA : Nat := 1 + 4 + 32 + 0x9000
def leafNoR : Nat := 1 + 32 + 128 + 0x9000
def atEntry (lv : Nat) (b : Nat := mode2) : State := ixWalk { wait := .entry 0x5008, bind := b, level := lv, tbl := 0x5000 }
theorem wit_entries : rets (out (.walkReadReturn (reply 0 8)) (atEntry 2)) = some (7, 2) ∧
    sent (.walkReadReturn (reply table 8)) (atEntry 2) = [(0x04, nodeHome (ixuOn.home 0x200000), 0x8000)] ∧
    ready (.walkReadReturn (reply leafA 8)) (atEntry 0) = [(.ready, 0x9010)] ∧
    (out (.walkReadReturn (reply leafA 8)) (atEntry 0)).ixu.tlb.map (fun x => (x.va, x.pa, x.r, x.w)) = [(0x4000, 0x9000, true, false)] ∧
    rets (out (.walkReadReturn (reply leafNoR 8)) (atEntry 0)) = some (7, 2) ∧
    sent (.walkReadReturn (reply leafNoA 8)) (atEntry 0) = [(0x07, nodeHome (ixuOn.home 0x5008), 0x140)] ∧
    rets (out (.walkReadReturn (reply leafNoA 8)) (atEntry 0 (mode2 - 16))) = some (7, 2) ∧
    rets (out (.walkReadReturn (reply leafA 8 true)) (atEntry 0)) = some (7, 2) := by decide +kernel
def updating (fails : Nat) : State :=
  ixWalk { wait := .update 0x5008 leafNoA leafA false, bind := mode2, fails := fails, keep := false,
            leaf1 := some ⟨leafNoA, 0, 0x5008⟩ }
theorem wit_update : ready (.adUpdateReturn (reply leafNoA 8)) (updating 0) = [(.ready, 0x9010)] ∧
    rets (out (.adUpdateReturn (reply 0 8)) (updating 3)) = some (7, 2) ∧
    sent (.adUpdateReturn (reply 0 8)) (updating 2) = [(0x04, nodeHome (ixuOn.home 0x100000), 0x4000)] := by decide +kernel

def cqAt (f : Ixu → Ixu := id) : State := (ixuIn 2 f).put pgIXU Fld.CQ_TAIL_INDEX 1
def cmd (op : Nat) : Nat := op + 5 * 2 ^ 8 + 7 * 2 ^ 28
def head (s : State) : Nat := s.get pgIXU Fld.CQ_HEAD_INDEX
theorem wit_cqTail : sent (.cqTailWrite 3) (ixuIn 2) = [(0x04, nodeHome (ixuOn.home 0), 0)] ∧
    sent .resume ((cqAt).put pgIXU Fld.IXU_STAT_CQ_HALT 1) = [(0x04, nodeHome (ixuOn.home 0), 0)] := by decide +kernel
def held5 (c : Nat) : Ixu → Ixu := fun x => { x with cqCmd := some c, tlb := [leaf 5, leaf 6], loaded := [soft7], binds := [(7, mode2)] }
theorem wit_cqInv : (out .invSpace (cqAt (held5 inv5))).ixu.tlb = [leaf 6] ∧ head (out .invSpace (cqAt (held5 inv5))) = 1 ∧
    sent .invSpace (cqAt (held5 inv5)) = [(0x24, nodeNE, 0)] ∧ (out .invVaRange (cqAt (held5 (cmd 2 + 4 * 2 ^ 64)))).ixu.tlb = [leaf 6] ∧
    (out .invVaRange (cqAt (held5 (cmd 2 + 5 * 2 ^ 64)))).ixu.tlb = [leaf 5, leaf 6] ∧ (out .invVmid (cqAt (held5 (3 + 7 * 2 ^ 28)))).ixu.tlb = [] ∧
    (out .invWalk (cqAt (held5 (cmd 4 + 4 * 2 ^ 64)))).ixu.tlb = [leaf 6] ∧ (out .invBind (cqAt (held5 (5 + 7 * 2 ^ 8)))).ixu.loaded = [] ∧
    (out .ixuInvAll (cqAt (held5 7))).ixu.binds = [] ∧ (out .ixuInvAll (cqAt (held5 7))).ixu.tlb = [] := by decide +kernel
def sync6 (c : Nat) (n : List Nat := []) : State := cqAt fun x => { x with cqCmd := some c, neOut := n }
theorem wit_cqSync : head (out .ixuSync (sync6 (6 + 32))) = 1 ∧ (out .ixuSync (sync6 (6 + 32))).raised = [srcWide 3] ∧
    head (out .ixuSync (sync6 6 [2])) = 0 ∧ isMemRange (0x1010 * 4) = true ∧
    sent .ixuSync (sync6 (6 + 64 + 0xBEEF * 2 ^ 32 + 0x1010 * 2 ^ 66)) = [(0x06, nodeHome (ixuOn.home 0x4040), 0x101)] ∧
    head (out .ixuSync (sync6 (6 + 64 + 0x1010 * 2 ^ 66))) = 0 := by decide +kernel
def cqReading (u : AgUse) (f : Ixu → Ixu) : State :=
  { ixuIn 2 f with agents := [(State.agentKey nodeIXU 0, { p := { op := 0x04, src := nodeIXU }, use := u })] }
def fqW (hd : Nat) : State := ((cqReading .fault fun x => { x with fqBusy := true }).put pgIXU Fld.FQ_BASE_LO_LOG2 4).put pgIXU Fld.FQ_HEAD_INDEX hd
theorem wit_cqFetch : (out (.cqFetch (reply inv5 0)) (cqReading .cqRead fun x => { x with cqBusy := true })).ixu.cqCmd = some inv5 ∧
    (out (.cqFetch (reply 0 0)) (cqReading .cqRead fun x => { x with cqBusy := true })).get pgIXU Fld.CQ_ERR_CAUSE = 1 ∧
    (out (.cqFetch (reply 0 0)) (cqReading .cqRead fun x => { x with cqBusy := true })).flag pgIXU Fld.IXU_STAT_CQ_HALT = true ∧
    (out (.faultRecordCmp (reply 0 0)) (fqW 0)).get pgIXU Fld.FQ_TAIL_INDEX = 1 ∧ (out (.faultRecordCmp (reply 0 0)) (fqW 0)).raised = [srcWide 2] ∧
    (out (.faultRecordCmp (reply 0 0)) (fqW 3)).raised = [] := by decide +kernel
def ats1 (now : Nat) : State := at_ now (ixuIn 2 fun x => { x with ats := [{ id := 4, stream := 7, since := 0 }] })
def atsTo : Nat := 1000000 * (ixuIn 2).get pgIXU Fld.ATS_CFG_TO_MS
def stalled (now : Nat) : State := { ixuIn 1 with dmas := [(0, { dma0 with st := .stalled 0 })], time := now }
def loadRegs : State :=
  ((((ixuIn 1).put pgIXU Fld.LOAD_STREAM_STREAM 7).put pgIXU Fld.LOAD_VA_LO_VA_LO 4).put pgIXU Fld.LOAD_PA_LO_PA_LO 9).put pgIXU Fld.LOAD_PA_LO_R 1
theorem wit_ats : (out (.atsInvComplete 4) (ats1 0)).ixu.ats = [] ∧ 0 < atsTo ∧ (out (.atsInvTimeout 4) (ats1 atsTo)).ixu.blocked = [7] ∧
    out (.atsInvTimeout 4) (ats1 0) = ats1 0 ∧ rets (out (.softMissTimeout 0) (stalled 1000000)) = some (7, 2) ∧
    out (.softMissTimeout 0) (stalled 999999) = stalled 999999 ∧
    (out .load loadRegs).ixu.loaded = [{ soft7 with vmid := 0, w := false }] ∧ (out .load loadRegs).get pgIXU Fld.LOAD_STAT_COUNT = 1 ∧
    (out .load ((ixuIn 1).modIxu fun x => { x with loaded := List.replicate 8192 soft7 })).flag pgIXU Fld.LOAD_STAT_FULL = true ∧
    (out .loadInvAll (ixuIn 1 fun x => { x with loaded := [soft7] })).ixu.loaded = [] := by decide +kernel

/-! ### Optics and Ember modules -/

/-- The ROM of an EM8 of vendor 9 with serial number 3, and one with `ch` channels: 35,000 hours, standby 20%, bias 100 and power floor 50 of
every channel. Its signatures and CRC were made by the program that made the Datum block's. -/
def romParts (ch : Nat) : Tab Nat := [(0, 1), (3, 2), (4, 9), (6, 0x08), (7, 0x0E), (9, ch), (12, 0xB8), (13, 0x88), (16, 20), (24, 3)] ++
  ((List.range 8).map fun k => (32 + 2 * k, 100)) ++ ((List.range 8).map fun k => (48 + 2 * k, 50))
def romOf (ch : Nat) (sig : Nat) (crc : List Nat) : List Byte :=
  (((List.range 64).map fun i => Tab.getD i 0 (romParts ch)) ++ dieKey ++ vendorKey ++ big
    0x83E80BF07BB84E437AA45F5B318F69F2398D274DE0A229045FC2973E52AA894E08C25459D64ED4862885C7139583806485B624BF421BAEFFD6ADF5A3197C00EB4CF5F359491DE74BE97EAF9C552FDEB9530F0FEEA03A9F1B9E558544652D1BF
    ++ big sig ++ List.replicate 60 0 ++ crc).map (BitVec.ofNat 8)
def rom : List Byte := romOf 8
  0x646EA1B6EA6558DB7F4D2D5D82DA7D3C84A78917DBE448D7EC4DD2DBA1C263533C8B1B8E060ABAF97ADB5EC38C6D7183485B624BF421BAEFFD6ADF5A3197C00EB4CF5F359491DE74BE97EAF9C552FDEB9530F0FEEA03A9F1B9E558544652D1BF [254, 64, 48, 78]
set_option maxRecDepth 200000 in
theorem wit_rom : romFormOk rom ∧ romModelOk rom ∧ leAt rom 4 2 = 9 ∧ leAt rom 12 4 = 35000 := by unfold romFormOk romModelOk; decide +kernel

/-- Module 1 is present and verified, engine 0 and port 1 are on, lane 5 is fed by module 1. -/
def emb (f : Ember → Ember) (s : State := up) : State := s.modEmb 1 f
def present : State := { (emb fun x => { x with since := some 0 }).put (pgEMB 1) Fld.EMB_STAT_PRESENT 1 with time := 100000000 }
def res (s : State) : Nat := s.get (pgEMB 1) Fld.EMB_STAT_RESULT
def recCodes (s : State) : List (Nat × Nat × List Nat) := s.recs.map fun r => (r.typ, r.sub, r.words)
set_option maxRecDepth 200000 in
theorem wit_insert : (out (.emberPresentAssert 1) up).flag (pgEMB 1) Fld.EMB_STAT_PRESENT = true ∧
    res (out (.emberInsert 1 rom true true) (rooted present)) = 1 ∧ (out (.emberInsert 1 rom true true) (rooted present)).get (pgEMB 1) (Fld.EMB_ROM_BYTES 1) = 0x0E080009 ∧
    recCodes (out (.emberInsert 1 rom false true) present) = [(0x10, 0, [1 + 256 * 3])] ∧
    res (out (.emberInsert 1 (rom.set 20 1) true true) present) = 4 ∧ res (out (.emberInsert 1 rom true false) present) = 5 ∧
    res (out (.emberInsert 1 rom true true) present) = 6 ∧
    out (.emberInsert 1 rom true true) (at_ 99999999 present) = at_ 99999999 present := by decide +kernel
/-- The same ROM with CHANNELS 7. -/
def rom7 : List Byte := romOf 7
  0xD82E89430B1179AFDA046F05D8EBE0A401C1AECE7EA1FDDE263EAF8544E2FB8707BCFCEFB5C68AD361445C8CB7A5D685485B624BF421BAEFFD6ADF5A3197C00EB4CF5F359491DE74BE97EAF9C552FDEB9530F0FEEA03A9F1B9E558544652D1BF [150, 125, 232, 10]
set_option maxRecDepth 200000 in
theorem wit_model : romFormOk rom7 ∧ res (out (.emberInsert 1 rom7 true true) (rooted present)) = 7 := by unfold romFormOk; decide +kernel

def engOn (s : State) : State := (s.put pgPWR (Fld.DOM_STAT_STATE 37) 2).put pgPWR (Fld.DOM_STAT_STATE 40) 2
def challenged : State :=
  engOn ((emb (fun x => { x with chal := some 0, rom := rom, nonce := 0x2f2e2d2c2b2a292827262524232221201f1e1d1c1b1a191817161514131211100f0e0d0c0b0a09080706050403020100 }) present).put (pgEMB 1) Fld.EMB_STAT_RESULT 1)
def embSig : List Byte := (big
  0xE2E5B1981E99C252DCBBA8262A154DC0808BDE0F3F85B5A638E71A9F886EF8CB0AD41D665558C09A681414E1B4A81C24485B624BF421BAEFFD6ADF5A3197C00EB4CF5F359491DE74BE97EAF9C552FDEB9530F0FEEA03A9F1B9E558544652D1BF).map (BitVec.ofNat 8)
set_option maxRecDepth 200000 in
theorem wit_embChallenge : res (out (.emberChallengeDone 1 embSig true) challenged) = 2 ∧
    (out (.emberChallengeDone 1 embSig true) challenged).flag (pgEMB 1) Fld.EMB_STAT_LIT = true ∧
    (out (.emberChallengeDone 1 embSig false) challenged).flag (pgEMB 1) Fld.EMB_STAT_LIT = false ∧
    res (out (.emberChallengeDone 1 [] true) challenged) = 8 ∧ res (out (.emberChallengeDone 1 embSig true) (at_ 200000001 challenged)) = 8 := by
  decide +kernel

/-- Modules 0 and 1 are verified and ready, lanes 4 to 7 of engine 0 have the light of module 1. -/
def lit5 : State :=
  let s := engOn (emb (fun x => { x with rom := rom, ready := true, nominal := 0xF0, lit := 0xF0, steady := [(5, 0)] }) present)
  let s := (s.modEmb 0 fun x => { x with ready := true }).put (pgEMB 0) Fld.EMB_STAT_PRESENT 1
  ((s.put (pgEMB 0) Fld.EMB_STAT_RESULT 2).put (pgEMB 1) Fld.EMB_STAT_RESULT 2).put (pgOPT 0) Fld.LANE_SRC_SRC 0xF0
def faultPin (filt : Bool) (s : State) : State := s.modPin (pinEmb 1) fun x => { x with fall := some 0, filt := filt }
theorem wit_lane5 : LaneOf lit5 1 5 ∧ lit5.chanHealthy 0 5 = true ∧ (faultPin false lit5).pinMayAssert (pinEmb 1) = true ∧
    (out (.emberFault 1) (faultPin false lit5)).get (pgEMB 1) Fld.EMB_CHAN_STAT_CH_FAULT = 0xFF ∧
    Tab.get? 5 (out (.emberFault 1) (faultPin false lit5)).lanes = some (0, 0) ∧
    (out (.emberFault 1) (faultPin false lit5)).get (pgOPT 0) Fld.LANE_SRC_DARK = 0 ∧
    (out (.emberFault 1) ((faultPin false lit5).put (pgEMB 0) Fld.EMB_CHAN_STAT_CH_EOL 0x20)).get (pgOPT 0) Fld.LANE_SRC_DARK = 0x20 ∧
    (out (.emberFaultClear 1 4) (faultPin true lit5)).get (pgEMB 1) Fld.EMB_CHAN_STAT_CH_FAULT = 4 := by unfold LaneOf; decide +kernel
theorem wit_remove : (out (.emberRemove 1) lit5).get (pgEMB 1) Fld.EMB_CHAN_STAT_CH_FAULT = 0xFF ∧ res (out (.emberRemove 1) lit5) = 0 ∧
    (out (.emberRemove 1) lit5).flag (pgEMB 1) Fld.EMB_STAT_LIT = false := by decide +kernel
def polled (h b p : Nat) : State := out (.emberPoll 1 true false 4 [1, 2, 3, 4, 5, b] [9, 9, 9, 9, 9, p] [7, h]) (at_ 1000000000 lit5)
theorem wit_poll : (polled 31500 90 60).get (pgEMB 1) Fld.EMB_LIFE_HOURS = 31500 ∧ (polled 31500 90 60).flag (pgEMB 1) Fld.EMB_STAT_LIFE_WARN = true ∧
    recCodes (polled 31500 90 60) = [(0x10, 1, [1])] ∧ (polled 31499 90 60).flag (pgEMB 1) Fld.EMB_STAT_LIFE_WARN = false ∧
    (polled 1 90 60).get (pgEMB 1) Fld.EMB_CHAN_STAT_CH_EOL = 0 ∧ (polled 1 130 60).get (pgEMB 1) Fld.EMB_CHAN_STAT_CH_EOL = 0x20 ∧
    (polled 1 90 49).get (pgEMB 1) Fld.EMB_CHAN_STAT_CH_EOL = 0x20 ∧ (polled 1 90 60).get (pgEMB 1) Fld.EMB_CHAN_STAT_CH_FAULT = 4 := by decide +kernel
def moving (why : Nat) : State := { lit5 with lanes := [(5, (0, why))] }
theorem wit_switch : (moving 0).laneInUse 0 5 = true ∧ (moving 0).chanUsable 0 5 = true ∧ (moving 0).smith.op = none ∧
    (∀ j, j < 8 → j ≠ 5 → (moving 0).laneInUse 0 j = true → (moving 0).laneFed 0 j = true ∧ (moving 0).chanUsable ((moving 0).laneSrc 0 j) j = true) ∧
    (out (.laneSwitch 0 5) (moving 0)).laneSrc 0 5 = 0 ∧ (out (.laneSwitch 0 5) (moving 0)).get (pgOPT 0) Fld.FAILOVER_CNT_COUNT = 1 ∧
    (out (.laneSwitch 0 5) (moving 1)).raised = [] := by decide +kernel
def prefer0 : State := lit5.put (pgOPT 0) Fld.LANE_PREF_PREF 0
theorem wit_apply : prefer0.pageOff (pgOPT 0) = false ∧ (out (.laneApply 0 0x20) prefer0).lanes = [(5, (0, 2))] ∧
    (out (.laneApply 0 0x0F) prefer0).lanes = [] := by decide +kernel

/-! ### The network engine: queue pairs and descriptors -/

/-- VF 3 with pair 5: rings of 16 entries at 0x10000, 0x20000 and 0x30000, the IXU in BYPASS for it. -/
def qp5 : Qp := { sqBase := 0x10000, sqLog := 4, rqBase := 0x20000, rqLog := 4, cqBase := 0x30000, cqLog := 4, dbr := 0, vec := 2, raw := false,
                  rawDefault := false, exc := false }
def neOn (g : Fn → Fn := id) (f : Ne → Ne := id) : State :=
  (({ ixuIn 2 (fun x => { x with binds := [(0x10003, 1)] }) with dmas := [] }).modNe fun n =>
    f { n with vfEn := true, numVfs := 8, qps := [(qpKey 3 5, qp5)] }).modFn 3 fun x => g { x with bme := true }
def withQp (p : Qp) (g : Fn → Fn := id) : State := neOn g fun n => { n with qps := [(qpKey 3 5, p)] }
def qpOf (s : State) : Qp := (s.qp? 3 5).getD { qp5 with sqBase := 1 }
def dmaAt (s : State) : List (Nat × Nat × Nat) := s.dmas.map fun e => (e.2.rid, e.2.acc, e.2.va)
def jobKinds (s : State) : List NeKind := s.ne.jobs.map fun e => e.2.kind

theorem wit_neReady : NeReady neOn 3 ∧ neOn.fnLive 3 = true ∧ neOn.qp? 3 5 = some qp5 ∧ State.cqFree qp5 = 16 := by
  unfold NeReady Running; decide +kernel
theorem wit_sqPi : dmaAt (out (.sqPi 3 5 2) neOn) = [(3, 0, 0x10000)] ∧ jobKinds (out (.sqPi 3 5 2) neOn) = [.sqFetch 5 0] ∧
    qpOf (out (.sqPi 3 5 2) neOn) = { qp5 with sqPi := 2, fetching := true, reserved := 1, sqCi := 1 } ∧
    qpOf (out (.sqPi 3 5 2) (withQp { qp5 with reserved := 16 })) = { qp5 with reserved := 16, sqPi := 2 } ∧
    out (.sqPi 3 5 0) neOn = neOn ∧ ((out (.sqPi 3 5 17) neOn).fnAt 3).qpErr = true ∧ ((out (.sqPi 3 6 2) neOn).fnAt 3).dbDrop = 1 ∧
    out (.sqPi 3 5 2) (neOn fun x => { x with flr := some 0 }) = neOn fun x => { x with flr := some 0 } := by decide +kernel
theorem wit_rqPi : qpOf (out (.rqPi 3 5 16) neOn) = { qp5 with rqPi := 16 } ∧ ((out (.rqPi 3 5 17) neOn).fnAt 3).qpErr = true := by decide +kernel
/-- Two entries written, vector 2 to the message window. -/
def msixOn : Fn → Fn := fun x => { x with msixEn := true, msix := [(2, [0xFF000000, 0xFFEFF, 7, 0])] }
theorem wit_cqCi : qpOf (out (.cqCi 3 5 2) (withQp { qp5 with cqPi := 2 })) = { qp5 with cqPi := 2, cqCi := 2 } ∧
    (qpOf (out (.cqCi 3 5 0x10002) (withQp { qp5 with cqPi := 2 }))).arm = true ∧
    jobKinds (out (.cqCi 3 5 0x10001) (withQp { qp5 with cqPi := 2 } msixOn)) = [.msix] ∧
    dmaAt (out (.cqCi 3 5 0x10001) (withQp { qp5 with cqPi := 2 } msixOn)) = [(3, 1, 0xFFEFFFF000000)] ∧
    ((out (.cqCi 3 5 3) (withQp { qp5 with cqPi := 2 })).fnAt 3).qpErr = true := by decide +kernel
theorem wit_msix : MsixTo (withQp qp5 msixOn) 3 2 0xFFEFFFF000000 :=
  ⟨by decide +kernel, by decide +kernel, by decide +kernel, by decide +kernel, by decide +kernel, _, _, _, _, rfl, by decide, by decide, by decide, by decide⟩
theorem wit_cplWrite : dmaAt (out (.completionWrite 3 5) (withQp { qp5 with cpl := [9, 8], reserved := 2, cqPi := 17 })) = [(3, 1, 0x30020)] ∧
    qpOf (out (.completionWrite 3 5) (withQp { qp5 with cpl := [9, 8], reserved := 2, cqPi := 17 })) =
      { qp5 with cpl := [8], cplBusy := true, reserved := 1, cqPi := 18 } ∧
    ((out (.completionWrite 3 5) (withQp { qp5 with cpl := [9, 8], cqPi := 17 })).dmas.map fun e => lineField e.2.data 32 32) = [9] := by decide +kernel

/-- The access of a job of pair 5, number 0, is answered with data. -/
def jobAns (k : NeKind) (p : Qp) (g : Fn → Fn := id) : State :=
  { neOn g (fun n => { n with qps := [(qpKey 3 5, p)], jobs := [(0, { kind := k, fn := 3, left := 1 })], seq := 1 }) with
    dmas := [(0, { who := 16, rid := 3, stream := 0x10003, va := 0, acc := 0, kind := 2, st := .sent 0, job := 0 })], dmaSeq := 1
    agents := [(State.agentKey nodeNE 0, { p := { op := 0x04, src := nodeNE }, use := .dma 0 })] }
def neReply (v : Nat) (psn : Bool := false) : Pkt :=
  { op := 0x54, src := 0x43, dst := nodeNE, last := true, psn := psn, hasData := true, data := BitVec.ofNat 512 v, mask := BitVec.allOnes 64 }
theorem wit_neAnswered : NeAnswered (jobAns (.sqFetch 5 0) { qp5 with sqPi := 1, sqCi := 1, fetching := true }) (neReply 0) 0 0
    { who := 16, rid := 3, stream := 0x10003, va := 0, acc := 0, kind := 2, st := .sent 0, job := 0 } { kind := .sqFetch 5 0, fn := 3, left := 1 } :=
  ⟨by unfold Running; decide +kernel, by decide +kernel, by decide +kernel, by decide +kernel, by decide +kernel, by decide +kernel, by decide, by decide, rfl, rfl,
   rfl, rfl, rfl, rfl, rfl, rfl, by decide +kernel, by decide +kernel, by decide +kernel, rfl, rfl, rfl, rfl, ⟨_, rfl⟩⟩
def fetched (v : Nat) (psn : Bool := false) : State :=
  out (.descriptorFetch (neReply v psn)) (jobAns (.sqFetch 5 0) { qp5 with sqPi := 1, sqCi := 1, fetching := true, reserved := 1 })
theorem wit_fetch : (qpOf (fetched (2 + 5 * 256 + 0x77 * 2 ^ 32 + 0xABC * 2 ^ 64))).sq.map (fun e => (e.code, e.cid, e.wrid, e.signal, e.fence)) =
      [(2, 0x77, 0xABC, true, true)] ∧
    (qpOf (fetched 7)).cpl = [State.cplEntry 0 0 0 0 7 11 false] ∧ ((fetched 0 true).fnAt 3).cause = 1 ∧ State.descOk (1 + 2 * 256 + 33 * 2 ^ 192) = false ∧
    State.descOk (1 + 2 * 256 + 32 * 2 ^ 192) = true := by decide +kernel

/-- Pair 5 holds one descriptor that names context 0x77. -/
def opOf (code : Nat) (d : Nat := 0) : SqOp := { idx := 4, code := code, cid := 0x77, wrid := 9, signal := true, fence := false, desc := d }
def ctxIn (st : Nat) (code : Nat) (d : Nat := 0) : State :=
  neOn id fun n => { n with qps := [(qpKey 3 5, { qp5 with sq := [opOf code d], reserved := 1 })], ctxs := [(0x77, { st := st, fn := 3, qp := 5 })] }
def ended (s : State) : List Nat := (qpOf s).cpl
/-- LEN 100 at 0x4010 for key 0x501 and remote address 0x9000, operand 11, compare value 12. -/
def desc : Nat := 0x4010 * 2 ^ 128 + 100 * 2 ^ 192 + 0x501 * 2 ^ 224 + 0x9000 * 2 ^ 256 + 11 * 2 ^ 320 + 12 * 2 ^ 384
theorem wit_descriptors : ended (out (.nop 3 5) (ctxIn 2 0)) = [State.cplEntry 9 0 0x77 4 0 0 false] ∧
    ended (out (.send 3 5) (ctxIn 1 1)) = [State.cplEntry 9 0 0x77 4 1 7 false] ∧ ended (out (.write 3 5) (ctxIn 4 2)) = [State.cplEntry 9 0 0x77 4 2 8 false] ∧
    ended (out (.read 3 5) (ctxIn 0 3)) = [State.cplEntry 9 0 0x77 4 3 11 false] ∧
    jobKinds (out (.send 3 5) (ctxIn 2 1 desc)) = [.payload 0x77 0 0 100] ∧ dmaAt (out (.write 3 5) (ctxIn 2 2 desc)) = [(3, 0, 0x4010), (3, 0, 0x4040)] ∧
    (((out (.read 3 5) (ctxIn 2 3 desc)).ctxAt 0x77).ready.map fun r => (r.1.op, r.1.va, r.1.key, r.1.len)) = some (2, 0x9000, 0x501, 100) ∧
    (((out (.fadd 3 5) (ctxIn 2 4 desc)).ctxAt 0x77).ready.map fun r => (r.1.op, r.1.operand)) = some (3, 11) ∧
    (((out (.cswap 3 5) (ctxIn 2 5 desc)).ctxAt 0x77).ready.map fun r => (r.1.op, r.1.compare)) = some (4, 12) ∧
    ended (out (.raw 3 5) (ctxIn 2 8)) = [State.cplEntry 9 0 0x77 4 8 11 false] := by decide +kernel
def rawQp (d : Nat) : State := withQp { qp5 with raw := true, sq := [opOf 8 d] }
def noExc (s : State) : State := s.put pgNE Fld.NE_CFG_EXC_EN 0
theorem wit_raw : jobKinds (out (.raw 3 5) (rawQp desc)) = [.rawPay 5 4] ∧
    (out (.raw 3 5) (noExc (rawQp (2 * 256 + 20 * 2 ^ 192)))).get pgNE Fld.FLOW_MISS_COUNT = 1 ∧
    ended (out (.raw 3 5) (noExc (rawQp (2 * 256 + 20 * 2 ^ 192)))) = [State.cplEntry 9 0 0x77 4 8 0 false] := by decide +kernel
def fenced2 : State := withQp { qp5 with sq := [{ opOf 3 with started := true }, { opOf 0 with fence := true }] }
theorem wit_fence : out (.nop 3 5) fenced2 = fenced2 := by decide +kernel

/-! ### The network engine: admin commands -/

/-- Function `f` with an admin command read, its ACQ at 0x8000, TAG 0x55. -/
def adm (f c : Nat) (g : Fn → Fn := id) (h : Ne → Ne := id) : State :=
  ((ixuIn 2 (fun x => { x with binds := [(0x10000 + f, 1)] })).modNe fun n => h { n with vfEn := f != 0, numVfs := 8 }).modFn f fun x =>
    g { x with bme := true, cmd := some (c + 0x55 * 2 ^ 16), acqBase := 0x8000, configured := f != 0, qpCount := 8, ctxQuota := 4, winFirst := 16, winCount := 8 }
/-- STATUS and RESULT of the completion written. -/
def acq (f : Nat) (s : State) : List (Nat × Nat × Nat) :=
  (s.dmas.filter fun e => e.2.rid == f).map fun e => (lineField e.2.data 0 2, lineField e.2.data 2 1, lineField e.2.data 4 4)
theorem wit_adminRuns : AdminRuns (adm 3 0x01) 3 (1 + 0x55 * 2 ^ 16) := by unfold AdminRuns NeReady Running; decide +kernel

def aqIdle (pi : Nat) : State := adm 3 0 fun x => { x with cmd := none, aqPi := pi, aqBase := 0x40000 }
theorem wit_aq : dmaAt (out (.aqPi 3 2) (aqIdle 0)) = [(3, 0, 0x40000)] ∧ dmaAt (out (.aqPi 3 0) (aqIdle 0)) = [] ∧
    ((out (.aqBaseWrite 3 false false 0x12345005) (aqIdle 0)).fnAt 3).aqBase = 0x12345000 ∧ ((out (.aqBaseWrite 3 true true 7) (aqIdle 0)).fnAt 3).acqBase = 0x700008000 ∧
    ((out (.aqBaseWrite 3 true true 7) (aqIdle 1)).fnAt 3).accErr = true := by decide +kernel

/-- Rings of 16 entries at 0x10000, 0x20000 and 0x30000 for pair 5, vector 0. -/
def mkQp : Nat := 1 + 5 * 2 ^ 32 + 0x10004 * 2 ^ 128 + 0x20004 * 2 ^ 192 + 0x30004 * 2 ^ 256
theorem wit_qpCreate : acq 3 (out (.qpCreate 3) (adm 3 mkQp)) = [(0x55, 0, 0)] ∧ (out (.qpCreate 3) (adm 3 mkQp)).qp? 3 5 = some { qp5 with vec := 0 } ∧
    acq 3 (out (.qpCreate 3) (adm 3 (mkQp + 8 * 2 ^ 32))) = [(0x55, 2, 0)] ∧ acq 3 (out (.qpCreate 3) (adm 3 (mkQp + 0x100 * 2 ^ 128))) = [(0x55, 2, 0)] ∧
    acq 3 (out (.qpCreate 3) (adm 3 mkQp id fun n => { n with qps := [(qpKey 3 5, qp5)] })) = [(0x55, 4, 0)] := by decide +kernel
def hasQp (ctxs : Tab Ctx) : Ne → Ne := fun n => { n with qps := [(qpKey 3 5, qp5)], ctxs := ctxs }
theorem wit_qpDestroy : acq 3 (out (.qpDestroy 3) (adm 3 (2 + 5 * 2 ^ 32) id (hasQp []))) = [(0x55, 0, 0)] ∧
    (out (.qpDestroy 3) (adm 3 (2 + 5 * 2 ^ 32) id (hasQp []))).qp? 3 5 = none ∧
    acq 3 (out (.qpDestroy 3) (adm 3 (2 + 5 * 2 ^ 32) id (hasQp [(0, { st := 1, fn := 3, qp := 5 })]))) = [(0x55, 4, 0)] := by decide +kernel

/-- A parameter block: interface 2, IPv4, RCID 0x300007, TX_PSN0 9, RX_PSN0 11. -/
def blk : List Byte := (List.range 160).map fun i => BitVec.ofNat 8 (Tab.getD i 0 [(0, 2), (2, 4), (3, 8), (48, 7), (50, 0x30), (52, 9), (56, 11), (60, 2), (64, 0xAA), (96, 0xBB)])
def withBlk : Fn → Fn := fun x => { x with blk := blk }
def made : State := out (.ctxCreate 3) (adm 3 (0x10 + 5 * 2 ^ 32) withBlk (hasQp [(0, { st := 2 }), (1, { gen := 6 })]))
theorem wit_ctxCreate : acq 3 made = [(0x55, 0, 0x600001)] ∧ made.ctxAt 1 = { st := 1, gen := 6, fn := 3, qp := 5, parm := blk } ∧
    acq 3 (out (.ctxCreate 3) (adm 3 (0x10 + 6 * 2 ^ 32) withBlk (hasQp []))) = [(0x55, 2, 0)] ∧
    acq 3 (out (.ctxCreate 3) (adm 3 (0x10 + 5 * 2 ^ 32) (fun x => { withBlk x with ctxQuota := 1 }) (hasQp [(4, { st := 1, fn := 3 })]))) = [(0x55, 3, 0)] := by
  decide +kernel
def named (op st : Nat) (fn : Nat := 3) : State :=
  adm 3 (op + 1 * 2 ^ 32 + 6 * 2 ^ 52) withBlk (hasQp [(1, { st := st, gen := 6, fn := fn, qp := 5, parm := blk })])
theorem wit_namesCtx : NamesCtx (named 0x11 1) 3 (0x11 + 1 * 2 ^ 32 + 6 * 2 ^ 52 + 0x55 * 2 ^ 16) 1 := by unfold NamesCtx; decide +kernel
def ctx1 (s : State) : Nat × Nat × Nat × Nat := let x := s.ctxAt 1; (x.st, x.gen, x.rcid, x.apsn)
theorem wit_ctxEvents : ctx1 (out (.ctxActivate 3) (named 0x11 1)) = (2, 6, 0x300007, 11) ∧ ((out (.ctxActivate 3) (named 0x11 1)).ctxAt 1).rate = 8000 ∧
    acq 3 (out (.ctxActivate 3) (named 0x11 2)) = [(0x55, 5, 0)] ∧ ((out (.ctxModify 3) (named 0x12 2)).ctxAt 1).kph = true ∧
    ctx1 (out (.ctxClose 3) (named 0x13 2)) = (3, 6, 0, 0) ∧ acq 3 (out (.ctxClose 3) (named 0x13 1)) = [(0x55, 5, 0)] ∧
    ctx1 (out (.ctxDestroy 3) (named 0x14 4)) = (0, 7, 0, 0) ∧ acq 3 (out (.ctxDestroy 3) (named 0x14 2)) = [(0x55, 5, 0)] ∧
    jobKinds (out (.ctxQuery 3) (named 0x15 2)) = [.aqQuery] ∧ acq 3 (out (.ctxQuery 3) (named 0x15 2 4)) = [(0x55, 7, 0)] ∧
    ctx1 (out (.ctxDrainDone 1) (named 0 3)) = (0, 7, 0, 0) := by decide +kernel
theorem wit_ctxDrain : (out (.ctxDrainDone 1) ((named 0 3).modCtx 1 fun x => { x with unacked := [⟨1, 0, { typ := 0, dcid := 0, psn := 1 }, 0, false, 0, none⟩] })) =
    ((named 0 3).modCtx 1 fun x => { x with unacked := [⟨1, 0, { typ := 0, dcid := 0, psn := 1 }, 0, false, 0, none⟩] }) := by decide +kernel

/-- Window 17: BASE 0x7000, LENGTH 0x100, PD 5, permissions 3, TAG 1. -/
def mkWin : Nat := 0x20 + 17 * 2 ^ 32 + 0x7000 * 2 ^ 128 + 0x100 * 2 ^ 192 + 5 * 2 ^ 256 + 3 * 2 ^ 272 + 1 * 2 ^ 280
def winOf (s : State) : List (Nat × Nat) := s.dmas.map fun e => (e.2.pa, lineField e.2.data 32 32)
def using17 : Ne → Ne := fun n => { n with rops := [(0, { cid := 0, gen := 0, p := { typ := 0, dcid := 0, psn := 0 }, win := some 17 })], wins := [(17, 5)] }
theorem wit_windows : winOf (out (.winSet 3) (adm 3 mkWin)) = [(32 * 17, 0x7000 + 0x100 * 2 ^ 64 + 3 * 2 ^ 128 + 5 * 2 ^ 144 + 0x83 * 2 ^ 160 + 1 * 2 ^ 168)] ∧
    winOf (out (.winClear 3) (adm 3 (0x21 + 17 * 2 ^ 32))) = [(32 * 17, 0)] ∧ acq 3 (out (.winSet 3) (adm 3 (0x20 + 24 * 2 ^ 32))) = [(0x55, 7, 0)] ∧
    out (.winSet 3) (adm 3 mkWin id using17) = adm 3 mkWin id using17 := by decide +kernel
/-- The provisioning of VF 300 that R600 gives as its example. -/
def mkVf : Nat := 0x30 + 300 * 2 ^ 32 + 16 * 2 ^ 128 + 20160 * 2 ^ 160 + 4 * 2 ^ 192 + 3244 * 2 ^ 224 + 512 * 2 ^ 256 + 0 * 2 ^ 288 + 256 * 2 ^ 320
theorem wit_vfConfig : acq 0 (out (.vfConfig 0) (adm 0 mkVf)) = [(0x55, 0, 0)] ∧ ((out (.vfConfig 0) (adm 0 mkVf)).fnAt 300).qpFirst = 20160 ∧
    acq 0 (out (.vfConfig 0) (adm 0 (mkVf - 20000 * 2 ^ 160))) = [(0x55, 2, 0)] ∧ acq 0 (out (.vfConfig 0) (adm 0 mkVf id fun n => { n with vfEn := true })) = [(0x55, 5, 0)] ∧
    acq 3 (out (.vfConfig 3) (adm 3 mkVf)) = [(0x55, 7, 0)] := by decide +kernel

/-! ### The network engine: invalidation, functions, responses -/

def invState (b : Nat) : State := (neOn id fun n => { n with wins := [(17, 5)], flows := [(2, []), (4, [])] }).put pgNE Fld.NE_INV_STAT_BUSY b
def invBits (s : State) : Nat × Nat := (s.get pgNE Fld.NE_INV_STAT_BUSY, s.get pgNE Fld.NE_INV_STAT_DONE)
def invOn (k i : Nat) (f : Ne → Ne := id) : State := (invState 1).modNe fun n => f { n with inv := some (k, i) }
theorem wit_neInv : (out (.window 17) (invState 0)).ne.wins = [] ∧ ((out (.flowBucket 2) (invState 0)).ne.flows.map (·.1)) = [4] ∧
    (out .flowAll (invState 0)).ne.flows = [] ∧ invBits (out (.window 17) (invState 0)) = (1, 0) ∧ out (.window 17) (invState 1) = invState 1 ∧
    invBits (out .neInvComplete (invOn 1 17)) = (0, 1) ∧ (out .neInvComplete (invOn 1 17)).ne.wins = [] ∧
    out .neInvComplete (invOn 1 17 using17) = invOn 1 17 using17 ∧ ((out .neInvComplete (invOn 2 4)).ne.flows.map (·.1)) = [2] := by decide +kernel

def flrIn (g : Fn → Fn := id) : State := neOn (fun x => g { x with flr := some 0, fgen := 9, winFirst := 4 }) fun n =>
  { n with qps := [(qpKey 3 5, qp5)], ctxs := [(1, { st := 4, gen := 4095, fn := 3 }), (2, { st := 2, fn := 4 })] }
def flrReady : State := neOn (fun x => { x with fgen := 255 }) fun n => { n with ctxs := [(1, { st := 2, fn := 3 }), (2, { st := 2, fn := 4 })] }
theorem wit_flr : flrReady.fnPresent 3 = true ∧ ((out (.flrStart 3) flrReady).fnAt 3).fgen = 0 ∧ ((out (.flrStart 3) flrReady).ctxAt 1).st = 4 ∧
    ((out (.flrStart 3) flrReady).ctxAt 2).st = 2 ∧ out (.flrStart 3) flrIn = flrIn ∧ (out (.flrComplete 3) flrIn).ctxAt 1 = {} ∧
    (out (.flrComplete 3) flrIn).qp? 3 5 = none ∧ (out (.flrComplete 3) flrIn).fnAt 3 = { fgen := 9, winFirst := 4 } ∧ (flrIn.ctxsOf 3).Nodup := by decide +kernel
def flrBusy : State := { flrIn with dmas := [(0, { who := 16, rid := 3, stream := 0x10003, va := 0, acc := 0, kind := 2, st := .sent 0, job := 0 })] }
theorem wit_flrBusy : out (.flrComplete 3) flrBusy = flrBusy := by decide +kernel
def vfOff : State := neOn.modNe fun n => { n with vfEn := false }
theorem wit_vfEnable : (out (.vfEnable true) vfOff).fnPresent 8 = true ∧ (out (.vfEnable true) vfOff).fnPresent 9 = false ∧
    ((out (.vfEnable false) neOn).fnAt 8).fgen = 1 ∧ (out (.vfEnable false) neOn).ne.vfEn = false ∧ ((out (.configWrite 0 0x118 0 0xF) neOn).fnAt 1).fgen = 1 := by
  decide +kernel
theorem wit_config : out (.configWrite 9 4 6 0xF) neOn = neOn ∧ ((out (.configWrite 3 4 0 0xF) neOn).fnAt 3).bme = false ∧
    ((out (.configWrite 3 0x44 3 0xF) neOn).fnAt 3).d3 = true ∧ ((out (.configWrite 3 0x44 0 0xF) (neOn fun x => { x with d3 := true })).fnAt 3).fgen = 1 ∧
    ((out (.configWrite 3 0x78 0x8000 0xF) neOn).fnAt 3).flr = some 0 := by decide +kernel

def answered : State := jobAns (.respWrite 0) qp5
theorem wit_response : (out (.neDmaResponse (neReply 0)) answered).dmas = [] ∧ (out (.neDmaResponse (neReply 0)) answered).ne.jobs = [] ∧
    (out (.neDmaResponse (neReply 0)) (jobAns (.respWrite 0) qp5 fun x => { x with fgen := 1 })).get pgNE Fld.STALE_CPL_COUNT = 1 ∧
    (out (.neDmaResponse (neReply 0)) (jobAns (.respWrite 0) qp5 fun x => { x with fgen := 1 })).dmas = [] := by decide +kernel
def lateOne : State :=
  { neOn with agents := [(State.agentKey nodeNE 0, { p := { op := 0x70, src := nodeNE }, use := .late })] }
def timing (now : Nat) : State :=
  { at_ now (jobAns (.cplWrite 5) qp5) with agents := [(State.agentKey nodeNE 7, { p := { op := 0x70, src := nodeNE }, use := .dma 0 })] }
theorem wit_timeout : (out (.neDmaResponse (neReply 0)) lateOne).get pgNE Fld.NE_LATE_CPL_COUNT = 1 ∧
    (out (.neDmaResponse (neReply 0)) lateOne).recs.map (fun r => (r.typ, r.sub)) = [(0x11, 0)] ∧
    ((out (.neDmaTimeout 0) (timing 32000000)).fnAt 3).cause = 4 ∧ (out (.neDmaTimeout 0) (timing 32000000)).agents.map (fun e => decide (e.2.use = .late)) = [true] ∧ (out (.neDmaResponse (neReply 0)) lateOne).agents = [] ∧
    out (.neDmaTimeout 0) (timing 31999999) = timing 31999999 := by decide +kernel

/-! ### Frames and the Chain transport -/

/-- Interface 4 (port 1, in mode 0) is up; contexts as given. -/
def wire (f : Ne → Ne := id) : State :=
  (ixuIn 2 (fun x => { x with binds := [(0x10000, 1)] })).modNe fun n => f { n with intfs := (List.replicate 16 {}).set 4 { up := true } }
def udpFrame (p : Option ChainPkt) : Frame := { len := 200, etype := 0x0800, proto := 17, dport := 23100, dip := 0xFFFF0A000001, udp := (p.map chainBytes).getD [] }
def otherFrame : Frame := { len := 64, etype := 0x0806 }
def rxAt (fr : Frame) (fcs fec : Bool) (b : EccOutcome) (s : State) : State := out (.rxFrame 4 fr fcs fec 0 b) s
def cnt (s : State) (f : FRef) : Nat := s.get (pgNEP 1) f
/-- Context 7 of function 0, pair 5, ACTIVE on interface 4, local address 10.0.0.1 in mapped form, peer DCID 9; key fields in the block. -/
def parm7 : List Byte := (List.range 160).map fun i => BitVec.ofNat 8 (Tab.getD i 0 [(0, 4), (2, 4), (14, 5), (26, 0xFF), (27, 0xFF), (28, 10), (31, 1)])
def ctx7 : Ctx := { st := 2, fn := 0, qp := 5, parm := parm7, rcid := 9, apsn := 100, psn := 50, rate := 100 }
def pkt (typ : Nat) : ChainPkt := { typ := typ, dcid := 7, psn := 100 }
def on7 (x : Ctx) (f : Ne → Ne := id) : State := wire fun n => f { n with ctxs := [(7, x)], onDie := [7] }
theorem wit_wire : NeReady (wire) 0 ∧ wire.intfUp 4 = true ∧ (nthD (wire).ne.ports 1 {}).rxOther = [] ∧ wire.get (pgNEP 1) Fld.PORT_CFG_MAXFRAME = 9216 ∧
    wire.get pgNE Fld.NE_CFG_CHAIN_PORT = 23100 ∧ ctx7.sip = 0xFFFF0A000001 ∧ ctx7.intf = 4 := by unfold NeReady Running; decide +kernel
theorem wit_rxBad : cnt (rxAt otherFrame true false .clean wire) (Fld.FEC_UNCORR_COUNT 0) = 1 ∧ cnt (rxAt otherFrame false true .clean wire) (Fld.RX_FCS_ERR_COUNT 0) = 1 ∧
    cnt (rxAt otherFrame true true .uncorrectable wire) (Fld.BUF_UE_COUNT 0) = 1 ∧ (rxAt otherFrame true true .uncorrectable wire).recs.map (·.sub) = [2] ∧
    cnt (rxAt otherFrame true true .clean wire) (Fld.RX_FRAMES_COUNT 0) = 1 ∧ out (.rxFrame 5 otherFrame true true 0 .clean) wire = wire := by decide +kernel
def fullBanks : State := wire fun n => { n with ports := (List.replicate 4 {}).set 1 { rxCur := [(4, { len := 130000 })], rxOther := [(4, otherFrame)] } }
theorem wit_rxFull : 8192 < State.rxUsed (nthD fullBanks.ne.ports 1 {}).rxCur + frameWords 9216 ∧
    cnt (rxAt otherFrame true true .clean fullBanks) (Fld.RX_DROP_BUF_COUNT 0) = 1 := by decide +kernel
theorem wit_rxChain : (rxAt (udpFrame none) true true .clean wire).get pgNE Fld.CHAIN_DROP_COUNT = 1 ∧
    (rxAt (udpFrame (some (pkt 0))) true true .clean wire).get pgNE Fld.CHAIN_DROP_COUNT = 1 ∧ (on7 ctx7).chainAdmits 4 (udpFrame (some (pkt 0))) (pkt 0) = true ∧
    ((rxAt (udpFrame (some (pkt 0))) true true .clean (on7 ctx7)).ne.frames.map fun e => e.2.2.chain) = [some (pkt 0)] ∧
    ((rxAt (udpFrame (some (pkt 0))) true true .corrected (on7 ctx7 fun n => { n with onDie := [] })).ne.fills.map (·.1)) = [7] ∧
    ((rxAt (udpFrame (some (pkt 0))) true true .corrected (on7 ctx7 fun n => { n with onDie := [] })).dmas.map fun e => e.2.pa) = [0x700, 0x740, 0x780, 0x7C0] := by
  decide +kernel
/-- A flow entry for otherFrame on interface 4, with an action and DEST 4; its key bytes are all zero but INGRESS and EtherType. -/
def flowEnt (act : Nat) : Nat := 4 + 0x608 * 2 ^ 80 + 2 ^ 104 + act * 2 ^ 400 + 4 * 2 ^ 432
def flowOn (l : List Nat) : State :=
  (wire fun n => { n with flows := if l = [] then [] else [(crc32c (flowKey 0x1FF 4 otherFrame) % 1024, l)] }).put pgNE Fld.FLOW_BASE_LO_EN 1
theorem wit_flow : (rxAt otherFrame true true .clean (noExc wire)).get pgNE Fld.FLOW_MISS_COUNT = 1 ∧ entryKey (flowEnt 0) = flowKey 0x1FF 4 otherFrame ∧
    jobKinds (rxAt otherFrame true true .clean (flowOn [])) = [.flowRead 0 (crc32c (flowKey 0x1FF 4 otherFrame) % 1024)] ∧
    (rxAt otherFrame true true .clean (flowOn [flowEnt 0])).ne.sentFrame = [] ∧ (rxAt otherFrame true true .clean (flowOn [flowEnt 1])).ne.sentFrame = [(4, otherFrame)] := by
  decide +kernel

def filling : State := wire fun n => { n with fills := [(7, [(4, udpFrame (some (pkt 0)))])] }
theorem wit_fill : (∀ p ∈ filling.ne.ports, p.rxCur = [] ∧ p.rxOther = []) ∧ (out (.ctxFill 7) filling).ne.fills = [] ∧ (out (.ctxFill 7) filling).ne.onDie = [7] ∧
    (out (.ctxFill 7) filling).ne.frames.map (·.2) = [(4, udpFrame (some (pkt 0)))] := by decide +kernel
def lostAt (now : Nat) : State := at_ now (wire fun n => { n with intfs := (List.replicate 16 {}).set 4 { up := true, lost := some 0 } })
def dark4 : State := (State.modNe wire fun n => { n with intfs := List.replicate 16 {} })
def lit4 : State := (dark4.put pgPWR (Fld.DOM_STAT_STATE 37) 2).put pgPWR (Fld.DOM_STAT_STATE 40) 2
theorem wit_intf : (nthD (out (.alignmentLost 4) wire).ne.intfs 4 {}).lost = some 0 ∧
    (out (.alignmentLost 4) ((wire).put (pgNEP 1) Fld.PORT_TIMING_LD_HOLD 0)).intfUp 4 = false ∧ (out (.interfaceDown 4) (lostAt 1000000)).intfUp 4 = false ∧
    out (.interfaceDown 4) (lostAt 999999) = lostAt 999999 ∧ lit4.intfExists 4 = true ∧ lit4.intfPowered 4 = true ∧ (out (.interfaceUp 4) lit4).intfUp 4 = true ∧
    out (.interfaceUp 4) dark4 = dark4 := by decide +kernel

/-- Chain receive holds packet `p` as frame 3. -/
def held3 (p : ChainPkt) (x : Ctx := ctx7) (f : Ne → Ne := id) : State :=
  on7 x fun n => f { n with frames := [(3, (4, udpFrame (some p)))], wins := [(1, 0x7000 + 0x100 * 2 ^ 64 + 5 * 2 ^ 144 + 0x87 * 2 ^ 160 + 0x22 * 2 ^ 168)] }
theorem wit_chainHeld : ChainHeld (held3 (pkt 0)) 3 7 (pkt 0) :=
  ⟨by unfold NeReady Running; decide +kernel, by decide +kernel, by decide, by decide +kernel, by decide, by decide, 4, udpFrame (some (pkt 0)), by decide +kernel, by decide +kernel, by decide +kernel⟩
def last7 (s : State) : Option (Nat × Nat × Nat × Nat) := (Tab.get? 7 s.ne.sentPkt).map fun q => (q.typ, q.psn, q.status, q.apsn)
/-- A WRITE of 4 bytes at 0x7010 under key 0x122. -/
def wr4 : ChainPkt := { pkt 0 with op := 1, va := 0x7010, key := 0x122, len := 4, data := [1, 2, 3, 4] }
theorem wit_chainData : (out (.chainData 3) (held3 { pkt 0 with flags := 8 })).get pgNE Fld.TAG_FAIL_COUNT = 1 ∧
    last7 (out (.chainData 3) (held3 (pkt 0) { ctx7 with st := 1 })) = some (4, 100, 6, 100) ∧
    last7 (out (.chainData 3) (held3 { pkt 0 with psn := 99 })) = some (1, 0, 0, 100) ∧ last7 (out (.chainData 3) (held3 { pkt 0 with psn := 164 })) = none ∧
    (out (.chainData 3) (held3 { pkt 0 with psn := 164 })).get pgNE Fld.CHAIN_DROP_COUNT = 1 ∧
    jobKinds (out (.chainData 3) (held3 wr4 ctx7 fun n => { n with wins := [] })) = [.winRead 0 1] ∧
    dmaAt (out (.chainData 3) (held3 wr4)) = [(0, 1, 0x7010)] ∧ dmaAt (out (.chainData 3) (held3 { wr4 with op := 2 })) = [(0, 0, 0x7010)] ∧
    dmaAt (out (.chainData 3) (held3 { wr4 with op := 3 })) = [(0, 2, 0x7010)] := by decide +kernel
theorem wit_naks : last7 (out (.chainData 3) (held3 { wr4 with key := 0x123 })) = some (4, 100, 1, 100) ∧
    last7 (out (.chainData 3) (held3 { wr4 with va := 0x70FD })) = some (4, 100, 2, 100) ∧ last7 (out (.chainData 3) (held3 { wr4 with op := 4, va := 0x7014 })) = some (4, 100, 2, 100) ∧
    last7 (out (.chainData 3) (held3 wr4 { ctx7 with parm := parm7.set 14 6 })) = some (4, 100, 3, 100) ∧
    ((out (.chainData 3) (held3 { wr4 with key := 0x123 })).ctxAt 7).apsn = 101 := by decide +kernel

/-- Packet 100 of operation 0, a WRITE of pair 5, is not released. -/
def op0 (code : Nat) : ChOp := { id := 0, fn := 0, q := 5, idx := 4, code := code, lva := 0x8010, len := 64, key := 0, rva := 0, operand := 0, compare := 0, packed := 64, lastPsn := some 100 }
def tx (psn : Nat) (hold : Option Nat := none) : TxPkt := { psn := psn, op := 0, p := { pkt 0 with psn := psn }, sent := 0, hold := hold }
def sending (code : Nat) : Ctx := { ctx7 with ops := [op0 code], unacked := [tx 100] }
def withSq (n : Ne) : Ne := { n with qps := [(qpKey 0 5, { qp5 with sq := [{ opOf 2 with started := true }] })] }
def cpl0 (s : State) : List Nat := ((s.qp? 0 5).map (·.cpl)).getD []
theorem wit_chainAck : ((out (.chainAck 3) (held3 { pkt 1 with apsn := 102 } { ctx7 with unacked := [tx 100, tx 101, tx 102] })).ctxAt 7).unacked.map (·.psn) = [102] ∧
    cpl0 (out (.chainAck 3) (held3 { pkt 1 with apsn := 101 } (sending 2) withSq)) = [State.cplEntry 9 64 0x77 4 2 0 false] := by decide +kernel
theorem wit_responses : dmaAt (out (.readResp 3) (held3 { pkt 2 with off := 32, data := [1, 2] } (sending 3))) = [(0, 1, 0x8030)] ∧
    dmaAt (out (.atomicResp 3) (held3 { pkt 3 with operand := 77 } (sending 4))) = [(0, 1, 0x8010)] ∧
    ((out (.atomicResp 3) (held3 { pkt 3 with operand := 77 } (sending 4))).dmas.map fun e => lineField e.2.data 0x10 8) = [77] ∧
    ((out (.chainNak 3) (held3 { pkt 4 with status := 5 } (sending 2) withSq)).ctxAt 7).unacked.map (fun u => (u.rnr, u.hold)) = [(1, some 10000)] ∧
    cpl0 (out (.chainNak 3) (held3 { pkt 4 with status := 3 } (sending 2) withSq)) = [State.cplEntry 9 0 0x77 4 2 4 false] := by decide +kernel

def timed (now : Nat) (x : Ctx) : State := at_ now (on7 x)
theorem wit_rto : last7 (out (.chainRto 7) (timed 20000 { ctx7 with rto := some 0, unacked := [tx 100, tx 101] })) = some (0, 100, 0, 100) ∧
    out (.chainRto 7) (timed 39999 { ctx7 with rto := some 0, retries := 1, unacked := [tx 100] }) = timed 39999 { ctx7 with rto := some 0, retries := 1, unacked := [tx 100] } ∧
    ((out (.chainRto 7) (timed 2560000 { ctx7 with rto := some 0, retries := 7, unacked := [tx 100] })).ctxAt 7).st = 4 ∧
    (out (.chainRto 7) (timed 2560000 { ctx7 with rto := some 0, retries := 7, unacked := [tx 100] })).get pgNE Fld.CTX_ERR_CNT_COUNT = 1 := by decide +kernel
theorem wit_chainTimers : last7 (out (.ackTimer 7) (timed 2000 { ctx7 with oldest := some 0, ece := true })) = some (1, 0, 0, 100) ∧
    ((Tab.get? 7 (out (.ackTimer 7) (timed 2000 { ctx7 with oldest := some 0, ece := true })).ne.sentPkt).map (·.flags)) = some 32 ∧
    out (.ackTimer 7) (timed 1999 { ctx7 with oldest := some 0 }) = timed 1999 { ctx7 with oldest := some 0 } ∧
    last7 (out (.rnrRetry 7 100) (timed 10 { ctx7 with unacked := [tx 100 (some 10)] })) = some (0, 100, 0, 100) ∧
    out (.rnrRetry 7 100) (timed 9 { ctx7 with unacked := [tx 100 (some 10)] }) = timed 9 { ctx7 with unacked := [tx 100 (some 10)] } ∧
    last7 (out (.chainSend 7 .clean) (timed 5 { ctx7 with ready := some (pkt 0, 4), nextSend := 5 })) = some (0, 50, 0, 100) ∧
    ((out (.chainSend 7 .clean) (timed 5 { ctx7 with ready := some (pkt 0, 4), nextSend := 5 })).ctxAt 7).psn = 51 ∧
    out (.chainSend 7 .clean) (timed 4 { ctx7 with ready := some (pkt 0, 4), nextSend := 5 }) = timed 4 { ctx7 with ready := some (pkt 0, 4), nextSend := 5 } := by decide +kernel

/-- The parameter block with a key in its first KEY slot; a packet sealed under it, and the same with its payload changed. -/
def sealed7 : Ctx := { ctx7 with st := 1, parm := parm7.set 60 1, iv := 5 }
def openPkt : ChainPkt := { pkt 0 with flags := 8, op := 1, va := 0x7010, key := 0x122, len := 4, iv := 9, data := [1, 2, 3, 4] }
def sealedPkt : ChainPkt := chainSeal sealed7 openPkt
set_option maxRecDepth 200000 in
theorem wit_sealed : chainOpen sealed7 sealedPkt = some openPkt ∧ chainParse (chainBytes sealedPkt) = some sealedPkt ∧
    chainOpen sealed7 { sealedPkt with data := sealedPkt.data.set 0 0 } = none ∧
    last7 (out (.chainData 3) (held3 sealedPkt sealed7)) = some (4, 100, 6, 100) ∧
    ((Tab.get? 7 (out (.chainData 3) (held3 sealedPkt sealed7)).ne.sentPkt).map (·.iv)) = some 5 ∧
    (out (.chainData 3) (held3 { sealedPkt with data := sealedPkt.data.set 0 0 } sealed7)).get pgNE Fld.TAG_FAIL_COUNT = 1 := by decide +kernel

/-! ### Power -/

/-- A domain in a state and with a target. -/
def dom (d st target : Nat) (s : State) : State :=
  (s.put pgPWR (Fld.DOM_STAT_STATE d) st).put pgPWR (Fld.DOM_STAT_TARGET d) target

/-- The hub at a TIME. -/
def clock (t : Nat) (s : State) : State := { s with time := t }

/-- A slow input. -/
def withPin (i : Nat) (p : Pin) (s : State) : State := { s with power := { s.power with pins := [(i, p)] } }

theorem wit_votes :
    (out (.voteWrite 43 0x00FF0C01 true) up).votes 43 = 0x00FF0000 ∧ (out (.voteWrite 43 0x00FF0C01 false) up).votes 43 = 0x00FF0001 ∧
    (out (.voteWrite 43 0x00010000 true) up).flag pgPWR (Fld.DOM_STAT_TARGET 43) = true ∧
    (out (.voteWrite 28 0x00010000 true) up).flag pgPWR (Fld.DOM_STAT_TARGET 28) = false ∧
    (out (.voteWrite 43 0x00010000 true) (dom 43 3 0 up)).domState 43 = 2 ∧ (out (.voteWrite 43 0x00010000 true) (dom 43 4 0 up)).domState 43 = 4 ∧
    (out (.voteWrite 44 0 true) (withPin 7 { filt := true } up)).votes 44 = 0x200 ∧ out (.voteWrite 50 1 false) up = up ∧
    (out (.voteWrite 5 0x00FF00FF false) { up with pop := 0 }).votes 5 = 0x00FF0000 := by decide +kernel

/-- PCIe group 2 draining with one write held. -/
def draining (t : Nat) : State :=
  { dom 45 3 0 (clock t up) with
    groups := [{}, {}, { pw := [(0, { op := 0x68, src := 0x08 })], up := [0] }]
    net := [{ p := { op := 0x68, src := 0x08, dst := nodePCIE 2 }, at_ := .out, since := 0 }] }

theorem wit_domainDrops :
    (out (.domainDrop 49) (dom 49 2 0 (clock 7 up))).domState 49 = 3 ∧ out (.domainDrop 49) (dom 49 2 1 up) = dom 49 2 1 up ∧
    out (.domainDrop 20) (dom 20 2 0 up) = dom 20 2 0 up ∧
    (out (.domainDrop 36) { dom 36 2 0 up with ne := { intfs := [{ up := true }] } }).intfUp 0 = false ∧
    (out (.domainDrop 40) (dom 40 2 0 up)).domState 40 = 3 ∧
    ((out (.domainDrop 42) { dom 42 2 0 up with ne := { ctxs := [(5, { st := 2 })] } }).ctxAt 5).st = 4 ∧
    (out (.domainDrainDone 49) (dom 49 3 0 up)).domState 49 = 5 ∧ (out (.domainDrainDone 41) (dom 41 3 0 up)).domState 41 = 5 ∧
    (out (.domainDrainDone 45) { draining 5 with groups := [{}, {}, { up := [0] }], net := [] }).groupAt 2 = {} ∧
    out (.domainDrainDone 45) { draining 5 with groups := [{}, {}, { up := [0] }] } = { draining 5 with groups := [{}, {}, { up := [0] }] } ∧
    out (.domainDrainDone 45) (draining 5) = draining 5 ∧ out (.domainDrainExpire 45) (draining 15999999) = draining 15999999 ∧
    (out (.domainDrainExpire 45) (draining 16000000)).domState 45 = 5 ∧
    (out (.domainDrainExpire 45) (draining 16000000)).get (pgPCIE 2) Fld.PW_DISC_COUNT = 2 ∧ ((out (.domainDrainExpire 45) (draining 16000000)).recs.map (·.words)) = [[2]] ∧
    (out (.domainCommitEnd 49) (dom 49 5 0 (clock 15 up))).domState 49 = 0 ∧ (out (.domainCommitEnd 3) (dom 3 5 0 (clock 15 up))).get pgPWR (Fld.DOM_STAT_DROPS 3) = 1 ∧
    (out (.domainCommitEnd 45) (dom 45 5 0 (clock 15 up))).domState 45 = 0 ∧ (out (.domainCommitEnd 42) (dom 42 5 0 (clock 15 up))).domState 42 = 0 ∧
    out (.domainCommitEnd 49) (dom 49 5 0 (clock 14 up)) = dom 49 5 0 (clock 14 up) := by decide +kernel

theorem wit_domainRises :
    (out (.domainRise 49) (dom 49 0 1 up)).domState 49 = 1 ∧ out (.domainRise 49) up = up ∧ out (.domainRise 49) (dom 49 2 1 up) = dom 49 2 1 up ∧
    out (.domainRiseDone 49) up = up ∧
    (out (.domainRiseDone 49) ((dom 49 1 1 up).put pgIXU Fld.CQ_TAIL_INDEX 5)).get pgIXU Fld.CQ_TAIL_INDEX = 0 ∧
    ((out (.domainRiseDone 30) ((dom 30 1 1 up).put (pgHRTH 0) Fld.HRTH_GSTAT_OFFLINE 4)).hearthAt 17).mode = 0 ∧
    (out (.domainRiseDone 30) ((dom 30 1 1 up).put (pgHRTH 0) Fld.HRTH_GSTAT_OFFLINE 4)).get (pgHRTH 0) Fld.HRTH_GSTAT_OFFLINE = 0 ∧
    (out (.domainRiseDone 28) ({ dom 28 1 1 up with flash := up.flash })).get (pgHRTH 0) Fld.HRTH_CTL_SCR_WAYS = up.profNow.scr := by decide +kernel

theorem wit_slowInputs :
    ((out (.rawFallingEdge 0) (withPin 0 { fall := some 100 } (clock 1600 up))).pin 0).quick = true ∧
    (out (.rawFallingEdge 0) (clock 1600 up)).get pgPWR Fld.THR_EDGES_COUNT = 1 ∧ (out (.rawFallingEdge 3) up).get pgPWR (Fld.PIN_EDGES_COUNT 2) = 1 ∧
    (out (.wakeNAssert) (withPin 1 { fall := some 100 } (clock 1100 up))).flag pgPWR Fld.PWR_STAT_WAKE = true ∧
    out (.wakeNAssert) (withPin 1 { fall := some 100 } (clock 1099 up)) = withPin 1 { fall := some 100 } (clock 1099 up) ∧
    ((out (.wakeNDeassert) (withPin 1 { fall := some 100, filt := true } (clock 2100 up))).pin 1).filt = false ∧
    out (.wakeNDeassert) (withPin 1 { fall := some 100, filt := true } (clock 2099 up)) = withPin 1 { fall := some 100, filt := true } (clock 2099 up) ∧
    out (.throttleAssert) up = up ∧ out (.throttleDeassert) up = up ∧
    (out (.throttleLong) (withPin 0 { filt := true } (clock 1000000000 up))).recs.map (·.sub) = [3] ∧
    (out (.wakeStuck) (withPin 1 { filt := true } (clock 1000000000 up))).recs.map (·.sub) = [4] ∧ out (.wakeStuck) up = up ∧ out (.throttleLong) up = up := by decide +kernel

/-- Port P1 on, with wake matching enabled. -/
def portWake (s : State) : State := (dom 37 2 1 s).put pgPWR Fld.WAKE_EN_PORT 2

/-- TIME compare armed at `c`, waking domain 49. -/
def comparing (c w : Nat) : State :=
  (((up.put pgTIME Fld.TIME_CMP_CTL_EN 1).put pgTIME Fld.TIME_CMP_CTL_WAKE w).put pgTIME Fld.TIME_CMP_CTL_DOM 49).setReg pgTIME Reg.TIME_CMP_LO c

theorem wit_wakes :
    (out (.pcieWakeAssert 1) (withPin 7 { fall := some 0 } (clock 1000 up))).votes 44 = 0x200 ∧ out (.pcieWakeAssert 1) up = up ∧
    (out (.pcieWakeAssert 1) (withPin 7 { fall := some 0 } ((clock 1000 up).put pgPWR Fld.PWR_STAT_STATE 2))).get pgPWR Fld.PWR_STAT_STATE = 3 ∧
    (out (.pcieWakeAssert 1) (withPin 7 { fall := some 0 } ((clock 1000 up).put pgPWR Fld.WAKE_EN_PCIE 0))).votes 44 = 0 ∧
    ((out (.pcieWakeDeassert 1) (withPin 7 { filt := true } up)).pin 7).filt = false ∧ out (.pcieWakeDeassert 1) up = up ∧
    out (.wakeMatch 1 { len := 64 }) up = up ∧
    ((portWake up).edgeWake (State.wakeMatchSrc 1) 42).votes 42 = 0x200 ∧
    (((portWake up).put pgPWR Fld.PWR_STAT_STATE 2).edgeWake (State.wakeMatchSrc 1) 42).get pgPWR Fld.PWR_STAT_STATE = 3 ∧
    ((dom 42 5 0 (portWake up)).edgeWake (State.wakeMatchSrc 1) 42).get pgPWR Fld.WAKE_LOST_CNT_COUNT = 1 ∧
    (out (.timeCmp) (clock 50 (comparing 50 1))).votes 49 = 0x200 ∧ (out (.timeCmp) (clock 50 (comparing 50 0))).votes 49 = 0 ∧
    out (.timeCmp) (clock 40 (comparing 50 1)) = clock 40 (comparing 50 1) := by decide +kernel

/-- The wake frame of a MAC address: its six bytes, then eight more, then six of 0xFF and sixteen copies of the address. -/
def magic (mac : List Byte) : Frame :=
  { len := 200, data := mac ++ List.replicate 8 0 ++ (List.replicate 6 0xFF ++ (List.replicate 16 mac).flatten), fcs := true }

/-- Port P1 has its domain on and wake matching enabled, and the wake frame of an interface's address comes. -/
theorem wit_wakeMatch : ∃ fr, (portWake up).domOn (36 + 1) = true ∧ bitN ((portWake up).get pgPWR Fld.WAKE_EN_PORT) 1 = true ∧
    ∃ k, k < 4 ∧ wakeFrame fr (bytesOf (Config.portMac (4 * 1 + k)).toNat 6) = true := by
  refine ⟨magic (bytesOf (Config.portMac 4).toNat 6), by decide +kernel, by decide +kernel, 0, by decide, ?_⟩
  generalize (Config.portMac (4 * 1 + 0)).toNat = x
  unfold wakeFrame magic
  simp only [Bool.and_eq_true, decide_eq_true_eq, List.any_eq_true]
  exact ⟨⟨trivial, rfl⟩, 14, List.mem_range.mpr (by simp [bytesOf]), by decide, rfl⟩

theorem test_wakeFrame : wakeFrame (magic (bytesOf 0x665544332211 6)) (bytesOf 0x665544332211 6) = true ∧
    wakeFrame { magic (bytesOf 0x665544332211 6) with fcs := false } (bytesOf 0x665544332211 6) = false ∧
    wakeFrame (magic (bytesOf 0x665544332211 6)) (bytesOf 0x665544332212 6) = false := by decide +kernel

/-- Site 5 admitted, with module 2 ACTIVE. -/
def active5 : State :=
  (up.put (pgSITE 5) Fld.SITE_STAT_ADMITTED 1).setLk 5 2 .hub { st := 4 }

/-- That hub with FCAP 2,400 and FLOOR 1,200 MHz, and a THROTTLE_N that may assert, or deassert. -/
def thr (filt : Bool) : State := withPin 0 { fall := some 0, filt := filt } (clock 2000 (active5.put pgPWR Fld.PWR_LIMIT_FCAP 2400 |>.put pgPWR Fld.PWR_FLOOR_FLOOR 1200))

theorem wit_throttleAndPwrSet :
    (out (.throttleAssert) (thr false)).get pgPWR (Fld.SITE_FMAX_FMAX 5) = 1200 ∧ (out (.throttleDeassert) (thr true)).get pgPWR (Fld.SITE_FMAX_FMAX 5) = 2400 ∧
    ((out (.throttleAssert) (thr false)).lk 5 2 .hub).outbox.map (·.lm) = [⟨0x61, [0, 1200, 0]⟩] ∧
    ((out (.pwrSet 5 2 9 1200 33 []) (up.setLk 5 2 .die { st := 4 })).dieAt 5).fmax = 1200 ∧
    ((out (.pwrSet 5 2 9 1200 33 []) (up.setLk 5 2 .die { st := 4 })).lk 5 2 .die).outbox.map (·.lm) = [⟨0x62, [9]⟩] ∧
    (out (.pwrAck 5 2 9 []) { clock 10000 active5 with power := { sets := [(5, ⟨9, 1200, 33, 0, 0, false, false⟩)] } }).flag pgPWR (Fld.SITE_FMAX_ACKED 5) = true ∧
    (out (.pwrAck 5 2 9 []) { clock 10001 active5 with power := { sets := [(5, ⟨9, 1200, 33, 0, 0, false, false⟩)] } }).recs.map (·.sub) = [2] ∧
    ((out (.pwrAckTimeout 5) { clock 10001 active5 with power := { sets := [(5, ⟨9, 1200, 33, 0, 0, false, false⟩)] } }).lk 5 2 .hub).outbox.map (·.lm) = [⟨0x61, [9, 1200, 33]⟩] ∧
    out (.pwrAckTimeout 5) { clock 10000 active5 with power := { sets := [(5, ⟨9, 1200, 33, 0, 0, false, false⟩)] } } =
      { clock 10000 active5 with power := { sets := [(5, ⟨9, 1200, 33, 0, 0, false, false⟩)] } } := by decide +kernel

/-- A period due: PLIMIT 700 W, FCAP 2,400, FLOOR 1,200, FCEIL 2,000 MHz, the last period 50 us ago. -/
def loop : State :=
  { ((((clock 100000 up).put pgPWR Fld.PWR_LIMIT_PLIMIT 700).put pgPWR Fld.PWR_LIMIT_FCAP 2400).put pgPWR Fld.PWR_FLOOR_FLOOR 1200).put pgPWR Fld.LOOP_STAT_FCEIL 2000 with
    power := { period := 1, lastStart := some 50000 } }

theorem wit_powerLoop :
    (out (.powerPeriod 35000 false) loop).get pgPWR Fld.LOOP_STAT_FCEIL = 2000 ∧ (out (.powerPeriod 30000 false) loop).get pgPWR Fld.LOOP_STAT_FCEIL = 2025 ∧
    (out (.powerPeriod 38500 false) loop).get pgPWR Fld.LOOP_STAT_FCEIL = 1800 ∧ (out (.powerPeriod 30000 true) loop).get pgPWR Fld.LOOP_STAT_FCEIL = 1975 ∧
    (out (.powerPeriod 35000 false) loop).get pgPWR Fld.PKG_POWER_POWER = 7000 ∧ (out (.powerPeriod 35000 false) loop).get pgPWR Fld.LOOP_STAT_LAG = 50 ∧
    (out (.powerPeriod 35000 false) loop).flag pgPWR Fld.PWR_STAT_LOOP_LATE = true ∧ out (.powerPeriod 1 false) (clock 74999 loop) = clock 74999 loop ∧
    ((out (.timeSync 5 2 80 3 []) ((active5.setLk 5 2 .hub { st := 4, outbox := [⟨{ seq := 0, ack := 0 }, ⟨0x60, [80, 3]⟩⟩] }).setLk 5 2 .die { st := 4 })).dieAt 5).sync = some (80, 3) ∧
    ((out (.timeSync 5 2 80 3 []) (clock 1000000 (active5.put (pgSITE 5) Fld.TRAV_CAP_LO_CAP 4))).lk 5 2 .hub).outbox.map (·.lm) = [⟨0x60, [1000000, 0]⟩] ∧
    (out (.rootPllLossOfLock) up).alert.pll = true ∧ (out (.rootPllLossOfLock) up).recs.map (·.cls) = [4] := by decide +kernel

/-- Banked entry in a step. -/
def entering (b : Nat) (s : State) : State :=
  { s.put pgPWR Fld.PWR_STAT_STATE 1 with power := { s.power with bank := b, pace := 72 }, smith := { op := some 0x0A, tag := 3 } }

def banked2 (t : Nat) (f : Power → Power) : State :=
  let s := entering 3 (clock t up)
  { s with power := f s.power }

theorem wit_bankedEnter :
    (out (.bankedEnter false 1 []) (dom 45 2 1 up)).get pgSMITH (Fld.MB_RES_RES 0) = 1 ∧ (out (.bankedEnter false 1 []) active5).get pgSMITH (Fld.MB_RES_RES 0) = 2 ∧
    (out (.bankedEnter false 1 []) (withPin 1 { filt := true } up)).get pgSMITH (Fld.MB_RES_RES 0) = 3 ∧
    (out (.bankedEnter false 1 []) (up.put (pgHRTH 0) Fld.ROP_STAT_BUSY 1)).get pgSMITH (Fld.MB_RES_RES 0) = 4 ∧
    (out (.bankedEnter false 1 []) (up.put (pgHRTH 0) Fld.ROP_STAT_BUSY 1)).get pgSMITH Fld.MB_STAT_STATUS = 4 ∧
    (out (.bankedEnter false 1 []) up).get pgPWR Fld.PWR_STAT_STATE = 1 ∧ (out (.bankedEnter false 1 []) up).power.pace = up.get (pgHRTH 0) Fld.ROP_CFG_PACE := by decide +kernel

theorem wit_banked :
    (out (.bankedCleanDone) (entering 1 up)).power.bank = 2 ∧ (out (.bankedCleanDone) (entering 1 ((up.put (pgHRTH 0) Fld.ROP_CFG_PACE 1)))).get (pgHRTH 0) Fld.ROP_CFG_PACE = 72 ∧
    out (.bankedCleanDone) (entering 1 (up.put (pgHRTH 0) Fld.ROP_STAT_BUSY 1)) = entering 1 (up.put (pgHRTH 0) Fld.ROP_STAT_BUSY 1) ∧
    (out (.selfRefreshDone) (entering 2 up)).flag (pgMC 23) Fld.MC_STAT_SR = true ∧ (out (.selfRefreshDone) (entering 2 up)).power.bank = 3 ∧
    out (.selfRefreshDone) { entering 2 up with mem := { wr := [{ line := 1, data := 0, psn := false, rop := false }] } } =
      { entering 2 up with mem := { wr := [{ line := 1, data := 0, psn := false, rop := false }] } } ∧
    (out (.bankedCommitEnd) (banked2 15 id)).get pgPWR Fld.PWR_STAT_STATE = 2 ∧ (out (.bankedCommitEnd) (banked2 15 id)).get pgSMITH Fld.MB_STAT_TAG = 3 ∧
    (out (.bankedCommitEnd) (banked2 15 fun p => { p with level := true })).get pgPWR Fld.PWR_STAT_STATE = 3 ∧ out (.bankedCommitEnd) (banked2 14 id) = banked2 14 id ∧
    (out (.wakeNAssert) (entering 2 (withPin 1 { fall := some 0 } (clock 1000 up)))).get pgPWR Fld.PWR_STAT_STATE = 0 ∧
    (out (.wakeNAssert) (entering 2 (withPin 1 { fall := some 0 } (clock 1000 up)))).get pgSMITH Fld.MB_STAT_STATUS = 5 ∧
    (out (.wakeNAssert) (entering 3 (withPin 1 { fall := some 0 } (clock 1000 up)))).power.level = true ∧
    (out (.bankedExitDone) (up.put pgPWR Fld.PWR_STAT_STATE 3)).get pgPWR Fld.PWR_STAT_STATE = 0 ∧ out (.bankedExitDone) up = up := by decide +kernel

/-- Banked entry with module 2 of site 5 in IDLE. -/
def entering5 : State := entering 2 ((up.put (pgSITE 5) Fld.SITE_STAT_ADMITTED 1).setLk 5 2 .hub { st := 5 })

theorem wit_bankedIdle :
    (out (.moduleWake 5 2) entering5).get pgPWR Fld.PWR_STAT_STATE = 0 ∧ (out (.moduleWake 5 2) entering5).get pgSMITH Fld.MB_STAT_STATUS = 5 ∧
    (out (.retrain 5 2) entering5).get pgPWR Fld.PWR_STAT_STATE = 0 ∧ ((out (.retrain 5 2) entering5).lk 5 2 .hub).st = 6 := by decide +kernel

/-! ### Resets -/

/-- Cold reset of a package with slot `k` in force and these images. -/
def cold (sel pop : Nat) (good : List Bool) : State :=
  out (.coldReset sel 0 1 pop true good 0 0x1000 [7, 9] []) { State.reset with time := 77 }

theorem wit_noStart :
    (out (.coldReset 0 0 1 0 false [true, true] 0 0 [] []) State.reset).alert.railAtPwrok = true ∧ (cold 2 0 [false, false]).alert.noImage = true ∧
    (cold 2 0 [false, false]).smith.ibi = some 5 := by decide +kernel

/-- What the state shows of a cold start: PLIMIT, slot, FALLBACK, hash of home 63, votes of domains 42 and 41, and a byte of the host image. -/
def shown (s : State) : List Nat :=
  [s.get pgPWR Fld.PWR_LIMIT_PLIMIT, s.get pgSMITH Fld.FW_STAT_SLOT, s.get pgSMITH Fld.FW_STAT_FALLBACK, s.get (pgHOME 63) Fld.HOME_CFG_HASH,
   s.votes 42, s.votes 41, ((Memory.read s.mem.cells 0x1001).toNat), b2n s.alert.noBootSite, s.time]

set_option maxRecDepth 200000 in
theorem wit_coldReset : shown (cold 6 0 [false, true]) = [1000, 1, 1, 0, 0x100, 0, 9, 1, 0] := by decide +kernel

set_option maxRecDepth 200000 in
theorem wit_coldTraverse : ((cold 0 0x20 [true, true]).siteAt 5).trav.isSome = true := by decide +kernel

theorem wit_powerFails : (out (.powerFail) { up with mem := { cells := [(1, 2)] } }).off = true ∧ (out (.powerFail) { up with mem := { cells := [(1, 2)] } }).mem.cells = [] := by
  decide +kernel

/-- A hub with one admitted site and port domain 36 on. -/
def inRun : State := dom 36 2 1 (clock 40 active5)

/-- The cause, admission of site 5, the state of its module 2 and of domain 36. -/
def warmShown (s : State) : List Nat := [s.power.warmCause, b2n (s.admitted 5), (s.lk 5 2 .hub).st, s.domState 36]

set_option maxRecDepth 200000 in
theorem wit_warmStarts :
    MbFree inRun ∧ inRun.power.stopped = false ∧ inRun.domOn 36 = true ∧ warmShown (out (.pkgResetAssert) inRun) = [1, 0, 0, 0] ∧
    (out (.pkgResetAssert) { up with power := { warm := 1 } }).power.pkgLow = true ∧ (out (.pkgResetDeassert) { up with power := { warm := 1, pkgLow := true } }).power.pkgLow = false := by
  unfold MbFree; decide +kernel

set_option maxRecDepth 200000 in
theorem wit_warmCauses :
    (out (.warmReset true 1 []) inRun).power.warmCause = 3 ∧ (out (.pkgResetAssert) { inRun with smith := { op := some 0x20 } }).power.warmCause = 5 := by decide +kernel

/-- A warm reset `t` ns after it began, with a write held in PCIe group 2 and profile P1 commanded. -/
def warm (t : Nat) (low : Bool) (w : Nat) : State :=
  { ((clock t up).put pgSMITH Fld.PROFILE_NEXT_V 1).put pgSMITH Fld.PROFILE_NEXT 1 with
    power := { warm := w, warmCause := 6, pkgLow := low }, groups := [{}, {}, { pw := [(0, { op := 0x68, src := 0x08 })] }] }

set_option maxRecDepth 200000 in
theorem wit_warmGoesOn :
    out (.warmDrainExpire) (warm 999999 true 1) = warm 999999 true 1 ∧ out (.warmDrainExpire) up = up ∧
    (out (.warmDrainExpire) (warm 1000000 true 1)).power.warm = 2 ∧ (out (.warmDrainExpire) (warm 1000000 true 1)).get (pgPCIE 2) Fld.PW_DISC_COUNT = 1 ∧
    (out (.warmDrainExpire) (warm 1000000 true 1)).flag (pgMC 3) Fld.MC_STAT_SR = true ∧ ((out (.warmDrainExpire) (warm 1000000 true 1)).recs.map (·.words)) = [[1]] := by
  decide +kernel

/-- The profile in force, the cause and OP_ABORT after a warm reset. -/
def causes (s : State) : List Nat :=
  [s.power.warm, s.get pgSMITH Fld.PROFILE_IN_FORCE, s.get pgSMITH Fld.RESET_CAUSE_LAST, s.get pgSMITH Fld.RESET_CAUSE_OP_ABORT]

set_option maxRecDepth 200000 in
theorem wit_warmEnds :
    (warm 1000000 false 1).power.warmSince + 1000000 ≤ (warm 1000000 false 1).time ∧ (warm 1000000 false 1).power.warmCause < 8 ∧
    causes (out (.pkgResetDeassert) (warm 1000000 true 2)) = [0, 1, 2, 1] := by decide +kernel

theorem wit_supplyAndTrip :
    (out (.supplyFault) { up with mem := { cells := [(1, 2)] } }).mem.cells = [] ∧ (out (.supplyFault) up).power.stopped = true ∧
    (out (.thermalTrip 33) up).recs.map (·.words) = [[33]] ∧ (out (.thermalTrip 33) up).flag pgEVT Fld.EVT_STAT_FATAL = true ∧
    out (.thermalTrip 33) { up with power := { trip := true } } = { up with power := { trip := true } } := by decide +kernel

/-- Smith firmware restarting with an operation in hand. -/
def restarting (op ph : Nat) : State := { up with smith := { running := false, op := some op, phase := ph, tag := 6 } }

/-- STATUS of the operation once Smith firmware has resumed. -/
def resumed (op ph : Nat) : Nat := (out (.smithResume) (restarting op ph)).get pgSMITH Fld.MB_STAT_STATUS

/-- A trial image that does not run, begun at time 0. -/
def trial (t : Nat) : State := { clock t up with smith := { running := false, trial := some 0 }, flash := { slot := 1 } }

theorem wit_smithRestarts :
    (out (.smithWatchdog) up).get pgSMITH Fld.RESET_CAUSE_SMITH_RST = 1 ∧ (out (.smithWatchdog) up).smith.running = false ∧ out (.smithWatchdog) (restarting 1 0) = restarting 1 0 ∧
    out (.smithResume) up = up ∧ (trial 2000000).smith.running = false ∧ (out (.fwTrialTimeout) (trial 2000000)).flash.slot = 0 ∧ (out (.fwTrialTimeout) (trial 2000000)).flag pgSMITH Fld.FW_STAT_FALLBACK = true ∧
    out (.fwTrialTimeout) (trial 1999999) = trial 1999999 ∧
    (out (.smithResume) { up with smith := { running := false, pauseNotes := [{ typ := 0x13, cls := 0, source := srcSmithRecord, page := pgLNK 5, words := [5] }] } }).recs.map (·.words) = [[5]] ∧
    resumed 0x1A 0 = 0 ∧ resumed 0x19 1 = 0 ∧ resumed 0x19 2 = 6 ∧ resumed 0x10 1 = 5 ∧ resumed 0x14 10 = 5 ∧ resumed 0x03 0 = 5 ∧
    (out (.smithResume) { restarting 0x0A 0 with power := { bank := 1 } }).get pgSMITH Fld.MB_STAT_STATUS = 5 := by decide +kernel

/-! ### The mailbox and in-service operations -/

/-- Set MB_ARG. -/
def mbArg (l : List Nat) (s : State) : State := (List.range l.length).foldl (fun s i => s.setReg pgSMITH (Reg.MB_ARG i) (nthD l i 0)) s

/-- STATUS, CODE and TAG of the last command. -/
def mbSt (s : State) : List Nat := [s.get pgSMITH Fld.MB_STAT_STATUS, s.get pgSMITH Fld.MB_STAT_CODE, s.get pgSMITH Fld.MB_STAT_TAG]

theorem wit_mailboxTakes :
    (out (.ping false 3 []) { up with smith := { op := some 0x10 } }).flag pgSMITH Fld.MB_STAT_OVERLAP = true ∧
    (out (.profileNext true 3 []) { up with smith := { op := some 0x10 } }).smith.bmcBusy = some (2, 3) ∧
    mbSt (out (.siteOffline true 3 [0]) up) = [1, 0x10, 3] ∧ mbSt (out (.vote false 3 []) up) = [1, 0x38, 3] ∧ mbSt (out (.mbUnknownCmd true 0x21 3 []) up) = [1, 0x21, 3] ∧
    mbSt (out (.chanSpare false 3 []) { up with smith := { autoOp := some (1, 2) } }) = [3, 0x20, 3] ∧ mbSt (out (.fwActivate false 3 []) { up with smith := { autoOp := some (1, 2) } }) = [4, 0x19, 3] := by
  decide +kernel

/-- A stored profile's record: PLIMIT 700, FCAP 2,400, FLOOR 1,200, FLAT, its reserved bytes zero. -/
def profRec : List Byte := [1, 0, 2, 0, 188, 2, 96, 9, 176, 4] ++ List.replicate 18 0 ++ [90, 1, 10] ++ List.replicate 93 0

/-- That record with its CRC. -/
def profFull : List Byte := profRec ++ (List.range 4).map fun i => BitVec.ofNat 8 (crc32 profRec / 256 ^ i)

/-- A hub with a record at 0x1000. -/
def withRec (b : List Byte) : State := mbArg [2, 0x1000, 0] { up with mem := { cells := ((List.range b.length).map fun i => (0x1000 + i, b.getD i 0)).filter fun c => c.2 != 0 } }

set_option maxRecDepth 200000 in
theorem wit_profileWrite : State.profRecordOk 2 profFull = true ∧ State.profRecordOk 2 (profRec ++ [0, 0, 0, 0]) = false := by decide +kernel

theorem wit_readBytes : ((withRec profRec).readBytes 0x1000 128).isSome = true ∧ mbSt (out (.profileWrite false 5 []) (withRec profRec)) = [2, 4, 5] ∧
    up.readBytes 0x4000000000000 128 = none ∧ mbSt (out (.profileWrite false 5 []) (mbArg [2, 0, 0x40000] up)) = [6, 4, 5] ∧ mbSt (out (.profileWrite false 5 []) (mbArg [4] up)) = [2, 4, 5] := by decide +kernel

set_option maxRecDepth 200000 in
theorem wit_shortCommands :
    mbSt (out (.ping false 5 []) up) = [0, 1, 5] ∧ mbSt (out (.profileNext true 5 [4]) up) = [2, 2, 5] ∧ (out (.profileNext true 5 [3]) up).get pgSMITH Fld.PROFILE_NEXT = 3 ∧
    mbSt (out (.profileLive true 5 [3]) (up.setShadow pgPWR Reg.PWR_LIMIT 0)) = [4, 3, 5] ∧ (out (.profileLive true 5 [3]) { up with quench := { busy := true } }).smith.op = some 3 ∧
    (out (.profileLive true 5 [3]) (up.put pgPWR Fld.PWR_FLOOR_FLOOR 1200)).get pgPWR Fld.PWR_LIMIT_PLIMIT = 1100 ∧
    (out (.powerOff true 5 []) up).off = true ∧ mbSt (out (.powerOff true 5 []) up) = [0, 9, 5] ∧ mbSt (out (.vote true 5 [42, 3, 1]) up) = [2, 0x38, 5] ∧ (out (.vote true 5 [42, 7, 1]) up).votes 42 = 0x80 ∧
    (out (.vote true 5 [5, 7, 1]) { up with pop := 0 }).votes 5 = 0 := by
  decide +kernel

/-- Sites 5 and 6 populated and admitted, with no Qorsy die. -/
def two : State := { (up.put (pgSITE 5) Fld.SITE_STAT_ADMITTED 1).put (pgSITE 6) Fld.SITE_STAT_ADMITTED 1 with pop := 0x60 }

/-- Site 5 with a Qorsy C32: the boot site. -/
def twoQorsy : State := two.setReg (pgSITE 5) (Reg.DATUM 1) 0x0C320001

/-- SITE_OFFLINE of site 5 in a phase. -/
def offline (ph : Nat) (s : State) : State := { s with smith := { op := some 0x10, site := 5, phase := ph, tag := 4, args := [5, 0] } }

/-- A Drain that SITE runs for site 5. -/
def drain5 (needs : List Nat) : State := { offline 2 two with sites := modOf 16 {} [] 5 fun (x : Site) => { x with drains := [{ id := 1, p := { op := 0, src := 0x14 }, start := 0, waits := [], need := needs }] } }

/-- Every home's recall walk for site 5 at set `k`. -/
def recalling (k : Nat) : State := { offline 3 (dom 5 2 1 two) with homes := List.replicate 64 { recallOp := some (5, k) } }

set_option maxRecDepth 200000 in
theorem wit_siteOffline :
    mbSt (out (.siteOffline false 5 []) (mbArg [16] two)) = [2, 0x10, 5] ∧ mbSt (out (.siteOffline false 5 []) (mbArg [7] two)) = [4, 0x10, 5] ∧ twoQorsy.bootSite = some 5 ∧
    mbSt (out (.siteOffline false 5 []) (mbArg [5] twoQorsy)) = [4, 0x10, 5] ∧ (out (.siteOffline false 5 []) (mbArg [5] two)).smith.phase = 1 ∧
    (offline 1 (two.put (pgSITE 5) Fld.BND_OUT_COUNT 1)).siteQuiet 5 = false ∧ (out (.siteQuiesceDone) (offline 1 two)).smith.phase = 2 ∧
    ((out (.siteQuiesceDone) (offline 1 two)).siteAt 5).drains.map (·.p.op) = [0] ∧ (drain5 [2]).drainReady { id := 1, p := { op := 0, src := 0x14 }, start := 0, waits := [], need := [2] } = false ∧
    (out (.siteDrainDone) (drain5 [])).smith.phase = 3 ∧ ((out (.siteDrainDone) (drain5 [])).homeAt 63).recallOp = some (5, 0) ∧
    mbSt (out (.platUpdate) (offline 5 two)) = [0, 0x10, 4] := by decide +kernel

set_option maxRecDepth 200000 in
theorem wit_recallDone : (recalling 12287).smith.phase = 3 ∧ (out (.recallDone) (recalling 12288)).admitted 5 = false ∧ (out (.recallDone) (recalling 12288)).smith.phase = 5 := by decide +kernel

set_option maxRecDepth 200000 in
theorem wit_siteOnline :
    mbSt (out (.siteOnline false 5 []) (mbArg [16] two)) = [2, 0x11, 5] ∧ mbSt (out (.siteOnline false 5 []) (mbArg [5] two)) = [4, 0x11, 5] ∧
    (let s := mbArg [7, 0x1000, 1] { State.reset with pop := 0x80 }
     ((out (.siteOnline false 5 []) s).siteAt 7).trav.isSome = true ∧ (out (.siteOnline false 5 []) s).smith.startPa = 0x100001000 ∧ s.fenced 7 = true ∧ s.walkClear 7 = true) ∧
    ((out (.startReceived 5 2 0x1000 []) (up.setLk 5 2 .die { st := 4 })).dieAt 5).start = some 0x1000 := by decide +kernel

/-- Modules 1 and 2 of site 5 ACTIVE, both ends. -/
def pair5 : State := ((((two.setLk 5 2 .hub { st := 4 }).setLk 5 2 .die { st := 4 }).setLk 5 1 .hub { st := 4 }).setLk 5 1 .die { st := 4 })

/-- Module 2 of site 5 retired, the site's domain on. -/
def retired5 : State := dom 5 2 1 ((two.setLk 5 2 .hub { st := 7 }).setLk 5 2 .die { st := 7 })

/-- A change of routes in progress, with one packet in the fabric or none. -/
def changing (l : List InFlight) (t : Nat) : State :=
  { clock t up with fab := { hold := true }, smith := { op := some 0x14, tag := 4, phase := 10 }, net := l, routeBasePend := [(0, 3)] }

set_option maxRecDepth 200000 in
theorem wit_modules :
    mbSt (out (.moduleRetire false 5 []) (mbArg [5, 4] pair5)) = [2, 0x12, 5] ∧ mbSt (out (.moduleRepair false 5 []) (mbArg [5, 4] pair5)) = [2, 0x13, 5] ∧
    mbSt (out (.moduleRetire false 5 []) (mbArg [5, 2] (two.setLk 5 2 .hub { st := 4 }))) = [4, 0x12, 5] ∧
    ((out (.moduleRetire false 5 []) (mbArg [5, 2] pair5)).lk 5 2 .hub).st = 7 ∧ (out (.moduleRetire false 5 []) (mbArg [5, 2] pair5)).smith.routeSet = 23 ∧
    mbSt (out (.moduleRetire false 5 []) (mbArg [5, 2] { pair5 with smith := { routeSet := 22 } })) = [0, 0x12, 5] ∧
    mbSt (out (.moduleRepair false 5 []) (mbArg [5, 2] pair5)) = [4, 0x13, 5] ∧ ((out (.moduleRepair false 5 []) (mbArg [5, 2] retired5)).lk 5 2 .hub).st = 1 ∧
    out (.alternateRouteApply 5 2) pair5 = pair5 ∧ (out (.alternateRouteApply 5 2) retired5).smith.autoOp = some (2, 22) := by decide +kernel

set_option maxRecDepth 200000 in
theorem wit_routes :
    mbSt (out (.routeSwap false 5 []) (mbArg [0xE0] up)) = [2, 0x14, 5] ∧ (out (.routeSwap false 5 []) up).fab.hold = true ∧
    (changing [⟨{ op := 0, src := 0 }, .rtr 3 1, 0⟩] 0).fabricEmpty = false ∧ (changing [] 0).fabricEmpty = true ∧ (changing [] 0).qGroup (pgFAB 0) = some 1 ∧
    mbSt (out (.routeQuiesceDone) (changing [] 0)) = [0, 0x14, 4] ∧ (out (.routeQuiesceDone) (changing [] 0)).baseSet 0 = 3 ∧
    out (.routeQuiesceTimeout) (changing [] 20000) = changing [] 20000 ∧ mbSt (out (.routeQuiesceTimeout) (changing [⟨{ op := 0, src := 0 }, .rtr 3 1, 0⟩] 20000)) = [7, 0x14, 4] := by decide +kernel

set_option maxRecDepth 200000 in
theorem wit_serviceCommands :
    mbSt (out (.fwStage false 5 []) (mbArg [0, 0x40000, 64] up)) = [6, 0x18, 5] ∧ mbSt (out (.fwStage false 5 []) (mbArg [0, 0, 0] up)) = [4, 0x18, 5] ∧ (up.readBytes 0 64).isSome = true ∧
    mbSt (out (.fwActivate false 5 []) up) = [4, 0x19, 5] ∧ (out (.fwActivate false 5 []) (up.put pgSMITH Fld.FW_STAT_STAGED 1)).flash.slot = 1 ∧
    mbSt (out (.chanSpare false 5 []) (mbArg [12, 0] up)) = [2, 0x20, 5] ∧ mbSt (out (.chanSpare false 5 []) (up.put (pgSTK 0) Fld.STK_STAT_SPARE_USED 1)) = [4, 0x20, 5] ∧
    (out (.chanSpare false 5 []) (mbArg [3, 7] up)).mem.spareChan = [(3, 7)] ∧ mbSt (out (.hearthOffline false 5 []) (mbArg [8] up)) = [2, 0x21, 5] ∧ mbSt (out (.hearthOnline false 5 []) (mbArg [8] up)) = [2, 0x22, 5] ∧
    mbSt (out (.hearthOffline false 5 []) up) = [4, 0x21, 5] ∧ mbSt (out (.hearthOnline false 5 []) (mbArg [2] up)) = [4, 0x22, 5] ∧
    (out (.hearthOnline false 5 []) (mbArg [2] (up.put (pgHRTH 0) Fld.HRTH_GSTAT_OFFLINE 4))).votes 30 = 1 := by decide +kernel

set_option maxRecDepth 200000 in
theorem wit_hearthOffline : (out (.hearthOffline false 5 []) (mbArg [2] up)).get (pgHRTH 0) Fld.HRTH_GSTAT_OFFLINE = 4 ∧ ((out (.hearthOffline false 5 []) (mbArg [2] up)).hearthAt 23).mode = 2 := by decide +kernel

set_option maxRecDepth 200000 in
theorem wit_portsAndEmber :
    (out (.smithRestart true 5 []) up).smith.running = false ∧ mbSt (out (.portMode true 5 [4, 0]) up) = [2, 0x28, 5] ∧
    mbSt (out (.portMode true 5 [1, 2]) (up.setShadow (pgNEP 1) Reg.PORT_CFG 0)) = [4, 0x28, 5] ∧
    (out (.portMode true 5 [1, 2]) (dom 37 2 1 up)).get (pgNEP 1) Fld.PORT_CFG_MODE = 2 ∧ (dom 37 2 1 up).qGroup (pgNEP 1) = some 8 ∧ (∀ k, k < 6 → (dom 37 2 1 up).qGroup (pgFAB k) ≠ some 8) ∧
    mbSt (out (.emberRelease true 5 [4]) up) = [2, 0x30, 5] ∧ mbSt (out (.emberRelease true 5 [1]) up) = [0, 0x30, 5] ∧ (out (.emberRelease true 5 [1]) up).flag (pgEMB 1) Fld.EMB_STAT_RELEASED = true := by
  decide +kernel

set_option maxRecDepth 200000 in
theorem wit_bmcAndPlat :
    out (.bmcHeartbeat) up = up ∧ (out (.bmcHeartbeat) (clock 100000000 up)).smith.ibi = some 1 ∧ (out (.bmcMbStatRead) { up with smith := { op := some 1 } }).smith.bmcData = 1 ∧
    (out (.bmcMbStatRead) { up with smith := { bmcBusy := some (0x20, 5) } }).smith.bmcData = 0x200530 ∧
    (out (.platUpdate) up).get pgPKG Fld.PLAT_SEQ_SEQ = 2 ∧ (out (.platUpdate) up).reg pgPKG (Reg.PLAT 0) = 0x01400001 ∧ out (.platUpdate) (out (.platUpdate) up) = out (.platUpdate) up ∧
    out (.platUpdate) { up with smith := { running := false } } = { up with smith := { running := false } } := by decide +kernel

/-- Lane 5 fed by E1 while E0 is not verified. -/
def lone5 : State := lit5.put (pgEMB 0) Fld.EMB_STAT_RESULT 0

theorem wit_releaseRefused : lone5.laneInUse 0 5 = true ∧ lone5.laneSrc 0 5 = 1 ∧ lone5.laneFed 0 5 = true ∧ lone5.chanUsable 0 5 = false ∧
    mbSt (out (.emberRelease true 5 [1]) lone5) = [4, 0x30, 5] := by decide +kernel

/-! ### Events and the Field Book -/

/-- Site 5 has 32 cores; group 2 routes to core 161, vector 7, with all but source 64 masked. -/
def routed5 (en : Nat) : State :=
  ((active5.put (pgSITE 5) Fld.TRAV_RESULT_CORES 32).setReg pgEVT (Reg.EVT_ROUTE 2) (161 + 7 * 2 ^ 10 + en * 2 ^ 31)).setReg pgEVT (Reg.EVT_MASK 2) 0xFFFFFFFE

/-- Source 64 pending. -/
def pend64 (s : State) : State := s.setReg pgEVT (Reg.EVT_PEND 2) 1

/-- Source 64 in a storm that began at 10, `k` firings suppressed. -/
def storm64 (k : Option Nat) (s : State) : State := { s.setReg pgEVT (Reg.EVT_STORM 2) 1 with storm := { on := [(64, (10, k))] } }

/-- Cores, vectors and sequence numbers of the messages of site 5. -/
def msgs (s : State) : List (Nat × Nat × Option Nat) := (s.siteAt 5).intr.map fun y => (y.core, y.vector, y.seq)

theorem wit_firings :
    (routed5 1).off = false ∧ (routed5 1).coreOk 161 = true ∧ Routed (routed5 1) 64 ∧ ¬ Routed (routed5 0) 64 ∧ srcAssigned 64 = true ∧ srcAssigned 74 = false ∧
    stormable 64 = true ∧ Tab.get? 64 (routed5 1).storm.on = none ∧ (routed5 1).get pgEVT Fld.EVT_STORM_CFG_COUNT = 64 ∧ (routed5 1).storm.win = [] ∧
    msgs (out (.eventFire 64) (routed5 1)) = [(161, 7, some 0)] ∧ msgs (out (.eventFire 64) (routed5 0)) = [] ∧ msgs (out (.eventFire 64) (pend64 (routed5 1))) = [] ∧
    (out (.eventFire 64) (routed5 0)).smith.copies = [64] ∧ out (.eventFire 74) up = up ∧
    (out (.eventFire 64) ((routed5 1).put (pgSITE 5) Fld.TRAV_RESULT_CORES 1)).get pgEVT Fld.EVT_MSG_DROP_CNT_COUNT = 1 ∧
    ((out (.eventFire 64) (storm64 (some 3) up)).storm.on) = [(64, (10, some 4))] := by
  unfold Routed; decide +kernel

/-- Source 64 has fired 64 times since 5, at a time. -/
def busy64 (t : Nat) : State := { clock t (routed5 1) with storm := { win := [(64, (5, 64))] } }

theorem wit_storms :
    (busy64 100).get pgEVT Fld.EVT_STORM_CFG_WINDOW = 10 ∧ (busy64 100).storm.on = [] ∧ (out (.eventFire 64) (busy64 100)).storm = { on := [(64, (100, some 1))] } ∧
    (out (.eventFire 64) (busy64 100)).recs.map (·.typ) = [0x16] ∧ msgs (out (.eventFire 64) (busy64 100)) = [] ∧
    out (.stormEnd 64) (clock 100000009 (storm64 (some 3) up)) = clock 100000009 (storm64 (some 3) up) ∧
    (out (.stormEnd 64) (clock 100000010 (storm64 (some 3) up))).recs.map (·.words) = [[3]] ∧
    msgs (out (.stormEnd 64) (clock 100000010 (pend64 (storm64 (some 3) (routed5 1))))) = [(161, 7, some 0)] ∧ out (.stormEnd 64) up = up ∧
    out (.stormWindowEnd 64) (busy64 1000004) = busy64 1000004 ∧ (out (.stormWindowEnd 64) (busy64 1000005)).storm.win = [] ∧
    (out (.evtSwTrig 1279) up).raised = [srcAccErr] ∧ (out (.evtSwTrig 1280) up).raised = [1280] := by decide +kernel

theorem wit_masks :
    (out (.evtMaskWrite (Reg.EVT_MASK 2) 5) (routed5 0)).reg pgEVT (Reg.EVT_MASK 2) = 5 ∧
    (out (.evtMaskWrite (Reg.EVT_PEND 2) 1) (pend64 up)).reg pgEVT (Reg.EVT_PEND 2) = 0 ∧
    (out (.evtMaskWrite (Reg.EVT_ROUTE 2) 0x803FFFFF) up).reg pgEVT (Reg.EVT_ROUTE 2) = 0x803FFFFF ∧
    msgs (out (.evtMaskWrite (Reg.EVT_MASK 2) 0) ((pend64 (routed5 1)).setReg pgEVT (Reg.EVT_MASK 2) 1)) = [(161, 7, some 0)] := by decide +kernel

/-- A device write by the IXU to the message window of core 161. -/
def toCore (op : BitVec 7) : Pkt := { op := op, src := 0xA0, dst := 0x50, txn := 9, addr := BitVec.ofNat 46 ((0xFFEFFFF000000 + 161 * 0x4000) / 64), hasData := true, data := 0x3007, mask := 15 }

/-- Site 5 with one message sent, its time of consumption 10, sent at 20. -/
def msg5 (t : Nat) : State := { clock t active5 with sites := modOf 16 {} [] 5 fun (x : Site) => { x with intr := [{ core := 161, vector := 7, since := 10, seq := some 3, sent := 20 }] } }

/-- INTR of that message in flight to the die. -/
def intr5 : State := active5.setLk 5 2 .hub { st := 4, outbox := [⟨{ seq := 0, ack := 0 }, ⟨0x64, [3, 1, 7]⟩⟩] } |>.setLk 5 2 .die { st := 4 }

theorem wit_interrupts :
    paOf (toCore 0x68).addr.toNat = 0xFFEFFFF000000 + 161 * 0x4000 ∧
    msgs (out (.interruptMessage (toCore 0x68)) { active5 with net := [⟨toCore 0x68, .rx, 0⟩] }) = [(161, 7, some 0)] ∧
    (out (.interruptMessage (toCore 0x71)) { active5 with net := [⟨toCore 0x71, .rx, 0⟩] }).net.map (fun e => (e.p.op, e.p.dst, e.p.txn)) = [(0x78, 0xA0, 9)] ∧
    intr5.power.stopped = false ∧ ((out (.intr 5 2 3 1 7 []) intr5).dieAt 5).intrs = [(1, 7)] ∧ (out (.intr 5 2 3 1 7 []) intr5).dieAt 6 = active5.dieAt 6 ∧
    ((out (.intr 5 2 3 1 7 []) intr5).lk 5 2 .die).outbox.map (·.lm) = [⟨0x65, [3]⟩] ∧ out (.intr 5 2 4 1 7 []) intr5 = intr5 ∧
    msgs (out (.intrAck 5 2 3 []) (msg5 30)) = [] ∧ (msg5 1020).lowActive 5 = some 2 ∧ ((out (.intrResend 5) (msg5 1020)).lk 5 2 .hub).outbox.map (·.lm) = [⟨0x64, [3, 1, 7]⟩] ∧
    (out (.intrResend 5) (msg5 1019)).links = (msg5 1019).links ∧ out (.intrTimeout 5) (msg5 20009) = msg5 20009 ∧
    msgs (out (.intrTimeout 5) (msg5 20010)) = [] ∧ (out (.intrTimeout 5) (msg5 20010)).get pgEVT Fld.EVT_MSG_DROP_CNT_COUNT = 1 := by decide +kernel

/-- R703's BND_VIOL record and a short one. -/
def rec1 : Rec := { typ := 7, cls := 3, source := 0x111, page := 0x15, node := 0x14, opcode := 0x10, sub := 6, addr := some 0x123456789A, words := [5], fires := true }
def rec2 : Rec := { typ := 2, cls := 0, source := 3, page := 0 }

/-- `n` capture words in the bank, `m` in the other. -/
def banks (n m : Nat) : State :=
  { clock 7 up with recs := [rec1, rec2], book := { cur := List.replicate n { w := [1, 2, 3, 4], vbytes := 16, sor := true }, other := List.replicate m { w := [1, 2, 3, 4], vbytes := 16, sor := true } } }

/-- The worked example under R710. -/
theorem test_record : recWords { typ := 0x0E, cls := 3, source := 273, page := 0x1D, node := 0x34, opcode := 5, addr := some 0x40001FC0, words := [0x4D] } 0x1234567890 =
    [0x19110E07, 0x34567890, 0x12, 0x0053401D, 0x40001FC0, 0, 0x4D] := by decide

theorem wit_capture :
    recWords rec1 7 = [7 + 7 * 2 ^ 8 + 0x111 * 2 ^ 16 + 3 * 2 ^ 27, 7, 0, 0x15 + 0x14 * 2 ^ 12 + 0x10 * 2 ^ 20 + 6 * 2 ^ 27, 0x3456789A, 0x12, 5] ∧ (recWords rec2 7).length = 4 ∧
    (packWords 8 (recWords rec1 7) true).map (fun x => (x.vbytes, x.sor)) = [(16, true), (12, false)] := by decide +kernel

set_option maxRecDepth 200000 in
theorem wit_records :
    (out (.fbRecord none) (banks 504 1)).book.cur.length = 506 ∧ (out (.fbRecord none) (banks 504 1)).raised = [0x111] ∧ (out (.fbRecord none) (banks 505 1)).book.drops = some (1, 7) ∧ (out (.fbRecord none) (banks 505 1)).raised = [0x111, srcFbDrop] ∧
    (out (.fbRecord none) { banks 505 1 with book := { (banks 505 1).book with drops := some (4, 5) } }).book.drops = some (5, 5) := by decide +kernel

set_option maxRecDepth 200000 in
theorem wit_dropRecord : (out (.fbRecord none) { banks 500 1 with book := { (banks 500 1).book with drops := some (4, 5) } }).book.cur.length = 505 ∧
    (out (.fbRecord none) { banks 500 1 with book := { (banks 500 1).book with drops := some (4, 5) } }).book.drops = none ∧
    (out (.fbRecord (some 5)) { banks 504 1 with recs := [{ rec1 with page := pgSMITH }] }).book.openRec.map (fun o => (o.words.length, o.written, o.last)) = some (7, 5, 7) ∧
    out (.fbRecord none) up = up := by decide +kernel

/-- A record open since 10 with 5 of 7 words. -/
def open5 (t : Nat) : State := { clock t up with book := { openRec := some { words := recWords rec1 7, written := 5, last := 10 } } }

set_option maxRecDepth 200000 in
theorem wit_openRecord :
    (out (.fbRecord none) (open5 20)).book.cur.map (·.vbytes) = [16, 12] ∧ out (.fbTrunc) (open5 10009) = open5 10009 ∧
    (out (.fbTrunc) (open5 10010)).book.cur.map (·.vbytes) = [16, 4] ∧ (out (.fbTrunc) (open5 10010)).get pgFB Fld.FB_TRUNC_CNT_COUNT = 1 ∧
    (out (.fbBankHandoff []) (banks 3 0)).book.fifo.length = 3 ∧ (out (.fbBankHandoff []) (banks 3 0)).get pgFB Fld.FB_STAT_LEVEL = 3 ∧
    (out (.fbBankHandoff [(2, .corrected)]) (banks 3 0)).get pgFB Fld.FB_CE_COUNT_COUNT = 1 ∧
    (out (.fbBankHandoff [(2, .uncorrectable)]) (banks 3 0)).book.fifo.map (·.ue) = [false, false, true] := by decide +kernel

/-- Two words in the FIFO. -/
def fifo2 (dma : Nat) : State :=
  { (up.put pgFB Fld.FB_CTL_DMA dma) with book := { fifo := [{ w := [1, 2, 3, 4], vbytes := 16, sor := true }, { w := [5, 6, 7, 8], vbytes := 4, sor := false }] } }

/-- A ring write outstanding, `n` entries written since FB_DATA fired, the first at 9. -/
def ring (n : Nat) : State := { fifo2 1 with book := { (fifo2 1).book with busy := true, since := n, first := some 9 } }

/-- The Cmp of a ring write. -/
def fbCmp (e : Nat) : Pkt := { op := 0x41, src := 0x00, dst := nodeFB, addr := BitVec.ofNat 46 e }

theorem wit_reading :
    (out (.fbPop true .clean) (fifo2 1)).readData = 0 ∧ (out (.fbPop true .clean) (fifo2 0)).readData = 0x400000003 ∧ (out (.fbPop false .corrected) (fifo2 0)).readData = 4 ∧
    (out (.fbPop false .uncorrectable) (fifo2 0)).book.fifo.length = 1 ∧ (out (.fbPop false .clean) up).flag pgFB Fld.FB_STAT_UNDERRUN = true ∧
    out (.fbRingWrite .clean) (fifo2 0) = fifo2 0 ∧ out (.fbRingWrite .clean) up = up ∧ (fifo2 1).ringLog = 10 ∧
    out (.fbRingWrite .clean) ((fifo2 1).put pgFB Fld.FB_RING_HEAD_INDEX 1) = (fifo2 1).put pgFB Fld.FB_RING_HEAD_INDEX 1 ∧
    (out (.fbRingWrite .clean) ((fifo2 1).put pgFB Fld.FB_RING_TAIL_INDEX 3)).net.map (fun e => (e.p.op, e.p.addr, e.p.mask)) = [(0x06, 1, 0xFFFFFFFF00000000)] ∧
    (out (.fbRingCmp (fbCmp 2)) (ring 3)).book.halt = true ∧ (out (.fbRingCmp (fbCmp 0)) (ring 3)).ringTail = 1 ∧ (out (.fbRingCmp (fbCmp 0)) (ring 3)).raised = [] ∧
    (out (.fbRingCmp (fbCmp 0)) (ring 15)).raised = [srcFbData] ∧ (out (.fbRingCmp (fbCmp 0)) ((ring 3).put pgFB Fld.FB_RING_TAIL_INDEX 1023)).book.phase = !(ring 3).book.phase ∧
    out (.fbDataTimer) (clock 100008 (ring 3)) = clock 100008 (ring 3) ∧ (out (.fbDataTimer) (clock 100009 (ring 3))).raised = [srcFbData] := by decide +kernel

/-! ### Performance counters -/

/-- Site 5 also has SNAP committed. -/
def snap5 (t : Nat) : State := clock t (active5.put (pgSITE 5) Fld.TRAV_CAP_LO_CAP 8)

/-- An action on the counters, its sites to answer. -/
def acting (a : PmuAct) (t : Nat) : State := { snap5 t with pmu := some a, pmuSeq := 4 }

def act1 : PmuAct := { freeze := true, unfreeze := false, snap := true, clear := true, t := some 2000, seq := 3, waits := [5] }

/-- Counter 2 of HOME3 holds 2^48 - 1 and counts. -/
def full2 : State := (((up.put (pgHOME 3) (Fld.PMC_CNT_LO_CNT_LO 2) 0xFFFFFFFF).put (pgHOME 3) (Fld.PMC_CNT_HI_CNT_HI 2) 0xFFFF).put (pgHOME 3) (Fld.PMC_CTL_EN 2) 1)

set_option maxRecDepth 200000 in
theorem wit_pmuWrite :
    (out (.freeze true false true) (snap5 7)).pmu.map (·.waits) = some [5] ∧ ((out (.freeze true false true) (snap5 7)).lk 5 2 .hub).outbox.map (·.lm) = [⟨0x66, [0, 5, 2007]⟩] ∧
    (out (.unfreeze false false false) (snap5 7)).pmu.map (·.waits) = some [] ∧ (out (.snap true false) (snap5 7)).pmu.map (fun a => (a.snap, a.clear, a.freeze)) = some (true, true, false) ∧
    (out (.clear false true) (acting act1 7)).flag pgSMITH Fld.PMU_STAT_OVERLAP = true ∧ (snap5 7).lowActive 5 = some 2 := by decide +kernel

set_option maxRecDepth 200000 in
theorem wit_pmuEdge :
    out (.pmuEdge) (acting act1 1999) = acting act1 1999 ∧
    (let s := { full2 with time := 2000, pmu := some { act1 with waits := [] } }
     let t := out (.pmuEdge) s
     t.frozen = true ∧ t.get (pgHOME 3) (Fld.PMC_SNAP_HI_SNAP_HI 2) = 0xFFFF ∧ t.get (pgHOME 3) (Fld.PMC_CNT_LO_CNT_LO 2) = 0 ∧ t.get pgSMITH Fld.SNAP_TIME_LO_TIME = 2000 ∧
     t.pmu = none ∧ t.get pgSMITH Fld.PMU_STAT_SEQ = 1 ∧ State.instrumented (pgHOME 3) = true ∧ s.pageOff (pgHOME 3) = false ∧ s.pageOff (pgHRTH 3) = true) ∧
    (out (.pmuEdge) (acting act1 2000)).pmu = some { act1 with edge := true } := by decide +kernel

/-- A PMU frame for site 5 in flight. -/
def pmuSent (t : Nat) : State := clock t ((active5.setLk 5 2 .hub { st := 4, outbox := [⟨{ seq := 0, ack := 0 }, ⟨0x66, [3, 13, 2000]⟩⟩] }).setLk 5 2 .die { st := 4 })

/-- The die of site 5 holds the actions of sequence number 3. -/
def pmuHeld (t : Nat) : State := { clock t active5 with dies := modOf 16 {} [] 5 fun (x : Die) => { x with pmu := some (3, 2000, 13) } }

theorem wit_pmuDies :
    ((out (.pmu 5 2 3 13 2000 []) (pmuSent 1999)).dieAt 5).pmu = some (3, 2000, 13) ∧ ((out (.pmu 5 2 3 13 2000 []) (pmuSent 2001)).lk 5 2 .die).outbox.map (·.lm) = [⟨0x67, [3, 1]⟩] ∧
    ((out (.pmu 5 2 3 13 2000 []) (pmuSent 2000)).dieAt 5).pmuDone = 13 ∧ out (.pmu 5 2 3 13 2000 []) up = up ∧
    ((out (.pmu 5 2 0 0 0 []) (pmuHeld 2000)).lk 5 2 .die).outbox.map (·.lm) = [⟨0x67, [3, 0]⟩] ∧ out (.pmu 5 2 0 0 0 []) (pmuHeld 1999) = pmuHeld 1999 := by decide +kernel

set_option maxRecDepth 200000 in
theorem wit_pmuAcks :
    (out (.pmuAck 5 2 3 true []) (acting { act1 with edge := true } 3000)).get pgSMITH Fld.PMU_LATE_SITE = 0x20 ∧ (out (.pmuAck 5 2 3 false []) (acting { act1 with edge := true } 3000)).pmu = none ∧
    (out (.pmuAck 5 2 3 false []) (acting act1 1000)).pmu = some { act1 with waits := [] } ∧ (out (.pmuAck 5 2 2 false []) (acting act1 1000)).pmu = some act1 ∧
    out (.pmuAckTimeout 5) (acting act1 11999) = acting act1 11999 ∧ (out (.pmuAckTimeout 5) (acting act1 12000)).get pgSMITH Fld.PMU_LATE_SITE = 0x20 := by decide +kernel

theorem wit_counterWrites :
    State.instrumented (pgSMITH) = false ∧ out (.pmcCntWrite pgSMITH 2 true 5) up = up ∧ out (.pmcCntWrite (pgHRTH 3) 2 true 5) up = up ∧
    (out (.pmcCntWrite (pgHOME 3) 2 true 5) full2).get (pgHOME 3) (Fld.PMC_CNT_HI_CNT_HI 2) = 5 ∧ (out (.pmcCntWrite (pgHOME 3) 7 false 5) full2).get (pgHOME 3) (Fld.PMC_CNT_LO_CNT_LO 7) = 5 ∧
    out (.counterWrap (pgHOME 3) 2 0) full2 = full2 ∧ out (.counterWrap (pgHOME 3) 2 1) { full2 with frozen := true } = { full2 with frozen := true } ∧
    (out (.counterWrap (pgHOME 3) 2 2) full2).get (pgHOME 3) (Fld.PMC_CNT_LO_CNT_LO 2) = 1 ∧ (out (.counterWrap (pgHOME 3) 2 2) full2).get (pgHOME 3) Fld.PMC_OVF_OVF = 4 := by decide +kernel

/-! ### Ill-formed commands that the checks refuse -/

theorem test_illFormed :
    Instr.wellFormed (.drainComplete 16) = false ∧ Instr.wellFormed (.lnkEnable 0 4) = false ∧ Instr.wellFormed (.containVisit 64) = false ∧
    Instr.wellFormed (.domainDrop 50) = false ∧ Instr.wellFormed (.emberRemove 4) = false ∧ Instr.wellFormed (.flrStart 1025) = false ∧
    Instr.wellFormed (.laneApply 2 0) = false ∧ Instr.wellFormed (.spareAutoStart 12 0) = false ∧ Instr.wellFormed (.spareAutoStart 0 16) = false ∧
    Instr.wellFormed (.memWrite (2 ^ 46)) = false ∧ Instr.wellFormed (.outputArbitration 96) = false ∧ Instr.wellFormed (.go 24) = false ∧
    Instr.wellFormed (.wakeMatch 4 { len := 64 }) = false ∧ Instr.wellFormed (.pcieLinkUp 6 0) = false ∧ Instr.wellFormed (.pcieLinkUp 0 4) = false ∧
    Instr.wellFormed (.rawFallingEdge 12) = false ∧ Instr.wellFormed (.interfaceUp 16) = false ∧ Instr.wellFormed (.transactionContinue 0 1032) = false ∧
    Instr.wellFormed (.repairReqResend 0 4 .hub) = false ∧ Instr.wellFormed (.spareFailed 0 0 .hub 4 []) = false ∧ Instr.wellFormed (.laneSwitch 0 8) = false := by decide

theorem test_illFormed2 :
    Instr.wellFormed (.registerWrite 0 0x7 0x100 4 0) = false ∧ Instr.wellFormed (.registerWrite 0 0 0x10000 4 0) = false ∧ Instr.wellFormed (.registerWrite 0 0 0x100 3 0) = false ∧
    Instr.wellFormed (.quench 0x10000) = false ∧ Instr.wellFormed (.pageQgrpWrite 0x40 16) = false ∧ Instr.wellFormed (.eventFire 2048) = false ∧
    Instr.wellFormed (.evtSwTrig 2048) = false ∧ Instr.wellFormed (.ctxFill 0x100000) = false ∧ Instr.wellFormed (.intr 0 0 0 32 0 []) = false ∧
    Instr.wellFormed (.meterRelease 0 0 8) = false ∧ Instr.wellFormed (.stackTempChange 0 256) = false ∧ Instr.wellFormed (.rtEntryWrite 6 0 0) = false ∧
    Instr.wellFormed (.rtrWeightWrite 5 0 0) = false ∧ Instr.wellFormed (.pmcCntWrite 0x40 8 true 0) = false ∧ Instr.wellFormed (.configWrite 0 0x1000 0 0) = false ∧
    Instr.wellFormed (.lateCompletion 0 0 256) = false ∧ Instr.wellFormed (.ping true 256 []) = false ∧ Instr.wellFormed (.eventFire 2047) = true ∧
    Instr.wellFormed (.registerWrite 0 0 0x100 4 0) = true := by decide

/-- DV384-A is PART 3 with sites C0 to C11 alone (R2); a wrong bit lies within its frame or unit. -/
theorem test_illFormed3 :
    Instr.wellFormed (.coldReset 0 0 0 0xFFFF true [] 0 0 [] []) = false ∧ Instr.wellFormed (.coldReset 0 0 1 0xFFF true [] 0 0 [] []) = false ∧
    Instr.wellFormed (.coldReset 0 0 3 0xFFFF true [] 0 0 [] []) = false ∧ Instr.wellFormed (.coldReset 0 0 3 0xFFF true [] 0 0 [] []) = true ∧
    Instr.wellFormed (.coldReset 0 0 2 0x5FFF true [] 0 0 [] []) = true ∧ Instr.wellFormed (.coldReset 0 0 2 0xF000 true [] 0 0 [] []) = false ∧
    Instr.wellFormed (.ackFrame 0 0 .hub [[2048]]) = false ∧ Instr.wellFormed (.idleReq 0 0 .hub (List.replicate 9 [])) = false ∧
    Instr.wellFormed (.ackFrame 0 0 .hub [[2047]]) = true ∧ Instr.wellFormed (.unitReceive { op := 1, src := 0 } 0 0 { hecc := [96] }) = false ∧
    Instr.wellFormed (.unitReceive { op := 1, src := 0 } 0 0 { words := [[72]] }) = false ∧
    Instr.wellFormed (.unitReceive { op := 1, src := 0 } 0 0 { words := [[71]] }) = true := by decide

end Sys2Proof.Tests
end

section
/-! Frame facts about the state that the proofs of the home and of start-up share. -/

namespace Sys2Proof.Proofs

open Sys2Proof Sys2Proof.Machine Sys2Proof.Safety

/-! ### Counters leave everything but the counter block -/

@[simp] theorem bump_net (s : State) (p code q : Nat) (a b c : Option Nat) : (s.bump p code q a b c).net = s.net := by rw [bump_eq]
@[simp] theorem bump_off (s : State) (p code q : Nat) (a b c : Option Nat) : (s.bump p code q a b c).off = s.off := by rw [bump_eq]
@[simp] theorem bump_time (s : State) (p code q : Nat) (a b c : Option Nat) : (s.bump p code q a b c).time = s.time := by rw [bump_eq]
@[simp] theorem bump_homes (s : State) (p code q : Nat) (a b c : Option Nat) : (s.bump p code q a b c).homes = s.homes := by rw [bump_eq]
@[simp] theorem bump_mem (s : State) (p code q : Nat) (a b c : Option Nat) : (s.bump p code q a b c).mem = s.mem := by rw [bump_eq]
@[simp] theorem bump_smith (s : State) (p code q : Nat) (a b c : Option Nat) : (s.bump p code q a b c).smith = s.smith := by rw [bump_eq]

/-- A field below the counter block is none that an occurrence counts in (R714). -/
theorem get_bump (s : State) (p code q r : Nat) (f : FRef) (a b c : Option Nat) (hf : f.off < 0x3040) :
    (s.bump p code q a b c).get r f = s.get r f := by
  unfold State.get; rw [bump_reg _ _ _ _ _ _ _ _ _ (by omega) (by omega)]

@[simp] theorem consume_regs (s : State) (p : Pkt) : (s.consume p).regs = s.regs := by rw [consume_eq]
@[simp] theorem consume_homes (s : State) (p : Pkt) : (s.consume p).homes = s.homes := by rw [consume_eq]
@[simp] theorem consume_mem (s : State) (p : Pkt) : (s.consume p).mem = s.mem := by rw [consume_eq]
@[simp] theorem consume_smith (s : State) (p : Pkt) : (s.consume p).smith = s.smith := by rw [consume_eq]
@[simp] theorem consume_off (s : State) (p : Pkt) : (s.consume p).off = s.off := by rw [consume_eq]
@[simp] theorem consume_time (s : State) (p : Pkt) : (s.consume p).time = s.time := by rw [consume_eq]

/-- A register reads by the register file alone. -/
theorem reg_of_regs {s t : State} (h : t.regs = s.regs) (p off : Nat) : t.reg p off = s.reg p off := by
  unfold State.reg; rw [h]

theorem get_of_regs {s t : State} (h : t.regs = s.regs) (p : Nat) (f : FRef) : t.get p f = s.get p f := by
  unfold State.get; rw [reg_of_regs h]

theorem flag_of_regs {s t : State} (h : t.regs = s.regs) (p : Nat) (f : FRef) : t.flag p f = s.flag p f := by
  unfold State.flag; rw [get_of_regs h]

/-- A one-bit field that hardware has set is set. -/
theorem flag_raise1_same (s : State) (p : Nat) (f : FRef) (hw : f.width = 1) (hf : f.lo < 32) : (s.raise1 p f).flag p f = true := by
  unfold State.flag State.raise1
  rw [get_put_same _ _ _ _ (by omega), hw]; rfl

/-- A counter field after it was counted up (R167). -/
theorem get_count_same (s : State) (p n : Nat) (f : FRef) (hf : f.lo + f.width ≤ 32) :
    (s.count p f n).get p f = satAdd (s.get p f) n (2 ^ f.width - 1) := by
  unfold State.count
  rw [get_put_same _ _ _ _ hf]
  apply Nat.mod_eq_of_lt
  have : 0 < 2 ^ f.width := by positivity
  unfold satAdd; omega

end Sys2Proof.Proofs
end

section
/-! ### What a home's requests read -/

namespace Sys2Proof.Proofs

open Sys2Proof Sys2Proof.Machine Sys2Proof.Safety

theorem homeAt_of_homes {s t : State} (h : t.homes = s.homes) (i : Nat) : t.homeAt i = s.homeAt i := by
  unfold State.homeAt; rw [h]

/-- The directory state of a line lies in the directory of its home. -/
theorem lineDir_of_dir {s t : State} {i : Nat} (h : (t.homeAt i).dir = (s.homeAt i).dir) (l : Nat) : t.lineDir i l = s.lineDir i l := by
  unfold State.lineDir State.dirFind State.dirAt; rw [h]

theorem lineBusy_of_homes {s t : State} (h : t.homes = s.homes) (i l : Nat) : t.lineBusy i l = s.lineBusy i l := by
  unfold State.lineBusy; rw [homeAt_of_homes h]

theorem heldForOther_of_homes {s t : State} (h : t.homes = s.homes) (i src l : Nat) : t.heldForOther i src l = s.heldForOther i src l := by
  unfold State.heldForOther State.oldestRsv; rw [homeAt_of_homes h]

theorem freeWay_of_homes {s t : State} (h : t.homes = s.homes) (i set : Nat) : t.freeWay i set = s.freeWay i set := by
  unfold State.freeWay State.wayTaken State.dirAt; rw [homeAt_of_homes h]

theorem victimWay_of_homes {s t : State} (h : t.homes = s.homes) (i set : Nat) : t.victimWay i set = s.victimWay i set := by
  unfold State.victimWay State.wayBusy State.wayTaken State.dirAt
  simp only [homeAt_of_homes h, lineBusy_of_homes h]

/-- A request that a home has taken from its queue and counted (event 0x014), before any check of R219. -/
def requestSeen (s : State) (h : Nat) (p : Pkt) : State :=
  (s.consume p).bump (pgHOME h) 0x014 1 (some p.src.toNat) (some p.cls.toNat)

section
variable (s : State) (h : Nat) (p : Pkt)

@[simp] theorem requestSeen_net : (requestSeen s h p).net = (s.consume p).net := bump_net ..
@[simp] theorem requestSeen_time : (requestSeen s h p).time = s.time := by simp [requestSeen]
@[simp] theorem requestSeen_off : (requestSeen s h p).off = s.off := by simp [requestSeen]
@[simp] theorem requestSeen_homes : (requestSeen s h p).homes = s.homes := by simp [requestSeen]
@[simp] theorem requestSeen_mem : (requestSeen s h p).mem = s.mem := by simp [requestSeen]

@[simp] theorem requestSeen_homeAt (i : Nat) : (requestSeen s h p).homeAt i = s.homeAt i := homeAt_of_homes (requestSeen_homes s h p) i
@[simp] theorem requestSeen_lineDir (i l : Nat) : (requestSeen s h p).lineDir i l = s.lineDir i l := lineDir_of_dir (by simp) l
@[simp] theorem requestSeen_lineBusy (i l : Nat) : (requestSeen s h p).lineBusy i l = s.lineBusy i l := lineBusy_of_homes (by simp) i l
@[simp] theorem requestSeen_heldForOther (i src l : Nat) : (requestSeen s h p).heldForOther i src l = s.heldForOther i src l :=
  heldForOther_of_homes (by simp) i src l
@[simp] theorem requestSeen_freeWay (i set : Nat) : (requestSeen s h p).freeWay i set = s.freeWay i set := freeWay_of_homes (by simp) i set
@[simp] theorem requestSeen_victimWay (i set : Nat) : (requestSeen s h p).victimWay i set = s.victimWay i set := victimWay_of_homes (by simp) i set

theorem requestSeen_reg (r off : Nat) (ho : off < 0x3040) : (requestSeen s h p).reg r off = s.reg r off := by
  unfold requestSeen
  rw [bump_reg _ _ _ _ _ _ _ _ _ (by omega) (by omega), reg_of_regs (consume_regs s p)]

theorem requestSeen_get (r : Nat) (f : FRef) (hf : f.off < 0x3040) : (requestSeen s h p).get r f = s.get r f := by
  unfold State.get; rw [requestSeen_reg _ _ _ _ _ hf]

theorem requestSeen_flag (r : Nat) (f : FRef) (hf : f.off < 0x3040) : (requestSeen s h p).flag r f = s.flag r f := by
  unfold State.flag; rw [requestSeen_get _ _ _ _ _ hf]

@[simp] theorem requestSeen_home (a : Nat) : (requestSeen s h p).home a = s.home a := by
  unfold State.home State.quad; rw [requestSeen_flag _ _ _ _ _ (by decide)]

@[simp] theorem requestSeen_fenced (i : Nat) : (requestSeen s h p).fenced i = s.fenced i := requestSeen_flag _ _ _ _ _ (by decide)

@[simp] theorem requestSeen_quiesced (i : Nat) : (requestSeen s h p).quiesced i = s.quiesced i := by
  unfold State.quiesced; rw [show (requestSeen s h p).smith = s.smith by simp [requestSeen]]

theorem requestSeen_farDec (a : Nat) : (requestSeen s h p).farDec a = s.farDec a := by
  unfold State.farDec
  apply List.find?_congr
  intro e he
  have hp : e.2 < 4 := by simp at he; rcases he with ⟨_, h, rfl⟩ | ⟨_, h, rfl⟩ <;> simpa
  dsimp only
  rw [requestSeen_get _ _ _ _ _ (by simp [Fld.FM_BASE_LO_BASE_LO]; omega), requestSeen_get _ _ _ _ _ (by simp [Fld.FM_BASE_HI_BASE_HI]; omega),
    requestSeen_flag _ _ _ _ _ (by simp [Fld.FM_BASE_LO_EN]; omega), requestSeen_get _ _ _ _ _ (by simp [Fld.FM_SIZE_SIZE]; omega)]

@[simp] theorem requestSeen_memBacked (a : Nat) : (requestSeen s h p).memBacked a = s.memBacked a := by
  unfold State.memBacked State.scrWays
  rw [requestSeen_farDec, requestSeen_get _ _ _ _ _ (by decide)]

@[simp] theorem requestSeen_pageRetired (l : Nat) : (requestSeen s h p).pageRetired l = s.pageRetired l := by
  unfold State.pageRetired
  rw [Bool.eq_iff_iff, List.any_eq_true, List.any_eq_true]
  simp only [List.any_eq_true]
  refine exists_congr fun st => and_congr_right fun _ => exists_congr fun i => and_congr_right fun hi => ?_
  have hi : i < 16 := List.mem_range.mp hi
  rw [requestSeen_flag _ _ _ _ _ (by simp [Fld.STK_RET_LO_V]; omega), requestSeen_get _ _ _ _ _ (by simp [Fld.STK_RET_LO_PAGE_LO]; omega),
    requestSeen_get _ _ _ _ _ (by simp [Fld.STK_RET_HI_PAGE_HI]; omega)]

@[simp] theorem requestSeen_trackerCheck (c : Nat) : (requestSeen s h p).trackerCheck h c = s.trackerCheck h c := by
  unfold State.trackerCheck State.trackerUsed State.heldShared State.heldReserved
  rw [requestSeen_get _ _ _ _ _ (by decide), requestSeen_reg _ _ _ _ _ (by decide), homeAt_of_homes (requestSeen_homes s h p)]

end

end Sys2Proof.Proofs
end

section
/-! ### Steps of a home that take nothing in -/

namespace Sys2Proof.Proofs

open Sys2Proof Sys2Proof.Machine Sys2Proof.Safety

/-- From `s` to `t` no home takes a transaction in, no line's directory state moves and memory stays. -/
structure TakesNothing (s t : State) : Prop where
  off : t.off = s.off
  trk : ∀ i, (t.homeAt i).trk = (s.homeAt i).trk
  dir : ∀ i l, t.lineDir i l = s.lineDir i l
  mem : t.mem = s.mem

theorem TakesNothing.trans {s t u : State} (h : TakesNothing s t) (k : TakesNothing t u) : TakesNothing s u :=
  ⟨k.off.trans h.off, fun i => (k.trk i).trans (h.trk i), fun i l => (k.dir i l).trans (h.dir i l), k.mem.trans h.mem⟩

theorem TakesNothing.of_homes {s t : State} (ho : t.off = s.off) (hh : t.homes = s.homes) (hm : t.mem = s.mem) : TakesNothing s t :=
  ⟨ho, fun i => by rw [homeAt_of_homes hh], fun i l => lineDir_of_dir (by rw [homeAt_of_homes hh]) l, hm⟩

theorem TakesNothing.sameMemory {s t : State} (h : TakesNothing s t) : SameMemory s t := fun a => by rw [h.mem]

/-- A home changed otherwise than in its tracker and its directory takes nothing in. -/
theorem takesNothing_modHome (s : State) (h : Nat) (f : Home → Home) (hh : h < 64) (ht : (f (s.homeAt h)).trk = (s.homeAt h).trk)
    (hd : (f (s.homeAt h)).dir = (s.homeAt h).dir) :
    TakesNothing s (s.modHome h f) := by
  have key : ∀ i, ((s.modHome h f).homeAt i).trk = (s.homeAt i).trk ∧ ((s.modHome h f).homeAt i).dir = (s.homeAt i).dir := by
    intro i
    by_cases hi : i = h
    · subst hi
      rw [homeAt_modHome_same _ _ _ hh]; exact ⟨ht, hd⟩
    · rw [homeAt_modHome_ne _ _ hi]; exact ⟨rfl, rfl⟩
  exact ⟨rfl, fun i => (key i).1, fun i l => lineDir_of_dir (key i).2 l, rfl⟩


theorem takesNothing_slotRetired (s : State) (h : Nat) (hh : h < 64) : TakesNothing s (s.slotRetired h) :=
  takesNothing_modHome _ _ _ hh rfl rfl

theorem takesNothing_slotWasted (s : State) (h : Nat) (hh : h < 64) : TakesNothing s (s.slotWasted h) :=
  takesNothing_modHome _ _ _ hh rfl rfl

/-- The order of issue (R216) that a step leaves behind is no transaction's and no line's. -/
theorem takesNothing_homeStep (s u : State) (h l : Nat) (hh : h < 64) : TakesNothing u (s.homeStep u h l) := by
  unfold State.homeStep
  dsimp only
  split
  · exact .of_homes rfl rfl rfl
  · exact takesNothing_modHome _ _ _ hh rfl rfl

@[simp] theorem homeStep_net (s u : State) (h l : Nat) : (s.homeStep u h l).net = u.net := by
  unfold State.homeStep; dsimp only; split <;> rfl

@[simp] theorem homeStep_regs (s u : State) (h l : Nat) : (s.homeStep u h l).regs = u.regs := by
  unfold State.homeStep; dsimp only; split <;> rfl

/-! ### The command of a request -/

theorem lt_of_homeOfPkt {p : Pkt} {h : Nat} (hp : State.homeOfPkt p = some h) : h < 64 := by
  unfold State.homeOfPkt at hp
  split at hp
  · rename_i hd
    simp only [Bool.and_eq_true, decide_eq_true_eq] at hd
    cases hp; omega
  · cases hp

/-- The command of a request opcode runs its request at its home (R187). -/
theorem exec_homeCommand (s : State) (p : Pkt) (h1 : 1 ≤ p.op.toNat) (h8 : p.op.toNat ≤ 8) :
    exec (homeCommand p) s = s.actFclk (·.requestAs p.op p) := by
  have hop : p.op = BitVec.ofNat 7 p.op.toNat := by simp
  unfold homeCommand
  rcases (by omega : p.op.toNat = 1 ∨ p.op.toNat = 2 ∨ p.op.toNat = 3 ∨ p.op.toNat = 4 ∨ p.op.toNat = 5 ∨ p.op.toNat = 6 ∨
    p.op.toNat = 7 ∨ p.op.toNat = 8) with h | h | h | h | h | h | h | h <;> rw [h] at hop ⊢ <;> rw [hop] <;> rfl

/-- A request whose turn it is runs the checks of R219; what the step adds to their outcome `u` is the order of issue alone (R216). -/
theorem homeCommand_next {s u : State} {h : Nat} {p : Pkt} (hI : Issues s h 4 p) (h1 : 1 ≤ p.op.toNat) (h8 : p.op.toNat ≤ 8)
    (hu : s.homeRequest h p = u) (ho : u.off = s.off) :
    ∃ t, exec (homeCommand p) s = .next t ∧ t.net = u.net ∧ t.regs = u.regs ∧ TakesNothing u t := by
  obtain ⟨⟨⟨hoff, -⟩, hbank⟩, hhome, harr, hturn, -⟩ := hI
  have hh := lt_of_homeOfPkt hhome
  have hstep := takesNothing_homeStep s u h p.addr.toNat hh
  have hreq : s.requestAs p.op p = s.homeStep u h p.addr.toNat := by
    simp [State.requestAs, State.homeTakes, hhome, harr, hturn, hu]
  refine ⟨_, by rw [exec_homeCommand s p h1 h8, actFclk_on s _ hoff hbank, hreq, settle_on _ _ (by rw [hstep.off, ho, hoff])], by simp, by simp, ?_⟩
  exact hstep.trans (.of_homes rfl rfl rfl)

/-- A request that a home does not take in leaves tracker, directory and memory as they are. -/
theorem homeCommand_takesNothing {s u : State} {h : Nat} {p : Pkt} (hI : Issues s h 4 p) (h1 : 1 ≤ p.op.toNat) (h8 : p.op.toNat ≤ 8)
    (hu : s.homeRequest h p = u) (hq : TakesNothing s u) :
    ∃ t, exec (homeCommand p) s = .next t ∧ t.net = u.net ∧ t.regs = u.regs ∧ TakesNothing s t := by
  obtain ⟨t, ht, hn, hr, hk⟩ := homeCommand_next hI h1 h8 hu hq.off
  exact ⟨t, ht, hn, hr, hq.trans hk⟩

/-! ### Nacks -/

/-- A Nack takes nothing in (R167). -/
theorem takesNothing_nack (s : State) (h : Nat) (p : Pkt) (r : Nat) (hh : h < 64) : TakesNothing s (s.nack h p r) := by
  unfold State.nack
  refine .trans (.of_homes ?_ ?_ ?_) (takesNothing_slotWasted _ h hh)
  all_goals (simp only [bump_off, bump_homes, bump_mem]; split <;> split <;> rfl)

/-- A response of a hub agent is one unit sent, with the fields of R167. -/
theorem respond_sends (s : State) (op : BitVec 7) (src dst : BitVec 8) (txn : BitVec 12) (addr : BitVec 46) (last psn : Bool)
    (data : Option (LineData × ByteMask)) :
    ∃ q, Sends s (s.respond op src dst txn addr last psn data) [q] ∧
      q.op = op ∧ q.src = src ∧ q.dst = dst ∧ q.txn = txn ∧ q.addr = addr ∧ q.last = last ∧ q.psn = psn :=
  ⟨_, ⟨_, send_net .., rfl⟩, rfl, rfl, rfl, rfl, rfl, rfl, rfl⟩

/-- What a home sends by its units in flight. -/
theorem sends_of_net {s s' t t' : State} {l : List Pkt} (h : Sends s t l) (hs : s'.net = s.net) (ht : t'.net = t.net) : Sends s' t' l := by
  unfold Sends at *; rw [hs, ht]; exact h

theorem nack_net (s : State) (h : Nat) (p : Pkt) (r : Nat) :
    (s.nack h p r).net = (s.respond 0x40 (nodeHome h) p.src p.txn (BitVec.ofNat 46 r) true).net := by
  unfold State.nack State.slotWasted
  rw [State.modHome_net, bump_net]
  split <;> split <;> rfl

/-- The Nack that a request is answered with (R167). -/
theorem nack_sends (s : State) (h : Nat) (p : Pkt) (r : Nat) (hr : r ≤ 6) : ∃ q, Sends s (s.nack h p r) [q] ∧ IsNack h p r q := by
  obtain ⟨q, hq, hop, hsrc, hdst, htxn, haddr, hlast, -⟩ := respond_sends s 0x40 (nodeHome h) p.src p.txn (BitVec.ofNat 46 r) true false none
  refine ⟨q, sends_of_net hq rfl (nack_net s h p r), hop, hsrc, hdst, htxn, ?_, hlast⟩
  rw [haddr, BitVec.toNat_ofNat, Nat.mod_eq_of_lt (by omega)]

/-- The Nack of a reason is counted in its counter (R253). -/
theorem nack_counts (s : State) (h : Nat) (p : Pkt) (r : Nat) (h1 : 1 ≤ r) (h6 : r ≤ 6) :
    (s.nack h p r).get (pgHOME h) (Fld.HOME_NACK_CNT_COUNT (r - 1)) =
      satAdd (s.get (pgHOME h) (Fld.HOME_NACK_CNT_COUNT (r - 1))) 1 (2 ^ (Fld.HOME_NACK_CNT_COUNT (r - 1)).width - 1) := by
  have hcls : p.cls.toNat < 4 := p.cls.isLt
  have hovl : regKey (pgHOME h) (Fld.HOME_NACK_CNT_COUNT (r - 1)).off ≠ regKey (pgHOME h) (Fld.HOME_OVL_REF_COUNT p.cls.toNat).off := by
    simp [regKey, Fld.HOME_NACK_CNT_COUNT, Fld.HOME_OVL_REF_COUNT]; omega
  have hdir : regKey (pgHOME h) (Fld.HOME_NACK_CNT_COUNT (r - 1)).off ≠ regKey (pgHOME h) Fld.HOME_STAT_DIRSET.off := by
    simp [regKey, Fld.HOME_NACK_CNT_COUNT, Fld.HOME_STAT_DIRSET]; omega
  have hbase : ∀ t : State, t.regs = s.regs → (t.count (pgHOME h) (Fld.HOME_NACK_CNT_COUNT (r - 1))).get (pgHOME h) (Fld.HOME_NACK_CNT_COUNT (r - 1)) =
      satAdd (s.get (pgHOME h) (Fld.HOME_NACK_CNT_COUNT (r - 1))) 1 (2 ^ (Fld.HOME_NACK_CNT_COUNT (r - 1)).width - 1) := fun t ht => by
    rw [get_count_same _ _ _ _ (by simp [Fld.HOME_NACK_CNT_COUNT]), get_of_regs ht]
  unfold State.nack State.slotWasted
  rw [get_of_regs (State.modHome_regs ..), get_bump _ _ _ _ _ _ _ _ _ (by simp [Fld.HOME_NACK_CNT_COUNT]; omega)]
  split <;> split <;> simp only [State.raise1, State.count, get_put_ne _ _ _ _ _ _ hdir, get_put_ne _ _ _ _ _ _ hovl] <;> exact hbase _ rfl

/-- A Nack for a full directory set sets HOME_STAT.DIRSET (R253). -/
theorem nack_dirset (s : State) (h : Nat) (p : Pkt) : (s.nack h p nackDirset).flag (pgHOME h) Fld.HOME_STAT_DIRSET = true := by
  unfold State.nack State.slotWasted
  rw [flag_of_regs (State.modHome_regs ..)]
  unfold State.flag
  rw [get_bump _ _ _ _ _ _ _ _ _ (by decide)]
  exact flag_raise1_same _ _ _ rfl (by decide)

/-! ### The checks of R219 -/

/-- On-demand containment (R247) finds nothing to do in an entry that names no fenced site. -/
theorem cleanEntry_of_entryClean {s : State} {h l : Nat} (hc : entryClean s h l = true) : s.cleanEntry h l = s := by
  unfold entryClean at hc
  unfold State.cleanEntry
  cases hd : s.lineDir h l with
  | nc => cases s.dirFind h l <;> rfl
  | ex o =>
    rw [hd] at hc
    cases s.dirFind h l with
    | none => rfl
    | some i => exact if_pos hc
  | sh pv lead =>
    rw [hd] at hc
    cases s.dirFind h l with
    | none => rfl
    | some i => 
      have : ((sitesOf pv).filter fun x => s.fenced x).isEmpty = true := by
        simpa [List.filter_eq_nil_iff, List.all_eq_true] using hc
      exact if_pos this

theorem entryClean_requestSeen (s : State) (h l : Nat) (p : Pkt) : entryClean (requestSeen s h p) h l = entryClean s h l := by
  unfold entryClean
  rw [requestSeen_lineDir]
  simp only [requestSeen_fenced]

/-- Checks 1 and 2 of R219 pass: the others follow, with nothing to contain first. -/
theorem homeRequest_checked {s : State} {h : Nat} {p : Pkt} (hh : s.home (paOf p.addr.toNat) = h)
    (hb : s.memBacked (paOf p.addr.toNat) = true) (hc : entryClean s h p.addr.toNat = true) :
    s.homeRequest h p = (requestSeen s h p).homeChecked h p (s.queueWait p) := by
  have hclean : (requestSeen s h p).cleanEntry h p.addr.toNat = requestSeen s h p :=
    cleanEntry_of_entryClean (by rw [entryClean_requestSeen, hc])
  unfold State.homeRequest
  change (if (requestSeen s h p).home _ != h then _ else if !(requestSeen s h p).memBacked _ then _
    else ((requestSeen s h p).cleanEntry h p.addr.toNat).homeChecked h p _) = _
  simp [hh, hb, hclean]

/-! Checks 3 to 12 in the order of the table of R219: each where those before it pass. -/

section
variable {s : State} {h : Nat} {p : Pkt} {wait : Nat}

theorem homeChecked_fenced (hd : isDieNode p.src = true) (hf : s.fenced (siteOf p.src) = true) :
    s.homeChecked h p wait = (s.slotRetired h).discardCount := by
  simp [State.homeChecked, hd, hf]

theorem homeChecked_quiesced (hf : s.fenced (siteOf p.src) = false) (he : p.op ≠ 0x08) (hd : isDieNode p.src = true)
    (hq : s.quiesced (siteOf p.src) = true) : s.homeChecked h p wait = s.nack h p nackFenced := by
  have he' : p.op.toNat ≠ 8 := fun h8 => he (BitVec.eq_of_toNat_eq h8)
  simp [State.homeChecked, hd, hf, hq, he']

/-- Checks 3 and 4 pass: the source's site is neither fenced nor quiesced (R219). -/
def SiteServed (s : State) (p : Pkt) : Prop :=
  isDieNode p.src = true → s.fenced (siteOf p.src) = false ∧ s.quiesced (siteOf p.src) = false

theorem homeChecked_retired (hs : SiteServed s p) (he : p.op ≠ 0x08) (hr : s.pageRetired p.addr.toNat = true) :
    s.homeChecked h p wait = s.nack h p nackRetired := by
  have he' : p.op.toNat ≠ 8 := fun h8 => he (BitVec.eq_of_toNat_eq h8)
  unfold SiteServed at hs
  cases hd : isDieNode p.src <;> simp [State.homeChecked, hd, hr, he', hs]

theorem homeChecked_conflict (hs : SiteServed s p) (hr : s.pageRetired p.addr.toNat = false) (hv : p.rsv = false)
    (hb : s.lineBusy h p.addr.toNat = true ∨ s.heldForOther h p.src.toNat p.addr.toNat = true) :
    s.homeChecked h p wait = s.nack h p nackConflict := by
  unfold SiteServed at hs
  cases hd : isDieNode p.src <;> simp [State.homeChecked, hd, hr, hv, hs, hb]

/-- Checks 8 to 12 (R219) for a request without RSV whose line is free, judged by `s` and carried out on `u`. -/
def freeLineOutcome (s u : State) (h : Nat) (p : Pkt) (wait : Nat) : State :=
  let set := dirSet (paOf p.addr.toNat)
  if p.op.toNat ≤ 3 ∧ s.lineDir h p.addr.toNat = .nc ∧ s.freeWay h set = none ∧ s.victimWay h set = none then u.nack h p nackDirset
  else match s.trackerCheck h p.cls.toNat, Tab.freeKey (s.homeAt h).trk 1024 with
    | .inl held, some k => u.takeIn h k p held wait
    | .inl _, none => u.nack h p nackTracker
    | .inr r, _ => u.nack h p r

theorem homeChecked_free (hs : SiteServed s p) (hr : s.pageRetired p.addr.toNat = false) (hv : p.rsv = false)
    (hb : s.lineBusy h p.addr.toNat = false) (ho : s.heldForOther h p.src.toNat p.addr.toNat = false) :
    s.homeChecked h p wait = freeLineOutcome s s h p wait := by
  unfold SiteServed at hs
  cases hd : isDieNode p.src <;> simp [State.homeChecked, freeLineOutcome, hd, hr, hv, hs, hb, ho, and_assoc] <;> rfl

/-- Checks 9 to 12 refuse for the class's cap or for a full tracker (R219). -/
theorem trackerCheck_reason {c r : Nat} (ht : s.trackerCheck h c = .inr r) : r = nackQos ∨ r = nackTracker := by
  unfold State.trackerCheck at ht
  dsimp only at ht
  split at ht
  · cases ht
  · split at ht
    · cases ht; exact .inl rfl
    · split at ht
      · cases ht; exact .inr rfl
      · cases ht

end

/-! ### A bad mask or OP (R161, R162) -/

/-- Touching a way changes ages alone (R212). -/
theorem nthD_touchDir (ws : List DirWay) (i j : Nat) : ∃ a, nthD (touchDir ws i) j {} = { nthD ws j {} with age := a } := by
  unfold nthD touchDir
  simp only [List.getD_eq_getElem?_getD, List.getElem?_mapIdx]
  cases ws[j]? with
  | none => exact ⟨_, rfl⟩
  | some w =>
    dsimp only [Option.map_some, Option.getD_some]
    split
    · exact ⟨0, rfl⟩
    · split <;> exact ⟨_, rfl⟩

theorem dirAt_setDir_same (s : State) (h set : Nat) (ws : List DirWay) (hh : h < 64) : (s.setDir h set ws).dirAt h set = ws := by
  unfold State.dirAt State.setDir
  rw [homeAt_modHome_same _ _ _ hh, Tab.getD_putD_same]

theorem dirAt_setDir_ne (s : State) {h set i set' : Nat} (ws : List DirWay) (hh : h < 64) (hne : i ≠ h ∨ set' ≠ set) :
    (s.setDir h set ws).dirAt i set' = s.dirAt i set' := by
  unfold State.dirAt State.setDir
  by_cases hi : i = h
  · subst hi
    rw [homeAt_modHome_same _ _ _ hh, Tab.getD_putD_ne (hne.resolve_left (· rfl))]
  · rw [homeAt_modHome_ne _ _ hi]

/-- The directory state of a line is read from the ways of its set, whatever their ages (R210). -/
theorem lineDir_of_ways {s t : State} {i l : Nat}
    (h : ∀ j, ∃ a, nthD (t.dirAt i (dirSet (paOf l))) j {} = { nthD (s.dirAt i (dirSet (paOf l))) j {} with age := a }) :
    t.lineDir i l = s.lineDir i l := by
  have hfind : t.dirFind i l = s.dirFind i l := by
    unfold State.dirFind
    apply List.find?_congr
    intro j _
    obtain ⟨a, ha⟩ := h j
    simp only [ha]
  unfold State.lineDir
  rw [hfind]
  cases s.dirFind i l with
  | none => rfl
  | some j =>
    obtain ⟨a, ha⟩ := h j
    simp only [ha, DirWay.state]

/-- An admission that makes an entry the most recently used moves no directory state (R212). -/
theorem takesNothing_touchEntry (s : State) (h l : Nat) (hh : h < 64) : TakesNothing s (s.touchEntry h l) := by
  unfold State.touchEntry
  split
  · rename_i i _
    have hm : TakesNothing s (s.touchWayOf h (dirSet (paOf l)) i) := by
      refine ⟨rfl, fun i' => ?_, fun i' l' => lineDir_of_ways fun j => ?_, rfl⟩
      · unfold State.touchWayOf State.setDir
        by_cases hi : i' = h
        · subst hi; rw [homeAt_modHome_same _ _ _ hh]
        · rw [homeAt_modHome_ne _ _ hi]
      · by_cases hw : i' = h ∧ dirSet (paOf l') = dirSet (paOf l)
        · obtain ⟨rfl, hset⟩ := hw
          rw [hset, State.touchWayOf, dirAt_setDir_same _ _ _ _ hh]
          exact nthD_touchDir _ _ _
        · rw [State.touchWayOf, dirAt_setDir_ne _ _ hh (by tauto)]
          exact ⟨_, rfl⟩
    exact hm
  · exact .of_homes rfl rfl rfl

@[simp] theorem touchEntry_net (s : State) (h l : Nat) : (s.touchEntry h l).net = s.net := by
  unfold State.touchEntry; split <;> rfl

theorem del_of_get?_none {α : Type} (k : Nat) (t : Tab α) (h : Tab.get? k t = none) : Tab.del k t = t := by
  induction t with
  | nil => rfl
  | cons e t ih =>
    simp only [Tab.get?] at h
    split at h
    · cases h
    · rename_i hk
      simp only [Tab.del, if_neg hk, ih h]

theorem get?_freeKey {α : Type} {t : Tab α} {n k : Nat} (h : Tab.freeKey t n = some k) : Tab.get? k t = none := by
  unfold Tab.freeKey at h
  simpa using List.find?_some h

theorem takesNothing_holdLine (s : State) (h l : Nat) (hh : h < 64) : TakesNothing s (s.holdLine h l) := by
  unfold State.holdLine
  refine takesNothing_modHome _ _ _ hh ?_ ?_
  · split <;> rfl
  · split <;> rfl

/-- The end of a transaction that never took its entry frees nothing of the tracker. -/
theorem takesNothing_endTxn (s : State) (h k : Nat) (t : Txn) (hh : h < 64) (hk : Tab.get? k (s.homeAt h).trk = none) :
    TakesNothing s (s.endTxn h k t) := by
  unfold State.endTxn
  exact .trans (takesNothing_modHome _ _ _ hh (del_of_get?_none _ _ hk) rfl) (takesNothing_holdLine _ h _ hh)

@[simp] theorem endTxn_net (s : State) (h k : Nat) (t : Txn) : (s.endTxn h k t).net = s.net := rfl

/-- A request on its way into entry `k` (R225): counted, its wait measured, its line's entry touched. -/
def admission (s : State) (h : Nat) (p : Pkt) (wait : Nat) : State :=
  let pg := pgHOME h
  let c := p.cls.toNat
  let late := s.get pg Fld.HOME_DLY_CFG_THRESH < wait
  let s := s.bump pg 0x015 1 (some p.src.toNat) (some c)
  let s := if late then (s.count pg (Fld.HOME_OVL_DLY_COUNT c)).bump pg 0x017 1 none (some c) else s
  let s := (s.modHome h fun x => { x with heldSince := Tab.del p.addr.toNat x.heldSince }).slotRetired h
  (s.modHome h fun x => { x with seq := x.seq + 1 }).touchEntry h p.addr.toNat

theorem takesNothing_admission (s : State) (h : Nat) (p : Pkt) (wait : Nat) (hh : h < 64) : TakesNothing s (admission s h p wait) := by
  unfold admission
  refine .trans ?_ (takesNothing_touchEntry _ h _ hh)
  refine .trans (.trans (.trans ?_ (takesNothing_modHome _ h _ hh rfl rfl)) (takesNothing_slotRetired _ h hh)) (takesNothing_modHome _ h _ hh rfl rfl)
  split
  · exact .of_homes (by simp) (by simp) (by simp)
  · exact .of_homes (by simp) (by simp) (by simp)

@[simp] theorem admission_net (s : State) (h : Nat) (p : Pkt) (wait : Nat) : (admission s h p wait).net = s.net := by
  simp only [admission, touchEntry_net, State.modHome_net, State.slotRetired]
  split <;> simp

/-- The PROTO record of a FarAtomic with a bad OP or mask (R162). -/
def badAtomicRec (h : Nat) (p : Pkt) : Rec :=
  { typ := 0x05, cls := 3, source := srcHOME h 3, page := pgHOME h, node := p.src.toNat, opcode := p.op.toNat, sub := 0,
    addr := some (paOf p.addr.toNat), fires := true }

/-- The answer of a home to a bad mask or OP, with its record (R161, R162). -/
def refuseOperand (s : State) (h : Nat) (p : Pkt) : State :=
  if p.op = 0x07 then
    (s.record (badAtomicRec h p)).respond 0x54 (nodeHome h) p.src p.txn p.addr true true (some (maskBits p.mask, p.mask))
  else (s.protoStat h 3 p).respond 0x41 (nodeHome h) p.src p.txn 2 true

/-- A request with a bad mask or OP is answered at once and its entry freed again. -/
theorem takeIn_badOperand (s : State) (h k : Nat) (p : Pkt) (held : Held) (wait : Nat) (hb : badOperand p = true) :
    ∃ t, s.takeIn h k p held wait = (refuseOperand (admission s h p wait) h p).endTxn h k t := by
  have hop : ∀ n : Nat, n < 128 → p.op.toNat = n → p.op = BitVec.ofNat 7 n := fun n _ h => by rw [← h]; simp
  simp only [badOperand, Bool.or_eq_true, Bool.and_eq_true, beq_iff_eq, Option.isNone_iff_eq_none] at hb
  rcases hb with ⟨h5 | h6, hm⟩ | ⟨h7, ht⟩
  · unfold State.takeIn
    have hne : ¬ p.op = 0x07 := by rw [hop 5 (by decide) h5]; decide
    simp only [h5, hm, beq_self_eq_true, if_true, refuseOperand, if_neg hne]
    exact ⟨_, rfl⟩
  · unfold State.takeIn
    have hne : ¬ p.op = 0x07 := by rw [hop 6 (by decide) h6]; decide
    simp only [h6, hm, beq_self_eq_true, if_true, refuseOperand, if_neg hne]
    exact ⟨_, rfl⟩
  · unfold State.takeIn
    have heq : p.op = 0x07 := hop 7 (by decide) h7
    simp only [h7, ht, refuseOperand, if_pos heq, badAtomicRec]
    exact ⟨_, rfl⟩

theorem takesNothing_refuseOperand (s : State) (h : Nat) (p : Pkt) : TakesNothing s (refuseOperand s h p) := by
  unfold refuseOperand State.respond State.protoStat
  split <;> exact .of_homes (by simp) (by simp) (by simp)

theorem refuseOperand_sends (s : State) (h : Nat) (p : Pkt) : ∃ q, Sends s (refuseOperand s h p) [q] ∧
    IsReply h p (if p.op = 0x07 then 0x54 else 0x41) true q ∧ (p.op = 0x07 → q.psn = true) ∧ (p.op ≠ 0x07 → q.addr = 2) := by
  unfold refuseOperand
  split
  · rename_i h7
    obtain ⟨q, hq, hop, hsrc, hdst, htxn, -, hlast, hpsn⟩ := 
      respond_sends (s.record (badAtomicRec h p)) 0x54 (nodeHome h) p.src p.txn p.addr true true (some (maskBits p.mask, p.mask))
    exact ⟨q, sends_of_net hq (by simp) rfl, ⟨hop, hsrc, hdst, htxn, hlast⟩, fun _ => hpsn, fun hn => absurd h7 hn⟩
  · rename_i h7
    obtain ⟨q, hq, hop, hsrc, hdst, htxn, haddr, hlast, -⟩ := respond_sends (s.protoStat h 3 p) 0x41 (nodeHome h) p.src p.txn 2 true false none
    exact ⟨q, sends_of_net hq (by simp [State.protoStat]) rfl, ⟨hop, hsrc, hdst, htxn, hlast⟩, fun hy => absurd hy h7, fun _ => haddr⟩

/-! ### Requests that checks 1 and 2 of R219 refuse -/

/-- The units that the answer of R38 adds depend on the units in flight and TIME alone. -/
theorem answerReserved_net {s t : State} (hn : t.net = s.net) (ht : t.time = s.time) (p : Pkt) (me : BitVec 8) :
    (t.answerReserved p me).net = (s.answerReserved p me).net := by
  unfold State.answerReserved
  dsimp only
  split <;> simp only [State.respond, send_net, hn, ht] <;> rfl

theorem takesNothing_answerReserved (s : State) (p : Pkt) (me : BitVec 8) : TakesNothing s (s.answerReserved p me) := by
  unfold State.answerReserved
  dsimp only
  split <;> exact .of_homes rfl rfl rfl

theorem takesNothing_recReserved (s : State) (page sub : Nat) (p : Pkt) : TakesNothing s (s.recReserved page p sub) :=
  .of_homes (by simp [State.recReserved]) (by simp [State.recReserved]) (by simp [State.recReserved])

/-- What the home leaves as it was, as the statement of the refusals writes it. -/
theorem TakesNothing.parts {s t : State} (h : TakesNothing s t) :
    (∀ i, (t.homeAt i).trk = (s.homeAt i).trk) ∧ (∀ i a, t.lineDir i a = s.lineDir i a) ∧ SameMemory s t :=
  ⟨h.trk, h.dir, h.sameMemory⟩

theorem takesNothing_requestSeen (s : State) (h : Nat) (p : Pkt) : TakesNothing s (requestSeen s h p) :=
  .of_homes (by simp) (by simp) (by simp)

theorem takesNothing_discardCount (s : State) : TakesNothing s s.discardCount := .of_homes rfl rfl rfl

/-- Check 1 of R219: the address is another home's. -/
theorem homeRequest_misrouted {s : State} {h : Nat} {p : Pkt} (hne : s.home (paOf p.addr.toNat) ≠ h) :
    s.homeRequest h p = ((((requestSeen s h p).slotRetired h).answerReserved p (nodeHome h)).recReserved (pgHOME h) p 1).raise1
      (pgHOME h) Fld.HOME_STAT_MISROUTE := by
  unfold State.homeRequest
  change (if (requestSeen s h p).home _ != h then _ else _) = _
  rw [requestSeen_home, if_pos (by simpa using hne)]
  rfl

/-- Check 2 of R219: no memory stands behind the address. -/
theorem homeRequest_unbacked {s : State} {h : Nat} {p : Pkt} (hh : s.home (paOf p.addr.toNat) = h)
    (hb : s.memBacked (paOf p.addr.toNat) = false) :
    s.homeRequest h p = (((requestSeen s h p).slotRetired h).answerReserved p (nodeHome h)).recReserved (pgHOME h) p 0 := by
  unfold State.homeRequest
  change (if (requestSeen s h p).home _ != h then _ else if !(requestSeen s h p).memBacked _ then _ else _) = _
  rw [requestSeen_home, requestSeen_memBacked, if_neg (by simpa using hh), if_pos (by simp [hb])]
  rfl

section
variable {s : State} {h : Nat} {p : Pkt}

/-- A request that its home answers with a Nack and does not take in (R167, R219, R253). -/
theorem homeCommand_nacked (hI : Issues s h 4 p) (h1 : 1 ≤ p.op.toNat) (h8 : p.op.toNat ≤ 8) {r : Nat} (hr1 : 1 ≤ r) (hr6 : r ≤ 6)
    (hu : s.homeRequest h p = (requestSeen s h p).nack h p r) :
    Answers (homeCommand p) s fun t => (((∀ i, (t.homeAt i).trk = (s.homeAt i).trk) ∧ (∀ i a, t.lineDir i a = s.lineDir i a) ∧ SameMemory s t) ∧
      (∃ q, Sends (s.consume p) t [q] ∧ IsNack h p r q) ∧
      t.get (pgHOME h) (Fld.HOME_NACK_CNT_COUNT (r - 1)) =
        satAdd (s.get (pgHOME h) (Fld.HOME_NACK_CNT_COUNT (r - 1))) 1 (2 ^ (Fld.HOME_NACK_CNT_COUNT (r - 1)).width - 1)) ∧
      (r = nackDirset → t.flag (pgHOME h) Fld.HOME_STAT_DIRSET = true) := by
  have hh : h < 64 := by obtain ⟨-, hhome, -⟩ := hI; exact lt_of_homeOfPkt hhome
  obtain ⟨t, ht, hnet, hregs, hq⟩ := homeCommand_takesNothing hI h1 h8 hu
    ((takesNothing_requestSeen s h p).trans (takesNothing_nack _ _ _ _ hh))
  obtain ⟨q, hsend, hnack⟩ := nack_sends (requestSeen s h p) h p r hr6
  refine ⟨t, ht, ⟨hq.parts, ⟨q, sends_of_net hsend (by simp) hnet, hnack⟩, ?_⟩, fun hd => ?_⟩
  · rw [get_of_regs hregs, nack_counts _ _ _ _ hr1 hr6, requestSeen_get _ _ _ _ _ (by simp [Fld.HOME_NACK_CNT_COUNT]; omega)]
  · subst hd; rw [flag_of_regs hregs, nack_dirset]

theorem siteServed_requestSeen (hs : SiteServed s p) : SiteServed (requestSeen s h p) p := by
  simpa [SiteServed] using hs

theorem siteServed_of_atHome (hA : AtHome s h p) (hq : isDieNode p.src = true → s.quiesced (siteOf p.src) = false) : SiteServed s p := by
  obtain ⟨-, -, -, -, -, hfence⟩ := hA
  exact fun hd => ⟨hfence hd, hq hd⟩

/-- A request at its home, with nothing to contain in its line's entry, meets checks 3 to 12. -/
theorem homeRequest_of_atHome (hA : AtHome s h p) (hc : entryClean s h p.addr.toNat = true) :
    s.homeRequest h p = (requestSeen s h p).homeChecked h p (s.queueWait p) := by
  obtain ⟨-, -, -, hhome, hback, -⟩ := hA
  exact homeRequest_checked hhome hback hc

/-- A line that no reservation names is held for none (R230). -/
theorem heldForOther_of_oldestRsv {src l : Nat} (ho : s.oldestRsv h l = none) : s.heldForOther h src l = false := by
  simp [State.heldForOther, ho]

/-- A request for a free line meets checks 8 to 12 alone, each judged by the state it came to. -/
theorem homeRequest_of_lineFree (hF : LineFree s h p) (hv : p.rsv = false) (hc : entryClean s h p.addr.toNat = true) :
    s.homeRequest h p = freeLineOutcome s (requestSeen s h p) h p (s.queueWait p) := by
  obtain ⟨hA, hq, hret, hbusy, hrsv⟩ := hF
  rw [homeRequest_of_atHome hA hc, homeChecked_free (siteServed_requestSeen (siteServed_of_atHome hA hq)) (by simpa using hret) hv
    (by simpa using hbusy) (by simpa using heldForOther_of_oldestRsv hrsv)]
  simp only [freeLineOutcome, requestSeen_lineDir, requestSeen_freeWay, requestSeen_victimWay, requestSeen_trackerCheck, requestSeen_homeAt]

end

/-- Settles O13: each check of R219 is one case of the home's request step, which takes nothing in. -/
theorem requestRefusals : Obligations.RequestRefusals := by
  unfold Obligations.RequestRefusals
  intro s h p hI h1 h8 l same nacked
  have hh : h < 64 := by obtain ⟨-, hhome, -⟩ := hI; exact lt_of_homeOfPkt hhome
  have hseen := takesNothing_requestSeen s h p
  refine ⟨?misroute, ?unbacked, ?fenced, ?quiesced, ?retired, ?conflict, ?dirset, ?tracker, ?operand⟩
  case misroute =>
    intro hne
    obtain ⟨t, ht, hnet, hregs, hq⟩ := homeCommand_takesNothing hI h1 h8 (homeRequest_misrouted hne) (hseen.trans (.trans
      (takesNothing_slotRetired _ h hh) (.trans (takesNothing_answerReserved _ _ _) (.trans (takesNothing_recReserved _ _ _ _) (.of_homes rfl rfl rfl)))))
    refine ⟨t, ht, ?_, ?_, hq.parts⟩
    · rw [hnet]
      simp only [State.raise1_net, State.recReserved, State.fire_net, State.record_net]
      exact answerReserved_net (by simp [State.slotRetired]) (by simp [State.slotRetired]) p _
    · rw [flag_of_regs hregs]; exact flag_raise1_same _ _ _ rfl (by decide)
  case unbacked =>
    intro hhome hb
    obtain ⟨t, ht, hnet, -, hq⟩ := homeCommand_takesNothing hI h1 h8 (homeRequest_unbacked hhome hb) (hseen.trans (.trans
      (takesNothing_slotRetired _ h hh) (.trans (takesNothing_answerReserved _ _ _) (takesNothing_recReserved _ _ _ _))))
    refine ⟨t, ht, ?_, hq.parts⟩
    rw [hnet]
    simp only [State.recReserved, State.fire_net, State.record_net]
    exact answerReserved_net (by simp [State.slotRetired]) (by simp [State.slotRetired]) p _
  case fenced =>
    intro hhome hb hd hf hc
    obtain ⟨t, ht, hnet, -, hq⟩ := homeCommand_takesNothing hI h1 h8
      ((homeRequest_checked hhome hb hc).trans (homeChecked_fenced hd (by simpa using hf)))
      (hseen.trans (.trans (takesNothing_slotRetired _ h hh) (takesNothing_discardCount _)))
    exact ⟨t, ht, by rw [hnet]; simp [State.discardCount, State.slotRetired], hq.parts⟩
  case quiesced =>
    intro hA hc he hd hqs
    have hfence : s.fenced (siteOf p.src) = false := by obtain ⟨-, -, -, -, -, hfence⟩ := hA; exact hfence hd
    obtain ⟨t, ht, hn, -⟩ := homeCommand_nacked hI h1 h8 (by decide) (by decide)
      ((homeRequest_of_atHome hA hc).trans (homeChecked_quiesced (by simpa using hfence) he hd (by simpa using hqs)))
    exact ⟨t, ht, hn⟩
  case retired =>
    intro hA hc he hqs hr
    obtain ⟨t, ht, hn, -⟩ := homeCommand_nacked hI h1 h8 (by decide) (by decide) ((homeRequest_of_atHome hA hc).trans
      (homeChecked_retired (siteServed_requestSeen (siteServed_of_atHome hA hqs)) he (by simpa using hr)))
    exact ⟨t, ht, hn⟩
  case conflict =>
    intro hA hc hqs hr hv hb
    obtain ⟨t, ht, hn, -⟩ := homeCommand_nacked hI h1 h8 (by decide) (by decide) ((homeRequest_of_atHome hA hc).trans
      (homeChecked_conflict (siteServed_requestSeen (siteServed_of_atHome hA hqs)) (by simpa using hr) hv (by simpa using hb)))
    exact ⟨t, ht, hn⟩
  case dirset =>
    intro hF hv hc hop hnc hfw hvw
    obtain ⟨t, ht, hn, hd⟩ := homeCommand_nacked hI h1 h8 (by decide) (by decide)
      ((homeRequest_of_lineFree hF hv hc).trans (if_pos ⟨hop, hnc, hfw, hvw⟩))
    exact ⟨t, ht, hn, hd rfl⟩
  case tracker =>
    intro r hF hv hc hop htc
    have hr := trackerCheck_reason htc
    obtain ⟨hr1, hr6⟩ : 1 ≤ r ∧ r ≤ 6 := by rcases hr with rfl | rfl <;> decide
    have hu := (homeRequest_of_lineFree hF hv hc).trans (if_neg fun hx => by omega)
    simp only [htc] at hu
    obtain ⟨t, ht, hn, -⟩ := homeCommand_nacked hI h1 h8 hr1 hr6 hu
    exact ⟨hr, t, ht, hn⟩
  case operand =>
    intro k held hT hbad
    obtain ⟨hF, hv, htc, hk, hc⟩ := hT
    have hop : 4 ≤ p.op.toNat := by
      simp only [badOperand, Bool.or_eq_true, Bool.and_eq_true, beq_iff_eq] at hbad; omega
    have hu := (homeRequest_of_lineFree hF hv hc).trans (if_neg fun hx => by omega)
    simp only [htc, hk] at hu
    obtain ⟨x, hx⟩ := takeIn_badOperand (requestSeen s h p) h k p held (s.queueWait p) hbad
    have hadm := hseen.trans ((takesNothing_admission _ h p (s.queueWait p) hh).trans (takesNothing_refuseOperand _ h p))
    obtain ⟨t, ht, hnet, -, hq⟩ := homeCommand_takesNothing hI h1 h8 (hu.trans hx)
      (hadm.trans (takesNothing_endTxn _ h k x hh (by rw [hadm.trk, get?_freeKey hk])))
    obtain ⟨q, hsend, hreply⟩ := refuseOperand_sends (admission (requestSeen s h p) h p (s.queueWait p)) h p
    exact ⟨t, ht, hq.parts, q, sends_of_net hsend (by simp) (by rw [hnet]; rfl), hreply⟩

end Sys2Proof.Proofs
end

section
/-! ### Masks, and runs that establish a fact for each element -/

namespace Sys2Proof.Proofs

open Sys2Proof Sys2Proof.Machine Sys2Proof.Safety

theorem bitN_eq_testBit (v i : Nat) : bitN v i = v.testBit i := by
  rw [bitN, Nat.testBit_eq_decide_div_mod_eq]; rfl

theorem eraseDups_of_nodup (l : List Nat) (h : l.Nodup) : l.eraseDups = l := by
  induction l with
  | nil => rfl
  | cons a l ih =>
    obtain ⟨ha, hl⟩ := List.nodup_cons.mp h
    have hf : l.filter (fun b => !b == a) = l := by
      rw [List.filter_eq_self]; intro b hb; simp; rintro rfl; exact ha hb
    rw [List.eraseDups_cons, hf, ih hl]

/-- A mask of the positions below `n` that pass a test has exactly those bits, and lies below `2 ^ n`. -/
theorem maskOf_filter_range (f : Nat → Bool) (n : Nat) :
    maskOf ((List.range n).filter f) < 2 ^ n ∧ ∀ i, bitN (maskOf ((List.range n).filter f)) i = (decide (i < n) && f i) := by
  have hsum : ∀ m, maskOf ((List.range m).filter f) = ((List.range m).filter f).foldl (fun a i => a + 2 ^ i) 0 := fun m => by
    unfold maskOf; rw [eraseDups_of_nodup _ (List.nodup_range.filter _)]
  simp only [bitN_eq_testBit]
  induction n with
  | zero => exact ⟨by simp [maskOf], fun i => by simp [maskOf]⟩
  | succ n ih =>
    obtain ⟨hlt, hbit⟩ := ih
    have hstep : maskOf ((List.range (n + 1)).filter f) = maskOf ((List.range n).filter f) + if f n then 2 ^ n else 0 := by
      rw [hsum, hsum, List.range_succ, List.filter_append, List.foldl_append]
      cases hf : f n <;> simp [List.filter, hf]
    rw [hstep]
    by_cases hf : f n = true
    · rw [if_pos hf, Nat.add_comm]
      refine ⟨by rw [Nat.pow_succ]; omega, fun i => ?_⟩
      rcases lt_trichotomy i n with hi | rfl | hi
      · rw [Nat.testBit_two_pow_add_gt hi, hbit]; simp [hi]; omega
      · rw [Nat.testBit_two_pow_add_eq, Nat.testBit_lt_two_pow hlt]; simp [hf]
      · rw [Nat.testBit_lt_two_pow, eq_comm]
        · simp; omega
        · have : 2 ^ (n + 1) ≤ 2 ^ i := Nat.pow_le_pow_right (by decide) hi
          rw [Nat.pow_succ] at this; omega
    · rw [if_neg hf, Nat.add_zero]
      refine ⟨by rw [Nat.pow_succ]; omega, fun i => ?_⟩
      rw [hbit]
      by_cases hi : i = n
      · subst hi; simp [hf]
      · have : decide (i < n + 1) = decide (i < n) := by rw [decide_eq_decide]; omega
        rw [this]

/-- A run over a list in which each step establishes the fact of its element and every step keeps all of them, under an invariant. -/
theorem foldl_establishes {α σ : Type} (I : σ → Prop) (Q : α → σ → Prop) (f : σ → α → σ) (l : List α) (s : σ) (h0 : I s)
    (hI : ∀ a ∈ l, ∀ t, I t → I (f t a)) (hset : ∀ a ∈ l, ∀ t, I t → Q a (f t a))
    (hkeep : ∀ a, ∀ b ∈ l, ∀ t, I t → Q a t → Q a (f t b)) :
    I (l.foldl f s) ∧ ∀ a, a ∈ l ∨ Q a s → Q a (l.foldl f s) := by
  induction l generalizing s with
  | nil => exact ⟨h0, fun a ha => ha.resolve_left (by simp)⟩
  | cons b l ih =>
    have hb := List.mem_cons_self (a := b) (l := l)
    obtain ⟨h1, h2⟩ := ih (f s b) (hI b hb s h0) (fun a ha => hI a (List.mem_cons_of_mem _ ha))
      (fun a ha => hset a (List.mem_cons_of_mem _ ha)) (fun a c hc => hkeep a c (List.mem_cons_of_mem _ hc))
    refine ⟨h1, fun a ha => h2 a ?_⟩
    rcases ha with ha | ha
    · rcases List.mem_cons.mp ha with rfl | ha
      · exact .inr (hset a hb s h0)
      · exact .inl ha
    · exact .inr (hkeep a b hb s h0 ha)

/-- What holds of a state and is kept by each step of a run holds after the run. -/
theorem foldl_keeps {α σ : Type} (P : σ → Prop) (l : List α) (f : σ → α → σ) (s : σ) (h0 : P s) (hs : ∀ a ∈ l, ∀ t, P t → P (f t a)) :
    P (l.foldl f s) := forAll_keeps P l (fun a t => f t a) s h0 hs

end Sys2Proof.Proofs
end

section
/-! ### Which registers a step writes -/

namespace Sys2Proof.Proofs

open Sys2Proof Sys2Proof.Machine Sys2Proof.Safety

/-- From `s` to `t` only registers at the (page, offset) pairs of `W` change. -/
def RegsOnly (W : Nat → Nat → Prop) (s t : State) : Prop := ∀ p off, off < 0x10000 → ¬ W p off → t.reg p off = s.reg p off

section
variable {W : Nat → Nat → Prop} {s t u : State}

theorem RegsOnly.of_regs (h : t.regs = s.regs) : RegsOnly W s t := fun p off _ _ => reg_of_regs h p off

theorem RegsOnly.refl (s : State) : RegsOnly W s s := .of_regs rfl

theorem RegsOnly.trans (h : RegsOnly W s t) (k : RegsOnly W t u) : RegsOnly W s u :=
  fun p off ho hw => (k p off ho hw).trans (h p off ho hw)

theorem RegsOnly.mono {V : Nat → Nat → Prop} (h : RegsOnly V s t) (hv : ∀ p off, V p off → W p off) : RegsOnly W s t :=
  fun p off ho hw => h p off ho fun hx => hw (hv p off hx)

theorem RegsOnly.get (h : RegsOnly W s t) {p : Nat} {f : FRef} (ho : f.off < 0x10000) (hw : ¬ W p f.off) : t.get p f = s.get p f := by
  unfold State.get; rw [h p f.off ho hw]

theorem RegsOnly.flag (h : RegsOnly W s t) {p : Nat} {f : FRef} (ho : f.off < 0x10000) (hw : ¬ W p f.off) : t.flag p f = s.flag p f := by
  unfold State.flag; rw [h.get ho hw]

theorem regsOnly_setReg (s : State) (p off v : Nat) (ho : off < 0x10000) (hw : W p off) : RegsOnly W s (s.setReg p off v) := by
  intro q b hb hn
  refine reg_setReg_ne _ _ _ _ _ _ fun hk => ?_
  obtain ⟨rfl, rfl⟩ := regKey_inj hb ho hk
  exact hn hw

end

end Sys2Proof.Proofs
end

section
/-! ### What start-up leaves -/

namespace Sys2Proof.Proofs

open Sys2Proof Sys2Proof.Machine Sys2Proof.Safety

/-- From `s` to `t` the registers of `W` may change, and nothing that start-up has fixed of the package and of Smith firmware. -/
structure BootKept (W : Nat → Nat → Prop) (s t : State) : Prop where
  off : t.off = s.off
  pwrok : t.pwrok = s.pwrok
  time : t.time = s.time
  flash : t.flash = s.flash
  part : t.part = s.part
  straps : t.straps = s.straps
  pop : t.pop = s.pop
  smith : t.smith = s.smith
  power : t.power = s.power
  alert : t.alert = s.alert
  regs : RegsOnly W s t

/-- As `BootKept`, and no site's control changes. -/
structure BootFrame (W : Nat → Nat → Prop) (s t : State) : Prop extends BootKept W s t where
  sites : t.sites = s.sites

section
variable {W : Nat → Nat → Prop} {s t u : State}

theorem BootKept.trans (h : BootKept W s t) (k : BootKept W t u) : BootKept W s u :=
  ⟨k.off.trans h.off, k.pwrok.trans h.pwrok, k.time.trans h.time, k.flash.trans h.flash, k.part.trans h.part, k.straps.trans h.straps,
    k.pop.trans h.pop, k.smith.trans h.smith, k.power.trans h.power, k.alert.trans h.alert, h.regs.trans k.regs⟩

theorem BootKept.mono {V : Nat → Nat → Prop} (h : BootKept V s t) (hv : ∀ p off, V p off → W p off) : BootKept W s t :=
  { h with regs := h.regs.mono hv }

theorem BootFrame.refl (s : State) : BootFrame W s s := ⟨⟨rfl, rfl, rfl, rfl, rfl, rfl, rfl, rfl, rfl, rfl, .refl s⟩, rfl⟩

theorem BootFrame.trans (h : BootFrame W s t) (k : BootFrame W t u) : BootFrame W s u :=
  ⟨h.toBootKept.trans k.toBootKept, k.sites.trans h.sites⟩

theorem BootFrame.mono {V : Nat → Nat → Prop} (h : BootFrame V s t) (hv : ∀ p off, V p off → W p off) : BootFrame W s t :=
  ⟨h.toBootKept.mono hv, h.sites⟩

theorem bootFrame_setReg (s : State) (p off v : Nat) (ho : off < 0x10000) (hw : W p off) : BootFrame W s (s.setReg p off v) :=
  { BootFrame.refl (W := W) s with regs := regsOnly_setReg s p off v ho hw }

theorem bootFrame_put (s : State) (p v : Nat) (f : FRef) (ho : f.off < 0x10000) (hw : W p f.off) : BootFrame W s (s.put p f v) :=
  bootFrame_setReg _ _ _ _ ho hw

theorem bootFrame_foldl {α : Type} (l : List α) (f : State → α → State) (s : State) (h : ∀ a ∈ l, ∀ t, BootFrame W t (f t a)) :
    BootFrame W s (l.foldl f s) :=
  foldl_keeps (fun t => BootFrame W s t) l f s (.refl s) fun a ha t ht => ht.trans (h a ha t)

end

end Sys2Proof.Proofs
end

section
/-! ### Votes of a package whose domains are off (R614 to R618) -/

namespace Sys2Proof.Proofs

open Sys2Proof Sys2Proof.Machine Sys2Proof.Safety

/-- The package is in Run with every domain OFF, as start-up finds it. -/
def AllOff (s : State) : Prop := s.get pgPWR Fld.PWR_STAT_STATE = 0 ∧ ∀ d, d < 50 → s.domState d = 0

/-- The slots that a vote of `v` in the slots of `mask` leaves a domain with (R614; log 151). -/
def voteNew (s : State) (d v mask : Nat) : Nat :=
  let absent := d < 16 && !bitN s.pop d
  maskOf ((List.range 32).filter fun j => (j < 10 || 16 ≤ j) && !(absent && j < 8) &&
    (if bitN mask j then bitN v j else bitN (s.votes d) j))

/-- A domain's vote register takes slots `n`, with slot 9 where a level wake holds it (R622). -/
def votePut (s : State) (d n : Nat) : State :=
  ((s.put pgPWR (Fld.VOTE_SLOT_LO d) (n % 2 ^ 10)).put pgPWR (Fld.VOTE_SLOT_HI d) (n / 2 ^ 16)).levelHold d

theorem levelHold_eq (s : State) (d : Nat) : s.levelHold d = s ∨
    s.levelHold d = s.put pgPWR (Fld.VOTE_SLOT_LO d) (setBits (s.get pgPWR (Fld.VOTE_SLOT_LO d)) 9 1 1) := by
  unfold State.levelHold; split
  · exact .inr rfl
  · exact .inl rfl

/-- The vote register of a domain. -/
def VoteReg (d p off : Nat) : Prop := p = pgPWR ∧ off = Reg.VOTE d

theorem bootFrame_putVoteLo (s : State) {d : Nat} (hd : d < 50) (x : Nat) : BootFrame (VoteReg d) s (s.put pgPWR (Fld.VOTE_SLOT_LO d) x) :=
  bootFrame_put _ _ _ _ (by simp [Fld.VOTE_SLOT_LO]; omega) ⟨rfl, rfl⟩

theorem bootFrame_putVoteHi (s : State) {d : Nat} (hd : d < 50) (x : Nat) : BootFrame (VoteReg d) s (s.put pgPWR (Fld.VOTE_SLOT_HI d) x) :=
  bootFrame_put _ _ _ _ (by simp [Fld.VOTE_SLOT_HI]; omega) ⟨rfl, rfl⟩

theorem bootFrame_levelHold (s : State) {d : Nat} (hd : d < 50) : BootFrame (VoteReg d) s (s.levelHold d) := by
  rcases levelHold_eq s d with h | h <;> rw [h]
  · exact .refl _
  · exact bootFrame_putVoteLo _ hd _

theorem bootFrame_votePut (s : State) {d : Nat} (hd : d < 50) (n : Nat) : BootFrame (VoteReg d) s (votePut s d n) :=
  ((bootFrame_putVoteLo _ hd _).trans (bootFrame_putVoteHi _ hd _)).trans (bootFrame_levelHold _ hd)

theorem bitN_mod_two_pow {v n i : Nat} (hi : i < n) : bitN (v % 2 ^ n) i = bitN v i := by
  simp [bitN_eq_testBit, Nat.testBit_mod_two_pow, hi]

theorem bitN_add_mul_two_pow (a b n : Nat) {i : Nat} (hi : i < n) : bitN (a + 2 ^ n * b) i = bitN a i := by
  rw [← bitN_mod_two_pow hi, Nat.add_mul_mod_self_left, bitN_mod_two_pow hi]

theorem bitN_setBits_ne {v lo w x i : Nat} (h : i < lo ∨ lo + w ≤ i) : bitN (setBits v lo w x) i = bitN v i := by
  change (bits _ i 1 == 1) = (bits _ i 1 == 1)
  rw [bits_setBits_ne _ _ _ _ _ _ (by omega)]

/-- The slots that Smith firmware and the hosts set are as voted; slot 9 is the wake logic's (R614, R622). -/
theorem bitN_votes_votePut (s : State) (d n : Nat) {i : Nat} (hi : i < 9) : bitN ((votePut s d n).votes d) i = bitN n i := by
  have hlo : ∀ t : State, bitN (t.votes d) i = bitN (t.get pgPWR (Fld.VOTE_SLOT_LO d)) i := fun t =>
    bitN_add_mul_two_pow _ _ _ (by omega)
  have hput : bitN (((s.put pgPWR (Fld.VOTE_SLOT_LO d) (n % 2 ^ 10)).put pgPWR (Fld.VOTE_SLOT_HI d) (n / 2 ^ 16)).get pgPWR (Fld.VOTE_SLOT_LO d)) i =
      bitN n i := by
    rw [get_put_beside (f := Fld.VOTE_SLOT_HI d) (g := Fld.VOTE_SLOT_LO d) _ _ _ rfl (by simp [Fld.VOTE_SLOT_LO]) (.inl (by simp [Fld.VOTE_SLOT_LO, Fld.VOTE_SLOT_HI])),
      get_put_same _ _ _ _ (by simp [Fld.VOTE_SLOT_LO])]
    change bitN (n % 2 ^ 10 % 2 ^ 10) i = _
    rw [Nat.mod_mod, bitN_mod_two_pow (by omega)]
  rw [hlo, votePut]
  rcases levelHold_eq ((s.put pgPWR (Fld.VOTE_SLOT_LO d) (n % 2 ^ 10)).put pgPWR (Fld.VOTE_SLOT_HI d) (n / 2 ^ 16)) d with h | h <;> rw [h]
  · exact hput
  · rw [get_put_same _ _ _ _ (by simp [Fld.VOTE_SLOT_LO])]
    change bitN (_ % 2 ^ 10) i = _
    rw [bitN_mod_two_pow (by omega), bitN_setBits_ne (.inl hi), hput]

/-- With every domain OFF a vote writes the slots of its domain and its target, and nothing else follows (R616, R618, R620). -/
theorem setVotes_of_allOff {s : State} (ha : AllOff s) {d : Nat} (hd : d < 50) (v mask : Nat) :
    s.setVotes d v mask = (votePut s d (voteNew s d v mask)).put pgPWR (Fld.DOM_STAT_TARGET d)
      (b2n ((votePut s d (voteNew s d v mask)).voteTarget d)) := by
  obtain ⟨hrun, hoff⟩ := ha
  obtain ⟨u, hu⟩ : ∃ u, u = votePut s d (voteNew s d v mask) := ⟨_, rfl⟩
  obtain ⟨w, hw⟩ : ∃ w, w = u.put pgPWR (Fld.DOM_STAT_TARGET d) (b2n (u.voteTarget d)) := ⟨_, rfl⟩
  have hkeep : RegsOnly (VoteReg d) s u := hu ▸ (bootFrame_votePut s hd _).regs
  have hdom : w.domState d = 0 := by
    rw [hw, State.domState, get_put_beside (f := Fld.DOM_STAT_TARGET d) (g := Fld.DOM_STAT_STATE d) _ _ _ rfl (by simp [Fld.DOM_STAT_STATE]) (.inl (by simp [Fld.DOM_STAT_STATE, Fld.DOM_STAT_TARGET])),
      hkeep.get (by simp [Fld.DOM_STAT_STATE]; omega) (by simp [VoteReg, Fld.DOM_STAT_STATE, Reg.VOTE])]
    exact hoff d hd
  have hstate : w.get pgPWR Fld.PWR_STAT_STATE = 0 := by
    rw [hw, get_put_ne _ _ _ _ _ _ (by simp [regKey, Fld.PWR_STAT_STATE, Fld.DOM_STAT_TARGET]; omega),
      hkeep.get (by decide) (by simp [VoteReg, Fld.PWR_STAT_STATE, Reg.VOTE]; omega), hrun]
  have hret : u.retarget d = w := by
    unfold State.retarget; dsimp only; rw [← hw, hdom]; simp
  have hleave : w.leaveBanked true State.wakeUnitSrc = w := by
    unfold State.leaveBanked; rw [hstate]; rfl
  rw [← hu, ← hw]
  unfold State.setVotes
  rw [if_neg (by omega)]
  change (if _ then State.leaveBanked (State.retarget (votePut s d (voteNew s d v mask)) d) true State.wakeUnitSrc
    else State.retarget (votePut s d (voteNew s d v mask)) d) = w
  rw [← hu, hret, hleave]
  split <;> rfl

/-- The vote and status registers of a domain. -/
def DomReg (d p off : Nat) : Prop := p = pgPWR ∧ (off = Reg.VOTE d ∨ off = Reg.DOM_STAT d)

/-- A step that writes at most the votes and targets of domains leaves every domain OFF. -/
theorem allOff_of_state {s t : State} (ha : AllOff s) (hs : t.get pgPWR Fld.PWR_STAT_STATE = s.get pgPWR Fld.PWR_STAT_STATE)
    (hd : ∀ d, d < 50 → t.domState d = s.domState d) : AllOff t :=
  ⟨hs.trans ha.1, fun d hd' => (hd d hd').trans (ha.2 d hd')⟩

/-- The slots after Smith firmware has set one of a domain that is there (R614). -/
theorem bitN_voteNew_slot (s : State) {d : Nat} (hd : d < 50) (hp : 16 ≤ d ∨ bitN s.pop d = true) (j : Nat) {i : Nat} (hi : i < 9) :
    bitN (voteNew s d (b2n true * 2 ^ j) (2 ^ j)) i = (i == j || bitN (s.votes d) i) := by
  have habs : (decide (d < 16) && !bitN s.pop d) = false := by
    rcases hp with hp | hp
    · simp; omega
    · simp [hp]
  have hbit : bitN (2 ^ j) i = (i == j) := by
    rw [bitN_eq_testBit, Nat.testBit_two_pow, Bool.eq_iff_iff, decide_eq_true_eq, beq_iff_eq, eq_comm]
  unfold voteNew
  rw [(maskOf_filter_range _ 32).2]
  simp only [habs, b2n, if_true, Nat.one_mul, hbit]
  have h1 : i < 32 := by omega
  have h2 : i < 10 := by omega
  cases hij : i == j <;> simp [h1, h2]

section
variable {s : State} (ha : AllOff s) {d : Nat} (hd : d < 50) (j : Nat)
include ha hd

/-- Setting a slot writes the registers of its domain alone. -/
theorem bootFrame_setSlot (on : Bool) : BootFrame (DomReg d) s (s.setSlot d j on) := by
  unfold State.setSlot
  rw [setVotes_of_allOff ha hd]
  exact .trans ((bootFrame_votePut s hd (voteNew s d _ _)).mono fun p off hv => ⟨hv.1, .inl hv.2⟩)
    (bootFrame_put _ _ _ _ (by simp [Fld.DOM_STAT_TARGET]; omega) ⟨rfl, .inr rfl⟩)

theorem allOff_setSlot (on : Bool) : AllOff (s.setSlot d j on) := by
  refine allOff_of_state ha ((bootFrame_setSlot ha hd j on).regs.get (by decide) (by simp [DomReg, Fld.PWR_STAT_STATE, Reg.VOTE, Reg.DOM_STAT]; omega)) ?_
  intro e he
  unfold State.setSlot
  rw [setVotes_of_allOff ha hd, State.domState]
  have hkeep := fun n => (bootFrame_votePut s hd n).regs.get (p := pgPWR) (f := Fld.DOM_STAT_STATE e) (by simp [Fld.DOM_STAT_STATE]; omega)
    (by simp [VoteReg, Fld.DOM_STAT_STATE, Reg.VOTE]; omega)
  by_cases hed : e = d
  · subst hed
    rw [get_put_beside (f := Fld.DOM_STAT_TARGET e) (g := Fld.DOM_STAT_STATE e) _ _ _ rfl (by simp [Fld.DOM_STAT_STATE])
      (.inl (by simp [Fld.DOM_STAT_STATE, Fld.DOM_STAT_TARGET])), hkeep]
    rfl
  · rw [get_put_ne _ _ _ _ _ _ (by simp [regKey, Fld.DOM_STAT_STATE, Fld.DOM_STAT_TARGET]; omega), hkeep]
    rfl

/-- A slot that Smith firmware sets is set, and the domain's others stay (R614). -/
theorem bitN_votes_setSlot (hp : 16 ≤ d ∨ bitN s.pop d = true) {i : Nat} (hi : i < 9) :
    bitN ((s.setSlot d j true).votes d) i = (i == j || bitN (s.votes d) i) := by
  have hvotes : ∀ (t : State) x, (t.put pgPWR (Fld.DOM_STAT_TARGET d) x).votes d = t.votes d := fun t x => by
    unfold State.votes
    rw [get_put_ne _ _ _ _ _ _ (by simp [regKey, Fld.VOTE_SLOT_LO, Fld.DOM_STAT_TARGET]),
      get_put_ne _ _ _ _ _ _ (by simp [regKey, Fld.VOTE_SLOT_HI, Fld.DOM_STAT_TARGET])]
  unfold State.setSlot
  rw [setVotes_of_allOff ha hd, hvotes, bitN_votes_votePut _ _ _ hi, bitN_voteNew_slot s hd hp j hi]

/-- A slot that counts makes its domain's target ON (R616). -/
theorem target_setSlot (hp : 16 ≤ d ∨ bitN s.pop d = true) (hj : j < 8) :
    (s.setSlot d j true).flag pgPWR (Fld.DOM_STAT_TARGET d) = true := by
  have htarget : (votePut s d (voteNew s d (b2n true * 2 ^ j) (2 ^ j))).voteTarget d = true := by
    unfold State.voteTarget
    rw [List.any_eq_true]
    refine ⟨j, ?_, by rw [bitN_votes_votePut _ _ _ (by omega), bitN_voteNew_slot s hd hp j (by omega)]; simp⟩
    unfold countingSlots
    split
    · exact List.mem_range.mpr hj
    · exact List.mem_append_left _ (List.mem_range.mpr (by omega))
  unfold State.setSlot State.flag
  rw [setVotes_of_allOff ha hd, get_put_same _ _ _ _ (by simp [Fld.DOM_STAT_TARGET]), htarget]
  rfl

end

end Sys2Proof.Proofs
end

section
/-! ### Slots set over a list of domains, and Traverse started at a site -/

namespace Sys2Proof.Proofs

open Sys2Proof Sys2Proof.Machine Sys2Proof.Safety

theorem votes_of_regsOnly {W : Nat → Nat → Prop} {s t : State} (h : RegsOnly W s t) {d : Nat} (hd : d < 50) (hw : ¬ W pgPWR (Reg.VOTE d)) :
    t.votes d = s.votes d := by
  have ho : Reg.VOTE d < 0x10000 := by simp [Reg.VOTE]; omega
  unfold State.votes
  rw [h.get (f := Fld.VOTE_SLOT_LO d) ho hw, h.get (f := Fld.VOTE_SLOT_HI d) ho hw]

theorem target_of_regsOnly {W : Nat → Nat → Prop} {s t : State} (h : RegsOnly W s t) {d : Nat} (hd : d < 50) (hw : ¬ W pgPWR (Reg.DOM_STAT d)) :
    t.flag pgPWR (Fld.DOM_STAT_TARGET d) = s.flag pgPWR (Fld.DOM_STAT_TARGET d) :=
  h.flag (f := Fld.DOM_STAT_TARGET d) (by simp [Fld.DOM_STAT_TARGET]; omega) hw

theorem not_domReg_vote {d e : Nat} (he : e < 50) (hd : d < 50) (hne : e ≠ d) : ¬ DomReg d pgPWR (Reg.VOTE e) := by
  simp [DomReg, Reg.VOTE, Reg.DOM_STAT]; omega

theorem not_domReg_stat {d e : Nat} (he : e < 50) (hd : d < 50) (hne : e ≠ d) : ¬ DomReg d pgPWR (Reg.DOM_STAT e) := by
  simp [DomReg, Reg.VOTE, Reg.DOM_STAT]; omega

/-- Slot `j` of the domains of a list has been set, and nothing else has changed. -/
structure SlotsSet (l : List Nat) (j : Nat) (s t : State) : Prop where
  allOff : AllOff t
  frame : BootFrame (fun p off => ∃ d ∈ l, DomReg d p off) s t
  votes : ∀ d, d < 50 → ∀ i, i < 9 → bitN (t.votes d) i = ((decide (d ∈ l) && i == j) || bitN (s.votes d) i)
  target : j < 8 → ∀ d ∈ l, t.flag pgPWR (Fld.DOM_STAT_TARGET d) = true

/-- Votes of Smith firmware for domains other than sites' (R616, R655). -/
theorem slotsSet_foldl (l : List Nat) (j : Nat) (s : State) (ha : AllOff s) (hl : ∀ d ∈ l, 16 ≤ d ∧ d < 50) :
    SlotsSet l j s (l.foldl (fun s d => s.setSlot d j true) s) := by
  induction l generalizing s with
  | nil => exact ⟨ha, .refl s, fun d _ i _ => by simp, fun _ d hd => absurd hd (by simp)⟩
  | cons b l ih =>
    obtain ⟨hb16, hb50⟩ := hl b (List.mem_cons_self ..)
    have hfr := bootFrame_setSlot ha hb50 j true
    have hbit := fun i (hi : i < 9) => bitN_votes_setSlot ha hb50 j (.inl hb16) hi
    obtain ⟨hoff, hrest, hvotes, htarget⟩ := ih (s.setSlot b j true) (allOff_setSlot ha hb50 j true)
      (fun d hd => hl d (List.mem_cons_of_mem _ hd))
    refine ⟨hoff, ?_, fun d hd i hi => ?_, fun hj d hd => ?_⟩
    · exact (hfr.mono fun p off hr => ⟨b, List.mem_cons_self .., hr⟩).trans
        (hrest.mono fun p off ⟨d, hd, hr⟩ => ⟨d, List.mem_cons_of_mem _ hd, hr⟩)
    · rw [List.foldl_cons, hvotes d hd i hi]
      by_cases hdb : d = b
      · subst hdb; rw [hbit i hi]; cases (i == j) <;> simp
      · rw [votes_of_regsOnly hfr.regs hd (not_domReg_vote hd hb50 hdb)]; simp [hdb]
    · rw [List.foldl_cons]
      by_cases hm : d ∈ l
      · exact htarget hj d hm
      · obtain rfl : d = b := (List.mem_cons.mp hd).resolve_right hm
        rw [target_of_regsOnly hrest.regs hb50 (by rintro ⟨e, he, hr⟩; exact not_domReg_stat hb50 (hl e (List.mem_cons_of_mem _ he)).2 (by rintro rfl; exact hm he) hr)]
        exact target_setSlot ha hb50 j (.inl hb16) hj

/-! #### Traverse (R454) -/

/-- Every register of LNK of a site. -/
def LnkPage (i p _off : Nat) : Prop := p = pgLNK i

theorem bootFrame_setLk (s : State) (i m : Nat) (e : LinkEnd) (x : LinkSide) (hm : m < 4) : BootFrame (LnkPage i) s (s.setLk i m e x) := by
  have hput : ∀ (t : State) (f : FRef) v, f.off < 0x10000 → BootFrame (LnkPage i) t (t.put (pgLNK i) f v) := fun t f v ho =>
    bootFrame_put _ _ _ _ ho rfl
  have hlinks : ∀ l, BootFrame (LnkPage i) s { s with links := l } := fun l => { BootFrame.refl (W := LnkPage i) s with regs := .of_regs rfl }
  have hpause : ∀ l v, BootFrame (LnkPage i) s (({ s with links := l } : State).put (pgLNK i) (Fld.LNK_STAT_PAUSE m) v) :=
    fun l v => (hlinks l).trans (hput _ _ _ (by simp [Fld.LNK_STAT_PAUSE]; omega))
  cases e with
  | die => exact hpause _ _
  | hub =>
    unfold State.setLk
    refine (((((((hpause _ _).trans (hput _ _ _ ?_)).trans (hput _ _ _ ?_)).trans (hput _ _ _ ?_)).trans (hput _ _ _ ?_)).trans (hput _ _ _ ?_)).trans
      (hput _ _ _ ?_)).trans (hput _ _ _ ?_) <;>
    simp [Fld.LNK_STAT_STATE, Fld.LNK_STAT_WIDTH, Fld.LNK_STAT_MMCNT, Fld.LNK_STAT_SVCNT, Fld.LNK_MAP_DH_RECORD, Fld.LNK_MAP_HD_RECORD,
      Fld.LNK_MAPINFO_MAPSEQ] <;> omega

theorem bootFrame_disableModule (s : State) (i m : Nat) (hm : m < 4) : BootFrame (LnkPage i) s (s.disableModule i m) := by
  have hen : BootFrame (LnkPage i) s (s.put (pgLNK i) (Fld.LNK_CTL_EN m) 0) := bootFrame_put _ _ _ _ (by simp [Fld.LNK_CTL_EN]; omega) rfl
  exact (hen.trans (bootFrame_setLk _ i m .hub _ hm)).trans (bootFrame_setLk _ i m .die _ hm)

/-- A site's modules go to RESET and its die starts anew (R454, R647). -/
def siteCleared (s : State) (i : Nat) : State :=
  ([0, 1, 2, 3].foldl (fun (s : State) m => s.disableModule i m) s).modDie i fun _ => {}

/-- What Smith firmware does to a site before it votes its domain on for Traverse (R454). -/
def travPrepared (s : State) (i : Nat) : State :=
  (siteCleared s i).modSite i fun x => { x with trav := some { step := 1, sent := (siteCleared s i).time } }

theorem bootFrame_modDie {W : Nat → Nat → Prop} (s : State) (i : Nat) (f : Die → Die) : BootFrame W s (s.modDie i f) :=
  { BootFrame.refl (W := W) s with regs := .of_regs rfl }

theorem bootFrame_siteCleared (s : State) (i : Nat) : BootFrame (LnkPage i) s (siteCleared s i) :=
  .trans (bootFrame_foldl _ _ _ fun m hm t => bootFrame_disableModule t i m (by simp at hm; omega)) (bootFrame_modDie _ _ _)

theorem bootKept_modSite {W : Nat → Nat → Prop} (s : State) (i : Nat) (f : Site → Site) : BootKept W s (s.modSite i f) :=
  { (BootFrame.refl (W := W) s).toBootKept with regs := .of_regs rfl }

theorem siteAt_modSite_same (s : State) {i : Nat} (f : Site → Site) (hi : i < 16) : (s.modSite i f).siteAt i = f (s.siteAt i) :=
  nthD_modOf_same _ _ _ _ _ hi

theorem siteAt_modSite_ne (s : State) {i k : Nat} (f : Site → Site) (hk : k ≠ i) : (s.modSite i f).siteAt k = s.siteAt k :=
  nthD_modOf_ne _ _ _ _ hk

theorem siteAt_of_sites {s t : State} (h : t.sites = s.sites) (k : Nat) : t.siteAt k = s.siteAt k := by
  unfold State.siteAt; rw [h]

theorem bootKept_travPrepared (s : State) (i : Nat) : BootKept (LnkPage i) s (travPrepared s i) :=
  (bootFrame_siteCleared s i).toBootKept.trans (bootKept_modSite _ _ _)

theorem trav_travPrepared (s : State) {i : Nat} (hi : i < 16) : ((travPrepared s i).siteAt i).trav.isSome = true := by
  unfold travPrepared; rw [siteAt_modSite_same _ _ hi, Option.isSome_some]

theorem siteAt_travPrepared_ne (s : State) {i k : Nat} (hk : k ≠ i) : (travPrepared s i).siteAt k = s.siteAt k := by
  unfold travPrepared; rw [siteAt_modSite_ne _ _ hk, siteAt_of_sites (bootFrame_siteCleared s i).sites]

/-- A site that Smith firmware may start Traverse of (R452, R454). -/
def TravReady (s : State) (i : Nat) : Prop :=
  s.populated i = true ∧ s.admitted i = false ∧ s.fenced i = true ∧ s.walkClear i = true

/-- A Traverse under way is not started again. -/
theorem travStart_underWay {s : State} {i : Nat} (ht : (s.siteAt i).trav.isSome = true) : s.travStart i = s := by
  simp [State.travStart, ht]

/-- With its domain OFF a site waits in step 1, its domain voted on (R454, R616). -/
theorem travStart_ready {s : State} {i : Nat} (hi : i < 16) (ha : AllOff (travPrepared s i)) (hr : TravReady s i) (ht : (s.siteAt i).trav.isSome = false) :
    s.travStart i = (travPrepared s i).setSlot i 0 true := by
  obtain ⟨hpop, hadm, hfence, hwalk⟩ := hr
  have hoff := (allOff_setSlot ha (by omega : i < 50) 0 true).2 i (by omega)
  have hpow : ((travPrepared s i).setSlot i 0 true).travPowered i = (travPrepared s i).setSlot i 0 true := by
    unfold State.travPowered
    cases (State.siteAt ((travPrepared s i).setSlot i 0 true) i).trav with
    | none => rfl
    | some t => simp [State.domOn, hoff]
  unfold State.travStart
  rw [if_neg (by simp [hpop, hadm, hfence, hwalk, ht]; omega)]
  exact hpow

/-- The registers that starting Traverse at sites writes: their links' and their domains'. -/
def TravRegs (p off : Nat) : Prop := ∃ i, i < 16 ∧ (LnkPage i p off ∨ DomReg i p off)

theorem not_travRegs_of_page {p off : Nat} (h1 : p ≠ pgPWR) (h2 : p < 0x20 ∨ 0x30 ≤ p) : ¬ TravRegs p off := by
  rintro ⟨i, hi, h | h⟩
  · simp only [LnkPage, pgLNK] at h; omega
  · exact h1 h.1

theorem not_travRegs_dom {d : Nat} (h16 : 16 ≤ d) (h50 : d < 50) : ¬ TravRegs pgPWR (Reg.VOTE d) ∧ ¬ TravRegs pgPWR (Reg.DOM_STAT d) := by
  constructor <;> rintro ⟨i, hi, h | h⟩
  · simp only [LnkPage, pgLNK, pgPWR] at h; omega
  · exact not_domReg_vote h50 (by omega : i < 50) (by omega) h
  · simp only [LnkPage, pgLNK, pgPWR] at h; omega
  · exact not_domReg_stat h50 (by omega : i < 50) (by omega) h

theorem travReady_of_bootKept {s t : State} (h : BootKept TravRegs s t) {i : Nat} (hi : i < 16) (hr : TravReady s i) : TravReady t i := by
  obtain ⟨hpop, hadm, hfence, hwalk⟩ := hr
  have hsite : ∀ off, ¬ TravRegs (pgSITE i) off := fun off => not_travRegs_of_page (by simp [pgSITE, pgPWR]; omega) (.inl (by simp [pgSITE]; omega))
  refine ⟨?_, ?_, ?_, ?_⟩
  · unfold State.populated; rw [h.pop]; exact hpop
  · exact (h.regs.flag (by decide) (hsite _)).trans hadm
  · exact (h.regs.flag (by decide) (hsite _)).trans hfence
  · unfold State.walkClear at hwalk ⊢
    rw [List.all_eq_true] at hwalk ⊢
    intro k hk
    rw [h.regs.get (by decide) (not_travRegs_of_page (by simp [pgHOME, pgPWR]; omega) (.inr (by simp [pgHOME]; omega)))]
    exact hwalk k hk

/-- Traverse has been started at sites of a package whose domains are off: those of them under way have slot 0 set (R616). -/
structure TraversesUnderWay (u t : State) : Prop where
  kept : BootKept TravRegs u t
  allOff : AllOff t
  voted : ∀ i, i < 16 → (t.siteAt i).trav.isSome = true → bitN (t.votes i) 0 = true

/-- Starting Traverse at one more site. -/
theorem traversesUnderWay_travStart {u t : State} (h : TraversesUnderWay u t) {i : Nat} (hi : i < 16) (hr : TravReady u i) :
    TraversesUnderWay u (t.travStart i) ∧ ((t.travStart i).siteAt i).trav.isSome = true ∧
      ∀ k, (t.siteAt k).trav.isSome = true → ((t.travStart i).siteAt k).trav.isSome = true := by
  cases ht : (t.siteAt i).trav.isSome with
  | true => rw [travStart_underWay ht]; exact ⟨h, ht, fun _ hk => hk⟩
  | false =>
    obtain ⟨hkept, hoff, hvoted⟩ := h
    have hr' := travReady_of_bootKept hkept hi hr
    have hp := bootKept_travPrepared t i
    have hnl : ∀ off, ¬ LnkPage i pgPWR off := fun off => by simp [LnkPage, pgLNK, pgPWR]; omega
    have hoffp : AllOff (travPrepared t i) := allOff_of_state hoff (hp.regs.get (by decide) (hnl _))
      fun d hd => hp.regs.get (by simp [Fld.DOM_STAT_STATE]; omega) (hnl _)
    have hset := bootFrame_setSlot hoffp (by omega : i < 50) 0 true
    have hbits : ∀ k, k < 16 → bitN (((travPrepared t i).setSlot i 0 true).votes k) 0 = (decide (k = i) || bitN (t.votes k) 0) := by
      intro k hk
      have hvp : (travPrepared t i).votes k = t.votes k := votes_of_regsOnly hp.regs (by omega) (hnl _)
      by_cases hki : k = i
      · subst hki
        rw [bitN_votes_setSlot hoffp (by omega) 0 (.inr (by rw [hp.pop]; exact hr'.1)) (by decide)]; simp
      · rw [votes_of_regsOnly hset.regs (by omega) (not_domReg_vote (by omega) (by omega) hki), hvp]; simp [hki]
    rw [travStart_ready hi hoffp hr' ht]
    refine ⟨⟨?_, allOff_setSlot hoffp (by omega) 0 true, fun k hk hkt => ?_⟩, ?_, fun k hkt => ?_⟩
    · exact (hkept.trans (hp.mono fun p off hx => ⟨i, hi, .inl hx⟩)).trans (hset.toBootKept.mono fun p off hx => ⟨i, hi, .inr hx⟩)
    · rw [hbits k hk]
      by_cases hki : k = i
      · simp [hki]
      · rw [siteAt_of_sites hset.sites, siteAt_travPrepared_ne t hki] at hkt
        simp [hvoted k hk hkt]
    · rw [siteAt_of_sites hset.sites, trav_travPrepared t hi]
    · rw [siteAt_of_sites hset.sites]
      by_cases hki : k = i
      · rw [hki, trav_travPrepared t hi]
      · rw [siteAt_travPrepared_ne t hki, hkt]

/-- Every site of a list traverses (R655). -/
theorem traversesUnderWay_foldl (l : List Nat) (u : State) (ha : AllOff u) (hn : ∀ i, (u.siteAt i).trav = none)
    (hl : ∀ i ∈ l, i < 16 ∧ TravReady u i) :
    TraversesUnderWay u (l.foldl (fun s i => s.travStart i) u) ∧
      ∀ i ∈ l, ((l.foldl (fun s i => s.travStart i) u).siteAt i).trav.isSome = true := by
  have h := foldl_establishes (TraversesUnderWay u) (fun i t => (t.siteAt i).trav.isSome = true) (fun s i => s.travStart i) l u
    ⟨(BootFrame.refl u).toBootKept, ha, fun i _ ht => by rw [hn i] at ht; cases ht⟩
    (fun i hi t ht => (traversesUnderWay_travStart ht (hl i hi).1 (hl i hi).2).1)
    (fun i hi t ht => (traversesUnderWay_travStart ht (hl i hi).1 (hl i hi).2).2.1)
    (fun k i hi t ht hk => (traversesUnderWay_travStart ht (hl i hi).1 (hl i hi).2).2.2 k hk)
  exact ⟨h.1, fun i hi => h.2 i (.inl hi)⟩

end Sys2Proof.Proofs
end

section
/-! ### The profile that start-up loads (R46, R655) -/

namespace Sys2Proof.Proofs

open Sys2Proof Sys2Proof.Machine Sys2Proof.Safety

/-- The registers that a profile is loaded into (R46, R49). -/
def ProfileRegs (p off : Nat) : Prop :=
  (p = pgSMITH ∧ off = Reg.PROFILE) ∨ (p = pgPWR ∧ (off = Reg.PWR_LIMIT ∨ off = Reg.PWR_FLOOR)) ∨ (∃ h, h < 64 ∧ p = pgHOME h ∧ off = Reg.HOME_CFG) ∨
    (p = pgHRTH 0 ∧ off = Reg.HRTH_CTL) ∨ ∃ i, i < 16 ∧ p = pgSITE i ∧ off ≠ Reg.SITE_STAT

/-- The profile's limits, with the profile itself kept for Smith firmware (R49). -/
def profileLimits (s : State) (n : Nat) (pr : Prof) : State :=
  let s := (s.put pgSMITH Fld.PROFILE_IN_FORCE n)
  let s := { s with smith := { s.smith with boot := some pr } }
  ((s.put pgPWR Fld.PWR_LIMIT_PLIMIT pr.plimit).put pgPWR Fld.PWR_LIMIT_FCAP pr.fcap).put pgPWR Fld.PWR_FLOOR_FLOOR pr.floor

/-- The profile's hash mode, in every home. -/
def profileHomes (s : State) (pr : Prof) : State := forAll (List.range 64) (fun h s => s.put (pgHOME h) Fld.HOME_CFG_HASH pr.hash) s

/-- The profile's Boundary defaults, site by site (R476). -/
def profileSites (s : State) (pr : Prof) : State :=
  (List.range 16).foldl (fun s i =>
    if i < 12 then s.setReg (pgSITE i) Reg.BND_ACT qorsyActions
    else
      let s := (s.put (pgSITE i) Fld.BND_CTL_CLASS_OK (nthD pr.classOk (i - 12) 0)).setReg (pgSITE i) Reg.BND_ACT pr.act
      (List.range 4).foldl (fun s m => s.setReg (pgSITE i) (Reg.BND_METER m) (nthD pr.meters m 0)) s) s

/-- The registers of a profile, loaded; a profile that is not good is recorded besides (R653). -/
def profileLoaded (s : State) (n : Nat) (pr : Prof) : State :=
  profileSites ((profileHomes (profileLimits s n pr) pr).put (pgHRTH 0) Fld.HRTH_CTL_SCR_WAYS pr.scr) pr

theorem loadProfile_eq (s : State) (n : Nat) : s.loadProfile n = profileLoaded s n (s.profOf n) ∨
    ∃ r, s.loadProfile n = (profileLoaded s n (s.profOf n)).record r := by
  unfold State.loadProfile
  dsimp only
  split
  · exact .inr ⟨_, rfl⟩
  · exact .inl rfl

theorem bootFrame_profileHomes (s : State) (pr : Prof) :
    BootFrame (fun p off => ∃ h, h < 64 ∧ p = pgHOME h ∧ off = Reg.HOME_CFG) s (profileHomes s pr) :=
  bootFrame_foldl _ _ _ fun h hh t => bootFrame_put _ _ _ _ (by decide) ⟨h, List.mem_range.mp hh, rfl, rfl⟩

theorem bootFrame_profileSites (s : State) (pr : Prof) :
    BootFrame (fun p off => ∃ i, i < 16 ∧ p = pgSITE i ∧ off ≠ Reg.SITE_STAT) s (profileSites s pr) := by
  refine bootFrame_foldl _ _ _ fun i hi t => ?_
  have hi := List.mem_range.mp hi
  dsimp only
  split
  · exact bootFrame_setReg _ _ _ _ (by decide) ⟨i, hi, rfl, by decide⟩
  · refine .trans (.trans (bootFrame_put t (pgSITE i) (nthD pr.classOk (i - 12) 0) Fld.BND_CTL_CLASS_OK (by decide) ⟨i, hi, rfl, by decide⟩)
      (bootFrame_setReg _ (pgSITE i) Reg.BND_ACT pr.act (by decide) ⟨i, hi, rfl, by decide⟩)) ?_
    exact bootFrame_foldl _ _ _ fun m hm t => bootFrame_setReg _ _ _ _ (by have := List.mem_range.mp hm; simp [Reg.BND_METER]; omega)
      ⟨i, hi, rfl, by simp [Reg.BND_METER, Reg.SITE_STAT]; omega⟩

theorem bootFrame_profileLimits (s : State) (n : Nat) (pr : Prof) :
    BootFrame ProfileRegs { s with smith := { s.smith with boot := some pr } } (profileLimits s n pr) := by
  have hput : ∀ t : State, BootFrame ProfileRegs t (t.put pgSMITH Fld.PROFILE_IN_FORCE n) := fun t =>
    bootFrame_put _ _ _ _ (by decide) (.inl ⟨rfl, rfl⟩)
  refine .trans (.trans (.trans (hput _) (bootFrame_put _ pgPWR _ Fld.PWR_LIMIT_PLIMIT (by decide) (.inr (.inl ⟨rfl, .inl rfl⟩))))
    (bootFrame_put _ pgPWR _ Fld.PWR_LIMIT_FCAP (by decide) (.inr (.inl ⟨rfl, .inl rfl⟩))))
    (bootFrame_put _ pgPWR _ Fld.PWR_FLOOR_FLOOR (by decide) (.inr (.inl ⟨rfl, .inr rfl⟩)))

theorem bootFrame_record {W : Nat → Nat → Prop} (s : State) (r : Rec) : BootFrame W s (s.record r) := by
  rw [record_eq]
  exact { BootFrame.refl (W := W) s with regs := .of_regs rfl }

/-- Loading a profile writes its registers and remembers it (R49). -/
theorem bootFrame_profileLoaded (s : State) (n : Nat) (pr : Prof) :
    BootFrame ProfileRegs { s with smith := { s.smith with boot := some pr } } (profileLoaded s n pr) := by
  refine .trans (.trans (.trans (bootFrame_profileLimits s n pr) ((bootFrame_profileHomes _ pr).mono fun p off h => .inr (.inr (.inl h))))
    (bootFrame_put _ _ _ _ (by decide) (.inr (.inr (.inr (.inl ⟨rfl, rfl⟩)))))) ((bootFrame_profileSites _ pr).mono fun p off h => .inr (.inr (.inr (.inr h))))

theorem bootFrame_loadProfile (s : State) (n : Nat) :
    BootFrame ProfileRegs { s with smith := { s.smith with boot := some (s.profOf n) } } (s.loadProfile n) := by
  have h := bootFrame_profileLoaded s n (s.profOf n)
  rcases loadProfile_eq s n with he | ⟨r, he⟩ <;> rw [he]
  · exact h
  · exact h.trans (bootFrame_record _ r)

/-- Limits and Smith firmware's registers are those that the profile's first step leaves. -/
theorem get_loadProfile_low (s : State) (n : Nat) {p : Nat} {f : FRef} (hp : p < 0x10) (hf : f.off < 0x10000) :
    (s.loadProfile n).get p f = (profileLimits s n (s.profOf n)).get p f := by
  have hl : (profileLoaded s n (s.profOf n)).get p f = (profileLimits s n (s.profOf n)).get p f := by
    rw [profileLoaded, (bootFrame_profileSites _ _).regs.get hf (by rintro ⟨i, hi, h, -⟩; simp only [pgSITE] at h; omega),
      get_put_ne _ _ _ _ _ _ (by intro hk; have := (regKey_inj hf (by decide) hk).1; simp only [pgHRTH] at this; omega),
      (bootFrame_profileHomes _ _).regs.get hf (by rintro ⟨i, hi, h, -⟩; simp only [pgHOME] at h; omega)]
  rcases loadProfile_eq s n with he | ⟨r, he⟩ <;> rw [he]
  · exact hl
  · rw [get_of_regs (State.record_regs _ _), hl]

/-- What the registers of a loaded profile read (R46, R49, R207). -/
structure ProfileShown (t : State) (n : Nat) (pr : Prof) : Prop where
  inForce : t.get pgSMITH Fld.PROFILE_IN_FORCE = n % 4
  plimit : t.get pgPWR Fld.PWR_LIMIT_PLIMIT = pr.plimit % 2 ^ 11
  fcap : t.get pgPWR Fld.PWR_LIMIT_FCAP = pr.fcap % 2 ^ 12
  floor : t.get pgPWR Fld.PWR_FLOOR_FLOOR = pr.floor % 2 ^ 12
  hash : ∀ h, h < 64 → t.get (pgHOME h) Fld.HOME_CFG_HASH = pr.hash % 2

theorem get_profileHomes (s : State) (pr : Prof) {h : Nat} (hh : h < 64) : (profileHomes s pr).get (pgHOME h) Fld.HOME_CFG_HASH = pr.hash % 2 := by
  have hset : ∀ (t : State) k, (t.put (pgHOME k) Fld.HOME_CFG_HASH pr.hash).get (pgHOME k) Fld.HOME_CFG_HASH = pr.hash % 2 := fun t k =>
    get_put_same _ _ _ _ (by decide)
  refine (foldl_establishes (fun _ => True) (fun h (t : State) => t.get (pgHOME h) Fld.HOME_CFG_HASH = pr.hash % 2)
    (fun s h => s.put (pgHOME h) Fld.HOME_CFG_HASH pr.hash) (List.range 64) s trivial (fun _ _ _ _ => trivial) (fun k _ t _ => hset t k) ?_).2 h
    (.inl (List.mem_range.mpr hh))
  intro a b _ t _ ha
  by_cases hab : a = b
  · subst hab; exact hset t a
  · rw [get_put_ne _ _ _ _ _ _ (by simp [regKey, pgHOME]; omega), ha]

theorem profileShown_loadProfile (s : State) (n : Nat) : ProfileShown (s.loadProfile n) n (s.profOf n) := by
  refine ⟨?_, ?_, ?_, ?_, fun h hh => ?_⟩
  · rw [get_loadProfile_low _ _ (by decide) (by decide), profileLimits, get_put_ne _ _ _ _ _ _ (by decide), get_put_ne _ _ _ _ _ _ (by decide),
      get_put_ne _ _ _ _ _ _ (by decide)]
    exact get_put_same s _ _ _ (by decide)
  · rw [get_loadProfile_low _ _ (by decide) (by decide), profileLimits, get_put_ne _ _ _ _ _ _ (by decide),
      get_put_beside (f := Fld.PWR_LIMIT_FCAP) (g := Fld.PWR_LIMIT_PLIMIT) _ _ _ rfl (by decide) (by decide), get_put_same _ _ _ _ (by decide)]
    rfl
  · rw [get_loadProfile_low _ _ (by decide) (by decide), profileLimits, get_put_ne _ _ _ _ _ _ (by decide), get_put_same _ _ _ _ (by decide)]
    rfl
  · rw [get_loadProfile_low _ _ (by decide) (by decide), profileLimits, get_put_same _ _ _ _ (by decide)]
    rfl
  · have hl : (profileLoaded s n (s.profOf n)).get (pgHOME h) Fld.HOME_CFG_HASH = (s.profOf n).hash % 2 := by
      rw [profileLoaded, (bootFrame_profileSites _ _).regs.get (by decide) (by rintro ⟨i, hi, h, -⟩; simp only [pgSITE, pgHOME] at h; omega),
        get_put_ne _ _ _ _ _ _ (by simp [regKey, pgHOME, pgHRTH, Fld.HOME_CFG_HASH, Fld.HRTH_CTL_SCR_WAYS]; omega), get_profileHomes _ _ hh]
    rcases loadProfile_eq s n with he | ⟨r, he⟩ <;> rw [he]
    · exact hl
    · rw [get_of_regs (State.record_regs _ _), hl]

/-- Loading a profile leaves the strap's profile number beside the one in force (R46). -/
theorem get_pins_loadProfile (s : State) (n : Nat) : (s.loadProfile n).get pgSMITH Fld.PROFILE_PINS = s.get pgSMITH Fld.PROFILE_PINS := by
  rw [get_loadProfile_low _ _ (by decide) (by decide), profileLimits, get_put_ne _ _ _ _ _ _ (by decide), get_put_ne _ _ _ _ _ _ (by decide),
    get_put_ne _ _ _ _ _ _ (by decide)]
  exact get_put_beside (f := Fld.PROFILE_IN_FORCE) (g := Fld.PROFILE_PINS) s _ _ rfl (by decide) (by decide)

/-! ### The end of start-up (R655, R656) -/

/-- While a Traverse is under way start-up waits. -/
theorem startupAdvance_waits {s : State} {i : Nat} (ht : (s.siteAt i).trav.isSome = true) : s.startupAdvance = s := by
  have hany : s.sites.any (fun x => x.trav.isSome) = true := by
    unfold State.siteAt nthD at ht
    rw [List.getD_eq_getElem?_getD] at ht
    cases hx : s.sites[i]? with
    | none => rw [hx] at ht; cases ht
    | some x =>
      rw [hx] at ht
      exact List.any_eq_true.mpr ⟨x, List.mem_of_getElem? hx, ht⟩
  simp [State.startupAdvance, hany]

/-- The host image is loaded and no site is there to boot from (R656). -/
def startedWithoutSite (s : State) : State :=
  let s := ({ s with smith := { s.smith with startup := false } } : State).loadImage s.flash.load s.flash.image
  ({ s with alert := { s.alert with noBootSite := true } } : State).record
    { typ := 0x13, cls := 3, source := srcSmithRecord, page := pgSMITH, sub := 2, fires := true }

@[simp] theorem loadImage_regs (s : State) (pa : Nat) (l : List Byte) : (s.loadImage pa l).regs = s.regs := by
  unfold State.loadImage; split <;> rfl

theorem startupAdvance_noSite {s : State} (hs : s.smith.startup = true) (ht : s.sites.any (fun x => x.trav.isSome) = false)
    (hadm : ∀ i, i < 16 → s.admitted i = false) : s.startupAdvance = startedWithoutSite s := by
  have hfind : ∀ t : State, t.regs = s.regs → (List.range 16).find? (fun i => t.admitted i && !t.foreignDie i) = none := by
    intro t hr
    rw [List.find?_eq_none]
    intro i hi
    have : t.admitted i = false := (flag_of_regs hr _ _).trans (hadm i (List.mem_range.mp hi))
    simp [this]
  unfold State.startupAdvance
  rw [if_neg (by simp [hs, ht])]
  dsimp only
  rw [hfind _ (by simp)]
  rfl

end Sys2Proof.Proofs
end

section
/-! ### Steps 3 and 6 to 9 of start-up (R655) -/

namespace Sys2Proof.Proofs

open Sys2Proof Sys2Proof.Machine Sys2Proof.Safety

/-- The registers that start-up writes once its profile is loaded: votes and states of domains, and the links' pages. -/
def TailRegs (p off : Nat) : Prop := TravRegs p off ∨ ∃ d, d < 50 ∧ DomReg d p off

theorem not_tailRegs_of_page {p off : Nat} (h1 : p ≠ pgPWR) (h2 : p < 0x20 ∨ 0x30 ≤ p) : ¬ TailRegs p off := by
  rintro (h | ⟨d, -, h, -⟩)
  · exact not_travRegs_of_page h1 h2 h
  · exact h1 h

theorem not_tailRegs_limits {off : Nat} (ho : off < 0x200) : ¬ TailRegs pgPWR off := by
  rintro (⟨i, hi, h | ⟨-, h⟩⟩ | ⟨d, hd, -, h⟩)
  · simp only [LnkPage, pgLNK, pgPWR] at h; omega
  · simp only [Reg.VOTE, Reg.DOM_STAT] at h; omega
  · simp only [Reg.VOTE, Reg.DOM_STAT] at h; omega

/-- What stands from the profile's loading to the end of start-up. -/
structure TailKept (s t : State) : Prop where
  off : t.off = s.off
  pwrok : t.pwrok = s.pwrok
  time : t.time = s.time
  flash : t.flash = s.flash
  part : t.part = s.part
  straps : t.straps = s.straps
  pop : t.pop = s.pop
  power : t.power = s.power
  running : t.smith.running = s.smith.running
  regs : RegsOnly TailRegs s t

theorem TailKept.trans {s t u : State} (h : TailKept s t) (k : TailKept t u) : TailKept s u :=
  ⟨k.off.trans h.off, k.pwrok.trans h.pwrok, k.time.trans h.time, k.flash.trans h.flash, k.part.trans h.part, k.straps.trans h.straps,
    k.pop.trans h.pop, k.power.trans h.power, k.running.trans h.running, h.regs.trans k.regs⟩

theorem tailKept_of_bootKept {W : Nat → Nat → Prop} {s t : State} (h : BootKept W s t) (hw : ∀ p off, W p off → TailRegs p off) : TailKept s t :=
  ⟨h.off, h.pwrok, h.time, h.flash, h.part, h.straps, h.pop, h.power, by rw [h.smith], h.regs.mono hw⟩

theorem tailKept_startup (s : State) (on : Bool) : TailKept s { s with smith := { s.smith with startup := on } } :=
  ⟨rfl, rfl, rfl, rfl, rfl, rfl, rfl, rfl, rfl, .of_regs rfl⟩

theorem startedWithoutSite_regs (s : State) : (startedWithoutSite s).regs = s.regs := by
  simp [startedWithoutSite]

theorem startedWithoutSite_sites (s : State) : (startedWithoutSite s).sites = s.sites := by
  have himage : ∀ (t : State) pa (l : List Byte), (t.loadImage pa l).sites = t.sites := fun t pa l => by unfold State.loadImage; split <;> rfl
  simp [startedWithoutSite, himage]

theorem tailKept_startedWithoutSite (s : State) : TailKept s (startedWithoutSite s) := by
  have himage : ∀ (t : State) pa l, TailKept t (t.loadImage pa l) := fun t pa l => by
    unfold State.loadImage; split <;> exact ⟨rfl, rfl, rfl, rfl, rfl, rfl, rfl, rfl, rfl, .of_regs rfl⟩
  have halert : ∀ (t : State) a, TailKept t { t with alert := a } := fun t a => ⟨rfl, rfl, rfl, rfl, rfl, rfl, rfl, rfl, rfl, .of_regs rfl⟩
  exact (((tailKept_startup s false).trans (himage _ _ _)).trans (halert _ _)).trans (tailKept_of_bootKept (bootFrame_record _ _).toBootKept fun _ _ h => h)

/-- No site is there: the alert, and the host image in memory (R656). -/
theorem startedWithoutSite_shows (s : State) : (startedWithoutSite s).alert.noBootSite = true ∧ (startedWithoutSite s).smith.startup = false ∧
    ∀ i, i < s.flash.image.length → Memory.read (startedWithoutSite s).mem.cells (s.flash.load + i) = s.flash.image.getD i 0 := by
  have himage : ∀ (t : State) pa (l : List Byte), (t.loadImage pa l).smith = t.smith := fun t pa l => by unfold State.loadImage; split <;> rfl
  refine ⟨by simp [startedWithoutSite], by simp [startedWithoutSite, himage], fun i hi => ?_⟩
  have hne : s.flash.image.isEmpty = false := by
    cases h : s.flash.image with
    | nil => rw [h] at hi; simp at hi
    | cons _ _ => rfl
  simp only [startedWithoutSite, State.record_mem, State.loadImage, hne]
  exact Memory.read_writeBytes_in _ _ _ _ _ hi

/-- A site as start-up finds it: fenced, not admitted, contained nowhere (R75). -/
def SiteAtReset (s : State) (i : Nat) : Prop := s.admitted i = false ∧ s.fenced i = true ∧ s.walkClear i = true

theorem siteAtReset_of_tailKept {s t : State} (h : RegsOnly TailRegs s t) {i : Nat} (hi : i < 16) (hr : SiteAtReset s i) : SiteAtReset t i := by
  obtain ⟨hadm, hfence, hwalk⟩ := hr
  have hsite : ∀ off, ¬ TailRegs (pgSITE i) off := fun off => not_tailRegs_of_page (by simp [pgSITE, pgPWR]; omega) (.inl (by simp [pgSITE]; omega))
  refine ⟨(h.flag (by decide) (hsite _)).trans hadm, (h.flag (by decide) (hsite _)).trans hfence, ?_⟩
  unfold State.walkClear at hwalk ⊢
  rw [List.all_eq_true] at hwalk ⊢
  intro k hk
  rw [h.get (by decide) (not_tailRegs_of_page (by simp [pgHOME, pgPWR]; omega) (.inr (by simp [pgHOME]; omega)))]
  exact hwalk k hk

/-- What start-up leaves where the profile in force votes `v` (R655, R656). -/
structure Started (v : Nat) (s t : State) : Prop where
  kept : TailKept s t
  memory : ∀ d, 16 ≤ d → d < 36 → bitN (t.votes d) 0 = true ∧ t.flag pgPWR (Fld.DOM_STAT_TARGET d) = true
  engines : ∀ d, 36 ≤ d → d < 50 → bitN (t.votes d) 8 = bitN v d
  sites : ∀ i, i < 16 → bitN s.pop i = true → (t.siteAt i).trav.isSome = true ∧ bitN (t.votes i) 0 = true
  noSite : s.pop = 0 → t.alert.noBootSite = true ∧ t.smith.startup = false ∧
    ∀ i, i < s.flash.image.length → Memory.read t.mem.cells (s.flash.load + i) = s.flash.image.getD i 0

/-- Domains of the memory stacks and of the Hearth groups (R612), which Smith firmware votes for at start-up. -/
def memoryDomains : List Nat := (List.range 20).map (· + 16)

theorem mem_memoryDomains {d : Nat} : d ∈ memoryDomains ↔ 16 ≤ d ∧ d < 36 := by
  simp only [memoryDomains, List.mem_map, List.mem_range]
  exact ⟨by rintro ⟨a, ha, rfl⟩; omega, fun h => ⟨d - 16, by omega, by omega⟩⟩

/-- Domains of engines and ports that a profile votes for. -/
def engineDomains (v : Nat) : List Nat := (List.range 50).filter fun d => 36 ≤ d && bitN v d

theorem mem_engineDomains {v d : Nat} : d ∈ engineDomains v ↔ d < 50 ∧ 36 ≤ d ∧ bitN v d = true := by
  simp [engineDomains, List.mem_filter]

/-- The votes of start-up, and the note that it runs: what stands before the first Traverse (R655). -/
def votesCast (s : State) : State :=
  let m := memoryDomains.foldl (fun s d => s.setSlot d 0 true) s
  let e := (engineDomains m.profNow.votes).foldl (fun s d => s.setSlot d 8 true) m
  { e with smith := { e.smith with startup := true } }

/-- The sites that start-up traverses. -/
def populatedSites (s : State) : List Nat := (List.range 16).filter fun i => s.populated i

theorem startTail_eq (s : State) : (memoryDomains.foldl (fun s d => s.setSlot d 0 true) s).startTail =
    ((populatedSites (votesCast s)).foldl (fun s i => s.travStart i) (votesCast s)).startupAdvance := rfl

/-- What the votes of start-up leave (R616, R655). -/
structure VotesCast (s t : State) : Prop where
  kept : TailKept s t
  allOff : AllOff t
  sites : t.sites = s.sites
  startup : t.smith.startup = true
  memory : ∀ d, 16 ≤ d → d < 36 → bitN (t.votes d) 0 = true ∧ t.flag pgPWR (Fld.DOM_STAT_TARGET d) = true
  engines : ∀ d, 36 ≤ d → d < 50 → bitN (t.votes d) 8 = bitN s.profNow.votes d

theorem votesCast_casts {s : State} (ha : AllOff s) (hv : ∀ d, d < 50 → s.votes d = 0) : VotesCast s (votesCast s) := by
  obtain ⟨m, hmdef⟩ : ∃ m, m = memoryDomains.foldl (fun s d => s.setSlot d 0 true) s := ⟨_, rfl⟩
  have hm : SlotsSet memoryDomains 0 s m := hmdef ▸ slotsSet_foldl memoryDomains 0 s ha fun d hd => by rw [mem_memoryDomains] at hd; omega
  have hprof : m.profNow = s.profNow := by unfold State.profNow; rw [hm.frame.smith]
  obtain ⟨e, hedef⟩ : ∃ e, e = (engineDomains m.profNow.votes).foldl (fun s d => s.setSlot d 8 true) m := ⟨_, rfl⟩
  have he : SlotsSet (engineDomains m.profNow.votes) 8 m e :=
    hedef ▸ slotsSet_foldl _ 8 m hm.allOff fun d hd => by rw [mem_engineDomains] at hd; omega
  have hcast : votesCast s = { e with smith := { e.smith with startup := true } } := by rw [hedef, hmdef]; rfl
  rw [hcast]
  refine ⟨?_, he.allOff, he.frame.sites.trans hm.frame.sites, rfl, fun d h16 h36 => ⟨?_, ?_⟩, fun d h36 h50 => ?_⟩
  · refine .trans (.trans (tailKept_of_bootKept hm.frame.toBootKept ?_) (tailKept_of_bootKept he.frame.toBootKept ?_)) (tailKept_startup e true)
    · rintro p off ⟨d, hd, h⟩; exact .inr ⟨d, by rw [mem_memoryDomains] at hd; omega, h⟩
    · rintro p off ⟨d, hd, h⟩; exact .inr ⟨d, by rw [mem_engineDomains] at hd; omega, h⟩
  · change bitN (e.votes d) 0 = true
    rw [he.votes d (by omega) 0 (by decide), hm.votes d (by omega) 0 (by decide)]
    simp [mem_memoryDomains.mpr ⟨h16, h36⟩]
  · change e.flag pgPWR _ = true
    rw [target_of_regsOnly he.frame.regs (by omega) (by
      rintro ⟨k, hk, h⟩; rw [mem_engineDomains] at hk; exact not_domReg_stat (by omega) hk.1 (by omega) h)]
    exact hm.target (by decide) d (mem_memoryDomains.mpr ⟨h16, h36⟩)
  · change bitN (e.votes d) 8 = _
    rw [he.votes d h50 8 (by decide), hm.votes d h50 8 (by decide), hv d h50, hprof]
    have hmem : d ∈ engineDomains s.profNow.votes ↔ bitN s.profNow.votes d = true := by rw [mem_engineDomains]; tauto
    have h0 : bitN 0 8 = false := by decide
    cases hb : bitN s.profNow.votes d <;> simp [hmem, hb, h0]

/-- Start-up once the profile is loaded, with every domain OFF and no site busy. -/
theorem started_startTail {s : State} (ha : AllOff s) (hv : ∀ d, d < 50 → s.votes d = 0) (hsites : s.sites = List.replicate 16 {})
    (hr : ∀ i, i < 16 → SiteAtReset s i) :
    Started s.profNow.votes s (memoryDomains.foldl (fun s d => s.setSlot d 0 true) s).startTail := by
  obtain ⟨hkept, hoff, hvs, hstart, hmem, heng⟩ := votesCast_casts ha hv
  rw [startTail_eq]
  obtain ⟨u, hu⟩ : ∃ u, u = votesCast s := ⟨_, rfl⟩
  rw [← hu] at hkept hoff hvs hstart hmem heng ⊢
  have hpops : ∀ i, i ∈ populatedSites u ↔ i < 16 ∧ bitN s.pop i = true := fun i => by
    simp [populatedSites, State.populated, List.mem_filter, hkept.pop]
  have hidle : ∀ i, (u.siteAt i).trav = none := fun i => by
    unfold State.siteAt nthD; rw [hvs, hsites, List.getD_eq_getElem?_getD, List.getElem?_replicate]
    split <;> rfl
  obtain ⟨⟨htk, htoff, htv⟩, hunder⟩ := traversesUnderWay_foldl (populatedSites u) u hoff hidle fun i hi => by
    obtain ⟨hi16, hpop⟩ := (hpops i).mp hi
    exact ⟨hi16, by rw [State.populated, hkept.pop, hpop], siteAtReset_of_tailKept hkept.regs hi16 (hr i hi16)⟩
  obtain ⟨t, ht⟩ : ∃ t, t = (populatedSites u).foldl (fun s i => s.travStart i) u := ⟨_, rfl⟩
  rw [← ht] at htk htoff htv hunder ⊢
  have hut : TailKept u t := tailKept_of_bootKept htk fun p off h => .inl h
  have hdom : ∀ d, 16 ≤ d → d < 50 → t.votes d = u.votes d ∧ t.flag pgPWR (Fld.DOM_STAT_TARGET d) = u.flag pgPWR (Fld.DOM_STAT_TARGET d) :=
    fun d h16 h50 => ⟨votes_of_regsOnly htk.regs h50 (not_travRegs_dom h16 h50).1, target_of_regsOnly htk.regs h50 (not_travRegs_dom h16 h50).2⟩
  have hend : (populatedSites u ≠ [] ∧ t.startupAdvance = t) ∨ t.startupAdvance = startedWithoutSite t := by
    cases hl : populatedSites u with
    | cons i l => exact .inl ⟨by simp, startupAdvance_waits (hunder i (by rw [hl]; exact List.mem_cons_self ..))⟩
    | nil =>
      have htu : t = u := by rw [ht, hl]; rfl
      refine .inr (startupAdvance_noSite (by rw [htu, hstart]) (by rw [htu, hvs, hsites]; rfl) fun i hi => ?_)
      rw [htu]; exact (siteAtReset_of_tailKept hkept.regs hi (hr i hi)).1
  have hshow : (t.startupAdvance.regs = t.regs ∧ t.startupAdvance.sites = t.sites) ∧ TailKept t t.startupAdvance := by
    rcases hend with ⟨-, h⟩ | h <;> rw [h]
    · exact ⟨⟨rfl, rfl⟩, tailKept_of_bootKept (BootFrame.refl (W := TailRegs) t).toBootKept fun _ _ h => h⟩
    · exact ⟨⟨startedWithoutSite_regs t, startedWithoutSite_sites t⟩, tailKept_startedWithoutSite t⟩
  obtain ⟨⟨hregs, hsite⟩, hlast⟩ := hshow
  have hvotes : ∀ d, t.startupAdvance.votes d = t.votes d := fun d => by
    unfold State.votes; rw [get_of_regs hregs, get_of_regs hregs]
  refine ⟨(hkept.trans hut).trans hlast, fun d h16 h36 => ?_, fun d h36 h50 => ?_, fun i hi hp => ?_, fun hp => ?_⟩
  · rw [hvotes, flag_of_regs hregs, (hdom d h16 (by omega)).1, (hdom d h16 (by omega)).2]; exact hmem d h16 h36
  · rw [hvotes, (hdom d (by omega) h50).1]; exact heng d h36 h50
  · have htrav := hunder i ((hpops i).mpr ⟨hi, hp⟩)
    rw [hvotes, siteAt_of_sites hsite]; exact ⟨htrav, htv i hi htrav⟩
  · have hnone : populatedSites u = [] := List.eq_nil_iff_forall_not_mem.mpr fun i hi => by
      have := ((hpops i).mp hi).2; rw [hp] at this; simp [bitN] at this
    obtain h := hend.resolve_left fun h => h.1 hnone
    rw [h, ← (hkept.trans hut).flash]
    exact startedWithoutSite_shows t

end Sys2Proof.Proofs
end

section
/-! ### PWROK rises, and falls (R629, R652, R655, R732, R745) -/

namespace Sys2Proof.Proofs

open Sys2Proof Sys2Proof.Machine Sys2Proof.Safety

/-- The package as PWROK finds it (R629, R655): nothing but what outlives Off, its contacts and fuses read. -/
def packageAtPwrok (s : State) (fl : Flash) (straps part pop : Nat) : State :=
  { s.offState with flash := fl, straps := straps, part := part, pop := pop, pwrok := true, regs := [], off := false,
                    power := { pins := s.pinsKept, period := 1 } }

/-- The package with its rails in range, before an image is chosen (R652): the clocks and slow inputs show themselves. -/
def railsInRange (s : State) (fl : Flash) (straps part pop : Nat) : State :=
  let t := (packageAtPwrok s fl straps part pop).put pgCLK Fld.CLK_STAT_ROOT_LOCK 1
  (t.put pgPWR Fld.PWR_STAT_THR (b2n (t.pin pinThr).filt)).put pgPWR Fld.PWR_STAT_WAKE (b2n (t.pin pinWake).filt)

/-- What the boot flash holds as operands of COLD_RESET give it (log 44). -/
def flashRead (s : State) (good : List Bool) (bad load : Nat) (image : List Byte) (trust : List Trust) : Flash :=
  { s.flash with good := good, bad := bad, load := load, image := image, trust := trust }

/-- With its rails in range the package starts from the slot in force, else from the other, else not at all (R652, R655). -/
theorem coldReset_railsInRange (s : State) (sel straps part pop : Nat) (good : List Bool) (bad load : Nat) (image : List Byte) (trust : List Trust) :
    s.coldReset sel straps part pop true good bad load image trust =
      let t := railsInRange s (flashRead s good bad load image trust) straps part pop
      if nthD good s.flash.slot false then t.coldBoot s (sel % 4) s.flash.slot
      else if nthD good (1 - s.flash.slot) false then t.coldBoot s (sel % 4) (1 - s.flash.slot)
      else { t with alert := { noImage := true }, power := { t.power with bootFail := true }, smith := { running := false, ibi := some 5 } } := rfl

/-- The registers that PWROK itself sets. -/
def RailsRegs (p off : Nat) : Prop := (p = pgCLK ∧ off = Reg.CLK_STAT) ∨ (p = pgPWR ∧ off = Reg.PWR_STAT)

section
variable (s : State) (fl : Flash) (straps part pop : Nat)

theorem bootFrame_railsInRange : BootFrame RailsRegs (packageAtPwrok s fl straps part pop) (railsInRange s fl straps part pop) :=
  ((bootFrame_put _ _ _ Fld.CLK_STAT_ROOT_LOCK (by decide) (.inl ⟨rfl, rfl⟩)).trans
    (bootFrame_put _ _ _ Fld.PWR_STAT_THR (by decide) (.inr ⟨rfl, rfl⟩))).trans (bootFrame_put _ _ _ Fld.PWR_STAT_WAKE (by decide) (.inr ⟨rfl, rfl⟩))

/-- Every other register is at its reset value (R75). -/
theorem packageAtPwrok_reg (p off : Nat) : (packageAtPwrok s fl straps part pop).reg p off = regReset p off := rfl

/-- The package is in Run (R623). -/
theorem railsInRange_run : (railsInRange s fl straps part pop).get pgPWR Fld.PWR_STAT_STATE = 0 := by
  unfold railsInRange
  rw [get_put_beside (f := Fld.PWR_STAT_WAKE) (g := Fld.PWR_STAT_STATE) _ _ _ rfl (by decide) (by decide),
    get_put_beside (f := Fld.PWR_STAT_THR) (g := Fld.PWR_STAT_STATE) _ _ _ rfl (by decide) (by decide), get_put_ne _ _ _ _ _ _ (by decide)]
  change bits (regReset pgPWR Reg.PWR_STAT) 0 2 = 0
  decide +kernel

/-- The root PLL is in lock (R632). -/
theorem railsInRange_lock : (railsInRange s fl straps part pop).flag pgCLK Fld.CLK_STAT_ROOT_LOCK = true := by
  unfold railsInRange State.flag
  rw [get_put_ne _ _ _ _ _ _ (by decide), get_put_ne _ _ _ _ _ _ (by decide), get_put_same _ _ _ _ (by decide)]
  rfl

end

/-- The Smith image of a slot is in force, and FW_STAT and PROFILE show it and the strapped profile (R652). -/
def imageInForce (t : State) (sel slot : Nat) : State :=
  let fall := slot != t.flash.slot
  let s : State := { t with flash := { t.flash with slot := slot } }
  ((s.put pgSMITH Fld.PROFILE_PINS sel).put pgSMITH Fld.FW_STAT_FALLBACK (b2n fall)).fwStat

/-- The profile is loaded, what Ember modules are present is seen and the row sparing maps are applied (R655). -/
def profiled (t old : State) (sel slot : Nat) : State := (((imageInForce t sel slot).loadProfile sel).embersKept old).rowsSpared

theorem coldBoot_eq (t old : State) (sel slot : Nat) :
    t.coldBoot old sel slot = (memoryDomains.foldl (fun s d => s.setSlot d 0 true) (profiled t old sel slot)).startTail := rfl

/-- The registers that show the image, besides PROFILE. -/
def ImageRegs (p off : Nat) : Prop := p = pgSMITH ∧ (off = Reg.PROFILE ∨ off = Reg.FW_STAT)

theorem bootFrame_imageInForce (t : State) (sel slot : Nat) :
    BootFrame ImageRegs { t with flash := { t.flash with slot := slot } } (imageInForce t sel slot) :=
  (((bootFrame_put _ _ _ Fld.PROFILE_PINS (by decide) ⟨rfl, .inl rfl⟩).trans (bootFrame_put _ _ _ Fld.FW_STAT_FALLBACK (by decide) ⟨rfl, .inr rfl⟩)).trans
    (bootFrame_put _ _ _ Fld.FW_STAT_SLOT (by decide) ⟨rfl, .inr rfl⟩)).trans (bootFrame_put _ _ _ Fld.FW_STAT_VERSION (by decide) ⟨rfl, .inr rfl⟩)

/-- The pages of Ember modules. -/
def EmberPage (p _off : Nat) : Prop := 0xF8 ≤ p ∧ p < 0xFC

theorem bootFrame_embersKept (s old : State) : BootFrame EmberPage s (s.embersKept old) := by
  have hemb : ∀ (t : State) e f, BootFrame EmberPage t (t.modEmb e f) := fun t e f => { BootFrame.refl (W := EmberPage) t with regs := .of_regs rfl }
  refine bootFrame_foldl _ _ _ fun e he t => ?_
  split
  · exact (bootFrame_put _ _ _ Fld.EMB_STAT_PRESENT (by decide) (by have := List.mem_range.mp he; simp [EmberPage, pgEMB]; omega)).trans (hemb _ _ _)
  · exact .refl t

theorem bootFrame_rowsSpared {W : Nat → Nat → Prop} (s : State) : BootFrame W s s.rowsSpared :=
  { BootFrame.refl (W := W) s with regs := .of_regs rfl }

/-- The registers that start-up writes before the votes. -/
def ProfiledRegs (p off : Nat) : Prop := ImageRegs p off ∨ ProfileRegs p off ∨ EmberPage p off

/-- The package with image and profile in force, of which `profiled` differs in registers alone. -/
def imageAndProfile (t : State) (slot : Nat) (pr : Prof) : State :=
  { t with flash := { t.flash with slot := slot }, smith := { t.smith with boot := some pr } }

theorem bootFrame_profiled (t old : State) (sel slot : Nat) :
    BootFrame ProfiledRegs (imageAndProfile t slot ((imageInForce t sel slot).profOf sel)) (profiled t old sel slot) := by
  have hi := bootFrame_imageInForce t sel slot
  have hboot : BootFrame ProfiledRegs (imageAndProfile t slot ((imageInForce t sel slot).profOf sel))
      { imageInForce t sel slot with smith := { (imageInForce t sel slot).smith with boot := some ((imageInForce t sel slot).profOf sel) } } :=
    ⟨⟨hi.off, hi.pwrok, hi.time, hi.flash, hi.part, hi.straps, hi.pop, by rw [hi.smith]; rfl, hi.power, hi.alert, hi.regs.mono fun p off h => .inl h⟩, hi.sites⟩
  exact ((hboot.trans ((bootFrame_loadProfile _ _).mono fun p off h => .inr (.inl h))).trans
    ((bootFrame_embersKept _ old).mono fun p off h => .inr (.inr h))).trans (bootFrame_rowsSpared _)

/-- What FW_STAT and PROFILE show of image and straps (R652, R46). -/
structure ImageShown (t : State) (sel slot : Nat) (fall : Bool) : Prop where
  slot : t.get pgSMITH Fld.FW_STAT_SLOT = slot % 2
  fallback : t.get pgSMITH Fld.FW_STAT_FALLBACK = b2n fall % 2
  pins : t.get pgSMITH Fld.PROFILE_PINS = sel % 4

theorem imageShown_imageInForce (t : State) (sel slot : Nat) : ImageShown (imageInForce t sel slot) sel slot (slot != t.flash.slot) := by
  unfold imageInForce State.fwStat
  refine ⟨?_, ?_, ?_⟩
  · rw [get_put_beside (f := Fld.FW_STAT_VERSION) (g := Fld.FW_STAT_SLOT) _ _ _ rfl (by decide) (by decide), get_put_same _ _ _ _ (by decide)]
    rfl
  · rw [get_put_beside (f := Fld.FW_STAT_VERSION) (g := Fld.FW_STAT_FALLBACK) _ _ _ rfl (by decide) (by decide),
      get_put_beside (f := Fld.FW_STAT_SLOT) (g := Fld.FW_STAT_FALLBACK) _ _ _ rfl (by decide) (by decide), get_put_same _ _ _ _ (by decide)]
    rfl
  · rw [get_put_ne _ _ _ _ _ _ (by decide), get_put_ne _ _ _ _ _ _ (by decide), get_put_ne _ _ _ _ _ _ (by decide), get_put_same _ _ _ _ (by decide)]
    rfl

/-! #### Reset values that start-up reads (R75) -/

theorem regReset_domain : ∀ d, d < 50 → regReset pgPWR (Reg.VOTE d) = 0 ∧ regReset pgPWR (Reg.DOM_STAT d) = 0 := by decide +kernel

theorem regReset_site : ∀ i, i < 16 → bits (regReset (pgSITE i) Reg.SITE_STAT) 0 1 = 1 ∧ bits (regReset (pgSITE i) Reg.SITE_STAT) 1 1 = 0 := by
  decide +kernel

theorem regReset_lossStat : ∀ h, h < 64 → regReset (pgHOME h) Reg.HOME_LOSS_STAT = 0 := by decide +kernel

/-- Votes of a domain whose vote register reads 0. -/
theorem votes_of_reg_zero {t : State} {d : Nat} (h : t.reg pgPWR (Reg.VOTE d) = 0) : t.votes d = 0 := by
  change bits (t.reg pgPWR (Reg.VOTE d)) 0 10 + 2 ^ 16 * bits (t.reg pgPWR (Reg.VOTE d)) 16 16 = 0
  rw [h]; rfl

/-! #### What start-up leaves alone before its votes -/

/-- The registers that the start of a package writes before the first vote (R652, R655). -/
def BootRegs (p off : Nat) : Prop := RailsRegs p off ∨ ProfiledRegs p off

theorem bootRegs_iff {p off : Nat} : BootRegs p off ↔
    (p = pgCLK ∧ off = Reg.CLK_STAT) ∨ (p = pgPWR ∧ (off = Reg.PWR_STAT ∨ off = Reg.PWR_LIMIT ∨ off = Reg.PWR_FLOOR)) ∨
      (p = pgSMITH ∧ (off = Reg.PROFILE ∨ off = Reg.FW_STAT)) ∨ (∃ h, h < 64 ∧ p = pgHOME h ∧ off = Reg.HOME_CFG) ∨
      (p = pgHRTH 0 ∧ off = Reg.HRTH_CTL) ∨ (∃ i, i < 16 ∧ p = pgSITE i ∧ off ≠ Reg.SITE_STAT) ∨ EmberPage p off := by
  unfold BootRegs RailsRegs ProfiledRegs ImageRegs ProfileRegs
  grind

theorem not_bootRegs_domain {off : Nat} (ho : 0x200 ≤ off) : ¬ BootRegs pgPWR off := by
  rw [bootRegs_iff]
  rintro (⟨h, -⟩ | ⟨-, h⟩ | ⟨h, -⟩ | ⟨k, -, h, -⟩ | ⟨h, -⟩ | ⟨k, -, h, -⟩ | ⟨h, -⟩)
  · exact absurd h (by decide)
  · simp only [Reg.PWR_STAT, Reg.PWR_LIMIT, Reg.PWR_FLOOR] at h; omega
  · exact absurd h (by decide)
  · simp only [pgPWR, pgHOME] at h; omega
  · exact absurd h (by decide)
  · simp only [pgPWR, pgSITE] at h; omega
  · exact absurd h (by decide)

theorem not_bootRegs_siteStat {i : Nat} (hi : i < 16) : ¬ BootRegs (pgSITE i) Reg.SITE_STAT := by
  rw [bootRegs_iff]
  rintro (⟨h, -⟩ | ⟨h, -⟩ | ⟨h, -⟩ | ⟨k, -, h, -⟩ | ⟨h, -⟩ | ⟨k, -, -, h⟩ | ⟨h, -⟩)
  · simp only [pgSITE, pgCLK] at h; omega
  · simp only [pgSITE, pgPWR] at h; omega
  · simp only [pgSITE, pgSMITH] at h; omega
  · simp only [pgSITE, pgHOME] at h; omega
  · simp only [pgSITE, pgHRTH] at h; omega
  · exact h rfl
  · simp only [pgSITE] at h; omega

theorem not_bootRegs_lossStat {k : Nat} (hk : k < 64) : ¬ BootRegs (pgHOME k) Reg.HOME_LOSS_STAT := by
  rw [bootRegs_iff]
  rintro (⟨h, -⟩ | ⟨h, -⟩ | ⟨h, -⟩ | ⟨j, -, -, h⟩ | ⟨-, h⟩ | ⟨j, hj, h, -⟩ | ⟨h, -⟩)
  · simp only [pgHOME, pgCLK] at h; omega
  · simp only [pgHOME, pgPWR] at h; omega
  · simp only [pgHOME, pgSMITH] at h; omega
  · exact absurd h (by decide)
  · exact absurd h (by decide)
  · simp only [pgHOME, pgSITE] at h; omega
  · simp only [pgHOME] at h; omega

theorem not_bootRegs_resetCause : ¬ BootRegs pgSMITH Reg.RESET_CAUSE := by
  rw [bootRegs_iff]
  rintro (⟨h, -⟩ | ⟨h, -⟩ | ⟨-, h⟩ | ⟨k, -, h, -⟩ | ⟨h, -⟩ | ⟨k, -, h, -⟩ | ⟨h, -⟩)
  · exact absurd h (by decide)
  · exact absurd h (by decide)
  · exact absurd h (by decide)
  · simp only [pgSMITH, pgHOME] at h; omega
  · exact absurd h (by decide)
  · simp only [pgSMITH, pgSITE] at h; omega
  · exact absurd h (by decide)

section
variable (s old : State) (fl : Flash) (straps part pop sel slot : Nat)

/-- The package before the first vote of start-up. -/
abbrev bootBase : State := profiled (railsInRange s fl straps part pop) old sel slot

/-- A register that nothing has written since PWROK is at its reset value. -/
theorem bootBase_reg {p off : Nat} (ho : off < 0x10000) (hw : ¬ BootRegs p off) :
    (bootBase s old fl straps part pop sel slot).reg p off = regReset p off := by
  rw [bootBase, (bootFrame_profiled _ old sel slot).regs p off ho fun h => hw (.inr h)]
  exact ((bootFrame_railsInRange s fl straps part pop).regs p off ho fun h => hw (.inl h)).trans (packageAtPwrok_reg ..)

theorem bootBase_domReg {d : Nat} (hd : d < 50) :
    (bootBase s old fl straps part pop sel slot).reg pgPWR (Reg.VOTE d) = 0 ∧ (bootBase s old fl straps part pop sel slot).reg pgPWR (Reg.DOM_STAT d) = 0 := by
  rw [bootBase_reg _ _ _ _ _ _ _ _ (by simp [Reg.VOTE]; omega) (not_bootRegs_domain (by simp [Reg.VOTE])),
    bootBase_reg _ _ _ _ _ _ _ _ (by simp [Reg.DOM_STAT]; omega) (not_bootRegs_domain (by simp [Reg.DOM_STAT]; omega))]
  exact regReset_domain d hd

theorem bootBase_votes {d : Nat} (hd : d < 50) : (bootBase s old fl straps part pop sel slot).votes d = 0 :=
  votes_of_reg_zero (bootBase_domReg s old fl straps part pop sel slot hd).1

theorem not_profiledRegs_pwrStat : ¬ ProfiledRegs pgPWR Reg.PWR_STAT := by
  rintro (⟨h, -⟩ | (⟨h, -⟩ | ⟨-, h⟩ | ⟨k, -, h, -⟩ | ⟨h, -⟩ | ⟨k, -, h, -⟩) | ⟨h, -⟩)
  · exact absurd h (by decide)
  · exact absurd h (by decide)
  · exact absurd h (by decide)
  · simp only [pgPWR, pgHOME] at h; omega
  · exact absurd h (by decide)
  · simp only [pgPWR, pgSITE] at h; omega
  · exact absurd h (by decide)

theorem bootBase_allOff : AllOff (bootBase s old fl straps part pop sel slot) := by
  refine ⟨?_, fun d hd => ?_⟩
  · rw [bootBase, (bootFrame_profiled _ old sel slot).regs.get (by decide) not_profiledRegs_pwrStat]
    exact railsInRange_run s fl straps part pop
  · change bits ((bootBase s old fl straps part pop sel slot).reg pgPWR (Reg.DOM_STAT d)) 0 3 = 0
    rw [(bootBase_domReg s old fl straps part pop sel slot hd).2]; rfl

theorem bootBase_siteAtReset {i : Nat} (hi : i < 16) : SiteAtReset (bootBase s old fl straps part pop sel slot) i := by
  have hsite : (bootBase s old fl straps part pop sel slot).reg (pgSITE i) Reg.SITE_STAT = regReset (pgSITE i) Reg.SITE_STAT :=
    bootBase_reg _ _ _ _ _ _ _ _ (by decide) (not_bootRegs_siteStat hi)
  obtain ⟨hf, ha⟩ := regReset_site i hi
  refine ⟨?_, ?_, ?_⟩
  · change (bits ((bootBase s old fl straps part pop sel slot).reg (pgSITE i) Reg.SITE_STAT) 1 1 == 1) = false
    rw [hsite, ha]; rfl
  · change (bits ((bootBase s old fl straps part pop sel slot).reg (pgSITE i) Reg.SITE_STAT) 0 1 == 1) = true
    rw [hsite, hf]; rfl
  · unfold State.walkClear
    rw [List.all_eq_true]
    intro h hh
    have hh := List.mem_range.mp hh
    have hloss : (bootBase s old fl straps part pop sel slot).reg (pgHOME h) Reg.HOME_LOSS_STAT = 0 := by
      rw [bootBase_reg _ _ _ _ _ _ _ _ (by decide) (not_bootRegs_lossStat hh), regReset_lossStat h hh]
    change (!bitN (bits ((bootBase s old fl straps part pop sel slot).reg (pgHOME h) Reg.HOME_LOSS_STAT) 0 16) i) = true
    rw [hloss]; simp [bits, bitN]

end

end Sys2Proof.Proofs
end

section
/-! ### Cold reset and Off (R629, R652, R655, R745) -/

namespace Sys2Proof.Proofs

open Sys2Proof Sys2Proof.Machine Sys2Proof.Safety

theorem bootFrame_imageAndProfile {W : Nat → Nat → Prop} {s t : State} (h : BootFrame W s t) (slot : Nat) (pr : Prof) :
    BootFrame W (imageAndProfile s slot pr) (imageAndProfile t slot pr) :=
  ⟨⟨h.off, h.pwrok, h.time, by simp [imageAndProfile, h.flash], h.part, h.straps, h.pop, by simp [imageAndProfile, h.smith], h.power, h.alert, h.regs⟩, h.sites⟩

theorem not_profileRegs_fwStat : ¬ ProfileRegs pgSMITH Reg.FW_STAT := by
  rintro (⟨-, h⟩ | ⟨h, -⟩ | ⟨k, -, h, -⟩ | ⟨h, -⟩ | ⟨k, -, h, -⟩)
  · exact absurd h (by decide)
  · exact absurd h (by decide)
  · simp only [pgSMITH, pgHOME] at h; omega
  · exact absurd h (by decide)
  · simp only [pgSMITH, pgSITE] at h; omega

theorem get_fwStat_loadProfile (s : State) (n : Nat) {f : FRef} (hf : f.off = Reg.FW_STAT) : (s.loadProfile n).get pgSMITH f = s.get pgSMITH f := by
  rw [(bootFrame_loadProfile s n).regs.get (by rw [hf]; decide) (by rw [hf]; exact not_profileRegs_fwStat)]
  exact get_of_regs rfl _ _

/-- The slots that a factory record sets for engines and ports (R46). -/
theorem factoryProf_votes (n : Nat) : ∀ d, 36 ≤ d → d < 50 → bitN (factoryProf n).votes d = decide (42 ≤ d) := by
  have hmask : ∀ d, d < 50 → 36 ≤ d → bitN (maskOf [42, 43, 44, 45, 46, 47, 48, 49]) d = decide (42 ≤ d) := by decide +kernel
  exact fun d h36 h50 => hmask d h50 h36

/-- The factory record's values fit their registers (R46). -/
theorem factoryProf_fits : ∀ n, n < 4 → (factoryProf n).plimit % 2 ^ 11 = nthD [700, 850, 1000, 1100] n 0 ∧
    (factoryProf n).fcap % 2 ^ 12 = nthD [2400, 2800, 3200, 3400] n 0 ∧ (factoryProf n).floor % 2 ^ 12 = 1200 ∧
    ((factoryProf n).hash % 2 == 1) = decide (n = 0) := by decide +kernel

section
variable (s : State) (fl : Flash) (straps part pop sel slot : Nat)

theorem imageInForce_kept : (imageInForce (railsInRange s fl straps part pop) sel slot).flash = { fl with slot := slot } :=
  (bootFrame_imageInForce _ sel slot).flash.trans (by rw [(bootFrame_railsInRange s fl straps part pop).flash]; rfl)

/-- The profile that start-up loads: the flash's, or the factory record. -/
def profileAtPwrok : Prof := (imageInForce (railsInRange s fl straps part pop) sel slot).profOf sel

theorem bootBase_frame : BootFrame BootRegs (imageAndProfile (packageAtPwrok s fl straps part pop) slot (profileAtPwrok s fl straps part pop sel slot))
    (bootBase s s fl straps part pop sel slot) :=
  (bootFrame_imageAndProfile ((bootFrame_railsInRange s fl straps part pop).mono fun _ _ h => .inl h) slot _).trans
    ((bootFrame_profiled _ s sel slot).mono fun _ _ h => .inr h)

theorem started_coldBoot : Started (profileAtPwrok s fl straps part pop sel slot).votes (bootBase s s fl straps part pop sel slot)
    ((railsInRange s fl straps part pop).coldBoot s sel slot) := by
  have hb := bootBase_frame s fl straps part pop sel slot
  have hprof : (bootBase s s fl straps part pop sel slot).profNow = profileAtPwrok s fl straps part pop sel slot := by
    unfold State.profNow; rw [hb.smith]; rfl
  rw [coldBoot_eq, ← hprof]
  exact started_startTail (bootBase_allOff ..) (fun d hd => bootBase_votes _ _ _ _ _ _ _ _ hd) hb.sites fun i hi => bootBase_siteAtReset _ _ _ _ _ _ _ _ hi

/-- What stands of the package's fuses, contacts, flash and Smith firmware once it has started. -/
theorem coldBoot_stands {t : State} (ht : t = (railsInRange s fl straps part pop).coldBoot s sel slot) :
    t.off = false ∧ t.spiDriven = true ∧ t.flash = { fl with slot := slot } ∧ t.time = 0 ∧ t.smith.running = true ∧ t.power.bootFail = false ∧
      t.part = part ∧ t.straps = straps ∧ t.pop = pop := by
  have hb := bootBase_frame s fl straps part pop sel slot
  have hk := (started_coldBoot s fl straps part pop sel slot).kept
  rw [← ht] at hk
  exact ⟨hk.off.trans hb.off, hk.pwrok.trans hb.pwrok, hk.flash.trans hb.flash, hk.time.trans hb.time, hk.running.trans (by rw [hb.smith]; rfl),
    by rw [hk.power, hb.power]; rfl, hk.part.trans hb.part, hk.straps.trans hb.straps, hk.pop.trans hb.pop⟩

/-- Beside the votes and the links, start-up ends with the registers that the loading of the profile left. -/
theorem get_coldBoot {p : Nat} {f : FRef} (hf : f.off < 0x10000) (ht : ¬ TailRegs p f.off) (he : ¬ EmberPage p f.off) :
    ((railsInRange s fl straps part pop).coldBoot s sel slot).get p f =
      ((imageInForce (railsInRange s fl straps part pop) sel slot).loadProfile sel).get p f := by
  rw [(started_coldBoot s fl straps part pop sel slot).kept.regs.get hf ht]
  exact ((bootFrame_rowsSpared _).regs.get (W := EmberPage) hf he).trans ((bootFrame_embersKept _ s).regs.get hf he)

/-- Smith firmware's registers and the package's limits, after start-up. -/
theorem get_coldBoot_smith {f : FRef} (hf : f.off < 0x10000) : ((railsInRange s fl straps part pop).coldBoot s sel slot).get pgSMITH f =
    ((imageInForce (railsInRange s fl straps part pop) sel slot).loadProfile sel).get pgSMITH f :=
  get_coldBoot _ _ _ _ _ _ _ hf (not_tailRegs_of_page (by decide) (.inl (by decide))) fun h => absurd h.1 (by decide)

theorem profileShown_coldBoot : ProfileShown ((railsInRange s fl straps part pop).coldBoot s sel slot) sel (profileAtPwrok s fl straps part pop sel slot) := by
  obtain ⟨hforce, hlimit, hfcap, hfloor, hhash⟩ := profileShown_loadProfile (imageInForce (railsInRange s fl straps part pop) sel slot) sel
  have hpwr : ∀ f : FRef, f.off < 0x200 → _ := fun f hf =>
    get_coldBoot s fl straps part pop sel slot (p := pgPWR) (f := f) (by omega) (not_tailRegs_limits hf) fun h => absurd h.1 (by decide)
  refine ⟨(get_coldBoot_smith _ _ _ _ _ _ _ (by decide)).trans hforce, (hpwr _ (by decide)).trans hlimit, (hpwr _ (by decide)).trans hfcap,
    (hpwr _ (by decide)).trans hfloor, fun h hh => (get_coldBoot _ _ _ _ _ _ _ (by decide) (not_tailRegs_of_page ?_ (.inr ?_)) ?_).trans (hhash h hh)⟩
  · simp only [pgHOME, pgPWR]; omega
  · simp only [pgHOME]; omega
  · rintro ⟨h, -⟩; simp only [pgHOME] at h; omega

theorem imageShown_coldBoot : ImageShown ((railsInRange s fl straps part pop).coldBoot s sel slot) sel slot (slot != fl.slot) := by
  have hfl : (railsInRange s fl straps part pop).flash.slot = fl.slot := by rw [(bootFrame_railsInRange s fl straps part pop).flash]; rfl
  obtain ⟨hslot, hfall, hpins⟩ := hfl ▸ imageShown_imageInForce (railsInRange s fl straps part pop) sel slot
  have hfw : ∀ f : FRef, f.off = Reg.FW_STAT → ((railsInRange s fl straps part pop).coldBoot s sel slot).get pgSMITH f =
      (imageInForce (railsInRange s fl straps part pop) sel slot).get pgSMITH f := fun f hf =>
    (get_coldBoot_smith _ _ _ _ _ _ _ (by rw [hf]; decide)).trans (get_fwStat_loadProfile _ _ hf)
  exact ⟨(hfw Fld.FW_STAT_SLOT rfl).trans hslot, (hfw Fld.FW_STAT_FALLBACK rfl).trans hfall, ((get_coldBoot_smith _ _ _ _ _ _ _ (by decide)).trans (get_pins_loadProfile _ _)).trans hpins⟩

theorem not_profiledRegs_clk {off : Nat} : ¬ ProfiledRegs pgCLK off := by
  rintro (⟨h, -⟩ | (⟨h, -⟩ | ⟨h, -⟩ | ⟨k, -, h, -⟩ | ⟨h, -⟩ | ⟨k, -, h, -⟩) | ⟨h, -⟩)
  · exact absurd h (by decide)
  · exact absurd h (by decide)
  · exact absurd h (by decide)
  · simp only [pgCLK, pgHOME] at h; omega
  · exact absurd h (by decide)
  · simp only [pgCLK, pgSITE] at h; omega
  · exact absurd h (by decide)

theorem coldBoot_lock : ((railsInRange s fl straps part pop).coldBoot s sel slot).flag pgCLK Fld.CLK_STAT_ROOT_LOCK = true := by
  rw [(started_coldBoot s fl straps part pop sel slot).kept.regs.flag (by decide) (not_tailRegs_of_page (by decide) (.inl (by decide))), bootBase,
    (bootFrame_profiled _ s sel slot).regs.flag (by decide) not_profiledRegs_clk]
  exact railsInRange_lock s fl straps part pop

/-- The cause shown is power-on (R652). -/
theorem coldBoot_cause : ((railsInRange s fl straps part pop).coldBoot s sel slot).get pgSMITH Fld.RESET_CAUSE_LAST = 0 := by
  rw [(started_coldBoot s fl straps part pop sel slot).kept.regs.get (by decide) (not_tailRegs_of_page (by decide) (.inl (by decide)))]
  change bits ((bootBase s s fl straps part pop sel slot).reg pgSMITH Reg.RESET_CAUSE) 0 2 = 0
  rw [bootBase_reg _ _ _ _ _ _ _ _ (by decide) not_bootRegs_resetCause]
  decide +kernel

/-- A flash without stored profiles gives the factory record (R653). -/
theorem profileAtPwrok_factory (hp : fl.prof = []) : profileAtPwrok s fl straps part pop sel slot = factoryProf sel := by
  unfold profileAtPwrok State.profOf
  rw [imageInForce_kept]
  simp [hp, Tab.getD]

theorem coldBoot_fallback :
    ((railsInRange s fl straps part pop).coldBoot s sel slot).flag pgSMITH Fld.FW_STAT_FALLBACK = decide (slot ≠ fl.slot) := by
  have hfall := (imageShown_coldBoot s fl straps part pop sel slot).fallback
  unfold State.flag
  rw [hfall]
  by_cases h : slot = fl.slot <;> simp [h, b2n]

/-- What a flash without stored profiles sets: the factory record's limits, hash mode and votes (R46, R653). -/
theorem coldBoot_factory (hp : fl.prof = []) (hs : sel < 4) {t : State} (ht : t = (railsInRange s fl straps part pop).coldBoot s sel slot) :
    t.get pgPWR Fld.PWR_LIMIT_PLIMIT = nthD [700, 850, 1000, 1100] sel 0 ∧ t.get pgPWR Fld.PWR_LIMIT_FCAP = nthD [2400, 2800, 3200, 3400] sel 0 ∧
      t.get pgPWR Fld.PWR_FLOOR_FLOOR = 1200 ∧ (∀ h, h < 64 → t.flag (pgHOME h) Fld.HOME_CFG_HASH = decide (sel = 0)) ∧
      ∀ d, 36 ≤ d → d < 50 → bitN (t.votes d) 8 = decide (42 ≤ d) := by
  obtain ⟨-, hlimit, hfcap, hfloor, hhash⟩ := profileShown_coldBoot s fl straps part pop sel slot
  have hengines := (started_coldBoot s fl straps part pop sel slot).engines
  rw [profileAtPwrok_factory _ _ _ _ _ _ _ hp] at hengines hlimit hfcap hfloor hhash
  rw [← ht] at hengines hlimit hfcap hfloor hhash
  obtain ⟨hl, hc, hf, hh⟩ := factoryProf_fits sel hs
  refine ⟨hlimit.trans hl, hfcap.trans hc, hfloor.trans hf, fun h hh64 => ?_, fun d h36 h50 => (hengines d h36 h50).trans (factoryProf_votes _ d h36 h50)⟩
  unfold State.flag
  rw [hhash h hh64, hh]

/-- Every populated site traverses, its domain voted on; without one the package shows it, the host image in memory (R655, R656). -/
theorem coldBoot_sites {t : State} (ht : t = (railsInRange s fl straps part pop).coldBoot s sel slot) :
    (∀ i, i < 16 → bitN pop i = true → (t.siteAt i).trav.isSome = true ∧ bitN (t.votes i) 0 = true) ∧
      (pop = 0 → t.alert.noBootSite = true ∧ t.smith.startup = false ∧
        ∀ i, i < fl.image.length → Memory.read t.mem.cells (fl.load + i) = fl.image.getD i 0) := by
  have hbase := bootBase_frame s fl straps part pop sel slot
  have hpop : (bootBase s s fl straps part pop sel slot).pop = pop := hbase.pop
  have hflash : (bootBase s s fl straps part pop sel slot).flash = { fl with slot := slot } := hbase.flash
  obtain ⟨-, -, -, hsites, hnone⟩ := started_coldBoot s fl straps part pop sel slot
  rw [hpop, ← ht] at hsites hnone
  rw [hflash] at hnone
  exact ⟨hsites, hnone⟩

end

/-- With a rail out of range the package stays in Off and asks for the BMC (R652). -/
theorem coldReset_railsOut (s : State) (sel straps part pop : Nat) (good : List Bool) (bad load : Nat) (image : List Byte) (trust : List Trust) :
    s.coldReset sel straps part pop false good bad load image trust =
      { s.offState with flash := flashRead s good bad load image trust, straps := straps, part := part, pop := pop, pwrok := true, regs := [],
                        alert := { railAtPwrok := true }, power := { bootFail := true }, smith := { running := false, ibi := some 5 } } := rfl

theorem exec_coldReset (s : State) (sel straps part pop : Nat) (rails : Bool) (good : List Bool) (bad load : Nat) (image : List Byte) (trust : List Trust) :
    exec (.coldReset sel straps part pop rails good bad load image trust) s =
      .next { s.coldReset sel straps part pop rails good bad load image trust with pending := s.pending } := rfl

theorem exec_powerFail (s : State) : exec .powerFail s = .next (s.settle { s with off := true, pwrok := false, regs := [] }) := rfl

theorem railsInRange_votes (s : State) (fl : Flash) (straps part pop : Nat) {d : Nat} (hd : d < 50) :
    (railsInRange s fl straps part pop).votes d = 0 := by
  refine votes_of_reg_zero (((bootFrame_railsInRange s fl straps part pop).regs _ _ (by simp [Reg.VOTE]; omega) ?_).trans (regReset_domain d hd).1)
  exact fun h => not_bootRegs_domain (off := Reg.VOTE d) (by simp [Reg.VOTE]) (.inl h)

/-- The slot that the package starts from is the slot in force, or the other where only that one's image verifies (R652, R655). -/
theorem coldReset_boots (s : State) (sel straps part pop : Nat) (good : List Bool) (bad load : Nat) (image : List Byte) (trust : List Trust) {j : Nat}
    (hj : j = if nthD good s.flash.slot false then s.flash.slot else 1 - s.flash.slot) (hg : nthD good j false = true) :
    s.coldReset sel straps part pop true good bad load image trust =
      (railsInRange s (flashRead s good bad load image trust) straps part pop).coldBoot s (sel % 4) j := by
  rw [coldReset_railsInRange]
  dsimp only
  cases hk : nthD good s.flash.slot false with
  | true => rw [hk, if_pos rfl] at hj; rw [if_pos rfl, hj]
  | false =>
    rw [hk, if_neg (by decide)] at hj
    rw [if_neg (by decide), if_pos (hj ▸ hg), hj]

/-- Settles O45: with a rail out of range, or without an image, the package does not start; else start-up is followed step by step from the registers
that PWROK finds at their reset values; and power that fails leaves what outlives Off. -/
theorem coldResetAndOff : Obligations.ColdResetAndOff := by
  unfold Obligations.ColdResetAndOff
  refine ⟨fun s sel straps part pop bad load good image trust hslot => ⟨?_, fun hk hother => ?_, fun j hj hg => ?_⟩, fun s _ => ?_⟩
  · exact ⟨_, exec_coldReset .., by simp [coldReset_railsOut, State.offState, State.spiDriven]⟩
  · refine ⟨_, exec_coldReset .., ?_⟩
    rw [coldReset_railsInRange, hk, hother]
    have hr := bootFrame_railsInRange s (flashRead s good bad load image trust) straps part pop
    exact ⟨hr.off, rfl, rfl, rfl, rfl, fun d hd => railsInRange_votes s (flashRead s good bad load image trust) straps part pop hd⟩
  · refine ⟨_, exec_coldReset .., ?_⟩
    rw [coldReset_boots s sel straps part pop good bad load image trust hj hg]
    have hj2 : j < 2 := by rw [hj]; split <;> omega
    have hsel : sel % 4 < 4 := Nat.mod_lt _ (by decide)
    obtain ⟨t, ht⟩ : ∃ t, t = (railsInRange s (flashRead s good bad load image trust) straps part pop).coldBoot s (sel % 4) j := ⟨_, rfl⟩
    obtain ⟨hoff, hspi, hflash, htime, hrun, hfail, hpart, hstraps, hpop⟩ := coldBoot_stands _ _ _ _ _ _ _ ht
    obtain ⟨hsites, hnone⟩ := coldBoot_sites _ _ _ _ _ _ _ ht
    have hmemory := (started_coldBoot s (flashRead s good bad load image trust) straps part pop (sel % 4) j).memory
    have himage := imageShown_coldBoot s (flashRead s good bad load image trust) straps part pop (sel % 4) j
    have hfall := coldBoot_fallback s (flashRead s good bad load image trust) straps part pop (sel % 4) j
    have hprofile := profileShown_coldBoot s (flashRead s good bad load image trust) straps part pop (sel % 4) j
    have hlock := coldBoot_lock s (flashRead s good bad load image trust) straps part pop (sel % 4) j
    have hcause := coldBoot_cause s (flashRead s good bad load image trust) straps part pop (sel % 4) j
    have hfactory := fun hprof => coldBoot_factory s (flashRead s good bad load image trust) straps part pop (sel % 4) j hprof hsel ht
    rw [← ht] at hmemory himage hfall hprofile hlock hcause ⊢
    exact ⟨hoff, hspi, congrArg Flash.trust hflash, htime, hrun, hfail, hpart, hstraps, hpop, rfl,
      himage.slot.trans (Nat.mod_eq_of_lt hj2), hfall, congrArg Flash.slot hflash, himage.pins.trans (Nat.mod_mod ..), hprofile.inForce.trans (Nat.mod_mod ..),
      hlock, hcause, hmemory, hsites, hfactory,
      fun h0 => ⟨(hnone h0).1, (hnone h0).2.1, fun i hi _ => (hnone h0).2.2 i hi⟩⟩
  · exact ⟨_, exec_powerFail s, by simp [State.settle, State.offState, State.spiDriven]; rfl⟩

end Sys2Proof.Proofs
end

section
/-! ### Numbers of which a mask selects bits -/

namespace Sys2Proof.Proofs

open Sys2Proof Sys2Proof.Machine Sys2Proof.Safety

/-- Numbers without a common bit add as they join. -/
theorem add_eq_or_of_disjoint (x y : Nat) (h : x &&& y = 0) : x + y = x ||| y := by
  have hlt : x + y < 2 ^ (x + y) := Nat.lt_two_pow_self
  have hor : x ||| y < 2 ^ (x + y) := Nat.or_lt_two_pow (by omega) (by omega)
  have hbv := BitVec.add_eq_or_of_and_eq_zero (BitVec.ofNat (x + y) x) (BitVec.ofNat (x + y) y) (by rw [← BitVec.ofNat_and, h])
  rw [← BitVec.ofNat_add, ← BitVec.ofNat_or] at hbv
  have hx : x < 2 ^ (x + y) := by omega
  have hy : y < 2 ^ (x + y) := by omega
  simpa [Nat.mod_eq_of_lt hlt, Nat.mod_eq_of_lt hor, Nat.mod_eq_of_lt hx, Nat.mod_eq_of_lt hy] using congrArg BitVec.toNat hbv

theorem sub_and_eq_xor (x m : Nat) : x - (x &&& m) = x ^^^ (x &&& m) := by
  have hjoin : (x &&& m) + (x ^^^ (x &&& m)) = x := by
    rw [add_eq_or_of_disjoint _ _ (Nat.eq_of_testBit_eq fun i => by simp; tauto)]
    exact Nat.eq_of_testBit_eq fun i => by simp; cases x.testBit i <;> cases m.testBit i <;> rfl
  omega

/-- A write of the bits that `m` selects takes those from `v` and leaves the others (R82, R86). -/
theorem testBit_masked (x m v i : Nat) :
    (x - (x &&& m) + (v &&& m)).testBit i = if m.testBit i then v.testBit i else x.testBit i := by
  rw [sub_and_eq_xor, add_eq_or_of_disjoint]
  · cases hm : m.testBit i <;> simp [hm]
  · exact Nat.eq_of_testBit_eq fun i => by simp; tauto

theorem masked_lt {x m v n : Nat} (hx : x < 2 ^ n) (hm : m < 2 ^ n) : x - (x &&& m) + (v &&& m) < 2 ^ n := by
  refine Nat.lt_pow_two_of_testBit _ fun i hi => ?_
  rw [testBit_masked, Nat.testBit_lt_two_pow (hx.trans_le (Nat.pow_le_pow_right (by decide) hi)),
    Nat.testBit_lt_two_pow (hm.trans_le (Nat.pow_le_pow_right (by decide) hi))]
  simp

/-- A write of every bit leaves nothing of what stood. -/
theorem masked_all {x v n : Nat} (hx : x < 2 ^ n) : x - (x &&& (2 ^ n - 1)) + (v &&& (2 ^ n - 1)) = v % 2 ^ n := by
  rw [Nat.and_two_pow_sub_one_of_lt_two_pow hx, Nat.sub_self, Nat.zero_add, Nat.and_two_pow_sub_one_eq_mod]

end Sys2Proof.Proofs
end

section
/-! ### Commands that write registers of one page -/

namespace Sys2Proof.Proofs

open Sys2Proof Sys2Proof.Machine Sys2Proof.Safety

/-- A command that is a pure effect, where that leaves the package on and the queue and TIME alone, answers the state it leaves. -/
theorem answers_act {c : Instr} {s t : State} {f : State → State} {P : State → Prop} (hc : exec c s = s.act f) (hs : s.off = false)
    (ht : f s = t) (hoff : t.off = s.off) (hpend : t.pending = s.pending) (htime : t.time = s.time) (hP : P t) : Answers c s P :=
  ⟨t, by rw [hc, act_on _ _ hs, ht, settle_eq _ _ (hoff.trans hs) hpend htime], hP⟩

/-- The same for an effect that writes registers alone. -/
theorem answers_regs {c : Instr} {s t : State} {f : State → State} {P : State → Prop} (hc : exec c s = s.act f) (hs : s.off = false)
    (ht : f s = t) (hregs : t = { s with regs := t.regs }) (hP : P t) : Answers c s P :=
  answers_act hc hs ht (by rw [hregs]) (by rw [hregs]) (by rw [hregs]) hP

theorem sameRegs_setReg (s : State) (p off v : Nat) (ho : off < 0x10000) : SameRegs [(p, off)] s (s.setReg p off v) :=
  fun q b hb hn => regsOnly_setReg (W := fun q b => (q, b) ∈ [(p, off)]) s p off v ho (by simp) q b hb hn

theorem sameRegs_put (s : State) (p v : Nat) (f : FRef) (ho : f.off < 0x10000) : SameRegs [(p, f.off)] s (s.put p f v) :=
  sameRegs_setReg s p f.off _ ho

theorem setReg_eq (s : State) (p off v : Nat) : s.setReg p off v = { s with regs := (s.setReg p off v).regs } := rfl

theorem put_eq (s : State) (p v : Nat) (f : FRef) : s.put p f v = { s with regs := (s.put p f v).regs } := rfl

/-- ACC_ERR without a record (R65, R74, R78): the bit is set, its event fires, and nothing else changes. -/
theorem accErr0_sets (s : State) (p : Nat) : (s.accErr0 p).flag p Fld.PAGE_STAT_ACC_ERR = true ∧
    SameRegs [(p, Reg.PAGE_STAT)] s (s.accErr0 p) ∧ s.accErr0 p = { s with regs := (s.accErr0 p).regs, raised := s.raised ++ [srcAccErr] } :=
  ⟨flag_raise1_same s p Fld.PAGE_STAT_ACC_ERR rfl (by decide), sameRegs_put s p 1 Fld.PAGE_STAT_ACC_ERR (by decide), rfl⟩

end Sys2Proof.Proofs
end

section
/-! ### A QUENCH write while BUSY (R91) -/

namespace Sys2Proof.Proofs

open Sys2Proof Sys2Proof.Machine Sys2Proof.Safety

theorem exec_quench (s : State) (g : Nat) : exec (.quench g) s = s.act (·.quenchWrite (g % 0x10000)) := rfl

theorem exec_quenchCancel (s : State) (g : Nat) : exec (.quenchCancel g) s = s.act (·.quenchWrite (g % 0x10000 + 2 ^ 31)) := rfl

theorem quenchWrite_busy {s : State} (hb : s.quench.busy = true) (v : Nat) : s.quenchWrite v = s.raise1 pgSMITH Fld.QUENCH_STAT_OVERLAP := by
  simp [State.quenchWrite, hb]

/-- OVERLAP set by hardware, in a register of its own page alone. -/
theorem overlap_sets (s : State) : (s.raise1 pgSMITH Fld.QUENCH_STAT_OVERLAP).flag pgSMITH Fld.QUENCH_STAT_OVERLAP = true ∧
    SameRegs [(pgSMITH, Reg.QUENCH_STAT)] s (s.raise1 pgSMITH Fld.QUENCH_STAT_OVERLAP) ∧
    s.raise1 pgSMITH Fld.QUENCH_STAT_OVERLAP = { s with regs := (s.raise1 pgSMITH Fld.QUENCH_STAT_OVERLAP).regs } :=
  ⟨flag_raise1_same _ _ _ rfl (by decide), sameRegs_put s pgSMITH 1 Fld.QUENCH_STAT_OVERLAP (by decide), put_eq ..⟩

/-- Settles O7: both writes of QUENCH come to the one that finds BUSY, whatever their GMASK. -/
theorem quenchOverlap : Obligations.QuenchOverlap := by
  unfold Obligations.QuenchOverlap
  intro s g hs hb
  obtain ⟨hflag, hsame, hregs⟩ := overlap_sets s
  exact ⟨answers_regs (exec_quench s g) hs (quenchWrite_busy hb _) hregs ⟨hflag, hsame, hregs⟩,
    answers_regs (exec_quenchCancel s g) hs (quenchWrite_busy hb _) hregs ⟨hflag, hsame, hregs⟩⟩

end Sys2Proof.Proofs
end

section
/-! ### Registers whose write stores their fields and starts nothing else (R68, R86) -/

namespace Sys2Proof.Proofs

open Sys2Proof Sys2Proof.Machine Sys2Proof.Safety

/-- A write at this offset of a page of this TYPE only stores: the register is no action, has no write of its own, and starts nothing. -/
def plainWrite (typ off : Nat) : Bool := match typ with
  | 0x01 => off != Reg.QUENCH && off != Reg.PMU_CTL && off != Reg.MB_CMD
  | 0x02 => !(Reg.VOTE 0 ≤ off && off < Reg.VOTE 50) && off != Reg.WAKE_EN
  | 0x05 => off != Reg.FB_RING_WM
  | 0x06 => off != Reg.EVT_SW_TRIG && !((Reg.EVT_MASK 0 ≤ off && off < Reg.EVT_MASK 64) || (Reg.EVT_PEND 0 ≤ off && off < Reg.EVT_PEND 64) ||
      (Reg.EVT_ROUTE 0 ≤ off && off < Reg.EVT_ROUTE 64))
  | 0x11 => !(off < 0x200 && (off - Reg.LNK_CTL 0) % 0x20 == 0)
  | 0x20 => off != Reg.HOME_CNT_CLR
  | 0x21 => off != Reg.ROP_CMD
  | 0x28 => off != Reg.MC_ROWSPARE_CMD && off != Reg.MC_CTL
  | 0x30 => off != Reg.CQ_CMD && off != Reg.LOAD_CMD && off != Reg.CQ_TAIL && off != Reg.FQ_HEAD
  | 0x38 => off != Reg.NE_INV
  | 0x3A => off != Reg.LANE_APPLY
  | _ => true

section
variable {p off : Nat} (h : plainWrite (pageType p) off = true)
include h

theorem writeAction_plain (s : State) (full : Nat) : s.writeAction p off full = none := by
  unfold State.writeAction
  generalize pageType p = typ at h ⊢
  have hne : ∀ t r : Nat, plainWrite t r = false → (typ == t && off == r) = false := fun t r hr => by
    by_contra hc
    simp only [Bool.not_eq_false, Bool.and_eq_true, beq_iff_eq] at hc
    obtain ⟨rfl, rfl⟩ := hc
    rw [h] at hr; cases hr
  simp only [hne _ _ (by decide : plainWrite 0x01 Reg.QUENCH = false), hne _ _ (by decide : plainWrite 0x01 Reg.PMU_CTL = false),
    hne _ _ (by decide : plainWrite 0x01 Reg.MB_CMD = false), hne _ _ (by decide : plainWrite 0x06 Reg.EVT_SW_TRIG = false),
    hne _ _ (by decide : plainWrite 0x20 Reg.HOME_CNT_CLR = false), hne _ _ (by decide : plainWrite 0x21 Reg.ROP_CMD = false),
    hne _ _ (by decide : plainWrite 0x28 Reg.MC_ROWSPARE_CMD = false), hne _ _ (by decide : plainWrite 0x30 Reg.CQ_CMD = false),
    hne _ _ (by decide : plainWrite 0x30 Reg.LOAD_CMD = false), hne _ _ (by decide : plainWrite 0x38 Reg.NE_INV = false),
    hne _ _ (by decide : plainWrite 0x3A Reg.LANE_APPLY = false), Bool.false_eq_true, if_false]

/-- At a page of its own TYPE no listed offset is plain. -/
theorem not_plain_at {q r : Nat} (hr : plainWrite (pageType q) r = false) : (p == q && off == r) = false := by
  by_contra hc
  simp only [Bool.not_eq_false, Bool.and_eq_true, beq_iff_eq] at hc
  obtain ⟨rfl, rfl⟩ := hc
  rw [h] at hr; cases hr

theorem writtenHook_plain (s : State) : s.writtenHook p off = s := by
  unfold State.writtenHook
  simp only [not_plain_at h (by decide : plainWrite (pageType pgIXU) Reg.CQ_TAIL = false),
    not_plain_at h (by decide : plainWrite (pageType pgIXU) Reg.FQ_HEAD = false),
    not_plain_at h (by decide : plainWrite (pageType pgFB) Reg.FB_RING_WM = false),
    not_plain_at h (by decide : plainWrite (pageType pgPWR) Reg.WAKE_EN = false),
    Bool.false_eq_true, if_false]

theorem not_vote_plain : (p == pgPWR && Reg.VOTE 0 ≤ off && off < Reg.VOTE 50) = false := by
  by_contra hc
  simp only [Bool.not_eq_false, Bool.and_eq_true, beq_iff_eq, decide_eq_true_eq] at hc
  obtain ⟨⟨rfl, hlo⟩, hhi⟩ := hc
  rw [show pageType pgPWR = 0x02 by decide] at h
  simp [plainWrite, hlo, hhi] at h

theorem not_evt_plain : (p == pgEVT && ((Reg.EVT_MASK 0 ≤ off && off < Reg.EVT_MASK 64) || (Reg.EVT_PEND 0 ≤ off && off < Reg.EVT_PEND 64) ||
    (Reg.EVT_ROUTE 0 ≤ off && off < Reg.EVT_ROUTE 64))) = false := by
  by_contra hc
  simp only [Bool.not_eq_false, Bool.and_eq_true (_ == _), beq_iff_eq] at hc
  obtain ⟨rfl, hin⟩ := hc
  rw [show pageType pgEVT = 0x06 by decide] at h
  simp [plainWrite, hin] at h

theorem not_lnkCtl_plain : (pageType p == 0x11 && off < 0x200 && (off - Reg.LNK_CTL 0) % 0x20 == 0) = false := by
  by_contra hc
  simp only [Bool.not_eq_false, Bool.and_eq_true, beq_iff_eq, decide_eq_true_eq] at hc
  obtain ⟨⟨ht, hlo⟩, hm⟩ := hc
  rw [ht] at h
  simp [plainWrite, hlo, hm] at h

theorem not_mcCtl_plain : (pageType p == 0x28 && off == Reg.MC_CTL) = false := by
  by_contra hc
  simp only [Bool.not_eq_false, Bool.and_eq_true, beq_iff_eq] at hc
  obtain ⟨ht, rfl⟩ := hc
  rw [ht] at h; cases h

/-- A write of the bits that `m` selects to such a register (R68, R86): RWQ bits go to the pending value, status bits written 1 are
cleared, RW bits are stored. -/
theorem regWriteBits_plain {s : State} {d : RegDef} (hon : s.pageOff p = false) (ho : 0x100 ≤ off) (hd : findReg p off = some d)
    (m v : Nat) (smith : Bool) : s.regWriteBits p off m v smith =
      ((if m &&& d.rwqMask == 0 then s else s.shadowWrite p off (m &&& d.rwqMask) v).clearBits p off (m &&& v)).storeFields p off m v d := by
  have hq : (off == Reg.PAGE_QGRP) = false := by simp [Reg.PAGE_QGRP]; omega
  unfold State.regWriteBits
  simp only [hon, Bool.and_false, Bool.false_eq_true, if_false, hd, hq, not_vote_plain h, not_evt_plain h, not_lnkCtl_plain h,
    writeAction_plain h, writtenHook_plain h, not_mcCtl_plain h]

end

/-! #### Registers whose fields have one access type -/

theorem accMask_eq_zero {d : RegDef} {a : Acc} (h : ∀ f ∈ d.fields, f.acc ≠ a) : d.accMask a = 0 :=
  foldl_keeps (· = 0) _ _ _ rfl fun f hf m hm => by simp [h f hf, hm]

theorem rwqMask_eq_zero {d : RegDef} (h : ∀ f ∈ d.fields, f.acc ≠ .rwq) : d.rwqMask = 0 :=
  foldl_keeps (· = 0) _ _ _ rfl fun f hf m hm => by simp [h f hf, hm]

/-- A register without status bits has none to clear. -/
theorem clearBits_of_no_status {p off : Nat} {d : RegDef} (hd : findReg p off = some d) (h : ∀ f ∈ d.fields, f.acc ≠ .w1c) (s : State) (m : Nat) :
    s.clearBits p off m = s := by
  simp [State.clearBits, hd, accMask_eq_zero h]

/-- A register without RW fields stores nothing. -/
theorem storeFields_of_no_rw {d : RegDef} (h : ∀ f ∈ d.fields, f.acc ≠ .rw) (s : State) (p off m v : Nat) : s.storeFields p off m v d = s :=
  foldl_keeps (· = s) _ _ _ rfl fun f hf t ht => by simp [h f hf, ht]

/-! #### The registers that a page gives -/

/-- A register found at a page is one of its row's, at one of its places. -/
theorem findReg_place {p off : Nat} {d : RegDef} (h : findReg p off = some d) :
    ∃ r ∈ pageRows, pageType p = r.typ ∧ d ∈ r.regs ++ pmcRegs ++ hdrRegs ∧ ∃ i < d.count, off = d.off + i * d.stride := by
  have hplace : ∀ inst, d.covers inst off = true → ∃ i < d.count, off = d.off + i * d.stride := fun inst hc => by
    simp only [RegDef.covers, Bool.and_eq_true, decide_eq_true_eq, beq_iff_eq] at hc
    obtain ⟨⟨⟨-, hle⟩, hm⟩, hlt⟩ := hc
    refine ⟨_, hlt, ?_⟩
    have := Nat.div_add_mod (off - d.off) d.stride
    rw [hm, Nat.mul_comm] at this; omega
  unfold findReg at h
  split at h
  · cases h
  · rename_i r hr
    refine ⟨r, List.mem_of_find?_eq_some hr, by simp [pageType, hr], ?_⟩
    split at h
    · rename_i d' hd
      cases h
      exact ⟨by simp [List.mem_of_find?_eq_some hd], hplace (pageInst p) (List.find?_some (p := (RegDef.covers · _ off)) hd)⟩
    · refine ⟨?_, hplace 0 (List.find?_some (p := (RegDef.covers · _ off)) h)⟩
      have hm := List.mem_of_find?_eq_some h
      simp only [List.mem_append] at hm ⊢
      rcases hm with hm | hm
      · split at hm
        · exact .inl (.inr hm)
        · cases hm
      · exact .inr hm

/-- The registers of RWQ fields alone, in every row of R51: their masks, and that a write to one only stores. -/
theorem rwq_rows : ∀ r ∈ pageRows, ∀ d ∈ r.regs ++ pmcRegs ++ hdrRegs, (∀ f ∈ d.fields, f.acc = .rwq) → d.fields ≠ [] →
    d.rwqMask ≠ 0 ∧ d.rwqMask < 2 ^ 32 ∧ ∀ i < d.count, plainWrite r.typ (d.off + i * d.stride) = true := by decide +kernel

theorem rwq_register {p off : Nat} {d : RegDef} (hd : findReg p off = some d) (hall : ∀ f ∈ d.fields, f.acc = .rwq) (hne : d.fields ≠ []) :
    d.rwqMask ≠ 0 ∧ d.rwqMask < 2 ^ 32 ∧ plainWrite (pageType p) off = true := by
  obtain ⟨r, hr, htyp, hmem, i, hi, rfl⟩ := findReg_place hd
  obtain ⟨hmask, hlt, hplain⟩ := rwq_rows r hr d hmem hall hne
  exact ⟨hmask, hlt, htyp ▸ hplain i hi⟩

/-! #### Pages of the homes -/

/-- HOME_CFG, HOME_RSV_CFG and HOME_STAT as R259 lists them. -/
def homeCfg : RegDef := homeRegs0[0]
def homeRsvCfg : RegDef := homeRegs0[3]
def homeStat : RegDef := homeRegs0[6]

/-- The pages of the homes are always on, of TYPE 0x20, and hold these registers. -/
theorem home_page {h : Nat} (hh : h < 64) : pageDom (pgHOME h) = none ∧ pageType (pgHOME h) = 0x20 ∧
    findReg (pgHOME h) Reg.HOME_CFG = some homeCfg ∧ findReg (pgHOME h) Reg.HOME_RSV_CFG = some homeRsvCfg ∧
    findReg (pgHOME h) Reg.HOME_STAT = some homeStat := by
  revert h; decide +kernel

theorem pageOff_of_always_on {p : Nat} (h : pageDom p = none) (s : State) : s.pageOff p = false := by simp [State.pageOff, h]

end Sys2Proof.Proofs
end

section
/-! ### Pending values (R78, R86, R99, R146) -/

namespace Sys2Proof.Proofs

open Sys2Proof Sys2Proof.Machine Sys2Proof.Safety

theorem shadow?_setShadow_same (s : State) (p off v : Nat) : (s.setShadow p off v).shadow? p off = some (v % 2 ^ 32) := by
  simp [State.shadow?, State.setShadow]

theorem shadowOrLive_lt (s : State) (p off : Nat) : s.shadowOrLive p off < 2 ^ 32 := by
  unfold State.shadowOrLive State.shadow?
  cases Tab.get? (regKey p off) s.shadow with
  | none => exact reg_lt s p off
  | some v => exact v.isLt

/-- The pending value that a write of the bits of `m` leaves (R86). -/
theorem shadow?_shadowPut (s : State) (p off m v : Nat) (hm : m < 2 ^ 32) :
    (s.shadowPut p off m v).shadow? p off = some (s.shadowOrLive p off - (s.shadowOrLive p off &&& m) + (v &&& m)) := by
  rw [State.shadowPut, shadow?_setShadow_same, Nat.mod_eq_of_lt (masked_lt (shadowOrLive_lt s p off) hm)]

theorem shadowPut_eq (s : State) (p off m v : Nat) : s.shadowPut p off m v = { s with shadow := (s.shadowPut p off m v).shadow } := rfl

/-- Outside a quench of its group a write lands in the pending value of its register (R86). -/
theorem shadowWrite_lands {s : State} {p off : Nat} {d : RegDef} (hd : findReg p off = some d) (hmask : d.rwqMask ≠ 0)
    (hw : State.fabWindow p off = none) (hon : s.pageOff p = false) (hq : s.qHolds p = false) (m v : Nat) :
    s.shadowWrite p off m v = s.shadowPut p off (m &&& d.rwqMask) v := by
  simp [State.shadowWrite, State.shadowLand, hq, hw, hd, hmask, hon]

/-- In a quench of its group a write is held (R99). -/
theorem shadowWrite_held {s : State} {p : Nat} (hq : s.qHolds p = true) (off m v : Nat) :
    ∃ w, s.shadowWrite p off m v = { s with quench := { s.quench with held := s.quench.held ++ [w] } } := by
  rw [State.shadowWrite, if_pos hq]; exact ⟨_, rfl⟩

theorem exec_shadowWrite (s : State) (p off data : Nat) (view : Bool) : exec (.shadowWrite p off data view) s = s.act fun s =>
    if ((findReg p off).map (·.rwqMask)).getD 0 == 0 then s
    else if view then s.shadowViewWrite p off (data % 2 ^ 32) else s.regWriteBits p off (2 ^ 32 - 1) (data % 2 ^ 32) false := rfl

/-- At either address a write to a register of RWQ fields is one of its pending value (R86, R88). -/
theorem shadowWrite_command {s : State} {p off : Nat} {d : RegDef} (hon : s.pageOff p = false) (ho : 0x100 ≤ off) (hd : findReg p off = some d)
    (hall : ∀ f ∈ d.fields, f.acc = .rwq) (hne : d.fields ≠ []) (data : Nat) (view : Bool) :
    (if ((findReg p off).map (·.rwqMask)).getD 0 == 0 then s
      else if view then s.shadowViewWrite p off (data % 2 ^ 32) else s.regWriteBits p off (2 ^ 32 - 1) (data % 2 ^ 32) false) =
    s.shadowWrite p off d.rwqMask (data % 2 ^ 32) := by
  obtain ⟨hmask, hlt, hplain⟩ := rwq_register hd hall hne
  have hfull : (2 ^ 32 - 1) &&& d.rwqMask = d.rwqMask := by rw [Nat.and_comm, Nat.and_two_pow_sub_one_of_lt_two_pow hlt]
  have hzero : ((findReg p off).map (·.rwqMask)).getD 0 = d.rwqMask := by rw [hd]; rfl
  rw [hzero, if_neg (by simpa using hmask)]
  cases view with
  | true =>
    rw [if_pos rfl, State.shadowViewWrite, if_neg (by simp [hon]), if_neg (by omega), hd]
    simp [hmask]
  | false =>
    rw [if_neg (by decide), regWriteBits_plain hplain hon ho hd, storeFields_of_no_rw fun f hf => by simp [hall f hf],
      clearBits_of_no_status hd fun f hf => by simp [hall f hf], hfull, if_neg (by simpa using hmask)]

/-! #### Route entries and router words (R146) -/

theorem exec_rtEntryWrite (s : State) (k : Nat) (hi : Bool) (data : Nat) : exec (.rtEntryWrite k hi data) s = s.act fun s =>
    if k < 6 then s.shadowWrite (pgFAB k) (if hi then Reg.RT_ENTRY_HI else Reg.RT_ENTRY_LO) (if hi then 0x1FF else 2 ^ 32 - 1) data else s := rfl

theorem exec_rtrWeightWrite (s : State) (k word data : Nat) : exec (.rtrWeightWrite k word data) s = s.act fun s =>
    if (k == 6 || k == 7) && word < 3 then
      s.shadowWrite (pgFAB k) (if word == 0 then Reg.RTR_CLASS else if word == 1 then Reg.RTR_WEIGHT_LO else Reg.RTR_WEIGHT_HI) (2 ^ 32 - 1) data
    else s := rfl

/-- The FAB pages of the route tables. -/
theorem fabWindow_route {k : Nat} (hk : k < 6) (off : Nat) : State.fabWindow (pgFAB k) off =
    if off == Reg.RT_ENTRY_LO then some 0 else if off == Reg.RT_ENTRY_HI then some 1 else none := by
  have hlo : pgFAB 0 ≤ pgFAB k := by unfold pgFAB; omega
  have hhi : pgFAB k ≤ pgFAB 5 := by unfold pgFAB; omega
  rw [State.fabWindow, decide_eq_true hlo, decide_eq_true hhi]; rfl

theorem fabWindow_routeLo {k : Nat} (hk : k < 6) : State.fabWindow (pgFAB k) Reg.RT_ENTRY_LO = some 0 := fabWindow_route hk _

theorem fabWindow_routeHi {k : Nat} (hk : k < 6) : State.fabWindow (pgFAB k) Reg.RT_ENTRY_HI = some 1 := fabWindow_route hk _

theorem fabWindow_weight {k word : Nat} (hk : k = 6 ∨ k = 7) (hw : word < 3) :
    State.fabWindow (pgFAB k) (if word == 0 then Reg.RTR_CLASS else if word == 1 then Reg.RTR_WEIGHT_LO else Reg.RTR_WEIGHT_HI) = some (word + 2) := by
  rcases hk with rfl | rfl <;> interval_cases word <;> rfl

/-- The half of an entry that a route write names: its lowest bit and width. -/
def routeHalf (hi : Bool) : Nat × Nat := if hi then (32, 9) else (0, 32)

/-- A half of a pair's entry takes a value as its pending one. -/
def routeHalfPut (s : State) (pair half : Nat × Nat) (v : Nat) : State :=
  { s with routesPend := Tab.put (routeKey pair.1 pair.2) (setBits (s.routeProp pair.1 pair.2) half.1 half.2 v) s.routesPend }

/-- A write of every bit of half an entry lands in the entry that the selection names (R146). -/
theorem rtEntryWrite_lands {s : State} {k : Nat} (hk : k < 6) (hq : s.qHolds (pgFAB k) = false) (hi : Bool) (data : Nat) :
    s.shadowWrite (pgFAB k) (if hi then Reg.RT_ENTRY_HI else Reg.RT_ENTRY_LO) (if hi then 0x1FF else 2 ^ 32 - 1) data =
      routeHalfPut s (s.selRoute (pgFAB k)) (routeHalf hi) (data % 2 ^ (routeHalf hi).2) := by
  have hcur : ∀ lo w, bits (s.routeProp (s.selRoute (pgFAB k)).1 (s.selRoute (pgFAB k)).2) lo w < 2 ^ w := fun lo w => Nat.mod_lt _ (by positivity)
  cases hi with
  | false =>
    simp only [State.shadowWrite, Bool.false_eq_true, if_false, fabWindow_routeLo hk, hq, State.shadowLand, routeHalf]
    rw [← masked_all (v := data) (hcur 0 32)]; rfl
  | true =>
    simp only [State.shadowWrite, if_true, fabWindow_routeHi hk, hq, Bool.false_eq_true, if_false, State.shadowLand, routeHalf]
    rw [← masked_all (v := data) (hcur 32 9)]; rfl

theorem setBits_mod (v lo w x : Nat) : setBits v lo w (x % 2 ^ w) = setBits v lo w x := by simp [setBits]

theorem routeProp_put_same {s t : State} {src dst e : Nat} (h : t.routesPend = Tab.put (routeKey src dst) e s.routesPend) : t.routeProp src dst = e := by
  simp [State.routeProp, h]

theorem weightProp_put_same {s t : State} {r word w : Nat} (h : t.weightsPend = Tab.put (State.weightKey r word) w s.weightsPend) :
    t.weightProp r word = w := by
  simp [State.weightProp, h]

/-- A write of a class or weight word lands in the word of the router that the selection names (R146). -/
theorem rtrWeightWrite_lands {s : State} {k word : Nat} (hk : k = 6 ∨ k = 7) (hw : word < 3) (hr : s.get (pgFAB k) Fld.RTR_SEL_RTR < 48)
    (hq : s.qHolds (pgFAB k) = false) (data : Nat) :
    ∃ w, s.shadowWrite (pgFAB k) (if word == 0 then Reg.RTR_CLASS else if word == 1 then Reg.RTR_WEIGHT_LO else Reg.RTR_WEIGHT_HI) (2 ^ 32 - 1) data =
        { s with weightsPend := Tab.put (State.weightKey (s.selRouter (pgFAB k)) word) w s.weightsPend } ∧
      (word = 1 → s.weightProp (s.selRouter (pgFAB k)) word < 2 ^ 32 → w = data % 2 ^ 32) := by
  have hland : s.shadowWrite (pgFAB k) (if word == 0 then Reg.RTR_CLASS else if word == 1 then Reg.RTR_WEIGHT_LO else Reg.RTR_WEIGHT_HI)
      (2 ^ 32 - 1) data = s.weightPut (pgFAB k) (s.reg (pgFAB k) Reg.RTR_SEL) word (2 ^ 32 - 1) data := by
    rw [State.shadowWrite, fabWindow_weight hk hw, if_neg (by simp [hq]), State.shadowLand, fabWindow_weight hk hw]
    interval_cases word <;> rfl
  have hsel : ¬ 48 ≤ bits (s.reg (pgFAB k) Reg.RTR_SEL) 0 6 := by
    have : bits (s.reg (pgFAB k) Reg.RTR_SEL) 0 6 < 48 := hr
    omega
  rw [hland, State.weightPut, if_neg hsel]
  refine ⟨_, rfl, ?_⟩
  rintro rfl hlt
  exact masked_all hlt

/-! #### PAGE_QGRP (R78) -/

theorem exec_pageQgrpWrite (s : State) (p g : Nat) : exec (.pageQgrpWrite p g) s = s.act fun s =>
    if (pageRow p).isSome then s.qgrpWrite p (g % 16) else s := rfl

theorem pageRow_of_qGroup {s : State} {p g : Nat} (h : s.qGroup p = some g) : (pageRow p).isSome = true := by
  unfold State.qGroup at h
  cases hr : pageRow p with
  | none => simp [hr] at h
  | some r => rfl

/-- A page of a group belongs to the one that PAGE_QGRP shows. -/
theorem qGroup_eq_get {s : State} {p g : Nat} (h : s.qGroup p = some g) (t : State) : t.qGroup p = some (t.get p Fld.PAGE_QGRP_GROUP) := by
  unfold State.qGroup at h ⊢
  split at h
  · rename_i hc; rw [if_pos hc]
  · cases h

/-- Settles O6: a write lands in the pending value that its register or selection names, or is held; and PAGE_QGRP moves a page that holds nothing. -/
theorem pendingValues : Obligations.PendingValues := by
  unfold Obligations.PendingValues
  refine ⟨⟨fun s p off data d view hs hon _ ho hd hall hne hw hq => ?_, fun s k data hs hk hq => ⟨?_, ?_⟩, fun s k word data hs hk hw hr hq hlt => ?_,
    fun s h data view hs hh hq => ?_⟩, fun s p g g0 hs hg hpend hq => ?_, fun s p g g0 hs hg hbusy => ?_⟩
  · obtain ⟨hmask, hlt, -⟩ := rwq_register hd hall hne
    refine answers_act (exec_shadowWrite ..) hs ((shadowWrite_command hon ho hd hall hne data view).trans (shadowWrite_lands hd hmask hw hon hq _ _))
      rfl rfl rfl ⟨?_, rfl, shadowPut_eq ..⟩
    rw [Nat.and_self, shadow?_shadowPut _ _ _ _ _ hlt]
  · exact answers_act (exec_rtEntryWrite ..) hs ((if_pos hk).trans (rtEntryWrite_lands hk hq false data)) rfl rfl rfl
      ⟨(routeProp_put_same rfl).trans (setBits_mod ..), rfl⟩
  · exact answers_act (exec_rtEntryWrite ..) hs ((if_pos hk).trans (rtEntryWrite_lands hk hq true data)) rfl rfl rfl
      ⟨(routeProp_put_same rfl).trans (setBits_mod ..), rfl⟩
  · obtain ⟨w, hland, hword⟩ := rtrWeightWrite_lands hk hw hr hq data
    exact answers_act (exec_rtrWeightWrite ..) hs ((if_pos (by rcases hk with rfl | rfl <;> simp [hw])).trans hland) rfl rfl rfl
      ⟨fun h1 => (weightProp_put_same rfl).trans (hword h1 hlt), rfl, rfl⟩
  · obtain ⟨hon, -, -, hd, -⟩ := home_page hh
    obtain ⟨w, hheld⟩ := shadowWrite_held hq Reg.HOME_RSV_CFG homeRsvCfg.rwqMask (data % 2 ^ 32)
    exact answers_act (exec_shadowWrite ..) hs ((shadowWrite_command (pageOff_of_always_on hon s) (by decide) hd (by decide) (by decide) data view).trans hheld)
      rfl rfl rfl ⟨by simp, rfl, rfl⟩
  · refine answers_regs (exec_pageQgrpWrite ..) hs ((if_pos (pageRow_of_qGroup hg)).trans ?_) (put_eq s p (g % 16) Fld.PAGE_QGRP_GROUP) ⟨?_, ?_, put_eq ..⟩
    · simp [State.qgrpWrite, hg, hpend, hq]
    · rw [qGroup_eq_get hg, get_put_same _ _ _ _ (by decide)]
      exact congrArg some (Nat.mod_mod g 16)
    · exact sameRegs_put s p _ Fld.PAGE_QGRP_GROUP (by decide)
  · refine answers_act (exec_pageQgrpWrite ..) hs ((if_pos (pageRow_of_qGroup hg)).trans ?_) ?_ ?_ ?_ (accErr0_sets s p)
    · rcases hbusy with h | h <;> simp [State.qgrpWrite, hg, h]
    all_goals rfl

end Sys2Proof.Proofs
end

section
/-! ### Accesses to registers by type, and refused ones (R62, R65, R68, R70, R71, R82, R83) -/

namespace Sys2Proof.Proofs

open Sys2Proof Sys2Proof.Machine Sys2Proof.Safety

theorem sameRegs_refl (l : List (Nat × Nat)) (s : State) : SameRegs l s s := fun _ _ _ _ => rfl

theorem sameRegs_append {l k : List (Nat × Nat)} {s t u : State} (h : SameRegs l s t) (g : SameRegs k t u) : SameRegs (l ++ k) s u :=
  fun p off ho hn => (g p off ho fun hm => hn (List.mem_append_right _ hm)).trans (h p off ho fun hm => hn (List.mem_append_left _ hm))

theorem sameRegs_mono {l k : List (Nat × Nat)} {s t : State} (h : SameRegs l s t) (hl : ∀ x ∈ l, x ∈ k) : SameRegs k s t :=
  fun p off ho hn => h p off ho fun hm => hn (hl _ hm)

/-! #### The commands -/

theorem noRegister_eq_false {p off : Nat} (hp : (pageRow p).isSome = true) (ho : off < 0xE000) : State.noRegister p off = false := by
  unfold State.noRegister
  rw [← Option.not_isSome, hp, decide_eq_false (by omega)]; rfl

theorem exec_registerWrite {s : State} {p off : Nat} (hp : (pageRow p).isSome = true) (ho : off < 0xE000) (hs : s.off = false) (src : BitVec 8) (n data : Nat) :
    exec (.registerWrite src p off n data) s = .next (s.settle (s.ctlWrite src p off n data)) := by
  have harm : exec (.registerWrite src p off n data) s = s.act fun s =>
      if State.noRegister p off then s.recReserved pgSMITH (pageRequest 0x68 src p off) else s.ctlWrite src p off n data := rfl
  rw [harm, act_on _ _ hs, noRegister_eq_false hp ho]; rfl

theorem exec_statusClearingRead {s : State} {p off : Nat} (hp : (pageRow p).isSome = true) (ho : off < 0xE000) (hs : s.off = false) (src : BitVec 8) (n : Nat)
    (e : EccOutcome) : exec (.statusClearingRead src p off n e) s = .next (s.settle (s.ctlRead src p off n e)) := by
  have harm : exec (.statusClearingRead src p off n e) s = s.act fun s =>
      if State.noRegister p off then
        { s.recReserved pgSMITH (pageRequest 0x70 src p off) with readData := BitVec.ofNat 64 (2 ^ (8 * n) - 1) }
      else s.ctlRead src p off n e := rfl
  rw [harm, act_on _ _ hs, noRegister_eq_false hp ho]; rfl

theorem exec_bitAliasWrite {s : State} {p off b : Nat} (hp : (pageRow p).isSome = true) (ho : 0x100 ≤ off ∧ off ≤ 0x3FF ∧ off % 4 = 0) (hb : b < 32)
    (hs : s.off = false) (src : BitVec 8) (v : Bool) :
    exec (.bitAliasWrite src p off b v) s = .next (s.settle (s.aliasWrite p off b v (src == nodeSmith))) := by
  change s.act _ = _
  rw [act_on _ _ hs]
  simp [hp, ho, hb]

/-- A command whose effect leaves the package on and the queue and TIME alone answers the state it leaves. -/
theorem answers_settle {c : Instr} {s t : State} {P : State → Prop} (hc : exec c s = .next (s.settle t)) (hs : s.off = false) (hoff : t.off = s.off)
    (hpend : t.pending = s.pending) (htime : t.time = s.time) (hP : P t) : Answers c s P :=
  ⟨t, by rw [hc, settle_eq _ _ (hoff.trans hs) hpend htime], hP⟩

theorem ctlWrite_word {s : State} {off : Nat} (ho : off % 4 = 0) (src : BitVec 8) (p data : Nat) :
    s.ctlWrite src p off 4 data = s.write4 p off (data % 2 ^ 32) (src == nodeSmith) := by
  simp [State.ctlWrite, State.writePermitted, ho]

theorem ctlRead_word {s : State} {p off : Nat} (ho : off % 4 = 0) (hlt : off < 0x4000) (hp : p ≠ pgFB) (src : BitVec 8) (e : EccOutcome) :
    s.ctlRead src p off 4 e = { s.readClears p off (2 ^ 32 - 1) (src == nodeSmith) with readData := BitVec.ofNat 64 (bits (s.regValue p off) 0 32) } := by
  have hword : off / 4 * 4 = off := by omega
  simp [State.ctlRead, State.readPermitted, State.read4, ho, hlt, hp, hword]

/-! #### Refused accesses (R62, R65) -/

/-- An access that R62 refuses: ACC_ERR with its event and a record, and nothing else. -/
theorem accErr_sets (s : State) (p node off mask : Nat) : (s.accErr p node off mask).flag p Fld.PAGE_STAT_ACC_ERR = true ∧
    SameRegs [(p, Reg.PAGE_STAT)] s (s.accErr p node off mask) ∧
    s.accErr p node off mask = { s with regs := (s.accErr p node off mask).regs, raised := s.raised ++ [srcAccErr],
                                              recs := (s.accErr p node off mask).recs } := by
  unfold State.accErr
  rw [record_eq]
  exact ⟨flag_raise1_same s p Fld.PAGE_STAT_ACC_ERR rfl (by decide), sameRegs_put s p 1 Fld.PAGE_STAT_ACC_ERR (by decide), by simp⟩

theorem not_writePermitted {off n : Nat} (h : n = 1 ∨ n = 2 ∨ (n = 4 ∧ off % 4 ≠ 0) ∨ (n = 8 ∧ off % 8 ≠ 0)) :
    State.writePermitted off n = false := by
  rcases h with rfl | rfl | ⟨rfl, h⟩ | ⟨rfl, h⟩ <;> simp_all [State.writePermitted]

theorem pageRow_of_pageOff {s : State} {p : Nat} (h : s.pageOff p = true) : (pageRow p).isSome = true := by
  cases hr : pageRow p with
  | none => simp [State.pageOff, pageDom, hr] at h
  | some r => rfl

/-- Every write to a page whose domain is off is discarded (R65). -/
theorem write4_pageOff {s : State} {p off : Nat} (h : s.pageOff p = true) (ho : 0x100 ≤ off) (v : Nat) (smith : Bool) :
    s.write4 p off v smith = s.accErr0 p := by
  unfold State.write4
  split
  · simp [State.regWriteBits, ho, h]
  · split
    · simp [State.shadowViewWrite, h]
    · simp [State.aliasWrite, h]

/-! #### A register of one RW field -/

/-- TIME_CMP_LO as R620 lists it. -/
def timeCmpLo : RegDef := timeRegs0[2]

/-- A write of some bits of TIME_CMP_LO sets those and nothing else. -/
theorem regWriteBits_timeCmpLo (s : State) {m : Nat} (v : Nat) (smith : Bool) (h0 : m ≠ 0) (hm : m < 2 ^ 32) :
    ∃ t, s.regWriteBits pgTIME Reg.TIME_CMP_LO m v smith = t ∧
      t.reg pgTIME Reg.TIME_CMP_LO = s.reg pgTIME Reg.TIME_CMP_LO - (s.reg pgTIME Reg.TIME_CMP_LO &&& m) + (v &&& m) ∧
      SameRegs [(pgTIME, Reg.TIME_CMP_LO)] s t ∧ t = { s with regs := t.regs } := by
  have hlow : ∀ x, bits x 0 32 = x % 2 ^ 32 := fun x => by simp [bits]
  have hv : v % 4294967296 &&& m = v &&& m := by
    rw [show 4294967296 = 2 ^ 32 by rfl, ← Nat.and_two_pow_sub_one_eq_mod, Nat.and_assoc, Nat.and_comm _ m, Nat.and_two_pow_sub_one_of_lt_two_pow hm]
  have hmask : m % 4294967296 = m := Nat.mod_eq_of_lt hm
  have hold : s.reg pgTIME Reg.TIME_CMP_LO % 4294967296 = s.reg pgTIME Reg.TIME_CMP_LO := Nat.mod_eq_of_lt (reg_lt s _ _)
  have hres : ∀ x, reservedValue pgTIME Reg.TIME_CMP_LO 0 x = false := fun x => by
    simp [reservedValue, show pageType pgTIME = 0x04 by decide, Reg.TIME_CMP_LO, Reg.PMC_CTL, Reg.TIME_CMP_CTL]
  have hstore : s.regWriteBits pgTIME Reg.TIME_CMP_LO m v smith = s.setReg pgTIME Reg.TIME_CMP_LO (setBits (s.reg pgTIME Reg.TIME_CMP_LO) 0 32
      (s.reg pgTIME Reg.TIME_CMP_LO - (s.reg pgTIME Reg.TIME_CMP_LO &&& m) + (v &&& m))) := by
    rw [regWriteBits_plain (d := timeCmpLo) (by decide) (pageOff_of_always_on (by decide) s) (by decide) (by decide),
      clearBits_of_no_status (d := timeCmpLo) (by decide) (by decide), rwqMask_eq_zero (d := timeCmpLo) (by decide), Nat.and_zero, if_pos (by decide)]
    simp [State.storeFields, timeCmpLo, timeRegs0, hlow, hres, hmask, h0, hold, hv]
  refine ⟨_, hstore, ?_, sameRegs_setReg _ _ _ _ (by decide), setReg_eq ..⟩
  rw [reg_setReg_same, ← hlow, bits_setBits_same, Nat.mod_eq_of_lt (masked_lt (reg_lt s _ _) hm)]

/-! #### A register of status bits (R70, R71, R82) -/

/-- At a home's page a cleared status bit takes with it at most the V bit of HOME_SNP_TO_LOC. -/
theorem clearedHooks_home {p : Nat} (htyp : pageType p = 0x20) (s : State) (off m : Nat) :
    s.clearedHooks p off m = s ∨ s.clearedHooks p off m = s.put p Fld.HOME_SNP_TO_LOC_V 0 := by
  simp only [State.clearedHooks, htyp]
  split
  · exact .inr rfl
  · exact .inl rfl

/-- Status bits of HOME_STAT cleared: those that `m` selects, and with SNP_TO the V bit of its location. -/
theorem clearBits_homeStat (s : State) {h : Nat} (hh : h < 64) (m : Nat) :
    ∃ t, s.clearBits (pgHOME h) Reg.HOME_STAT m = t ∧
      t.reg (pgHOME h) Reg.HOME_STAT = s.reg (pgHOME h) Reg.HOME_STAT - (s.reg (pgHOME h) Reg.HOME_STAT &&& (m &&& 0xFF)) ∧
      SameRegs [(pgHOME h, Reg.HOME_STAT), (pgHOME h, Reg.HOME_SNP_TO_LOC)] s t ∧ t = { s with regs := t.regs } := by
  obtain ⟨-, htyp, -, -, hd⟩ := home_page hh
  have hmask : homeStat.accMask .w1c = 0xFF := by decide
  have hevt : (pgHOME h == pgEVT) = false := by simp [pgHOME, pgEVT]; omega
  rw [State.clearBits, hd]
  dsimp only
  rw [hmask]
  by_cases h0 : m &&& 0xFF = 0
  · rw [if_pos (by simp [h0]), h0, Nat.and_zero, Nat.sub_zero]
    exact ⟨s, rfl, rfl, sameRegs_refl _ s, rfl⟩
  rw [if_neg (by simpa using h0), hevt, if_neg (by decide)]
  have hlt : s.reg (pgHOME h) Reg.HOME_STAT - (s.reg (pgHOME h) Reg.HOME_STAT &&& (m &&& 0xFF)) < 2 ^ 32 := by
    have := reg_lt s (pgHOME h) Reg.HOME_STAT; omega
  have hset := sameRegs_setReg s (pgHOME h) Reg.HOME_STAT
    (s.reg (pgHOME h) Reg.HOME_STAT - (s.reg (pgHOME h) Reg.HOME_STAT &&& (m &&& 0xFF))) (by decide)
  rcases clearedHooks_home htyp (s.setReg (pgHOME h) Reg.HOME_STAT (s.reg (pgHOME h) Reg.HOME_STAT -
    (s.reg (pgHOME h) Reg.HOME_STAT &&& (m &&& 0xFF)))) Reg.HOME_STAT (m &&& 0xFF) with hkept | hloc
  · exact ⟨_, hkept, by rw [reg_setReg_same, Nat.mod_eq_of_lt hlt], sameRegs_mono hset (by simp), rfl⟩
  · refine ⟨_, hloc, ?_, sameRegs_append hset (sameRegs_put _ _ 0 Fld.HOME_SNP_TO_LOC_V (by decide)), rfl⟩
    rw [reg_put_ne _ _ _ _ _ _ (by simp [regKey, Reg.HOME_STAT, Fld.HOME_SNP_TO_LOC_V]), reg_setReg_same, Nat.mod_eq_of_lt hlt]

/-- HOME_STAT reads as it stands. -/
theorem regValue_homeStat (s : State) {h : Nat} (hh : h < 64) : s.regValue (pgHOME h) Reg.HOME_STAT = s.reg (pgHOME h) Reg.HOME_STAT := by
  obtain ⟨hon, htyp, -, -, hd⟩ := home_page hh
  have hcomp : s.computed (pgHOME h) Reg.HOME_STAT = none := by unfold State.computed; rw [htyp]; rfl
  have hwo : homeStat.accMask .wo = 0 := by decide
  rw [State.regValue, if_neg (by decide), if_neg (by simp [pageOff_of_always_on hon]), hd]
  dsimp only
  rw [hcomp, hwo]
  exact Nat.and_two_pow_sub_one_of_lt_two_pow (reg_lt ..)

end Sys2Proof.Proofs
end

section
/-! ### One bit written through a word of its own, and the obligation (R68, R70, R71, R82, R83) -/

namespace Sys2Proof.Proofs

open Sys2Proof Sys2Proof.Machine Sys2Proof.Safety

theorem pageRow_of_findReg {p off : Nat} {d : RegDef} (h : findReg p off = some d) : (pageRow p).isSome = true := by
  cases hr : pageRow p with
  | none => simp [findReg, hr] at h
  | some r => rfl

section
variable {s : State} {p off b : Nat} {d : RegDef} {f : FieldDef} (hon : s.pageOff p = false) (hd : findReg p off = some d)
  (hf : d.fields.find? (fun f => f.lo ≤ b && b ≤ f.hi) = some f)
include hon hd hf

/-- BIT_ALIAS_WRITE to an RW bit reaches the register as a write of that bit (R82). -/
theorem aliasWrite_rw (hacc : f.acc = .rw) (v smith : Bool) : s.aliasWrite p off b v smith = s.regWriteBits p off (2 ^ b) (b2n v * 2 ^ b) smith := by
  simp [State.aliasWrite, hon, hd, hf, hacc]

/-- BIT_ALIAS_WRITE to a status bit clears it with 0 (R83). -/
theorem aliasWrite_w1c (hacc : f.acc = .w1c) (v smith : Bool) :
    s.aliasWrite p off b v smith = if v then s else s.regWriteBits p off (2 ^ b) (2 ^ b) smith := by
  simp [State.aliasWrite, hon, hd, hf, hacc]

end

theorem timeCmpLo_field {b : Nat} (hb : b < 32) :
    ∃ f, timeCmpLo.fields.find? (fun f => f.lo ≤ b && b ≤ f.hi) = some f ∧ f.acc = .rw := by
  revert b; decide

theorem homeStat_field {b : Nat} (hb : b < 8) :
    ∃ f, homeStat.fields.find? (fun f => f.lo ≤ b && b ≤ f.hi) = some f ∧ f.acc = .w1c := by
  revert b; decide

theorem testBit_b2n_shift (v : Bool) (b : Nat) : (b2n v * 2 ^ b).testBit b = v := by
  cases v <;> simp [b2n, Nat.testBit_two_pow_self]

theorem aliasWrite_timeCmpLo (s : State) {b : Nat} (hb : b < 32) (v smith : Bool) :
    s.aliasWrite pgTIME Reg.TIME_CMP_LO b v smith = s.regWriteBits pgTIME Reg.TIME_CMP_LO (2 ^ b) (b2n v * 2 ^ b) smith := by
  obtain ⟨f, hf, hacc⟩ := timeCmpLo_field hb
  exact aliasWrite_rw (d := timeCmpLo) (pageOff_of_always_on (by decide) s) (by decide) hf hacc v smith

theorem aliasWrite_homeStat (s : State) {h b : Nat} (hh : h < 64) (hb : b < 8) (v smith : Bool) :
    s.aliasWrite (pgHOME h) Reg.HOME_STAT b v smith = if v then s else s.regWriteBits (pgHOME h) Reg.HOME_STAT (2 ^ b) (2 ^ b) smith := by
  obtain ⟨hon, -, -, -, hd⟩ := home_page hh
  obtain ⟨f, hf, hacc⟩ := homeStat_field hb
  exact aliasWrite_w1c (pageOff_of_always_on hon s) hd hf hacc v smith

/-- HOME_CFG is read-only: no write changes anything. -/
theorem regWriteBits_homeCfg (s : State) {h : Nat} (hh : h < 64) (m v : Nat) (smith : Bool) :
    s.regWriteBits (pgHOME h) Reg.HOME_CFG m v smith = s := by
  obtain ⟨hon, htyp, hd, -, -⟩ := home_page hh
  rw [regWriteBits_plain (by rw [htyp]; decide) (pageOff_of_always_on hon s) (by decide) hd, rwqMask_eq_zero (by decide),
    clearBits_of_no_status hd (by decide), storeFields_of_no_rw (by decide), Nat.and_zero, if_pos (by decide)]

/-- A write of bits of HOME_STAT clears the status bits written 1. -/
theorem regWriteBits_homeStat (s : State) {h : Nat} (hh : h < 64) (m v : Nat) (smith : Bool) :
    s.regWriteBits (pgHOME h) Reg.HOME_STAT m v smith = s.clearBits (pgHOME h) Reg.HOME_STAT (m &&& v) := by
  obtain ⟨hon, htyp, -, -, hd⟩ := home_page hh
  rw [regWriteBits_plain (by rw [htyp]; decide) (pageOff_of_always_on hon s) (by decide) hd, rwqMask_eq_zero (by decide),
    storeFields_of_no_rw (by decide), Nat.and_zero, if_pos (by decide)]

/-! #### Writes and reads by access type -/

theorem timeCmpLo_write {s : State} (hs : s.off = false) (src : BitVec 8) (data : Nat) :
    Answers (.registerWrite src pgTIME Reg.TIME_CMP_LO 4 data) s fun t =>
      t.reg pgTIME Reg.TIME_CMP_LO = data % 2 ^ 32 ∧ SameRegs [(pgTIME, Reg.TIME_CMP_LO)] s t ∧ t = { s with regs := t.regs } := by
  obtain ⟨t, ht, hval, hsame, hregs⟩ := regWriteBits_timeCmpLo s (m := 2 ^ 32 - 1) (data % 2 ^ 32) (src == nodeSmith) (by decide) (by decide)
  have hdone : s.ctlWrite src pgTIME Reg.TIME_CMP_LO 4 data = t := by rw [ctlWrite_word (by decide), State.write4, if_pos (by decide), ht]
  rw [masked_all (reg_lt s _ _), Nat.mod_mod] at hval
  exact answers_settle (by rw [exec_registerWrite (by decide) (by decide) hs, hdone]) hs (by rw [hregs]) (by rw [hregs]) (by rw [hregs])
    ⟨hval, hsame, hregs⟩

theorem homeCfg_write {s : State} (hs : s.off = false) (src : BitVec 8) {h : Nat} (hh : h < 64) (data : Nat) :
    Answers (.registerWrite src (pgHOME h) Reg.HOME_CFG 4 data) s fun t => t = s := by
  obtain ⟨-, -, hd, -, -⟩ := home_page hh
  have hdone : s.ctlWrite src (pgHOME h) Reg.HOME_CFG 4 data = s := by
    rw [ctlWrite_word (by decide), State.write4, if_pos (by decide), regWriteBits_homeCfg s hh]
  exact answers_settle (by rw [exec_registerWrite (pageRow_of_findReg hd) (by decide) hs, hdone]) hs rfl rfl rfl rfl

/-- What a read of HOME_STAT does beside its answer (R70, R71). -/
theorem readClears_homeStat (s : State) {h : Nat} (hh : h < 64) (m : Nat) (smith : Bool) (hm : m % 256 = 255) :
    ∃ t, s.readClears (pgHOME h) Reg.HOME_STAT m smith = t ∧
      (smith = true ∨ s.flag (pgHOME h) Fld.PAGE_CFG_CLRMODE = false → t = s) ∧
      (smith = false → s.flag (pgHOME h) Fld.PAGE_CFG_CLRMODE = true → t.reg (pgHOME h) Reg.HOME_STAT % 256 = 0) ∧
      SameRegs [(pgHOME h, Reg.HOME_STAT), (pgHOME h, Reg.HOME_SNP_TO_LOC)] s t ∧ t = { s with regs := t.regs } := by
  unfold State.readClears
  by_cases hskip : smith = true ∨ s.flag (pgHOME h) Fld.PAGE_CFG_CLRMODE = false
  · rw [if_pos (by simpa using hskip)]
    exact ⟨s, rfl, fun _ => rfl, fun hn hc => by rcases hskip with h | h <;> simp_all, sameRegs_refl _ s, rfl⟩
  · rw [if_neg (by simpa using hskip)]
    obtain ⟨t, ht, hval, hsame, hregs⟩ := clearBits_homeStat s hh (m &&& s.regValue (pgHOME h) Reg.HOME_STAT)
    refine ⟨t, ht, fun h => absurd h hskip, fun _ _ => ?_, hsame, hregs⟩
    rw [hval, regValue_homeStat s hh]
    set x := s.reg (pgHOME h) Reg.HOME_STAT
    have hlow : m &&& 0xFF = 0xFF := by rw [show 0xFF = 2 ^ 8 - 1 by rfl, Nat.and_two_pow_sub_one_eq_mod]; exact hm
    have hclr : x &&& (m &&& x &&& 0xFF) = x % 256 := by
      rw [Nat.and_right_comm, hlow, ← Nat.and_assoc, Nat.and_right_comm, Nat.and_self, show 0xFF = 2 ^ 8 - 1 by rfl, Nat.and_two_pow_sub_one_eq_mod]
    rw [hclr]; omega

theorem homeStat_read {s : State} (hs : s.off = false) (src : BitVec 8) {h : Nat} (hh : h < 64) (e : EccOutcome) :
    Answers (.statusClearingRead src (pgHOME h) Reg.HOME_STAT 4 e) s fun t =>
      t.readData.toNat = s.reg (pgHOME h) Reg.HOME_STAT ∧
      (src = nodeSmith ∨ s.flag (pgHOME h) Fld.PAGE_CFG_CLRMODE = false → t = { s with readData := t.readData }) ∧
      (src ≠ nodeSmith → s.flag (pgHOME h) Fld.PAGE_CFG_CLRMODE = true →
        t.reg (pgHOME h) Reg.HOME_STAT % 256 = 0 ∧
        SameRegs [(pgHOME h, Reg.HOME_STAT), (pgHOME h, Reg.HOME_SNP_TO_LOC)] s t ∧
        t = { s with regs := t.regs, readData := t.readData }) := by
  obtain ⟨-, -, -, -, hd⟩ := home_page hh
  have hne : pgHOME h ≠ pgFB := by unfold pgHOME pgFB; omega
  obtain ⟨t, ht, hkept, hclear, hsame, hregs⟩ := readClears_homeStat s hh (2 ^ 32 - 1) (src == nodeSmith) (by decide)
  have hval : bits (s.reg (pgHOME h) Reg.HOME_STAT) 0 32 = s.reg (pgHOME h) Reg.HOME_STAT := by
    rw [bits, Nat.pow_zero, Nat.div_one, Nat.mod_eq_of_lt (reg_lt ..)]
  have hdone := ctlRead_word (s := s) (p := pgHOME h) (off := Reg.HOME_STAT) (by decide) (by decide) hne src e
  rw [ht, regValue_homeStat s hh, hval] at hdone
  refine answers_settle (by rw [exec_statusClearingRead (pageRow_of_findReg hd) (by decide) hs, hdone]) hs (by rw [hregs])
    (by rw [hregs]) (by rw [hregs]) ⟨?_, fun hno => ?_, fun hsrc hrc => ?_⟩
  · have := reg_lt s (pgHOME h) Reg.HOME_STAT
    simp only [BitVec.toNat_ofNat]
    omega
  · rw [hkept (by simpa using hno)]
  · refine ⟨hclear (by simpa using hsrc) hrc, hsame, ?_⟩
    rw [hregs]

/-! #### Refused accesses (R62, R65) -/

theorem refused_write {s : State} {p off n : Nat} (hs : s.off = false) (hp : (pageRow p).isSome = true) (ho : off < 0xE000)
    (hn : n = 1 ∨ n = 2 ∨ (n = 4 ∧ off % 4 ≠ 0) ∨ (n = 8 ∧ off % 8 ≠ 0)) (src : BitVec 8) (data : Nat) :
    Answers (.registerWrite src p off n data) s fun t =>
      t.flag p Fld.PAGE_STAT_ACC_ERR = true ∧ SameRegs [(p, Reg.PAGE_STAT)] s t ∧
      t = { s with regs := t.regs, raised := s.raised ++ [srcAccErr], recs := t.recs } := by
  have hdone : s.ctlWrite src p off n data = s.accErr p src.toNat off (State.maskAt off n) := by
    simp [State.ctlWrite, not_writePermitted hn]
  obtain ⟨hflag, hsame, hst⟩ := accErr_sets s p src.toNat off (State.maskAt off n)
  exact answers_settle (by rw [exec_registerWrite hp ho hs, hdone]) hs (by rw [hst]) (by rw [hst]) (by rw [hst]) ⟨hflag, hsame, hst⟩

theorem dark_page_write {s : State} {p off : Nat} (hs : s.off = false) (hp : s.pageOff p = true) (hlo : 0x100 ≤ off) (hhi : off < 0xE000)
    (ha : off % 4 = 0) (src : BitVec 8) (data : Nat) :
    Answers (.registerWrite src p off 4 data) s fun t =>
      t.flag p Fld.PAGE_STAT_ACC_ERR = true ∧ SameRegs [(p, Reg.PAGE_STAT)] s t ∧ t = { s with regs := t.regs, raised := s.raised ++ [srcAccErr] } := by
  obtain ⟨hflag, hsame, hst⟩ := accErr0_sets s p
  exact answers_settle (by rw [exec_registerWrite (pageRow_of_pageOff hp) hhi hs, ctlWrite_word ha, write4_pageOff hp hlo])
    hs (by rw [hst]) (by rw [hst]) (by rw [hst]) ⟨hflag, hsame, hst⟩

theorem dark_page_read {s : State} {p off : Nat} (hs : s.off = false) (hp : s.pageOff p = true) (hlo : 0x100 ≤ off) (hhi : off < 0x4000)
    (ha : off % 4 = 0) (hc : s.flag p Fld.PAGE_CFG_CLRMODE = false) (src : BitVec 8) (e : EccOutcome) :
    Answers (.statusClearingRead src p off 4 e) s fun t => t = { s with readData := 0 } := by
  have hne : p ≠ pgFB := by
    rintro rfl
    rw [pageOff_of_always_on (by decide) s] at hp; cases hp
  have hval : s.regValue p off = 0 := by rw [State.regValue, if_neg (by omega), if_pos hp]
  have hdone : s.ctlRead src p off 4 e = { s with readData := 0 } := by
    rw [ctlRead_word ha hhi hne, hval, State.readClears, if_pos (by simp [hc])]; rfl
  exact answers_settle (t := { s with readData := 0 }) (by rw [exec_statusClearingRead (pageRow_of_pageOff hp) (by omega) hs, hdone]) hs rfl rfl rfl rfl

/-! #### BIT_ALIAS_WRITE (R82, R83) -/

theorem timeCmpLo_alias {s : State} (hs : s.off = false) (src : BitVec 8) {b : Nat} (hb : b < 32) (v : Bool) :
    Answers (.bitAliasWrite src pgTIME Reg.TIME_CMP_LO b v) s fun t =>
      (∀ j, j < 32 → bitN (t.reg pgTIME Reg.TIME_CMP_LO) j = if j = b then v else bitN (s.reg pgTIME Reg.TIME_CMP_LO) j) ∧
      SameRegs [(pgTIME, Reg.TIME_CMP_LO)] s t ∧ t = { s with regs := t.regs } := by
  obtain ⟨t, ht, hval, hsame, hregs⟩ := regWriteBits_timeCmpLo s (m := 2 ^ b) (b2n v * 2 ^ b) (src == nodeSmith) (by positivity)
    (Nat.pow_lt_pow_right (by decide) hb)
  refine answers_settle (by rw [exec_bitAliasWrite (by decide) (by decide) hb hs, aliasWrite_timeCmpLo s hb, ht]) hs (by rw [hregs]) (by rw [hregs])
    (by rw [hregs]) ⟨fun j _ => ?_, hsame, hregs⟩
  rw [hval, bitN_eq_testBit, bitN_eq_testBit, testBit_masked, Nat.testBit_two_pow]
  by_cases hj : j = b
  · subst hj; simp [testBit_b2n_shift]
  · simp [hj, Ne.symm hj]

theorem homeStat_alias_one {s : State} (hs : s.off = false) (src : BitVec 8) {h b : Nat} (hh : h < 64) (hb : b < 8) :
    Answers (.bitAliasWrite src (pgHOME h) Reg.HOME_STAT b true) s fun t => t = s := by
  obtain ⟨-, -, -, -, hd⟩ := home_page hh
  exact answers_settle (by rw [exec_bitAliasWrite (pageRow_of_findReg hd) (by decide) (by omega) hs, aliasWrite_homeStat s hh hb,
    if_pos rfl]) hs rfl rfl rfl rfl

theorem homeStat_alias_zero {s : State} (hs : s.off = false) (src : BitVec 8) {h b : Nat} (hh : h < 64) (hb : b < 8) :
    Answers (.bitAliasWrite src (pgHOME h) Reg.HOME_STAT b false) s fun t =>
      (∀ j, j < 8 → bitN (t.reg (pgHOME h) Reg.HOME_STAT) j = (bitN (s.reg (pgHOME h) Reg.HOME_STAT) j && j != b)) ∧
      SameRegs [(pgHOME h, Reg.HOME_STAT), (pgHOME h, Reg.HOME_SNP_TO_LOC)] s t ∧ t = { s with regs := t.regs } := by
  obtain ⟨-, -, -, -, hd⟩ := home_page hh
  obtain ⟨t, ht, hval, hsame, hregs⟩ := clearBits_homeStat s hh (2 ^ b &&& 2 ^ b)
  refine answers_settle (by rw [exec_bitAliasWrite (pageRow_of_findReg hd) (by decide) (by omega) hs, aliasWrite_homeStat s hh hb,
    if_neg (by decide), regWriteBits_homeStat s hh, ht]) hs (by rw [hregs]) (by rw [hregs]) (by rw [hregs]) ⟨fun j hj => ?_, hsame, hregs⟩
  have hlow : (0xFF : Nat).testBit j = true := by revert j; decide
  have hone := testBit_masked (s.reg (pgHOME h) Reg.HOME_STAT) (2 ^ b &&& 2 ^ b &&& 0xFF) 0 j
  rw [Nat.zero_and, Nat.add_zero] at hone
  rw [hval, bitN_eq_testBit, bitN_eq_testBit, hone, Nat.and_self, Nat.testBit_and, hlow, Nat.testBit_two_pow]
  by_cases hjb : j = b
  · simp [hjb]
  · simp [hjb, Ne.symm hjb]

/-- Settles O5: each access comes to the one write or clearing of its register, by the register's access types. -/
theorem registerAccesses : Obligations.RegisterAccesses := by
  unfold Obligations.RegisterAccesses
  exact ⟨⟨fun _ src data hs => timeCmpLo_write hs src data, fun _ src _ data e hs hh => ⟨homeCfg_write hs src hh data, homeStat_read hs src hh e⟩⟩,
    ⟨fun _ src _ _ _ data hs hp ho hn => refused_write hs hp ho hn src data,
      fun _ src _ _ data hs hp hlo hhi ha => dark_page_write hs hp hlo hhi ha src data,
      fun _ src _ _ e hs hp hlo hhi ha hc => dark_page_read hs hp hlo hhi ha hc src e⟩,
    ⟨fun _ src _ v hs hb => timeCmpLo_alias hs src hb v,
      fun _ src _ _ hs hh hb => ⟨homeStat_alias_one hs src hh hb, homeStat_alias_zero hs src hh hb⟩⟩⟩

end Sys2Proof.Proofs
end

section
/-! ### The apply edge with a pending route of a source that no router has (R94, R146) -/

namespace Sys2Proof.Proofs

open Sys2Proof Sys2Proof.Machine Sys2Proof.Safety

/-- The key of the route of source 256: its page, numbered as the others are, is the site page of site 0. -/
def strayRoute : Nat := routeKey 256 0

/-- A quench of group 2, the group of site 0, before its apply edge, 10 ns after reset, with that route alone pending. -/
def strayQuench : State :=
  { State.reset with time := 10, quench := { busy := true, gmask := 4 }, routesPend := [(strayRoute, 0)] }

theorem routePage_strayRoute : State.routePage strayRoute = pgSITE 0 := by decide

/-- The apply edge takes the site's page for one with pending meters, and fills its tokens up to now. -/
theorem quenchApply_strayQuench (t : State) (h : exec .quenchApply strayQuench = .next t) : (t.siteAt 0).tokens ≠ (strayQuench.siteAt 0).tokens := by
  have hrun : (match exec .quenchApply strayQuench with
    | .next u => (u.siteAt 0).tokens == (strayQuench.siteAt 0).tokens
    | _ => true) = false := by decide +kernel
  rw [h] at hrun
  simpa using hrun

/-- Refutes O8: in the clause of pending routes alone, a route of a source above 255 pending (no write leaves one) makes the apply edge
apply the meters of site 0, so `sites` changes too. The clause lacks the premise that pending routes are those of the six route pages. -/
theorem not_quenches : ¬ Obligations.Quenches := by
  unfold Obligations.Quenches
  rintro ⟨-, ⟨-, -, -, hroutes, -⟩, -⟩
  obtain ⟨t, ht, -, -, -, hrest⟩ := hroutes strayQuench rfl rfl rfl rfl rfl rfl (by decide) (by decide)
  refine quenchApply_strayQuench t ht ?_
  rw [hrest]; rfl

end Sys2Proof.Proofs
end

section
/-! ### An expired drop with a far read of a port that a group does not have (R385, R612) -/

namespace Sys2Proof.Proofs

open Sys2Proof Sys2Proof.Machine Sys2Proof.Safety

/-- A far read that waits on port 0x1FB9 of group 0. -/
def strayFarRead : MemRd := ⟨0x10000000000 / 64, 0, 0, false, 0, some (0, 0x1FB9)⟩

/-- Group 1 in DRAIN with its wait over and one posted write held, while that far read waits. -/
def strayDrop : State :=
  { State.reset.put pgPWR (Fld.DOM_STAT_STATE 44) 3 with
    time := 16000000
    groups := [{}, { pw := [(0, { op := 0x68, src := 8 })] }]
    mem := { State.reset.mem with rd := [strayFarRead] } }

/-- FM_RD_FAIL of that port of group 0, at its offset, is PW_DISC of group 1. -/
theorem domainDrainExpire_strayDrop (t : State) (h : exec (.domainDrainExpire 44) strayDrop = .next t) :
    t.get (pgPCIE 1) Fld.PW_DISC_COUNT = 2 := by
  have hrun : (match exec (.domainDrainExpire 44) strayDrop with
    | .next u => u.get (pgPCIE 1) Fld.PW_DISC_COUNT == 2
    | _ => false) = true := by decide +kernel
  rw [h] at hrun
  simpa using hrun

/-- Refutes O41: a far read waiting on a port number above 3 (no read names one) fails as its wait ends, and its failure is counted where
PW_DISC of the dropped group lies: 2 for the one write discarded. The clause lacks the premise that waiting far accesses name ports of a group. -/
theorem not_powerDomains : ¬ Obligations.PowerDomains := by
  unfold Obligations.PowerDomains
  rintro ⟨-, hdrops, -⟩
  obtain ⟨-, -, hdrain, -⟩ := hdrops strayDrop 44 rfl (by decide)
  obtain ⟨-, -, hexpire⟩ := hdrain (by decide +kernel) (by decide +kernel)
  obtain ⟨-, hover⟩ := hexpire 1 rfl (by decide) (by decide +kernel) (by decide +kernel)
  obtain ⟨t, ht, -, -, hcount, -⟩ := hover (by decide +kernel)
  rw [domainDrainExpire_strayDrop t ht] at hcount
  exact absurd hcount (by decide +kernel)

end Sys2Proof.Proofs
end

section
/-! ### The header of a unit as a number, and one bit of it turned (R108, R113) -/

namespace Sys2Proof.Proofs

open Sys2Proof Sys2Proof.Machine Sys2Proof.Safety

theorem b2n_lt_two (b : Bool) : b2n b < 2 := by cases b <;> decide

theorem bitN_of_b2n {n i : Nat} {b : Bool} (h : n / 2 ^ i % 2 = b2n b) : bitN n i = b := by
  unfold bitN; rw [h]; cases b <;> rfl

theorem ofNat_of_mod {w n : Nat} {x : BitVec w} (h : n % 2 ^ w = x.toNat) : BitVec.ofNat w n = x :=
  BitVec.eq_of_toNat_eq (by rw [BitVec.toNat_ofNat, h])

/-- The header of a unit gives its header fields back. -/
theorem pktOfHeader_headerNat (p : Pkt) : pktOfHeader (headerNat p) p.data p.mask = { p with dst := 0, inj := none, rpar := 0 } := by
  have hroute := p.route.isLt
  have hvc := p.vc.isLt
  have hop := p.op.isLt
  have hsrc := p.src.isLt
  have htxn := p.txn.isLt
  have haddr := p.addr.isLt
  have hcls := p.cls.isLt
  have hsize := p.size.isLt
  have hrsv := b2n_lt_two p.rsv
  have hpsn := b2n_lt_two p.psn
  have hna := b2n_lt_two p.na
  have hlast := b2n_lt_two p.last
  have hdata := b2n_lt_two p.hasData
  unfold pktOfHeader
  simp only [Pkt.mk.injEq, and_true]
  refine ⟨ofNat_of_mod ?_, ofNat_of_mod ?_, ofNat_of_mod ?_, ofNat_of_mod ?_, ofNat_of_mod ?_, ofNat_of_mod ?_, ofNat_of_mod ?_,
    bitN_of_b2n ?_, bitN_of_b2n ?_, bitN_of_b2n ?_, bitN_of_b2n ?_, bitN_of_b2n ?_, ofNat_of_mod ?_⟩ <;>
  · unfold headerNat; omega

/-- A header hit, over its header as a number. -/
theorem headerHit_of {p : Pkt} {h : Nat} (hh : headerNat p = h) (hecc route rpar : List Nat) : headerHit p hecc route rpar =
    { pktOfHeader (flipNat h ((hecc.filter (· < 88)).map (· + 40) ++ route.filter (· < 40))) p.data p.mask with
      dst := p.dst, inj := p.inj, rpar := BitVec.ofNat 10 (flipNat p.rpar.toNat (rpar.filter (· < 10))) } := by
  subst hh; rfl

/-- A header as a number of which nothing but the fields it holds is known. -/
theorem exists_header (p : Pkt) : ∃ h, headerNat p = h ∧ pktOfHeader h p.data p.mask = { p with dst := 0, inj := none, rpar := 0 } :=
  ⟨_, rfl, pktOfHeader_headerNat p⟩

theorem headerHit_none (p : Pkt) : headerHit p [] [] [] = p := by
  obtain ⟨h, hh, hp⟩ := exists_header p
  rw [headerHit_of hh]
  simp [flipNat, hp]

/-- The selector that a router consumes, of a header with one of its bits turned. -/
theorem routeHead_xor (h : Nat) {k : Nat} (hk : k < 4) :
    routeHead (BitVec.ofNat 40 (h ^^^ 2 ^ k)) = routeHead (BitVec.ofNat 40 h) ^^^ 2 ^ k := by
  have hlow : 2 ^ k < 2 ^ 4 := Nat.pow_lt_pow_right (by decide) hk
  have hhead : ∀ n, routeHead (BitVec.ofNat 40 n) = n % 2 ^ 4 := by
    intro n
    simp only [routeHead, BitVec.extractLsb'_toNat, BitVec.toNat_ofNat, Nat.shiftRight_zero]
    omega
  rw [hhead, hhead, Nat.xor_mod_two_pow, Nat.mod_eq_of_lt hlow]

theorem selParity_xor {v k : Nat} (hv : v < 16) (hk : k < 4) : selParity (v ^^^ 2 ^ k) = !selParity v := by
  have hall : ∀ v, v < 16 → ∀ k, k < 4 → selParity (v ^^^ 2 ^ k) = !selParity v := by decide
  exact hall v hv k hk

theorem routeHead_lt (r : BitVec 40) : routeHead r < 16 := (r.extractLsb' 0 4).isLt

/-- A turned bit of the selector that a router consumes shows in its parity (R113). -/
theorem parityGood_route_hit {p : Pkt} (hp : parityGood p = true) {k : Nat} (hk : k < 4) : parityGood (headerHit p [] [k] []) = false := by
  obtain ⟨h, hh, hfields⟩ := exists_header p
  have hroute : BitVec.ofNat 40 h = p.route := congrArg Pkt.route hfields
  have hfilter : [k].filter (· < 40) = [k] := by simp; omega
  simp only [parityGood, beq_iff_eq] at hp
  rw [headerHit_of hh]
  simp only [parityGood, pktOfHeader, hfilter, List.filter_nil, List.map_nil, List.nil_append, flipNat, List.foldl_cons, List.foldl_nil,
    BitVec.ofNat_toNat, BitVec.setWidth_eq]
  rw [routeHead_xor _ hk, hroute, selParity_xor (routeHead_lt _) hk, hp]
  cases p.rpar.getLsbD 0 <;> rfl

/-- So does a turned bit of the parity itself. -/
theorem parityGood_rpar_hit {p : Pkt} (hp : parityGood p = true) : parityGood (headerHit p [] [] [0]) = false := by
  obtain ⟨h, hh, hfields⟩ := exists_header p
  have hroute : BitVec.ofNat 40 h = p.route := congrArg Pkt.route hfields
  have hfilter : [0].filter (fun i => decide (i < 10)) = [0] := by decide
  simp only [parityGood, beq_iff_eq] at hp
  rw [headerHit_of hh]
  simp only [parityGood, pktOfHeader, hfilter, List.filter_nil, List.map_nil, List.append_nil, flipNat, List.foldl_cons, List.foldl_nil, hroute, hp,
    BitVec.getLsbD_ofNat, Nat.testBit_xor, BitVec.testBit_toNat]
  cases p.rpar.getLsbD 0 <;> rfl

end Sys2Proof.Proofs
end

section
/-! ### What the checks of a unit come to (R113, R114) -/

namespace Sys2Proof.Proofs

open Sys2Proof Sys2Proof.Machine Sys2Proof.Safety

/-! #### Code words -/

theorem secdedCheck_none : secdedCheck [] = (.good, []) := rfl

theorem secdedCheck_one (k : Nat) : secdedCheck [k] = (.corrected, []) := rfl

theorem secdedCheck_two {i j : Nat} (h : i ≠ j) : secdedCheck [i, j] = (.bad, [i, j]) := by
  have hdup : [i, j].eraseDups = [i, j] := eraseDups_of_nodup _ (by simpa using h)
  simp only [secdedCheck, hdup]; rfl

/-- One of the nine words of a data unit, with the bits of `words` wrong, comes to `k`. -/
def wordsShow (words : List (List Nat)) (k : Secded) : Bool := (List.range 9).any fun i => (secdedCheck (nthD words i [])).1 == k

theorem nthD_singleton_succ (l : List Nat) (i : Nat) : nthD [l] (i + 1) [] = [] := rfl

/-- With bits wrong in the first word alone, what is not good is what that word shows. -/
theorem wordsShow_first (l : List Nat) {k : Secded} (hk : k ≠ .good) : wordsShow [l] k = ((secdedCheck l).1 == k) := by
  have hclean : ((secdedCheck []).1 == k) = false := by cases k <;> trivial
  have hrest : ((List.range 8).map Nat.succ).any (fun i => (secdedCheck (nthD [l] i [])).1 == k) = false := by
    simp [nthD_singleton_succ, hclean]
  unfold wordsShow
  rw [List.range_succ_eq_map, List.any_cons, hrest, Bool.or_false]
  rfl

/-- No bit stays wrong in a data unit whose words are good or corrected. -/
theorem dataHit_of_right {p : Pkt} {words : List (List Nat)} (h : ∀ i, (secdedCheck (nthD words i [])).2 = []) : dataHit p words = p := by
  have hnone : (List.range 8).flatMap (fun _ => ([] : List Nat)) = [] := by decide
  simp [dataHit, h, flipNat, hnone]

/-! #### The header -/

/-- A unit whose HECC and SVC come right, or are corrected, and whose selector is good is received as it was sent. -/
theorem unitHit_kept {q : InFlight} (hp : ∀ r i, q.at_ = .rtr r i → parityGood q.p = true) {hecc : List Nat} (words : List (List Nat))
    (hbad : (secdedCheck hecc).1 ≠ .bad) (hleft : (secdedCheck hecc).2 = []) : unitHit q { hecc := hecc, words := words } = (q, false) := by
  unfold unitHit
  simp only [hleft, headerHit_none, Option.getD_none, bne_self_eq_false, Bool.or_false, Prod.mk.injEq, true_and, Bool.or_eq_false_iff, beq_eq_false_iff_ne]
  refine ⟨hbad, ?_⟩
  cases hq : q.at_ with
  | rtr r i => simp [hp r i hq]
  | _ => rfl

/-- The bits that make a header uncorrectable (R114). -/
inductive HeaderWrong (q : InFlight) : LaneErr → Prop where
  | hecc {i j : Nat} (h : i ≠ j) : HeaderWrong q { hecc := [i, j] }
  | svc {v : BitVec 3} (h : v ≠ q.p.vc) : HeaderWrong q { svc := some v }
  | rpar {r i : Nat} (h : q.at_ = .rtr r i) : HeaderWrong q { rpar := [0] }
  | route {r i k : Nat} (h : q.at_ = .rtr r i) (hk : k < 4) : HeaderWrong q { route := [k] }

theorem unitHit_lost {q : InFlight} (hp : ∀ r i, q.at_ = .rtr r i → parityGood q.p = true) {e : LaneErr} (h : HeaderWrong q e) :
    (unitHit q e).2 = true := by
  cases h with
  | hecc h => simp [unitHit, secdedCheck_two h]
  | svc h => simp [unitHit, secdedCheck_none, headerHit_none, h]
  | rpar h => simp [unitHit, secdedCheck_none, h, parityGood_rpar_hit (hp _ _ h)]
  | route h hk => simp [unitHit, secdedCheck_none, h, parityGood_route_hit (hp _ _ h) hk]

/-! #### The unit received -/

theorem map_replaced_self (l : List InFlight) (q : InFlight) : (l.map fun f => if f == q then q else f) = l := by
  conv_rhs => rw [← List.map_id l]
  refine List.map_congr_left fun f _ => ?_
  by_cases h : f = q <;> simp [h]

/-- A unit whose data words could not all be corrected, as it goes on (R114). -/
def poisoned (q : InFlight) (words : List (List Nat)) : InFlight := { q with p := { dataHit q.p words with psn := true } }

/-- The state in which that unit goes on, and its error is not yet recorded. -/
def poisonNoted (s : State) (router port : Nat) (q : InFlight) (words : List (List Nat)) : State :=
  (({ s with net := s.net.map fun f => if f = q then poisoned q words else f }).errLoc router port).status (pgFAB 7) Fld.ERR_STAT_DATA_UE (srcFAB 1)

section
variable {s : State} {q : InFlight} (hp : ∀ r i, q.at_ = .rtr r i → parityGood q.p = true) (router port : Nat)

theorem unitReceived_lost {e : LaneErr} (h : (unitHit q e).2 = true) :
    s.unitReceived q router port e = s.headerLost router port q (unitHit q e).1.p := by
  simp [State.unitReceived, h]

include hp

/-- With every wrong bit corrected the unit stays as it was, and what was corrected is noted. -/
theorem unitReceived_corrected {hecc : List Nat} {words : List (List Nat)} (hbad : (secdedCheck hecc).1 ≠ .bad) (hleft : (secdedCheck hecc).2 = [])
    (hwords : wordsShow words .bad = false) (hright : ∀ i, (secdedCheck (nthD words i [])).2 = []) :
    s.unitReceived q router port { hecc := hecc, words := words } =
      let s := if (secdedCheck hecc).1 == .corrected then s.status (pgFAB 7) Fld.ERR_STAT_HDR_CE (srcFAB 3) else s
      if q.p.hasData && wordsShow words .corrected then s.status (pgFAB 7) Fld.ERR_STAT_DATA_CE (srcFAB 4) else s := by
  unfold wordsShow at hwords ⊢
  simp only [State.unitReceived, unitHit_kept hp words hbad hleft, dataHit_of_right hright, hwords, Bool.and_false, ite_self,
    Bool.false_eq_true, if_false, map_replaced_self]

theorem unitReceived_clean : s.unitReceived q router port {} = s := by
  rw [unitReceived_corrected hp router port (hecc := []) (words := []) (by decide) rfl rfl fun _ => rfl]
  have hwords : wordsShow [] .corrected = false := rfl
  simp [hwords, secdedCheck_none]

theorem unitReceived_headerCorrected (k : Nat) :
    s.unitReceived q router port { hecc := [k] } = s.status (pgFAB 7) Fld.ERR_STAT_HDR_CE (srcFAB 3) := by
  rw [unitReceived_corrected hp router port (hecc := [k]) (words := []) (by simp [secdedCheck_one]) rfl rfl fun _ => rfl]
  have hwords : wordsShow [] .corrected = false := rfl
  simp [hwords, secdedCheck_one]

theorem unitReceived_dataCorrected (hd : q.p.hasData = true) (k : Nat) :
    s.unitReceived q router port { words := [[k]] } = s.status (pgFAB 7) Fld.ERR_STAT_DATA_CE (srcFAB 4) := by
  have hright : ∀ i, (secdedCheck (nthD [[k]] i [])).2 = []
    | 0 => rfl
    | _ + 1 => rfl
  rw [unitReceived_corrected hp router port (hecc := []) (words := [[k]]) (by decide) rfl rfl hright]
  have hwords : wordsShow [[k]] .corrected = true := by rw [wordsShow_first _ (by decide), secdedCheck_one]; rfl
  simp [secdedCheck_none, hwords, hd]

/-- With two bits wrong in a data word the unit goes on poisoned (R114). -/
theorem unitReceived_poisoned {i j : Nat} (hd : q.p.hasData = true) (hij : i ≠ j) :
    s.unitReceived q router port { words := [[i, j]] } =
      (poisonNoted s router port q [[i, j]]).recFab 2 1 (srcFAB 1) router port (poisoned q [[i, j]]).p := by
  have hbad : wordsShow [[i, j]] .bad = true := by rw [wordsShow_first _ (by decide), secdedCheck_two hij]; rfl
  have hcorrected : wordsShow [[i, j]] .corrected = false := by rw [wordsShow_first _ (by decide), secdedCheck_two hij]; rfl
  have hclean : ((secdedCheck []).1 == .corrected) = false := rfl
  unfold wordsShow at hbad hcorrected
  simp only [State.unitReceived, unitHit_kept hp [[i, j]] (hecc := []) (by decide) rfl, hd, hbad, hcorrected, hclean, Bool.and_self, Bool.and_false,
    Bool.false_eq_true, if_false, if_true, beq_iff_eq]
  rfl

end

end Sys2Proof.Proofs
end

section
/-! ### Units taken out of the fabric, and the errors they leave (R114, R117, R131, R679) -/

namespace Sys2Proof.Proofs

open Sys2Proof Sys2Proof.Machine Sys2Proof.Safety

/-! #### What each operation changes -/

theorem regsOnly_put {W : Nat → Nat → Prop} (s : State) (p v : Nat) (f : FRef) (ho : f.off < 0x10000) (hw : W p f.off) : RegsOnly W s (s.put p f v) :=
  regsOnly_setReg s p f.off _ ho hw

theorem status_regs (s : State) (p : Nat) (f : FRef) (src : Nat) : (s.status p f src).regs = (s.raise1 p f).regs := rfl

theorem flag_status_same {f : FRef} (s : State) (p src : Nat) (hw : f.width = 1) (hf : f.lo < 32) : (s.status p f src).flag p f = true := by
  rw [flag_of_regs (status_regs s p f src)]; exact flag_raise1_same s p f hw hf

theorem get_status_ne {p q : Nat} {f g : FRef} (s : State) (src : Nat) (h : regKey q g.off ≠ regKey p f.off) :
    (s.status p f src).get q g = s.get q g := by
  rw [get_of_regs (status_regs s p f src)]; exact get_put_ne s p q 1 f g h

theorem errLoc_eq (s : State) (router port : Nat) : ∃ regs, s.errLoc router port = { s with regs := regs } := by
  unfold State.errLoc
  split
  · exact ⟨s.regs, rfl⟩
  · exact ⟨_, rfl⟩

/-- The first uncorrected error is located (ERR_LOC). -/
theorem errLoc_located {s : State} (hv : s.flag (pgFAB 7) Fld.ERR_LOC_V = false) {router port : Nat} (hr : router < 128) (hp : port < 15) :
    (s.errLoc router port).get (pgFAB 7) Fld.ERR_LOC_RTR = router ∧ (s.errLoc router port).get (pgFAB 7) Fld.ERR_LOC_PORT = port := by
  let p := pgFAB 7
  have hrtr : ∀ t v, (State.put t p Fld.ERR_LOC_V v).get p Fld.ERR_LOC_RTR = t.get p Fld.ERR_LOC_RTR := fun t v =>
    get_put_beside t p v Fld.ERR_LOC_V Fld.ERR_LOC_RTR rfl (by decide) (.inl (by decide))
  have hrtr' : ∀ t v, (State.put t p Fld.ERR_LOC_PORT v).get p Fld.ERR_LOC_RTR = t.get p Fld.ERR_LOC_RTR := fun t v =>
    get_put_beside t p v Fld.ERR_LOC_PORT Fld.ERR_LOC_RTR rfl (by decide) (.inl (by decide))
  have hport : ∀ t v, (State.put t p Fld.ERR_LOC_V v).get p Fld.ERR_LOC_PORT = t.get p Fld.ERR_LOC_PORT := fun t v =>
    get_put_beside t p v Fld.ERR_LOC_V Fld.ERR_LOC_PORT rfl (by decide) (.inl (by decide))
  simp only [State.errLoc, hv, Bool.false_eq_true, if_false, State.raise1]
  rw [hrtr, hrtr', hport, get_put_same _ _ _ _ (by decide), get_put_same _ _ _ _ (by decide)]
  exact ⟨Nat.mod_eq_of_lt hr, Nat.mod_eq_of_lt (lt_trans hp (by decide))⟩

theorem recFab_eq (s : State) (cls sub src router port : Nat) (p : Pkt) :
    ∃ recs raised, s.recFab cls sub src router port p = { s with recs := recs, raised := raised } :=
  ⟨_, _, record_eq ..⟩

/-- A fatal error in the registers of EVT: FATAL, and the first source. -/
def fatalNoted (s : State) (src : Nat) : State :=
  let s := s.raise1 pgEVT Fld.EVT_STAT_FATAL
  if s.flag pgEVT Fld.EVT_FATAL_SRC_V then s else (s.put pgEVT Fld.EVT_FATAL_SRC_SOURCE src).raise1 pgEVT Fld.EVT_FATAL_SRC_V

theorem fatal_of_noted (s : State) (src : Nat) :
    s.fatal src = { fatalNoted s src with alert := { (fatalNoted s src).alert with fatal := true } } := rfl

theorem fatalNoted_eq (s : State) (src : Nat) : ∃ regs, fatalNoted s src = { s with regs := regs } := by
  unfold fatalNoted
  dsimp only
  split
  · exact ⟨_, rfl⟩
  · exact ⟨_, rfl⟩

theorem fatal_eq (s : State) (src : Nat) : ∃ regs alert, s.fatal src = { s with regs := regs, alert := alert } := by
  obtain ⟨_, hnoted⟩ := fatalNoted_eq s src
  rw [fatal_of_noted, hnoted]
  exact ⟨_, _, rfl⟩

/-- A fatal error sets FATAL, in registers of EVT alone (R679). -/
theorem fatalNoted_sets (s : State) (src : Nat) : (fatalNoted s src).flag pgEVT Fld.EVT_STAT_FATAL = true ∧
    RegsOnly (fun p _ => p = pgEVT) s (fatalNoted s src) := by
  have hset := flag_raise1_same s pgEVT Fld.EVT_STAT_FATAL rfl (by decide)
  have hraise : RegsOnly (fun p _ => p = pgEVT) s (s.raise1 pgEVT Fld.EVT_STAT_FATAL) := regsOnly_put _ _ _ _ (by decide) rfl
  have hother : regKey pgEVT Fld.EVT_STAT_FATAL.off ≠ regKey pgEVT Fld.EVT_FATAL_SRC_V.off := by decide
  unfold fatalNoted
  generalize s.raise1 pgEVT Fld.EVT_STAT_FATAL = t at hset hraise ⊢
  dsimp only
  split
  · exact ⟨hset, hraise⟩
  · refine ⟨?_, hraise.trans (.trans (regsOnly_put _ pgEVT src Fld.EVT_FATAL_SRC_SOURCE (by decide) rfl)
      (regsOnly_put _ pgEVT 1 Fld.EVT_FATAL_SRC_V (by decide) rfl))⟩
    rw [State.raise1, State.flag, get_put_ne _ _ _ _ _ _ hother, get_put_ne _ _ _ _ Fld.EVT_FATAL_SRC_SOURCE _ hother]
    exact hset

/-- It holds the package's alert besides. -/
theorem fatal_sets (s : State) (src : Nat) : (s.fatal src).flag pgEVT Fld.EVT_STAT_FATAL = true ∧ (s.fatal src).alert.fatal = true ∧
    RegsOnly (fun p _ => p = pgEVT) s (s.fatal src) := by
  obtain ⟨hflag, hregs⟩ := fatalNoted_sets s src
  rw [fatal_of_noted]
  exact ⟨(flag_of_regs rfl _ _).trans hflag, rfl, hregs.trans (.of_regs rfl)⟩

/-! #### Units that leave -/

theorem plucked_eq (s : State) (q : InFlight) : s.plucked q = { s with net := s.net.erase q, fab := (s.plucked q).fab } := by
  unfold State.plucked; dsimp only; split <;> rfl

/-- A unit in a queue gives the queue's credits back as it is taken out (R117). -/
theorem plucked_owed {q : InFlight} (h : (∃ r i, q.at_ = .rtr r i) ∨ q.at_ = .rx) (s : State) :
    (s.plucked q).fab.owed.length = s.fab.owed.length + 1 := by
  rcases h with ⟨r, i, h⟩ | h <;> simp [State.plucked, h, State.creditOwe]

/-- The state in which a unit with an uncorrectable header has left, and its error is not yet recorded. -/
def headerNoted (s : State) (router port : Nat) (q : InFlight) : State :=
  ((s.plucked q).errLoc router port).status (pgFAB 7) Fld.ERR_STAT_HDR_UE (srcFAB 0)

theorem headerNoted_eq (s : State) (router port : Nat) (q : InFlight) : ∃ regs raised, headerNoted s router port q =
    { s with regs := regs, raised := raised, net := s.net.erase q, fab := (s.plucked q).fab } := by
  obtain ⟨regs, hloc⟩ := errLoc_eq (s.plucked q) router port
  rw [headerNoted, status_eq, put_eq, hloc, plucked_eq]
  exact ⟨_, _, rfl⟩

theorem headerLost_of_noted (s : State) (router port : Nat) (q : InFlight) (p : Pkt) :
    s.headerLost router port q p = ((headerNoted s router port q).recFab 4 0 (srcFAB 0) router port p).fatal (srcFAB 0) := rfl

/-- A unit with an uncorrectable header leaves: nothing changes but the units in flight, the fabric's credits, registers, records and the alert. -/
theorem headerLost_eq (s : State) (router port : Nat) (q : InFlight) (p : Pkt) : ∃ regs raised recs alert, s.headerLost router port q p =
    { s with regs := regs, raised := raised, recs := recs, net := s.net.erase q, fab := (s.plucked q).fab, alert := alert } := by
  obtain ⟨_, _, hnoted⟩ := headerNoted_eq s router port q
  obtain ⟨recs, raised, hrec⟩ := recFab_eq (headerNoted s router port q) 4 0 (srcFAB 0) router port p
  obtain ⟨regs, alert, hfatal⟩ := fatal_eq ((headerNoted s router port q).recFab 4 0 (srcFAB 0) router port p) (srcFAB 0)
  rw [headerLost_of_noted, hfatal, hrec, hnoted]
  exact ⟨regs, raised, recs, alert, rfl⟩

/-- FAB[7] holds what it held as the error was noted. -/
theorem headerLost_get (s : State) (router port : Nat) (q : InFlight) (p : Pkt) {f : FRef} (hf : f.off < 0x10000) :
    (s.headerLost router port q p).get (pgFAB 7) f = (headerNoted s router port q).get (pgFAB 7) f := by
  obtain ⟨_, _, hrec⟩ := recFab_eq (headerNoted s router port q) 4 0 (srcFAB 0) router port p
  obtain ⟨-, -, hevt⟩ := fatal_sets ((headerNoted s router port q).recFab 4 0 (srcFAB 0) router port p) (srcFAB 0)
  rw [headerLost_of_noted, hevt.get hf (by decide)]
  exact get_of_regs (by rw [hrec]) _ _

theorem headerNoted_get (s : State) (router port : Nat) (q : InFlight) {f : FRef}
    (hf : regKey (pgFAB 7) f.off ≠ regKey (pgFAB 7) Fld.ERR_STAT_HDR_UE.off) :
    (headerNoted s router port q).get (pgFAB 7) f = ((s.plucked q).errLoc router port).get (pgFAB 7) f :=
  get_status_ne _ _ hf

/-- The error of such a unit is fatal (R114). -/
theorem headerLost_sets (s : State) (router port : Nat) (q : InFlight) (p : Pkt) :
    (s.headerLost router port q p).flag (pgFAB 7) Fld.ERR_STAT_HDR_UE = true ∧
    (s.headerLost router port q p).flag pgEVT Fld.EVT_STAT_FATAL = true ∧ (s.headerLost router port q p).alert.fatal = true := by
  obtain ⟨hflag, halert, -⟩ := fatal_sets ((headerNoted s router port q).recFab 4 0 (srcFAB 0) router port p) (srcFAB 0)
  refine ⟨?_, by rw [headerLost_of_noted]; exact hflag, by rw [headerLost_of_noted]; exact halert⟩
  rw [State.flag, headerLost_get _ _ _ _ _ (by decide)]
  exact flag_status_same _ _ _ rfl (by decide)

/-- The first such error is located. -/
theorem headerLost_located {s : State} (hv : s.flag (pgFAB 7) Fld.ERR_LOC_V = false) {router port : Nat} (hr : router < 128) (hp : port < 15)
    (q : InFlight) (p : Pkt) : (s.headerLost router port q p).get (pgFAB 7) Fld.ERR_LOC_RTR = router ∧
    (s.headerLost router port q p).get (pgFAB 7) Fld.ERR_LOC_PORT = port := by
  have hv : (s.plucked q).flag (pgFAB 7) Fld.ERR_LOC_V = false := by rw [flag_of_regs (s := s) (by rw [plucked_eq])]; exact hv
  rw [headerLost_get _ _ _ _ _ (by decide), headerLost_get _ _ _ _ _ (by decide), headerNoted_get _ _ _ _ (by decide), headerNoted_get _ _ _ _ (by decide)]
  exact errLoc_located hv hr hp

/-- A poisoned unit goes on: nothing changes but it, registers and the events raised. -/
theorem poisonNoted_eq (s : State) (router port : Nat) (q : InFlight) (words : List (List Nat)) : ∃ regs raised, poisonNoted s router port q words =
    { s with regs := regs, raised := raised, net := s.net.map fun f => if f = q then poisoned q words else f } := by
  obtain ⟨regs, hloc⟩ := errLoc_eq { s with net := s.net.map fun f => if f = q then poisoned q words else f } router port
  rw [poisonNoted, status_eq, put_eq, hloc]
  exact ⟨_, _, rfl⟩

/-! #### Units that are discarded -/

theorem discardUnit_of_op_lt {p : Pkt} (h : p.op.toNat < 0x68) (s : State) (cause : Nat) : s.discardUnit p cause = s.discardCount := by
  have hw : p.op ≠ 0x68#7 := by rintro hw; rw [hw] at h; exact absurd h (by decide)
  have hn : p.op ≠ 0x71#7 := by rintro hn; rw [hn] at h; exact absurd h (by decide)
  simp [State.discardUnit, State.writeLost, State.isDieWrite, hw, hn]

/-- A discard is counted, the counter stopping at its largest value (R131). -/
theorem discardCount_sets (s : State) :
    s.discardCount.get (pgFAB 7) Fld.DISCARD_COUNT = min (s.get (pgFAB 7) Fld.DISCARD_COUNT + 1) (2 ^ 32 - 1) ∧
    s.discardCount.flag (pgFAB 7) Fld.ERR_STAT_DISC = true := by
  refine ⟨?_, flag_status_same _ _ _ rfl (by decide)⟩
  have hstatus := get_status_ne (p := pgFAB 7) (q := pgFAB 7) (f := Fld.ERR_STAT_DISC) (g := Fld.DISCARD_COUNT)
    (s.count (pgFAB 7) Fld.DISCARD_COUNT) (srcFAB 2) (by decide)
  exact hstatus.trans (get_count_same s (pgFAB 7) 1 Fld.DISCARD_COUNT (by decide))

end Sys2Proof.Proofs
end

section
/-! ### UNIT_RECEIVE (R113, R114) -/

namespace Sys2Proof.Proofs

open Sys2Proof Sys2Proof.Machine Sys2Proof.Safety

theorem unitAt_inQueue {q : InFlight} {router port : Nat} (h : unitAt q router port = true) : (∃ r i, q.at_ = .rtr r i) ∨ q.at_ = .rx := by
  simp only [unitAt, Bool.or_eq_true, Bool.and_eq_true, decide_eq_true_eq] at h
  exact h.imp (fun h => ⟨_, _, h⟩) (·.1)

section
variable {s : State} {p : Pkt} {router port : Nat} {q : InFlight} (hs : s.off = false)
  (hq : s.net.find? (fun q => State.sameUnit q.p p && unitAt q router port) = some q)
include hs hq

theorem exec_unitReceive (e : LaneErr) : exec (.unitReceive p router port e) s = .next (s.settle (s.unitReceived q router port e)) := by
  change execUnitReceive p router port e s = _
  rw [execUnitReceive, act_on _ _ hs, hq]

/-- The command answers the unit received, where that leaves the package on and the queue and TIME alone. -/
theorem answers_unitReceive {e : LaneErr} {t : State} {P : State → Prop} (ht : s.unitReceived q router port e = t) (hoff : t.off = s.off)
    (hpend : t.pending = s.pending) (htime : t.time = s.time) (hP : P t) : Answers (.unitReceive p router port e) s P :=
  answers_settle (by rw [exec_unitReceive hs hq, ht]) hs hoff hpend htime hP

theorem unitReceive_lost {e : LaneErr} (hp : ∀ r i, q.at_ = .rtr r i → parityGood q.p = true) (he : HeaderWrong q e) :
    Answers (.unitReceive p router port e) s fun t =>
      t.flag (pgFAB 7) Fld.ERR_STAT_HDR_UE = true ∧ t.flag pgEVT Fld.EVT_STAT_FATAL = true ∧ t.alert.fatal = true ∧
      t.net = s.net.erase q ∧ t.fab.owed.length = s.fab.owed.length + 1 ∧
      (s.flag (pgFAB 7) Fld.ERR_LOC_V = false → router < 128 → port < 15 → t.get (pgFAB 7) Fld.ERR_LOC_RTR = router ∧
        t.get (pgFAB 7) Fld.ERR_LOC_PORT = port) ∧
      t = { s with regs := t.regs, raised := t.raised, recs := t.recs, net := t.net, fab := t.fab, alert := t.alert } := by
  have hat := (Bool.and_eq_true_iff.mp (List.find?_some (p := fun q => State.sameUnit q.p p && unitAt q router port) hq)).2
  obtain ⟨hflag, hfatal, halert⟩ := headerLost_sets s router port q (unitHit q e).1.p
  have hloc := fun hv hr hp => headerLost_located (s := s) hv (router := router) (port := port) hr hp q (unitHit q e).1.p
  obtain ⟨regs, raised, recs, alert, ht⟩ := headerLost_eq s router port q (unitHit q e).1.p
  rw [ht] at hflag hfatal halert
  simp only [ht] at hloc
  exact answers_unitReceive hs hq ((unitReceived_lost router port (unitHit_lost hp he)).trans ht) rfl rfl rfl
    ⟨hflag, hfatal, halert, rfl, plucked_owed (unitAt_inQueue hat) s, hloc, rfl⟩

section
variable (hp : ∀ r i, q.at_ = .rtr r i → parityGood q.p = true)
include hp

theorem unitReceive_clean : Answers (.unitReceive p router port {}) s fun t => t = s :=
  answers_unitReceive hs hq (unitReceived_clean hp router port) rfl rfl rfl rfl

theorem unitReceive_headerCorrected (k : Nat) : Answers (.unitReceive p router port { hecc := [k] }) s fun t =>
    t.flag (pgFAB 7) Fld.ERR_STAT_HDR_CE = true ∧ t = { s with regs := t.regs, raised := s.raised ++ [srcFAB 3] } :=
  answers_unitReceive hs hq (unitReceived_headerCorrected hp router port k) rfl rfl rfl ⟨flag_status_same _ _ _ rfl (by decide), status_eq ..⟩

theorem unitReceive_dataCorrected (hd : q.p.hasData = true) (k : Nat) : Answers (.unitReceive p router port { words := [[k]] }) s fun t =>
    t.flag (pgFAB 7) Fld.ERR_STAT_DATA_CE = true ∧ t = { s with regs := t.regs, raised := s.raised ++ [srcFAB 4] } :=
  answers_unitReceive hs hq (unitReceived_dataCorrected hp router port hd k) rfl rfl rfl ⟨flag_status_same _ _ _ rfl (by decide), status_eq ..⟩

theorem unitReceive_poisoned (hd : q.p.hasData = true) {i j : Nat} (hij : i ≠ j) : Answers (.unitReceive p router port { words := [[i, j]] }) s fun t =>
    t.flag (pgFAB 7) Fld.ERR_STAT_DATA_UE = true ∧
    (∃ q', q'.at_ = q.at_ ∧ q'.p.psn = true ∧ q'.p.txn = q.p.txn ∧ q'.p.op = q.p.op ∧ t.net = s.net.map fun f => if f = q then q' else f) ∧
    t = { s with regs := t.regs, raised := t.raised, recs := t.recs, net := t.net } := by
  obtain ⟨_, _, hnoted⟩ := poisonNoted_eq s router port q [[i, j]]
  obtain ⟨_, _, hrec⟩ := recFab_eq (poisonNoted s router port q [[i, j]]) 2 1 (srcFAB 1) router port (poisoned q [[i, j]]).p
  have hflag : (poisonNoted s router port q [[i, j]]).flag (pgFAB 7) Fld.ERR_STAT_DATA_UE = true := flag_status_same _ _ _ rfl (by decide)
  have ht := (unitReceived_poisoned hp router port hd hij).trans hrec
  rw [hnoted] at hflag ht
  exact answers_unitReceive hs hq ht rfl rfl rfl
    ⟨hflag, ⟨poisoned q [[i, j]], rfl, rfl, rfl, rfl, rfl⟩, rfl⟩
end

end
end Sys2Proof.Proofs
end

section
/-! ### Credits and injection (R116, R117, R121, R122, R131, R761) -/

namespace Sys2Proof.Proofs

open Sys2Proof Sys2Proof.Machine Sys2Proof.Safety

/-! #### Credits -/

theorem creditKey_ne (link vc : Nat) : creditKey link vc false ≠ creditKey link vc true := by
  simp [creditKey, b2n]

/-- A credit returned is held again: one header credit and, with data, one data credit (R117). -/
theorem creditGive_used (s : State) (link vc : Nat) (d : Bool) :
    Tab.getD (creditKey link vc false) 0 (s.creditGive link vc d).fab.used = Tab.getD (creditKey link vc false) 0 s.fab.used - 1 ∧
    Tab.getD (creditKey link vc true) 0 (s.creditGive link vc d).fab.used = Tab.getD (creditKey link vc true) 0 s.fab.used - b2n d := by
  have hne := creditKey_ne link vc
  cases d <;> simp [State.creditGive, Tab.getD_putD_ne hne, Tab.getD_putD_ne hne.symm, b2n]

/-- A packet sent consumes one header credit (R116). -/
theorem creditTake_used (s : State) (link vc : Nat) (d : Bool) :
    Tab.getD (creditKey link vc false) 0 (s.creditTake link vc d).fab.used = Tab.getD (creditKey link vc false) 0 s.fab.used + 1 := by
  cases d <;> simp [State.creditTake, Tab.getD_putD_ne (creditKey_ne link vc)]

theorem exec_creditReturn {s : State} {link vc : Nat} {d : Bool} {rest : List (Nat × Nat × Bool)} (hs : s.off = false)
    (h : s.fab.owed = (link, vc, d) :: rest) :
    exec .creditReturn s = .next (s.settle (({ s with fab := { s.fab with owed := rest } }).creditGive link vc d)) := by
  change execCreditReturn s = _
  rw [execCreditReturn, act_on _ _ hs, h]

theorem creditReturn_oldest {s : State} {link vc : Nat} {d : Bool} {rest : List (Nat × Nat × Bool)} (hs : s.off = false)
    (h : s.fab.owed = (link, vc, d) :: rest) : Answers .creditReturn s fun t => t.fab.owed = rest ∧
      Tab.getD (creditKey link vc false) 0 t.fab.used = Tab.getD (creditKey link vc false) 0 s.fab.used - 1 ∧
      Tab.getD (creditKey link vc true) 0 t.fab.used = Tab.getD (creditKey link vc true) 0 s.fab.used - b2n d ∧
      t = { s with fab := t.fab } := by
  obtain ⟨hheader, hdata⟩ := creditGive_used { s with fab := { s.fab with owed := rest } } link vc d
  exact answers_settle (exec_creditReturn hs h) hs rfl rfl rfl ⟨rfl, hheader, hdata, rfl⟩

/-! #### Injection -/

theorem exec_packetInject (s : State) (p : Pkt) : exec (.packetInject p) s = s.act (·.inject p) := rfl

theorem injected_eq (s : State) (p : Pkt) : s.injected p =
    { p with route := BitVec.ofNat 40 (s.route p.by.toNat p.dst.toNat), rpar := rparOf (BitVec.ofNat 40 (s.route p.by.toNat p.dst.toNat)),
             cls := if 1 ≤ p.op.toNat ∧ p.op.toNat ≤ 8 then s.classOf p.src else p.cls } := by
  simp only [State.injected, Bool.and_eq_true, decide_eq_true_eq]

section
variable {s : State} {e : InFlight} (hs : s.off = false) (hold : s.fab.hold = false)
  (hnext : s.net.find? (fun f => s.waitsOut f && f.p.by == e.p.by && f.p.vc == e.p.vc) = some e) (hop : e.p.op.toNat < 0x68)
  (hfind : s.net.find? (fun f => s.waitsOut f && State.sameUnit f.p e.p) = some e)

/-- A unit below the device opcodes waits for no device request (R269). -/
theorem devMayInject_of_op_lt {p : Pkt} (h : p.op.toNat < 0x68) (before : List InFlight) : s.devMayInject p before = true := by
  have hp : p.op ≠ 0x68#7 := by rintro hp; rw [hp] at h; exact absurd h (by decide)
  have hr : p.op ≠ 0x70#7 := by rintro hr; rw [hr] at h; exact absurd h (by decide)
  have hw : p.op ≠ 0x71#7 := by rintro hw; rw [hw] at h; exact absurd h (by decide)
  simp [State.devMayInject, isPosted, isNonPosted, hp, hr, hw]

include hold hnext hop hfind

/-- The oldest unit of its VC, toward an assigned node by a valid route and with credit, enters the fabric (R122). -/
theorem inject_enters (ha : nodeAssigned e.p.dst.toNat = true) (hroute : bitN (s.route e.p.by.toNat e.p.dst.toNat) 40 = true)
    (hcredit : s.creditFree (injectLink e.p.by e.p.vc.toNat) e.p.vc.toNat e.p.hasData = true) :
    s.inject e.p = ({ s with net := s.net.erase e ++ [⟨s.injected e.p, .rtr (injectPort e.p.by e.p.vc.toNat).1 (injectPort e.p.by e.p.vc.toNat).2, s.time⟩] }
      : State).creditTake (injectLink e.p.by e.p.vc.toNat) e.p.vc.toNat e.p.hasData := by
  simp [State.inject, hfind, State.nextOut, hnext, hold, devMayInject_of_op_lt hop, ha, hroute, hcredit]

/-- The record of a discard toward a node that no agent has (R761). -/
def unassignedRec (p : Pkt) : Rec :=
  { typ := 0x09, cls := 3, source := srcFAB 2, page := pgFAB 7, node := p.src.toNat, opcode := p.op.toNat, sub := 3, words := [p.dst.toNat] }

/-- Toward a node that no agent has it is consumed, counted and recorded (R761). -/
theorem inject_unassigned (ha : nodeAssigned e.p.dst.toNat = false) :
    s.inject e.p = (({ s with net := s.net.erase e } : State).discardCount).record (unassignedRec e.p) := by
  simp [State.inject, hfind, State.nextOut, hnext, hold, devMayInject_of_op_lt hop, ha, discardUnit_of_op_lt hop, unassignedRec]

include hs

theorem packetInject_enters (ha : nodeAssigned e.p.dst.toNat = true) (hroute : bitN (s.route e.p.by.toNat e.p.dst.toNat) 40 = true)
    (hcredit : s.creditFree (injectLink e.p.by e.p.vc.toNat) e.p.vc.toNat e.p.hasData = true) : Answers (.packetInject e.p) s fun t =>
      t.net = s.net.erase e ++ [⟨s.injected e.p, .rtr (injectPort e.p.by e.p.vc.toNat).1 (injectPort e.p.by e.p.vc.toNat).2, s.time⟩] ∧
      Tab.getD (creditKey (injectLink e.p.by e.p.vc.toNat) e.p.vc.toNat false) 0 t.fab.used =
        Tab.getD (creditKey (injectLink e.p.by e.p.vc.toNat) e.p.vc.toNat false) 0 s.fab.used + 1 ∧
      t = { s with net := t.net, fab := t.fab } :=
  answers_act (exec_packetInject s e.p) hs (inject_enters hold hnext hop hfind ha hroute hcredit) rfl rfl rfl
    ⟨rfl, creditTake_used _ _ _ _, rfl⟩

theorem packetInject_unassigned (ha : nodeAssigned e.p.dst.toNat = false) : Answers (.packetInject e.p) s fun t => t.net = s.net.erase e ∧
    t.get (pgFAB 7) Fld.DISCARD_COUNT = min (s.get (pgFAB 7) Fld.DISCARD_COUNT + 1) (2 ^ 32 - 1) ∧
    t.flag (pgFAB 7) Fld.ERR_STAT_DISC = true ∧ t.fab = s.fab := by
  obtain ⟨hcount, hdisc⟩ := discardCount_sets { s with net := s.net.erase e }
  have hstep := inject_unassigned hold hnext hop hfind ha
  rw [record_eq] at hstep
  exact answers_act (exec_packetInject s e.p) hs hstep rfl rfl rfl ⟨rfl, hcount, hdisc, rfl⟩

end

/-! #### Units at agents that cannot accept them (R131) -/

theorem exec_packetToAbsentAgent (s : State) (p : Pkt) : exec (.packetToAbsentAgent p) s = s.act (·.absentDiscard p) := rfl

section
variable {s : State} {e : InFlight} (hfind : s.net.find? (fun f => State.sameUnit f.p e.p) = some e) (hat : e.at_ = .rx)
include hfind hat

/-- A unit that no other of its queue stands beside is the oldest there (R121). -/
theorem arrived_alone (honly : ∀ f ∈ s.net, f.at_ = .rx → f.p.vc = e.p.vc → f.p.dst = e.p.dst → f = e) : s.arrived e.p = true := by
  have hmem : e ∈ s.queueOf e := by simp [State.queueOf, List.mem_of_find?_eq_some hfind]
  have hall : ∀ f ∈ s.queueOf e, f = e := by
    intro f hf
    simp only [State.queueOf, hat, List.mem_filter, Bool.and_eq_true, decide_eq_true_eq, beq_iff_eq, decide_true, Bool.not_true, Bool.or_false] at hf
    exact honly f hf.1 hf.2.1.1 hf.2.1.2 hf.2.2
  have hhead : (s.queueOf e).head? = some e := by
    obtain ⟨f, l, hl⟩ := List.exists_cons_of_ne_nil (List.ne_nil_of_mem hmem)
    rw [hl, List.head?_cons, hall f (by simp [hl])]
  simp [State.arrived, hfind, hat, hhead]

/-- A unit consumed at an interface owes its sender the credits of its queue (R117). -/
theorem consume_rx : s.consume e.p = { s with
    net := s.net.erase e
    fab := { s.fab with owed := s.fab.owed ++ [(State.exitLink e.p.dst e.p.vc, e.p.vc.toNat, e.p.hasData)] } } := by
  simp [State.consume, hfind, hat]

theorem packetToAbsentAgent_discards (hs : s.off = false) (habs : s.absentNode e.p.dst = true)
    (honly : ∀ f ∈ s.net, f.at_ = .rx → f.p.vc = e.p.vc → f.p.dst = e.p.dst → f = e) (hop : e.p.op.toNat < 0x68) :
    Answers (.packetToAbsentAgent e.p) s fun t => t.net = s.net.erase e ∧
      t.get (pgFAB 7) Fld.DISCARD_COUNT = min (s.get (pgFAB 7) Fld.DISCARD_COUNT + 1) (2 ^ 32 - 1) ∧
      t.flag (pgFAB 7) Fld.ERR_STAT_DISC = true ∧ t.fab.owed.length = s.fab.owed.length + 1 := by
  have hstep : s.absentDiscard e.p = (s.consume e.p).discardCount := by
    simp [State.absentDiscard, habs, arrived_alone hfind hat honly, discardUnit_of_op_lt hop]
  obtain ⟨hcount, hdisc⟩ := discardCount_sets (s.consume e.p)
  rw [consume_rx hfind hat] at hstep hcount hdisc
  exact answers_act (exec_packetToAbsentAgent s e.p) hs hstep rfl rfl rfl ⟨rfl, hcount, hdisc, by simp [State.discardCount]⟩

end
end Sys2Proof.Proofs
end

section
/-! ### The arbitration of a router's outputs (R134 to R141) -/

namespace Sys2Proof.Proofs

open Sys2Proof Sys2Proof.Machine Sys2Proof.Safety

/-! #### Choosing among inputs -/

/-- The running maximum of a list lies above each of its values, and is one of them or where it started. -/
theorem foldl_max_spec (f : Nat → Nat) (l : List Nat) (a : Nat) :
    a ≤ l.foldl (fun a i => max a (f i)) a ∧ (∀ i ∈ l, f i ≤ l.foldl (fun a i => max a (f i)) a) ∧
    (l.foldl (fun a i => max a (f i)) a = a ∨ ∃ i ∈ l, f i = l.foldl (fun a i => max a (f i)) a) := by
  induction l generalizing a with
  | nil => simp
  | cons b l ih =>
    obtain ⟨hge, hall, hattained⟩ := ih (max a (f b))
    rw [List.foldl_cons]
    refine ⟨le_trans (le_max_left ..) hge, ?_, ?_⟩
    · rintro i hi
      rcases List.mem_cons.mp hi with rfl | hi
      · exact le_trans (le_max_right ..) hge
      · exact hall i hi
    · rcases hattained with heq | ⟨i, hi, heq⟩
      · rcases max_choice a (f b) with hmax | hmax
        · exact .inl (heq.trans hmax)
        · exact .inr ⟨b, List.mem_cons_self .., (heq.trans hmax).symm⟩
      · exact .inr ⟨i, List.mem_cons_of_mem _ hi, heq⟩

/-- The class that wins an output: the highest of those that request it (R137). -/
def winningClass (s : State) (router : Nat) (reqs : List Nat) : Nat := reqs.foldl (fun a i => max a (s.portClass router i)) 0

theorem le_winningClass {s : State} {router i : Nat} {reqs : List Nat} (hi : i ∈ reqs) : s.portClass router i ≤ winningClass s router reqs :=
  (foldl_max_spec _ _ _).2.1 i hi

theorem winningClass_attained {s : State} {router i : Nat} {reqs : List Nat} (hi : i ∈ reqs) :
    ∃ j ∈ reqs, s.portClass router j = winningClass s router reqs := by
  have hle := le_winningClass (s := s) (router := router) hi
  rcases (foldl_max_spec (s.portClass router) reqs 0).2.2 with h0 | h
  · refine ⟨i, hi, ?_⟩
    change winningClass s router reqs = 0 at h0
    omega
  · exact h

/-- The first of some inputs at or after a pointer, round the ring of 15 ports. -/
def firstFrom (p : Nat) (cand : List Nat) : Nat := ((((List.range 15).map fun d => (p + d) % 15).find? fun i => cand.contains i)).getD 0

/-- It is one of them, and no other of them stands between it and the pointer. -/
theorem firstFrom_spec (p : Nat) {cand : List Nat} {i : Nat} (hi : i ∈ cand) (hlt : ∀ j ∈ cand, j < 15) :
    firstFrom p cand ∈ cand ∧ ∀ j ∈ cand, (firstFrom p cand + 15 - p % 15) % 15 ≤ (j + 15 - p % 15) % 15 := by
  have hturn : ∀ j ∈ cand, (j + 15 - p % 15) % 15 < 15 ∧ (p + (j + 15 - p % 15) % 15) % 15 = j := fun j hj => by
    have := hlt j hj; omega
  have hfound : ((List.range 15).find? fun d => cand.contains ((p + d) % 15)).isSome = true := by
    rw [List.find?_isSome]
    obtain ⟨hd, heq⟩ := hturn i hi
    exact ⟨_, List.mem_range.mpr hd, by rw [heq]; simpa using hi⟩
  obtain ⟨d, hd⟩ := Option.isSome_iff_exists.mp hfound
  have hfirst : firstFrom p cand = (p + d) % 15 := by
    unfold firstFrom
    rw [List.find?_map]
    simp only [Function.comp_def, hd, Option.map_some, Option.getD_some]
  obtain ⟨hmem, hrange, hbefore⟩ := List.find?_range_eq_some.mp hd
  have hd15 := List.mem_range.mp hrange
  rw [hfirst]
  refine ⟨by simpa using hmem, fun j hj => ?_⟩
  obtain ⟨hlt', heq⟩ := hturn j hj
  by_contra hless
  have := hbefore ((j + 15 - p % 15) % 15) (by omega)
  rw [heq] at this
  simp [hj] at this

/-! #### The decision for one output (R137) -/

theorem decideOutput_none (s : State) (router o : Nat) : Tab.get? (router * 16 + o) (s.decideOutput router o []).fab.grant = none := by
  simp [State.decideOutput]

/-- A requested output is granted the first input of the winning class at or after that class's pointer. -/
theorem decideOutput_grant (s : State) (router o : Nat) {reqs : List Nat} (hne : reqs ≠ []) :
    Tab.get? (router * 16 + o) (s.decideOutput router o reqs).fab.grant =
      some (firstFrom (Tab.getD ((router * 16 + o) * 4 + winningClass s router reqs) (0, 0) s.fab.ptr).1
        (reqs.filter fun i => s.portClass router i == winningClass s router reqs)) := by
  obtain ⟨i, l, rfl⟩ := List.exists_cons_of_ne_nil hne
  exact Tab.get?_put_same _ _ _

theorem portClass_lt (s : State) (router i : Nat) : s.portClass router i < 4 := Nat.mod_lt _ (by decide)

/-- From `s` to `t` nothing that decides output `o` of a router changes: the classes of the inputs and the output's pointers. -/
structure KeepsDecider (router o : Nat) (s t : State) : Prop where
  off : t.off = s.off
  weights : t.weights = s.weights
  base : t.routeBase = s.routeBase
  ptr : ∀ c, c < 4 → Tab.getD ((router * 16 + o) * 4 + c) (0, 0) t.fab.ptr = Tab.getD ((router * 16 + o) * 4 + c) (0, 0) s.fab.ptr

section
variable {router o : Nat} {s t u : State}

theorem KeepsDecider.refl (s : State) : KeepsDecider router o s s := ⟨rfl, rfl, rfl, fun _ _ => rfl⟩

theorem KeepsDecider.trans (h : KeepsDecider router o s t) (k : KeepsDecider router o t u) : KeepsDecider router o s u :=
  ⟨k.off.trans h.off, k.weights.trans h.weights, k.base.trans h.base, fun c hc => (k.ptr c hc).trans (h.ptr c hc)⟩

/-- A state that shares what decides outputs. -/
theorem KeepsDecider.of_eq (hoff : t.off = s.off) (hw : t.weights = s.weights) (hb : t.routeBase = s.routeBase) (hp : t.fab.ptr = s.fab.ptr) :
    KeepsDecider router o s t := ⟨hoff, hw, hb, fun c _ => by rw [hp]⟩

theorem KeepsDecider.portClass (h : KeepsDecider router o s t) (r i : Nat) : t.portClass r i = s.portClass r i := by
  simp [State.portClass, State.weight, State.baseSet, h.weights, h.base]

theorem decideOutput_off (s : State) (router o : Nat) (reqs : List Nat) : (s.decideOutput router o reqs).off = s.off := by
  cases reqs <;> rfl

/-- The decision for one output leaves what decides another, and its grant. -/
theorem decideOutput_other (s : State) (router : Nat) {o o' : Nat} (hne : o' ≠ o) (reqs : List Nat) :
    KeepsDecider router o s (s.decideOutput router o' reqs) ∧
    Tab.get? (router * 16 + o) (s.decideOutput router o' reqs).fab.grant = Tab.get? (router * 16 + o) s.fab.grant := by
  have hgrant : router * 16 + o ≠ router * 16 + o' := by omega
  cases reqs with
  | nil => exact ⟨.of_eq rfl rfl rfl rfl, Tab.get?_del_ne hgrant _⟩
  | cons i l =>
    obtain ⟨j, -, hj⟩ := winningClass_attained (s := s) (router := router) (List.mem_cons_self (a := i) (l := l))
    have hc := portClass_lt s router j
    refine ⟨⟨rfl, rfl, rfl, fun c hc' => ?_⟩, Tab.get?_put_ne hgrant _ _⟩
    exact Tab.getD_putD_ne (by change _ ≠ (router * 16 + o') * 4 + winningClass s router (i :: l); omega) _ _ _

/-- The decisions of a cycle: the grant of each output is decided from what decided it at the cycle's start. -/
theorem decisions_foldl (s : State) (router : Nat) (reqs : Nat → List Nat) {l : List Nat} (hl : l.Nodup) {o : Nat} (ho : o ∈ l) :
    ∃ t, KeepsDecider router o s t ∧
      Tab.get? (router * 16 + o) (l.foldl (fun s o => s.decideOutput router o (reqs o)) s).fab.grant =
        Tab.get? (router * 16 + o) (t.decideOutput router o (reqs o)).fab.grant := by
  obtain ⟨l₁, l₂, rfl⟩ := List.append_of_mem ho
  have hout : o ∉ l₁ ∧ o ∉ l₂ := by
    rw [List.nodup_append, List.nodup_cons] at hl
    exact ⟨fun h => hl.2.2 o h o (List.mem_cons_self ..) rfl, hl.2.1.1⟩
  rw [List.foldl_append, List.foldl_cons]
  refine ⟨l₁.foldl (fun s o => s.decideOutput router o (reqs o)) s, ?_, ?_⟩
  · exact foldl_keeps (KeepsDecider router o s) _ _ _ (.refl s) fun o' ho' t ht =>
      ht.trans (decideOutput_other t router (ne_of_mem_of_not_mem ho' hout.1) _).1
  · generalize (l₁.foldl (fun s o => s.decideOutput router o (reqs o)) s).decideOutput router o (reqs o) = u
    exact foldl_keeps (fun t : State => Tab.get? (router * 16 + o) t.fab.grant = Tab.get? (router * 16 + o) u.fab.grant) _ _ _ rfl fun o' ho' t ht =>
      ((decideOutput_other t router (ne_of_mem_of_not_mem ho' hout.2) _).2).trans ht

/-! #### The grants carried out (R134, R140) -/

theorem keepsDecider_bump (s : State) (p code q : Nat) (a b c : Option Nat) : KeepsDecider router o s (s.bump p code q a b c) := by
  rw [bump_eq]; exact .of_eq rfl rfl rfl rfl

theorem plucked_ptr (s : State) (q : InFlight) : (s.plucked q).fab.ptr = s.fab.ptr := by
  unfold State.plucked; dsimp only; split <;> rfl

theorem keepsDecider_routerTakes (s : State) (e : InFlight) : KeepsDecider router o s (s.routerTakes e) := by
  unfold State.routerTakes
  split
  · rename_i r i _
    split
    · exact .refl s
    · obtain ⟨_, _, _, _, hlost⟩ := headerLost_eq s r i e e.p
      rw [hlost]; exact .of_eq rfl rfl rfl (plucked_ptr s e)
  · exact .refl s

theorem keepsDecider_sendGranted (s : State) (r i o' : Nat) : KeepsDecider router o s (s.sendGranted r i o') := by
  unfold State.sendGranted
  dsimp only
  split
  · exact keepsDecider_bump ..
  · split
    · exact .refl s
    · refine .trans (.trans ?_ (keepsDecider_bump ..)) (keepsDecider_routerTakes ..)
      exact .of_eq rfl rfl rfl rfl

end

/-! #### OUTPUT_ARBITRATION -/

/-- The inputs that request an output at the start of a cycle (R136). -/
def requestsOf (s : State) (router o : Nat) : List Nat := (List.range 15).filter fun i => s.requests router i o

theorem mem_requestsOf {s : State} {router o i : Nat} : i ∈ requestsOf s router o ↔ i < 15 ∧ s.requests router i o = true := by
  simp [requestsOf]

/-- A cycle decides each output from its requests at the start, in a state that carrying out the grants leaves as it was to that end. -/
theorem arbitrate_decides (s : State) (router : Nat) : ∃ t, (∀ o, KeepsDecider router o s t) ∧
    s.arbitrate router = (List.range 15).foldl (fun u o => u.decideOutput router o (requestsOf s router o)) t := by
  unfold State.arbitrate
  rw [List.foldl_map]
  refine ⟨_, fun o => ?_, rfl⟩
  refine foldl_keeps (fun acc : State × List Nat => KeepsDecider router o s acc.1) _ _ _ (.refl s) fun o' _ acc hacc => ?_
  split
  · exact hacc
  · split
    · exact hacc.trans (keepsDecider_bump ..)
    · exact hacc.trans (keepsDecider_sendGranted ..)

theorem arbitrate_off (s : State) (router : Nat) : (s.arbitrate router).off = s.off := by
  obtain ⟨t, hk, harb⟩ := arbitrate_decides s router
  rw [harb]
  exact foldl_keeps (fun u : State => u.off = s.off) _ _ _ (hk 0).off fun o _ u hu => (decideOutput_off u router o _).trans hu

/-- The grant of an output after a cycle is the decision on its requests. -/
theorem arbitrate_grant (s : State) (router : Nat) {o : Nat} (ho : o < 15) : ∃ t, KeepsDecider router o s t ∧
    Tab.get? (router * 16 + o) (s.arbitrate router).fab.grant =
      Tab.get? (router * 16 + o) (t.decideOutput router o (requestsOf s router o)).fab.grant := by
  obtain ⟨t, hk, harb⟩ := arbitrate_decides s router
  obtain ⟨u, hu, hgrant⟩ := decisions_foldl t router (requestsOf s router) List.nodup_range (List.mem_range.mpr ho)
  exact ⟨u, (hk o).trans hu, harb ▸ hgrant⟩

theorem exec_outputArbitration (s : State) (router : Nat) : exec (.outputArbitration router) s = s.act (·.arbitrate router) := rfl

/-- What a grant is worth among the requests of its output (R137, R139). -/
theorem decideOutput_wins {s t : State} {router o : Nat} (hk : KeepsDecider router o s t) {reqs : List Nat} (hlt : ∀ i ∈ reqs, i < 15) {i : Nat} (hi : i ∈ reqs) :
    ∃ w, Tab.get? (router * 16 + o) (t.decideOutput router o reqs).fab.grant = some w ∧ w ∈ reqs ∧ s.portClass router i ≤ s.portClass router w ∧
      (s.portClass router i = s.portClass router w →
        let p := (Tab.getD ((router * 16 + o) * 4 + s.portClass router w) (0, 0) s.fab.ptr).1 % 15
        (w + 15 - p) % 15 ≤ (i + 15 - p) % 15) := by
  obtain ⟨j, hj, hclass⟩ := winningClass_attained (s := t) (router := router) hi
  have hcand : j ∈ reqs.filter fun i => t.portClass router i == winningClass t router reqs := by simp [hj, hclass]
  obtain ⟨hw, hfirst⟩ := firstFrom_spec (Tab.getD ((router * 16 + o) * 4 + winningClass t router reqs) (0, 0) t.fab.ptr).1 hcand
    fun k hk => hlt k (List.mem_filter.mp hk).1
  refine ⟨_, decideOutput_grant t router o (List.ne_nil_of_mem hi), (List.mem_filter.mp hw).1, ?_⟩
  have hwclass := beq_iff_eq.mp (List.mem_filter.mp hw).2
  have hle := le_winningClass (s := t) (router := router) hi
  rw [hk.portClass] at hwclass hle
  rw [hwclass]
  refine ⟨hle, fun heq => ?_⟩
  have hc : winningClass t router reqs < 4 := hclass ▸ portClass_lt t router j
  have hptr := hk.ptr _ hc
  rw [hptr] at hfirst ⊢
  exact hfirst i (by simp [hi, hk.portClass, heq])

theorem outputArbitration_decides {s : State} (hs : s.off = false) (router : Nat) :
    Answers (.outputArbitration router) s fun t => ∀ o, o < 15 →
      ((∀ i, i < 15 → s.requests router i o = false) → Tab.get? (router * 16 + o) t.fab.grant = none) ∧
      (∀ i, i < 15 → s.requests router i o = true → ∃ w, Tab.get? (router * 16 + o) t.fab.grant = some w ∧ w < 15 ∧
        s.requests router w o = true ∧ s.portClass router i ≤ s.portClass router w ∧
        (s.portClass router i = s.portClass router w →
          let p := (Tab.getD ((router * 16 + o) * 4 + s.portClass router w) (0, 0) s.fab.ptr).1 % 15
          (w + 15 - p) % 15 ≤ (i + 15 - p) % 15)) := by
  refine ⟨_, (exec_outputArbitration s router).trans (act_on s _ hs), fun o ho => ?_⟩
  rw [settle_on _ _ ((arbitrate_off s router).trans hs)]
  obtain ⟨t, hk, hgrant⟩ := arbitrate_grant s router ho
  dsimp only
  rw [hgrant]
  constructor
  · intro hnone
    have hempty : requestsOf s router o = [] := by
      rw [List.eq_nil_iff_forall_not_mem]
      intro i hi
      obtain ⟨hlt, hreq⟩ := mem_requestsOf.mp hi
      rw [hnone i hlt] at hreq; exact absurd hreq (by decide)
    rw [hempty, decideOutput_none]
  · intro i hi hreq
    obtain ⟨w, hw, hmem, hwins⟩ := decideOutput_wins hk (fun j hj => (mem_requestsOf.mp hj).1) (mem_requestsOf.mpr ⟨hi, hreq⟩)
    obtain ⟨hlt, hreqw⟩ := mem_requestsOf.mp hmem
    exact ⟨w, hw, hlt, hreqw, hwins⟩

end Sys2Proof.Proofs
end

section
/-! ### Units and credits of the fabric (R113 to R139) -/

namespace Sys2Proof.Proofs

open Sys2Proof Sys2Proof.Machine Sys2Proof.Safety

/-- Settles O9: a unit received by what its bits come to, credits and injection by their one step, arbitration output by output. -/
theorem fabricUnits : Obligations.FabricUnits := by
  unfold Obligations.FabricUnits
  refine ⟨?_, fun s link vc d rest hs howed => creditReturn_oldest hs howed, fun s router hs => outputArbitration_decides hs router, ?_, ?_⟩
  · intro s p router port q hs hq _ hgood
    refine ⟨unitReceive_clean hs hq hgood, fun k _ => unitReceive_headerCorrected hs hq hgood k,
      fun k hd _ => unitReceive_dataCorrected hs hq hgood hd k, fun e he => unitReceive_lost hs hq hgood ?_,
      fun i j hd hij _ _ => unitReceive_poisoned hs hq hgood hd hij⟩
    rcases he with ⟨i, j, hij, rfl⟩ | ⟨v, hv, rfl⟩ | ⟨⟨r, i, hat⟩, rfl⟩ | ⟨⟨r, i, hat⟩, k, hk, rfl⟩
    · exact .hecc hij
    · exact .svc hv
    · exact .rpar hat
    · exact .route hat hk
  · intro s e hs hold hnext hop hfind
    refine ⟨fun ha hroute hcredit => ?_, packetInject_unassigned hs hold hnext hop hfind⟩
    rw [← injected_eq]
    exact packetInject_enters hs hold hnext hop hfind ha hroute hcredit
  · exact fun s e hs hfind habs hat honly hop => packetToAbsentAgent_discards hfind hat hs habs honly hop

end Sys2Proof.Proofs
end

section
/-! ### What a side that frees link credits changes (R410, R411) -/

namespace Sys2Proof.Proofs

open Sys2Proof Sys2Proof.Machine Sys2Proof.Safety

/-- From `s` to `t` only link sides of a site and the registers of its LNK page change, and no side goes to another state. -/
structure LinkKept (site : Nat) (s t : State) : Prop where
  rest : t = { s with regs := t.regs, links := t.links }
  regs : RegsOnly (LnkPage site) s t
  others : ∀ a b e, b < 4 → a ≠ site → t.lk a b e = s.lk a b e
  st : ∀ a b e, (t.lk a b e).st = (s.lk a b e).st

section
variable {site m : Nat} {s t u : State}

theorem LinkKept.refl (s : State) : LinkKept site s s := ⟨rfl, .refl s, fun _ _ _ _ _ => rfl, fun _ _ _ => rfl⟩

theorem LinkKept.trans (h : LinkKept site s t) (k : LinkKept site t u) : LinkKept site s u :=
  ⟨by rw [k.rest, h.rest], h.regs.trans k.regs, fun a b e hb ha => (k.others a b e hb ha).trans (h.others a b e hb ha),
    fun a b e => (k.st a b e).trans (h.st a b e)⟩

theorem linkKey_site_inj {a b i m : Nat} {e f : LinkEnd} (hb : b < 4) (hm : m < 4) (h : linkKey a b e = linkKey i m f) : a = i := by
  cases e <;> cases f <;> simp only [linkKey] at h <;> omega

/-- A write of a register field after others leaves link sides and the rest of the machine. -/
theorem put_keeps_links {links : Tab LinkSide} (h : ∃ regs, t = { s with regs := regs, links := links }) (p : Nat) (f : FRef) (v : Nat) :
    ∃ regs, t.put p f v = { s with regs := regs, links := links } := by
  obtain ⟨_, rfl⟩ := h
  exact ⟨_, rfl⟩

theorem setLk_eq (s : State) (site m : Nat) (e : LinkEnd) (x : LinkSide) :
    s.setLk site m e x = { s with regs := (s.setLk site m e x).regs, links := Tab.putD {} (linkKey site m e) x s.links } := by
  have hside : ∃ regs, ({ s with links := Tab.putD {} (linkKey site m e) x s.links } : State) =
    { s with regs := regs, links := Tab.putD {} (linkKey site m e) x s.links } := ⟨s.regs, rfl⟩
  have h : ∃ regs, s.setLk site m e x = { s with regs := regs, links := Tab.putD {} (linkKey site m e) x s.links } := by
    unfold State.setLk
    cases e with
    | die => exact put_keeps_links hside _ _ _
    | hub =>
      iterate 8 refine put_keeps_links ?_ _ _ _
      exact hside
  obtain ⟨_, h⟩ := h
  rw [h]

theorem lk_setLk (s : State) (site m : Nat) (e : LinkEnd) (x : LinkSide) (a b : Nat) (f : LinkEnd) :
    (s.setLk site m e x).lk a b f = if linkKey a b f = linkKey site m e then x else s.lk a b f := by
  have hlinks : (s.setLk site m e x).lk a b f = Tab.getD (linkKey a b f) {} (Tab.putD {} (linkKey site m e) x s.links) := by
    rw [State.lk, setLk_eq]
  rw [hlinks]
  split
  · rename_i hk; rw [hk, Tab.getD_putD_same]
  · rename_i hk; rw [Tab.getD_putD_ne hk]; rfl

theorem linkKept_modLk (s : State) (hm : m < 4) (e : LinkEnd) (f : LinkSide → LinkSide) (hf : ∀ x, (f x).st = x.st) :
    LinkKept site s (s.modLk site m e f) := by
  refine ⟨?_, (bootFrame_setLk s site m e _ hm).regs, fun a b g hb ha => ?_, fun a b g => ?_⟩
  · unfold State.modLk
    rw [setLk_eq]
  · rw [State.modLk, lk_setLk, if_neg fun hk => ha (linkKey_site_inj hb hm hk)]
  · rw [State.modLk, lk_setLk]
    split
    · rename_i hk
      rw [hf]; unfold State.lk; rw [hk]
    · rfl

theorem linkKept_lmSend (s : State) (hm : m < 4) (e : LinkEnd) (code : Nat) (args : List Nat) : LinkKept site s (s.lmSend site m e code args) :=
  linkKept_modLk s hm e _ fun _ => rfl

theorem linkKept_ackFlush (hm : m < 4) (e : LinkEnd) (n : Nat) (s : State) : LinkKept site s (s.ackFlush site m e n) := by
  induction n generalizing s with
  | zero => exact .refl s
  | succ n ih =>
    unfold State.ackFlush
    dsimp only
    split
    · exact .refl s
    · split
      · exact .refl s
      · exact (linkKept_lmSend s hm e _ _).trans (ih _)

/-- Freed link credits are reported, and nothing else of the machine moves. -/
theorem linkKept_linkFree (s : State) (hm : m < 4) (e : LinkEnd) (p : Pkt) : LinkKept site s (s.linkFree site m e p) := by
  unfold State.linkFree State.modLink
  refine LinkKept.trans ?_ (linkKept_ackFlush hm e 4 _)
  exact linkKept_modLk s hm e _ fun _ => rfl

theorem LinkKept.linksOnly (h : LinkKept site s t) : LinksOnly site s t :=
  ⟨fun q off hq ho => h.regs q off ho hq, h.others⟩

theorem LinkKept.get (h : LinkKept site s t) {p : Nat} {f : FRef} (hp : p ≠ pgLNK site) (ho : f.off < 0x10000) : t.get p f = s.get p f :=
  h.regs.get ho hp

theorem LinkKept.flag (h : LinkKept site s t) {p : Nat} {f : FRef} (hp : p ≠ pgLNK site) (ho : f.off < 0x10000) : t.flag p f = s.flag p f :=
  h.regs.flag ho hp

end

end Sys2Proof.Proofs
end

section
/-! ### A die takes a unit that a module has delivered (R121, R407, R410) -/

namespace Sys2Proof.Proofs

open Sys2Proof Sys2Proof.Machine Sys2Proof.Safety

/-! #### Commands of a block in a power domain -/

theorem answers_dom {c : Instr} {s t : State} {f : State → State} {P : State → Prop} (hc : exec c s = s.actDom f) (hr : Running s)
    (ht : f s = t) (hoff : t.off = s.off) (hpend : t.pending = s.pending) (htime : t.time = s.time) (hP : P t) : Answers c s P := by
  obtain ⟨hs, hstop⟩ := hr
  exact answers_settle (by rw [hc, actDom_on s f hs hstop, ht]) hs hoff hpend htime hP

/-! #### Nodes of a die -/

section
variable {s : State} {p : Pkt}

theorem siteOf_lt {n : BitVec 8} (h : isDieNode n = true) : siteOf n < 16 := by
  simp only [isDieNode, decide_eq_true_eq] at h
  unfold siteOf; omega

theorem moduleOf_lt (n : BitVec 8) : moduleOf n < 4 := Nat.mod_lt _ (by decide)

theorem siteOf_nodeModule (site : Nat) {m : Nat} (hm : m < 4) : siteOf (nodeModule site m) = site % 64 := by
  simp only [siteOf, nodeModule, BitVec.toNat_ofNat]; omega

/-- A die names a module of its own site as its source (R434). -/
theorem siteOf_dieNode (s : State) {site m : Nat} (hs : site < 16) (hm : m < 4) : siteOf (s.dieNode site m) = site := by
  have hmod : ∀ k < 4, siteOf (nodeModule site k) = site := fun k hk => by rw [siteOf_nodeModule site hk, Nat.mod_eq_of_lt (by omega)]
  unfold State.dieNode
  split
  · apply hmod
    cases hf : [0, 1, 2, 3].find? fun k => !s.dieRetired site k with
    | none => exact hm
    | some k =>
      have := List.mem_of_find?_eq_some hf
      simp only [List.mem_cons, List.not_mem_nil, or_false] at this
      simp only [Option.getD_some]; omega
  · exact hmod m hm

theorem dieNode_of_st {s t : State} (h : ∀ a b e, (t.lk a b e).st = (s.lk a b e).st) (site m : Nat) : t.dieNode site m = s.dieNode site m := by
  have hret : ∀ k, t.dieRetired site k = s.dieRetired site k := fun k => congrArg (· == 7) (h site k .die)
  unfold State.dieNode
  simp only [hret]

theorem home_of_regsOnly {s t : State} {site : Nat} (h : RegsOnly (LnkPage site) s t) (hs : site < 16) (pa : Nat) : t.home pa = s.home pa := by
  unfold State.home State.quad
  rw [h.flag (by decide) (by simp only [LnkPage, pgLNK, pgHOME]; omega)]

/-! #### What the die's taking of a unit leaves -/

/-- The die has the unit: it leaves the units in flight, and its credits are freed on the site's links. -/
theorem linkKept_dieConsumes (ha : s.atDie p = true) : LinkKept (siteOf p.dst) { s with net := (s.dieConsumes p).net } (s.dieConsumes p) := by
  unfold State.atDie at ha
  unfold State.dieConsumes
  cases hf : s.net.find? fun e => State.sameUnit e.p p with
  | none => exact .refl s
  | some e =>
    rw [hf] at ha
    cases hat : e.at_ with
    | dlv i m =>
      simp only [hat, Bool.and_eq_true, beq_iff_eq, decide_eq_true_eq] at ha
      obtain ⟨⟨rfl, hm⟩, -⟩ := ha
      have h := linkKept_linkFree (site := siteOf p.dst) { s with net := s.net.erase e } hm .die p
      have hn : (({ s with net := s.net.erase e } : State).linkFree (siteOf p.dst) m .die p).net = s.net.erase e := by rw [h.rest]
      simp only [hat, hn]
      exact h
    | _ => simp [hat] at ha

theorem dieConsumes_eq (ha : s.atDie p = true) :
    s.dieConsumes p = { s with net := (s.dieConsumes p).net, regs := (s.dieConsumes p).regs, links := (s.dieConsumes p).links } :=
  (linkKept_dieConsumes ha).rest

theorem linksOnly_dieConsumes (ha : s.atDie p = true) : LinksOnly (siteOf p.dst) s (s.dieConsumes p) := (linkKept_dieConsumes ha).linksOnly

/-- A unit of the row's opcode that a die has is the die's (R121). -/
theorem dieRow_atDie {op : BitVec 7} (hop : p.op = op) (hd : isDieNode p.dst = true) (ha : s.atDie p = true) (f : State → State) :
    s.dieRow op p f = f s := by
  have hh : State.homeOfPkt p = none := by
    simp only [isDieNode, decide_eq_true_eq] at hd
    unfold State.homeOfPkt
    rw [if_neg (by simp; omega)]
  simp [State.dieRow, hop, hh, hd, ha]

theorem outEnd_eq (s : State) (p : Pkt) : s.outEnd p = { s with sites := (s.outEnd p).sites, regs := (s.outEnd p).regs } := by
  unfold State.outEnd; split <;> rfl

/-- A response that the die has taken: the dies, memory and the free values drawn are as before. -/
theorem dieTakes_eq (ha : s.atDie p = true) : s.dieTakes p = { s with
    net := (s.dieConsumes p).net, regs := (s.dieTakes p).regs, links := (s.dieConsumes p).links, sites := (s.dieTakes p).sites } := by
  unfold State.dieTakes
  rw [outEnd_eq, dieConsumes_eq ha]

end

/-! #### Blocks of the dies -/

theorem dieAt_modDie_same (s : State) {i : Nat} (f : Die → Die) (hi : i < 16) : (s.modDie i f).dieAt i = f (s.dieAt i) :=
  nthD_modOf_same _ _ _ _ _ hi

theorem dieAt_modDie_ne (s : State) {i k : Nat} (f : Die → Die) (hk : k ≠ i) : (s.modDie i f).dieAt k = s.dieAt k := nthD_modOf_ne _ _ _ _ hk

theorem dieAt_of_dies {s t : State} (h : t.dies = s.dies) (i : Nat) : t.dieAt i = s.dieAt i := by unfold State.dieAt; rw [h]

theorem dieLine_of_dies {s t : State} (h : t.dies = s.dies) (i l : Nat) : t.dieLine i l = s.dieLine i l := by
  unfold State.dieLine; rw [dieAt_of_dies h]

theorem otherLines_refl {site line : Nat} (s : State) : OtherLines site line s s := fun _ _ _ => rfl

theorem get?_upd {α : Type} (k j : Nat) (f : α → α) (t : Tab α) :
    Tab.get? j (Tab.upd k f t) = if j = k then (Tab.get? j t).map f else Tab.get? j t := by
  induction t with
  | nil => simp [Tab.upd]
  | cons e t ih =>
    obtain ⟨k', v⟩ := e
    simp only [Tab.upd]
    split
    · rename_i hk; subst hk
      simp only [Tab.get?, ih]
      by_cases hj : k' = j
      · simp [hj]
      · simp [hj, Ne.symm hj]
    · rename_i hk
      simp only [Tab.get?, ih]
      by_cases hj : k' = j
      · subst hj; simp [hk]
      · simp [hj]

section
variable {s : State} {site line : Nat}

theorem heldSnoops_modDie (hi : site < 16) {f : Die → Die} (hf : ∀ x, (f x).heldSnoops = x.heldSnoops) (i : Nat) :
    ((s.modDie site f).dieAt i).heldSnoops = (s.dieAt i).heldSnoops := by
  by_cases h : i = site
  · subst h; rw [dieAt_modDie_same _ _ hi, hf]
  · rw [dieAt_modDie_ne _ _ h]

theorem dieLine_modDie (hi : site < 16) {f : Die → Die} (hf : ∀ x, (f x).lines = x.lines) (i l : Nat) :
    (s.modDie site f).dieLine i l = s.dieLine i l := by
  unfold State.dieLine
  by_cases h : i = site
  · subst h; rw [dieAt_modDie_same _ _ hi, hf]
  · rw [dieAt_modDie_ne _ _ h]

/-- A change of the lines of a die at one line alone. -/
theorem otherLines_of_modDie {f : Die → Die} (hsame : (s.modDie site f).dieAt site = f (s.dieAt site))
    (hf : ∀ l, l ≠ line → Tab.get? l (f (s.dieAt site)).lines = Tab.get? l (s.dieAt site).lines) : OtherLines site line s (s.modDie site f) := by
  intro i l hne
  unfold State.dieLine
  by_cases h : i = site
  · subst h; rw [hsame, hf l (hne.resolve_left (· rfl))]
  · rw [dieAt_modDie_ne _ _ h]

theorem otherLines_modDie (hi : site < 16) {f : Die → Die} (hf : ∀ l, l ≠ line → Tab.get? l (f (s.dieAt site)).lines = Tab.get? l (s.dieAt site).lines) :
    OtherLines site line s (s.modDie site f) := otherLines_of_modDie (dieAt_modDie_same _ _ hi) hf

theorem dieLine_setDieLine (hi : site < 16) (st : LineSt) (d : LineData) (psn : Bool) :
    (s.setDieLine site line st d psn).dieLine site line = some ⟨st, d, psn⟩ := by
  unfold State.dieLine State.setDieLine
  rw [dieAt_modDie_same _ _ hi, Tab.get?_put_same]

theorem otherLines_setDieLine (hi : site < 16) (st : LineSt) (d : LineData) (psn : Bool) : OtherLines site line s (s.setDieLine site line st d psn) :=
  otherLines_modDie hi fun _ hl => Tab.get?_put_ne hl _ _

theorem dieLine_dropDieLine (hi : site < 16) : (s.dropDieLine site line).dieLine site line = none := by
  unfold State.dieLine State.dropDieLine
  rw [dieAt_modDie_same _ _ hi, Tab.get?_del_same]

theorem otherLines_dropDieLine (hi : site < 16) : OtherLines site line s (s.dropDieLine site line) :=
  otherLines_modDie hi fun _ hl => Tab.get?_del_ne hl _

theorem dieLine_moveDieLine (hi : site < 16) (st : LineSt) :
    (s.moveDieLine site line st).dieLine site line = (s.dieLine site line).map fun l => { l with st := st } := by
  unfold State.dieLine State.moveDieLine
  rw [dieAt_modDie_same _ _ hi, get?_upd, if_pos rfl]

theorem otherLines_moveDieLine (hi : site < 16) (st : LineSt) : OtherLines site line s (s.moveDieLine site line st) :=
  otherLines_modDie hi fun _ hl => by rw [get?_upd, if_neg hl]

end

end Sys2Proof.Proofs
end

section
/-! ### Snoop answers of dies (R164, R166, R179, R184, R185, R199, R434) -/

namespace Sys2Proof.Proofs

open Sys2Proof Sys2Proof.Machine Sys2Proof.Safety

/-! #### Units that a die sends -/

theorem dieSends_trans {s t u : State} {site : Nat} {l k : List Pkt} (h : DieSends s t site l) (g : DieSends t u site k) :
    DieSends s u site (l ++ k) := by
  obtain ⟨a, ha, hap, haat⟩ := h
  obtain ⟨b, hb, hbp, hbat⟩ := g
  refine ⟨a ++ b, by rw [hb, ha, List.append_assoc], by rw [List.map_append, hap, hbp], fun e he => ?_⟩
  rcases List.mem_append.mp he with he | he
  · exact haat e he
  · exact hbat e he

theorem dieSends_nil {s t : State} {site : Nat} (h : t.net = s.net) : DieSends s t site [] :=
  ⟨[], by simp [h], rfl, by simp⟩

theorem dieSends_of_net {s s' t t' : State} {site : Nat} {l : List Pkt} (h : DieSends s t site l) (hs : s'.net = s.net) (ht : t'.net = t.net) :
    DieSends s' t' site l := by
  unfold DieSends at *; rw [hs, ht]; exact h

/-- A unit in which a die answers a snoop, as it is sent (R167, R199). -/
def replyUnit (s : State) (snp p : Pkt) (dst : BitVec 8) : Pkt :=
  { p with src := s.dieNode (siteOf snp.dst) (moduleOf snp.dst), txn := snp.txn, addr := snp.addr, vc := vcOfOp p.op, dst := dst }

theorem dieReply_sends {s : State} {snp : Pkt} (hd : isDieNode snp.dst = true) (p : Pkt) (dst : BitVec 8) :
    DieSends s (s.dieReply snp p dst) (siteOf snp.dst) [replyUnit s snp p dst] := by
  refine ⟨_, rfl, rfl, fun e he => ?_⟩
  obtain rfl := List.mem_singleton.mp he
  exact congrArg (fun i => Loc.die i _) (siteOf_dieNode s (siteOf_lt hd) (moduleOf_lt _))

/-! #### A row of the table of R184 -/

/-- The data of the row, to the snoop's source. -/
def rowForward (s : State) (p : Pkt) (row : SnoopRow) (l : Option DieLine) : State :=
  match row.toSrc, l with
  | some o, some l => s.forward p (BitVec.ofNat 7 o) l
  | _, _ => s

/-- The line goes to the state of the row, where that is another. -/
def rowMove (s : State) (p : Pkt) (row : SnoopRow) : State :=
  if (s.dieLine (siteOf p.dst) p.addr.toNat).map (·.st) = row.next then s
  else match row.next with
    | none => s.dropDieLine (siteOf p.dst) p.addr.toNat
    | some st => s.moveDieLine (siteOf p.dst) p.addr.toNat st

/-- The answer of the row to the home. -/
def rowAnswer (s : State) (p : Pkt) (row : SnoopRow) (l : Option DieLine) : State :=
  match row.wb, l with
  | true, some l => s.wbSnp p row.result row.fwd l
  | _, _ => s.snpAck p row.result row.wp row.fwd

/-- The row of the table for a snoop at a die. -/
def rowOf (s : State) (p : Pkt) : SnoopRow :=
  r184 p.op.toNat (State.isForwarding p) (p.size.getLsbD 0) ((s.dieLine (siteOf p.dst) p.addr.toNat).map (·.st))

/-- A die answers a snoop by the table of R184. -/
theorem dieAnswer_of_row {s : State} {p : Pkt} (hlo : 0x20 ≤ p.op.toNat) (hhi : p.op.toNat ≤ 0x23) :
    s.dieAnswer p = rowAnswer (rowMove (rowForward s p (rowOf s p) (s.dieLine (siteOf p.dst) p.addr.toNat)) p (rowOf s p)) p (rowOf s p)
      (s.dieLine (siteOf p.dst) p.addr.toNat) := by
  have hfwd : ∀ o l, (s.forward p o l).dieLine (siteOf p.dst) p.addr.toNat = s.dieLine (siteOf p.dst) p.addr.toNat := fun _ _ => rfl
  unfold State.dieAnswer rowOf
  dsimp only
  cases hl : s.dieLine (siteOf p.dst) p.addr.toNat with
  | none => simp [r184, rowForward, rowMove, rowAnswer, hl]
  | some l =>
    obtain ⟨st, d, psn⟩ := l
    rcases (by omega : p.op.toNat = 0x20 ∨ p.op.toNat = 0x21 ∨ p.op.toNat = 0x22 ∨ p.op.toNat = 0x23) with hop | hop | hop | hop
    · cases hf : State.isForwarding p <;> cases st <;> simp [r184, rowForward, rowMove, rowAnswer, hl, hop, hfwd]
    · cases st <;> simp [r184, rowForward, rowMove, rowAnswer, hl, hop, hfwd]
    · cases hz : p.size.getLsbD 0 <;> cases st <;> simp [r184, rowForward, rowMove, rowAnswer, hl, hop]
    · cases st <;> simp [r184, rowForward, rowMove, rowAnswer, hl, hop]

/-- What the rows of R184 hold: a known opcode of the forwarded data, a RESULT of two bits, and no data where the line is in WP. -/
theorem r184_bounds (op : Nat) (fwd discard : Bool) (st : Option LineSt) :
    (∀ o ∈ (r184 op fwd discard st).toSrc, o < 128) ∧ (r184 op fwd discard st).result < 4 ∧
    ((r184 op fwd discard st).wb = true → (r184 op fwd discard st).wp = false) ∧
    (st = none → (r184 op fwd discard st).toSrc = none ∧ (r184 op fwd discard st).wb = false) := by
  cases st with
  | none => simp [r184]
  | some st => cases st <;> simp only [r184] <;> (repeat' split) <;> simp

section
variable {s : State} {p : Pkt} {row : SnoopRow}

theorem rowMove_eq (s : State) (p : Pkt) (row : SnoopRow) : rowMove s p row = { s with dies := (rowMove s p row).dies } := by
  unfold rowMove
  split
  · rfl
  · split <;> rfl

/-- The line is in the row's next state, with its data, and no other line has moved. -/
theorem rowMove_line (hd : isDieNode p.dst = true) (hn : s.dieLine (siteOf p.dst) p.addr.toNat = none → row.next = none) :
    ((rowMove s p row).dieLine (siteOf p.dst) p.addr.toNat).map (·.st) = row.next ∧
    (∀ l l', s.dieLine (siteOf p.dst) p.addr.toNat = some l → (rowMove s p row).dieLine (siteOf p.dst) p.addr.toNat = some l' →
      l'.data = l.data ∧ l'.psn = l.psn) ∧
    OtherLines (siteOf p.dst) p.addr.toNat s (rowMove s p row) ∧
    ∀ i, ((rowMove s p row).dieAt i).heldSnoops = (s.dieAt i).heldSnoops := by
  have hi := siteOf_lt hd
  unfold rowMove
  split
  · rename_i hst
    refine ⟨hst, fun l l' hl hl' => ?_, otherLines_refl s, fun _ => rfl⟩
    obtain rfl := Option.some.inj (hl.symm.trans hl'); exact ⟨rfl, rfl⟩
  · split
    · rename_i hnext
      refine ⟨?_, fun l l' _ hl' => ?_, otherLines_dropDieLine hi, heldSnoops_modDie hi fun _ => rfl⟩
      · rw [dieLine_dropDieLine hi, hnext]; rfl
      · rw [dieLine_dropDieLine hi] at hl'; cases hl'
    · rename_i st hnext
      refine ⟨?_, fun l l' hl hl' => ?_, otherLines_moveDieLine hi st, heldSnoops_modDie hi fun _ => rfl⟩
      · rw [dieLine_moveDieLine hi]
        cases hl : s.dieLine (siteOf p.dst) p.addr.toNat with
        | none => rw [hn hl] at hnext; cases hnext
        | some l => exact hnext.symm
      · rw [dieLine_moveDieLine hi, hl] at hl'
        obtain rfl := Option.some.inj hl'; exact ⟨rfl, rfl⟩

theorem rowForward_eq (s : State) (p : Pkt) (row : SnoopRow) (l : Option DieLine) :
    rowForward s p row l = { s with net := (rowForward s p row l).net } := by
  unfold rowForward; split <;> rfl

theorem rowAnswer_eq (s : State) (p : Pkt) (row : SnoopRow) (l : Option DieLine) :
    rowAnswer s p row l = { s with net := (rowAnswer s p row l).net } := by
  unfold rowAnswer; split <;> rfl

/-- `d` carries the row's data to the source of the snoop (R184, R199). -/
def IsRowData (s : State) (p : Pkt) (row : SnoopRow) (l : Option DieLine) (d : Pkt) : Prop :=
  ∀ o, row.toSrc = some o → d.op.toNat = o ∧ d.src = s.dieNode (siteOf p.dst) (moduleOf p.dst) ∧ d.dst = p.src ∧ d.txn = p.txn ∧
    d.addr = p.addr ∧ d.last = false ∧ ∀ x, l = some x → d.data = x.data ∧ d.psn = x.psn

/-- `a` is the row's answer to the home of the line (R185). -/
def IsRowAnswer (s : State) (p : Pkt) (row : SnoopRow) (l : Option DieLine) (a : Pkt) : Prop :=
  a.op.toNat = (if row.wb then 0x61 else 0x43) ∧ a.src = s.dieNode (siteOf p.dst) (moduleOf p.dst) ∧ a.txn = p.txn ∧ a.addr = p.addr ∧
  a.dst = nodeHome (s.home (paOf p.addr.toNat)) ∧ a.size.toNat = row.result + 4 * b2n row.wp ∧ a.na = row.fwd ∧
  (row.wb = true → ∀ x, l = some x → a.data = x.data ∧ a.psn = x.psn)

theorem rowForward_sends (hd : isDieNode p.dst = true) {l : Option DieLine} (hl : l = none → row.toSrc = none) (ho : ∀ o ∈ row.toSrc, o < 128) :
    ∃ d, DieSends s (rowForward s p row l) (siteOf p.dst) (if row.toSrc = none then [] else [d]) ∧ IsRowData s p row l d := by
  unfold rowForward
  cases hsrc : row.toSrc with
  | none => exact ⟨p, dieSends_nil rfl, by simp [IsRowData, hsrc]⟩
  | some o =>
    cases l with
    | none => rw [hl rfl] at hsrc; cases hsrc
    | some x =>
      refine ⟨_, dieReply_sends hd _ _, fun o' heq => ?_⟩
      obtain rfl := Option.some.inj (hsrc.symm.trans heq)
      have hlt : o < 128 := ho o hsrc
      refine ⟨?_, rfl, rfl, rfl, rfl, rfl, fun y hy => ?_⟩
      · change (BitVec.ofNat 7 o).toNat = o
        rw [BitVec.toNat_ofNat, Nat.mod_eq_of_lt hlt]
      · obtain rfl := Option.some.inj hy; exact ⟨rfl, rfl⟩

theorem rowAnswer_sends (hd : isDieNode p.dst = true) {l : Option DieLine} (hl : l = none → row.wb = false) (hr : row.result < 4)
    (hw : row.wb = true → row.wp = false) :
    ∃ a, DieSends s (rowAnswer s p row l) (siteOf p.dst) [a] ∧ IsRowAnswer s p row l a := by
  have hsize : ∀ b : Bool, (BitVec.ofNat 3 (row.result + 4 * b2n b)).toNat = row.result + 4 * b2n b := fun b => by
    rw [BitVec.toNat_ofNat, Nat.mod_eq_of_lt]
    cases b <;> simp only [b2n] <;> simp <;> omega
  unfold rowAnswer IsRowAnswer
  cases hwb : row.wb with
  | false => exact ⟨_, dieReply_sends hd _ _, rfl, rfl, rfl, rfl, rfl, hsize _, rfl, by simp⟩
  | true =>
    cases l with
    | none => rw [hl rfl] at hwb; cases hwb
    | some x =>
      refine ⟨_, dieReply_sends hd _ _, rfl, rfl, rfl, rfl, rfl, ?_, rfl, fun _ y hy => ?_⟩
      · rw [hw hwb]; exact hsize false
      · obtain rfl := Option.some.inj hy; exact ⟨rfl, rfl⟩

end

/-! #### A snoop at a die -/

section
variable {s : State} {p : Pkt}

theorem exec_snoopCommand {op : Nat} (hlo : 0x20 ≤ op) (hhi : op ≤ 0x23) (hop : p.op.toNat = op) (s : State) :
    exec (snoopCommand op p) s = s.actDom (·.dieSnoop p.op p) := by
  have hp : p.op = BitVec.ofNat 7 op := by rw [← hop]; simp
  rw [hp]
  rcases (by omega : op = 0x20 ∨ op = 0x21 ∨ op = 0x22 ∨ op = 0x23) with rfl | rfl | rfl | rfl <;> rfl

/-- A die that has a snoop holds it or answers it (R179). -/
theorem dieSnoop_atDie (hd : isDieNode p.dst = true) (ha : s.atDie p = true) :
    s.dieSnoop p.op p = if s.mustHold p then (s.dieConsumes p).modDie (siteOf p.dst) fun x => { x with heldSnoops := x.heldSnoops ++ [p] }
      else (s.dieConsumes p).dieAnswer p := by
  have hhold : (s.dieConsumes p).mustHold p = s.mustHold p := by
    unfold State.mustHold; rw [dieAt_of_dies (s := s) (by rw [dieConsumes_eq ha])]
  rw [State.dieSnoop, dieRow_atDie rfl hd ha]
  dsimp only
  rw [hhold]

/-- Nothing changes but the die's lines, the units in flight and the link credits of the snoop's buffer. -/
theorem snoop_frame (ha : s.atDie p = true) {t : State}
    (ht : t = { s.dieConsumes p with net := t.net, dies := t.dies }) :
    LinksOnly (siteOf p.dst) s t ∧ t = { s with net := t.net, dies := t.dies, links := t.links, regs := t.regs } := by
  have hregs : t.regs = (s.dieConsumes p).regs := by rw [ht]
  have hlinks : t.links = (s.dieConsumes p).links := by rw [ht]
  obtain ⟨hr, hl⟩ := linksOnly_dieConsumes ha
  refine ⟨⟨fun q off hq ho => (reg_of_regs hregs q off).trans (hr q off hq ho), fun a b e hb hne => ?_⟩, ?_⟩
  · rw [← hl a b e hb hne]; unfold State.lk; rw [hlinks]
  · rw [hregs, hlinks, ht, dieConsumes_eq ha]

/-- What answering a snoop does: the line goes where the table of R184 sends it, and the row's units are sent. -/
structure RowAnswered (s : State) (p : Pkt) (t : State) : Prop where
  rest : t = { s with net := t.net, dies := t.dies }
  next : (t.dieLine (siteOf p.dst) p.addr.toNat).map (·.st) = (rowOf s p).next
  data : ∀ l l', s.dieLine (siteOf p.dst) p.addr.toNat = some l → t.dieLine (siteOf p.dst) p.addr.toNat = some l' → l'.data = l.data ∧ l'.psn = l.psn
  other : OtherLines (siteOf p.dst) p.addr.toNat s t
  held : ∀ i, (t.dieAt i).heldSnoops = (s.dieAt i).heldSnoops
  sends : ∃ d a, DieSends s t (siteOf p.dst) ((if (rowOf s p).toSrc = none then [] else [d]) ++ [a]) ∧
    IsRowData s p (rowOf s p) (s.dieLine (siteOf p.dst) p.addr.toNat) d ∧ IsRowAnswer s p (rowOf s p) (s.dieLine (siteOf p.dst) p.addr.toNat) a

theorem rowAnswered_dieAnswer (hd : isDieNode p.dst = true) (hlo : 0x20 ≤ p.op.toNat) (hhi : p.op.toNat ≤ 0x23) : RowAnswered s p (s.dieAnswer p) := by
  obtain ⟨hop, hres, hwp, -⟩ :=
    r184_bounds p.op.toNat (State.isForwarding p) (p.size.getLsbD 0) ((s.dieLine (siteOf p.dst) p.addr.toNat).map (·.st))
  have hnone : s.dieLine (siteOf p.dst) p.addr.toNat = none → (rowOf s p).next = none ∧ (rowOf s p).toSrc = none ∧ (rowOf s p).wb = false := fun h => by
    simp [rowOf, h, r184]
  let f := rowForward s p (rowOf s p) (s.dieLine (siteOf p.dst) p.addr.toNat)
  let m := rowMove f p (rowOf s p)
  have hf : f = { s with net := f.net } := rowForward_eq ..
  have hm : m = { f with dies := m.dies } := rowMove_eq ..
  have ht : s.dieAnswer p = rowAnswer m p (rowOf s p) (s.dieLine (siteOf p.dst) p.addr.toNat) := dieAnswer_of_row hlo hhi
  have hans : s.dieAnswer p = { m with net := (s.dieAnswer p).net } := by rw [ht]; exact rowAnswer_eq ..
  have hfl : ∀ i l, f.dieLine i l = s.dieLine i l := dieLine_of_dies (by rw [hf])
  have hal : ∀ i l, (s.dieAnswer p).dieLine i l = m.dieLine i l := dieLine_of_dies (by rw [hans])
  have had : ∀ i, (s.dieAnswer p).dieAt i = m.dieAt i := dieAt_of_dies (by rw [hans])
  obtain ⟨hnext, hdata, hother, hheld⟩ := rowMove_line (s := f) (row := rowOf s p) hd (fun h => (hnone ((hfl _ _).symm.trans h)).1)
  obtain ⟨d, hdsend, hd'⟩ := rowForward_sends hd (fun h => (hnone h).2.1) hop
  obtain ⟨a, hasend, ha⟩ := rowAnswer_sends (s := m) hd (fun h => (hnone h).2.2) hres hwp
  refine ⟨by rw [hans, hm, hf], by rw [hal]; exact hnext, fun l l' hl hl' => ?_, fun i l hne => ?_,
    fun i => by rw [had, hheld, dieAt_of_dies (s := s) (by rw [hf])], d, a, ?_, hd', ?_⟩
  · exact hdata l l' (by rw [hfl]; exact hl) (by rw [← hal]; exact hl')
  · rw [hal, hother i l hne, hfl]
  · exact dieSends_trans hdsend (dieSends_of_net hasend (by rw [hm]) (by rw [ht]))
  · unfold IsRowAnswer at ha ⊢
    have hnode : m.dieNode (siteOf p.dst) (moduleOf p.dst) = s.dieNode (siteOf p.dst) (moduleOf p.dst) := by rw [hm, hf]; rfl
    have hhome : m.home (paOf p.addr.toNat) = s.home (paOf p.addr.toNat) := by rw [hm, hf]; rfl
    rw [← hnode, ← hhome]; exact ha

/-- The same of a snoop that the die takes from its link, by the state before. -/
theorem rowAnswered_of_taken (hd : isDieNode p.dst = true) (ha : s.atDie p = true) {t : State} (h : RowAnswered (s.dieConsumes p) p t) :
    (t.dieLine (siteOf p.dst) p.addr.toNat).map (·.st) = (rowOf s p).next ∧
    (∀ l l', s.dieLine (siteOf p.dst) p.addr.toNat = some l → t.dieLine (siteOf p.dst) p.addr.toNat = some l' → l'.data = l.data ∧ l'.psn = l.psn) ∧
    OtherLines (siteOf p.dst) p.addr.toNat s t ∧
    ∃ d a, DieSends (s.dieConsumes p) t (siteOf p.dst) ((if (rowOf s p).toSrc = none then [] else [d]) ++ [a]) ∧
      IsRowData s p (rowOf s p) (s.dieLine (siteOf p.dst) p.addr.toNat) d ∧ IsRowAnswer s p (rowOf s p) (s.dieLine (siteOf p.dst) p.addr.toNat) a := by
  have hkept := linkKept_dieConsumes ha
  have hold : ∀ i l, (s.dieConsumes p).dieLine i l = s.dieLine i l := dieLine_of_dies (by rw [dieConsumes_eq ha])
  have hrow : rowOf (s.dieConsumes p) p = rowOf s p := by unfold rowOf; rw [hold]
  have hnode : (s.dieConsumes p).dieNode (siteOf p.dst) (moduleOf p.dst) = s.dieNode (siteOf p.dst) (moduleOf p.dst) :=
    dieNode_of_st hkept.st _ _
  have hhome : (s.dieConsumes p).home (paOf p.addr.toNat) = s.home (paOf p.addr.toNat) := home_of_regsOnly hkept.regs (siteOf_lt hd) _
  obtain ⟨-, hnext, hdata, hother, -, d, a, hsends, hd', ha'⟩ := h
  rw [hrow] at hnext hsends hd' ha'
  simp only [hold] at hdata hd' ha'
  unfold IsRowData at hd'
  unfold IsRowAnswer at ha'
  rw [hnode] at hd' ha'
  rw [hhome] at ha'
  exact ⟨hnext, hdata, fun i l hne => (hother i l hne).trans (hold i l), d, a, hsends, hd', ha'⟩

end

end Sys2Proof.Proofs
end

section
/-! ### Responses at dies, and what a die does of itself (R149, R171 to R179, R186, R200) -/

namespace Sys2Proof.Proofs

open Sys2Proof Sys2Proof.Machine Sys2Proof.Safety

/-! #### The end of a transaction -/

section
variable {s : State} {site : Nat}

/-- With no snoop held none is answered. -/
theorem releaseSnoops_none (hi : site < 16) (hh : (s.dieAt site).heldSnoops = []) (line : Nat) :
    s.releaseSnoops site line = { s with dies := (s.releaseSnoops site line).dies } ∧
    (∀ i l, (s.releaseSnoops site line).dieLine i l = s.dieLine i l) ∧
    ((s.releaseSnoops site line).dieAt site).txns = (s.dieAt site).txns ∧
    ((s.releaseSnoops site line).dieAt site).retries = (s.dieAt site).retries := by
  unfold State.releaseSnoops
  simp only [hh, List.filter_nil, List.foldl_nil]
  refine ⟨rfl, dieLine_modDie hi fun _ => rfl, ?_, ?_⟩ <;> rw [dieAt_modDie_same _ _ hi]

/-- A held snoop is taken out to be answered. -/
def snoopTaken (s : State) (site : Nat) (q : Pkt) : State := s.modDie site fun x => { x with heldSnoops := x.heldSnoops.filter (· != q) }

/-- One held snoop that no transaction covers any more is answered (R179). -/
theorem releaseSnoops_one {q : Pkt} {line : Nat} (hh : (s.dieAt site).heldSnoops = [q]) (hq : q.addr.toNat = line) (hm : s.mustHold q = false) :
    s.releaseSnoops site line = (snoopTaken s site q).dieAnswer q := by
  unfold State.releaseSnoops snoopTaken
  simp [hh, hq, hm, bne, BEq.beq]

/-- The transaction leaves the die, and with it the retries owed for its line. -/
def txnClosed (s : State) (site k line : Nat) : State :=
  s.modDie site fun x => { x with txns := Tab.del k x.txns, retries := Tab.del line x.retries }

/-- The transaction has ended, with the store that caused it done, and held snoops are not answered yet (R149, R179). -/
def txnStored (s : State) (site k : Nat) (x : DieTxn) (w : Option Store) : State :=
  if isCaching x.req.op then (txnClosed s site k x.req.addr.toNat).dieStore site x.req.addr.toNat w else txnClosed s site k x.req.addr.toNat

theorem dieComplete_of_done {x : DieTxn} (hx : x.final = true) (hg : State.readsData x = false ∨ x.gotData = true) (k : Nat) (w : Option Store) :
    s.dieComplete site k x w = (txnStored s site k x w).releaseSnoops site x.req.addr.toNat := by
  have h : (x.final && (!State.readsData x || x.gotData)) = true := by
    rcases hg with hg | hg <;> simp [hx, hg]
  unfold State.dieComplete
  rw [if_pos h]
  rfl

theorem dieComplete_of_waiting {x : DieTxn} (h : (x.final && (!State.readsData x || x.gotData)) = false) (k : Nat) (w : Option Store) :
    s.dieComplete site k x w = s.modDie site fun y => { y with txns := Tab.put k x y.txns } := by
  unfold State.dieComplete
  rw [if_neg (by simp [h])]

theorem txnStored_none (k : Nat) (x : DieTxn) : txnStored s site k x none = txnClosed s site k x.req.addr.toNat := by
  unfold txnStored; split <;> rfl

/-- A store makes a line in E or M the die's own, with the bytes that it writes (R149, R264). -/
theorem dieStore_owned {line : Nat} {l : DieLine} (hl : s.dieLine site line = some l) (hst : l.st = .sE ∨ l.st = .sM) (w : Store) :
    s.dieStore site line (some w) = s.setDieLine site line .sM (mergeLine l.data w.data w.mask) l.psn := by
  rcases hst with hst | hst <;> simp [State.dieStore, hl, hst]

theorem dieStore_not_owned {line : Nat} {l : DieLine} (hl : s.dieLine site line = some l) (hst : ¬ (l.st = .sE ∨ l.st = .sM)) (w : Store) :
    s.dieStore site line (some w) = s := by
  obtain ⟨h1, h2⟩ := not_or.mp hst
  simp [State.dieStore, hl, h1, h2]

/-- What closing a transaction leaves. -/
theorem txnClosed_effect (hi : site < 16) (k line : Nat) :
    txnClosed s site k line = { s with dies := (txnClosed s site k line).dies } ∧ (∀ i l, (txnClosed s site k line).dieLine i l = s.dieLine i l) ∧
    Tab.get? k ((txnClosed s site k line).dieAt site).txns = none ∧ ((txnClosed s site k line).dieAt site).heldSnoops = (s.dieAt site).heldSnoops := by
  refine ⟨rfl, dieLine_modDie hi fun _ => rfl, ?_, ?_⟩ <;> rw [txnClosed, dieAt_modDie_same _ _ hi]
  exact Tab.get?_del_same ..

theorem dieStore_effect (hi : site < 16) (line : Nat) (w : Option Store) :
    s.dieStore site line w = { s with dies := (s.dieStore site line w).dies } ∧ OtherLines site line s (s.dieStore site line w) ∧
    ((s.dieStore site line w).dieAt site).txns = (s.dieAt site).txns ∧
    ((s.dieStore site line w).dieAt site).heldSnoops = (s.dieAt site).heldSnoops := by
  unfold State.dieStore
  split
  · split
    · refine ⟨rfl, otherLines_setDieLine hi _ _ _, ?_, ?_⟩ <;> rw [State.setDieLine, dieAt_modDie_same _ _ hi]
    · exact ⟨rfl, otherLines_refl s, rfl, rfl⟩
  · exact ⟨rfl, otherLines_refl s, rfl, rfl⟩

theorem txnStored_effect (hi : site < 16) {x : DieTxn} (k : Nat) (w : Option Store) :
    txnStored s site k x w = { s with dies := (txnStored s site k x w).dies } ∧ OtherLines site x.req.addr.toNat s (txnStored s site k x w) ∧
    Tab.get? k ((txnStored s site k x w).dieAt site).txns = none ∧
    ((txnStored s site k x w).dieAt site).heldSnoops = (s.dieAt site).heldSnoops := by
  obtain ⟨hrest, hline, hgone, hheld⟩ := txnClosed_effect (s := s) hi k x.req.addr.toNat
  unfold txnStored
  split
  · obtain ⟨hrest', hother, htxns, hheld'⟩ := dieStore_effect (s := txnClosed s site k x.req.addr.toNat) hi x.req.addr.toNat w
    exact ⟨by rw [hrest', hrest], fun i l hne => (hother i l hne).trans (hline i l), by rw [htxns]; exact hgone, hheld'.trans hheld⟩
  · exact ⟨hrest, fun i l _ => hline i l, hgone, hheld⟩

/-- With no snoop held, a complete transaction ends and its line is as its store has left it. -/
theorem dieComplete_ended (hi : site < 16) (hh : (s.dieAt site).heldSnoops = []) {x : DieTxn} (hx : x.final = true)
    (hg : State.readsData x = false ∨ x.gotData = true) (k : Nat) (w : Option Store) :
    s.dieComplete site k x w = { s with dies := (s.dieComplete site k x w).dies } ∧
    (∀ i l, (s.dieComplete site k x w).dieLine i l = (txnStored s site k x w).dieLine i l) ∧
    Tab.get? k ((s.dieComplete site k x w).dieAt site).txns = none := by
  rw [dieComplete_of_done hx hg]
  obtain ⟨hrest, -, hgone, hheld⟩ := txnStored_effect (s := s) (x := x) hi k w
  obtain ⟨hrest', hline', htxns, -⟩ := releaseSnoops_none (s := txnStored s site k x w) hi (hheld.trans hh) x.req.addr.toNat
  exact ⟨by rw [hrest', hrest], hline', by rw [htxns]; exact hgone⟩

end

/-! #### Responses that a die takes -/

/-- Nothing changes but the dies, the links and what the sites note of them, the units in flight and the free values drawn. -/
def DieOnly (s t : State) : Prop :=
  t = { s with net := t.net, regs := t.regs, links := t.links, sites := t.sites, ctr := t.ctr, dies := t.dies }

section
variable {s t u : State} {p : Pkt}

theorem DieOnly.trans (h : DieOnly s t) (k : DieOnly t u) : DieOnly s u := by
  unfold DieOnly at *; rw [k, h]

theorem DieOnly.sameMemory (h : DieOnly s t) : SameMemory s t := fun a => by rw [h]

/-- The row of a response that leaves the rest of the machine alone. -/
theorem answers_die {c : Instr} {f : State → State} {P : State → Prop} (hc : exec c s = s.actDom f) (hr : Running s) (ht : f s = t)
    (hk : DieOnly s t) (hP : P t) : Answers c s P :=
  answers_dom hc hr ht (by rw [hk]) (by rw [hk]) (by rw [hk]) hP

/-- The same of a row whose other receivers are hub agents. -/
theorem answers_die_act {c : Instr} {f : State → State} {P : State → Prop} (hc : exec c s = s.act f) (hr : Running s) (ht : f s = t)
    (hk : DieOnly s t) (hP : P t) : Answers c s P := by
  obtain ⟨hs, -⟩ := hr
  exact answers_act hc hs ht (by rw [hk]) (by rw [hk]) (by rw [hk]) hP

theorem dieOnly_dieTakes (ha : s.atDie p = true) : DieOnly s (s.dieTakes p) := by
  have h := dieTakes_eq ha
  unfold DieOnly
  rw [h]

theorem dies_dieTakes (ha : s.atDie p = true) : (s.dieTakes p).dies = s.dies := by rw [dieTakes_eq ha]

theorem dieOnly_of_dies (h : t = { s with dies := t.dies }) : DieOnly s t := by unfold DieOnly; rw [h]

theorem lineTaken_eq (s : State) (p : Pkt) : (s.lineTaken p).2 = { s with ctr := (s.lineTaken p).2.ctr } := by
  unfold State.lineTaken; split <;> rfl

theorem lineTaken_of_ctr (h : t.ctr = s.ctr) (p : Pkt) : (t.lineTaken p).1 = (s.lineTaken p).1 := by
  unfold State.lineTaken; rw [h]; split <;> rfl

/-- The line a response installs: its own data, or the die's with the state granted (R112, R186). -/
def installed (s : State) (p : Pkt) (st : LineSt) (old : Option DieLine) : Option DieLine :=
  if p.hasData then some ⟨st, (s.lineTaken p).1, p.psn⟩ else old.map fun l => { l with st := st }

theorem putDieLine_data (h : p.hasData = true) (site line : Nat) (st : LineSt) :
    s.putDieLine site line p st = (s.lineTaken p).2.setDieLine site line st (s.lineTaken p).1 p.psn := by
  simp [State.putDieLine, h]

theorem putDieLine_grant (h : p.hasData = false) (site line : Nat) (st : LineSt) : s.putDieLine site line p st = s.moveDieLine site line st := by
  simp [State.putDieLine, h]

theorem putDieLine_effect {site : Nat} (hi : site < 16) (line : Nat) (p : Pkt) (st : LineSt) :
    DieOnly s (s.putDieLine site line p st) ∧ (s.putDieLine site line p st).dieLine site line = installed s p st (s.dieLine site line) ∧
    OtherLines site line s (s.putDieLine site line p st) ∧
    ∀ i, ((s.putDieLine site line p st).dieAt i).heldSnoops = (s.dieAt i).heldSnoops := by
  unfold installed
  cases h : p.hasData with
  | true =>
    rw [putDieLine_data h]
    have htaken := lineTaken_eq s p
    have hdies : (s.lineTaken p).2.dies = s.dies := by rw [htaken]
    have hother := otherLines_setDieLine (s := (s.lineTaken p).2) (line := line) hi st (s.lineTaken p).1 p.psn
    have hheld : ∀ i, (((s.lineTaken p).2.setDieLine site line st (s.lineTaken p).1 p.psn).dieAt i).heldSnoops = ((s.lineTaken p).2.dieAt i).heldSnoops :=
      heldSnoops_modDie hi fun _ => rfl
    refine ⟨?_, dieLine_setDieLine hi _ _ _, fun i l hne => (hother i l hne).trans (dieLine_of_dies hdies i l),
      fun i => (hheld i).trans (by rw [dieAt_of_dies hdies])⟩
    unfold DieOnly State.setDieLine State.modDie
    rw [htaken]
  | false =>
    rw [putDieLine_grant h]
    exact ⟨rfl, dieLine_moveDieLine hi st, otherLines_moveDieLine hi st, heldSnoops_modDie hi fun _ => rfl⟩

theorem putDieLine_net (site line : Nat) (p : Pkt) (st : LineSt) : (s.putDieLine site line p st).net = s.net := by
  cases h : p.hasData with
  | true =>
    rw [putDieLine_data h]
    change (s.lineTaken p).2.net = s.net
    rw [lineTaken_eq]
  | false => rw [putDieLine_grant h]; rfl

theorem putDieLine_txns {site : Nat} (hi : site < 16) (line : Nat) (p : Pkt) (st : LineSt) :
    ((s.putDieLine site line p st).dieAt site).txns = (s.dieAt site).txns := by
  cases h : p.hasData with
  | true =>
    rw [putDieLine_data h, State.setDieLine, dieAt_modDie_same _ _ hi]
    change ((s.lineTaken p).2.dieAt site).txns = _
    rw [dieAt_of_dies (s := s) (by rw [lineTaken_eq])]
  | false => rw [putDieLine_grant h, State.moveDieLine, dieAt_modDie_same _ _ hi]

theorem dieTxnOf_eq {k : Nat} {x : DieTxn} (h : s.dieTxnOf p = some (k, x)) :
    k = moduleOf p.dst * 4096 + p.txn.toNat ∧ Tab.get? k (s.dieAt (siteOf p.dst)).txns = some x := by
  unfold State.dieTxnOf at h
  obtain ⟨y, hy, he⟩ := Option.map_eq_some_iff.mp h
  obtain ⟨rfl, rfl⟩ := Prod.mk.inj he
  exact ⟨rfl, hy⟩

theorem dieTxnOf_of_txns {k : Nat} (hk : k = moduleOf p.dst * 4096 + p.txn.toNat) {y : Option DieTxn}
    (h : Tab.get? k (t.dieAt (siteOf p.dst)).txns = y) : t.dieTxnOf p = y.map fun z => (k, z) := by
  subst hk; simp only [State.dieTxnOf, h]

/-- What becomes of a transaction that a response has brought its data: it ends with its final response, and not before (R171). -/
def TxnEnds (p : Pkt) (k : Nat) (x : DieTxn) (t : State) : Prop :=
  ((x.final || p.last) = true → t.dieTxnOf p = none) ∧
  ((x.final || p.last) = false → ∃ y : DieTxn, t.dieTxnOf p = some (k, y) ∧ y.gotData = true ∧ y.final = false ∧ y.req = x.req)

/-- A line in WP that a WbData evicted goes to I at the WbAck of it (R186). -/
def lineEvicted (s : State) (site line : Nat) (x : DieTxn) : State :=
  match s.dieLine site line with
  | some l => if l.st == .sWP && x.req.op == 0x60 then s.dropDieLine site line else s
  | none => s

theorem lineEvicted_effect {site : Nat} (hi : site < 16) (line : Nat) (x : DieTxn) :
    lineEvicted s site line x = { s with dies := (lineEvicted s site line x).dies } ∧ OtherLines site line s (lineEvicted s site line x) ∧
    ((lineEvicted s site line x).dieAt site).txns = (s.dieAt site).txns := by
  unfold lineEvicted
  split
  · split
    · exact ⟨rfl, otherLines_dropDieLine hi, by rw [State.dropDieLine, dieAt_modDie_same _ _ hi]⟩
    · exact ⟨rfl, otherLines_refl s, rfl⟩
  · exact ⟨rfl, otherLines_refl s, rfl⟩

theorem dieLine_lineEvicted {site line : Nat} (hi : site < 16) {l : DieLine} (hl : s.dieLine site line = some l) (hst : l.st = .sWP) {x : DieTxn}
    (hop : x.req.op = 0x60) : (lineEvicted s site line x).dieLine site line = none := by
  unfold lineEvicted
  simp only [hl, hst, hop, beq_self_eq_true, Bool.and_self, if_true]
  exact dieLine_dropDieLine hi

theorem lineEvicted_of_other (site line : Nat) {x : DieTxn} (hop : x.req.op ≠ 0x60) : lineEvicted s site line x = s := by
  have hb : (x.req.op == 0x60) = false := by simpa using hop
  unfold lineEvicted
  split
  · rw [hb, Bool.and_false, if_neg (by decide)]
  · rfl

section
variable {k : Nat} {x : DieTxn} (hd : isDieNode p.dst = true) (ha : s.atDie p = true) (hx : s.dieTxnOf p = some (k, x))
include hd ha hx

/-- The response as the die carries it out for its transaction. -/
theorem dieInstall_txn {op : BitVec 7} {ops : List Nat} (hop : p.op = op) (hreq : ops.contains x.req.op.toNat = true) (st : LineSt) (w : Option Store) :
    s.dieInstall op p ops st w = ((s.dieTakes p).putDieLine (siteOf p.dst) x.req.addr.toNat p st).dieComplete (siteOf p.dst) k
      { x with gotData := true, final := x.final || p.last } w := by
  unfold State.dieInstall
  rw [dieRow_atDie hop hd ha]
  simp [hx, List.contains_iff_mem.mp hreq]

/-- A response with data or a grant installs the line, and its transaction ends or waits (R171, R186, R200). -/
theorem dieInstall_effect (hheld : (s.dieAt (siteOf p.dst)).heldSnoops = []) {op : BitVec 7} {ops : List Nat} (hop : p.op = op)
    (hreq : ops.contains x.req.op.toNat = true) (st : LineSt) :
    DieOnly s (s.dieInstall op p ops st none) ∧
    (s.dieInstall op p ops st none).dieLine (siteOf p.dst) x.req.addr.toNat = installed s p st (s.dieLine (siteOf p.dst) x.req.addr.toNat) ∧
    TxnEnds p k x (s.dieInstall op p ops st none) ∧ OtherLines (siteOf p.dst) x.req.addr.toNat s (s.dieInstall op p ops st none) := by
  have hi := siteOf_lt hd
  obtain ⟨hk, -⟩ := dieTxnOf_eq hx
  have htakes := dieOnly_dieTakes ha
  have hdies := dies_dieTakes ha
  obtain ⟨hput, hline, hother, hh⟩ := putDieLine_effect (s := s.dieTakes p) hi x.req.addr.toNat p st
  have hinst : installed (s.dieTakes p) p st = installed s p st := by
    unfold installed; rw [lineTaken_of_ctr (s := s) (by rw [dieTakes_eq ha])]
  rw [hinst, dieLine_of_dies hdies] at hline
  have hh := (hh (siteOf p.dst)).trans (by rw [dieAt_of_dies hdies, hheld])
  have hother : OtherLines _ _ s _ := fun i l hne => (hother i l hne).trans (dieLine_of_dies hdies i l)
  rw [dieInstall_txn hd ha hx hop hreq]
  generalize (s.dieTakes p).putDieLine (siteOf p.dst) x.req.addr.toNat p st = v at *
  have hv := htakes.trans hput
  cases hfin : x.final || p.last with
  | true =>
    obtain ⟨hrest, hlines, hgone⟩ := dieComplete_ended (x := { x with gotData := true, final := true }) hi hh rfl (.inr rfl) k none
    rw [txnStored_none] at hlines
    have hclosed := (txnClosed_effect (s := v) hi k x.req.addr.toNat).2.1
    refine ⟨hv.trans (dieOnly_of_dies hrest), ?_, ⟨fun _ => ?_, fun h => by simp [hfin] at h⟩, fun i l hne => ?_⟩
    · rw [hlines, hclosed, hline]
    · rw [dieTxnOf_of_txns hk hgone]; rfl
    · rw [hlines, hclosed, hother i l hne]
  | false =>
    rw [dieComplete_of_waiting (by simp)]
    have hlines := dieLine_modDie (s := v) hi (f := fun y => { y with txns := Tab.put k { x with gotData := true, final := false } y.txns }) fun _ => rfl
    refine ⟨hv.trans rfl, ?_, ⟨fun h => by simp [hfin] at h, fun _ => ⟨{ x with gotData := true, final := false }, ?_, rfl, rfl, rfl⟩⟩, fun i l hne => ?_⟩
    · rw [hlines, hline]
    · refine dieTxnOf_of_txns (y := some { x with gotData := true, final := false }) hk ?_
      rw [dieAt_modDie_same _ _ hi, Tab.get?_put_same]
    · rw [hlines, hother i l hne]

/-- A transaction that a response without data for the cache completes ends, and no line moves (R171, R186). -/
theorem dieFinal_ended (hheld : (s.dieAt (siteOf p.dst)).heldSnoops = []) {data : Bool} (hg : State.readsData x = false ∨ (x.gotData || data) = true) :
    DieOnly s (s.dieFinal p data none) ∧ (s.dieFinal p data none).dieTxnOf p = none ∧ ∀ i l, (s.dieFinal p data none).dieLine i l = s.dieLine i l := by
  have hi := siteOf_lt hd
  have hdies := dies_dieTakes ha
  obtain ⟨hk, -⟩ := dieTxnOf_eq hx
  obtain ⟨hrest, hlines, hgone⟩ := dieComplete_ended (s := s.dieTakes p) (x := { x with final := true, gotData := x.gotData || data }) hi
    (by rw [dieAt_of_dies hdies, hheld]) rfl hg k none
  rw [txnStored_none] at hlines
  have hclosed := (txnClosed_effect (s := s.dieTakes p) hi k x.req.addr.toNat).2.1
  have heq : s.dieFinal p data none = (s.dieTakes p).dieComplete (siteOf p.dst) k { x with final := true, gotData := x.gotData || data } none := by
    simp only [State.dieFinal, hx]
  rw [heq]
  refine ⟨(dieOnly_dieTakes ha).trans (dieOnly_of_dies hrest), ?_, fun i l => ?_⟩
  · rw [dieTxnOf_of_txns hk hgone]; rfl
  · rw [hlines, hclosed, dieLine_of_dies hdies]

/-- A Cmp that overtakes the data of its transaction is noted (R171). -/
theorem dieFinal_waiting (hr : State.readsData x = true) (hg : x.gotData = false) :
    DieOnly s (s.dieFinal p false none) ∧ (s.dieFinal p false none).dieTxnOf p = some (k, { x with final := true }) ∧
    ∀ i l, (s.dieFinal p false none).dieLine i l = s.dieLine i l := by
  have hi := siteOf_lt hd
  obtain ⟨hk, -⟩ := dieTxnOf_eq hx
  have heq : s.dieFinal p false none = (s.dieTakes p).modDie (siteOf p.dst) fun y => { y with txns := Tab.put k { x with final := true } y.txns } := by
    simp only [State.dieFinal, hx, Bool.or_false]
    exact dieComplete_of_waiting (x := { x with final := true }) (by change (true && (!State.readsData x || x.gotData)) = false; rw [hr, hg]; rfl) k none
  have hlines : ∀ i l, (s.dieFinal p false none).dieLine i l = (s.dieTakes p).dieLine i l := by
    rw [heq]; exact dieLine_modDie hi fun _ => rfl
  refine ⟨?_, ?_, fun i l => (hlines i l).trans (dieLine_of_dies (dies_dieTakes ha) i l)⟩
  · rw [heq]; exact (dieOnly_dieTakes ha).trans rfl
  · refine dieTxnOf_of_txns (y := some { x with final := true }) hk ?_
    rw [heq, dieAt_modDie_same _ _ hi, Tab.get?_put_same]

/-- What a Nack leaves of the retries owed (R173 to R177). -/
def nackRetries (s : State) (p : Pkt) (x : DieTxn) (l : Tab Retry) : Tab Retry :=
  if 1 ≤ bits p.addr.toNat 0 4 && bits p.addr.toNat 0 4 ≤ 4 then
    Tab.put x.req.addr.toNat { req := x.req, nacks := ((Tab.get? x.req.addr.toNat (s.dieAt (siteOf p.dst)).retries).map (·.nacks)).getD 0 + 1, since := s.time } l
  else Tab.del x.req.addr.toNat l

/-- A Nack ends its transaction (R173). -/
theorem dieNack_effect (hheld : (s.dieAt (siteOf p.dst)).heldSnoops = []) :
    DieOnly s (s.dieNack p) ∧ (s.dieNack p).dieTxnOf p = none ∧ (∀ i l, (s.dieNack p).dieLine i l = s.dieLine i l) ∧
    ((s.dieNack p).dieAt (siteOf p.dst)).retries = nackRetries s p x (s.dieAt (siteOf p.dst)).retries := by
  have hi := siteOf_lt hd
  have hdies := dies_dieTakes ha
  have htime : (s.dieTakes p).time = s.time := by rw [dieTakes_eq ha]
  obtain ⟨hk, -⟩ := dieTxnOf_eq hx
  let f : Die → Die := fun y => { y with txns := Tab.del k y.txns, retries := nackRetries s p x y.retries }
  let v := (s.dieTakes p).modDie (siteOf p.dst) f
  have heq : s.dieNack p = v.releaseSnoops (siteOf p.dst) x.req.addr.toNat := by
    simp only [State.dieNack, hx, dieAt_of_dies hdies, htime]
    rfl
  have hvl : ∀ i l, v.dieLine i l = (s.dieTakes p).dieLine i l := dieLine_modDie hi fun _ => rfl
  have hv : v.dieAt (siteOf p.dst) = f (s.dieAt (siteOf p.dst)) := by rw [dieAt_modDie_same _ _ hi, dieAt_of_dies hdies]
  obtain ⟨hrest, hlines, htxns, hretries⟩ := releaseSnoops_none (s := v) hi (by rw [hv]; exact hheld) x.req.addr.toNat
  rw [heq]
  refine ⟨((dieOnly_dieTakes ha).trans (u := v) rfl).trans (dieOnly_of_dies hrest), ?_, fun i l => ?_, by rw [hretries, hv]⟩
  · rw [dieTxnOf_of_txns (y := none) hk (by rw [htxns, hv]; exact Tab.get?_del_same ..)]; rfl
  · rw [hlines, hvl, dieLine_of_dies hdies]

/-- WbAck ends its transaction (R186). -/
theorem answers_wbAck {P : State → Prop} (hr : Running s) (hop : p.op = 0x45)
    (hP : P (lineEvicted (txnClosed (s.dieTakes p) (siteOf p.dst) k x.req.addr.toNat) (siteOf p.dst) x.req.addr.toNat x)) :
    Answers (.wbAck p) s P := by
  refine answers_die (f := (·.dieRow 0x45 p _)) rfl hr ?_ ?_ hP
  · rw [dieRow_atDie hop hd ha]
    simp only [hx]
    rfl
  · have hi := siteOf_lt hd
    obtain ⟨hrest, -⟩ := txnClosed_effect (s := s.dieTakes p) hi k x.req.addr.toNat
    obtain ⟨hrest', -⟩ := lineEvicted_effect (s := txnClosed (s.dieTakes p) (siteOf p.dst) k x.req.addr.toNat) hi x.req.addr.toNat x
    exact ((dieOnly_dieTakes ha).trans (dieOnly_of_dies hrest)).trans (dieOnly_of_dies hrest')

theorem wbAck_effect : let t := lineEvicted (txnClosed (s.dieTakes p) (siteOf p.dst) k x.req.addr.toNat) (siteOf p.dst) x.req.addr.toNat x
    t.dieTxnOf p = none ∧ OtherLines (siteOf p.dst) x.req.addr.toNat s t ∧
    (∀ l, s.dieLine (siteOf p.dst) x.req.addr.toNat = some l → l.st = .sWP → x.req.op = 0x60 → t.dieLine (siteOf p.dst) x.req.addr.toNat = none) ∧
    (x.req.op ≠ 0x60 → t.dieLine (siteOf p.dst) x.req.addr.toNat = s.dieLine (siteOf p.dst) x.req.addr.toNat) := by
  intro t
  have hi := siteOf_lt hd
  have hdies := dies_dieTakes ha
  obtain ⟨hk, -⟩ := dieTxnOf_eq hx
  obtain ⟨-, hline, hgone, -⟩ := txnClosed_effect (s := s.dieTakes p) hi k x.req.addr.toNat
  obtain ⟨-, hother, htxns⟩ := lineEvicted_effect (s := txnClosed (s.dieTakes p) (siteOf p.dst) k x.req.addr.toNat) hi x.req.addr.toNat x
  have hlines : ∀ i l, (txnClosed (s.dieTakes p) (siteOf p.dst) k x.req.addr.toNat).dieLine i l = s.dieLine i l := fun i l =>
    (hline i l).trans (dieLine_of_dies hdies i l)
  refine ⟨?_, fun i l hne => (hother i l hne).trans (hlines i l), fun l hl hst hop => ?_, fun hop => ?_⟩
  · rw [dieTxnOf_of_txns (y := none) hk (by rw [htxns]; exact hgone)]; rfl
  · exact dieLine_lineEvicted hi ((hlines _ _).trans hl) hst hop
  · rw [show t = _ from lineEvicted_of_other _ _ hop, hlines]

end

/-! #### What a die does of itself (R149, R174, R175, R178) -/

/-- The request that a die sends again (R178, R301). -/
def retried (s : State) (site : Nat) (r : Retry) (asOwn : Bool) : Pkt :=
  { r.req with op := if asOwn && r.req.op == 0x03 then 0x02 else r.req.op, rsv := decide (4 ≤ r.nacks), src := s.dieNode site (moduleOf r.req.src) }

/-- The die sends its owed request again, and its transaction is outstanding. -/
def retrySent (s : State) (site : Nat) (q : Pkt) : State :=
  (s.modDie site fun x => { x with txns := Tab.put (dieTxnKey q) { req := q } x.txns }).dieSend q (moduleOf q.src) q.dst

theorem retrySent_sends {site : Nat} {q : Pkt} (hs : siteOf q.src = site) :
    DieSends s (retrySent s site q) site [{ q with vc := vcOfOp q.op }] := by
  subst hs
  exact ⟨[⟨{ q with vc := vcOfOp q.op }, .die (siteOf q.src) (moduleOf q.src), s.time⟩], rfl, rfl, by simp⟩

/-- RETRY_SEND of an owed request whose spacing has passed, with neither its TXN nor its line in use. -/
theorem answers_retrySend {site line : Nat} {r : Retry} {asOwn : Bool} {P : State → Prop} (hrun : Running s)
    (hr : Tab.get? line (s.dieAt site).retries = some r) (hdue : s.retryDue r = true) (hf : s.dieFree (retried s site r asOwn) = true)
    (hP : P (retrySent s site (retried s site r asOwn))) : Answers (.retrySend site line asOwn) s P := by
  obtain ⟨f, hc, ht⟩ : ∃ f, exec (.retrySend site line asOwn) s = s.actDom f ∧ f s = retrySent s site (retried s site r asOwn) := by
    refine ⟨fun s => match Tab.get? line (s.dieAt site).retries with
      | none => s
      | some r => if !s.retryDue r then s else if !s.dieFree (retried s site r asOwn) then s else retrySent s site (retried s site r asOwn), rfl, ?_⟩
    simp [hr, hdue, hf]
  exact answers_dom hc hrun ht rfl rfl rfl hP

/-- A die that holds a line is one of the machine's dies. -/
theorem dieAt_modDie_of_line {site line : Nat} {l : DieLine} (hl : s.dieLine site line = some l) (f : Die → Die) :
    (s.modDie site f).dieAt site = f (s.dieAt site) := by
  have hlt : site < s.dies.length := by
    by_contra hge
    simp [State.dieLine, State.dieAt, nthD, List.getD, List.getElem?_eq_none (Nat.le_of_not_lt hge)] at hl
  simp [State.modDie, State.dieAt, modOf, nthD, List.getD, hlt]

/-- A die drops a line that it holds in S (R149). -/
theorem answers_silentDrop {site line : Nat} {l : DieLine} (hrun : Running s) (hl : s.dieLine site line = some l) :
    Answers (.silentDrop site line) s fun t =>
      t.dieLine site line = (if l.st = .sS then none else some l) ∧ OtherLines site line s t ∧ t = { s with dies := t.dies } := by
  obtain ⟨f, hc, ht⟩ : ∃ f, exec (.silentDrop site line) s = s.actDom f ∧ f s = if l.st == .sS then s.dropDieLine site line else s := by
    refine ⟨fun s => match s.dieLine site line with
      | some l => if l.st == .sS then s.dropDieLine site line else s
      | none => s, rfl, ?_⟩
    simp [hl]
  by_cases hst : l.st = .sS
  · rw [if_pos (by simp [hst])] at ht
    refine answers_dom hc hrun ht rfl rfl rfl ⟨?_, ?_, rfl⟩
    · rw [if_pos hst, State.dieLine, State.dropDieLine, dieAt_modDie_of_line hl, Tab.get?_del_same]
    · exact otherLines_of_modDie (dieAt_modDie_of_line hl _) fun _ hne => Tab.get?_del_ne hne _
  · rw [if_neg (by simp [hst])] at ht
    exact answers_dom hc hrun ht rfl rfl rfl ⟨by rw [if_neg hst, hl], otherLines_refl s, rfl⟩

/-- A die writes a line that it holds in E or M (R149, R264). -/
theorem answers_dieWrite {site line : Nat} {l : DieLine} (hrun : Running s) (hl : s.dieLine site line = some l) (w : Store) :
    Answers (.dieWrite site line w) s fun t =>
      t.dieLine site line = (if l.st = .sE ∨ l.st = .sM then some ⟨.sM, mergeLine l.data w.data w.mask, l.psn⟩ else some l) ∧
      OtherLines site line s t ∧ t = { s with dies := t.dies } := by
  by_cases hst : l.st = .sE ∨ l.st = .sM
  · refine answers_dom (f := (·.dieStore site line (some w))) rfl hrun (dieStore_owned hl hst w) rfl rfl rfl ⟨?_, ?_, rfl⟩
    · rw [if_pos hst, State.dieLine, State.setDieLine, dieAt_modDie_of_line hl, Tab.get?_put_same]
    · exact otherLines_of_modDie (dieAt_modDie_of_line hl _) fun _ hne => Tab.get?_put_ne hne _ _
  · exact answers_dom (f := (·.dieStore site line (some w))) rfl hrun (dieStore_not_owned hl hst w) rfl rfl rfl
      ⟨by rw [if_neg hst, hl], otherLines_refl s, rfl⟩

end

/-- Settles O11: each response is taken for its transaction, which its final response ends; what the die does of itself touches its own lines alone. -/
theorem responsesAtDies : Obligations.ResponsesAtDies := by
  unfold Obligations.ResponsesAtDies
  refine ⟨?installs, ?ends, ?retry, ?drop, ?store⟩
  case installs =>
    intro s p k x hrun hd ha hx hheld site line ends
    have install := fun {op : BitVec 7} {ops : List Nat} (hop : p.op = op) (hreq : ops.contains x.req.op.toNat = true) (st : LineSt) =>
      dieInstall_effect hd ha hx hheld hop hreq st
    have data := fun {op : BitVec 7} {ops : List Nat} {st : LineSt} {c : Instr} (hdata : p.hasData = true) (hop : p.op = op)
        (hreq : ops.contains x.req.op.toNat = true) (hc : exec c s = s.actDom (·.dieInstall op p ops st none)) =>
      show Answers c s fun t => t.dieLine site line = some ⟨st, (s.lineTaken p).1, p.psn⟩ ∧ ends t ∧ OtherLines site line s t ∧ SameMemory s t by
        obtain ⟨hk, hline, hends, hother⟩ := install hop hreq st
        refine answers_die hc hrun rfl hk ⟨?_, hends, hother, hk.sameMemory⟩
        rw [hline, installed, if_pos hdata]
    refine ⟨fun hop hdata hreq => data hdata hop (by rw [hreq]; rfl) rfl, fun hop hdata hreq => data hdata hop (by rw [hreq]; rfl) rfl,
      fun hop hdata hreq => data hdata hop (by rcases hreq with h | h | h <;> rw [h] <;> rfl) rfl,
      fun hop hdata hreq => data hdata hop (by rcases hreq with h | h <;> rw [h] <;> rfl) rfl, ?grant, ?stored⟩
    case grant =>
      intro l hop hdata hreq hl
      obtain ⟨hk, hline, hends, hother⟩ := install (ops := [3]) hop (by rw [hreq]; rfl) .sE
      refine answers_die (f := (·.dieInstall 0x42 p [3] .sE none)) rfl hrun rfl hk ⟨?_, hends, hother, hk.sameMemory⟩
      rw [hline, installed, if_neg (by simp [hdata]), hl]; rfl
    case stored =>
      intro w hop hdata hlast hreq
      have hi := siteOf_lt hd
      have hdies := dies_dieTakes ha
      obtain ⟨hput, hline, -, hh⟩ := putDieLine_effect (s := s.dieTakes p) hi x.req.addr.toNat p .sE
      rw [installed, if_pos hdata, lineTaken_of_ctr (s := s) (by rw [dieTakes_eq ha])] at hline
      have hrow := dieInstall_txn hd ha hx hop (ops := [1, 2, 3]) (by rw [hreq]; rfl) .sE (some w)
      generalize (s.dieTakes p).putDieLine (siteOf p.dst) x.req.addr.toNat p .sE = v at *
      obtain ⟨hrest, hlines, hgone⟩ := dieComplete_ended (s := v) (x := { x with gotData := true, final := x.final || p.last }) hi
        ((hh _).trans (by rw [dieAt_of_dies hdies, hheld])) (by simp [hlast]) (.inr rfl) k (some w)
      have hclosed := (txnClosed_effect (s := v) hi k x.req.addr.toNat).2.1
      have hstore := dieStore_owned ((hclosed _ _).trans hline) (.inl rfl) w
      refine answers_die (f := (·.dieInstall 0x52 p [1, 2, 3] .sE (some w))) rfl hrun hrow
        (((dieOnly_dieTakes ha).trans hput).trans (dieOnly_of_dies hrest)) ⟨?_, ?_⟩
      · rw [hlines, txnStored, if_pos (by simp [isCaching, hreq]), hstore, dieLine_setDieLine hi]
      · rw [dieTxnOf_of_txns (dieTxnOf_eq hx).1 hgone]; rfl
  case ends =>
    intro s p k x hrun hd ha hx hheld site line
    refine ⟨?cmp, ?dataRd, ?nack, ?wbAck⟩
    case wbAck => exact fun hop => answers_wbAck hd ha hx hrun hop (wbAck_effect hd ha hx)
    case cmp =>
      intro hop
      have hrow : s.cmpArrives p none = s.dieFinal p false none := by
        simp only [State.cmpArrives, hop, hd, bne_self_eq_false, Bool.or_true, if_true, Bool.false_eq_true, if_false]
        exact dieRow_atDie hop hd ha _
      by_cases hg : State.readsData x = false ∨ x.gotData = true
      · obtain ⟨hk, hgone, hlines⟩ := dieFinal_ended hd ha hx hheld (data := false) (by simpa using hg)
        refine answers_die_act (f := (·.cmpArrives p none)) rfl hrun hrow hk ⟨fun _ => hgone, fun hr hn => ?_, hlines, hk.sameMemory⟩
        simp [hr, hn] at hg
      · obtain ⟨hr, hn⟩ : State.readsData x = true ∧ x.gotData = false := by simpa using hg
        obtain ⟨hk, hwait, hlines⟩ := dieFinal_waiting hd ha hx hr hn
        exact answers_die_act (f := (·.cmpArrives p none)) rfl hrun hrow hk
          ⟨fun h => absurd h hg, fun _ _ => ⟨_, hwait, rfl, rfl⟩, hlines, hk.sameMemory⟩
    case dataRd =>
      intro hop _
      have hrow : s.dataRead p none = s.dieFinal p true none := by
        simp only [State.dataRead, hop, hd, bne_self_eq_false, Bool.or_true, if_true, Bool.false_eq_true, if_false]
        exact dieRow_atDie hop hd ha _
      obtain ⟨hk, hgone, hlines⟩ := dieFinal_ended hd ha hx hheld (data := true) (by simp)
      exact answers_die_act (f := (·.dataRead p none)) rfl hrun hrow hk ⟨hgone, hlines, hk.sameMemory⟩
    case nack =>
      intro hop
      have hrow : s.nackArrives p = s.dieNack p := by
        simp only [State.nackArrives, hop, hd, bne_self_eq_false, Bool.or_true, if_true, Bool.false_eq_true, if_false]
        exact dieRow_atDie hop hd ha _
      obtain ⟨hk, hgone, hlines, hretries⟩ := dieNack_effect hd ha hx hheld
      refine answers_die_act (f := (·.nackArrives p)) rfl hrun hrow hk ⟨hgone, hlines, fun hno => ?_, fun hlo hhi => ?_⟩
      · rw [hretries, nackRetries, if_neg (by simp; omega), Tab.get?_del_same]
      · rw [hretries, nackRetries, if_pos (by simp [hlo, hhi]), Tab.get?_put_same]
        exact ⟨rfl, rfl⟩
  case retry =>
    intro s site line r asOwn hrun hs hr hdue q hq hvc hfree
    have heq : q = { retried s site r asOwn with vc := vcOfOp (retried s site r asOwn).op } := by
      rw [hq] at hvc ⊢; rw [hvc]; rfl
    have hsrc : siteOf (retried s site r asOwn).src = site := siteOf_dieNode s hs (moduleOf_lt _)
    refine answers_retrySend hrun hr hdue (by rw [heq] at hfree; exact hfree) ⟨?_, ?_, rfl⟩
    · rw [heq]; exact retrySent_sends hsrc
    · have hdie : ((retrySent s site (retried s site r asOwn)).dieAt site).txns =
          Tab.put (dieTxnKey (retried s site r asOwn)) { req := retried s site r asOwn } (s.dieAt site).txns :=
        congrArg Die.txns (dieAt_modDie_same s _ hs)
      rw [hdie, heq]
      exact congrArg (Option.map _) (Tab.get?_put_same ..)
  case drop => exact fun s site line l hrun hl => answers_silentDrop hrun hl
  case store => exact fun s site line l w hrun hl => answers_dieWrite hrun hl w

end Sys2Proof.Proofs
end

section
/-! ### The snoops that dies answer at once, hold, and answer later -/

namespace Sys2Proof.Proofs

open Sys2Proof Sys2Proof.Machine Sys2Proof.Safety

/-- A DataE that ends the only transaction of a die answers the one snoop that the die holds for its line: the line is in E when it is answered (R179, R184). -/
theorem dataE_releases {s : State} {p q : Pkt} {k : Nat} {x : DieTxn} (hop : p.op = 0x52) (hd : isDieNode p.dst = true) (ha : s.atDie p = true)
    (hdata : p.hasData = true) (hlast : p.last = true) (hx : s.dieTxnOf p = some (k, x)) (hreq : x.req.op = 0x02)
    (htxns : (s.dieAt (siteOf p.dst)).txns = [(k, x)]) (hheld : (s.dieAt (siteOf p.dst)).heldSnoops = [q])
    (hqaddr : q.addr = x.req.addr) (hqsite : siteOf q.dst = siteOf p.dst) :
    ∃ u, s.dieInstall 0x52 p [1, 2, 3] .sE none = u.dieAnswer q ∧ DieOnly s u ∧
      (u.dieLine (siteOf q.dst) q.addr.toNat).map (·.st) = some .sE ∧
      (u.dieAt (siteOf p.dst)).heldSnoops = [] ∧ u.net = (s.dieConsumes p).net := by
  have hi := siteOf_lt hd
  have hdies := dies_dieTakes ha
  obtain ⟨hput, hline, -, hh⟩ := putDieLine_effect (s := s.dieTakes p) hi x.req.addr.toNat p .sE
  rw [installed, if_pos hdata] at hline
  have hnet : ((s.dieTakes p).putDieLine (siteOf p.dst) x.req.addr.toNat p .sE).net = (s.dieConsumes p).net := by
    rw [putDieLine_net, dieTakes_eq ha]
  have htx : (((s.dieTakes p).putDieLine (siteOf p.dst) x.req.addr.toNat p .sE).dieAt (siteOf p.dst)).txns = [(k, x)] := by
    rw [putDieLine_txns hi, dieAt_of_dies hdies, htxns]
  have hrow := dieInstall_txn hd ha hx hop (ops := [1, 2, 3]) (by rw [hreq]; rfl) .sE none
  rw [dieComplete_of_done (by simp [hlast]) (.inr rfl), txnStored_none] at hrow
  generalize (s.dieTakes p).putDieLine (siteOf p.dst) x.req.addr.toNat p .sE = v at *
  obtain ⟨hclosed, hlines, -, hheld'⟩ := txnClosed_effect (s := v) hi k x.req.addr.toNat
  have hempty : ((txnClosed v (siteOf p.dst) k x.req.addr.toNat).dieAt (siteOf p.dst)).txns = [] := by
    rw [txnClosed, dieAt_modDie_same _ _ hi]; simp [htx, Tab.del]
  dsimp only at hrow
  generalize txnClosed v (siteOf p.dst) k x.req.addr.toNat = c at *
  rw [releaseSnoops_one (q := q) (by rw [hheld', hh, dieAt_of_dies hdies, hheld]) (by rw [hqaddr])
    (by rw [State.mustHold, hqsite, hempty]; rfl)] at hrow
  have hu : ∀ i l, (snoopTaken c (siteOf p.dst) q).dieLine i l = c.dieLine i l := dieLine_modDie hi fun _ => rfl
  have hsE : (snoopTaken c (siteOf p.dst) q).dieLine (siteOf q.dst) q.addr.toNat = some ⟨.sE, ((s.dieTakes p).lineTaken p).1, p.psn⟩ := by
    rw [hqsite, hqaddr, hu, hlines, hline]
  have hno : ((snoopTaken c (siteOf p.dst) q).dieAt (siteOf p.dst)).heldSnoops = [] := by
    rw [snoopTaken, dieAt_modDie_same _ _ hi, hheld', hh, dieAt_of_dies hdies, hheld]; simp
  have hsnet : (snoopTaken c (siteOf p.dst) q).net = (s.dieConsumes p).net := by rw [← hnet, snoopTaken, State.modDie, hclosed]
  have hk : DieOnly s (snoopTaken c (siteOf p.dst) q) :=
    ((dieOnly_dieTakes ha).trans hput).trans ((dieOnly_of_dies hclosed).trans (u := snoopTaken c (siteOf p.dst) q) rfl)
  exact ⟨_, hrow, hk, by rw [hsE]; rfl, hno, hsnet⟩

/-- Settles O10: an answered snoop is one row of R184 carried out; a held one waits for the transaction that `dataE` completes. -/
theorem snoopsAtDies : Obligations.SnoopsAtDies := by
  unfold Obligations.SnoopsAtDies
  refine ⟨?answered, ?held, ?released⟩
  case answered =>
    intro s op p hrun hlo hhi hop hd ha hhold
    have hsnoop := dieSnoop_atDie hd ha
    rw [if_neg (by simp [hhold])] at hsnoop
    have hans : RowAnswered (s.dieConsumes p) p _ := rowAnswered_dieAnswer hd (by omega) (by omega)
    obtain ⟨hlinks, hfrm⟩ := snoop_frame ha hans.rest
    obtain ⟨hnext, hdata, hother, hsends⟩ := rowAnswered_of_taken hd ha hans
    refine answers_dom (exec_snoopCommand hlo hhi hop s) hrun hsnoop (by rw [hfrm]) (by rw [hfrm]) (by rw [hfrm]) ?_
    subst hop
    exact ⟨hnext, hdata, hother, hsends, hlinks, hfrm⟩
  case held =>
    intro s op p hrun hlo hhi hop hd ha hhold
    have hsnoop := dieSnoop_atDie hd ha
    rw [if_pos hhold] at hsnoop
    have hcons := dieConsumes_eq ha
    obtain ⟨hlinks, hfrm⟩ := snoop_frame ha (t := (s.dieConsumes p).modDie (siteOf p.dst) fun x => { x with heldSnoops := x.heldSnoops ++ [p] }) rfl
    refine answers_dom (exec_snoopCommand hlo hhi hop s) hrun hsnoop (by rw [hfrm]) (by rw [hfrm]) (by rw [hfrm]) ⟨?_, rfl, hlinks, hfrm⟩
    rw [dieAt_modDie_same _ _ (siteOf_lt hd), dieAt_of_dies (s := s) (by rw [hcons])]
  case released =>
    intro s p q k x hrun hop hd ha hdata hlast hx hreq htxns hheld hqop hqsize hqaddr hqsite hqd
    obtain ⟨u, hrow, hk, hsE, hno, hnet⟩ := dataE_releases hop hd ha hdata hlast hx hreq htxns hheld hqaddr hqsite
    have hq : rowOf u q = { next := none } := by
      simp [rowOf, hsE, hqop, r184]
    obtain ⟨hrest, hnext, -, -, hheldq, d, a, hsends, -, haop, -, hatxn, -, -, hasize, -⟩ :=
      rowAnswered_dieAnswer (s := u) hqd (by rw [hqop]; decide) (by rw [hqop]; decide)
    rw [hq] at hnext hsends haop hasize
    refine answers_die (f := (·.dieInstall 0x52 p [1, 2, 3] .sE none)) rfl hrun hrow (hk.trans (by unfold DieOnly; rw [hrest]))
      ⟨?_, by rw [hheldq, hno], a, ?_, BitVec.eq_of_toNat_eq haop, hatxn, BitVec.eq_of_toNat_eq hasize⟩
    · rw [hqsite, hqaddr] at hnext
      exact Option.map_eq_none_iff.mp hnext
    · rw [← hqsite]
      exact dieSends_of_net hsends hnet.symm rfl

end Sys2Proof.Proofs
end

section
/-! ### An answer to a transaction whose line's entry names an owner that is no site (R187, R247) -/

namespace Sys2Proof.Proofs

open Sys2Proof Sys2Proof.Machine Sys2Proof.Safety

/-- The snoop to site 0 of a RdShared of line 0. -/
def straySnoop : Snoop := { site := 0, op := 0x20, rank := 2, discard := false, line := 0, start := 0, txn := 0, fwd := true }

/-- The RdShared, from site 1, with that snoop outstanding and a Hearth read begun. -/
def strayTxn : Txn := { line := 0, req := { op := 0x01, src := 4 }, held := .shared 0, started := true, snoops := [straySnoop], hq := [.rd] }

/-- Every site is open, after reset. -/
def openSites : State := (List.range 16).foldl (fun s i => s.put (pgSITE i) Fld.SITE_STAT_FENCED 0) State.reset

/-- Home 0 serves it, the entry of the line names owner 16, and the bit that would be FENCED of a site 16 is set: it lies on the LNK page of site 0. -/
def strayOwner : State :=
  { openSites.put (pgLNK 0) Fld.SITE_STAT_FENCED 1 with
    homes := [{ trk := [(0, strayTxn)], dir := [(0, [{ line := 0, st := 2, pv := 16 }])] }] }

/-- The answer of site 0 to its snoop. -/
def strayAnswer : Pkt := { op := 0x43, src := 0, dst := nodeHome 0 }

theorem serving_strayOwner : Serving strayOwner 0 0 strayTxn := by
  unfold Serving
  refine ⟨⟨⟨rfl, ?_⟩, ?_⟩, by decide, rfl, rfl, rfl, by decide, rfl, rfl, rfl, rfl, rfl, by decide, rfl, by decide +kernel⟩ <;> decide +kernel

theorem issues_strayAnswer : Issues strayOwner 0 1 strayAnswer := by
  obtain ⟨hclocked, -⟩ := serving_strayOwner
  exact ⟨hclocked, rfl, rfl, by decide +kernel, fun _ => by decide +kernel⟩

/-- The answer does away with the entry, as with that of a fenced owner. -/
theorem snpAck_strayOwner (t : State) (h : exec (.snpAck strayAnswer) strayOwner = .next t) : t.lineDir 0 0 = .nc := by
  have hrun : (match exec (.snpAck strayAnswer) strayOwner with
    | .next u => decide (u.lineDir 0 0 = .nc)
    | _ => false) = true := by decide +kernel
  rw [h] at hrun
  simpa using hrun

/-- Refutes O14: an entry that names an owner above 15 (no write of the directory leaves one) is done away with by the answer to a snoop where
the register bit at that owner's place reads as FENCED, so a line's entry changes. The clauses of answers lack the premise that owners are sites. -/
theorem not_answersAtHome : ¬ Obligations.AnswersAtHome := by
  unfold Obligations.AnswersAtHome
  rintro ⟨hanswers, -⟩
  obtain ⟨hack, -⟩ := hanswers strayOwner 0 0 strayTxn strayAnswer straySnoop serving_strayOwner issues_strayAnswer rfl rfl
  obtain ⟨t, ht, -, -, hentries, -⟩ := hack (by decide) (by decide) rfl (by decide) rfl
  have hentry := hentries 0
  rw [snpAck_strayOwner t ht] at hentry
  exact absurd hentry (by decide +kernel)

end Sys2Proof.Proofs
end

section
/-! ### A violation of the die contract (R474, R475) -/

namespace Sys2Proof.Proofs

open Sys2Proof Sys2Proof.Machine Sys2Proof.Safety

/-- The registers of a site's page that a violation writes: BND_VIOL, where the first one was, and the counts by kind. -/
def ViolRegs (site p off : Nat) : Prop := p = pgSITE site ∧ (0x120 ≤ off ∧ off < 0x12c ∨ 0x580 ≤ off ∧ off < 0x5a8)

section
variable {s t u v : State} {site k : Nat} {p : Pkt}

/-- A violation in the counts and in BND_VIOL. -/
def violCounted (s : State) (site k : Nat) : State :=
  (s.count (pgSITE site) (Fld.BND_CNT_COUNT (k - 1))).setReg (pgSITE site) Reg.BND_VIOL
    (setBits ((s.count (pgSITE site) (Fld.BND_CNT_COUNT (k - 1))).reg (pgSITE site) Reg.BND_VIOL) (k - 1) 1 1)

/-- Where the first violation was (R475). -/
def violLocated (s : State) (site k : Nat) (p : Pkt) : State :=
  if s.flag (pgSITE site) Fld.BND_VIOL_LOC_HI_V then s
  else ((((s.put (pgSITE site) Fld.BND_VIOL_LOC_LO_ADDR_LO (paOf p.addr.toNat % 2 ^ 32 / 64)).put (pgSITE site) Fld.BND_VIOL_LOC_HI_ADDR_HI
    (paOf p.addr.toNat / 2 ^ 32)).put (pgSITE site) Fld.BND_VIOL_LOC_HI_OPCODE p.op.toNat).put (pgSITE site) Fld.BND_VIOL_LOC_HI_KIND k).raise1
    (pgSITE site) Fld.BND_VIOL_LOC_HI_V

/-- The record of a violation (R475). -/
def violRec (site k : Nat) (p : Pkt) : Rec :=
  { typ := 0x0E, cls := 3, source := srcSITE site 1, page := pgSITE site, node := p.src.toNat, opcode := p.op.toNat, addr := some (paOf p.addr.toNat),
    words := [site + 16 * k] }

theorem violation_state (s : State) (site k : Nat) (p : Pkt) : (s.violation site k p).2 =
    let l := violLocated (violCounted s site k) site k p
    { l with raised := l.raised ++ [srcSITE site 1],
             recs := if l.stormed (srcSITE site 1) then l.recs else l.recs ++ [violRec site k p] } := by
  change ((violLocated (violCounted s site k) site k p).fire (srcSITE site 1)).record (violRec site k p) = _
  generalize violLocated (violCounted s site k) site k p = l
  rw [record_eq, show (violRec site k p).fires = false from rfl, Bool.and_false]
  rfl

theorem violation_action (s : State) (site k : Nat) (p : Pkt) :
    (s.violation site k p).1 = bits ((s.violation site k p).2.reg (pgSITE site) Reg.BND_ACT) (2 * (k - 1)) 2 := rfl

theorem violLocated_eq (s : State) (site k : Nat) (p : Pkt) : ∃ regs, violLocated s site k p = { s with regs := regs } := by
  unfold violLocated
  split
  · exact ⟨s.regs, rfl⟩
  · refine put_keeps_links (links := s.links) ?_ _ _ _
    iterate 4 refine put_keeps_links (links := s.links) ?_ _ _ _
    exact ⟨s.regs, rfl⟩

/-- A violation writes registers, raises the site's event and leaves a record. -/
theorem violation_eq (s : State) (site k : Nat) (p : Pkt) : ∃ regs recs, (s.violation site k p).2 =
    { s with regs := regs, raised := s.raised ++ [srcSITE site 1], recs := recs } := by
  obtain ⟨regs, h⟩ := violLocated_eq (violCounted s site k) site k p
  rw [violation_state, h]
  exact ⟨regs, _, rfl⟩

theorem regsOnly_violCounted (s : State) (site : Nat) (hk : k ≤ 9) :
    RegsOnly (fun p off => p = pgSITE site ∧ (off = Reg.BND_VIOL ∨ off = Reg.BND_CNT (k - 1))) s (violCounted s site k) := by
  refine .trans (regsOnly_put _ _ _ _ ?_ ⟨rfl, .inr rfl⟩) (regsOnly_setReg _ _ _ _ (by decide) ⟨rfl, .inl rfl⟩)
  simp only [Fld.BND_CNT_COUNT]; omega

theorem regsOnly_violLocated (s : State) (site k : Nat) (p : Pkt) :
    RegsOnly (fun q off => q = pgSITE site ∧ (off = Reg.BND_VIOL_LOC_LO ∨ off = Reg.BND_VIOL_LOC_HI)) s (violLocated s site k p) := by
  unfold violLocated
  split
  · exact .refl s
  · have hhi := fun (t : State) (f : FRef) (v : Nat) (hf : f.off = Reg.BND_VIOL_LOC_HI) =>
      regsOnly_put (W := fun q off => q = pgSITE site ∧ (off = Reg.BND_VIOL_LOC_LO ∨ off = Reg.BND_VIOL_LOC_HI)) t (pgSITE site) v f
        (by rw [hf]; decide) ⟨rfl, .inr hf⟩
    exact (((regsOnly_put _ _ _ Fld.BND_VIOL_LOC_LO_ADDR_LO (by decide) ⟨rfl, .inl rfl⟩).trans (hhi _ Fld.BND_VIOL_LOC_HI_ADDR_HI _ rfl)).trans
      ((hhi _ Fld.BND_VIOL_LOC_HI_OPCODE _ rfl).trans (hhi _ Fld.BND_VIOL_LOC_HI_KIND _ rfl))).trans (hhi _ Fld.BND_VIOL_LOC_HI_V _ rfl)

/-- Only those registers change (R475). -/
theorem regsOnly_violation (s : State) (site : Nat) (p : Pkt) (hk : k ≤ 9) : RegsOnly (ViolRegs site) s (s.violation site k p).2 := by
  have hcount := (regsOnly_violCounted s site hk).mono (W := ViolRegs site) fun q off ⟨hq, ho⟩ => ⟨hq, by
    rcases ho with rfl | rfl
    · exact .inl (by decide)
    · right; simp only [Reg.BND_CNT]; omega⟩
  have hloc := (regsOnly_violLocated (violCounted s site k) site k p).mono (W := ViolRegs site) fun q off ⟨hq, ho⟩ => ⟨hq, by
    rcases ho with rfl | rfl <;> exact .inl (by decide)⟩
  refine (hcount.trans hloc).trans (.of_regs ?_)
  rw [violation_state]

/-- The action that BND_ACT gives for the kind (R474). -/
theorem violation_action_eq (s : State) (site : Nat) (p : Pkt) (hk : k ≤ 9) :
    (s.violation site k p).1 = bits (s.reg (pgSITE site) Reg.BND_ACT) (2 * (k - 1)) 2 := by
  rw [violation_action, regsOnly_violation s site p hk _ _ (by decide) (by rintro ⟨-, h | h⟩ <;> revert h <;> decide)]

theorem violLocated_shows (hv : s.flag (pgSITE site) Fld.BND_VIOL_LOC_HI_V = false) (hk : k ≤ 9) (p : Pkt) :
    (violLocated s site k p).get (pgSITE site) Fld.BND_VIOL_LOC_HI_KIND = k ∧
    (violLocated s site k p).get (pgSITE site) Fld.BND_VIOL_LOC_HI_OPCODE = p.op.toNat := by
  simp only [violLocated, hv, Bool.false_eq_true, if_false, State.raise1]
  constructor
  · rw [get_put_beside _ _ _ Fld.BND_VIOL_LOC_HI_V Fld.BND_VIOL_LOC_HI_KIND rfl (by decide) (.inl (by decide)), get_put_same _ _ _ _ (by decide)]
    exact Nat.mod_eq_of_lt (by simp only [Fld.BND_VIOL_LOC_HI_KIND]; omega)
  · rw [get_put_beside _ _ _ Fld.BND_VIOL_LOC_HI_V Fld.BND_VIOL_LOC_HI_OPCODE rfl (by decide) (.inl (by decide)),
      get_put_beside _ _ _ Fld.BND_VIOL_LOC_HI_KIND Fld.BND_VIOL_LOC_HI_OPCODE rfl (by decide) (.inl (by decide)), get_put_same _ _ _ _ (by decide)]
    exact Nat.mod_eq_of_lt p.op.isLt

theorem bitN_eq_bits (x i : Nat) : bitN x i = (bits x i 1 == 1) := rfl

theorem violCounted_shows (s : State) (site : Nat) (hk : k ≤ 9) :
    (violCounted s site k).get (pgSITE site) (Fld.BND_CNT_COUNT (k - 1)) = min (s.get (pgSITE site) (Fld.BND_CNT_COUNT (k - 1)) + 1) (2 ^ 32 - 1) ∧
    bitN ((violCounted s site k).reg (pgSITE site) Reg.BND_VIOL) (k - 1) = true := by
  constructor
  · unfold violCounted State.get
    rw [reg_setReg_ne]
    · exact get_count_same s _ 1 (Fld.BND_CNT_COUNT (k - 1)) (by simp [Fld.BND_CNT_COUNT])
    · intro h
      have := (regKey_inj (by simp only [Fld.BND_CNT_COUNT]; omega) (by decide) h).2
      simp only [Fld.BND_CNT_COUNT, Reg.BND_VIOL] at this
      omega
  · rw [violCounted, reg_setReg_same, bitN_eq_bits, bits_mod32 _ _ _ (by omega), bits_setBits_same]
    rfl

/-- A violation is counted, located and recorded (R475). -/
theorem violates_violation (s : State) {site : Nat} (hs : site < 16) (p : Pkt) (hk : k ≤ 9) : Violates s (s.violation site k p).2 site k p := by
  have hregs : (s.violation site k p).2.regs = (violLocated (violCounted s site k) site k p).regs := by
    rw [violation_state]
  have hcount := regsOnly_violCounted s site hk
  have hloc := regsOnly_violLocated (violCounted s site k) site k p
  have hcnt : ¬ (Reg.BND_CNT (k - 1) = Reg.BND_VIOL_LOC_LO ∨ Reg.BND_CNT (k - 1) = Reg.BND_VIOL_LOC_HI) := by
    simp only [Reg.BND_CNT, Reg.BND_VIOL_LOC_LO, Reg.BND_VIOL_LOC_HI]; omega
  have hlt : Reg.BND_CNT (k - 1) < 0x10000 := by simp only [Reg.BND_CNT]; omega
  obtain ⟨hnum, hbit⟩ := violCounted_shows s site hk
  obtain ⟨_, _, heq⟩ := violation_eq s site k p
  refine ⟨?_, ?_, ?_, fun hv => ?_, fun hstorm => ?_⟩
  · rw [get_of_regs hregs, hloc.get hlt fun h => hcnt h.2, hnum]
  · rw [reg_of_regs hregs, hloc _ _ (by decide) (by rintro ⟨-, h | h⟩ <;> revert h <;> decide), hbit]
  · rw [heq]; exact List.mem_append_right _ (List.mem_singleton_self _)
  · have hv' : (violCounted s site k).flag (pgSITE site) Fld.BND_VIOL_LOC_HI_V = false := by
      rw [hcount.flag (by decide) ?_, hv]
      rintro ⟨-, h | h⟩
      · revert h; decide
      · simp only [Reg.BND_CNT, Fld.BND_VIOL_LOC_HI_V] at h; omega
    simp only [get_of_regs hregs]
    exact violLocated_shows hv' hk p
  · refine ⟨violRec site k p, ?_, rfl, rfl, rfl⟩
    have hst : (violLocated (violCounted s site k) site k p).stormed (srcSITE site 1) = false := by
      have hpg : ∀ off : Prop, ¬ (pgEVT = pgSITE site ∧ off) := fun off h => by have := h.1; simp only [pgEVT, pgSITE] at this; omega
      have hlt : Reg.EVT_STORM (srcSITE site 1 / 32) < 0x10000 := by simp only [Reg.EVT_STORM, srcSITE]; omega
      rw [← hstorm]
      unfold State.stormed
      rw [hloc _ _ hlt (hpg _), hcount _ _ hlt (hpg _)]
    rw [violation_state]
    simp only [hst, Bool.false_eq_true, if_false]
    exact List.mem_append_right _ (List.mem_singleton_self _)

end

end Sys2Proof.Proofs
end

section
/-! ### Boundary: the checks of a unit that a die sends (R469, R470, R474) -/

namespace Sys2Proof.Proofs

open Sys2Proof Sys2Proof.Machine Sys2Proof.Safety

section
variable {s s' t u v : State} {site m k : Nat} {p : Pkt}

/-- A violation stays counted, located and recorded through what touches none of its registers. -/
theorem violates_of_kept {W : Nat → Nat → Prop} (h : Violates s v site k p) (hk : k ≤ 9) (hs : s'.regs = s.regs) (hr : RegsOnly W v t)
    (hw : ∀ off, ViolRegs site (pgSITE site) off → ¬ W (pgSITE site) off) (hraised : t.raised = v.raised) (hrecs : t.recs = v.recs) :
    Violates s' t site k p := by
  obtain ⟨hcnt, hbit, hev, hloc, hrec⟩ := h
  have hcntw : ¬ W (pgSITE site) (Fld.BND_CNT_COUNT (k - 1)).off := hw _ ⟨rfl, .inr (by simp only [Fld.BND_CNT_COUNT]; omega)⟩
  have hlocw : ¬ W (pgSITE site) Reg.BND_VIOL_LOC_HI := hw _ ⟨rfl, .inl (by decide)⟩
  have hstorm : s'.stormed (srcSITE site 1) = s.stormed (srcSITE site 1) := by unfold State.stormed; rw [reg_of_regs hs]
  refine ⟨?_, ?_, by rw [hraised]; exact hev, ?_, ?_⟩
  · rw [hr.get (by simp only [Fld.BND_CNT_COUNT]; omega) hcntw, hcnt, get_of_regs hs]
  · rw [hr _ _ (by decide) (hw _ ⟨rfl, .inl (by decide)⟩), hbit]
  · rw [flag_of_regs hs, hr.get (f := Fld.BND_VIOL_LOC_HI_KIND) (by decide) hlocw, hr.get (f := Fld.BND_VIOL_LOC_HI_OPCODE) (by decide) hlocw]
    exact hloc
  · rw [hstorm, hrecs]; exact hrec

/-! #### The windows of a site -/

theorem foldl_or_testBit {α : Type} (l : List α) (c : α → Bool) (f : α → Nat) (g b : Nat) :
    (l.foldl (fun g i => if c i then g ||| f i else g) g).testBit b = (g.testBit b || l.any fun i => c i && (f i).testBit b) := by
  induction l generalizing g with
  | nil => simp
  | cons a l ih =>
    rw [List.foldl_cons, ih, List.any_cons]
    cases c a <;> simp [Bool.or_assoc]

theorem windowHigh_base (i : Nat) : Reg.BND_WIN_BASE_LO i + 4 = Reg.BND_WIN_BASE_HI i := by simp only [Reg.BND_WIN_BASE_LO, Reg.BND_WIN_BASE_HI]; omega

theorem windowHigh_limit (i : Nat) : Reg.BND_WIN_LIMIT_LO i + 4 = Reg.BND_WIN_LIMIT_HI i := by
  simp only [Reg.BND_WIN_LIMIT_LO, Reg.BND_WIN_LIMIT_HI]; omega

/-- What the windows grant together is what some window grants (R470). -/
theorem windowGrants_testBit (s : State) (site pa : Nat) {b : Nat} (hb : b < 3) :
    (s.windowGrants site pa).testBit b = (List.range 16).any fun i => winGrants s site pa i b := by
  have hfold := foldl_or_testBit (List.range 16) (fun i => s.flag (pgSITE site) (Fld.BND_WIN_BASE_LO_EN i) &&
    decide (s.winAddr (pgSITE site) (Reg.BND_WIN_BASE_LO i) ≤ pa) && decide (pa < s.winAddr (pgSITE site) (Reg.BND_WIN_LIMIT_LO i) + 4096))
    (fun i => bits (s.reg (pgSITE site) (Reg.BND_WIN_BASE_LO i)) 1 3) 0 b
  rw [Nat.zero_testBit, Bool.false_or] at hfold
  refine hfold.trans (congrArg (List.range 16).any (funext fun i => ?_))
  rw [winGrants, bitN_eq_testBit, bits, Nat.testBit_mod_two_pow, Nat.testBit_div_two_pow, decide_eq_true hb, Bool.true_and, Nat.add_comm b 1,
    ← windowHigh_base, ← windowHigh_limit]
  rfl

theorem permission_lt {q : Nat → Bool} {b : Nat} (h : b ∈ [0, 1, 2].filter q) : b < 3 := by
  have := (List.mem_filter.mp h).1
  simp only [List.mem_cons, List.not_mem_nil, or_false] at this
  omega

theorem and_ne_self (g : Nat) {n : Nat} (hn : n < 8) : (g &&& n != n) = !(([0, 1, 2].filter fun b => n.testBit b).all fun b => g.testBit b) := by
  have hbits : ∀ g : Nat, g &&& n = g % 8 &&& n := fun g => by
    apply Nat.eq_of_testBit_eq
    intro i
    rw [Nat.testBit_and, Nat.testBit_and, Nat.testBit_mod_two_pow g 3 i]
    by_cases hi : i < 3
    · simp [hi]
    · rw [Nat.testBit_lt_two_pow (lt_of_lt_of_le hn (Nat.pow_le_pow_right (n := 2) (by decide) (Nat.le_of_not_lt hi)))]; simp
  have htab : ∀ n < 8, ∀ g < 8, (g &&& n != n) = !(([0, 1, 2].filter fun b => n.testBit b).all fun b => g.testBit b) := by decide
  rw [hbits, htab n hn _ (Nat.mod_lt _ (by decide))]
  congr 1
  rw [Bool.eq_iff_iff, List.all_eq_true, List.all_eq_true]
  refine forall₂_congr fun b hb => ?_
  rw [Nat.testBit_mod_two_pow g 3 b, decide_eq_true (permission_lt hb), Bool.true_and]

theorem r470_eq : ∀ op : BitVec 7, r470 op.toNat = ([0, 1, 2].filter fun b => (permNeeded op).testBit b) ∧ permNeeded op < 8 ∧
    (isWindowed op = false → permNeeded op = 0) := by decide +kernel

/-- Check 4 of R469 is the table of R470 read window by window. -/
theorem windowCheck (s : State) (site : Nat) (p : Pkt) : (isWindowed p.op && (s.windowGrants site (paOf p.addr.toNat) &&& permNeeded p.op != permNeeded p.op)) =
    !((r470 p.op.toNat).all fun b => (List.range 16).any fun i => winGrants s site (paOf p.addr.toNat) i b) := by
  obtain ⟨htab, hlt, hnone⟩ := r470_eq p.op
  have hany : ((r470 p.op.toNat).all fun b => (List.range 16).any fun i => winGrants s site (paOf p.addr.toNat) i b) =
      (r470 p.op.toNat).all fun b => (s.windowGrants site (paOf p.addr.toNat)).testBit b := by
    rw [Bool.eq_iff_iff, List.all_eq_true, List.all_eq_true]
    refine forall₂_congr fun b hb => ?_
    rw [windowGrants_testBit _ _ _ (permission_lt (htab ▸ hb))]
  rw [hany, htab, ← and_ne_self _ hlt]
  cases hw : isWindowed p.op with
  | true => rfl
  | false => rw [hnone hw]; simp

/-! #### The checks in order -/

/-- Failures with the kinds of their checks, from kind `n` on. -/
def numbered (n : Nat) (l : List Bool) : List (Nat × Bool) := (l.zipIdx n).map Prod.swap

/-- The checks of LNK[s] are those of R469. -/
theorem boundaryChecks_eq (s : State) (site : Nat) (p : Pkt) : s.boundaryChecks site p = numbered 1 (r469Fails s site p) := by
  have hwin := windowCheck s site p
  simp only [State.boundaryChecks, r469Fails, numbered, List.zipIdx_cons, List.zipIdx_nil, List.map_cons, List.map_nil, Prod.swap, formatOk,
    isCounted, Bool.and_assoc, ← hwin]

theorem boundaryRun_passes (s : State) (site : Nat) (p : Pkt) (n : Nat) {l : List Bool} (h : l.all (fun b => !b) = true) :
    s.boundaryRun site p (numbered n l) = (none, s) := by
  induction l generalizing n with
  | nil => rfl
  | cons b l ih =>
    rw [List.all_cons, Bool.and_eq_true] at h
    obtain ⟨hb, hl⟩ := h
    cases b with
    | true => cases hb
    | false => exact ih (n + 1) hl

/-- The first check that fails is a violation of its kind, and its action decides unless it is to log (R474). -/
theorem boundaryRun_fails (s : State) (site : Nat) (p : Pkt) (n : Nat) {l : List Bool} (h : l.findIdx? id = some k) :
    s.boundaryRun site p (numbered n l) = if (s.violation site (n + k) p).1 = 0
      then (s.violation site (n + k) p).2.boundaryRun site p (numbered (n + k + 1) (l.drop (k + 1)))
      else (some (s.violation site (n + k) p).1, (s.violation site (n + k) p).2) := by
  induction l generalizing n k with
  | nil => cases h
  | cons b l ih =>
    cases b with
    | true =>
      obtain rfl : 0 = k := by simpa [List.findIdx?_cons] using h
      simp [numbered, State.boundaryRun]
    | false =>
      obtain ⟨j, hj, rfl⟩ : ∃ j, l.findIdx? id = some j ∧ j + 1 = k := by simpa [List.findIdx?_cons] using h
      rw [show n + (j + 1) = n + 1 + j by omega]
      exact ih (n + 1) hj

end

end Sys2Proof.Proofs
end

section
/-! ### A unit of a die at LNK[s] (R160, R469, R472, R474, R475) -/

namespace Sys2Proof.Proofs

open Sys2Proof Sys2Proof.Machine Sys2Proof.Safety

/-! #### What passing Boundary changes -/

/-- The registers that a unit's way through LNK[s] writes beside violations: those of its links, and the requests outstanding. -/
def PassRegs (site p off : Nat) : Prop := p = pgLNK site ∨ (p = pgSITE site ∧ off = Reg.BND_OUT)

/-- Nothing changes but the units in flight, the link sides, what the sites note, and those registers. -/
structure Passing (site : Nat) (s t : State) : Prop where
  rest : t = { s with net := t.net, regs := t.regs, links := t.links, sites := t.sites }
  regs : RegsOnly (PassRegs site) s t

section
variable {s t u v : State} {site m k : Nat} {p : Pkt}

theorem Passing.trans (h : Passing site s t) (g : Passing site t u) : Passing site s u := ⟨by rw [g.rest, h.rest], h.regs.trans g.regs⟩

theorem Passing.off (h : Passing site s t) : t.off = s.off := by rw [h.rest]

theorem Passing.pending (h : Passing site s t) : t.pending = s.pending := by rw [h.rest]

theorem Passing.time (h : Passing site s t) : t.time = s.time := by rw [h.rest]

theorem Passing.recs (h : Passing site s t) : t.recs = s.recs := by rw [h.rest]

theorem passing_of_regs (hrest : t = { s with net := t.net, links := t.links, sites := t.sites }) : Passing site s t :=
  ⟨by rw [hrest], .of_regs (by rw [hrest])⟩

theorem passing_linkFree (s : State) (site : Nat) (hm : m < 4) (e : LinkEnd) (p : Pkt) : Passing site s (s.linkFree site m e p) := by
  have h := linkKept_linkFree (site := site) s hm e p
  exact ⟨by rw [h.rest], h.regs.mono fun _ _ h => .inl h⟩

theorem outAdd_eq (s : State) (site : Nat) (p : Pkt) : s.outAdd site p = { s with sites := (s.outAdd site p).sites, regs := (s.outAdd site p).regs } := by
  unfold State.outAdd; split <;> rfl

theorem passing_outAdd (s : State) (site : Nat) (p : Pkt) : Passing site s (s.outAdd site p) := by
  refine ⟨by rw [outAdd_eq], ?_⟩
  unfold State.outAdd
  split
  · exact (RegsOnly.of_regs rfl).trans (regsOnly_put _ _ _ Fld.BND_OUT_COUNT (by decide) (.inr ⟨rfl, rfl⟩))
  · exact .refl s

theorem outReq_outAdd (hs : site < 16) (hp : isCounted p.op = true) :
    ((s.outAdd site p).siteAt site).outReq = (s.siteAt site).outReq ++ [(p.src.toNat, p.txn.toNat)] := by
  have h : (s.outAdd site p).siteAt site = (s.modSite site fun x => { x with outReq := x.outReq ++ [(p.src.toNat, p.txn.toNat)] }).siteAt site := by
    unfold State.outAdd; rw [if_pos hp]; rfl
  rw [h, siteAt_modSite_same _ _ hs]

/-- What LNK[s] notes of an outstanding request leaves the units it holds and the tokens of its meters. -/
theorem siteAt_outAdd (hs : site < 16) (p : Pkt) :
    ((s.outAdd site p).siteAt site).held = (s.siteAt site).held ∧ ((s.outAdd site p).siteAt site).tokens = (s.siteAt site).tokens := by
  unfold State.outAdd
  split
  · have h : ((s.modSite site fun x => { x with outReq := x.outReq ++ [(p.src.toNat, p.txn.toNat)] }).outUpd site).siteAt site =
        (s.modSite site fun x => { x with outReq := x.outReq ++ [(p.src.toNat, p.txn.toNat)] }).siteAt site := rfl
    rw [h, siteAt_modSite_same _ _ hs]; exact ⟨rfl, rfl⟩
  · exact ⟨rfl, rfl⟩

theorem not_passRegs {off : Nat} (h : off ≠ Reg.BND_OUT) : ¬ PassRegs site (pgSITE site) off := by
  rintro (h' | ⟨-, h'⟩)
  · simp only [pgSITE, pgLNK] at h'; omega
  · exact h h'

theorem Passing.flag (h : Passing site s t) {f : FRef} (ho : f.off < 0x10000) (hf : f.off ≠ Reg.BND_OUT) :
    t.flag (pgSITE site) f = s.flag (pgSITE site) f := h.regs.flag ho (not_passRegs hf)

theorem Passing.get (h : Passing site s t) {f : FRef} (ho : f.off < 0x10000) (hf : f.off ≠ Reg.BND_OUT) :
    t.get (pgSITE site) f = s.get (pgSITE site) f := h.regs.get ho (not_passRegs hf)

theorem Passing.classOf (h : Passing site s t) (hs : site < 16) (n : BitVec 8) : t.classOf n = s.classOf n := by
  unfold State.classOf
  rw [h.regs _ _ (by omega)]
  simp only [PassRegs, pgHOME, pgLNK, pgSITE]
  omega

/-- A violation before the unit passed stays one. -/
theorem Passing.violates (h : Passing site v t) (hk : k ≤ 9) (hv : Violates s v site k p) : Violates s t site k p := by
  refine violates_of_kept hv hk rfl h.regs (fun off ho => not_passRegs ?_) (by rw [h.rest]) (by rw [h.rest])
  rintro rfl
  obtain ⟨-, ho⟩ := ho
  revert ho; decide

/-! #### The unit is taken from the module's receive buffer -/

/-- LNK[s] has taken the only unit in flight. -/
def taken (s : State) : State := { s with net := [] }

theorem sameUnit_self (p : Pkt) : State.sameUnit p p = true := by simp [State.sameUnit]

theorem dieUnit_alone {t0 : Nat} (hs : site < 16) (hm : m < 4) (hnet : s.net = [⟨p, .link site m, t0⟩]) (hst : s.get pgPWR Fld.PWR_STAT_STATE = 0) :
    s.dieUnit site m p = s.dieUnitTake site m ⟨p, .link site m, t0⟩ := by
  have hcome : s.dieUnitCome site m p = s := by simp [State.dieUnitCome, hnet, sameUnit_self]
  have hhead : s.queueOf ⟨p, .link site m, t0⟩ = [⟨p, .link site m, t0⟩] := by simp [State.queueOf, hnet]
  unfold State.dieUnit
  rw [if_neg (by simp; omega), hcome]
  simp [hnet, sameUnit_self, hst, hhead]

/-- A unit of an admitted site in RUN goes through the checks. -/
theorem dieUnit_checked {t0 : Nat} (h : AtBoundary s site m p t0) :
    s.dieUnit site m p = (taken s).dieChecked site m { p with dst := s.dieDst p } t0 := by
  obtain ⟨-, hs, hm, hnet, hst, hf, -⟩ := h
  rw [dieUnit_alone hs hm hnet hst, State.dieUnitTake]
  simp only [hnet, List.erase_cons_head]
  have hf' : (taken s).fenced site = false := hf
  unfold taken at hf' ⊢
  rw [if_neg (by simp [hf'])]
  rfl

/-- A unit of a fenced site is discarded and counted (R131, R245). -/
theorem dieUnit_fenced {t0 : Nat} (hs : site < 16) (hm : m < 4) (hnet : s.net = [⟨p, .link site m, t0⟩]) (hst : s.get pgPWR Fld.PWR_STAT_STATE = 0)
    (hf : s.fenced site = true) : s.dieUnit site m p = ((taken s).linkFree site m .hub p).discardCount := by
  rw [dieUnit_alone hs hm hnet hst, State.dieUnitTake]
  simp only [hnet, List.erase_cons_head]
  have hf' : (taken s).fenced site = true := hf
  unfold taken at hf' ⊢
  rw [if_pos hf']

theorem noteAnswer_of_none (h : isSnoopAnswer p.op = false ∨ (s.siteAt site).snoops = []) (t : Nat) : s.noteAnswer site p t = s := by
  unfold State.noteAnswer
  rcases h with h | h <;> simp [h]

theorem writeLost_of_op (h1 : p.op ≠ 0x68) (h2 : p.op ≠ 0x71) (s : State) (cause target : Nat) : s.writeLost p cause target = s := by
  have h1' : (p.op == 0x68) = false := by simpa using h1
  have h2' : (p.op == 0x71) = false := by simpa using h2
  simp only [State.writeLost, State.isDieWrite, h1', h2', Bool.or_self, Bool.and_false, Bool.false_eq_true, if_false]

theorem ownSrc_op (site m : Nat) (p : Pkt) : (State.ownSrc site m p).op = p.op := by unfold State.ownSrc; split <;> rfl

/-- A request to a home or to SITE answers nothing and addresses no device. -/
theorem request_op : ∀ op : BitVec 7, op.toNat ≤ 11 → isSnoopAnswer op = false ∧ isDevReq op = false ∧ (op == 0x78 || op == 0x79) = false ∧
    op ≠ 0x68 ∧ op ≠ 0x71 := by decide +kernel

/-- What follows once the checks let a request go on. -/
theorem dieChecked_goes (hop : p.op.toNat ≤ 11) {t : Nat} (h : s.boundaryRun site p (s.boundaryChecks site p) = (none, v)) :
    s.dieChecked site m p t = (v.outAdd site p).dieMeters site m p := by
  obtain ⟨hans, hdev, hcpl, -⟩ := request_op p.op hop
  simp only [State.dieChecked, noteAnswer_of_none (.inl hans), h, hdev, State.noteCompletion, hcpl]
  rfl

/-- A request that the action of a failed check refuses is answered (R475). -/
theorem dieChecked_refuses (hop : p.op.toNat ≤ 11) {t : Nat} (h : s.boundaryRun site p (s.boundaryChecks site p) = (some 1, v)) :
    s.dieChecked site m p t = (v.linkFree site m .hub p).dropAnswer site m p := by
  obtain ⟨hans, -, -, h68, h71⟩ := request_op p.op hop
  simp only [State.dieChecked, noteAnswer_of_none (.inl hans), h]
  exact writeLost_of_op (by rw [ownSrc_op]; exact h68) (by rw [ownSrc_op]; exact h71) _ _ _

/-- A unit that the action of a failed check discards leaves no answer (R475). -/
theorem dieChecked_discards (hans : isSnoopAnswer p.op = false ∨ (s.siteAt site).snoops = []) (h68 : p.op ≠ 0x68) (h71 : p.op ≠ 0x71) {t a : Nat}
    (ha : a ≠ 1) (h : s.boundaryRun site p (s.boundaryChecks site p) = (some a, v)) : s.dieChecked site m p t = v.linkFree site m .hub p := by
  have ha' : (some a == some 1) = false := by simpa using ha
  simp only [State.dieChecked, noteAnswer_of_none hans, h, ha']
  exact writeLost_of_op (by rw [ownSrc_op]; exact h68) (by rw [ownSrc_op]; exact h71) _ _ _

/-! #### Meters (R472) -/

theorem mem_metersOf_lt (p : Pkt) : ∀ k ∈ metersOf p, k < 4 := by
  intro k hk
  simp only [metersOf, List.mem_append] at hk
  rcases hk with ((hk | hk) | hk) | hk <;> split at hk <;> simp at hk <;> omega

theorem lackOf_disabled (h : ∀ k, k < 4 → s.flag (pgSITE site) (Fld.BND_METER_EN k) = false) (p : Pkt) : s.lackOf site p = [] := by
  refine List.filter_eq_nil_iff.mpr fun k hk => ?_
  simp [State.meterEmpty, h k (mem_metersOf_lt p k hk)]

theorem meterTake_disabled (h : ∀ k, k < 4 → s.flag (pgSITE site) (Fld.BND_METER_EN k) = false) {l : List Nat} (hl : ∀ k ∈ l, k < 4) :
    l.foldl (fun s k => s.meterTake site k) s = s := by
  induction l with
  | nil => rfl
  | cons k l ih =>
    have hk : s.meterTake site k = s := by
      rw [State.meterTake, if_neg (by simp [h k (hl k (List.mem_cons_self ..))])]
    rw [List.foldl_cons, hk]
    exact ih fun j hj => hl j (List.mem_cons_of_mem _ hj)

/-- With no meter enabled and no unit held, a unit goes on. -/
theorem dieMeters_open (h : ∀ k, k < 4 → s.flag (pgSITE site) (Fld.BND_METER_EN k) = false) (hheld : (s.siteAt site).held = []) :
    s.dieMeters site m p = s.dieForward site m p := by
  unfold State.dieMeters
  simp only [hheld, List.any_nil, lackOf_disabled h, List.isEmpty_nil, if_true, meterTake_disabled h (mem_metersOf_lt p)]
  split <;> rfl

/-! #### Where a unit goes (R160, R408) -/

/-- A unit leaves LNK[s] for the fabric, toward its home. -/
theorem dieForward_home (h : p.op.toNat ≤ 8) (s : State) (site m : Nat) :
    s.dieForward site m p = (s.linkFree site m .hub p).send { p with inj := some (nodeModule site m) } p.dst := by
  obtain ⟨-, hdev, -⟩ := request_op p.op (by omega)
  unfold State.dieForward
  rw [if_neg (by simp; omega)]
  simp [hdev]

/-- A unit for SITE. -/
theorem dieForward_site (h9 : 9 ≤ p.op.toNat) (h11 : p.op.toNat ≤ 11) (s : State) (site m : Nat) :
    s.dieForward site m p = { s.linkFree site m .hub p with
      net := (s.linkFree site m .hub p).net ++ [⟨{ p with inj := some (nodeModule site m) }, .site site, (s.linkFree site m .hub p).time⟩] } := by
  unfold State.dieForward
  rw [if_pos (by simp [h9, h11])]

end

end Sys2Proof.Proofs
end

section
/-! ### Boundary: what becomes of a unit (R160, R469, R472, R474, R475) -/

namespace Sys2Proof.Proofs

open Sys2Proof Sys2Proof.Machine Sys2Proof.Safety

section
variable {s t v : State} {site m k t0 : Nat} {p : Pkt}

/-- A unit that has passed stands at LNK[s]'s interface, toward its destination. -/
def passedOut (v : State) (site m : Nat) (p : Pkt) : State :=
  ((v.outAdd site p).linkFree site m .hub p).send { p with inj := some (nodeModule site m) } p.dst

theorem passing_passedOut (v : State) (site : Nat) (hm : m < 4) (p : Pkt) : Passing site v (passedOut v site m p) :=
  ((passing_outAdd v site p).trans (passing_linkFree _ site hm .hub p)).trans (passing_of_regs rfl)

theorem request_vc : ∀ op : BitVec 7, op.toNat ≤ 8 → vcOfOp op = 0 := by decide +kernel

theorem passedOut_net (hs : site < 16) (hm : m < 4) (h1 : 1 ≤ p.op.toNat) (h8 : p.op.toNat ≤ 8) :
    (passedOut v site m p).net = v.net ++ [⟨{ p with vc := 0, cls := v.classOf p.src, inj := some (nodeModule site m) }, .out, v.time⟩] := by
  have hpass := (passing_outAdd v site p).trans (passing_linkFree _ site hm .hub p)
  have hnet : ((v.outAdd site p).linkFree site m .hub p).net = v.net := by rw [(linkKept_linkFree _ hm .hub p).rest, outAdd_eq]
  have htime : ((v.outAdd site p).linkFree site m .hub p).time = v.time := by rw [hpass.rest]
  rw [passedOut, send_net, hnet, htime]
  simp only [h1, h8, decide_true, Bool.and_self, if_true, request_vc p.op h8, hpass.classOf hs]

theorem outReq_passedOut (hs : site < 16) (hm : m < 4) (hp : isCounted p.op = true) :
    ((passedOut v site m p).siteAt site).outReq = (v.siteAt site).outReq ++ [(p.src.toNat, p.txn.toNat)] := by
  rw [← outReq_outAdd hs hp]
  refine congrArg Site.outReq (siteAt_of_sites ?_ site)
  rw [passedOut, State.send, (linkKept_linkFree _ hm .hub p).rest]

/-- A request that the checks let through goes to its home where no meter is enabled and no unit is held. -/
theorem dieMeters_home (hs : site < 16) (h8 : p.op.toNat ≤ 8) (hen : ∀ k, k < 4 → v.flag (pgSITE site) (Fld.BND_METER_EN k) = false)
    (hheld : (v.siteAt site).held = []) : (v.outAdd site p).dieMeters site m p = passedOut v site m p := by
  have hpass := passing_outAdd v site p
  rw [dieMeters_open (fun k hk => ?_) ((siteAt_outAdd hs p).1.trans hheld), dieForward_home h8]
  · rfl
  · rw [hpass.flag (by simp only [Fld.BND_METER_EN]; omega) (by simp only [Fld.BND_METER_EN, Reg.BND_OUT]; omega), hen k hk]

/-- The destination of a request of a die is the home of its line (R159). -/
theorem dieDst_request (s : State) (h1 : 1 ≤ p.op.toNat) (h8 : p.op.toNat ≤ 8) : s.dieDst p = nodeHome (s.home (paOf p.addr.toNat)) := by
  simp [State.dieDst, h1, h8]

/-- The unit with the destination that LNK[s] determines for it (R159, R169). -/
def routed (s : State) (p : Pkt) : Pkt := { p with dst := s.dieDst p }

/-- A unit that fails no check goes on. -/
theorem dieUnit_passes (h : AtBoundary s site m p t0) (hfails : (r469Fails s site p).all (fun b => !b) = true) (h11 : p.op.toNat ≤ 11) :
    s.dieUnit site m p = ((taken s).outAdd site (routed s p)).dieMeters site m (routed s p) := by
  have hrun : (taken s).boundaryRun site (routed s p) ((taken s).boundaryChecks site (routed s p)) = (none, taken s) := by
    rw [boundaryChecks_eq]; exact boundaryRun_passes _ _ _ _ hfails
  exact (dieUnit_checked h).trans (dieChecked_goes (p := routed s p) h11 hrun)

/-- The command of a unit that ends with its passing. -/
theorem answers_passing {P : State → Prop} (hr : Running s) (hrow : s.dieUnit site m p = t) (hpass : Passing site v t) (hoff : v.off = s.off)
    (hpend : v.pending = s.pending) (htime : v.time = s.time) (hP : P t) : Answers (.dieUnit site m p) s P :=
  answers_dom (f := (·.dieUnit site m p)) rfl hr hrow (hpass.off.trans hoff) (hpass.pending.trans hpend) (hpass.time.trans htime) hP

section
variable (hb : AtBoundary s site m p t0)
include hb

theorem dieUnit_home (hfails : (r469Fails s site p).all (fun b => !b) = true) (hen : ∀ k, k < 4 → s.flag (pgSITE site) (Fld.BND_METER_EN k) = false)
    (hheld : (s.siteAt site).held = []) (h1 : 1 ≤ p.op.toNat) (h8 : p.op.toNat ≤ 8) : Answers (.dieUnit site m p) s fun t =>
      t.net.map (fun e => (e.p, e.at_)) =
        [({ p with vc := 0, cls := s.classOf p.src, dst := nodeHome (s.home (paOf p.addr.toNat)), inj := some (nodeModule site m) }, .out)] ∧
      (p.op.toNat ≤ 7 → (t.siteAt site).outReq = (s.siteAt site).outReq ++ [(p.src.toNat, p.txn.toNat)]) ∧ t.recs = s.recs := by
  obtain ⟨hr, hs, hm, -⟩ := id hb
  have hrow := (dieUnit_passes hb hfails (by omega)).trans (dieMeters_home (v := taken s) (p := routed s p) (m := m) hs h8 hen hheld)
  have hpass := passing_passedOut (taken s) site hm (routed s p)
  refine answers_passing hr hrow hpass rfl rfl rfl ⟨?_, fun h7 => ?_, hpass.recs⟩
  · have hnet := passedOut_net (v := taken s) (p := routed s p) hs hm h1 h8
    rw [hnet, ← dieDst_request s h1 h8]; rfl
  · exact outReq_passedOut (p := routed s p) hs hm (by change isCounted p.op = true; simp [isCounted, h1, h7])

theorem dieUnit_site (hfails : (r469Fails s site p).all (fun b => !b) = true) (hen : ∀ k, k < 4 → s.flag (pgSITE site) (Fld.BND_METER_EN k) = false)
    (hheld : (s.siteAt site).held = []) (h9 : 9 ≤ p.op.toNat) (h11 : p.op.toNat ≤ 11) : Answers (.dieUnit site m p) s fun t =>
      t.net.map (fun e => (e.p.op, e.p.txn, e.at_)) = [(p.op, p.txn, .site site)] ∧ t.recs = s.recs := by
  obtain ⟨hr, hs, hm, -⟩ := id hb
  have hcnt : isCounted p.op = false := by simp [isCounted]; omega
  have hrow := dieUnit_passes hb hfails h11
  rw [show (taken s).outAdd site (routed s p) = taken s from if_neg (by change ¬ isCounted p.op = true; simp [hcnt]),
    dieMeters_open (s := taken s) hen hheld, dieForward_site (p := routed s p) h9 h11] at hrow
  have hfree := passing_linkFree (taken s) site hm .hub (routed s p)
  have hnet : ((taken s).linkFree site m .hub (routed s p)).net = [] := by rw [(linkKept_linkFree _ hm .hub _).rest]; rfl
  generalize (taken s).linkFree site m .hub (routed s p) = w at hrow hfree hnet
  exact answers_passing hr hrow (hfree.trans (passing_of_regs rfl)) rfl rfl rfl ⟨by rw [hnet]; rfl, hfree.recs⟩

end

/-! #### Failed checks -/

/-- A unit whose check of kind `k + 1` failed. -/
def violated (s : State) (site k : Nat) (p : Pkt) : State := ((taken s).violation site (k + 1) (routed s p)).2

theorem violated_eq (s : State) (site k : Nat) (p : Pkt) : ∃ regs raised recs, violated s site k p = { taken s with regs := regs, raised := raised, recs := recs } := by
  obtain ⟨regs, recs, h⟩ := violation_eq (taken s) site (k + 1) (routed s p)
  exact ⟨regs, _, recs, h⟩

theorem violated_rest (s : State) (site k : Nat) (p : Pkt) : (violated s site k p).off = s.off ∧ (violated s site k p).pending = s.pending ∧
    (violated s site k p).time = s.time ∧ (violated s site k p).net = [] ∧ (violated s site k p).sites = s.sites := by
  obtain ⟨_, _, _, h⟩ := violated_eq s site k p
  rw [h]; exact ⟨rfl, rfl, rfl, rfl, rfl⟩

theorem violated_flag (hk : k < 5) (p : Pkt) {f : FRef} (ho : f.off < 0x120 ∨ 0x12c ≤ f.off ∧ f.off < 0x580) :
    (violated s site k p).flag (pgSITE site) f = s.flag (pgSITE site) f := by
  refine (regsOnly_violation (taken s) site (routed s p) (k := k + 1) (by omega)).flag (by omega) ?_
  rintro ⟨-, h⟩
  omega

/-- The first check that fails is a violation, and its action decides (R474). -/
theorem boundaryRun_first (h : (r469Fails s site p).findIdx? id = some k) : k < 5 ∧
    (taken s).boundaryRun site (routed s p) ((taken s).boundaryChecks site (routed s p)) =
      if bits (s.reg (pgSITE site) Reg.BND_ACT) (2 * k) 2 = 0
      then (violated s site k p).boundaryRun site (routed s p) (numbered (k + 2) ((r469Fails s site p).drop (k + 1)))
      else (some (bits (s.reg (pgSITE site) Reg.BND_ACT) (2 * k) 2), violated s site k p) := by
  have hk : k < 5 := (List.findIdx?_eq_some_iff_getElem.mp h).1
  refine ⟨hk, ?_⟩
  have hact := violation_action_eq (taken s) site (routed s p) (k := k + 1) (by omega)
  rw [Nat.add_sub_cancel] at hact
  have hrun := boundaryRun_fails (taken s) site (routed s p) 1 (l := r469Fails s site p) h
  rw [show 1 + k = k + 1 by omega, hact, show k + 1 + 1 = k + 2 by omega] at hrun
  rw [boundaryChecks_eq]
  exact hrun

theorem violates_violated (hs : site < 16) (hk : k < 5) (ht : Passing site (violated s site k p) t) : Violates s t site (k + 1) p :=
  ht.violates (by omega) (violates_violation (taken s) hs (routed s p) (by omega))

/-- The answer to a request that LNK[s] drops (R475). -/
theorem dropAnswer_request (h1 : 1 ≤ p.op.toNat) (h11 : p.op.toNat ≤ 11) (hf : s.fenced site = false) (hm : m < 4) (hs : site < 16) :
    ∃ e : InFlight, s.dropAnswer site m p = { s with net := s.net ++ [e] } ∧
      (e.p.op, e.p.txn, e.p.addr, e.p.dst) = (0x40, p.txn, 5, if isDieNode p.src ∧ siteOf p.src = site then p.src else nodeModule site m) := by
  have hsite : ∀ c : Bool, (c = true → siteOf p.src = site) → siteOf (if c then p.src else nodeModule site m) = site := fun c hc => by
    cases c with
    | true => exact hc rfl
    | false => exact (siteOf_nodeModule site hm).trans (Nat.mod_eq_of_lt (by omega))
  have hdrop : s.dropAnswer site m p =
      s.siteReply { p with src := if isDieNode p.src && siteOf p.src == site then p.src else nodeModule site m } 0x40 5 := by
    unfold State.dropAnswer
    dsimp only
    split
    · omega
    · omega
    · rw [if_pos (by simp [h1, h11])]
  rw [hdrop, State.siteReply, if_neg]
  · refine ⟨_, rfl, ?_⟩
    simp
  · have hc := hsite (isDieNode p.src && siteOf p.src == site) (by simp)
    simp only [hc, hf]
    decide

section
variable (hb : AtBoundary s site m p t0) (hfail : (r469Fails s site p).findIdx? id = some k)
include hb hfail

theorem dieUnit_refused (hact : bits (s.reg (pgSITE site) Reg.BND_ACT) (2 * k) 2 = 1) (h1 : 1 ≤ p.op.toNat) (h8 : p.op.toNat ≤ 8) :
    Answers (.dieUnit site m p) s fun t => Violates s t site (k + 1) p ∧ t.net.map (fun e => (e.p.op, e.p.txn, e.p.addr, e.p.dst)) =
      [(0x40, p.txn, 5, if isDieNode p.src ∧ siteOf p.src = site then p.src else nodeModule site m)] := by
  obtain ⟨hr, hs, hm, -, -, hf, -⟩ := id hb
  obtain ⟨hk, hrun⟩ := boundaryRun_first hfail
  rw [hact] at hrun
  obtain ⟨hoff, hpend, htime, hnet, -⟩ := violated_rest s site k p
  have hrow := (dieUnit_checked hb).trans (dieChecked_refuses (p := routed s p) (by change p.op.toNat ≤ 11; omega) hrun)
  have hfree := passing_linkFree (violated s site k p) site hm .hub (routed s p)
  have hfnet : ((violated s site k p).linkFree site m .hub (routed s p)).net = [] := by rw [(linkKept_linkFree _ hm .hub _).rest]; exact hnet
  have hff : ((violated s site k p).linkFree site m .hub (routed s p)).fenced site = false := by
    rw [State.fenced, hfree.flag (by decide) (by decide), violated_flag hk p (by decide)]; exact hf
  obtain ⟨e, he, hans⟩ := dropAnswer_request (p := routed s p) h1 (by change p.op.toNat ≤ 11; omega) hff hm hs
  rw [he] at hrow
  have hpass : Passing site (violated s site k p) { (violated s site k p).linkFree site m .hub (routed s p) with
    net := ((violated s site k p).linkFree site m .hub (routed s p)).net ++ [e] } := hfree.trans (passing_of_regs rfl)
  refine answers_passing hr hrow hpass hoff hpend htime ⟨violates_violated hs hk hpass, ?_⟩
  rw [hfnet]
  exact congrArg (fun x => [x]) hans

theorem dieUnit_discarded (hact : bits (s.reg (pgSITE site) Reg.BND_ACT) (2 * k) 2 = 2) (h68 : p.op ≠ 0x68) (h71 : p.op ≠ 0x71)
    (hsnp : (s.siteAt site).snoops = []) : Answers (.dieUnit site m p) s fun t => Violates s t site (k + 1) p ∧ t.net = [] := by
  obtain ⟨hr, hs, hm, -⟩ := id hb
  obtain ⟨hk, hrun⟩ := boundaryRun_first hfail
  rw [hact] at hrun
  obtain ⟨hoff, hpend, htime, hnet, -⟩ := violated_rest s site k p
  have hrow := (dieUnit_checked hb).trans (dieChecked_discards (s := taken s) (p := routed s p) (.inr hsnp) h68 h71 (by decide) hrun)
  have hfree := passing_linkFree (violated s site k p) site hm .hub (routed s p)
  refine answers_passing hr hrow hfree hoff hpend htime ⟨violates_violated hs hk hfree, ?_⟩
  rw [(linkKept_linkFree _ hm .hub _).rest]; exact hnet

theorem dieUnit_logged (hact : bits (s.reg (pgSITE site) Reg.BND_ACT) (2 * k) 2 = 0)
    (hlater : ((r469Fails s site p).drop (k + 1)).all (fun b => !b) = true) (hen : ∀ i, i < 4 → s.flag (pgSITE site) (Fld.BND_METER_EN i) = false)
    (hheld : (s.siteAt site).held = []) (h1 : 1 ≤ p.op.toNat) (h8 : p.op.toNat ≤ 8) : Answers (.dieUnit site m p) s fun t =>
      Violates s t site (k + 1) p ∧
        t.net.map (fun e => (e.p.op, e.p.txn, e.p.dst, e.at_)) = [(p.op, p.txn, nodeHome (s.home (paOf p.addr.toNat)), .out)] := by
  obtain ⟨hr, hs, hm, -⟩ := id hb
  obtain ⟨hk, hrun⟩ := boundaryRun_first hfail
  rw [hact, if_pos rfl, boundaryRun_passes _ _ _ _ hlater] at hrun
  obtain ⟨hoff, hpend, htime, hnet, hsites⟩ := violated_rest s site k p
  have hrow := (dieUnit_checked hb).trans (dieChecked_goes (p := routed s p) (by change p.op.toNat ≤ 11; omega) hrun)
  rw [dieMeters_home (p := routed s p) hs h8 (fun i hi => (violated_flag hk p (by simp only [Fld.BND_METER_EN]; omega)).trans (hen i hi))
    ((congrArg Site.held (siteAt_of_sites hsites site)).trans hheld)] at hrow
  have hpass := passing_passedOut (violated s site k p) site hm (routed s p)
  refine answers_passing hr hrow hpass hoff hpend htime ⟨violates_violated hs hk hpass, ?_⟩
  rw [passedOut_net (p := routed s p) hs hm h1 h8, hnet, ← dieDst_request s h1 h8]
  rfl

end

/-- A unit of a fenced site leaves no answer and no record (R245). -/
theorem dieUnit_ofFenced (hr : Running s) (hs : site < 16) (hm : m < 4) (hnet : s.net = [⟨p, .link site m, t0⟩])
    (hst : s.get pgPWR Fld.PWR_STAT_STATE = 0) (hf : s.fenced site = true) : Answers (.dieUnit site m p) s fun t =>
      t.net = [] ∧ t.recs = s.recs ∧ t.get (pgFAB 7) Fld.DISCARD_COUNT = min (s.get (pgFAB 7) Fld.DISCARD_COUNT + 1) (2 ^ 32 - 1) := by
  have hrow := dieUnit_fenced hs hm hnet hst hf
  have hfree := linkKept_linkFree (site := site) (taken s) hm .hub p
  have hpass := passing_linkFree (taken s) site hm .hub p
  have hnet' : ((taken s).linkFree site m .hub p).net = [] := by rw [hfree.rest]; rfl
  have hcount : ((taken s).linkFree site m .hub p).get (pgFAB 7) Fld.DISCARD_COUNT = s.get (pgFAB 7) Fld.DISCARD_COUNT :=
    hfree.get (by simp only [pgFAB, pgLNK]; omega) (by decide)
  clear hfree
  generalize (taken s).linkFree site m .hub p = w at *
  have hdisc : w.discardCount = { w with regs := w.discardCount.regs, raised := w.discardCount.raised } := rfl
  refine answers_dom (f := (·.dieUnit site m p)) rfl hr hrow ?_ ?_ ?_ ⟨?_, ?_, (discardCount_sets w).1.trans (by rw [hcount])⟩ <;> rw [hdisc]
  exacts [hpass.off, hpass.pending, hpass.time, hnet', hpass.recs]

end

end Sys2Proof.Proofs
end

section
/-! ### The rate meters of a site (R472) -/

namespace Sys2Proof.Proofs

open Sys2Proof Sys2Proof.Machine Sys2Proof.Safety

section
variable {s t v : State} {site m k t0 : Nat} {p q : Pkt}

theorem metersOf_request (h1 : 1 ≤ p.op.toNat) (h7 : p.op.toNat ≤ 7) (hrsv : p.rsv = false) : metersOf p = [0] := by
  have h68 : (p.op.toNat == 0x68) = false := by simp; omega
  have h70 : (p.op.toNat == 0x70) = false := by simp; omega
  have h71 : (p.op.toNat == 0x71) = false := by simp; omega
  have h8 : p.op.toNat ≤ 8 := by omega
  simp [metersOf, h1, h8, hrsv, h68, h70, h71]

/-- A request without RSV lacks a token where meter 0 is enabled and has none. -/
theorem lackOf_request (h1 : 1 ≤ p.op.toNat) (h7 : p.op.toNat ≤ 7) (hrsv : p.rsv = false)
    (hen : s.flag (pgSITE site) (Fld.BND_METER_EN 0) = true) : s.lackOf site p = if s.tokensNow site 0 < 1000 then [0] else [] := by
  rw [State.lackOf, metersOf_request h1 h7 hrsv]
  by_cases h : s.tokensNow site 0 < 1000 <;> simp [State.meterEmpty, hen, h]

theorem Passing.tokensNow (h : Passing site s t) (ht : (t.siteAt site).tokens = (s.siteAt site).tokens) (hk : k < 4) :
    t.tokensNow site k = s.tokensNow site k := by
  unfold State.tokensNow
  rw [ht, h.get (by simp only [Fld.BND_METER_BURST]; omega) (by simp only [Fld.BND_METER_BURST, Reg.BND_OUT]; omega),
    h.get (by simp only [Fld.BND_METER_RATE]; omega) (by simp only [Fld.BND_METER_RATE, Reg.BND_OUT]; omega), h.time]

/-- A unit waits for a token (R472). -/
def heldBack (s : State) (site m : Nat) (p : Pkt) : State :=
  (s.modSite site fun x => { x with held := x.held ++ [⟨p, m⟩] }).status (pgSITE site) Fld.BND_VIOL_HELD (srcSITE site 2)

theorem status_rest (s : State) (p : Nat) (f : FRef) (src : Nat) : ∃ regs raised, s.status p f src = { s with regs := regs, raised := raised } :=
  ⟨_, _, rfl⟩

theorem heldBack_rest (s : State) (site m : Nat) (p : Pkt) : (heldBack s site m p).off = s.off ∧ (heldBack s site m p).pending = s.pending ∧
    (heldBack s site m p).time = s.time ∧ (heldBack s site m p).net = s.net := by
  obtain ⟨_, _, h⟩ := status_rest (s.modSite site fun x => { x with held := x.held ++ [⟨p, m⟩] }) (pgSITE site) Fld.BND_VIOL_HELD (srcSITE site 2)
  rw [heldBack, h]
  exact ⟨rfl, rfl, rfl, rfl⟩

theorem heldBack_shows (s : State) (hs : site < 16) (m : Nat) (p : Pkt) :
    ((heldBack s site m p).siteAt site).held = (s.siteAt site).held ++ [⟨p, m⟩] ∧ (heldBack s site m p).flag (pgSITE site) Fld.BND_VIOL_HELD = true ∧
    ∀ k, k < 4 → (heldBack s site m p).get (pgSITE site) (Fld.BND_HELD_COUNT k) = s.get (pgSITE site) (Fld.BND_HELD_COUNT k) := by
  obtain ⟨_, _, h⟩ := status_rest (s.modSite site fun x => { x with held := x.held ++ [⟨p, m⟩] }) (pgSITE site) Fld.BND_VIOL_HELD (srcSITE site 2)
  have hsites : (heldBack s site m p).sites = (s.modSite site fun x => { x with held := x.held ++ [⟨p, m⟩] }).sites := by rw [heldBack, h]
  refine ⟨by rw [siteAt_of_sites hsites, siteAt_modSite_same s _ hs], flag_status_same _ _ _ rfl (by decide), fun k hk => ?_⟩
  refine (get_status_ne _ _ fun h => ?_).trans (get_of_regs (s := s) rfl _ _)
  have := (regKey_inj (by simp only [Fld.BND_HELD_COUNT]; omega) (by decide) h).2
  simp only [Fld.BND_HELD_COUNT, Fld.BND_VIOL_HELD] at this
  omega

theorem dieMeters_holds (hen : s.flag (pgSITE site) Fld.BND_CTL_EN = true) (hheld : (s.siteAt site).held = []) (hlack : s.lackOf site p = [k]) :
    s.dieMeters site m p = heldBack (s.count (pgSITE site) (Fld.BND_HELD_COUNT k)) site m p := by
  unfold State.dieMeters
  simp only [hen, hheld, hlack, List.any_nil]
  rfl

theorem count_eq (s : State) (p : Nat) (f : FRef) (n : Nat) : s.count p f n = { s with regs := (s.count p f n).regs } := rfl

/-- A request that finds meter 0 without a token is held. -/
theorem dieUnit_held (hb : AtBoundary s site m p t0) (hfails : (r469Fails s site p).all (fun b => !b) = true)
    (hctl : s.flag (pgSITE site) Fld.BND_CTL_EN = true) (hheld : (s.siteAt site).held = []) (h1 : 1 ≤ p.op.toNat) (h7 : p.op.toNat ≤ 7)
    (hrsv : p.rsv = false) (hen : s.flag (pgSITE site) (Fld.BND_METER_EN 0) = true) (hlow : s.tokensNow site 0 < 1000) :
    Answers (.dieUnit site m p) s fun t =>
      (∃ q, (t.siteAt site).held = [⟨q, m⟩] ∧ State.sameUnit { q with dst := p.dst } p = true) ∧ t.net = [] ∧
      t.flag (pgSITE site) Fld.BND_VIOL_HELD = true ∧
      t.get (pgSITE site) (Fld.BND_HELD_COUNT 0) = min (s.get (pgSITE site) (Fld.BND_HELD_COUNT 0) + 1) (2 ^ 32 - 1) := by
  obtain ⟨hr, hs, -⟩ := id hb
  have hpass := passing_outAdd (taken s) site (routed s p)
  obtain ⟨hheld', htok⟩ := siteAt_outAdd (s := taken s) hs (routed s p)
  have hnet : ((taken s).outAdd site (routed s p)).net = [] := by rw [outAdd_eq]; rfl
  have hrow := dieUnit_passes hb hfails (by omega)
  generalize (taken s).outAdd site (routed s p) = w at *
  have hlack : w.lackOf site (routed s p) = [0] := by
    rw [lackOf_request (p := routed s p) h1 h7 hrsv ((hpass.flag (by decide) (by decide)).trans hen), if_pos]
    rw [hpass.tokensNow htok (by decide)]; exact hlow
  rw [dieMeters_holds ((hpass.flag (by decide) (by decide)).trans hctl) (hheld'.trans hheld) hlack] at hrow
  have hcount := get_count_same w (pgSITE site) 1 (Fld.BND_HELD_COUNT 0) (by decide)
  have hrest := count_eq w (pgSITE site) (Fld.BND_HELD_COUNT 0) 1
  generalize w.count (pgSITE site) (Fld.BND_HELD_COUNT 0) = c at *
  obtain ⟨hshow, hflag, hkept⟩ := heldBack_shows c hs m (routed s p)
  obtain ⟨hoff, hpend, htime, hcnet⟩ := heldBack_rest c site m (routed s p)
  refine answers_dom (f := (·.dieUnit site m p)) rfl hr hrow (hoff.trans (.trans (by rw [hrest]) hpass.off))
    (hpend.trans (.trans (by rw [hrest]) hpass.pending)) (htime.trans (.trans (by rw [hrest]) hpass.time))
    ⟨⟨routed s p, ?_, sameUnit_self p⟩, hcnet.trans (.trans (by rw [hrest]) hnet), hflag, (hkept 0 (by decide)).trans (hcount.trans ?_)⟩
  · rw [hshow, siteAt_of_sites (s := w) (by rw [hrest]), hheld', show ((taken s).siteAt site).held = [] from hheld]; rfl
  · rw [hpass.get (by decide) (by decide)]; rfl

/-! #### Release of a held unit -/

/-- The oldest held unit goes on with its token: it is held no more, and the meter has one less. -/
theorem meterRelease_goes (hs : site < 16) (hheld : (s.siteAt site).held = [⟨q, m⟩]) (hctl : s.flag (pgSITE site) Fld.BND_CTL_EN = true)
    (h1 : 1 ≤ q.op.toNat) (h7 : q.op.toNat ≤ 7) (hrsv : q.rsv = false) (hen : s.flag (pgSITE site) (Fld.BND_METER_EN 0) = true)
    (htok : 1000 ≤ s.tokensNow site 0) : ∃ u : State, s.meterRelease site m q.vc.toNat = u.dieForward site m q ∧ u = { s with sites := u.sites } ∧
      (u.siteAt site).held = [] ∧ (u.siteAt site).tokens = modOf 4 (0, 0) (s.siteAt site).tokens 0 fun _ => (s.tokensNow site 0 - 1000, s.time) := by
  let w := s.modSite site fun x => { x with held := x.held.erase ⟨q, m⟩ }
  have hw : w.siteAt site = { s.siteAt site with held := [] } := by
    rw [siteAt_modSite_same _ _ hs, hheld, List.erase_cons_head]
  have hwtok : w.tokensNow site 0 = s.tokensNow site 0 := by unfold State.tokensNow; rw [hw]; rfl
  have hon : w.flag (pgSITE site) (Fld.BND_METER_EN 0) = true := hen
  refine ⟨w.meterTake site 0, ?_, ?_, ?_⟩
  · have hlack := lackOf_request (s := s) (site := site) h1 h7 hrsv hen
    rw [if_neg (by omega)] at hlack
    unfold State.meterRelease
    simp only [hheld, List.find?_cons, beq_self_eq_true, Bool.and_self, hctl, hlack, List.isEmpty_nil, Bool.not_true, Bool.and_false,
      Bool.false_eq_true, if_false, if_true, metersOf_request h1 h7 hrsv, List.foldl_cons, List.foldl_nil]
    rfl
  · rw [State.meterTake, if_pos hon]; rfl
  · rw [State.meterTake, if_pos hon, siteAt_modSite_same _ _ hs, hw, hwtok]
    exact ⟨rfl, rfl⟩

theorem meterRelease_waits (hheld : (s.siteAt site).held = [⟨q, m⟩]) (hctl : s.flag (pgSITE site) Fld.BND_CTL_EN = true)
    (h1 : 1 ≤ q.op.toNat) (h7 : q.op.toNat ≤ 7) (hrsv : q.rsv = false) (hen : s.flag (pgSITE site) (Fld.BND_METER_EN 0) = true)
    (htok : s.tokensNow site 0 < 1000) : s.meterRelease site m q.vc.toNat = s := by
  unfold State.meterRelease
  simp [hheld, hctl, lackOf_request h1 h7 hrsv hen, htok]

/-- Tokens just after they were set (R472). -/
theorem tokensNow_set (h : Passing site s t) {x : Nat} (hx : x ≤ 1000 * s.get (pgSITE site) (Fld.BND_METER_BURST 0))
    (htok : (t.siteAt site).tokens = modOf 4 (0, 0) (s.siteAt site).tokens 0 fun _ => (x, s.time)) : t.tokensNow site 0 = x := by
  unfold State.tokensNow
  rw [htok, nthD_modOf_same _ _ _ _ _ (by decide), h.get (by decide) (by decide), h.time]
  simp only [Nat.sub_self, Nat.mul_zero, Nat.add_zero]
  exact Nat.min_eq_right hx

/-- A held request goes on once its meter has a token, and not before. -/
theorem answers_meterRelease (hr : Running s) (hs : site < 16) (hm : m < 4) (hheld : (s.siteAt site).held = [⟨q, m⟩])
    (hctl : s.flag (pgSITE site) Fld.BND_CTL_EN = true) (h1 : 1 ≤ q.op.toNat) (h7 : q.op.toNat ≤ 7) (hrsv : q.rsv = false)
    (hen : s.flag (pgSITE site) (Fld.BND_METER_EN 0) = true) :
    (1000 ≤ s.tokensNow site 0 → Answers (.meterRelease site m q.vc.toNat) s fun t =>
      (t.siteAt site).held = [] ∧ t.tokensNow site 0 = s.tokensNow site 0 - 1000 ∧
      t.net.map (·.p) = s.net.map (·.p) ++ [{ q with vc := 0, cls := s.classOf q.src, inj := some (nodeModule site m) }]) ∧
    (s.tokensNow site 0 < 1000 → Answers (.meterRelease site m q.vc.toNat) s fun t => t = s) := by
  refine ⟨fun htok => ?_, fun htok => ?_⟩
  · obtain ⟨u, hrow, hu, hnone, hless⟩ := meterRelease_goes hs hheld hctl h1 h7 hrsv hen htok
    rw [dieForward_home (by omega)] at hrow
    have hfree := linkKept_linkFree (site := site) u hm .hub q
    have hpass : Passing site s (u.linkFree site m .hub q) := (passing_of_regs (by rw [hu])).trans (passing_linkFree u site hm .hub q)
    have hnet : (u.linkFree site m .hub q).net = s.net := by rw [hfree.rest, hu]
    have hsite : (u.linkFree site m .hub q).siteAt site = u.siteAt site := siteAt_of_sites (by rw [hfree.rest]) site
    clear hfree
    generalize u.linkFree site m .hub q = w at *
    have hsend : Passing site s (w.send { q with inj := some (nodeModule site m) } q.dst) := hpass.trans (passing_of_regs rfl)
    refine answers_dom (f := (·.meterRelease site m q.vc.toNat)) rfl hr hrow hpass.off hpass.pending hpass.time
      ⟨(congrArg Site.held hsite).trans hnone, tokensNow_set hsend ?_ ((congrArg Site.tokens hsite).trans hless), ?_⟩
    · have : s.tokensNow site 0 ≤ 1000 * s.get (pgSITE site) (Fld.BND_METER_BURST 0) := Nat.min_le_left ..
      omega
    · have h8 : q.op.toNat ≤ 8 := by omega
      rw [send_net, hnet, List.map_append]
      simp only [h1, h8, decide_true, Bool.and_self, if_true, request_vc q.op h8, hpass.classOf hs, List.map_cons, List.map_nil]
  · exact answers_dom (f := (·.meterRelease site m q.vc.toNat)) rfl hr (meterRelease_waits hheld hctl h1 h7 hrsv hen htok) rfl rfl rfl rfl

end

end Sys2Proof.Proofs
end

section
/-! ### The timers of the die contract (R468, R473) -/

namespace Sys2Proof.Proofs

open Sys2Proof Sys2Proof.Machine Sys2Proof.Safety

section
variable {s t u : State} {site m k : Nat} {p : Pkt}

/-- A violation that a timer finds, in a state that differs from the one before in no register. -/
theorem answers_late {c : Instr} {f : State → State} {P : State → Prop} (hr : Running s) (hc : exec c s = s.actDom f)
    (hrow : f s = u.lateViolation site k p) (hu : u = { s with net := u.net, sites := u.sites }) (hs : site < 16) (hk : k ≤ 9)
    (hP : ∀ t, Violates s t site k p → t.net = u.net → t.sites = u.sites → P t) : Answers c s P := by
  obtain ⟨_, _, ht⟩ := violation_eq u site k p
  have hviol : Violates s (u.lateViolation site k p) site k p := by
    refine violates_of_kept (violates_violation u hs p hk) hk ?_ (W := fun _ _ => False) (.refl _) (fun _ _ h => h) rfl rfl
    rw [hu]
  refine answers_dom hc hr hrow ?_ ?_ ?_ (hP _ hviol ?_ ?_) <;> rw [State.lateViolation, ht]
  all_goals rw [hu]

/-- A snoop or XlatInvFwd without its answer (R473). -/
theorem answers_snoopLate {q : SnpPend} (hr : Running s) (hs : site < 16) (hq : (s.siteAt site).snoops = [q]) :
    let lim := if q.p.op = 0x24 then 10000 else 2000
    (q.noted = false → q.since + lim < s.time → Answers (.snoopLateTimeout site) s fun t =>
      Violates s t site (if q.p.op = 0x24 then 7 else 6) q.p ∧ (t.siteAt site).snoops = [{ q with noted := true }] ∧ t.net = s.net) ∧
    (q.noted = true ∨ s.time ≤ q.since + lim → Answers (.snoopLateTimeout site) s fun t => t = s) := by
  intro lim
  have hlim : (if q.p.op == 0x24 then 10000 else 2000) = lim := by simp [lim]
  refine ⟨fun hn ht => ?_, fun hno => ?_⟩
  · have hkind : (if q.p.op == 0x24 then 7 else 6) = if q.p.op = 0x24 then 7 else 6 := by simp
    let u := s.modSite site fun x => { x with snoops := x.snoops.map fun r => if r == q then { r with noted := true } else r }
    have hrow : s.snoopLate site = u.lateViolation site (if q.p.op = 0x24 then 7 else 6) { q.p with src := q.p.dst } := by
      unfold State.snoopLate
      simp only [hq, List.find?_cons, hn, hlim, ht, Bool.not_false, decide_true, Bool.and_self, hkind]
      rfl
    refine answers_late (f := (·.snoopLate site)) hr rfl hrow rfl hs (by split <;> omega) fun t hv hnet hsites => ⟨hv, ?_, hnet⟩
    rw [siteAt_of_sites hsites, siteAt_modSite_same _ _ hs, hq]
    simp
  · refine answers_dom (f := (·.snoopLate site)) rfl hr ?_ rfl rfl rfl rfl
    have hpast : (!q.noted && decide (q.since + lim < s.time)) = false := by
      rcases hno with h | h
      · simp [h]
      · simp [Nat.not_lt.mpr h]
    unfold State.snoopLate
    simp only [hq, List.find?_cons, hlim, hpast, List.find?_nil]

/-- A unit of a sink channel has waited 100 us at LNK[s] and finds no link credit. -/
def sinkStuck (s : State) (site m : Nat) (e : InFlight) : Bool :=
  decide (e.at_ = .rx) && e.p.dst == nodeModule site m && [2, 3, 4, 7].contains e.p.vc.toNat && decide (e.since + 100000 ≤ s.time) &&
  !(s.siteAt site).sink.contains (State.unitKey e.p) && (match (s.lk site m .hub).link with
    | some l => !State.mayLink l e.p.vc.toNat e.p.hasData
    | none => false)

theorem sinkLate_eq (s : State) (site m : Nat) : s.sinkLate site m = match s.net.find? (sinkStuck s site m) with
    | none => s
    | some e => (s.modSite site fun x => { x with sink := State.unitKey e.p :: x.sink }).lateViolation site 9 { e.p with src := e.p.dst } := rfl

/-- A unit of a sink channel that finds no link credit (R473). -/
theorem answers_sinkLate {e : InFlight} {l : LinkState} (hr : Running s) (hs : site < 16) (hnet : s.net = [e]) (hat : e.at_ = .rx)
    (hdst : e.p.dst = nodeModule site m) (hvc : e.p.vc.toNat ∈ [2, 3, 4, 7]) (hl : (s.lk site m .hub).link = some l)
    (hcr : State.mayLink l e.p.vc.toNat e.p.hasData = false) (hsink : (s.siteAt site).sink = []) :
    (e.since + 100000 ≤ s.time → Answers (.sinkTimeout site m) s fun t => Violates s t site 9 e.p ∧ t.net = s.net) ∧
    (s.time < e.since + 100000 → Answers (.sinkTimeout site m) s fun t => t = s) := by
  have hstuck : sinkStuck s site m e = decide (e.since + 100000 ≤ s.time) := by
    have hvc' : [2, 3, 4, 7].contains e.p.vc.toNat = true := List.contains_iff_mem.mpr hvc
    simp only [sinkStuck, hat, hdst, hvc', hl, hcr, hsink, decide_true, beq_self_eq_true, List.contains_nil, Bool.not_false, Bool.and_true,
      Bool.true_and]
  refine ⟨fun ht => ?_, fun ht => ?_⟩
  · have hrow : s.sinkLate site m = (s.modSite site fun x => { x with sink := State.unitKey e.p :: x.sink }).lateViolation site 9
        { e.p with src := e.p.dst } := by
      rw [sinkLate_eq, hnet, List.find?_cons, hstuck, decide_eq_true ht]
    exact answers_late (f := (·.sinkLate site m)) hr rfl hrow rfl hs (by decide) fun t hv hnet _ => ⟨hv, hnet⟩
  · refine answers_dom (f := (·.sinkLate site m)) rfl hr ?_ rfl rfl rfl rfl
    rw [sinkLate_eq, hnet, List.find?_cons, hstuck, decide_eq_false (Nat.not_le.mpr ht)]
    rfl

/-- The error that LNK[s] answers a device request with in the die's place (R468). -/
def devError (s : State) (d : DevPend) : State :=
  if d.p.op == 0x70 then s.respond 0x79 d.p.dst d.p.src d.p.txn 2 true false (some (BitVec.allOnes 512 &&& maskBits d.p.mask, d.p.mask))
  else s.respond 0x78 d.p.dst d.p.src d.p.txn 2 true

theorem devError_eq (s : State) (d : DevPend) : devError s d = { s with net := (devError s d).net } := by
  unfold devError; split <;> rfl

theorem devError_sends (s : State) (d : DevPend) : ∃ q, Sends s (devError s d) [q] ∧ q.op = (if d.p.op = 0x70 then 0x79 else 0x78) ∧
    q.dst = d.p.src ∧ q.txn = d.p.txn ∧ q.addr = 2 ∧ (d.p.op = 0x70 → q.data = maskBits d.p.mask) := by
  unfold devError
  by_cases h : d.p.op = 0x70
  · rw [if_pos (by simp [h]), if_pos h]
    exact ⟨_, ⟨_, send_net .., rfl⟩, rfl, rfl, rfl, rfl, fun _ => BitVec.allOnes_and⟩
  · rw [if_neg (by simpa using h), if_neg h]
    exact ⟨_, ⟨_, send_net .., rfl⟩, rfl, rfl, rfl, rfl, fun hd => absurd hd h⟩

/-- A device request that a Class D die has not completed (R468). -/
theorem answers_devLate {d : DevPend} (hr : Running s) (hs : site < 16) (hd : (s.siteAt site).dev = [d]) :
    (d.since + s.devCplNs site ≤ s.time → Answers (.devCplTimeout site d.p.src d.p.txn) s fun t =>
      Violates s t site 8 d.p ∧ (t.siteAt site).dev = [] ∧ (t.siteAt site).devGone = (s.siteAt site).devGone ++ [d.p] ∧
      ∃ q, Sends s t [q] ∧ q.op = (if d.p.op = 0x70 then 0x79 else 0x78) ∧ q.dst = d.p.src ∧ q.txn = d.p.txn ∧ q.addr = 2 ∧
        (d.p.op = 0x70 → q.data = maskBits d.p.mask)) ∧
    (s.time < d.since + s.devCplNs site → Answers (.devCplTimeout site d.p.src d.p.txn) s fun t => t = s) := by
  refine ⟨fun ht => ?_, fun ht => ?_⟩
  · let w := s.modSite site fun x => { x with dev := x.dev.erase d, devGone := x.devGone ++ [d.p] }
    have hrow : s.devLate site d.p.src d.p.txn = (devError w d).lateViolation site 8 d.p := by
      unfold State.devLate
      simp only [hd, List.find?_cons, beq_self_eq_true, ht, decide_true, Bool.and_self]
      rfl
    have hw : w.siteAt site = { s.siteAt site with dev := [], devGone := (s.siteAt site).devGone ++ [d.p] } := by
      rw [siteAt_modSite_same _ _ hs, hd, List.erase_cons_head]
    refine answers_late (f := (·.devLate site d.p.src d.p.txn)) hr rfl hrow (by rw [devError_eq]; rfl) hs (by decide) fun t hv hnet hsites => ?_
    have hsite : t.siteAt site = w.siteAt site := siteAt_of_sites (hsites.trans (by rw [devError_eq])) site
    obtain ⟨q, hq, hfields⟩ := devError_sends w d
    exact ⟨hv, by rw [hsite, hw], by rw [hsite, hw], q, sends_of_net hq rfl hnet, hfields⟩
  · refine answers_dom (f := (·.devLate site d.p.src d.p.txn)) rfl hr ?_ rfl rfl rfl rfl
    unfold State.devLate
    simp only [hd, List.find?_cons, decide_eq_false (Nat.not_le.mpr ht), Bool.and_false, List.find?_nil]

end

/-- Settles O29: the checks run in order up to the first that fails, a meter without a token holds the unit, and each timer finds its violation. -/
theorem boundaryRules : Obligations.BoundaryRules := by
  unfold Obligations.BoundaryRules
  refine ⟨⟨?passes, ?fails, ?fenced⟩, ⟨?held, ?release⟩, ?snoops, ?sinks, ?devices⟩
  case passes =>
    exact fun s site m t0 p hb hf hen hheld => ⟨dieUnit_home hb hf hen hheld, dieUnit_site hb hf hen hheld⟩
  case fails =>
    exact fun s site m t0 k p hb hf => ⟨dieUnit_refused hb hf, dieUnit_discarded hb hf, fun hact hlater _ => dieUnit_logged hb hf hact hlater⟩
  case fenced => exact fun s site m t0 p hr hs hm hnet hst hf => dieUnit_ofFenced hr hs hm hnet hst hf
  case held =>
    exact fun s site m t0 p hb hf hctl hheld h1 h7 hrsv hen hlow => dieUnit_held hb hf hctl hheld h1 h7 hrsv hen hlow
  case release =>
    exact fun s site m q hr hs hm hheld hctl h1 h7 hrsv hen => answers_meterRelease hr hs hm hheld hctl h1 h7 hrsv hen
  case snoops => exact fun s site q hr hs hq => answers_snoopLate hr hs hq
  case sinks =>
    exact fun s site m e l hr hs _ hnet hat hdst hvc hl hcr hsink => answers_sinkLate hr hs hnet hat hdst hvc hl hcr hsink
  case devices => exact fun s site d hr hs hd => answers_devLate hr hs hd

end Sys2Proof.Proofs
end

section
/-! ### Entries of a directory (R210 to R212) -/

namespace Sys2Proof.Proofs

open Sys2Proof Sys2Proof.Machine Sys2Proof.Safety

/-- A way holds the entry of a line. -/
def holdsLine (w : DirWay) (l : Nat) : Bool := w.st != 0 && w.line == l

section
variable {s t : State} {h l : Nat}

theorem dirFind_of_holds {i : Nat}
    (hw : ∀ j, holdsLine (nthD (t.dirAt i (dirSet (paOf l))) j {}) l = holdsLine (nthD (s.dirAt i (dirSet (paOf l))) j {}) l) :
    t.dirFind i l = s.dirFind i l :=
  List.find?_congr fun j _ => hw j

theorem holds_of_dirFind {i j : Nat} (hf : s.dirFind i l = some j) : holdsLine (nthD (s.dirAt i (dirSet (paOf l))) j {}) l = true := by
  have hp := List.find?_some (p := fun j => holdsLine (nthD (s.dirAt i (dirSet (paOf l))) j {}) l) hf
  exact hp

theorem lt_of_dirFind {i : Nat} (hf : s.dirFind h l = some i) : i < 16 := List.mem_range.mp (List.mem_of_find?_eq_some hf)

/-- A line's state is read from the ways that hold it: where these stand as they stood, up to what their state does not show, it is kept. -/
theorem lineDir_of_holds {i : Nat}
    (hw : ∀ j, holdsLine (nthD (t.dirAt i (dirSet (paOf l))) j {}) l = holdsLine (nthD (s.dirAt i (dirSet (paOf l))) j {}) l)
    (hst : ∀ j, holdsLine (nthD (s.dirAt i (dirSet (paOf l))) j {}) l = true →
      (nthD (t.dirAt i (dirSet (paOf l))) j {}).state = (nthD (s.dirAt i (dirSet (paOf l))) j {}).state) :
    t.lineDir i l = s.lineDir i l := by
  unfold State.lineDir
  rw [dirFind_of_holds hw]
  cases hf : s.dirFind i l with
  | none => rfl
  | some j => exact hst j (holds_of_dirFind hf)

theorem dirFind_isSome_of_lineDir (hd : s.lineDir h l ≠ .nc) : (s.dirFind h l).isSome = true := by
  unfold State.lineDir at hd
  cases hf : s.dirFind h l with
  | none => rw [hf] at hd; exact absurd rfl hd
  | some i => rfl

/-- A way that is given an entry shows that entry (R210). -/
@[simp] theorem state_dirWayOf (l : Nat) (d : DirSt) (age : Nat) : (dirWayOf l d age).state = d := by
  cases d with
  | nc => rfl
  | sh pv lead => cases lead <;> rfl
  | ex o => rfl

theorem holdsLine_dirWayOf (l l' : Nat) {d : DirSt} (hd : d ≠ .nc) (age : Nat) : holdsLine (dirWayOf l d age) l' = (l == l') := by
  cases d with
  | nc => exact absurd rfl hd
  | sh pv lead => rfl
  | ex o => rfl

theorem setLineDir_of_find {i : Nat} (hf : s.dirFind h l = some i) (d : DirSt) (a : Option Nat) :
    s.setLineDir h l d a =
      if d = .nc then s.setDir h (dirSet (paOf l)) ((s.dirAt h (dirSet (paOf l))).map fun w => if w.st != 0 && w.line == l then dirWayOf l d w.age else w)
      else if s.lineDir h l = d then s
      else s.setDir h (dirSet (paOf l)) (touchDir (modOf 16 {} (s.dirAt h (dirSet (paOf l))) i fun w => dirWayOf l d w.age) i) := by
  unfold State.setLineDir
  rw [hf]

/-- A way of the set after the entry of line `l` was emptied. -/
theorem nthD_emptied (ws : List DirWay) (l j : Nat) :
    nthD (ws.map fun w => if w.st != 0 && w.line == l then dirWayOf l .nc w.age else w) j {} =
      if holdsLine (nthD ws j {}) l then dirWayOf l .nc (nthD ws j {}).age else nthD ws j {} := by
  unfold nthD holdsLine
  simp only [List.getD_eq_getElem?_getD, List.getElem?_map]
  cases ws[j]? with
  | none => rfl
  | some w => rfl

/-- The ways of the set after way `i` was given an entry: the others keep theirs. -/
theorem nthD_entered (ws : List DirWay) (l i j : Nat) (d : DirSt) (hi : i < 16) :
    ∃ a, nthD (touchDir (modOf 16 {} ws i fun w => dirWayOf l d w.age) i) j {} =
      if j = i then dirWayOf l d a else { nthD ws j {} with age := a } := by
  obtain ⟨a, ha⟩ := nthD_touchDir (modOf 16 {} ws i fun w => dirWayOf l d w.age) i j
  refine ⟨a, ?_⟩
  rw [ha]
  split
  · rename_i hj
    rw [hj, nthD_modOf_same _ _ _ _ _ hi]
    cases d <;> rfl
  · rename_i hj
    rw [nthD_modOf_ne _ _ _ _ hj]

/-- An entry that is set reads as set (R210, R211). -/
theorem lineDir_setLineDir_same (hh : h < 64) (hf : (s.dirFind h l).isSome = true) (d : DirSt) (a : Option Nat) :
    (s.setLineDir h l d a).lineDir h l = d := by
  obtain ⟨i, hi⟩ := Option.isSome_iff_exists.mp hf
  rw [setLineDir_of_find hi]
  split
  · rename_i hd
    have hnone : (s.setDir h (dirSet (paOf l)) ((s.dirAt h (dirSet (paOf l))).map fun w =>
        if w.st != 0 && w.line == l then dirWayOf l d w.age else w)).dirFind h l = none := by
      unfold State.dirFind
      rw [List.find?_eq_none, dirAt_setDir_same _ _ _ _ hh, hd]
      intro j _
      rw [nthD_emptied]
      change ¬ holdsLine _ l = true
      split
      · simp [holdsLine, dirWayOf]
      · assumption
    unfold State.lineDir
    rw [hnone, hd]
  · rename_i hd
    split
    · assumption
    · have hway := fun j => nthD_entered (s.dirAt h (dirSet (paOf l))) l i j d (lt_of_dirFind hi)
      have hfind : (s.setDir h (dirSet (paOf l)) (touchDir (modOf 16 {} (s.dirAt h (dirSet (paOf l))) i fun w => dirWayOf l d w.age) i)).dirFind h l
          = some i := by
        rw [← hi]
        refine dirFind_of_holds fun j => ?_
        rw [dirAt_setDir_same _ _ _ _ hh]
        obtain ⟨b, hb⟩ := hway j
        rw [hb]
        split
        · rename_i hj
          have hold := holds_of_dirFind hi
          rw [holdsLine_dirWayOf _ _ hd, hj, hold, beq_self_eq_true]
        · rfl
      unfold State.lineDir
      rw [hfind]
      obtain ⟨b, hb⟩ := hway i
      dsimp only
      rw [dirAt_setDir_same _ _ _ _ hh, hb, if_pos rfl, state_dirWayOf]

theorem not_holdsLine_of_ne {w : DirWay} {l l' : Nat} (hw : holdsLine w l = true) (hne : l' ≠ l) : holdsLine w l' = false := by
  unfold holdsLine at *
  simp only [Bool.and_eq_true, beq_iff_eq] at hw
  obtain ⟨-, hl⟩ := hw
  rw [hl, beq_eq_false_iff_ne.mpr (Ne.symm hne), Bool.and_false]

/-- The entries of the other lines stay (R211). -/
theorem otherEntries_setLineDir (hh : h < 64) (hf : (s.dirFind h l).isSome = true) (d : DirSt) (a : Option Nat) :
    OtherEntries h l s (s.setLineDir h l d a) := by
  obtain ⟨i, hi⟩ := Option.isSome_iff_exists.mp hf
  have hold := holds_of_dirFind hi
  intro l' hne
  have key : ∀ ws : List DirWay,
      (∀ j, holdsLine (nthD (s.dirAt h (dirSet (paOf l))) j {}) l = true ∧ holdsLine (nthD ws j {}) l' = false ∨
        ∃ b, nthD ws j {} = { nthD (s.dirAt h (dirSet (paOf l))) j {} with age := b }) →
      (s.setDir h (dirSet (paOf l)) ws).lineDir h l' = s.lineDir h l' := by
    intro ws hws
    by_cases hset : dirSet (paOf l') = dirSet (paOf l)
    · refine lineDir_of_holds (fun j => ?_) (fun j hj => ?_) <;>
        rw [hset, dirAt_setDir_same _ _ _ _ hh] <;> rcases hws j with ⟨hl, hn⟩ | ⟨b, hb⟩
      · rw [hn, not_holdsLine_of_ne hl hne]
      · rw [hb]; rfl
      · rw [hset, not_holdsLine_of_ne hl hne] at hj; cases hj
      · rw [hb]; rfl
    · exact lineDir_of_ways fun j => by rw [dirAt_setDir_ne _ _ hh (.inr hset)]; exact ⟨_, rfl⟩
  rw [setLineDir_of_find hi]
  split
  · rename_i hd
    refine key _ fun j => ?_
    rw [hd, nthD_emptied]
    split
    · rename_i hj; exact .inl ⟨hj, rfl⟩
    · exact .inr ⟨_, rfl⟩
  · rename_i hd
    split
    · rfl
    · refine key _ fun j => ?_
      obtain ⟨b, hb⟩ := nthD_entered (s.dirAt h (dirSet (paOf l))) l i j d (lt_of_dirFind hi)
      rw [hb]
      split
      · rename_i hj
        rw [hj]
        exact .inl ⟨hold, by rw [holdsLine_dirWayOf _ _ hd]; simpa using Ne.symm hne⟩
      · exact .inr ⟨b, rfl⟩

/-- Setting an entry changes the directory of its home alone. -/
theorem setLineDir_eq (s : State) (h l : Nat) (d : DirSt) (a : Option Nat) :
    ∃ dir : Home → Tab (List DirWay), s.setLineDir h l d a = s ∨ s.setLineDir h l d a = s.modHome h fun x => { x with dir := dir x } := by
  unfold State.setLineDir
  dsimp only
  split
  · exact ⟨fun x => x.dir, .inl rfl⟩
  · split
    · exact ⟨_, .inr rfl⟩
    · split
      · exact ⟨fun x => x.dir, .inl rfl⟩
      · exact ⟨_, .inr rfl⟩

end

end Sys2Proof.Proofs
end

section
/-! ### What a home keeps while it serves a request (R219 to R225) -/

namespace Sys2Proof.Proofs

open Sys2Proof Sys2Proof.Machine Sys2Proof.Safety

/-- From `s` to `t` the ways of the directories keep all but their ages, the writeback entries and memory stay, and so do the registers
outside the counter block and the list. -/
structure Kept (L : List (Nat × Nat)) (s t : State) : Prop where
  off : t.off = s.off
  mem : t.mem = s.mem
  wb : ∀ i, (t.homeAt i).wb = (s.homeAt i).wb
  ways : ∀ i set j, ∃ a, nthD (t.dirAt i set) j {} = { nthD (s.dirAt i set) j {} with age := a }
  regs : SameButCounters L s t

section
variable {L : List (Nat × Nat)} {s t u : State} {h k : Nat}

theorem Kept.trans (a : Kept L s t) (b : Kept L t u) : Kept L s u where
  off := b.off.trans a.off
  mem := b.mem.trans a.mem
  wb i := (b.wb i).trans (a.wb i)
  ways i set j := by
    obtain ⟨x, hx⟩ := a.ways i set j
    obtain ⟨y, hy⟩ := b.ways i set j
    exact ⟨y, by rw [hy, hx]⟩
  regs p off ho hc hl := (b.regs p off ho hc hl).trans (a.regs p off ho hc hl)

theorem Kept.of_homes (ho : t.off = s.off) (hm : t.mem = s.mem) (hh : t.homes = s.homes) (hr : SameButCounters L s t) : Kept L s t where
  off := ho
  mem := hm
  wb i := by rw [homeAt_of_homes hh]
  ways i set j := ⟨_, by rw [State.dirAt, homeAt_of_homes hh]; rfl⟩
  regs := hr

theorem sameButCounters_of_regs (hr : t.regs = s.regs) : SameButCounters L s t := fun p off _ _ _ => reg_of_regs hr p off

theorem kept_bump (s : State) (p code q : Nat) (a b c : Option Nat) : Kept L s (s.bump p code q a b c) :=
  .of_homes (by simp) (by simp) (by simp) fun _ _ ho hc _ => bump_reg _ _ _ _ _ _ _ _ _ ho (by omega)

/-- A counter field of a listed register. -/
theorem kept_count (s : State) (p n : Nat) (f : FRef) (hf : f.off < 0x10000) (hl : (p, f.off) ∈ L) : Kept L s (s.count p f n) := by
  refine .of_homes rfl rfl rfl fun q off ho _ hn => reg_put_ne _ _ _ _ _ _ fun hk => ?_
  obtain ⟨rfl, rfl⟩ := regKey_inj ho hf hk
  exact hn hl

theorem kept_send (s : State) (p : Pkt) (dst : BitVec 8) : Kept L s (s.send p dst) := .of_homes rfl rfl rfl (sameButCounters_of_regs rfl)

/-- A home changed otherwise than in its directory and its writeback entries. -/
theorem kept_modHome (s : State) (f : Home → Home) (hh : h < 64) (hw : (f (s.homeAt h)).wb = (s.homeAt h).wb)
    (hd : (f (s.homeAt h)).dir = (s.homeAt h).dir) : Kept L s (s.modHome h f) := by
  have key : ∀ i, ((s.modHome h f).homeAt i).wb = (s.homeAt i).wb ∧ ((s.modHome h f).homeAt i).dir = (s.homeAt i).dir := by
    intro i
    by_cases hi : i = h
    · subst hi; rw [homeAt_modHome_same _ _ _ hh]; exact ⟨hw, hd⟩
    · rw [homeAt_modHome_ne _ _ hi]; exact ⟨rfl, rfl⟩
  refine ⟨rfl, rfl, fun i => (key i).1, fun i set j => ⟨_, by unfold State.dirAt; rw [(key i).2]⟩, sameButCounters_of_regs rfl⟩

theorem kept_setTxn (s : State) (k : Nat) (x : Txn) (hh : h < 64) : Kept L s (s.setTxn h k x) := kept_modHome _ _ hh rfl rfl

theorem kept_touchWayOf (s : State) (set i : Nat) (hh : h < 64) : Kept L s (s.touchWayOf h set i) := by
  unfold State.touchWayOf
  refine ⟨rfl, rfl, fun i' => ?_, fun i' set' j => ?_, sameButCounters_of_regs rfl⟩
  · unfold State.setDir
    by_cases hi : i' = h
    · subst hi; rw [homeAt_modHome_same _ _ _ hh]
    · rw [homeAt_modHome_ne _ _ hi]
  · by_cases hw : i' = h ∧ set' = set
    · obtain ⟨rfl, rfl⟩ := hw
      rw [dirAt_setDir_same _ _ _ _ hh]
      exact nthD_touchDir _ _ _
    · rw [dirAt_setDir_ne _ _ hh (by tauto)]
      exact ⟨_, rfl⟩

theorem kept_touchEntry (s : State) (l : Nat) (hh : h < 64) : Kept L s (s.touchEntry h l) := by
  unfold State.touchEntry
  split
  · exact kept_touchWayOf _ _ _ hh
  · exact .of_homes rfl rfl rfl (sameButCounters_of_regs rfl)

theorem kept_requestSeen (s : State) (h : Nat) (p : Pkt) : Kept L s (requestSeen s h p) :=
  .of_homes (by simp) (by simp) (by simp) fun r off ho hc _ => by
    unfold requestSeen
    rw [bump_reg _ _ _ _ _ _ _ _ _ ho (by omega), reg_of_regs (consume_regs s p)]

/-- An admission counts a delay in HOME_OVL_DLY of the request's class (R252), and nothing else outside the counter block. -/
theorem kept_admission (s : State) (p : Pkt) (wait : Nat) (hh : h < 64) :
    Kept [(pgHOME h, Reg.HOME_OVL_DLY p.cls.toNat)] s (admission s h p wait) := by
  have hcls : p.cls.toNat < 4 := p.cls.isLt
  unfold admission
  refine .trans ?_ (kept_touchEntry _ _ hh)
  refine .trans (.trans (.trans ?_ (kept_modHome _ _ hh rfl rfl)) (kept_modHome _ _ hh rfl rfl)) (kept_modHome _ _ hh rfl rfl)
  split
  · refine .trans (.trans (kept_bump ..) (kept_count _ _ _ _ ?_ (.head _))) (kept_bump ..)
    simp [Fld.HOME_OVL_DLY_COUNT]; omega
  · exact kept_bump ..

theorem Kept.lineDir (a : Kept L s t) (i l : Nat) : t.lineDir i l = s.lineDir i l := lineDir_of_ways (a.ways i _)

/-- The fence of a site is outside the registers that an admission counts in. -/
theorem Kept.fenced {c : Nat} (a : Kept [(pgHOME h, Reg.HOME_OVL_DLY c)] s t) (hc : c < 4) (i : Nat) : t.fenced i = s.fenced i := by
  have hoff : Fld.SITE_STAT_FENCED.off ≠ Reg.HOME_OVL_DLY c := by
    simp [Fld.SITE_STAT_FENCED, Reg.HOME_OVL_DLY]; omega
  unfold State.fenced State.flag State.get
  rw [a.regs _ _ (by decide) (by decide)]
  simp only [List.mem_singleton, Prod.mk.injEq, not_and]
  exact fun _ => hoff

theorem Kept.entryClean {c : Nat} (a : Kept [(pgHOME h, Reg.HOME_OVL_DLY c)] s t) (hc : c < 4) (i l : Nat) :
    entryClean t i l = entryClean s i l := by
  unfold Safety.entryClean
  rw [a.lineDir]
  simp only [a.fenced hc]

end

/-! ### The tracker -/

section
variable {s t : State} {h k : Nat} {x : Txn}

theorem trk_setTxn (hh : h < 64) : ((s.setTxn h k x).homeAt h).trk = Tab.put k x (s.homeAt h).trk := by
  unfold State.setTxn
  rw [homeAt_modHome_same _ _ _ hh]

@[simp] theorem txn_setTxn_same (hh : h < 64) : (s.setTxn h k x).txn? h k = some x := by
  unfold State.txn?
  rw [trk_setTxn hh, Tab.get?_put_same]

theorem mem_of_get? {α : Type} {k : Nat} {v : α} {t : Tab α} (hk : Tab.get? k t = some v) : (k, v) ∈ t := by
  induction t with
  | nil => cases hk
  | cons e t ih =>
    simp only [Tab.get?] at hk
    split at hk
    · rename_i he; cases hk; rw [← he]; exact .head _
    · exact .tail _ (ih hk)

/-- The line of a transaction in the tracker is BUSY (R154). -/
theorem lineBusy_of_txn (hx : s.txn? h k = some x) : s.lineBusy h x.line = true := by
  unfold State.lineBusy
  rw [Bool.or_eq_true, List.any_eq_true]
  exact .inl ⟨_, mem_of_get? hx, by simp⟩

theorem any_put_of_fresh {α : Type} (f : Nat × α → Bool) (k : Nat) (v : α) (t : Tab α) (hk : Tab.get? k t = none) :
    (Tab.put k v t).any f = (f (k, v) || t.any f) := by
  induction t with
  | nil => rfl
  | cons e t ih =>
    simp only [Tab.get?] at hk
    split at hk
    · cases hk
    · rename_i he
      simp only [Tab.put, if_neg (Ne.symm he)]
      split
      · rfl
      · rw [List.any_cons, ih hk, List.any_cons, Bool.or_left_comm]

/-- A transaction that holds no way and replaces none takes no way from the others (R221). -/
theorem wayTaken_setTxn (hh : h < 64) (hk : Tab.get? k (s.homeAt h).trk = none) (hw : x.way = none) (hv : x.victim = none)
    (set i : Nat) : (s.setTxn h k x).wayTaken h set i = s.wayTaken h set i := by
  unfold State.wayTaken
  rw [trk_setTxn hh, any_put_of_fresh _ _ _ _ hk, hw, hv]
  rfl

end

end Sys2Proof.Proofs
end

section
/-! ### The snoops of a request (R164, R165, R187) -/

namespace Sys2Proof.Proofs

open Sys2Proof Sys2Proof.Machine Sys2Proof.Safety

/-- One snoop of a plan, without its rank. -/
def unranked (o : Nat × Nat × Bool × Bool × Nat) : SnoopOut := (o.1, o.2.1, o.2.2.1, o.2.2.2.1)

/-- A snoop noted in a transaction, as the plan has it. -/
def planned (n : Snoop) : Nat × Nat × Bool × Bool × Nat := (n.site, n.op, n.fwd, n.discard, n.rank)

/-- The site of a request's die, or 16 (R187). -/
def requester (p : Pkt) : Nat := if isDieNode p.src then siteOf p.src else 16

theorem reqSite_getD (p : Pkt) : (reqSite p).getD 16 = requester p := by
  unfold reqSite requester; split <;> rfl

theorem moduleFrom_lt (s : State) (site m : Nat) (hm : m < 4) : s.moduleFrom site m < 4 := by
  unfold State.moduleFrom
  cases hf : (((List.range 4).map fun i => (m + i) % 4).find? fun i => s.moduleUp site i) with
  | none => exact hm
  | some i =>
    obtain ⟨a, -, ha⟩ := List.mem_map.mp (List.mem_of_find?_eq_some hf)
    simp only [Option.getD_some]
    omega

section
variable {s t : State} {h k : Nat} {p : Pkt} {L : List (Nat × Nat)}

/-- What sending units toward dies changes: the units in flight and counters. -/
structure SendsUnits (L : List (Nat × Nat)) (s t : State) (l : List Pkt) : Prop where
  kept : Kept L s t
  homes : t.homes = s.homes
  sends : Sends s t l

theorem sendsUnits_nil (s : State) : SendsUnits L s s [] :=
  ⟨.of_homes rfl rfl rfl (sameButCounters_of_regs rfl), rfl, [], by simp, rfl⟩

theorem SendsUnits.trans {u : State} {l m : List Pkt} (a : SendsUnits L s t l) (b : SendsUnits L t u m) : SendsUnits L s u (l ++ m) := by
  obtain ⟨x, hx, rfl⟩ := a.sends
  obtain ⟨y, hy, rfl⟩ := b.sends
  exact ⟨a.kept.trans b.kept, b.homes.trans a.homes, x ++ y, by rw [hy, hx, List.append_assoc], by simp⟩

theorem sendSnoop_sends (s : State) (h k site op : Nat) (fwd discard : Bool) (p : Pkt) (hop : op < 128) :
    ∃ q, SendsUnits L s (s.sendSnoop h k p.addr.toNat site op fwd discard p).1 [q] ∧ IsSnoop h k p (site, op, fwd, discard) q := by
  have hnet : ∃ e : InFlight, (s.sendSnoop h k p.addr.toNat site op fwd discard p).1.net = s.net ++ [e] ∧
      IsSnoop h k p (site, op, fwd, discard) e.p := by
    refine ⟨_, (bump_net ..).trans (send_net ..), ?_, ?_, rfl, rfl, ?_, ?_⟩
    · simp; omega
    · exact siteOf_nodeModule _ (moduleFrom_lt _ _ _ (by omega))
    · simp
    · cases discard <;> simp
  obtain ⟨e, he, hsn⟩ := hnet
  exact ⟨e.p, ⟨(kept_send s _ _).trans (kept_bump ..), by simp [State.sendSnoop, State.send], [e], he, rfl⟩, hsn⟩

/-- A list of snoops is sent in its order and noted as planned (R187). -/
theorem sendSnoops_sends (s : State) (h k : Nat) (p : Pkt) (plan : List (Nat × Nat × Bool × Bool × Nat)) (hop : ∀ o ∈ plan, o.2.1 < 128) :
    (s.sendSnoops h k p.addr.toNat p plan).2.map planned = plan ∧
    ∃ l, SendsUnits L s (s.sendSnoops h k p.addr.toNat p plan).1 l ∧ List.Forall₂ (IsSnoop h k p) (plan.map unranked) l := by
  have key : ∀ (acc : State × List Snoop),
      let r := plan.foldl (fun acc x =>
        let (site, op, fwd, discard, rank) := x
        let (s, txn) := acc.1.sendSnoop h k p.addr.toNat site op fwd discard p
        (s, acc.2 ++ [⟨site, op, rank, discard, p.addr.toNat, s.time, txn, fwd, false⟩])) acc
      r.2.map planned = acc.2.map planned ++ plan ∧
      ∃ l, SendsUnits L acc.1 r.1 l ∧ List.Forall₂ (IsSnoop h k p) (plan.map unranked) l := by
    induction plan with
    | nil => exact fun acc => ⟨by simp, [], sendsUnits_nil _, .nil⟩
    | cons o plan ih =>
      intro acc
      obtain ⟨site, op, fwd, discard, rank⟩ := o
      obtain ⟨q, hq, hsn⟩ := sendSnoop_sends (L := L) acc.1 h k site op fwd discard p (hop _ (.head _))
      obtain ⟨hmap, l, hl, hall⟩ := ih (fun o ho => hop o (.tail _ ho)) ((acc.1.sendSnoop h k p.addr.toNat site op fwd discard p).1,
        acc.2 ++ [⟨site, op, rank, discard, p.addr.toNat, (acc.1.sendSnoop h k p.addr.toNat site op fwd discard p).1.time,
          (acc.1.sendSnoop h k p.addr.toNat site op fwd discard p).2, fwd, false⟩])
      refine ⟨?_, q :: l, hq.trans hl, .cons hsn hall⟩
      refine hmap.trans ?_
      simp [planned]
  exact key (s, [])

end

/-! ### The table of R187 -/

/-- A snoop of the table with the rank of its answer: a sharer's 0, a forwarder's 1, an owner's 2. -/
def ranked (r : SnoopOut → Nat) (o : SnoopOut) : Nat × Nat × Bool × Bool × Nat := (o.1, o.2.1, o.2.2.1, o.2.2.2, r o)

@[simp] theorem map_unranked_ranked (r : SnoopOut → Nat) (l : List SnoopOut) : (l.map (ranked r)).map unranked = l := by
  rw [List.map_map]
  exact List.map_id' l

/-- A Strike of a whole line (R187, R188). -/
def wholeStrike (p : Pkt) : Bool := decide (p.op = 0x05 ∧ p.mask = BitVec.allOnes 64)

theorem wholeStrike_eq {p : Pkt} (h5 : p.op.toNat = 5) : wholeStrike p = (p.mask == BitVec.allOnes 64) := by
  have hop : p.op = 0x05 := BitVec.eq_of_toNat_eq h5
  simp only [wholeStrike, hop, true_and, beq_eq_decide]

/-- The snoops of an entry that is shared, with their ranks (R187). -/
theorem snoopPlan_shared (p : Pkt) (h1 : 1 ≤ p.op.toNat) (h7 : p.op.toNat ≤ 7) (pv : Nat) (lead : Option Nat) :
    State.snoopPlan p (.sh pv lead) =
      (r187Shared p.op.toNat (p.size.getLsbD 0) (wholeStrike p) (requester p) pv lead).map (ranked fun o => b2n o.2.2.1) := by
  unfold State.snoopPlan r187Shared
  rw [reqSite_getD]
  rcases (by omega : p.op.toNat = 1 ∨ p.op.toNat = 2 ∨ p.op.toNat = 3 ∨ p.op.toNat = 4 ∨ p.op.toNat = 5 ∨ p.op.toNat = 6 ∨ p.op.toNat = 7)
    with h | h | h | h | h | h | h
  · cases lead with
    | none => simp only [h]; rfl
    | some x =>
      simp only [h, Bool.or_eq_true, beq_iff_eq]
      split <;> rfl
  · simp only [h, List.map_map]
    refine List.map_congr_left fun x _ => ?_
    by_cases hl : lead = some x <;> simp [hl, ranked, b2n]
  · by_cases hme : bitN pv (requester p) = true
    · simp only [h, List.map_map, hme]
      rfl
    · simp only [h, List.map_map, hme, Bool.false_eq_true, if_false, Bool.and_false]
      refine List.map_congr_left fun x _ => ?_
      by_cases hl : lead = some x <;> simp [hl, ranked, b2n]
  · simp only [h]; rfl
  · rw [wholeStrike_eq h]
    simp only [h, List.map_map]
    rfl
  · simp only [h, List.map_map]; rfl
  · simp only [h, List.map_map]; rfl

/-- The snoop of an entry that names an owner (R187). -/
theorem snoopPlan_owned (p : Pkt) (h1 : 1 ≤ p.op.toNat) (h7 : p.op.toNat ≤ 7) (o : Nat) :
    State.snoopPlan p (.ex o) = (r187Owned p.op.toNat (p.size.getLsbD 0) (wholeStrike p) o).map (ranked fun _ => 2) := by
  unfold State.snoopPlan r187Owned
  rcases (by omega : p.op.toNat = 1 ∨ p.op.toNat = 2 ∨ p.op.toNat = 3 ∨ p.op.toNat = 4 ∨ p.op.toNat = 5 ∨ p.op.toNat = 6 ∨ p.op.toNat = 7)
    with h | h | h | h | h | h | h
  case inr.inr.inr.inr.inl =>
    rw [wholeStrike_eq h]
    simp only [h]
    rfl
  all_goals simp only [h]; rfl

theorem r187Shared_op {op me pv : Nat} {nolead whole : Bool} {lead : Option Nat} : ∀ o ∈ r187Shared op nolead whole me pv lead, o.2.1 < 128 := by
  intro o ho
  unfold r187Shared at ho
  split at ho
  · cases lead with
    | none => cases ho
    | some x =>
      dsimp only at ho
      split at ho
      · cases ho
      · rw [List.mem_singleton.mp ho]; simp
  all_goals simp only [List.mem_map, List.not_mem_nil] at ho
  all_goals obtain ⟨x, -, rfl⟩ := ho
  · split <;> simp
  · split
    · simp
    · split <;> simp
  all_goals simp

theorem r187Owned_op {op o : Nat} {nolead whole : Bool} : ∀ x ∈ r187Owned op nolead whole o, x.2.1 < 128 := by
  intro x hx
  unfold r187Owned at hx
  split at hx <;> simp only [List.mem_singleton, List.not_mem_nil] at hx <;> rw [hx] <;> simp

theorem r187Owned_ne_nil {op o : Nat} {nolead whole : Bool} (h1 : 1 ≤ op) (h7 : op ≤ 7) : r187Owned op nolead whole o ≠ [] := by
  rcases (by omega : op = 1 ∨ op = 2 ∨ op = 3 ∨ op = 4 ∨ op = 5 ∨ op = 6 ∨ op = 7) with rfl | rfl | rfl | rfl | rfl | rfl | rfl <;>
    simp [r187Owned]

theorem ranked_op {r : SnoopOut → Nat} {l : List SnoopOut} (hl : ∀ o ∈ l, o.2.1 < 128) : ∀ o ∈ l.map (ranked r), o.2.1 < 128 := by
  intro o ho
  obtain ⟨x, hx, rfl⟩ := List.mem_map.mp ho
  exact hl x hx

end Sys2Proof.Proofs
end

section
/-! ### A request served in its new entry (R187, R188, R219, R225, R235) -/

namespace Sys2Proof.Proofs

open Sys2Proof Sys2Proof.Machine Sys2Proof.Safety

/-- A transaction as a request is admitted with: nothing awaited, sent or read. -/
structure Fresh (p : Pkt) (held : Held) (x : Txn) : Prop where
  line : x.line = p.addr.toNat
  req : x.req = p
  heldAs : x.held = held
  wpWait : x.wpWait = []
  wbSeen : x.wbSeen = []
  fwd : x.fwd = false
  data : x.data = none
  hq : x.hq = []
  wrote : x.wrote = false
  victim : x.victim = none

/-- The Hearth access that a request without snoops starts (R188). -/
def firstAccess (p : Pkt) : List HOp :=
  if p.op.toNat ≤ 4 then [.rd] else if wholeStrike p then [.wr p.data p.psn] else [.rdm]

/-- A transaction that has started its Hearth access from NC, with the way of its new entry. -/
def atHearth (p : Pkt) (w : Option Nat) (x : Txn) : Txn :=
  { x with d0 := .nc, started := true, snoops := [], hq := firstAccess p, wrote := wholeStrike p, way := w }

/-- A transaction started from a state of its line, its snoops sent (R187). -/
def servedFrom (d : DirSt) (sn : List Snoop) (x : Txn) : Txn := { x with d0 := d, started := true, snoops := sn }

theorem wholeStrike_of_ne {p : Pkt} (h5 : p.op.toNat ≠ 5) : wholeStrike p = false := by
  simp only [wholeStrike, decide_eq_false_iff_not, not_and]
  intro h
  exact absurd (congrArg BitVec.toNat h) h5

section
variable {s : State} {h k : Nat} {p : Pkt} {held : Held} {x : Txn}

/-- A request for an NC line goes to the Hearth at once (R188). -/
theorem advance_nc (hx : Fresh p held x) (hd : x.d0 = .nc) (hn : x.snoops = []) (h1 : 1 ≤ p.op.toNat) (h7 : p.op.toNat ≤ 7) :
    s.advance h k x = s.setTxn h k { x with hq := firstAccess p, wrote := wholeStrike p } := by
  obtain ⟨-, hreq, -, hwp, hwb, hfwd, hdata, hhq, hwrote, -⟩ := hx
  cases x
  dsimp only at *
  have hreq := hreq.symm
  subst hreq hwp hwb hfwd hdata hhq hwrote hd hn
  unfold State.advance firstAccess
  rcases (by omega : p.op.toNat = 1 ∨ p.op.toNat = 2 ∨ p.op.toNat = 3 ∨ p.op.toNat = 4 ∨ p.op.toNat = 5 ∨ p.op.toNat = 6 ∨ p.op.toNat = 7)
    with h | h | h | h | h | h | h
  case inr.inr.inr.inr.inl =>
    rw [wholeStrike_eq h]
    simp only [h]
    cases p.mask == BitVec.allOnes 64 <;> rfl
  all_goals
    rw [wholeStrike_of_ne (by omega)]
    simp only [h]
    rfl

/-- A transaction with snoops out waits for their answers; a RdOwn that none of them forwards reads the Hearth meanwhile (R188). -/
theorem advance_snoops (hx : Fresh p held x) (hn : x.snoops ≠ []) (h1 : 1 ≤ p.op.toNat) (h7 : p.op.toNat ≤ 7) :
    ∃ q, s.advance h k x = s.setTxn h k { x with hq := q } ∧ (p.op.toNat = 2 → (∀ n ∈ x.snoops, n.rank = 0) → q = [.rd]) := by
  have hne : x.snoops.isEmpty = false := by simpa using hn
  have hlead : (∀ n ∈ x.snoops, n.rank = 0) ↔ (x.snoops.all fun n => n.rank == 0) = true := by simp
  rw [hlead]
  obtain ⟨-, hreq, -, hwp, hwb, hfwd, hdata, hhq, hwrote, -⟩ := hx
  have hreq := hreq.symm
  obtain ⟨line, req, hld, kind, d0, started, snoops, wpWait, wbSeen, wbDone, fwd, fwdOwner, ansL, data, psnOut, hq, memWait, looked,
    dataSent, wrote, way, victim, delayed, born⟩ := x
  dsimp only at *
  subst hreq hwp hwb hfwd hdata hhq hwrote
  unfold State.advance
  dsimp only
  rw [hne]
  rcases (by omega : p.op.toNat = 1 ∨ p.op.toNat = 2 ∨ p.op.toNat = 3 ∨ p.op.toNat = 4 ∨ p.op.toNat = 5 ∨ p.op.toNat = 6 ∨ p.op.toNat = 7)
    with h | h | h | h | h | h | h
  case inl | inr.inl =>
    simp only [h]
    generalize List.all _ _ = lead
    cases lead
    · exact ⟨[], rfl, fun _ hl => by cases hl⟩
    · exact ⟨[.rd], rfl, fun _ _ => rfl⟩
  case inr.inr.inl =>
    simp only [h]
    generalize List.all _ _ = lead
    have hout : ∀ q, (3 : Nat) = 2 → lead = true → q = [HOp.rd] := fun q h2 => by cases h2
    cases d0 with
    | nc => cases lead; exacts [⟨[], rfl, hout []⟩, ⟨[.rd], rfl, hout _⟩]
    | ex o => cases lead; exacts [⟨[], rfl, hout []⟩, ⟨[.rd], rfl, hout _⟩]
    | sh pv holder =>
      cases reqSite p with
      | none => cases lead; exacts [⟨[], rfl, hout []⟩, ⟨[.rd], rfl, hout _⟩]
      | some y =>
        rcases Bool.eq_false_or_eq_true (bitN pv y) with hb | hb <;> simp only [hb]
        · exact ⟨[], rfl, hout []⟩
        · cases lead; exacts [⟨[], rfl, hout []⟩, ⟨[.rd], rfl, hout _⟩]
  case inr.inr.inr.inl =>
    simp only [h]
    generalize List.all _ _ = lead
    cases lead
    · exact ⟨[], rfl, fun h2 => by cases h2⟩
    · exact ⟨[.rd], rfl, fun _ _ => rfl⟩
  all_goals
    simp only [h]
    exact ⟨[], rfl, fun h2 => by cases h2⟩

/-- A request whose entry needs no containment and whose site does not own the line is served from the state of its line (R187). -/
theorem serve_eq (hx : Fresh p held x) (hc : entryClean s h p.addr.toNat = true)
    (hown : ∀ m, reqSite p = some m → s.lineDir h p.addr.toNat ≠ .ex m) :
    s.serve h k x =
      (s.sendSnoops h k p.addr.toNat p (State.snoopPlan p (s.lineDir h p.addr.toNat))).1.advance h k
        (servedFrom (s.lineDir h p.addr.toNat) (s.sendSnoops h k p.addr.toNat p (State.snoopPlan p (s.lineDir h p.addr.toNat))).2 x) := by
  unfold servedFrom
  unfold State.serve
  rw [hx.line, hx.req, cleanEntry_of_entryClean hc]
  dsimp only
  generalize s.lineDir h p.addr.toNat = d at hown
  cases d with
  | nc => rfl
  | sh pv lead => rfl
  | ex o =>
    cases hm : reqSite p with
    | none => rfl
    | some m =>
      have hne : (o == m) = false := beq_eq_false_iff_ne.mpr fun ho => hown m hm (by rw [ho])
      simp only [hne]
      rfl

theorem Fresh.started (hx : Fresh p held x) (d : DirSt) (sn : List Snoop) : Fresh p held (servedFrom d sn x) := by
  obtain ⟨hl, hr, hh, hwp, hwb, hf, hd, hq, hw, hv⟩ := hx
  exact ⟨hl, hr, hh, hwp, hwb, hf, hd, hq, hw, hv⟩

theorem Fresh.withWay (hx : Fresh p held x) (w : Option Nat) : Fresh p held { x with way := w } := by
  obtain ⟨hl, hr, hh, hwp, hwb, hf, hd, hq, hw, hv⟩ := hx
  exact ⟨hl, hr, hh, hwp, hwb, hf, hd, hq, hw, hv⟩

/-- A request for an NC line sends no snoop and starts its Hearth access (R187, R188). -/
theorem serve_nc (hx : Fresh p held x) (hd : s.lineDir h p.addr.toNat = .nc) (h1 : 1 ≤ p.op.toNat) (h7 : p.op.toNat ≤ 7) :
    s.serve h k x = s.setTxn h k { x with
      d0 := .nc, started := true, snoops := [], hq := firstAccess p, wrote := wholeStrike p } := by
  have hplan : State.snoopPlan p .nc = [] := by unfold State.snoopPlan; split <;> simp_all
  rw [serve_eq hx (by rw [entryClean, hd]) (fun m _ => by rw [hd]; nofun), hd, hplan]
  exact advance_nc (hx.started .nc []) rfl rfl h1 h7

/-- A request for a line that the directory lists sends the snoops of its plan and waits (R187, R188). -/
theorem serve_listed (L : List (Nat × Nat)) (hx : Fresh p held x) (hc : entryClean s h p.addr.toNat = true)
    (hown : ∀ m, reqSite p = some m → s.lineDir h p.addr.toNat ≠ .ex m) (h1 : 1 ≤ p.op.toNat) (h7 : p.op.toNat ≤ 7)
    {plan : List (Nat × Nat × Bool × Bool × Nat)} (hplan : State.snoopPlan p (s.lineDir h p.addr.toNat) = plan) (hne : plan ≠ [])
    (hop : ∀ o ∈ plan, o.2.1 < 128) :
    ∃ (t : State) (y : Txn) (l : List Pkt), s.serve h k x = t.setTxn h k y ∧ SendsUnits L s t l ∧
      List.Forall₂ (IsSnoop h k p) (plan.map unranked) l ∧ y.req = p ∧ y.started = true ∧ y.snoops.map planned = plan ∧
      (p.op.toNat = 2 → (∀ o ∈ plan, o.2.2.2.2 = 0) → y.hq = [.rd]) := by
  obtain ⟨hsn, l, hl, hall⟩ := sendSnoops_sends (L := L) s h k p plan hop
  rw [serve_eq hx hc hown, hplan]
  obtain ⟨q, hadv, hq⟩ := advance_snoops (s := (s.sendSnoops h k p.addr.toNat p plan).1) (h := h) (k := k)
    (hx.started (s.lineDir h p.addr.toNat) (s.sendSnoops h k p.addr.toNat p plan).2)
    (fun h0 => hne (by rw [← hsn]; exact congrArg (List.map planned) h0)) h1 h7
  refine ⟨_, _, l, hadv, hl, hall, hx.req, rfl, hsn, fun h2 hr => hq h2 fun n hn => ?_⟩
  exact hr (planned n) (by rw [← hsn]; exact List.mem_map_of_mem hn)

/-! ### Admission and the way of an entry -/

/-- The transaction of a request that is admitted (R225). -/
def admitted (p : Pkt) (held : Held) (late : Bool) (born : Nat) : Txn :=
  { line := p.addr.toNat, req := p, held := held, delayed := late, born := born }

theorem fresh_admitted (p : Pkt) (held : Held) (late : Bool) (born : Nat) : Fresh p held (admitted p held late born) :=
  ⟨rfl, rfl, rfl, rfl, rfl, rfl, rfl, rfl, rfl, rfl⟩

/-- A request without a bad operand takes its entry (R219, R225). -/
theorem takeIn_eq (s : State) (h k : Nat) (p : Pkt) (held : Held) (wait : Nat) (hb : badOperand p = false) (h1 : 1 ≤ p.op.toNat)
    (h7 : p.op.toNat ≤ 7) :
    ∃ late born, s.takeIn h k p held wait =
      ((admission s h p wait).setTxn h k (admitted p held late born)).beginTxn h k (admitted p held late born) := by
  simp only [badOperand, Bool.or_eq_false_iff, Bool.and_eq_false_iff, beq_eq_false_iff_ne, Option.isNone_eq_false_iff] at hb
  obtain ⟨hm, ha⟩ := hb
  unfold State.takeIn
  rcases (by omega : p.op.toNat = 1 ∨ p.op.toNat = 2 ∨ p.op.toNat = 3 ∨ p.op.toNat = 4 ∨ p.op.toNat = 5 ∨ p.op.toNat = 6 ∨ p.op.toNat = 7)
    with h | h | h | h | h | h | h
  case inr.inr.inr.inr.inl | inr.inr.inr.inr.inr.inl =>
    have hmask : (p.mask == 0) = false := beq_eq_false_iff_ne.mpr (hm.resolve_left (by omega))
    simp only [h, hmask, Bool.false_eq_true, if_false]
    exact ⟨_, _, rfl⟩
  case inr.inr.inr.inr.inr.inr =>
    obtain ⟨r, hr⟩ := Option.isSome_iff_exists.mp (ha.resolve_left (by omega))
    simp only [h, hr]
    exact ⟨_, _, rfl⟩
  all_goals
    simp only [h]
    exact ⟨_, _, rfl⟩

/-- A request that installs no new entry, or finds one, needs no way (R235). -/
theorem beginTxn_listed (hn : (decide (x.req.op.toNat ≤ 3) && decide (s.lineDir h x.line = .nc)) = false) :
    s.beginTxn h k x = s.serve h k x := by
  unfold State.beginTxn
  dsimp only
  rw [hn]
  rfl

/-- A request that will install an entry is given a free way first (R235). -/
theorem beginTxn_free (hn : (decide (x.req.op.toNat ≤ 3) && decide (s.lineDir h x.line = .nc)) = true) {i : Nat}
    (hi : s.freeWay h (dirSet (paOf x.line)) = some i) :
    s.beginTxn h k x = (s.touchWayOf h (dirSet (paOf x.line)) i).serve h k { x with way := some i } := by
  unfold State.beginTxn
  dsimp only
  rw [hn, hi]
  rfl

/-- A request for an NC line begins with its Hearth access, and with a way where it will install an entry (R187, R188, R235). -/
theorem beginTxn_nc (hx : Fresh p held x) (hw : x.way = none) (hh : h < 64) (h1 : 1 ≤ p.op.toNat) (h7 : p.op.toNat ≤ 7)
    (hd : s.lineDir h p.addr.toNat = .nc) {w : Option Nat} (hw' : w = if p.op.toNat ≤ 3 then s.freeWay h (dirSet (paOf p.addr.toNat)) else none)
    (hsome : p.op.toNat ≤ 3 → w.isSome = true) (L : List (Nat × Nat)) :
    ∃ t, Kept L s t ∧ t.net = s.net ∧ s.beginTxn h k x = t.setTxn h k (atHearth p w x) := by
  by_cases h3 : p.op.toNat ≤ 3
  · obtain ⟨i, hi⟩ := Option.isSome_iff_exists.mp (hsome h3)
    rw [if_pos h3, hi] at hw'
    have hkept := kept_touchWayOf (L := L) s (dirSet (paOf x.line)) i hh
    refine ⟨s.touchWayOf h (dirSet (paOf x.line)) i, hkept, rfl, ?_⟩
    rw [beginTxn_free (by rw [hx.req, hx.line, hd, decide_eq_true h3]; rfl) (by rw [hx.line, ← hw']), hi]
    exact serve_nc (hx.withWay (some i)) (by rw [hkept.lineDir, hd]) h1 h7
  · rw [if_neg h3] at hw'
    refine ⟨s, .of_homes rfl rfl rfl (sameButCounters_of_regs rfl), rfl, ?_⟩
    rw [beginTxn_listed (by rw [hx.req, decide_eq_false h3]; rfl), hw', ← hw]
    exact serve_nc hx hd h1 h7

end

end Sys2Proof.Proofs
end

section
/-! ### Requests that their home takes in (R187, R188, R219) -/

namespace Sys2Proof.Proofs

open Sys2Proof Sys2Proof.Machine Sys2Proof.Safety

section
variable {s t u : State} {h k : Nat} {p : Pkt} {held : Held} {x : Txn}

theorem homeTakes_lt (hT : HomeTakes s h k p held) : h < 64 := by
  obtain ⟨⟨⟨⟨-, hhome, -⟩, -⟩, -⟩, -⟩ := hT
  exact lt_of_homeOfPkt hhome

/-- A request that every check of R219 passes is taken in. -/
theorem homeRequest_takes (hT : HomeTakes s h k p held)
    (hway : p.op.toNat ≤ 3 → s.lineDir h p.addr.toNat = .nc → s.freeWay h (dirSet (paOf p.addr.toNat)) ≠ none) :
    s.homeRequest h p = (requestSeen s h p).takeIn h k p held (s.queueWait p) := by
  obtain ⟨hF, hv, htc, hk, hc⟩ := hT
  have hu := (homeRequest_of_lineFree hF hv hc).trans (if_neg fun ⟨h3, hnc, hfree, _⟩ => hway h3 hnc hfree)
  simpa only [htc, hk] using hu

/-- The command of a request that is taken in ends where its service ends. -/
theorem homeCommand_taken (hT : HomeTakes s h k p held)
    (hway : p.op.toNat ≤ 3 → s.lineDir h p.addr.toNat = .nc → s.freeWay h (dirSet (paOf p.addr.toNat)) ≠ none)
    (hu : (requestSeen s h p).takeIn h k p held (s.queueWait p) = u) (ho : u.off = s.off) :
    ∃ t, exec (homeCommand p) s = .next t ∧ t.net = u.net ∧ t.regs = u.regs ∧ TakesNothing u t := by
  have hreq := (homeRequest_takes hT hway).trans hu
  obtain ⟨⟨⟨hI, h1, h8, -⟩, -⟩, -⟩ := hT
  exact homeCommand_next hI h1 h8 hreq ho

theorem txn_of_trk (ht : (t.homeAt h).trk = (s.homeAt h).trk) : t.txn? h k = s.txn? h k := by
  unfold State.txn?; rw [ht]

/-- The registers in which an admission at home `h` counts outside the counter block (R252). -/
abbrev delayRegs (h : Nat) (p : Pkt) : List (Nat × Nat) := [(pgHOME h, Reg.HOME_OVL_DLY p.cls.toNat)]

/-- A request admitted, before it begins: its home has the entry in the tracker, and all else is as it was. -/
structure Admitted (s : State) (h k : Nat) (p : Pkt) (x : Txn) (c : State) : Prop where
  kept : Kept (delayRegs h p) s c
  net : c.net = (s.consume p).net
  freeWay : c.freeWay h (dirSet (paOf p.addr.toNat)) = s.freeWay h (dirSet (paOf p.addr.toNat))
  clean : entryClean c h p.addr.toNat = entryClean s h p.addr.toNat

theorem freeWay_of_kept {L : List (Nat × Nat)} (hk : Kept L s t) {set : Nat} (hw : ∀ i, t.wayTaken h set i = s.wayTaken h set i) :
    t.freeWay h set = s.freeWay h set := by
  unfold State.freeWay
  apply List.find?_congr
  intro i _
  obtain ⟨a, ha⟩ := hk.ways h set i
  rw [ha, hw]

theorem admitted_setTxn (hT : HomeTakes s h k p held) (hx : Fresh p held x) (hw : x.way = none) (wait : Nat) :
    Admitted s h k p x ((admission (requestSeen s h p) h p wait).setTxn h k x) := by
  have hh := homeTakes_lt hT
  have hcls : p.cls.toNat < 4 := p.cls.isLt
  have hadm : Kept (delayRegs h p) s (admission (requestSeen s h p) h p wait) :=
    (kept_requestSeen s h p).trans (kept_admission _ p wait hh)
  have htrk : ((admission (requestSeen s h p) h p wait).homeAt h).trk = (s.homeAt h).trk := by
    rw [(takesNothing_admission _ h p wait hh).trk, requestSeen_homeAt]
  have hkept := hadm.trans (kept_setTxn _ k x hh)
  obtain ⟨-, -, -, hk, -⟩ := hT
  refine ⟨hkept, by rw [State.setTxn, State.modHome_net, admission_net, requestSeen_net], ?_, hkept.entryClean hcls _ _⟩
  refine freeWay_of_kept hkept fun i => ?_
  rw [wayTaken_setTxn hh (by rw [htrk, get?_freeKey hk]) hw hx.victim]
  unfold State.wayTaken
  rw [htrk]

/-- What clause 1 of the statement says of a request for an NC line after its step. -/
def Taken (s : State) (h k : Nat) (p : Pkt) (held : Held) (q : List HOp) (w : Option Nat) (t : State) : Prop :=
  (∃ x : Txn, t.txn? h k = some x ∧ x.line = p.addr.toNat ∧ x.req = p ∧ x.held = held ∧ x.started = true ∧ x.snoops = [] ∧
    x.hq = q ∧ x.way = w) ∧
  t.lineBusy h p.addr.toNat = true ∧ Sends (s.consume p) t [] ∧ (∀ l, t.lineDir h l = s.lineDir h l) ∧ SameMemory s t ∧
  SameButCounters (delayRegs h p) s t

/-- A request for an NC line takes its entry, sends nothing and starts its Hearth access (R187, R188, R235). -/
theorem request_taken (hT : HomeTakes s h k p held) (hb : badOperand p = false) (h7 : p.op.toNat ≤ 7)
    (hd : s.lineDir h p.addr.toNat = .nc) {w : Option Nat} (hw : w = if p.op.toNat ≤ 3 then s.freeWay h (dirSet (paOf p.addr.toNat)) else none)
    (hsome : p.op.toNat ≤ 3 → w.isSome = true) :
    Answers (homeCommand p) s (Taken s h k p held (firstAccess p) w) := by
  have hh := homeTakes_lt hT
  have h1 : 1 ≤ p.op.toNat := by obtain ⟨⟨⟨-, h1, -⟩, -⟩, -⟩ := hT; exact h1
  obtain ⟨late, born, htake⟩ := takeIn_eq (requestSeen s h p) h k p held (s.queueWait p) hb h1 h7
  have hfresh := fresh_admitted p held late born
  have hadm := admitted_setTxn hT hfresh rfl (s.queueWait p)
  obtain ⟨c, hkept, hnet, hbegin⟩ := beginTxn_nc (k := k) hfresh rfl hh h1 h7 (by rw [hadm.kept.lineDir, hd]) (by rw [hadm.freeWay]; exact hw)
    hsome (delayRegs h p)
  have hkeptc := hadm.kept.trans hkept
  have hkeptu := hkeptc.trans (kept_setTxn c k (atHearth p w (admitted p held late born)) hh)
  obtain ⟨t, ht, htn, htr, htt⟩ := homeCommand_taken hT
    (fun h3 _ hfree => by have := hsome h3; rw [hw, if_pos h3, hfree] at this; cases this) (htake.trans hbegin) hkeptu.off
  have htxn := (txn_of_trk (htt.trk h)).trans (txn_setTxn_same hh)
  refine ⟨t, ht, ⟨_, htxn, rfl, rfl, rfl, rfl, rfl, rfl, rfl⟩, lineBusy_of_txn htxn, ⟨[], ?_, rfl⟩, fun l => ?_, ?_, ?_⟩
  · rw [htn, State.setTxn, State.modHome_net, hnet, hadm.net, List.append_nil]
  · rw [htt.dir, hkeptu.lineDir]
  · exact fun a => by rw [htt.mem, hkeptu.mem]
  · exact fun q off ho hc hl => (reg_of_regs htr q off).trans (hkeptu.regs q off ho hc hl)

/-- What clause 2 says of a request that sends snoops. -/
def Snooping (s : State) (h k : Nat) (p : Pkt) (plan : List SnoopOut) (t : State) : Prop :=
  (∃ x : Txn, t.txn? h k = some x ∧ x.req = p ∧ x.started = true ∧
    x.snoops.map (fun n => ((n.site, n.op, n.fwd, n.discard) : SnoopOut)) = plan ∧
    (p.op = 0x02 → (∀ o ∈ plan, o.2.2.1 = false) → x.hq = [.rd])) ∧
  (∃ l : List Pkt, Sends (s.consume p) t l ∧ l.length = plan.length ∧
    ∀ (i : Nat) o q, plan[i]? = some o → l[i]? = some q → IsSnoop h k p o q) ∧
  (∀ l, t.lineDir h l = s.lineDir h l) ∧ SameMemory s t

/-- A request for a line that the directory lists sends the snoops of its plan (R187). -/
theorem request_snoops (hT : HomeTakes s h k p held) (hb : badOperand p = false) (h7 : p.op.toNat ≤ 7)
    (hd : s.lineDir h p.addr.toNat ≠ .nc) (hown : ∀ m, reqSite p = some m → s.lineDir h p.addr.toNat ≠ .ex m)
    {plan : List SnoopOut} {r : SnoopOut → Nat} (hplan : State.snoopPlan p (s.lineDir h p.addr.toNat) = plan.map (ranked r))
    (hne : plan ≠ []) (hop : ∀ o ∈ plan, o.2.1 < 128) (hr : p.op.toNat = 2 → (∀ o ∈ plan, o.2.2.1 = false) → ∀ o ∈ plan, r o = 0) :
    Answers (homeCommand p) s (Snooping s h k p plan) := by
  have hh := homeTakes_lt hT
  have hcl : entryClean s h p.addr.toNat = true := by obtain ⟨-, -, -, -, hcl⟩ := hT; exact hcl
  have h1 : 1 ≤ p.op.toNat := by obtain ⟨⟨⟨-, h1, -⟩, -⟩, -⟩ := hT; exact h1
  obtain ⟨late, born, htake⟩ := takeIn_eq (requestSeen s h p) h k p held (s.queueWait p) hb h1 h7
  have hfresh := fresh_admitted p held late born
  have hadm := admitted_setTxn hT hfresh rfl (s.queueWait p)
  generalize hc : (admission (requestSeen s h p) h p (s.queueWait p)).setTxn h k (admitted p held late born) = c at hadm htake
  have hdir := hadm.kept.lineDir h p.addr.toNat
  obtain ⟨c', y, l, hserve, hsend, hall, hyreq, hyst, hysn, hyq⟩ := serve_listed (k := k) (delayRegs h p) hfresh (hadm.clean.trans hcl)
    (by rw [hdir]; exact hown) h1 h7 (by rw [hdir]; exact hplan) (by simpa using hne) (ranked_op hop)
  have hbegin := (beginTxn_listed (s := c) (h := h) (k := k) (x := admitted p held late born)
    (by simp only [admitted, hdir, hd, decide_false, Bool.and_false])).trans hserve
  have hkeptu := (hadm.kept.trans hsend.kept).trans (kept_setTxn c' k y hh)
  obtain ⟨t, ht, htn, -, htt⟩ := homeCommand_taken hT (fun _ hnc => absurd hnc hd) (htake.trans hbegin) hkeptu.off
  have htxn := (txn_of_trk (htt.trk h)).trans (txn_setTxn_same hh)
  have hmap : y.snoops.map (fun n => ((n.site, n.op, n.fwd, n.discard) : SnoopOut)) = plan := by
    rw [← map_unranked_ranked r plan, ← hysn, List.map_map]; rfl
  rw [map_unranked_ranked] at hall
  refine ⟨t, ht, ⟨y, htxn, hyreq, hyst, hmap, fun h2 hf => hyq (congrArg BitVec.toNat h2) ?_⟩, ⟨l, ?_, hall.length_eq.symm, ?_⟩, fun l => ?_, ?_⟩
  · intro o ho
    obtain ⟨o', ho', rfl⟩ := List.mem_map.mp ho
    exact hr (congrArg BitVec.toNat h2) hf o' ho'
  · exact sends_of_net hsend.sends hadm.net.symm (by rw [htn]; rfl)
  · intro i o q ho hq
    obtain ⟨hi, rfl⟩ := List.getElem?_eq_some_iff.mp ho
    obtain ⟨hi', rfl⟩ := List.getElem?_eq_some_iff.mp hq
    exact hall.get hi hi'
  · rw [htt.dir, hkeptu.lineDir]
  · exact fun a => by rw [htt.mem, hkeptu.mem]

end

end Sys2Proof.Proofs
end

section
/-! ### Entries that change at a request's end: EvictClean and a lone sharer's Upgrade (R187, R192, R225) -/

namespace Sys2Proof.Proofs

open Sys2Proof Sys2Proof.Machine Sys2Proof.Safety

section
variable {s t u : State} {h k l m : Nat} {p : Pkt} {held : Held} {x : Txn} {L : List (Nat × Nat)}

/-- A step that sets an entry leaves all but the directory. -/
structure EntryMoved (h l : Nat) (d : DirSt) (s t : State) : Prop where
  off : t.off = s.off
  mem : t.mem = s.mem
  net : t.net = s.net
  trk : ∀ i, (t.homeAt i).trk = (s.homeAt i).trk
  wb : ∀ i, (t.homeAt i).wb = (s.homeAt i).wb
  entry : t.lineDir h l = d
  others : OtherEntries h l s t

theorem entryMoved_refl (s : State) (h l : Nat) : EntryMoved h l (s.lineDir h l) s s :=
  ⟨rfl, rfl, rfl, fun _ => rfl, fun _ => rfl, rfl, fun _ _ => rfl⟩

theorem entryMoved_setLineDir (hh : h < 64) (hd : s.lineDir h l ≠ .nc) (d : DirSt) (a : Option Nat) :
    EntryMoved h l d s (s.setLineDir h l d a) := by
  have hf := dirFind_isSome_of_lineDir hd
  have hentry := lineDir_setLineDir_same hh hf d a
  have hothers := otherEntries_setLineDir hh hf d a
  obtain ⟨dir, heq | heq⟩ := setLineDir_eq s h l d a <;> rw [heq] at hentry hothers ⊢
  · exact ⟨rfl, rfl, rfl, fun _ => rfl, fun _ => rfl, hentry, hothers⟩
  · refine ⟨rfl, rfl, rfl, fun i => ?_, fun i => ?_, hentry, hothers⟩
    all_goals
      by_cases hi : i = h
      · rw [hi, homeAt_modHome_same _ _ _ hh]
      · rw [homeAt_modHome_ne _ _ hi]

theorem kept_holdLine (s : State) (l : Nat) (hh : h < 64) : Kept L s (s.holdLine h l) := by
  unfold State.holdLine
  refine kept_modHome _ _ hh ?_ ?_ <;> split <;> rfl

/-- The end of a transaction moves no entry and no writeback (R225). -/
theorem kept_endTxn (s : State) (k : Nat) (x : Txn) (hh : h < 64) : Kept L s (s.endTxn h k x) :=
  (kept_modHome _ _ hh rfl rfl).trans (kept_holdLine _ x.line hh)

theorem trk_endTxn (s : State) (k : Nat) (x : Txn) (hh : h < 64) : ((s.endTxn h k x).homeAt h).trk = Tab.del k (s.homeAt h).trk := by
  unfold State.endTxn
  rw [(takesNothing_holdLine _ h x.line hh).trk, homeAt_modHome_same _ _ _ hh]

/-! ### What the step of a home leaves besides its service -/

theorem wb_homeStep (s u : State) (h l i : Nat) (hh : h < 64) : ((s.homeStep u h l).homeAt i).wb = (u.homeAt i).wb := by
  unfold State.homeStep
  dsimp only
  split
  · rfl
  · exact (kept_modHome (L := []) _ _ hh rfl rfl).wb i

theorem homeCommand_wb (hT : HomeTakes s h k p held)
    (hway : p.op.toNat ≤ 3 → s.lineDir h p.addr.toNat = .nc → s.freeWay h (dirSet (paOf p.addr.toNat)) ≠ none)
    (hu : (requestSeen s h p).takeIn h k p held (s.queueWait p) = u) (ho : u.off = s.off) (ht : exec (homeCommand p) s = .next t) (i : Nat) :
    (t.homeAt i).wb = (u.homeAt i).wb := by
  have hreq := (homeRequest_takes hT hway).trans hu
  obtain ⟨⟨⟨⟨⟨⟨hoff, -⟩, hbank⟩, hhome, harr, hturn, -⟩, h1, h8, -⟩, -⟩, -⟩ := hT
  have hh := lt_of_homeOfPkt hhome
  have hstep := takesNothing_homeStep s u h p.addr.toNat hh
  have heq : s.requestAs p.op p = s.homeStep u h p.addr.toNat := by
    simp [State.requestAs, State.homeTakes, hhome, harr, hturn, hreq]
  rw [exec_homeCommand s p h1 h8, actFclk_on s _ hoff hbank, heq, settle_on _ _ (by rw [hstep.off, ho, hoff])] at ht
  cases ht
  exact wb_homeStep s u h p.addr.toNat i hh

theorem lineBusy_of_parts (ht : (t.homeAt h).trk = (s.homeAt h).trk) (hw : (t.homeAt h).wb = (s.homeAt h).wb) :
    t.lineBusy h l = s.lineBusy h l := by
  unfold State.lineBusy; rw [ht, hw]

/-! ### EvictClean (R187, R192) -/

/-- The entry names a site. -/
def names (d : DirSt) (m : Nat) : Bool :=
  match d with
  | .nc => false
  | .sh pv _ => bitN pv m
  | .ex o => o == m

/-- An entry after a site has given its line up (R187). -/
def leftBy (d : DirSt) (m : Nat) : DirSt := if names d m then d.remove m else d

/-- The step of an entry that its site gives up. -/
def leaveEntry (s : State) (h l m : Nat) : State :=
  if names (s.lineDir h l) m then s.setLineDir h l ((s.lineDir h l).remove m) none else s

theorem entryMoved_leaveEntry (s : State) (l m : Nat) (hh : h < 64) :
    EntryMoved h l (leftBy (s.lineDir h l) m) s (leaveEntry s h l m) := by
  unfold leaveEntry leftBy
  split
  · rename_i hn
    exact entryMoved_setLineDir hh (fun hd => by rw [hd] at hn; cases hn) _ _
  · exact entryMoved_refl s h l

theorem takeIn_evict (s : State) (h k : Nat) (p : Pkt) (held : Held) (wait : Nat) (h8 : p.op.toNat = 8) (hd : isDieNode p.src = true) :
    ∃ late born, s.takeIn h k p held wait =
      ((leaveEntry (admission s h p wait) h p.addr.toNat (siteOf p.src)).respond 0x45 (nodeHome h) p.src p.txn 0 true).endTxn h k
        (admitted p held late born) := by
  have hsite : (reqSite p).getD 16 = siteOf p.src := by rw [reqSite_getD, requester, if_pos hd]
  unfold leaveEntry
  generalize hent : (admission s h p wait).lineDir h p.addr.toNat = d
  unfold admission at hent
  dsimp only at hent
  unfold State.takeIn
  simp only [h8, hsite, hent]
  cases d <;> exact ⟨_, _, rfl⟩

/-- What clause 3 of the statement says after an EvictClean. -/
def Evicted (s : State) (h k : Nat) (p : Pkt) (d : DirSt) (t : State) : Prop :=
  t.lineDir h p.addr.toNat = d ∧ OtherEntries h p.addr.toNat s t ∧ t.txn? h k = none ∧ t.lineBusy h p.addr.toNat = false ∧ SameMemory s t ∧
  ∃ q, Sends (s.consume p) t [q] ∧ IsReply h p 0x45 true q

theorem evict_leaves (hT : HomeTakes s h k p held) (h8 : p.op.toNat = 8) (hd : isDieNode p.src = true) :
    Answers (homeCommand p) s (Evicted s h k p (leftBy (s.lineDir h p.addr.toNat) (siteOf p.src))) := by
  have hh := homeTakes_lt hT
  have hway : p.op.toNat ≤ 3 → s.lineDir h p.addr.toNat = .nc → s.freeWay h (dirSet (paOf p.addr.toNat)) ≠ none := fun h3 => by omega
  obtain ⟨late, born, htake⟩ := takeIn_evict (requestSeen s h p) h k p held (s.queueWait p) h8 hd
  have hadm : Kept (delayRegs h p) s (admission (requestSeen s h p) h p (s.queueWait p)) :=
    (kept_requestSeen s h p).trans (kept_admission _ p _ hh)
  have htrk : ((admission (requestSeen s h p) h p (s.queueWait p)).homeAt h).trk = (s.homeAt h).trk := by
    rw [(takesNothing_admission _ h p _ hh).trk, requestSeen_homeAt]
  have hnet : (admission (requestSeen s h p) h p (s.queueWait p)).net = (s.consume p).net := by rw [admission_net, requestSeen_net]
  generalize admission (requestSeen s h p) h p (s.queueWait p) = a at htake hadm htrk hnet
  have hleave := entryMoved_leaveEntry a p.addr.toNat (siteOf p.src) hh
  generalize leaveEntry a h p.addr.toNat (siteOf p.src) = b at htake hleave
  have hresp : Kept (delayRegs h p) b (b.respond 0x45 (nodeHome h) p.src p.txn 0 true) := kept_send b _ _
  have hend := hresp.trans (kept_endTxn (h := h) (b.respond 0x45 (nodeHome h) p.src p.txn 0 true) k (admitted p held late born) hh)
  have hoff := hend.off.trans (hleave.off.trans hadm.off)
  obtain ⟨t, ht, htn, -, htt⟩ := homeCommand_taken hT hway htake hoff
  have hwb := homeCommand_wb hT hway htake hoff ht
  obtain ⟨⟨-, -, -, hbusy, -⟩, -, -, hk, -⟩ := hT
  have hk := get?_freeKey hk
  have htrkt : (t.homeAt h).trk = (s.homeAt h).trk := by
    rw [htt.trk, trk_endTxn _ _ _ hh]
    have hb : ((b.respond 0x45 (nodeHome h) p.src p.txn 0 true).homeAt h).trk = (s.homeAt h).trk := (hleave.trk h).trans htrk
    rw [hb, del_of_get?_none _ _ hk]
  obtain ⟨q, hq, hop, hsrc, hdst, htxn, -, hlast, -⟩ := respond_sends b 0x45 (nodeHome h) p.src p.txn 0 true false none
  refine ⟨t, ht, ?_, fun l' hl' => ?_, ?_, ?_, fun c => ?_, q, ?_, hop, hsrc, hdst, htxn, hlast⟩
  · rw [htt.dir, hend.lineDir, hleave.entry, hadm.lineDir]
  · rw [htt.dir, hend.lineDir, hleave.others l' hl', hadm.lineDir]
  · rw [txn_of_trk htrkt]; exact hk
  · rw [lineBusy_of_parts htrkt ((hwb h).trans ((hend.wb h).trans ((hleave.wb h).trans (hadm.wb h)))), hbusy]
  · rw [htt.mem, hend.mem, hleave.mem, hadm.mem]
  · exact sends_of_net hq (hnet.symm.trans hleave.net.symm) (by rw [htn]; rfl)

end

end Sys2Proof.Proofs
end

section
/-! ### A lone sharer's Upgrade, and the requests at a home (R187) -/

namespace Sys2Proof.Proofs

open Sys2Proof Sys2Proof.Machine Sys2Proof.Safety

section
variable {s t u : State} {h k m : Nat} {p : Pkt} {held : Held} {x : Txn}

/-- An owner stays the owner when other sites leave (R246). -/
theorem foldl_remove_ex (l : List Nat) (hm : m ∉ l) : l.foldl (fun (d : DirSt) x => d.remove x) (.ex m) = .ex m := by
  induction l with
  | nil => rfl
  | cons a l ih =>
    have hne : (m == a) = false := beq_eq_false_iff_ne.mpr fun h => hm (h ▸ .head _)
    rw [List.foldl_cons, DirSt.remove, hne]
    exact ih fun h => hm (.tail _ h)

/-- A line granted to a site that is not fenced becomes its own (R187). -/
theorem finish_ex (hm : reqSite x.req = some m) (hf : s.fenced m = false) (hwb : x.wbSeen = []) {l : Nat} (hl : x.line = l) :
    s.finish h k x (.ex m) = (s.setLineDir h l (.ex m) x.way).endTxn h k x := by
  have hgone : m ∉ (List.range 16).filter fun i => s.fenced i || (x.wbSeen.contains i && i != m) := by
    simp [hf, hwb]
  unfold State.finish
  simp only [hm, hf, Bool.false_and, Bool.false_eq_true, if_false, Option.getD_some]
  rw [foldl_remove_ex _ hgone, hl]

/-- An Upgrade that awaits nothing is granted (R187). -/
theorem advance_granted (hx : Fresh p held x) (hop : p.op.toNat = 3) (hm : reqSite p = some m) {pv : Nat} {lead : Option Nat}
    (hd : x.d0 = .sh pv lead) (hpv : bitN pv m = true) (hn : x.snoops = []) (hf : s.fenced m = false) :
    s.advance h k x = (s.respond 0x42 (nodeHome h) p.src p.txn 0 true).finish h k x (.ex m) := by
  have hreply : s.reply h x 0x42 0 true = s.respond 0x42 (nodeHome h) p.src p.txn 0 true := by
    unfold State.reply
    rw [hx.req, hm]
    simp only [hf, Bool.false_eq_true, if_false]
  have hfinal : finalState x.req x.d0 x.fwd x.ansL = .ex m := by
    unfold finalState
    rw [hx.req, hm, hop]
    rfl
  unfold State.advance State.wbPending
  dsimp only
  rw [hreply, hfinal, hx.hq, hx.wbSeen, hx.req, hop, hm, hd, hn, hx.wpWait]
  simp [hpv]

/-- A sharer of an entry that names no other site is a die's site, and it alone (R187). -/
theorem reqSite_of_loneSharer {pv : Nat} (hpv : sitesOf pv = [requester p]) :
    isDieNode p.src = true ∧ reqSite p = some (requester p) ∧ bitN pv (requester p) = true := by
  have hmem : requester p ∈ sitesOf pv := by rw [hpv]; exact .head _
  obtain ⟨hlt, hbit⟩ := List.mem_filter.mp hmem
  have hlt := List.mem_range.mp hlt
  have hdie : isDieNode p.src = true := by
    by_contra hn
    rw [requester, if_neg hn] at hlt
    omega
  exact ⟨hdie, by rw [reqSite, requester, if_pos hdie, if_pos hdie], hbit⟩

/-- What clause 2 of the statement says of a lone sharer's Upgrade. -/
def Granted (s : State) (h k : Nat) (p : Pkt) (t : State) : Prop :=
  t.txn? h k = none ∧ t.lineDir h p.addr.toNat = .ex (requester p) ∧ OtherEntries h p.addr.toNat s t ∧
  ∃ q, Sends (s.consume p) t [q] ∧ IsReply h p 0x42 true q

theorem upgrade_granted (hT : HomeTakes s h k p held) (hb : badOperand p = false) (hop : p.op.toNat = 3) {pv : Nat} {lead : Option Nat}
    (hd : s.lineDir h p.addr.toNat = .sh pv lead) (hpv : sitesOf pv = [requester p]) :
    Answers (homeCommand p) s (Granted s h k p) := by
  have hh := homeTakes_lt hT
  have hcls : p.cls.toNat < 4 := p.cls.isLt
  obtain ⟨hdie, hsite, hbit⟩ := reqSite_of_loneSharer hpv
  have hcl : entryClean s h p.addr.toNat = true := by obtain ⟨-, -, -, -, hcl⟩ := hT; exact hcl
  have hfence : s.fenced (requester p) = false := by
    obtain ⟨⟨⟨-, -, -, -, -, hfence⟩, -⟩, -⟩ := hT
    rw [requester, if_pos hdie]; exact hfence hdie
  obtain ⟨late, born, htake⟩ := takeIn_eq (requestSeen s h p) h k p held (s.queueWait p) hb (by omega) (by omega)
  have hfresh := fresh_admitted p held late born
  have hadm := admitted_setTxn hT hfresh rfl (s.queueWait p)
  generalize (admission (requestSeen s h p) h p (s.queueWait p)).setTxn h k (admitted p held late born) = c at hadm htake
  have hdir : c.lineDir h p.addr.toNat = .sh pv lead := (hadm.kept.lineDir h p.addr.toNat).trans hd
  have hplan : State.snoopPlan p (.sh pv lead) = [] := by
    rw [snoopPlan_shared p (by omega) (by omega), hop, r187Shared, hpv]
    simp
  have hserve := serve_eq (k := k) hfresh (hadm.clean.trans hcl) (fun m _ => by rw [hdir]; nofun)
  rw [hdir, hplan] at hserve
  have hfresh' := hfresh.started (.sh pv lead) []
  have hadv := (advance_granted (s := c) (h := h) (k := k) hfresh' hop hsite rfl hbit rfl ((hadm.kept.fenced hcls _).trans hfence)).trans
    (finish_ex (s := c.respond 0x42 (nodeHome h) p.src p.txn 0 true) (h := h) (k := k) (by rw [hfresh'.req]; exact hsite)
      ((hadm.kept.fenced hcls _).trans hfence) hfresh'.wbSeen hfresh'.line)
  have hu := htake.trans ((beginTxn_listed (s := c) (h := h) (k := k) (x := admitted p held late born)
    (by simp only [admitted, hdir, reduceCtorEq, decide_false, Bool.and_false])).trans (hserve.trans hadv))
  generalize servedFrom (.sh pv lead) _ (admitted p held late born) = y at hu
  have hresp : Kept (delayRegs h p) c (c.respond 0x42 (nodeHome h) p.src p.txn 0 true) := kept_send c _ _
  obtain ⟨q, hq, hqop, hsrc, hdst, htxn, -, hlast, -⟩ := respond_sends c 0x42 (nodeHome h) p.src p.txn 0 true false none
  generalize c.respond 0x42 (nodeHome h) p.src p.txn 0 true = b at hu hresp hq
  have hdirb : b.lineDir h p.addr.toNat = .sh pv lead := (hresp.lineDir ..).trans hdir
  have hmove := entryMoved_setLineDir hh (s := b) (l := p.addr.toNat) (by rw [hdirb]; nofun) (.ex (requester p)) y.way
  generalize b.setLineDir h p.addr.toNat (.ex (requester p)) y.way = e at hu hmove
  have hend : Kept (delayRegs h p) e (e.endTxn h k y) := kept_endTxn e k y hh
  obtain ⟨t, ht, htn, -, htt⟩ := homeCommand_taken hT (fun _ hnc => by rw [hd] at hnc; cases hnc) hu
    (hend.off.trans (hmove.off.trans (hresp.off.trans hadm.kept.off)))
  refine ⟨t, ht, ?_, ?_, fun l' hl' => ?_, q, sends_of_net hq hadm.net.symm ?_, hqop, hsrc, hdst, htxn, hlast⟩
  · rw [txn_of_trk (htt.trk h), State.txn?, trk_endTxn _ _ _ hh, Tab.get?_del_same]
  · rw [htt.dir, hend.lineDir, hmove.entry]
  · rw [htt.dir, hend.lineDir, hmove.others l' hl', hresp.lineDir, hadm.kept.lineDir]
  · rw [htn, endTxn_net, hmove.net]

end

/-! ### The statement -/

theorem sub_two_pow_eq_zero {pv m : Nat} (hb : bitN pv m = true) : (pv - 2 ^ m == 0) = decide (pv = 2 ^ m) := by
  have hle : 2 ^ m ≤ pv := Nat.ge_two_pow_of_testBit (by rw [← bitN_eq_testBit]; exact hb)
  rw [beq_eq_decide]
  congr 1
  rw [eq_iff_iff]
  omega

theorem leftBy_shared {pv m : Nat} (lead : Option Nat) (hb : bitN pv m = true) :
    leftBy (.sh pv lead) m = if pv = 2 ^ m then .nc else .sh (pv - 2 ^ m) (if lead = some m then none else lead) := by
  unfold leftBy DirSt.remove
  simp [names, hb, sub_two_pow_eq_zero hb]

theorem answers_of_homeCommand {s : State} {p : Pkt} {c : Instr} {P : State → Prop} (ha : Answers (homeCommand p) s P)
    (hc : homeCommand p = c) : Answers c s P := hc ▸ ha

/-- Settles O12: an admitted request is served from the state of its line; the table of R187 gives its snoops. -/
theorem requestsAtHome : Obligations.RequestsAtHome := by
  unfold Obligations.RequestsAtHome
  refine ⟨fun s h k p held hT hb hd => ?nc, fun s h k p held hT hb h7 => ?listed, fun s h k p held hT hop hdie => ?evict⟩
  case nc =>
    have hinstall : p.op.toNat ≤ 3 → (s.freeWay h (dirSet (paOf p.addr.toNat))).isSome = true →
        Answers (homeCommand p) s (Taken s h k p held [.rd] (s.freeWay h (dirSet (paOf p.addr.toNat)))) := fun h3 hw => by
      have ha := request_taken hT hb (by omega) hd (if_pos h3).symm fun _ => hw
      rwa [firstAccess, if_pos (by omega)] at ha
    have hpass : ∀ q, firstAccess p = q → 4 ≤ p.op.toNat → p.op.toNat ≤ 7 → Answers (homeCommand p) s (Taken s h k p held q none) :=
      fun q hq h4 h7 => hq ▸ request_taken hT hb h7 hd (if_neg (by omega)).symm fun h3 => by omega
    have hmerge : 4 < p.op.toNat → wholeStrike p = false → firstAccess p = [.rdm] := fun h4 hw => by
      rw [firstAccess, if_neg (by omega), hw]; rfl
    refine ⟨fun hop hw => ?rdShared, fun hop hw => ?rdOwn, fun hop hw => ?upgrade, fun hop => ?rdOnce, fun hop hm => ?strikeWhole,
      fun hop hm => ?strikeSome, fun hop => ?strikePart, fun hop => ?farAtomic⟩
    case rdShared => exact answers_of_homeCommand (hinstall (by simp [hop]) hw) (by simp [homeCommand, hop])
    case rdOwn => exact answers_of_homeCommand (hinstall (by simp [hop]) hw) (by simp [homeCommand, hop])
    case upgrade => exact answers_of_homeCommand (hinstall (by simp [hop]) hw) (by simp [homeCommand, hop])
    case rdOnce =>
      exact answers_of_homeCommand (hpass _ (if_pos (by simp [hop])) (by simp [hop]) (by simp [hop])) (by simp [homeCommand, hop])
    case strikeWhole =>
      have hw : wholeStrike p = true := decide_eq_true ⟨hop, hm⟩
      exact answers_of_homeCommand (hpass _ (by simp [firstAccess, hop, hw]) (by simp [hop]) (by simp [hop])) (by simp [homeCommand, hop])
    case strikeSome =>
      have hw : wholeStrike p = false := decide_eq_false fun ⟨_, hm'⟩ => hm hm'
      exact answers_of_homeCommand (hpass _ (hmerge (by simp [hop]) hw) (by simp [hop]) (by simp [hop])) (by simp [homeCommand, hop])
    case strikePart | farAtomic =>
      have hw : wholeStrike p = false := wholeStrike_of_ne (by simp [hop])
      exact answers_of_homeCommand (hpass _ (hmerge (by simp [hop]) hw) (by simp [hop]) (by simp [hop])) (by simp [homeCommand, hop])
  case listed =>
    have h1 : 1 ≤ p.op.toNat := by obtain ⟨⟨⟨-, h1, -⟩, -⟩, -⟩ := hT; exact h1
    refine ⟨fun pv lead plan hd hplan hne => ?shared, fun o hd ho => ?owned, fun pv lead hop hd hpv => ?lone⟩
    case shared =>
      refine request_snoops (r := fun o => b2n o.2.2.1) hT hb h7 (by rw [hd]; nofun) (fun m _ => by rw [hd]; nofun) ?_ hne ?_ ?_
      · rw [hd, hplan]; exact snoopPlan_shared p h1 h7 pv lead
      · rw [hplan]; exact r187Shared_op
      · exact fun _ hf o ho => by rw [hf o ho]; rfl
    case owned =>
      refine request_snoops (r := fun _ => 2) hT hb h7 (by rw [hd]; nofun) (fun m hm => ?_) ?_ (r187Owned_ne_nil h1 h7) r187Owned_op ?_
      · rw [hd]
        intro he
        cases he
        refine ho ?_
        have hreq := reqSite_getD p
        rw [hm] at hreq
        exact hreq
      · rw [hd]; exact snoopPlan_owned p h1 h7 o
      · intro h2 hf
        rw [h2] at hf
        exact absurd (hf _ (.head _)) (by simp)
    case lone =>
      exact answers_of_homeCommand (upgrade_granted hT hb (by simp [hop]) hd hpv) (by simp [homeCommand, hop])
  case evict =>
    have hevict := answers_of_homeCommand (c := .evictClean p) (evict_leaves hT (by simp [hop]) hdie) (by simp [homeCommand, hop])
    refine ⟨fun hd => ?nc, fun o hd => ?owned, fun pv lead hd hbit => ?sharer, fun pv lead hd hbit => ?other⟩ <;> rw [hd] at hevict
    case nc => exact hevict
    case owned =>
      have hleft : leftBy (.ex o) (siteOf p.src) = if o = siteOf p.src then .nc else .ex o := by
        by_cases ho : o = siteOf p.src <;> simp [leftBy, names, DirSt.remove, ho]
      rw [hleft] at hevict
      exact hevict
    case sharer =>
      rw [leftBy_shared lead hbit] at hevict
      exact hevict
    case other =>
      have hleft : leftBy (.sh pv lead) (siteOf p.src) = .sh pv lead := by simp [leftBy, names, hbit]
      rw [hleft] at hevict
      exact hevict

end Sys2Proof.Proofs
end

section
/-! ### What the end of a device write changes (R284, R287) -/

namespace Sys2Proof.Proofs

open Sys2Proof Sys2Proof.Machine Sys2Proof.Safety

/-- Neither the homes nor Smith firmware move, and the package stays on. -/
structure HomesKept (s t : State) : Prop where
  off : t.off = s.off
  homes : t.homes = s.homes
  smith : t.smith = s.smith

/-- A site's control keeps the units it holds and the requests outstanding, and no Drain begins. -/
structure SiteKept (x y : Site) : Prop where
  held : y.held = x.held
  outReq : y.outReq = x.outReq
  drains : x.drains = [] → y.drains = []

/-- As `HomesKept`, with at most the registers of `W` written and every site's control so kept. -/
structure SitesKept (W : Nat → Nat → Prop) (s t : State) : Prop extends HomesKept s t where
  regs : RegsOnly W s t
  sites : ∀ k, SiteKept (s.siteAt k) (t.siteAt k)

/-- Registers of the pages of the PCIe groups. -/
def GroupPages (p _off : Nat) : Prop := 0x100 ≤ p

section
variable {W V : Nat → Nat → Prop} {s t u : State}

theorem HomesKept.refl (s : State) : HomesKept s s := ⟨rfl, rfl, rfl⟩

theorem HomesKept.trans (h : HomesKept s t) (k : HomesKept t u) : HomesKept s u :=
  ⟨k.off.trans h.off, k.homes.trans h.homes, k.smith.trans h.smith⟩

theorem homesKept_foldl {α : Type} (l : List α) (f : State → α → State) (s : State) (h : ∀ a t, HomesKept t (f t a)) :
    HomesKept s (l.foldl f s) :=
  foldl_keeps (HomesKept s) l f s (.refl s) fun a _ t ht => ht.trans (h a t)

theorem SiteKept.refl (x : Site) : SiteKept x x := ⟨rfl, rfl, id⟩

theorem SiteKept.trans {x y z : Site} (h : SiteKept x y) (k : SiteKept y z) : SiteKept x z :=
  ⟨k.held.trans h.held, k.outReq.trans h.outReq, fun he => k.drains (h.drains he)⟩

theorem SitesKept.refl (s : State) : SitesKept W s s := ⟨.refl s, .refl s, fun _ => .refl _⟩

theorem SitesKept.trans (h : SitesKept W s t) (k : SitesKept W t u) : SitesKept W s u :=
  ⟨h.toHomesKept.trans k.toHomesKept, h.regs.trans k.regs, fun i => (h.sites i).trans (k.sites i)⟩

theorem SitesKept.mono (h : SitesKept V s t) (hv : ∀ p off, V p off → W p off) : SitesKept W s t := { h with regs := h.regs.mono hv }

theorem sitesKept_of (h : HomesKept s t) (hr : RegsOnly W s t) (hs : t.sites = s.sites) : SitesKept W s t :=
  ⟨h, hr, fun k => by rw [siteAt_of_sites hs]; exact .refl _⟩

theorem sitesKept_put (s : State) (p v : Nat) (f : FRef) (ho : f.off < 0x10000) (hw : W p f.off) : SitesKept W s (s.put p f v) :=
  sitesKept_of ⟨rfl, rfl, rfl⟩ (regsOnly_put s p v f ho hw) rfl

theorem sitesKept_foldl {α : Type} (l : List α) (f : State → α → State) (s : State) (h : ∀ a ∈ l, ∀ t, SitesKept W t (f t a)) :
    SitesKept W s (l.foldl f s) :=
  foldl_keeps (SitesKept W s) l f s (.refl s) fun a ha t ht => ht.trans (h a ha t)

/-- A block past those of its list does not come to be (`modOf`). -/
theorem siteAt_modSite_or (s : State) (i : Nat) (f : Site → Site) :
    (s.modSite i f).siteAt i = f (s.siteAt i) ∨ (s.modSite i f).siteAt i = s.siteAt i := by
  unfold State.siteAt State.modSite nthD modOf
  dsimp only
  split
  · rename_i hl; exact .inl (by simp [List.getD, hl])
  · split
    · rename_i hl hn
      exact .inl (by simpa [State.siteAt, State.modSite, nthD, modOf, hl, hn] using siteAt_modSite_same s f hn)
    · exact .inr rfl

theorem sitesKept_modSite (s : State) (i : Nat) (f : Site → Site) (hf : ∀ x, SiteKept x (f x)) : SitesKept W s (s.modSite i f) := by
  refine ⟨⟨rfl, rfl, rfl⟩, .of_regs rfl, fun k => ?_⟩
  by_cases hk : k = i
  · subst hk
    rcases siteAt_modSite_or s k f with h | h <;> rw [h]
    · exact hf _
    · exact .refl _
  · rw [siteAt_modSite_ne _ _ hk]; exact .refl _

/-- A change of a site's Drains that keeps their number starts none. -/
theorem siteKept_mapDrains (x : Site) (g : DrainRec → DrainRec) : SiteKept x { x with drains := x.drains.map g } :=
  ⟨rfl, rfl, fun h => by simp [h]⟩

/-! #### Writes discarded, and the flushes of a group -/

theorem sitesKept_writeGone (s : State) (p : Pkt) : SitesKept W s (s.writeGone p) := by
  unfold State.writeGone
  split
  · exact sitesKept_modSite s _ _ fun x => ⟨rfl, rfl, fun h => by simp [h]⟩
  · exact .refl s

theorem sitesKept_writeFailed (s : State) (p : Pkt) (cause target : Nat) : SitesKept W s (s.writeFailed p cause target) := by
  unfold State.writeFailed
  split
  · refine .trans (sitesKept_modSite s _ _ fun x => ?_) (sitesKept_writeGone _ p)
    dsimp only
    split
    · exact siteKept_mapDrains x _
    · exact ⟨rfl, rfl, id⟩
  · exact .refl s

theorem sitesKept_flushFailed (s : State) (n : Nat) (f : Flush) (cause : Nat) : SitesKept W s (s.flushFailed n f cause) := by
  unfold State.flushFailed
  refine sitesKept_modSite s _ _ fun x => ?_
  split
  · exact siteKept_mapDrains x _
  · exact ⟨rfl, rfl, id⟩

theorem sitesKept_modGroup (s : State) (n : Nat) (f : Group → Group) : SitesKept W s (s.modGroup n f) :=
  sitesKept_of ⟨rfl, rfl, rfl⟩ (.of_regs rfl) rfl

theorem sitesKept_fire (s : State) (n : Nat) : SitesKept W s (s.fire n) := sitesKept_of ⟨rfl, rfl, rfl⟩ (.of_regs rfl) rfl

theorem sitesKept_discardPw (s : State) (n : Nat) (which : Nat → Bool) (cause : Nat) : SitesKept GroupPages s (s.discardPw n which cause) := by
  have hpage : GroupPages (pgPCIE n) Fld.PW_DISC_COUNT.off := Nat.le_add_right ..
  unfold State.discardPw
  dsimp only
  split
  · exact .refl s
  · exact (sitesKept_modGroup s n _).trans (.trans (.trans (sitesKept_put _ _ _ Fld.PW_DISC_COUNT (by decide) hpage) (sitesKept_fire _ _))
      (sitesKept_foldl _ _ _ fun e _ t => sitesKept_writeFailed t e.2 cause n))

theorem sitesKept_tlpTx (s : State) (n port : Nat) : SitesKept GroupPages s (s.tlpTx n port) := by
  unfold State.tlpTx
  refine sitesKept_of ?_ (fun q off ho hq => bump_reg _ _ _ _ _ _ _ _ _ ho (.inl ?_)) (by rw [bump_eq])
  · rw [bump_eq]; exact ⟨rfl, rfl, rfl⟩
  · rintro rfl; exact hq (Nat.le_add_right ..)

theorem sitesKept_sendFlush (s : State) (n site addr start : Nat) (drain : Option Nat) :
    SitesKept GroupPages s (s.sendFlush n site addr start drain) := by
  unfold State.sendFlush
  dsimp only
  split
  · exact (sitesKept_modGroup s n _).trans (sitesKept_tlpTx _ n _)
  · exact (sitesKept_discardPw s n _ 2).trans (sitesKept_flushFailed _ n _ 2)

theorem sitesKept_flushGroup (s : State) (n site start : Nat) (drain : Option Nat) :
    SitesKept GroupPages s (s.flushGroup n site start drain) :=
  (sitesKept_modGroup s n _).trans (sitesKept_foldl _ _ _ fun b _ t => sitesKept_sendFlush t n site b.2 start drain)

/-- Drains that go on write registers of the groups alone, and none begins. -/
theorem sitesKept_drainAdvance (s : State) (site : Nat) : SitesKept GroupPages s (s.drainAdvance site) := by
  unfold State.drainAdvance
  refine sitesKept_foldl _ _ _ fun d _ t => sitesKept_foldl _ _ _ fun n _ u => ?_
  dsimp only
  split
  · exact .refl u
  · exact (sitesKept_modSite u site _ fun x => siteKept_mapDrains x _).trans (sitesKept_flushGroup _ n site d.start (some d.id))

theorem sitesKept_writeLost (s : State) (p : Pkt) (cause target : Nat) : SitesKept GroupPages s (s.writeLost p cause target) := by
  unfold State.writeLost
  split
  · exact (sitesKept_writeFailed s p cause target).trans (sitesKept_drainAdvance _ _)
  · exact .refl s

theorem sitesKept_writeDone (s : State) (p : Pkt) : SitesKept GroupPages s (s.writeDone p) := by
  unfold State.writeDone
  split
  · exact (sitesKept_writeGone s p).trans (sitesKept_drainAdvance _ _)
  · exact .refl s

end

end Sys2Proof.Proofs
end

section
/-! ### Units that LNK[s] passes on before a fence leave the homes alone (R245, R294, R469) -/

namespace Sys2Proof.Proofs

open Sys2Proof Sys2Proof.Machine Sys2Proof.Safety

section
variable {s t u : State}

theorem homesKept_ite {c : Prop} [Decidable c] (ht : HomesKept s t) (hu : HomesKept s u) : HomesKept s (if c then t else u) := by
  split <;> assumption

theorem homesKept_record (s : State) (r : Rec) : HomesKept s (s.record r) := by rw [record_eq]; exact ⟨rfl, rfl, rfl⟩

theorem homesKept_count (s : State) (p : Nat) (f : FRef) (n : Nat) : HomesKept s (s.count p f n) := ⟨rfl, rfl, rfl⟩

theorem homesKept_status (s : State) (p : Nat) (f : FRef) (src : Nat) : HomesKept s (s.status p f src) := ⟨rfl, rfl, rfl⟩

theorem homesKept_raise1 (s : State) (p : Nat) (f : FRef) : HomesKept s (s.raise1 p f) := ⟨rfl, rfl, rfl⟩

theorem homesKept_fire (s : State) (n : Nat) : HomesKept s (s.fire n) := ⟨rfl, rfl, rfl⟩

theorem homesKept_net (s : State) (l : List InFlight) : HomesKept s { s with net := l } := ⟨rfl, rfl, rfl⟩

theorem homesKept_send (s : State) (p : Pkt) (dst : BitVec 8) : HomesKept s (s.send p dst) := homesKept_net s _

theorem homesKept_discardCount (s : State) : HomesKept s s.discardCount :=
  ((homesKept_count s _ _ _).trans (homesKept_raise1 _ _ _)).trans (homesKept_fire _ _)

theorem homesKept_modSite (s : State) (i : Nat) (f : Site → Site) : HomesKept s (s.modSite i f) := ⟨rfl, rfl, rfl⟩

theorem homesKept_modLk (s : State) (site m : Nat) (e : LinkEnd) (f : LinkSide → LinkSide) : HomesKept s (s.modLk site m e f) := by
  unfold State.modLk; rw [setLk_eq]; exact ⟨rfl, rfl, rfl⟩

theorem homesKept_ackFlush (site m : Nat) (e : LinkEnd) (n : Nat) (s : State) : HomesKept s (s.ackFlush site m e n) := by
  induction n generalizing s with
  | zero => exact .refl s
  | succ n ih =>
    unfold State.ackFlush
    dsimp only
    split
    · exact .refl s
    · split
      · exact .refl s
      · exact (homesKept_modLk s site m e _).trans (ih _)

theorem homesKept_linkFree (s : State) (site m : Nat) (e : LinkEnd) (p : Pkt) : HomesKept s (s.linkFree site m e p) := by
  unfold State.linkFree State.modLink
  exact (homesKept_modLk s site m e _).trans (homesKept_ackFlush site m e 4 _)

theorem homesKept_violation (s : State) (site k : Nat) (p : Pkt) : HomesKept s (s.violation site k p).2 := by
  obtain ⟨_, _, h⟩ := violation_eq s site k p
  rw [h]; exact ⟨rfl, rfl, rfl⟩

theorem homesKept_writeLost (s : State) (p : Pkt) (cause target : Nat) : HomesKept s (s.writeLost p cause target) :=
  (sitesKept_writeLost s p cause target).toHomesKept

theorem homesKept_siteReply (s : State) (p : Pkt) (op : BitVec 7) (addr : BitVec 46) (data : Option (LineData × ByteMask)) :
    HomesKept s (s.siteReply p op addr data) := by
  unfold State.siteReply
  split
  · exact .refl s
  · exact homesKept_net s _

/-! #### The checks of Boundary -/

theorem homesKept_noteAnswer (s : State) (site : Nat) (p : Pkt) (since : Nat) : HomesKept s (s.noteAnswer site p since) := by
  unfold State.noteAnswer
  split
  · exact .refl s
  · dsimp only
    split
    · exact .refl s
    · exact homesKept_ite ((homesKept_modSite s site _).trans (homesKept_violation _ _ _ _)) (homesKept_modSite s site _)

theorem homesKept_boundaryRun (site : Nat) (p : Pkt) (l : List (Nat × Bool)) (s : State) : HomesKept s (s.boundaryRun site p l).2 := by
  induction l generalizing s with
  | nil => exact .refl s
  | cons c l ih =>
    obtain ⟨k, fails⟩ := c
    cases fails with
    | false => exact ih s
    | true =>
      unfold State.boundaryRun
      dsimp only
      split
      · exact (homesKept_violation s site k p).trans (ih _)
      · exact homesKept_violation s site k p

theorem homesKept_noteCompletion (s : State) (site : Nat) (p : Pkt) : HomesKept s (s.noteCompletion site p).2 := by
  unfold State.noteCompletion
  split
  · exact .refl s
  · dsimp only
    split
    · exact homesKept_modSite s site _
    · split
      · exact .refl s
      · dsimp only
        exact (homesKept_modSite s site _).trans (homesKept_count _ _ _ _)

theorem homesKept_dropAnswer (s : State) (site m : Nat) (p : Pkt) : HomesKept s (s.dropAnswer site m p) := by
  unfold State.dropAnswer
  dsimp only
  split
  · exact homesKept_siteReply ..
  · exact homesKept_siteReply ..
  · split
    · exact homesKept_siteReply ..
    · exact .refl s

/-! #### A unit that has passed -/

theorem homesKept_recReserved (s : State) (page : Nat) (p : Pkt) : HomesKept s (s.recReserved page p) := by
  unfold State.recReserved
  exact (homesKept_record s _).trans (homesKept_fire _ _)

theorem homesKept_dieUnclaimed (s : State) (site : Nat) (p : Pkt) : HomesKept s (s.dieUnclaimed site p) := by
  have hrec := homesKept_recReserved s (pgSITE site) p
  unfold State.dieUnclaimed
  dsimp only
  exact .trans (homesKept_ite (hrec.trans (homesKept_siteReply ..)) (homesKept_ite (hrec.trans (homesKept_siteReply ..)) hrec))
    (sitesKept_writeDone _ p).toHomesKept

theorem homesKept_msgDrop (s : State) (page core vector : Nat) : HomesKept s (s.msgDrop page core vector) :=
  ((homesKept_count s pgEVT Fld.EVT_MSG_DROP_CNT_COUNT 1).trans (homesKept_status _ pgEVT Fld.EVT_STAT_MSG_DROP srcMsgDrop)).trans
    (homesKept_record _ _)

theorem homesKept_dieMessage (s : State) (site : Nat) (p : Pkt) : HomesKept s (s.dieMessage site p) := by
  unfold State.dieMessage
  dsimp only
  split
  · exact (homesKept_msgDrop s _ _ _).trans (homesKept_siteReply ..)
  · split
    · exact .trans (homesKept_ite ((homesKept_msgDrop s _ _ _).trans (homesKept_siteReply ..)) (homesKept_msgDrop s _ _ _))
        (sitesKept_writeDone _ p).toHomesKept
    · exact homesKept_send s _ _

theorem homesKept_dieForward (s : State) (site m : Nat) (p : Pkt) : HomesKept s (s.dieForward site m p) := by
  unfold State.dieForward
  dsimp only
  refine (homesKept_linkFree s site m .hub p).trans ?_
  split
  · exact homesKept_net _ _
  · split
    · split
      · exact homesKept_dieUnclaimed ..
      · exact homesKept_dieMessage ..
      · exact homesKept_send _ _ _
    · exact homesKept_send _ _ _

theorem homesKept_meterTake (s : State) (site m : Nat) : HomesKept s (s.meterTake site m) := by
  unfold State.meterTake
  split
  · exact homesKept_modSite s site _
  · exact .refl s

theorem homesKept_dieMeters (s : State) (site m : Nat) (p : Pkt) : HomesKept s (s.dieMeters site m p) := by
  unfold State.dieMeters
  dsimp only
  split
  · exact homesKept_dieForward ..
  · split
    · exact homesKept_modSite s site _
    · split
      · exact (homesKept_foldl _ _ s fun k t => homesKept_meterTake t site k).trans (homesKept_dieForward ..)
      · exact .trans (.trans (homesKept_foldl _ _ s fun k t => homesKept_count t _ _ _) (homesKept_modSite _ site _)) (homesKept_status _ _ _ _)

theorem homesKept_outAdd (s : State) (site : Nat) (p : Pkt) : HomesKept s (s.outAdd site p) := by
  rw [outAdd_eq]; exact ⟨rfl, rfl, rfl⟩

/-! #### A unit at LNK[s] -/

theorem homesKept_dieChecked (s : State) (site m : Nat) (p : Pkt) (since : Nat) : HomesKept s (s.dieChecked site m p since) := by
  have hchecks := (homesKept_noteAnswer s site p since).trans
    (homesKept_boundaryRun site p ((s.noteAnswer site p since).boundaryChecks site p) _)
  unfold State.dieChecked
  refine hchecks.trans ?_
  dsimp only
  split
  · exact ((homesKept_linkFree _ site m .hub p).trans (homesKept_dropAnswer ..)).trans (homesKept_writeLost ..)
  · split
    · exact (homesKept_linkFree _ site m .hub p).trans (homesKept_writeLost ..)
    · refine (homesKept_noteCompletion _ site p).trans ?_
      split
      · exact (homesKept_outAdd _ site p).trans (homesKept_dieMeters ..)
      · exact homesKept_linkFree ..

theorem homesKept_dieUnitTake (s : State) (site m : Nat) (e : InFlight) : HomesKept s (s.dieUnitTake site m e) := by
  unfold State.dieUnitTake
  dsimp only
  refine (homesKept_net s (s.net.erase e)).trans ?_
  split
  · exact (homesKept_linkFree _ site m .hub e.p).trans (homesKept_discardCount _)
  · exact homesKept_dieChecked ..

/-- The device writes that LNK[s] passes on before the fence edge leave the homes alone (R294). -/
theorem homesKept_flushLink (s : State) (site : Nat) : HomesKept s (s.flushLink site) :=
  homesKept_foldl _ _ s fun e t => homesKept_dieUnitTake t site e.1 e.2

end

end Sys2Proof.Proofs
end

section
/-! ### The fence edge, and the containment walks it starts (R242, R243, R247) -/

namespace Sys2Proof.Proofs

open Sys2Proof Sys2Proof.Machine Sys2Proof.Safety

/-- From `s` to `t` homes give up reservations, and no more. -/
structure TrackersKept (s t : State) : Prop where
  off : t.off = s.off
  smith : t.smith = s.smith
  regs : t.regs = s.regs
  trk : ∀ h, (t.homeAt h).trk = (s.homeAt h).trk

/-- A home's containment walk of all its sets for a site is under way. -/
def Walks (site h : Nat) (t : State) : Prop :=
  t.flag (pgHOME h) Fld.HOME_LOSS_STAT_ACTIVE = true ∧ Tab.get? site (t.homeAt h).walk = some 12288

/-- A home notes the sets it is to walk for a site. -/
def walkNoted (s : State) (site h : Nat) : State :=
  s.modHome h fun x => { x with walk := Tab.put site 12288 x.walk, lossCnt := Tab.put site (Tab.getD site 0 x.lossCnt) x.lossCnt }

/-- It shows the walk. -/
def walkShown (s : State) (site h : Nat) : State :=
  (s.put (pgHOME h) Fld.HOME_LOSS_STAT_WALK_MASK (addSite (s.get (pgHOME h) Fld.HOME_LOSS_STAT_WALK_MASK) site)).put (pgHOME h)
    Fld.HOME_LOSS_STAT_ACTIVE 1

/-- A home begins a containment walk for a site. -/
def walkBegun (s : State) (site h : Nat) : State := walkShown (walkNoted s site h) site h

/-- A home's part in the fence edge. -/
def homeFenced (site h : Nat) (s : State) : State :=
  walkBegun (forAll ((s.homeAt h).trk.map (·.1)) (fun k s => s.fenceTxn h k site) s) site h

/-- The fence edge of a site is in progress: no home has a transaction, so none is touched. -/
structure Fencing (site : Nat) (s t : State) : Prop where
  off : t.off = s.off
  smith : t.smith = s.smith
  fenced : t.fenced site = true
  trk : ∀ h, (t.homeAt h).trk = []

section
variable {s t u : State} {site h i : Nat}

theorem TrackersKept.refl (s : State) : TrackersKept s s := ⟨rfl, rfl, rfl, fun _ => rfl⟩

theorem TrackersKept.trans (h : TrackersKept s t) (k : TrackersKept t u) : TrackersKept s u :=
  ⟨k.off.trans h.off, k.smith.trans h.smith, k.regs.trans h.regs, fun i => (k.trk i).trans (h.trk i)⟩

theorem trackersKept_forAll {α : Type} (l : List α) (f : α → State → State) (s : State) (hf : ∀ a ∈ l, ∀ t, TrackersKept t (f a t)) :
    TrackersKept s (forAll l f s) :=
  forAll_keeps (TrackersKept s) l f s (.refl s) fun a ha t ht => ht.trans (hf a ha t)

theorem trk_modHome (s : State) (hh : h < 64) {f : Home → Home} (hf : ∀ x, (f x).trk = x.trk) (i : Nat) :
    ((s.modHome h f).homeAt i).trk = (s.homeAt i).trk := by
  by_cases hi : i = h
  · subst hi; rw [homeAt_modHome_same _ _ _ hh, hf]
  · rw [homeAt_modHome_ne _ _ hi]

theorem trackersKept_modHome (s : State) (hh : h < 64) {f : Home → Home} (hf : ∀ x, (f x).trk = x.trk) : TrackersKept s (s.modHome h f) :=
  ⟨rfl, rfl, rfl, trk_modHome s hh hf⟩

theorem trackersKept_holdLine (s : State) (hh : h < 64) (l : Nat) : TrackersKept s (s.holdLine h l) :=
  trackersKept_modHome s hh fun x => by split <;> rfl

/-- A fenced site's reservations go, and trackers stay (R242). -/
theorem trackersKept_freeRsvs (s : State) (site : Nat) : TrackersKept s (s.freeRsvs site) := by
  unfold State.freeRsvs
  refine trackersKept_forAll _ _ _ fun h hh t => trackersKept_forAll _ _ _ fun e _ u => ?_
  have hh := List.mem_range.mp hh
  dsimp only
  refine (trackersKept_modHome u hh (f := fun x => { x with rsv := Tab.del e.1 x.rsv }) fun _ => rfl).trans ?_
  split
  · exact .refl _
  · exact trackersKept_holdLine _ hh _

/-! #### The walk of one home -/

theorem homes_walkBegun (s : State) (site h : Nat) : (walkBegun s site h).homes = (walkNoted s site h).homes := by
  unfold walkBegun walkShown; simp

theorem off_walkBegun (s : State) (site h : Nat) : (walkBegun s site h).off = s.off := by
  rw [walkBegun, walkShown, State.put_off, State.put_off, walkNoted, State.modHome_off]

theorem smith_walkBegun (s : State) (site h : Nat) : (walkBegun s site h).smith = s.smith := by
  rw [walkBegun, walkShown, State.put_smith, State.put_smith, walkNoted, State.modHome_smith]

theorem homeAt_walkBegun (s : State) (site h i : Nat) : (walkBegun s site h).homeAt i = (walkNoted s site h).homeAt i :=
  homeAt_of_homes (homes_walkBegun s site h) i

theorem trk_walkBegun (s : State) (hh : h < 64) (i : Nat) : ((walkBegun s site h).homeAt i).trk = (s.homeAt i).trk := by
  rw [homeAt_walkBegun]
  exact trk_modHome s hh (by intro; rfl) i

theorem walks_walkBegun (s : State) (hh : h < 64) : Walks site h (walkBegun s site h) := by
  refine ⟨?_, ?_⟩
  · unfold walkBegun walkShown State.flag
    rw [get_put_same _ _ _ _ (by decide)]
    rfl
  · rw [homeAt_walkBegun, walkNoted, homeAt_modHome_same _ _ _ hh, Tab.get?_put_same]

theorem regsOnly_walkBegun (s : State) (site h : Nat) : RegsOnly (fun p _ => p = pgHOME h) s (walkBegun s site h) := by
  have hnoted : RegsOnly (fun p _ => p = pgHOME h) s (walkNoted s site h) := .of_regs (State.modHome_regs ..)
  exact hnoted.trans (.trans (regsOnly_put _ _ _ Fld.HOME_LOSS_STAT_WALK_MASK (by decide) rfl)
    (regsOnly_put _ _ _ Fld.HOME_LOSS_STAT_ACTIVE (by decide) rfl))

theorem homeAt_walkBegun_ne (s : State) (hi : i ≠ h) : (walkBegun s site h).homeAt i = s.homeAt i := by
  rw [homeAt_walkBegun, walkNoted, homeAt_modHome_ne _ _ hi]

theorem Walks.kept (hw : Walks site i s) (hhome : t.homeAt i = s.homeAt i)
    (hflag : t.flag (pgHOME i) Fld.HOME_LOSS_STAT_ACTIVE = s.flag (pgHOME i) Fld.HOME_LOSS_STAT_ACTIVE) : Walks site i t := by
  obtain ⟨hactive, hwalk⟩ := hw
  exact ⟨hflag.trans hactive, by rw [hhome]; exact hwalk⟩

theorem Walks.walkBegun (hw : Walks site i s) (hh : h < 64) : Walks site i (walkBegun s site h) := by
  by_cases hi : i = h
  · rw [hi]; exact walks_walkBegun s hh
  · exact hw.kept (homeAt_walkBegun_ne s hi) ((regsOnly_walkBegun s site h).flag (by decide) fun hp => hi (Nat.add_left_cancel hp))

theorem Fencing.walkBegun (hf : Fencing site s t) (hs : site < 16) (hh : h < 64) : Fencing site s (walkBegun t site h) where
  off := (off_walkBegun t site h).trans hf.off
  smith := (smith_walkBegun t site h).trans hf.smith
  fenced := ((regsOnly_walkBegun t site h).flag (by decide) (by simp only [pgSITE, pgHOME]; omega)).trans hf.fenced
  trk i := (trk_walkBegun t hh i).trans (hf.trk i)

theorem fenceSite_eq (s : State) (site : Nat) :
    s.fenceSite site true = forAll (List.range 64) (homeFenced site) ((s.put (pgSITE site) Fld.SITE_STAT_FENCED 1).freeRsvs site) := rfl

theorem homeFenced_idle (htrk : (s.homeAt h).trk = []) : homeFenced site h s = walkBegun s site h := by
  unfold homeFenced; rw [htrk]; rfl

/-- With no transaction at the homes, the fence edge fences the site and starts the walk of every home. -/
theorem fenceSite_walks (hs : site < 16) (htrk : ∀ h, (s.homeAt h).trk = []) :
    Fencing site s (s.fenceSite site true) ∧ ∀ h, h < 64 → Walks site h (s.fenceSite site true) := by
  have hput : (s.put (pgSITE site) Fld.SITE_STAT_FENCED 1).fenced site = true := flag_raise1_same s _ Fld.SITE_STAT_FENCED rfl (by decide)
  have hfree := trackersKept_freeRsvs (s.put (pgSITE site) Fld.SITE_STAT_FENCED 1) site
  have h0 : Fencing site s ((s.put (pgSITE site) Fld.SITE_STAT_FENCED 1).freeRsvs site) :=
    ⟨hfree.off, hfree.smith, (flag_of_regs hfree.regs _ _).trans hput, fun h => (hfree.trk h).trans (htrk h)⟩
  obtain ⟨hfencing, hwalks⟩ := foldl_establishes (Fencing site s) (Walks site) (fun t h => homeFenced site h t) (List.range 64) _ h0
    (fun h hh t ht => by rw [homeFenced_idle (ht.trk h)]; exact ht.walkBegun hs (List.mem_range.mp hh))
    (fun h hh t ht => by rw [homeFenced_idle (ht.trk h)]; exact walks_walkBegun t (List.mem_range.mp hh))
    (fun i h hh t ht hw => by rw [homeFenced_idle (ht.trk h)]; exact hw.walkBegun (List.mem_range.mp hh))
  rw [fenceSite_eq]
  exact ⟨hfencing, fun h hh => hwalks h (.inl (List.mem_range.mpr hh))⟩

end

end Sys2Proof.Proofs
end

section
/-! ### What follows a fence edge: a site forgotten, its vote withdrawn, broadcasts that no longer wait for it (R245, R506, R616) -/

namespace Sys2Proof.Proofs

open Sys2Proof Sys2Proof.Machine Sys2Proof.Safety

/-- Registers of pages of the PCIe groups, and those of a site's page but the one of its admission. -/
def ForgetRegs (site p off : Nat) : Prop := GroupPages p off ∨ (p = pgSITE site ∧ off ≠ Reg.SITE_STAT)

/-- Registers of the package's, the memory's and the Hearth's pages. -/
def HubPages (p _off : Nat) : Prop := p < 0x010 ∨ 0x080 ≤ p

/-- Those, but for the vote register of a domain. -/
def VoteTail (d p off : Nat) : Prop := HubPages p off ∧ ¬ VoteReg d p off

/-- A fenced site whose die the hub has forgotten, while every home walks for it. -/
structure Shut (site : Nat) (t : State) : Prop where
  fenced : t.fenced site = true
  admitted : t.admitted site = false
  held : (t.siteAt site).held = []
  drains : (t.siteAt site).drains = []
  outReq : (t.siteAt site).outReq = []
  walks : ∀ h, h < 64 → Walks site h t

section
variable {W : Nat → Nat → Prop} {s t u : State} {site d : Nat}

theorem SitesKept.put (h : SitesKept W s t) {p : Nat} {f : FRef} (ho : f.off < 0x10000) (hw : W p f.off) (v : Nat) : SitesKept W s (t.put p f v) :=
  h.trans (sitesKept_put t p v f ho hw)

theorem SitesKept.modSite (h : SitesKept W s t) (i : Nat) {f : Site → Site} (hf : ∀ x, SiteKept x (f x)) : SitesKept W s (t.modSite i f) :=
  h.trans (sitesKept_modSite t i f hf)

theorem SitesKept.modPower (h : SitesKept W s t) (f : Power → Power) : SitesKept W s (t.modPower f) :=
  h.trans (sitesKept_of ⟨rfl, rfl, rfl⟩ (.of_regs rfl) rfl)

theorem SitesKept.record (h : SitesKept W s t) (r : Rec) : SitesKept W s (t.record r) :=
  h.trans (sitesKept_of (homesKept_record t r) (.of_regs (by rw [record_eq])) (by rw [record_eq]))

theorem SitesKept.fire (h : SitesKept W s t) (n : Nat) : SitesKept W s (t.fire n) := h.trans (sitesKept_fire t n)

theorem SitesKept.net (h : SitesKept W s t) (l : List InFlight) : SitesKept W s { t with net := l } :=
  h.trans (sitesKept_of ⟨rfl, rfl, rfl⟩ (.of_regs rfl) rfl)

theorem Shut.kept (h : Shut site s) (k : SitesKept W s t) (hsite : ¬ W (pgSITE site) Reg.SITE_STAT)
    (hhome : ∀ i, i < 64 → ¬ W (pgHOME i) Reg.HOME_LOSS_STAT) : Shut site t where
  fenced := (k.regs.flag (f := Fld.SITE_STAT_FENCED) (by decide) hsite).trans h.fenced
  admitted := (k.regs.flag (f := Fld.SITE_STAT_ADMITTED) (by decide) hsite).trans h.admitted
  held := (k.sites site).held.trans h.held
  drains := (k.sites site).drains h.drains
  outReq := (k.sites site).outReq.trans h.outReq
  walks i hi := (h.walks i hi).kept (homeAt_of_homes k.homes i) (k.regs.flag (f := Fld.HOME_LOSS_STAT_ACTIVE) (by decide) (hhome i hi))

/-- What follows on other pages leaves the site shut. -/
theorem Shut.kept_hub (h : Shut site s) (hs : site < 16) (k : SitesKept HubPages s t) : Shut site t :=
  h.kept k (by simp only [HubPages, pgSITE]; omega) fun i hi => by simp only [HubPages, pgHOME]; omega

/-! #### The site's control (R245) -/

/-- The site's control holds nothing of its die any more. -/
def siteEmptied (s : State) (site : Nat) : State :=
  s.modSite site fun x =>
    { x with held := [], drains := [], drainMark := [], devw := [], devFail := none, xlat := [], sink := [], outReq := [], snoops := [] }

theorem siteAt_siteEmptied (s : State) (hs : site < 16) : ((siteEmptied s site).siteAt site).held = [] ∧
    ((siteEmptied s site).siteAt site).drains = [] ∧ ((siteEmptied s site).siteAt site).outReq = [] := by
  rw [siteEmptied, siteAt_modSite_same _ _ hs]; exact ⟨rfl, rfl, rfl⟩

/-- The device writes that Boundary held are lost. -/
def heldLost (s : State) (site : Nat) : State :=
  ((s.siteAt site).held.foldl (fun s h => s.writeLost (State.ownSrc site h.m h.p) 5 11) (siteEmptied s site)).modSite site
    fun x => { x with devw := [], devFail := none }

/-- The die's units at LNK[s] and SITE go. -/
def unitsGone (s : State) (site : Nat) : State :=
  { s with net := s.net.filter fun e => match e.at_ with
    | .link i _ => i != site
    | .site i => i != site
    | _ => true }

/-- The site's control up to the end of its admission. -/
def siteLost (s : State) (site : Nat) : State :=
  (((unitsGone (heldLost s site) site).modPower fun p => { p with sets := Tab.del site p.sets }).pendUpd site).outUpd site

theorem siteForget_eq (s : State) (site : Nat) : s.siteForget site = (siteLost s site).put (pgSITE site) Fld.SITE_STAT_ADMITTED 0 := rfl

theorem sitesKept_heldLost (s : State) (site : Nat) : SitesKept (ForgetRegs site) (siteEmptied s site) (heldLost s site) := by
  have hwrites := sitesKept_foldl (W := ForgetRegs site) (s.siteAt site).held
    (fun s h => s.writeLost (State.ownSrc site h.m h.p) 5 11) (siteEmptied s site)
    fun h _ t => (sitesKept_writeLost t _ 5 11).mono fun _ _ h => .inl h
  exact hwrites.modSite site fun _ => ⟨rfl, rfl, id⟩

theorem sitesKept_siteLost (s : State) (site : Nat) : SitesKept (ForgetRegs site) (siteEmptied s site) (siteLost s site) := by
  have hpend : ForgetRegs site (pgSITE site) Fld.DRAIN_STAT_PEND.off := .inr ⟨rfl, by decide⟩
  have hout : ForgetRegs site (pgSITE site) Fld.BND_OUT_COUNT.off := .inr ⟨rfl, by decide⟩
  exact ((((sitesKept_heldLost s site).net _).modPower _).put (by decide) hpend _).put (by decide) hout _

/-- The end of its admission shuts a fenced site whose control is empty. -/
theorem shut_unadmitted (hf : s.fenced site = true) (hheld : (s.siteAt site).held = []) (hdrains : (s.siteAt site).drains = [])
    (hout : (s.siteAt site).outReq = []) (hs : site < 16) (hw : ∀ h, h < 64 → Walks site h s) :
    Shut site (s.put (pgSITE site) Fld.SITE_STAT_ADMITTED 0) where
  fenced := by
    rw [State.fenced, State.flag, get_put_beside _ _ _ Fld.SITE_STAT_ADMITTED Fld.SITE_STAT_FENCED rfl (by decide) (.inl (by decide))]
    exact hf
  admitted := by rw [State.admitted, State.flag, get_put_same _ _ _ _ (by decide)]; rfl
  held := hheld
  drains := hdrains
  outReq := hout
  walks h hh := by
    refine (hw h hh).kept rfl ?_
    rw [(regsOnly_put (W := fun p _ => p = pgSITE site) s _ _ Fld.SITE_STAT_ADMITTED (by decide) rfl).flag (by decide)
      (by simp only [pgSITE, pgHOME]; omega)]

/-- With the walks begun, the site is shut once its die is forgotten. -/
theorem shut_siteForget (hs : site < 16) (hf : s.fenced site = true) (hw : ∀ h, h < 64 → Walks site h s) :
    Shut site (s.siteForget site) ∧ HomesKept s (s.siteForget site) := by
  have hkept := sitesKept_siteLost s site
  have hempty := siteAt_siteEmptied s hs
  have hstart : HomesKept s (siteEmptied s site) ∧ (siteEmptied s site).regs = s.regs := ⟨homesKept_modSite _ _ _, rfl⟩
  have hpage : ¬ ForgetRegs site (pgSITE site) Reg.SITE_STAT := by simp only [ForgetRegs, GroupPages, pgSITE]; omega
  have hhome : ∀ h, h < 64 → ¬ ForgetRegs site (pgHOME h) Reg.HOME_LOSS_STAT := fun h hh => by
    simp only [ForgetRegs, GroupPages, pgSITE, pgHOME]; omega
  rw [siteForget_eq]
  generalize siteEmptied s site = e at hempty hkept hstart
  generalize siteLost s site = v at hkept ⊢
  obtain ⟨hheld, hdrains, hout⟩ := hempty
  obtain ⟨hfrom, hregs⟩ := hstart
  refine ⟨shut_unadmitted ?_ ?_ ?_ ?_ hs fun h hh => (hw h hh).kept ?_ ?_, (hfrom.trans hkept.toHomesKept).trans ⟨rfl, rfl, rfl⟩⟩
  · exact (hkept.regs.flag (f := Fld.SITE_STAT_FENCED) (by decide) hpage).trans ((flag_of_regs hregs _ _).trans hf)
  · exact (hkept.sites site).held.trans hheld
  · exact (hkept.sites site).drains hdrains
  · exact (hkept.sites site).outReq.trans hout
  · exact homeAt_of_homes (hfrom.trans hkept.toHomesKept).homes h
  · exact (hkept.regs.flag (f := Fld.HOME_LOSS_STAT_ACTIVE) (by decide) (hhome h hh)).trans (flag_of_regs hregs _ _)

end

end Sys2Proof.Proofs
end

section
/-! ### A vote withdrawn (R616, R618, R620, R626) -/

namespace Sys2Proof.Proofs

open Sys2Proof Sys2Proof.Machine Sys2Proof.Safety

section
variable {W : Nat → Nat → Prop} {s t u : State} {site d : Nat}

theorem voteTail_pwr {off : Nat} (ho : off ≠ Reg.VOTE d) : VoteTail d pgPWR off := ⟨.inl (by decide), fun h => ho h.2⟩

theorem voteTail_above {p off : Nat} (hp : 0x080 ≤ p) : VoteTail d p off := ⟨.inr hp, fun h => by
  rw [h.1] at hp; exact absurd hp (by decide)⟩

/-- Where Banked entry is abandoned (R626). -/
theorem sitesKept_bankAbort (s : State) (hop : s.smith.op = none) : SitesKept (VoteTail d) s s.bankAbort := by
  have hmem : SitesKept (VoteTail d) s (forAll (List.range 24) (fun n s => s.put (pgMC n) Fld.MC_STAT_SR 0) s) :=
    sitesKept_foldl _ _ s fun n _ t => sitesKept_put _ _ _ _ (by decide) (voteTail_above (by simp only [pgMC]; omega))
  unfold State.bankAbort
  generalize forAll (List.range 24) (fun n s => s.put (pgMC n) Fld.MC_STAT_SR 0) s = v at hmem
  have hdone := ((hmem.put (f := Fld.PWR_STAT_STATE) (by decide) (voteTail_pwr (by simp only [Fld.PWR_STAT_STATE, Reg.VOTE]; omega)) 0).put
    (p := pgHRTH 0) (f := Fld.ROP_CFG_PACE) (by decide) (voteTail_above (by decide)) v.power.pace).modPower
      fun p => { p with bank := 0, level := false }
  have hnone := (congrArg Smith.op hdone.smith).trans hop
  dsimp only
  split
  · rename_i hbusy
    exact absurd (hnone.symm.trans (eq_of_beq hbusy)) (by simp)
  · exact hdone

theorem sitesKept_wakeLost (hd : d < 50) (s : State) (w : Nat) : SitesKept (VoteTail d) s (s.wakeLost w) := by
  unfold State.wakeLost State.recPower State.count State.status State.raise1
  exact ((((SitesKept.refl s).put (by decide) (voteTail_pwr (by simp only [Fld.WAKE_LOST_CNT_COUNT, Reg.VOTE]; omega)) _).put (by decide)
    (voteTail_pwr (by simp only [Fld.PWR_STAT_WAKE_LOST, Reg.VOTE]; omega)) 1).fire _).record _

theorem sitesKept_leaveBanked (hd : d < 50) (s : State) (hop : s.smith.op = none) (edge : Bool) (w : Nat) :
    SitesKept (VoteTail d) s (s.leaveBanked edge w) := by
  unfold State.leaveBanked
  split
  · split
    · split
      · exact sitesKept_wakeLost hd s w
      · exact (SitesKept.refl s).modPower _
    · exact sitesKept_bankAbort s hop
  · exact ((SitesKept.refl s).put (by decide) (voteTail_pwr (by simp only [Fld.PWR_STAT_STATE, Reg.VOTE]; omega)) 3).modPower _
  · exact .refl s

theorem sitesKept_retarget (hd : d < 50) (s : State) : SitesKept (VoteTail d) s (s.retarget d) := by
  have hstat : ∀ (t : State) (f : FRef) v, f.off = Reg.DOM_STAT d → SitesKept (VoteTail d) s t → SitesKept (VoteTail d) s (t.put pgPWR f v) :=
    fun t f v hf h => h.put (by rw [hf]; simp only [Reg.DOM_STAT]; omega) (voteTail_pwr (by rw [hf]; simp only [Reg.DOM_STAT, Reg.VOTE]; omega)) v
  have htarget := hstat s (Fld.DOM_STAT_TARGET d) (b2n (s.voteTarget d)) rfl (.refl s)
  unfold State.retarget
  dsimp only
  split
  · exact hstat _ (Fld.DOM_STAT_ABANDONS d) _ rfl ((hstat _ (Fld.DOM_STAT_STATE d) 2 rfl htarget).modPower _)
  · exact htarget

/-- A vote writes its register; what follows from it writes other registers of the hub's pages. -/
theorem setVotes_votes (hd : d < 50) (hop : s.smith.op = none) (v mask : Nat) :
    SitesKept (VoteTail d) (votePut s d (voteNew s d v mask)) (s.setVotes d v mask) := by
  have hput := bootFrame_votePut s hd (voteNew s d v mask)
  have hret := sitesKept_retarget hd (votePut s d (voteNew s d v mask))
  have hopRet : ((votePut s d (voteNew s d v mask)).retarget d).smith.op = none := by rw [hret.smith, hput.smith, hop]
  unfold State.setVotes
  rw [if_neg (by omega)]
  change SitesKept _ _ (if _ then State.leaveBanked (State.retarget (votePut s d (voteNew s d v mask)) d) true State.wakeUnitSrc
    else State.retarget (votePut s d (voteNew s d v mask)) d)
  split
  · exact hret.trans (sitesKept_leaveBanked hd _ hopRet true _)
  · exact hret

theorem sitesKept_votePut (hd : d < 50) (s : State) (n : Nat) : SitesKept HubPages s (votePut s d n) := by
  have hvote : ∀ (t : State) (f : FRef) v, f.off = Reg.VOTE d → SitesKept HubPages s t → SitesKept HubPages s (t.put pgPWR f v) :=
    fun t f v hf h => h.put (by rw [hf]; simp only [Reg.VOTE]; omega) (.inl (by decide)) v
  have hslots := hvote _ (Fld.VOTE_SLOT_HI d) (n / 2 ^ 16) rfl (hvote _ (Fld.VOTE_SLOT_LO d) (n % 2 ^ 10) rfl (.refl s))
  unfold votePut
  generalize State.put _ pgPWR (Fld.VOTE_SLOT_HI d) _ = t at hslots ⊢
  rcases levelHold_eq t d with h | h <;> rw [h]
  · exact hslots
  · exact hvote t (Fld.VOTE_SLOT_LO d) _ rfl hslots

/-- Whatever a domain's vote brings, only the hub's own pages show it. -/
theorem sitesKept_setSlot (hd : d < 50) (hop : s.smith.op = none) (j : Nat) (on : Bool) : SitesKept HubPages s (s.setSlot d j on) :=
  (sitesKept_votePut hd s _).trans ((setVotes_votes hd hop _ _).mono fun _ _ h => h.1)

theorem bitN_voteNew_cleared (s : State) (d j : Nat) : bitN (voteNew s d (b2n false * 2 ^ j) (2 ^ j)) j = false := by
  have hbit : bitN (2 ^ j) j = true := by rw [bitN_eq_testBit, Nat.testBit_two_pow_self]
  unfold voteNew
  rw [(maskOf_filter_range _ 32).2, hbit]
  simp [b2n, bitN_eq_testBit]

/-- A slot that Smith firmware clears is clear (R614). -/
theorem bitN_votes_cleared (hd : d < 50) (hop : s.smith.op = none) {j : Nat} (hj : j < 9) : bitN ((s.setSlot d j false).votes d) j = false := by
  unfold State.setSlot
  rw [votes_of_regsOnly (setVotes_votes hd hop _ _).regs hd fun h => h.2 ⟨rfl, rfl⟩, bitN_votes_votePut _ _ _ hj, bitN_voteNew_cleared s d j]

end

end Sys2Proof.Proofs
end

section
/-! ### SITE_FENCE (R243, R245, R247, R616) -/

namespace Sys2Proof.Proofs

open Sys2Proof Sys2Proof.Machine Sys2Proof.Safety

/-- No register at all. -/
def NoRegs (_p _off : Nat) : Prop := False

section
variable {s t u : State} {site : Nat}

/-! #### Snapshots and broadcasts that wait for the site no longer (R506) -/

theorem sitesKept_setPmu {W : Nat → Nat → Prop} (h : SitesKept W s t) (x : Option PmuAct) : SitesKept W s { t with pmu := x } :=
  h.trans (sitesKept_of ⟨rfl, rfl, rfl⟩ (.of_regs rfl) rfl)

theorem sitesKept_smithPut (h : SitesKept HubPages s t) {f : FRef} (ho : f.off < 0x10000) (v : Nat) : SitesKept HubPages s (t.put pgSMITH f v) :=
  h.put ho (.inl (by decide)) v

theorem sitesKept_pmuEnd (s : State) : SitesKept HubPages s s.pmuEnd := by
  unfold State.pmuEnd
  split
  · exact .refl s
  · split
    · have hbusy := sitesKept_smithPut (.refl s) (f := Fld.PMU_STAT_BUSY) (by decide) 0
      have hdone := sitesKept_smithPut hbusy (f := Fld.PMU_STAT_DONE) (by decide) 1
      exact sitesKept_setPmu (sitesKept_smithPut hdone (f := Fld.PMU_STAT_SEQ) (by decide) _) none
    · exact .refl s

theorem sitesKept_pmuLate (s : State) (site : Nat) : SitesKept HubPages s (s.pmuLate site) := by
  unfold State.pmuLate
  split
  · exact .refl s
  · split
    · exact .refl s
    · exact (sitesKept_setPmu (sitesKept_smithPut (.refl s) (f := Fld.PMU_LATE_SITE) (by decide) _) _).trans (sitesKept_pmuEnd _)

theorem sitesKept_siteReply (s : State) (p : Pkt) (op : BitVec 7) (addr : BitVec 46) (data : Option (LineData × ByteMask)) :
    SitesKept NoRegs s (s.siteReply p op addr data) := by
  unfold State.siteReply
  split
  · exact .refl s
  · exact (SitesKept.refl s).net _

theorem sitesKept_xlatForward (s : State) (p : Pkt) (targets : List Nat) : SitesKept NoRegs s (s.xlatForward p targets) :=
  sitesKept_foldl _ _ s fun _ _ t => (SitesKept.refl t).net _

theorem sitesKept_xlatStep (s : State) (i k : Nat) : SitesKept NoRegs s (s.xlatStep i k) := by
  have hxlat : ∀ g : Site → List XlatOp, SitesKept NoRegs s (s.modSite i fun y => { y with xlat := g y }) := fun g =>
    (SitesKept.refl s).modSite i fun _ => ⟨rfl, rfl, id⟩
  unfold State.xlatStep
  dsimp only
  split
  · exact .refl s
  · split
    · split
      · exact (hxlat _).trans (sitesKept_xlatForward ..)
      · exact .refl s
    · split
      · exact (hxlat _).trans (sitesKept_siteReply ..)
      · exact hxlat _

theorem sitesKept_xlatPump (s : State) (i : Nat) : SitesKept NoRegs s (s.xlatPump i) := by
  have hone : ∀ t : State, SitesKept NoRegs t (((List.range (t.siteAt i).xlat.length).reverse).foldl (fun t k => t.xlatStep i k) t) := fun t =>
    sitesKept_foldl _ _ t fun k _ u => sitesKept_xlatStep u i k
  exact (hone s).trans (hone _)

/-! #### The command -/

/-- What is left of the fence edge once the site's die is forgotten: its Plat state, snapshots, its vote and broadcasts. -/
def fenceTail (s : State) (site pub : Nat) : State :=
  (List.range 16).foldl (fun s i => s.xlatPump i) (((s.modSite site fun x => { x with pub := pub }).pmuLate site).setSlot site 0 false)

theorem siteFence_eq (pub : Nat) (hop : (s.flushLink site).smith.op = none) :
    s.siteFence site true pub = fenceTail (((s.flushLink site).fenceSite site true).siteForget site) site pub := by
  unfold State.siteFence
  dsimp only
  rw [hop]
  rfl

theorem fenceTail_shut (hs : site < 16) (hop : s.smith.op = none) (h : Shut site s) (pub : Nat) :
    Shut site (fenceTail s site pub) ∧ HomesKept s (fenceTail s site pub) ∧ bitN ((fenceTail s site pub).votes site) 0 = false := by
  have hlate := ((SitesKept.refl (W := HubPages) s).modSite site (f := fun x => { x with pub := pub }) fun _ => ⟨rfl, rfl, id⟩).trans
    (sitesKept_pmuLate _ site)
  unfold fenceTail
  generalize (s.modSite site fun x => { x with pub := pub }).pmuLate site = v at hlate ⊢
  have hopv : v.smith.op = none := by rw [hlate.smith, hop]
  have hslot := sitesKept_setSlot (d := site) (by omega) hopv 0 false
  have hbit := bitN_votes_cleared (d := site) (by omega) hopv (j := 0) (by decide)
  have hpump := sitesKept_foldl (W := NoRegs) (List.range 16) (fun s i => s.xlatPump i) (v.setSlot site 0 false)
    fun i _ t => sitesKept_xlatPump t i
  have hall := hlate.trans (hslot.trans (hpump.mono fun _ _ h => h.elim))
  exact ⟨h.kept_hub hs hall, hall.toHomesKept, by rw [votes_of_regsOnly hpump.regs (by omega) id]; exact hbit⟩

/-- Neither the queue nor TIME counts for a shut site. -/
theorem Shut.settled (h : Shut site s) (pend : List Instr) (time : Nat) : Shut site { s with pending := pend, time := time } :=
  h.kept (W := NoRegs) (sitesKept_of ⟨rfl, rfl, rfl⟩ (.of_regs rfl) rfl) id fun _ _ => id

theorem pauseNote_running (hr : s.smith.running = true) (page word : Nat) : s.pauseNote page word = s := by
  unfold State.pauseNote; rw [if_pos hr]

/-- The fence of an admitted site with no transaction at the homes and Smith firmware free. -/
theorem siteFence_shuts (hs : site < 16) (htrk : ∀ h, (s.homeAt h).trk = []) (hop : s.smith.op = none) (pub : Nat) :
    Shut site (s.siteFence site true pub) ∧ (s.siteFence site true pub).off = s.off ∧ (s.siteFence site true pub).smith = s.smith ∧
      bitN ((s.siteFence site true pub).votes site) 0 = false := by
  have hflush := homesKept_flushLink s site
  obtain ⟨hfencing, hwalks⟩ := fenceSite_walks (s := s.flushLink site) hs fun h => by rw [homeAt_of_homes hflush.homes, htrk]
  obtain ⟨hshut, hforget⟩ := shut_siteForget hs hfencing.fenced hwalks
  have hsmith := hforget.smith.trans (hfencing.smith.trans hflush.smith)
  obtain ⟨hend, htail, hvote⟩ := fenceTail_shut hs (by rw [hsmith, hop]) hshut pub
  rw [siteFence_eq pub (by rw [hflush.smith, hop])]
  exact ⟨hend, htail.off.trans (hforget.off.trans (hfencing.off.trans hflush.off)), htail.smith.trans hsmith, hvote⟩

end

/-- Settles O26: what the fence edge sets stands through all that follows it, since that writes other registers and leaves the homes alone. -/
theorem siteFence : Obligations.SiteFence := by
  unfold Obligations.SiteFence
  rintro s site hon hs hadm htrk ⟨hrun, hop, -⟩
  obtain ⟨hshut, hoff, hsmith, hvote⟩ := siteFence_shuts hs htrk hop 4
  have hstep : (if site < 16 && s.admitted site then (s.siteFence site true 4).pauseNote (pgSITE site) site else s) = s.siteFence site true 4 := by
    rw [if_pos (by simp [hs, hadm]), pauseNote_running (by rw [hsmith, hrun])]
  have hexec : exec (.siteFence site) s = .next (s.settle (s.siteFence site true 4)) := (act_on s _ hon).trans (congrArg _ (congrArg s.settle hstep))
  rw [settle_on s _ (hoff.trans hon)] at hexec
  generalize s.siteFence site true 4 = v at hshut hvote hexec
  obtain ⟨hfenced, hadmitted, hheld, hdrains, hout, hwalks⟩ := hshut.settled s.pending s.time
  exact ⟨_, hexec, hfenced, hadmitted, hheld, hdrains, hout, hvote, hwalks⟩

end Sys2Proof.Proofs
end

section
/-! ### Admission while a live route is invalid (R92, R127, R460) -/

namespace Sys2Proof.Proofs

open Sys2Proof Sys2Proof.Machine Sys2Proof.Safety

/-- Module 0 of site 0 is ACTIVE at its hub side, and the others have retired. -/
def oneModuleUp : Tab LinkSide :=
  [(linkKey 0 0 .hub, { st := 4 }), (linkKey 0 1 .hub, { st := 7 }), (linkKey 0 2 .hub, { st := 7 }), (linkKey 0 3 .hub, { st := 7 })]

/-- Site 0 before its admission, with its page in the group of the route tables, and a live route from node 0 to node 1 that is not VALID. -/
def strayAdmission : State :=
  { State.reset.put (pgSITE 0) Fld.PAGE_QGRP_GROUP 1 with
    links := oneModuleUp
    sites := [{ trav := some { step := 9 }, lastDie := some (0, 0, 0) }]
    routes := [(routeKey 0 1, 0)] }

/-- Each quench of the site's group checks the route tables too and rejects the group, so Traverse ends with BOUNDARY. -/
theorem traverseAdmit_strayAdmission (t : State) (h : exec (.traverseAdmit 0) strayAdmission = .next t) :
    t.admitted 0 = false ∧ t.get (pgSITE 0) Fld.TRAV_RESULT_RESULT = trBoundary := by
  have hrun : (match exec (.traverseAdmit 0) strayAdmission with
    | .next u => !u.admitted 0 && u.get (pgSITE 0) Fld.TRAV_RESULT_RESULT == trBoundary
    | _ => false) = true := by decide +kernel
  rw [h] at hrun
  simpa using hrun

/-- Refutes O27: with the page of the site in the quench group of the route tables (PAGE_QGRP), its admission's quench checks those too (R127), and
a live route that is invalid (no apply edge leaves one) has it rejected, so the site is not admitted though nothing is pending. The clause of
admission lacks the premise that live routes are valid. -/
theorem not_traverseAndAdmission : ¬ Obligations.TraverseAndAdmission := by
  unfold Obligations.TraverseAndAdmission
  rintro ⟨-, -, hadmit⟩
  obtain ⟨t, ht, hadmitted, -⟩ := hadmit strayAdmission 0 { step := 9 } rfl ⟨rfl, rfl, rfl⟩ (by decide) rfl rfl (by decide +kernel)
    rfl rfl rfl rfl rfl rfl (by decide +kernel) (by decide +kernel) (by decide) (by decide) (by decide +kernel)
  obtain ⟨hrefused, -⟩ := traverseAdmit_strayAdmission t ht
  rw [hrefused] at hadmitted
  exact absurd hadmitted (by decide)

end Sys2Proof.Proofs
end

section
/-! ### A read of a device that has ended and waits to be answered (R273) -/

namespace Sys2Proof.Proofs

open Sys2Proof Sys2Proof.Machine Sys2Proof.Safety

/-- A read of a device of group 2 that has ended with OK and is still to be answered, though no posted write is before it. -/
def unansweredRead : Dma := { who := 2, rid := 0x100, stream := 0x100, va := 0, acc := 0, kind := 2, st := .ended 0 false }

/-- Group 2 is on, its counter 0 counts the TLPs it sends (0x091), and that read waits. -/
def readUnanswered : State :=
  { ((State.reset.put pgPWR (Fld.DOM_STAT_STATE 45) 2).put (pgPCIE 2) (Fld.PMC_CTL_EN 0) 1).put (pgPCIE 2) (Fld.PMC_CTL_EVENT 0) 0x091 with
    dmas := [(1, unansweredRead)] }

/-- A posted write of a die to a device of group 2. -/
def postedWrite : Pkt := { op := 0x68, src := 0x0D, dst := nodePCIE 2, addr := 0x3C00100004000, hasData := true, data := 0x55, mask := 0xF }

/-- The step answers the read too: the TLP with its data is counted. -/
theorem devWr_readUnanswered (t : State) (h : exec (.devWr postedWrite) readUnanswered = .next t) :
    t.get (pgPCIE 2) (Fld.PMC_CNT_LO_CNT_LO 0) = 1 := by
  have hrun : (match exec (.devWr postedWrite) readUnanswered with
    | .next u => u.get (pgPCIE 2) (Fld.PMC_CNT_LO_CNT_LO 0) == 1
    | _ => false) = true := by decide +kernel
  rw [h] at hrun
  simpa using hrun

/-- Refutes O20: in a state that holds a device's read which has ended and which no posted write keeps back (a run answers it in the step that
ends the last such write), the step of a posted device write answers it (`State.syncPump`), and where a counter counts the TLPs of the group,
the registers do not stay. The clause of device messages lacks the premise that no DMA waits so. -/
theorem not_deviceAccesses : ¬ Obligations.DeviceAccesses := by
  unfold Obligations.DeviceAccesses
  rintro ⟨-, ⟨hgroup, -, -⟩, -⟩
  obtain ⟨hwrite, -⟩ := hgroup readUnanswered 2 postedWrite ⟨rfl, rfl⟩ ⟨rfl, rfl, rfl, rfl, rfl⟩ (by decide) rfl (by decide +kernel) rfl rfl
    (by decide) rfl (by decide)
  obtain ⟨t, ht, -, -, hregs, -⟩ := hwrite rfl
  have hcount := devWr_readUnanswered t ht
  rw [get_of_regs hregs] at hcount
  exact absurd hcount (by decide +kernel)

end Sys2Proof.Proofs
end

section
/-! ### PCIe groups, and what keeps the Drains in progress (R280 to R287) -/

namespace Sys2Proof.Proofs

open Sys2Proof Sys2Proof.Machine Sys2Proof.Safety

/-! #### The blocks of a group -/

theorem groupAt_modGroup_same (s : State) {n : Nat} (f : Group → Group) (hn : n < 6) : (s.modGroup n f).groupAt n = f (s.groupAt n) :=
  nthD_modOf_same _ _ _ _ _ hn

theorem groupAt_of_groups {s t : State} (h : t.groups = s.groups) (n : Nat) : t.groupAt n = s.groupAt n := by
  unfold State.groupAt; rw [h]

theorem portUp_of_groups {s t : State} (h : t.groups = s.groups) (n port : Nat) : t.portUp n port = s.portUp n port := by
  unfold State.portUp; rw [groupAt_of_groups h]

/-- A TLP counts (R725), and changes counters alone. -/
theorem tlpTx_eq (s : State) (n port : Nat) : s.tlpTx n port = { s with regs := (s.tlpTx n port).regs } := bump_eq ..

theorem tlpRx_eq (s : State) (n port : Nat) : s.tlpRx n port = { s with regs := (s.tlpRx n port).regs } := bump_eq ..

theorem sameButCounters_bump (s : State) (p code q : Nat) (a b c : Option Nat) : SameButCounters [] s (s.bump p code q a b c) :=
  fun _ _ ho hc _ => bump_reg _ _ _ _ _ _ _ _ _ ho (by omega)

theorem sameButCounters_trans {l : List (Nat × Nat)} {s t u : State} (h : SameButCounters l s t) (k : SameButCounters l t u) : SameButCounters l s u :=
  fun p off ho hc hl => (k p off ho hc hl).trans (h p off ho hc hl)

theorem get_of_sameRegs {s t : State} {l : List (Nat × Nat)} (h : SameRegs l s t) {p : Nat} {f : FRef} (ho : f.off < 0x10000) (hl : (p, f.off) ∉ l) :
    t.get p f = s.get p f := by
  unfold State.get
  rw [h p f.off ho hl]

/-! #### What is noted of an error -/

/-- From `s` to `t` only registers, records and events raised change. -/
def Noted (s t : State) : Prop := t = { s with regs := t.regs, recs := t.recs, raised := t.raised }

section
variable {s t u : State}

theorem Noted.refl (s : State) : Noted s s := rfl

theorem Noted.trans (h : Noted s t) (k : Noted t u) : Noted s u := Eq.trans k (by rw [h])

theorem noted_put (s : State) (p v : Nat) (f : FRef) : Noted s (s.put p f v) := rfl

theorem noted_fire (s : State) (n : Nat) : Noted s (s.fire n) := rfl

theorem noted_record (s : State) (r : Rec) : Noted s (s.record r) := by rw [record_eq]; rfl

theorem Noted.groups (h : Noted s t) : t.groups = s.groups := by rw [h]
theorem Noted.sites (h : Noted s t) : t.sites = s.sites := by rw [h]
theorem Noted.mem (h : Noted s t) : t.mem = s.mem := by rw [h]
theorem Noted.net (h : Noted s t) : t.net = s.net := by rw [h]
theorem Noted.time (h : Noted s t) : t.time = s.time := by rw [h]
theorem Noted.off (h : Noted s t) : t.off = s.off := by rw [h]
theorem Noted.pending (h : Noted s t) : t.pending = s.pending := by rw [h]

end

/-! #### Drains in progress -/

/-- What a Drain is known by: its number, its packet and when SITE took it (R280). -/
def drainHead (d : DrainRec) : Nat × Pkt × Nat := (d.id, d.p, d.start)

/-- From `s` to `t` each site keeps its Drains in progress, whatever they wait for; else only groups, registers and events raised change. -/
structure DrainsKept (s t : State) : Prop where
  rest : t = { s with sites := t.sites, groups := t.groups, regs := t.regs, raised := t.raised }
  heads : ∀ k, (t.siteAt k).drains.map drainHead = (s.siteAt k).drains.map drainHead

section
variable {s t u : State}

theorem DrainsKept.refl (s : State) : DrainsKept s s := ⟨rfl, fun _ => rfl⟩

theorem DrainsKept.trans (h : DrainsKept s t) (k : DrainsKept t u) : DrainsKept s u :=
  ⟨k.rest.trans (by rw [h.rest]), fun i => (k.heads i).trans (h.heads i)⟩

theorem DrainsKept.time (h : DrainsKept s t) : t.time = s.time := by rw [h.rest]
theorem DrainsKept.off (h : DrainsKept s t) : t.off = s.off := by rw [h.rest]
theorem DrainsKept.pending (h : DrainsKept s t) : t.pending = s.pending := by rw [h.rest]
theorem DrainsKept.mem (h : DrainsKept s t) : t.mem = s.mem := by rw [h.rest]
theorem DrainsKept.net (h : DrainsKept s t) : t.net = s.net := by rw [h.rest]

/-- A site without Drains in progress still has none. -/
theorem DrainsKept.none (h : DrainsKept s t) {k : Nat} (hk : (s.siteAt k).drains = []) : (t.siteAt k).drains = [] := by
  have := h.heads k
  rwa [hk, List.map_nil, List.map_eq_nil_iff] at this

theorem drainsKept_of (hrest : t = { s with groups := t.groups, regs := t.regs, raised := t.raised }) : DrainsKept s t :=
  ⟨hrest.trans (by rw [hrest]), fun k => by rw [siteAt_of_sites (s := s) (by rw [hrest])]⟩

theorem drainsKept_foldl {α : Type} (l : List α) (f : State → α → State) (s : State) (h : ∀ a t, DrainsKept t (f t a)) :
    DrainsKept s (l.foldl f s) :=
  foldl_keeps (DrainsKept s) l f s (.refl s) fun a _ t ht => ht.trans (h a t)

theorem drainsKept_modSite (s : State) (i : Nat) (f : Site → Site) (hf : ∀ x, (f x).drains.map drainHead = x.drains.map drainHead) :
    DrainsKept s (s.modSite i f) := by
  refine ⟨rfl, fun k => ?_⟩
  by_cases hk : k = i
  · subst hk
    rcases siteAt_modSite_or s k f with h | h <;> rw [h]
    exact hf _
  · rw [siteAt_modSite_ne _ _ hk]

/-- A change of the Drains that leaves each its packet and its start. -/
theorem heads_map (l : List DrainRec) {g : DrainRec → DrainRec} (hg : ∀ d, drainHead (g d) = drainHead d) :
    (l.map g).map drainHead = l.map drainHead := by
  rw [List.map_map]; exact List.map_congr_left fun d _ => hg d

theorem drainsKept_modGroup (s : State) (n : Nat) (f : Group → Group) : DrainsKept s (s.modGroup n f) := drainsKept_of rfl

theorem drainsKept_tlpTx (s : State) (n port : Nat) : DrainsKept s (s.tlpTx n port) := drainsKept_of (by rw [tlpTx_eq])

theorem drainsKept_writeGone (s : State) (p : Pkt) : DrainsKept s (s.writeGone p) := by
  unfold State.writeGone
  split
  · exact drainsKept_modSite s _ _ fun x => heads_map x.drains fun _ => rfl
  · exact .refl s

theorem drainsKept_writeFailed (s : State) (p : Pkt) (cause target : Nat) : DrainsKept s (s.writeFailed p cause target) := by
  unfold State.writeFailed
  split
  · refine .trans (drainsKept_modSite s _ _ fun x => ?_) (drainsKept_writeGone _ p)
    dsimp only
    split
    · exact heads_map x.drains fun d => by split <;> rfl
    · rfl
  · exact .refl s

theorem drainsKept_flushFailed (s : State) (n : Nat) (f : Flush) (cause : Nat) : DrainsKept s (s.flushFailed n f cause) := by
  unfold State.flushFailed
  refine drainsKept_modSite s _ _ fun x => ?_
  split
  · exact heads_map x.drains fun d => by split <;> rfl
  · rfl

theorem drainsKept_discardPw (s : State) (n : Nat) (which : Nat → Bool) (cause : Nat) : DrainsKept s (s.discardPw n which cause) := by
  unfold State.discardPw
  dsimp only
  split
  · exact .refl s
  · exact .trans (drainsKept_of rfl) (drainsKept_foldl _ _ _ fun e t => drainsKept_writeFailed t e.2 cause n)

theorem drainsKept_sendFlush (s : State) (n site addr start : Nat) (drain : Option Nat) : DrainsKept s (s.sendFlush n site addr start drain) := by
  unfold State.sendFlush
  dsimp only
  split
  · exact (drainsKept_modGroup s n _).trans (drainsKept_tlpTx _ n _)
  · exact (drainsKept_discardPw s n _ 2).trans (drainsKept_flushFailed _ n _ 2)

theorem drainsKept_flushGroup (s : State) (n site start : Nat) (drain : Option Nat) : DrainsKept s (s.flushGroup n site start drain) :=
  (drainsKept_modGroup s n _).trans (drainsKept_foldl _ _ _ fun b t => drainsKept_sendFlush t n site b.2 start drain)

/-- Drains that go on are still in progress. -/
theorem drainsKept_drainAdvance (s : State) (site : Nat) : DrainsKept s (s.drainAdvance site) := by
  unfold State.drainAdvance
  refine drainsKept_foldl _ _ _ fun d t => drainsKept_foldl _ _ _ fun n u => ?_
  dsimp only
  split
  · exact .refl u
  · exact (drainsKept_modSite u site _ fun x => heads_map x.drains fun e => by split <;> rfl).trans (drainsKept_flushGroup _ n site d.start (some d.id))

end

end Sys2Proof.Proofs
end

section
/-! ### A Drain reaches SITE (R280, R282 to R284) -/

namespace Sys2Proof.Proofs

open Sys2Proof Sys2Proof.Machine Sys2Proof.Safety

/-- The writes not yet accepted that LNK[s] had received before a Drain (R280). -/
def drainWaits (x : Site) (p : Pkt) : List Pkt :=
  match x.drainMark.find? fun m => m.1 == State.unitKey p with
  | some m => m.2.filter fun w => x.devw.contains w
  | none => x.devw

/-- The groups that are to flush for a Drain (R282): those that record blocks of its site, and those that its writes go to. -/
def drainNeeds (s : State) (site : Nat) (waits : List Pkt) : List Nat :=
  (List.range 6).filter fun n => (Tab.get? site (s.groupAt n).blocks).isSome || waits.any fun w => State.towardGroup w n

/-- The writes of a site that the groups hold in their buffers. -/
def heldOfSite (s : State) (site : Nat) : List Pkt :=
  s.groups.flatMap fun (g : Group) =>
    (g.pw.filter fun e => State.isDieWrite e.2 && siteOf e.2.by == site).map fun e => State.carriedKey e.2

/-- A Drain as SITE takes it. -/
def drainTaken (s : State) (p : Pkt) : DrainRec :=
  let x := s.siteAt (siteOf p.src)
  { id := x.drainSeq, p := p, start := s.time, waits := drainWaits x p, covers := drainWaits x p ++ heldOfSite s (siteOf p.src)
    need := drainNeeds s (siteOf p.src) (drainWaits x p), fail := x.devFail }

/-- The mark that LNK[s] left for the Drain is gone. -/
def markTaken (s : State) (p : Pkt) : State :=
  s.modSite (siteOf p.src) fun x =>
    { x with drainMark := match (s.siteAt (siteOf p.src)).drainMark.find? fun m => m.1 == State.unitKey p with
                          | some m => x.drainMark.erase m
                          | none => x.drainMark }

/-- The Drain is in progress, with an earlier failure of its site. -/
def drainListed (s : State) (p : Pkt) : State :=
  (markTaken s p).modSite (siteOf p.src) fun x =>
    { x with drains := x.drains ++ [drainTaken s p], drainSeq := (s.siteAt (siteOf p.src)).drainSeq + 1, devFail := none }

/-- An outstanding flush of a site that serves no Drain serves this one. -/
def flushJoins (site id : Nat) (f : Flush) : Flush := if f.site == site && f.drain.isNone then { f with drain := some id } else f

/-- The state in which a Drain is in progress, and no group has flushed for it. -/
def drainBegun (s : State) (p : Pkt) : State :=
  ({ drainListed s p with
      groups := s.groups.map fun (g : Group) =>
        { g with flushes := g.flushes.map (flushJoins (siteOf p.src) (drainTaken s p).id) } } : State).pendUpd (siteOf p.src)

section
variable {s : State} {p : Pkt} {n : Nat}

theorem drainStart_eq (s : State) (p : Pkt) : s.drainStart p = (drainBegun (s.consume p) p).drainAdvance (siteOf p.src) := rfl

theorem drainBegun_rest (s : State) (p : Pkt) :
    drainBegun s p = { s with sites := (drainBegun s p).sites, groups := (drainBegun s p).groups, regs := (drainBegun s p).regs } := by
  unfold drainBegun drainListed markTaken State.pendUpd State.put State.setReg State.modSite
  rfl

theorem siteAt_drainBegun (s : State) (p : Pkt) (i : Nat) : (drainBegun s p).siteAt i = (drainListed s p).siteAt i := siteAt_of_sites rfl i

/-- The Drain is the last of its site's. -/
theorem drains_drainBegun (s : State) (hd : isDieNode p.src = true) :
    ((drainBegun s p).siteAt (siteOf p.src)).drains = (s.siteAt (siteOf p.src)).drains ++ [drainTaken s p] ∧
    ((drainBegun s p).siteAt (siteOf p.src)).devFail = none := by
  rw [siteAt_drainBegun, drainListed, siteAt_modSite_same _ _ (siteOf_lt hd), markTaken, siteAt_modSite_same _ _ (siteOf_lt hd)]
  exact ⟨rfl, rfl⟩

theorem groupAt_drainBegun (s : State) (p : Pkt) (n : Nat) : (drainBegun s p).groupAt n =
    { s.groupAt n with flushes := (s.groupAt n).flushes.map (flushJoins (siteOf p.src) (drainTaken s p).id) } := by
  have hgroups : (drainBegun s p).groups = s.groups.map fun (g : Group) =>
      { g with flushes := g.flushes.map (flushJoins (siteOf p.src) (drainTaken s p).id) } := rfl
  unfold State.groupAt nthD
  rw [hgroups, List.getD_eq_getElem?_getD, List.getD_eq_getElem?_getD, List.getElem?_map]
  cases s.groups[n]? <;> rfl

theorem sameRegs_drainBegun (s : State) (p : Pkt) : SameRegs [(pgSITE (siteOf p.src), Reg.DRAIN_STAT)] s (drainBegun s p) :=
  sameRegs_put { drainListed s p with groups := (drainBegun s p).groups } _ _ Fld.DRAIN_STAT_PEND (by decide)

theorem pend_drainBegun (hd : isDieNode p.src = true) (hnone : (s.siteAt (siteOf p.src)).drains = []) :
    (drainBegun s p).get (pgSITE (siteOf p.src)) Fld.DRAIN_STAT_PEND = 1 := by
  have hlen : ((drainListed s p).siteAt (siteOf p.src)).drains.length = 1 := by
    rw [← siteAt_drainBegun, (drains_drainBegun s hd).1, hnone]; rfl
  exact (get_put_same { drainListed s p with groups := (drainBegun s p).groups } _ _ Fld.DRAIN_STAT_PEND (by decide)).trans (congrArg (· % 32) hlen)

theorem siteAt_consume (s : State) (p : Pkt) (i : Nat) : (s.consume p).siteAt i = s.siteAt i := siteAt_of_sites (by rw [consume_eq]) i

theorem groupAt_consume (s : State) (p : Pkt) (n : Nat) : (s.consume p).groupAt n = s.groupAt n := groupAt_of_groups (by rw [consume_eq]) n

/-- Writes that wait for acceptance are among those that the site lists. -/
theorem mem_devw_of_drainWaits {x : Site} {w : Pkt} (hw : w ∈ drainWaits x p) : w ∈ x.devw := by
  unfold drainWaits at hw
  split at hw
  · simpa using (List.mem_filter.mp hw).2
  · exact hw

/-- A Drain that SITE takes: the state after its step. -/
theorem answers_drain {P : State → Prop} (hr : Running s) (hd : isDieNode p.src = true) (hh : State.homeOfPkt p = none) (ha : s.arrived p = true)
    (hP : P ((drainBegun (s.consume p) p).drainAdvance (siteOf p.src))) : Answers (.drain p) s P := by
  have hadv := drainsKept_drainAdvance (drainBegun (s.consume p) p) (siteOf p.src)
  have hbegun : drainBegun (s.consume p) p = { s with
      net := (s.consume p).net, fab := (s.consume p).fab, sites := (drainBegun (s.consume p) p).sites
      groups := (drainBegun (s.consume p) p).groups, regs := (drainBegun (s.consume p) p).regs } := by
    rw [drainBegun_rest]; rw [consume_eq]
  have hrow : (if !s.arrived p then s else if (State.homeOfPkt p).isSome then s.protoDrop p
      else if isDieNode p.src then s.drainStart p else s) = (drainBegun (s.consume p) p).drainAdvance (siteOf p.src) := by
    simp only [ha, hh, hd, drainStart_eq]; rfl
  obtain ⟨hs, -⟩ := hr
  exact answers_act (f := fun s => if !s.arrived p then s else if (State.homeOfPkt p).isSome then s.protoDrop p
      else if isDieNode p.src then s.drainStart p else s) rfl hs hrow (hadv.off.trans (by rw [hbegun])) (hadv.pending.trans (by rw [hbegun]))
    (hadv.time.trans (by rw [hbegun])) hP

/-! #### Where no group has to flush -/

theorem drainNeeds_eq_nil {site : Nat} {waits : List Pkt} (hb : ∀ n, Tab.get? site (s.groupAt n).blocks = none)
    (hw : ∀ w ∈ waits, ∀ n, n < 6 → State.towardGroup w n = false) : drainNeeds s site waits = [] := by
  rw [drainNeeds, List.filter_eq_nil_iff]
  intro n hn
  simp only [hb, Option.isSome_none, Bool.false_or, List.any_eq_true, not_exists, not_and, Bool.not_eq_true]
  exact fun w hmem => hw w hmem n (List.mem_range.mp hn)

theorem drainAdvance_of_no_need {site : Nat} (h : ∀ d ∈ (s.siteAt site).drains, d.need = []) : s.drainAdvance site = s := by
  have hstep := foldl_keeps (· = s) (s.siteAt site).drains (fun s d => d.need.foldl (fun s n =>
      let waiting := ((s.siteAt site).drains.find? (·.id == d.id)).any fun d => d.waits.any fun p => State.towardGroup p n
      if waiting then s
      else
        let s := s.modSite site fun x => { x with drains := x.drains.map fun e =>
          if e.id == d.id then { e with need := e.need.filter (· != n) } else e }
        s.flushGroup n site d.start (some d.id)) s) s rfl fun d hd t ht => by rw [h d hd, ht]; rfl
  exact hstep

/-! #### A group that has recorded one block of the site -/

/-- The flushing read of a recorded block (R282). -/
def flushOf (s : State) (n site addr start : Nat) (drain : Option Nat) : Flush :=
  { site := site, addr := addr, port := Config.pciePort n addr, start := start, limit := s.cplTo n, drain := drain
    ahead := (s.groupAt n).pw.filter (·.1 == Config.pciePort n addr) }

theorem sendFlush_up {site addr start : Nat} {drain : Option Nat} (hup : s.portUp n (Config.pciePort n addr) = true) :
    s.sendFlush n site addr start drain =
      (s.modGroup n fun g => { g with flushes := g.flushes ++ [flushOf s n site addr start drain] }).tlpTx n (Config.pciePort n addr) := by
  unfold State.sendFlush; simp only [hup]; rfl

theorem groupAt_tlpTx (s : State) (n port k : Nat) : (s.tlpTx n port).groupAt k = s.groupAt k := groupAt_of_groups (by rw [tlpTx_eq]) k

/-- The group sends a flushing read to its one recorded block on a port that is up, and clears the record. -/
theorem groupAt_flushGroup {site blk addr start : Nat} {drain : Option Nat} (hn : n < 6) (hb : Tab.getD site [] (s.groupAt n).blocks = [(blk, addr)])
    (hup : s.portUp n (Config.pciePort n addr) = true) : (s.flushGroup n site start drain).groupAt n =
      { s.groupAt n with blocks := Tab.del site (s.groupAt n).blocks
                         flushes := (s.groupAt n).flushes ++ [flushOf s n site addr start drain] } ∧
    (s.flushGroup n site start drain).sites = s.sites := by
  have hcleared : (s.modGroup n fun g => { g with blocks := Tab.del site g.blocks }).groupAt n =
      { s.groupAt n with blocks := Tab.del site (s.groupAt n).blocks } := groupAt_modGroup_same _ _ hn
  have hup' : (s.modGroup n fun g => { g with blocks := Tab.del site g.blocks }).portUp n (Config.pciePort n addr) = true := by
    unfold State.portUp at hup ⊢; rw [hcleared]; exact hup
  have hflush : flushOf (s.modGroup n fun g => { g with blocks := Tab.del site g.blocks }) n site addr start drain = flushOf s n site addr start drain := by
    unfold flushOf; rw [hcleared]; rfl
  unfold State.flushGroup
  simp only [hb, List.foldl_cons, List.foldl_nil]
  rw [sendFlush_up hup', groupAt_tlpTx, groupAt_modGroup_same _ _ hn, hcleared, hflush, tlpTx_eq]
  exact ⟨rfl, rfl⟩

/-- A site's one Drain, with no write still to come to group `n`, has that group flush. -/
theorem drainAdvance_flushes {site : Nat} {d : DrainRec} (hs : (s.siteAt site).drains = [d]) (hneed : d.need = [n])
    (hw : (d.waits.any fun p => State.towardGroup p n) = false) : s.drainAdvance site =
      (s.modSite site fun x => { x with drains := x.drains.map fun e =>
        if e.id == d.id then { e with need := e.need.filter (· != n) } else e }).flushGroup n site d.start (some d.id) := by
  unfold State.drainAdvance
  simp [hs, hneed, hw]

end

end Sys2Proof.Proofs
end

section
/-! ### What DRAIN and DRAIN_COMPLETE answer (R280 to R285, R288) -/

namespace Sys2Proof.Proofs

open Sys2Proof Sys2Proof.Machine Sys2Proof.Safety

section
variable {s : State} {p : Pkt} {n site : Nat}

theorem flushJoins_eq (site id : Nat) (f : Flush) :
    flushJoins site id f = if f.site = site ∧ f.drain = none then { f with drain := some id } else f := by
  simp [flushJoins]

/-- A Drain with nothing to flush for is in progress. -/
theorem drain_idle (hr : Running s) (hd : isDieNode p.src = true) (hh : State.homeOfPkt p = none) (ha : s.arrived p = true)
    (hnone : (s.siteAt (siteOf p.src)).drains = []) (hneed : drainNeeds s (siteOf p.src) (drainWaits (s.siteAt (siteOf p.src)) p) = [])
    {P : State → Prop} (hP : P (drainBegun (s.consume p) p)) : Answers (.drain p) s P := by
  refine answers_drain hr hd hh ha ?_
  rw [drainAdvance_of_no_need]
  · exact hP
  · intro d hmem
    rw [(drains_drainBegun _ hd).1, siteAt_consume, hnone, List.nil_append, List.mem_singleton] at hmem
    rw [hmem]
    simpa only [drainTaken, drainNeeds, siteAt_consume, groupAt_consume] using hneed

/-- The flushing read is sent at once where the group has recorded one block and no write is on its way. -/
theorem drain_flushes (hd : isDieNode p.src = true) (hn : n < 6) {blk addr : Nat}
    (hnone : (s.siteAt (siteOf p.src)).drains = []) (hdevw : (s.siteAt (siteOf p.src)).devw = [])
    (hothers : ∀ m, m ≠ n → Tab.get? (siteOf p.src) (s.groupAt m).blocks = none)
    (hblock : Tab.get? (siteOf p.src) (s.groupAt n).blocks = some [(blk, addr)]) (hflush : (s.groupAt n).flushes = [])
    (hup : s.portUp n (Config.pciePort n addr) = true) :
    (((drainBegun s p).drainAdvance (siteOf p.src)).groupAt n).flushes =
      [flushOf (drainBegun s p) n (siteOf p.src) addr s.time (some (drainTaken s p).id)] ∧
    (((drainBegun s p).drainAdvance (siteOf p.src)).siteAt (siteOf p.src)).drains.map (fun e => (e.id, e.need)) = [((drainTaken s p).id, [])] ∧
    Tab.get? (siteOf p.src) (((drainBegun s p).drainAdvance (siteOf p.src)).groupAt n).blocks = none := by
  have hwaits : (drainTaken s p).waits = [] := List.eq_nil_iff_forall_not_mem.mpr fun w hw => by
    have := mem_devw_of_drainWaits hw
    simp [hdevw] at this
  have hneeds : (drainTaken s p).need = [n] := by
    have hiff : ∀ m, ((Tab.get? (siteOf p.src) (s.groupAt m).blocks).isSome || (drainTaken s p).waits.any fun w => State.towardGroup w m) = (m == n) :=
      fun m => by by_cases hm : m = n <;> simp [hm, hwaits, hblock, hothers]
    have hfilter : (drainTaken s p).need = (List.range 6).filter (· == n) := List.filter_congr fun m _ => hiff m
    rw [hfilter]
    interval_cases n <;> rfl
  have hdrains : ((drainBegun s p).siteAt (siteOf p.src)).drains = [drainTaken s p] := by rw [(drains_drainBegun s hd).1, hnone]; rfl
  rw [drainAdvance_flushes hdrains hneeds (by rw [hwaits]; rfl)]
  generalize hu : (drainBegun s p).modSite (siteOf p.src) _ = u
  have hgroup : u.groupAt n = (drainBegun s p).groupAt n := by rw [← hu]; rfl
  have hb : Tab.getD (siteOf p.src) [] (u.groupAt n).blocks = [(blk, addr)] := by
    rw [hgroup, groupAt_drainBegun]; simp only [Tab.getD, hblock]; rfl
  have hport : u.portUp n (Config.pciePort n addr) = true := by
    unfold State.portUp at hup ⊢; rw [hgroup, groupAt_drainBegun]; exact hup
  obtain ⟨hafter, hsites⟩ := groupAt_flushGroup (start := (drainTaken s p).start) (drain := some (drainTaken s p).id) hn hb hport
  rw [hafter, siteAt_of_sites hsites, hgroup, groupAt_drainBegun, hflush, ← hu, siteAt_modSite_same _ _ (siteOf_lt hd), hdrains]
  refine ⟨?_, ?_, Tab.get?_del_same _ _⟩
  · rfl
  · simp [hneeds]

/-! #### A Drain that completes -/

theorem exec_drainComplete (s : State) (site : Nat) : exec (.drainComplete site) s = s.act (·.drainComplete site) := rfl

/-- The oldest Drain of a site, which is over, is no longer in progress. -/
def drainOver (s : State) (site : Nat) (rest : List DrainRec) : State := (s.modSite site fun x => { x with drains := rest }).pendUpd site

theorem drainComplete_waits {d : DrainRec} {rest : List DrainRec} (hl : (s.siteAt site).drains = d :: rest) (hready : s.drainReady d = false) :
    s.drainComplete site = s := by
  unfold State.drainComplete; simp [hl, hready]

theorem drainComplete_ready {d : DrainRec} {rest : List DrainRec} (hl : (s.siteAt site).drains = d :: rest) (hready : s.drainReady d = true)
    (hop : d.p.op ≠ 0) : s.drainComplete site = match d.fail with
      | none => (drainOver s site rest).siteReply d.p 0x41 0
      | some f => ((drainOver s site rest).siteReply d.p 0x41 2).drainFailed site f := by
  unfold State.drainComplete
  simp only [hl, hready, Bool.not_true, Bool.false_or, beq_iff_eq, hop, if_false]
  rfl

/-- What the end of a site's oldest Drain leaves in its control. -/
theorem drainOver_shows (s : State) (hs : site < 16) (rest : List DrainRec) : ((drainOver s site rest).siteAt site).drains = rest ∧
    (drainOver s site rest).get (pgSITE site) Fld.DRAIN_STAT_PEND = rest.length % 32 ∧
    SameRegs [(pgSITE site, Reg.DRAIN_STAT)] s (drainOver s site rest) ∧
    (drainOver s site rest).fenced site = s.fenced site := by
  have hsite : (drainOver s site rest).siteAt site = (s.modSite site fun x => { x with drains := rest }).siteAt site := siteAt_of_sites rfl site
  rw [siteAt_modSite_same _ _ hs] at hsite
  have hlen : ((s.modSite site fun x => { x with drains := rest }).siteAt site).drains.length = rest.length := by
    rw [siteAt_modSite_same _ _ hs]
  refine ⟨by rw [hsite], ?_, sameRegs_put (s.modSite site fun x => { x with drains := rest }) _ _ Fld.DRAIN_STAT_PEND (by decide), ?_⟩
  · exact (get_put_same (s.modSite site fun x => { x with drains := rest }) _ _ Fld.DRAIN_STAT_PEND (by decide)).trans (congrArg (· % 32) hlen)
  · exact (regsOnly_put (W := fun _ off => off = Reg.DRAIN_STAT) (s.modSite site fun x => { x with drains := rest }) _ _ Fld.DRAIN_STAT_PEND
      (by decide) rfl).flag (f := Fld.SITE_STAT_FENCED) (by decide) (by decide)

/-- SITE's answer waits in LNK[s] for the module that asked (R160). -/
theorem siteReply_open {op : BitVec 7} {addr : BitVec 46} (hf : s.fenced (siteOf p.src) = false) :
    ∃ e, s.siteReply p op addr = { s with net := s.net ++ [e] } ∧ IsSiteReply p op e ∧ e.p.addr = addr := by
  unfold State.siteReply
  rw [hf]
  exact ⟨_, rfl, ⟨rfl, rfl, rfl, rfl, rfl, rfl⟩, rfl⟩

/-- DRAIN_ERR_LOC where a Drain fails (R288). -/
def drainLocated (s : State) (site : Nat) (f : Nat × Nat × Nat) : State :=
  if s.flag (pgSITE site) Fld.DRAIN_ERR_LOC_V then s
  else ((s.put (pgSITE site) Fld.DRAIN_ERR_LOC_CAUSE f.1).put (pgSITE site) Fld.DRAIN_ERR_LOC_TARGET f.2.1).raise1 (pgSITE site) Fld.DRAIN_ERR_LOC_V

/-- DRAIN_ERR and its count, its event raised. -/
def drainErrs (s : State) (site : Nat) : State :=
  (s.status (pgSITE site) Fld.DRAIN_STAT_DRAIN_ERR (srcSITE site 0)).count (pgSITE site) Fld.DRAIN_ERR_CNT_COUNT

theorem drainFailed_eq (s : State) (site : Nat) (f : Nat × Nat × Nat) : s.drainFailed site f = (drainLocated (drainErrs s site) site f).record
    { typ := 0x08, cls := 3, source := srcSITE site 0, page := pgSITE site, sub := f.1, addr := some f.2.2, words := [site + 16 * f.2.1] } := rfl

theorem drainLocated_eq (s : State) (site : Nat) (f : Nat × Nat × Nat) : ∃ regs, drainLocated s site f = { s with regs := regs } := by
  unfold drainLocated
  split
  · exact ⟨s.regs, rfl⟩
  · exact ⟨_, rfl⟩

/-- Only DRAIN_ERR_LOC is written. -/
theorem regsOnly_drainLocated (s : State) (site : Nat) (f : Nat × Nat × Nat) :
    RegsOnly (fun q off => q = pgSITE site ∧ off = Reg.DRAIN_ERR_LOC) s (drainLocated s site f) := by
  unfold drainLocated
  split
  · exact .refl s
  · exact .trans (regsOnly_put s _ _ Fld.DRAIN_ERR_LOC_CAUSE (by decide) ⟨rfl, rfl⟩)
      (.trans (regsOnly_put _ _ _ Fld.DRAIN_ERR_LOC_TARGET (by decide) ⟨rfl, rfl⟩) (regsOnly_put _ _ _ Fld.DRAIN_ERR_LOC_V (by decide) ⟨rfl, rfl⟩))

theorem drainLocated_first (hv : s.flag (pgSITE site) Fld.DRAIN_ERR_LOC_V = false) (f : Nat × Nat × Nat) :
    (drainLocated s site f).get (pgSITE site) Fld.DRAIN_ERR_LOC_CAUSE = f.1 % 16 ∧
    (drainLocated s site f).get (pgSITE site) Fld.DRAIN_ERR_LOC_TARGET = f.2.1 % 16 := by
  rw [drainLocated, hv, if_neg Bool.false_ne_true]
  unfold State.raise1
  constructor
  · rw [get_put_beside _ _ _ Fld.DRAIN_ERR_LOC_V Fld.DRAIN_ERR_LOC_CAUSE rfl (by decide) (.inl (by decide)),
      get_put_beside _ _ _ Fld.DRAIN_ERR_LOC_TARGET Fld.DRAIN_ERR_LOC_CAUSE rfl (by decide) (.inl (by decide)), get_put_same _ _ _ _ (by decide)]
    rfl
  · rw [get_put_beside _ _ _ Fld.DRAIN_ERR_LOC_V Fld.DRAIN_ERR_LOC_TARGET rfl (by decide) (.inl (by decide)), get_put_same _ _ _ _ (by decide)]
    rfl

/-- DRAIN_ERR is set and the failures counted, in registers below DRAIN_ERR_LOC and above. -/
theorem drainErrs_sets (s : State) (site : Nat) : (drainErrs s site).flag (pgSITE site) Fld.DRAIN_STAT_DRAIN_ERR = true ∧
    (drainErrs s site).get (pgSITE site) Fld.DRAIN_ERR_CNT_COUNT = min (s.get (pgSITE site) Fld.DRAIN_ERR_CNT_COUNT + 1) (2 ^ 32 - 1) ∧
    RegsOnly (fun q off => q = pgSITE site ∧ (off = Reg.DRAIN_STAT ∨ off = Reg.DRAIN_ERR_CNT)) s (drainErrs s site) := by
  have hcnt : (s.status (pgSITE site) Fld.DRAIN_STAT_DRAIN_ERR (srcSITE site 0)).get (pgSITE site) Fld.DRAIN_ERR_CNT_COUNT =
      s.get (pgSITE site) Fld.DRAIN_ERR_CNT_COUNT := get_status_ne s _ (by simp [regKey, Fld.DRAIN_ERR_CNT_COUNT, Fld.DRAIN_STAT_DRAIN_ERR])
  unfold drainErrs
  refine ⟨?_, ?_, .trans (regsOnly_put s (pgSITE site) 1 Fld.DRAIN_STAT_DRAIN_ERR (by decide) ⟨rfl, .inl rfl⟩) 
    (.trans (.of_regs (status_regs s (pgSITE site) Fld.DRAIN_STAT_DRAIN_ERR (srcSITE site 0)))
      (regsOnly_put _ _ _ Fld.DRAIN_ERR_CNT_COUNT (by decide) ⟨rfl, .inr rfl⟩))⟩
  · rw [State.count, (regsOnly_put (W := fun _ off => off = Reg.DRAIN_ERR_CNT) _ _ _ Fld.DRAIN_ERR_CNT_COUNT (by decide) rfl).flag
      (f := Fld.DRAIN_STAT_DRAIN_ERR) (by decide) (by decide)]
    exact flag_status_same _ _ _ rfl (by decide)
  · rw [get_count_same _ _ _ _ (by decide), hcnt]; rfl

end

end Sys2Proof.Proofs
end

section
/-! ### The answers of DRAIN and DRAIN_COMPLETE, put together (R280 to R285, R288) -/

namespace Sys2Proof.Proofs

open Sys2Proof Sys2Proof.Machine Sys2Proof.Safety

/-- The record of a Drain that fails (R288). -/
def drainRecOf (site : Nat) (f : Nat × Nat × Nat) : Rec :=
  { typ := 0x08, cls := 3, source := srcSITE site 0, page := pgSITE site, sub := f.1, addr := some f.2.2, words := [site + 16 * f.2.1] }

section
variable {s : State} {p : Pkt} {n site : Nat}

theorem noted_drainErrs (s : State) (site : Nat) : Noted s (drainErrs s site) :=
  ((noted_put s _ 1 Fld.DRAIN_STAT_DRAIN_ERR).trans (noted_fire _ _)).trans (noted_put _ _ _ _)

theorem noted_drainFailed (s : State) (site : Nat) (f : Nat × Nat × Nat) : Noted s (s.drainFailed site f) := by
  obtain ⟨_, hloc⟩ := drainLocated_eq (drainErrs s site) site f
  rw [drainFailed_eq]
  exact ((noted_drainErrs s site).trans (by rw [Noted, hloc])).trans (noted_record _ _)

theorem drainFailed_raised (s : State) (site : Nat) (f : Nat × Nat × Nat) : (s.drainFailed site f).raised = s.raised ++ [srcSITE site 0] := by
  obtain ⟨_, hloc⟩ := drainLocated_eq (drainErrs s site) site f
  rw [drainFailed_eq, State.record_raised, Bool.and_false, if_neg Bool.false_ne_true, hloc]
  rfl

/-- Storm control of an event is in the registers of EVT. -/
theorem stormed_of_regsOnly {W : Nat → Nat → Prop} {t : State} (h : RegsOnly W s t) {src : Nat} (hsrc : src < 2048) (hw : ∀ off, ¬ W pgEVT off) :
    t.stormed src = s.stormed src := by
  unfold State.stormed
  rw [h _ _ (by simp only [Reg.EVT_STORM]; omega) (hw _)]

theorem drainFailed_recs (s : State) (hs : site < 16) (f : Nat × Nat × Nat) (hst : s.stormed (srcSITE site 0) = false) :
    (s.drainFailed site f).recs = s.recs ++ [drainRecOf site f] := by
  have hevt : pgEVT ≠ pgSITE site := by simp only [pgEVT, pgSITE]; omega
  have hsrc : srcSITE site 0 < 2048 := by simp only [srcSITE]; omega
  obtain ⟨-, -, herrs⟩ := drainErrs_sets s site
  have hloc := regsOnly_drainLocated (drainErrs s site) site f
  have hst' : (drainLocated (drainErrs s site) site f).stormed (srcSITE site 0) = false := by
    rw [stormed_of_regsOnly hloc hsrc fun _ h => hevt h.1, stormed_of_regsOnly herrs hsrc fun _ h => hevt h.1, hst]
  obtain ⟨_, heq⟩ := drainLocated_eq (drainErrs s site) site f
  rw [drainFailed_eq, State.record_recs, hst', if_neg Bool.false_ne_true, heq]
  rfl

/-- What a Drain that fails leaves in the registers of its site. -/
theorem drainFailed_shows (s : State) (site : Nat) (f : Nat × Nat × Nat) :
    (s.drainFailed site f).flag (pgSITE site) Fld.DRAIN_STAT_DRAIN_ERR = true ∧
    (s.drainFailed site f).get (pgSITE site) Fld.DRAIN_ERR_CNT_COUNT = min (s.get (pgSITE site) Fld.DRAIN_ERR_CNT_COUNT + 1) (2 ^ 32 - 1) ∧
    (s.flag (pgSITE site) Fld.DRAIN_ERR_LOC_V = false → (s.drainFailed site f).get (pgSITE site) Fld.DRAIN_ERR_LOC_CAUSE = f.1 % 16 ∧
      (s.drainFailed site f).get (pgSITE site) Fld.DRAIN_ERR_LOC_TARGET = f.2.1 % 16) := by
  obtain ⟨herr, hcount, herrs⟩ := drainErrs_sets s site
  have hloc := regsOnly_drainLocated (drainErrs s site) site f
  have hregs : (s.drainFailed site f).regs = (drainLocated (drainErrs s site) site f).regs := by rw [drainFailed_eq, record_eq]
  refine ⟨?_, ?_, fun hv => ?_⟩
  · rw [flag_of_regs hregs, hloc.flag (f := Fld.DRAIN_STAT_DRAIN_ERR) (by decide) fun h => absurd h.2 (by decide), herr]
  · rw [get_of_regs hregs, hloc.get (f := Fld.DRAIN_ERR_CNT_COUNT) (by decide) fun h => absurd h.2 (by decide), hcount]
  · rw [get_of_regs hregs, get_of_regs hregs]
    exact drainLocated_first ((herrs.flag (f := Fld.DRAIN_ERR_LOC_V) (by decide) fun h => absurd h.2 (by decide)).trans hv) f

/-! #### The commands -/

/-- The Drain that SITE takes is in progress. -/
theorem drain_inProgress (hr : Running s) (hd : isDieNode p.src = true) (hh : State.homeOfPkt p = none) (ha : s.arrived p = true) :
    Answers (.drain p) s fun t => ∃ d ∈ (t.siteAt (siteOf p.src)).drains, d.p = p ∧ d.start = s.time := by
  refine answers_drain hr hd hh ha ?_
  have hheads := (drainsKept_drainAdvance (drainBegun (s.consume p) p) (siteOf p.src)).heads (siteOf p.src)
  have hmem : drainHead (drainTaken (s.consume p) p) ∈ ((drainBegun (s.consume p) p).siteAt (siteOf p.src)).drains.map drainHead := by
    rw [(drains_drainBegun _ hd).1]; simp
  rw [← hheads] at hmem
  obtain ⟨d, hin, hhead⟩ := List.mem_map.mp hmem
  have htime : (drainTaken (s.consume p) p).start = s.time := consume_time s p
  simp only [drainHead, Prod.mk.injEq] at hhead
  exact ⟨d, hin, hhead.2.1, hhead.2.2.trans htime⟩

/-- A Drain with nothing to flush for: what it covers, and what it takes over. -/
theorem drain_covers (hr : Running s) (hd : isDieNode p.src = true) (hh : State.homeOfPkt p = none) (ha : s.arrived p = true)
    (hnone : (s.siteAt (siteOf p.src)).drains = []) (hb : ∀ n, Tab.get? (siteOf p.src) (s.groupAt n).blocks = none)
    (hw : ∀ w ∈ (s.siteAt (siteOf p.src)).devw, ∀ n, n < 6 → State.towardGroup w n = false) : Answers (.drain p) s fun t =>
      let x := s.siteAt (siteOf p.src)
      (∃ d, (t.siteAt (siteOf p.src)).drains = [d] ∧ d.p = p ∧ d.start = s.time ∧ d.need = [] ∧ d.fail = x.devFail ∧
        (x.drainMark.find? (fun m => m.1 == State.unitKey p) = none → d.waits = x.devw) ∧
        (∀ m, x.drainMark.find? (fun m => m.1 == State.unitKey p) = some m → d.waits = m.2.filter fun w => x.devw.contains w) ∧
        (∀ w ∈ d.waits, w ∈ d.covers) ∧
        (∀ n, (t.groupAt n).flushes = (s.groupAt n).flushes.map fun f =>
          if f.site = siteOf p.src ∧ f.drain = none then { f with drain := some d.id } else f)) ∧
      t.get (pgSITE (siteOf p.src)) Fld.DRAIN_STAT_PEND = 1 ∧ (t.siteAt (siteOf p.src)).devFail = none ∧ t.net = (s.consume p).net ∧
      SameRegs [(pgSITE (siteOf p.src), Reg.DRAIN_STAT)] s t ∧ SameMemory s t := by
  have hneed := drainNeeds_eq_nil (waits := drainWaits (s.siteAt (siteOf p.src)) p) hb fun w hmem => hw w (mem_devw_of_drainWaits hmem)
  refine drain_idle hr hd hh ha hnone hneed ?_
  obtain ⟨hdrains, hfail⟩ := drains_drainBegun (p := p) (s.consume p) hd
  have hsite : (s.consume p).siteAt (siteOf p.src) = s.siteAt (siteOf p.src) := siteAt_consume s p _
  have hwaits : (drainTaken (s.consume p) p).waits = drainWaits (s.siteAt (siteOf p.src)) p := by rw [drainTaken, hsite]
  have hneed' : (drainTaken (s.consume p) p).need = [] := by simpa only [drainTaken, drainNeeds, siteAt_consume, groupAt_consume] using hneed
  rw [hsite, hnone, List.nil_append] at hdrains
  refine ⟨⟨drainTaken (s.consume p) p, hdrains, rfl, consume_time s p, hneed', congrArg Site.devFail hsite, fun hm => ?_, fun m hm => ?_,
    fun w hmem => List.mem_append_left _ hmem, fun n => ?_⟩, pend_drainBegun hd (by rw [hsite, hnone]), hfail, by rw [drainBegun_rest], ?_, fun a => ?_⟩
  · rw [hwaits, drainWaits, hm]
  · rw [hwaits, drainWaits, hm]
  · rw [groupAt_drainBegun, groupAt_consume]
    exact List.map_congr_left fun f _ => flushJoins_eq _ _ f
  · exact fun q off ho hn => (sameRegs_drainBegun (s.consume p) p q off ho hn).trans (reg_of_regs (consume_regs s p) q off)
  · rw [drainBegun_rest]; rw [consume_eq]

/-- A Drain for which one group has a recorded block to flush. -/
theorem drain_flushRead {blk addr : Nat} (hr : Running s) (hd : isDieNode p.src = true) (hh : State.homeOfPkt p = none) (ha : s.arrived p = true)
    (hn : n < 6) (hnone : (s.siteAt (siteOf p.src)).drains = []) (hdevw : (s.siteAt (siteOf p.src)).devw = [])
    (hothers : ∀ m, m ≠ n → Tab.get? (siteOf p.src) (s.groupAt m).blocks = none)
    (hblock : Tab.get? (siteOf p.src) (s.groupAt n).blocks = some [(blk, addr)]) (hflush : (s.groupAt n).flushes = [])
    (hup : s.portUp n (Config.pciePort n addr) = true) : Answers (.drain p) s fun t =>
      (∃ f d, (t.groupAt n).flushes = [f] ∧ f.addr = addr ∧ f.start = s.time ∧ f.limit = s.cplTo n ∧ f.drain = some d ∧
        (t.siteAt (siteOf p.src)).drains.map (fun e => (e.id, e.need)) = [(d, [])]) ∧
      Tab.get? (siteOf p.src) (t.groupAt n).blocks = none := by
  refine answers_drain hr hd hh ha ?_
  have hgroups : ∀ m, (s.consume p).groupAt m = s.groupAt m := groupAt_consume s p
  obtain ⟨hread, hneed, hclear⟩ := drain_flushes (s := s.consume p) hd hn (by rw [siteAt_consume, hnone]) (by rw [siteAt_consume, hdevw])
    (fun m hm => by rw [hgroups, hothers m hm]) (by rw [hgroups, hblock]) (by rw [hgroups, hflush]) (by unfold State.portUp at hup ⊢; rw [hgroups, hup])
  refine ⟨⟨_, _, hread, rfl, consume_time s p, ?_, rfl, hneed⟩, hclear⟩
  have hpage : (pgPCIE n, Fld.CPL_TO_VALUE.off) ∉ [(pgSITE (siteOf p.src), Reg.DRAIN_STAT)] := by
    simp only [List.mem_singleton, Prod.mk.injEq, not_and]
    exact fun _ => by decide
  have hlimit : (drainBegun (s.consume p) p).get (pgPCIE n) Fld.CPL_TO_VALUE = s.get (pgPCIE n) Fld.CPL_TO_VALUE :=
    (get_of_sameRegs (sameRegs_drainBegun (s.consume p) p) (by decide) hpage).trans (get_of_regs (consume_regs s p) _ _)
  exact congrArg (1000 * ·) hlimit

section
variable {d : DrainRec} {rest : List DrainRec}

/-- SITE's answer to a Drain whose wait is over. -/
theorem drainOver_answered (hsrc : siteOf d.p.src = site) (hs : site < 16) (hf : s.fenced site = false) (addr : BitVec 46) :
    ∃ e, (drainOver s site rest).siteReply d.p 0x41 addr = { drainOver s site rest with net := s.net ++ [e] } ∧ IsSiteReply d.p 0x41 e ∧ e.p.addr = addr := by
  obtain ⟨-, -, -, hfenced⟩ := drainOver_shows (rest := rest) s hs
  exact siteReply_open (s := drainOver s site rest) (by rw [hsrc, hfenced, hf])

theorem answers_drainComplete {P : State → Prop} {t : State} (hr : Running s) (ht : s.drainComplete site = t) (hoff : t.off = s.off)
    (hpend : t.pending = s.pending) (htime : t.time = s.time) (hP : P t) : Answers (.drainComplete site) s P :=
  answers_act (exec_drainComplete s site) hr.1 ht hoff hpend htime hP

/-- A Drain with nothing left to wait for that has not failed is answered with OK. -/
theorem drainComplete_ok (hr : Running s) (hs : site < 16) (hl : (s.siteAt site).drains = d :: rest) (hsrc : siteOf d.p.src = site)
    (hf : s.fenced site = false) (hop : d.p.op ≠ 0) (hready : s.drainReady d = true) (hfail : d.fail = none) :
    Answers (.drainComplete site) s fun t =>
      (t.siteAt site).drains = rest ∧ t.get (pgSITE site) Fld.DRAIN_STAT_PEND = rest.length % 32 ∧
      (∃ e, t.net = s.net ++ [e] ∧ IsSiteReply d.p 0x41 e ∧ e.p.addr = 0) ∧ t.raised = s.raised ∧
      SameRegs [(pgSITE site, Reg.DRAIN_STAT)] s t := by
  obtain ⟨hrest, hpend, hregs, -⟩ := drainOver_shows (rest := rest) s hs
  obtain ⟨e, hnet, hreply, haddr⟩ := drainOver_answered (rest := rest) hsrc hs hf 0
  have hrow : s.drainComplete site = { drainOver s site rest with net := s.net ++ [e] } := by
    rw [drainComplete_ready hl hready hop, hfail]; exact hnet
  exact answers_drainComplete hr hrow rfl rfl rfl ⟨hrest, hpend, ⟨e, rfl, hreply, haddr⟩, rfl, hregs⟩

/-- One that has failed is answered with ERR, and its failure shown, counted, located and recorded. -/
theorem drainComplete_err {f : Nat × Nat × Nat} (hr : Running s) (hs : site < 16) (hl : (s.siteAt site).drains = d :: rest)
    (hsrc : siteOf d.p.src = site) (hf : s.fenced site = false) (hop : d.p.op ≠ 0) (hready : s.drainReady d = true) (hfail : d.fail = some f) :
    Answers (.drainComplete site) s fun t =>
      (t.siteAt site).drains = rest ∧ (∃ e, t.net = s.net ++ [e] ∧ IsSiteReply d.p 0x41 e ∧ e.p.addr = 2) ∧
      t.flag (pgSITE site) Fld.DRAIN_STAT_DRAIN_ERR = true ∧ t.raised = s.raised ++ [srcSITE site 0] ∧
      t.get (pgSITE site) Fld.DRAIN_ERR_CNT_COUNT = min (s.get (pgSITE site) Fld.DRAIN_ERR_CNT_COUNT + 1) (2 ^ 32 - 1) ∧
      (s.flag (pgSITE site) Fld.DRAIN_ERR_LOC_V = false → t.get (pgSITE site) Fld.DRAIN_ERR_LOC_CAUSE = f.1 % 16 ∧
        t.get (pgSITE site) Fld.DRAIN_ERR_LOC_TARGET = f.2.1 % 16) ∧
      (s.stormed (srcSITE site 0) = false → ∃ r : Rec, t.recs = s.recs ++ [r] ∧ r.typ = 0x08 ∧ r.addr = some f.2.2) := by
  obtain ⟨hrest, -, hregs, -⟩ := drainOver_shows (rest := rest) s hs
  obtain ⟨e, hnet, hreply, haddr⟩ := drainOver_answered (rest := rest) hsrc hs hf 2
  have hkept : RegsOnly (fun q off => (q, off) ∈ [(pgSITE site, Reg.DRAIN_STAT)]) s { drainOver s site rest with net := s.net ++ [e] } := hregs
  have hbeside : ∀ off, off ≠ Reg.DRAIN_STAT → (pgSITE site, off) ∉ [(pgSITE site, Reg.DRAIN_STAT)] := by simp
  have hrow : s.drainComplete site = ({ drainOver s site rest with net := s.net ++ [e] } : State).drainFailed site f := by
    rw [drainComplete_ready hl hready hop, hfail]; exact congrArg (State.drainFailed · site f) hnet
  generalize hu : ({ drainOver s site rest with net := s.net ++ [e] } : State) = u at hkept hrow
  have hstart : u.off = s.off ∧ u.pending = s.pending ∧ u.time = s.time ∧ u.net = s.net ++ [e] ∧ u.raised = s.raised ∧ u.recs = s.recs := by
    rw [← hu]; exact ⟨rfl, rfl, rfl, rfl, rfl, rfl⟩
  have hdrains : (u.siteAt site).drains = rest := by rw [← hu]; exact hrest
  obtain ⟨hoff, hpend, htime, hunet, hraised, hrecs⟩ := hstart
  obtain ⟨herr, hcount, hloc⟩ := drainFailed_shows u site f
  have hnoted := noted_drainFailed u site f
  refine answers_drainComplete hr hrow (hnoted.off.trans hoff) (hnoted.pending.trans hpend) (hnoted.time.trans htime)
    ⟨by rw [siteAt_of_sites hnoted.sites, hdrains], ⟨e, hnoted.net.trans hunet, hreply, haddr⟩, herr, by rw [drainFailed_raised, hraised],
      ?_, fun hv => hloc ?_, fun hst => ⟨drainRecOf site f, ?_, rfl, rfl⟩⟩
  · rw [hcount, hkept.get (f := Fld.DRAIN_ERR_CNT_COUNT) (by decide) (hbeside _ (by decide))]
  · rw [hkept.flag (f := Fld.DRAIN_ERR_LOC_V) (by decide) (hbeside _ (by decide)), hv]
  · have hst' : u.stormed (srcSITE site 0) = false := by
      rw [stormed_of_regsOnly hkept (by simp only [srcSITE]; omega) fun _ h => ?_, hst]
      simp only [List.mem_singleton, Prod.mk.injEq, pgEVT, pgSITE] at h; omega
    rw [drainFailed_recs u hs f hst', hrecs]

end

end

end Sys2Proof.Proofs
end

section
/-! ### Flushing reads, and a link that goes down or comes up (R282, R286, R287, R389, R612) -/

namespace Sys2Proof.Proofs

open Sys2Proof Sys2Proof.Machine Sys2Proof.Safety

/-- From `s` to `t` only groups and counters change. -/
structure GroupsCounted (s t : State) : Prop where
  rest : t = { s with groups := t.groups, regs := t.regs }
  counters : SameButCounters [] s t

/-- The writes that a port held before a flushing read leave its buffer as the read completes (R282). -/
def aheadSent (s : State) (n port : Nat) (l : List (Nat × Pkt)) : State :=
  l.foldl (fun s e => if (s.groupAt n).pw.contains e then (s.modGroup n fun g => { g with pw := g.pw.erase e }).tlpTx n port else s) s

section
variable {s t u : State} {n port site addr : Nat}

theorem GroupsCounted.refl (s : State) : GroupsCounted s s := ⟨rfl, fun _ _ _ _ _ => rfl⟩

theorem GroupsCounted.trans (h : GroupsCounted s t) (k : GroupsCounted t u) : GroupsCounted s u :=
  ⟨k.rest.trans (by rw [h.rest]), sameButCounters_trans h.counters k.counters⟩

theorem groupsCounted_modGroup (s : State) (n : Nat) (f : Group → Group) : GroupsCounted s (s.modGroup n f) := ⟨rfl, fun _ _ _ _ _ => rfl⟩

theorem groupsCounted_tlpTx (s : State) (n port : Nat) : GroupsCounted s (s.tlpTx n port) :=
  ⟨by rw [tlpTx_eq], sameButCounters_bump s _ _ _ _ _ _⟩

theorem groupsCounted_tlpRx (s : State) (n port : Nat) : GroupsCounted s (s.tlpRx n port) :=
  ⟨by rw [tlpRx_eq], sameButCounters_bump s _ _ _ _ _ _⟩

theorem groupAt_tlpRx (s : State) (n port k : Nat) : (s.tlpRx n port).groupAt k = s.groupAt k := groupAt_of_groups (by rw [tlpRx_eq]) k

theorem groupsCounted_aheadSent (s : State) (n port : Nat) (l : List (Nat × Pkt)) : GroupsCounted s (aheadSent s n port l) :=
  foldl_keeps (GroupsCounted s) l _ s (.refl s) fun e _ t ht => by
    split
    · exact ht.trans ((groupsCounted_modGroup t n _).trans (groupsCounted_tlpTx _ n port))
    · exact ht

theorem groupAt_aheadSent (s : State) (hn : n < 6) (l : List (Nat × Pkt)) : (aheadSent s n port l).groupAt n =
    { s.groupAt n with pw := l.foldl (fun l e => l.erase e) (s.groupAt n).pw } := by
  induction l generalizing s with
  | nil => rfl
  | cons e l ih =>
    refine (ih _).trans ?_
    rw [List.foldl_cons]
    dsimp only
    split
    · rw [groupAt_tlpTx, groupAt_modGroup_same _ _ hn]
    · rename_i hout
      rw [List.erase_of_not_mem (by simpa using hout)]

/-- The completion of a flushing read ends it and the writes before it. -/
theorem flushReadComplete_ends {f : Flush} (hr : Running s) (hn : n < 6)
    (hf : (s.groupAt n).flushes.find? (fun f => f.site == site && f.addr == addr) = some f) : Answers (.flushReadComplete n site addr) s fun t =>
      (t.groupAt n).flushes = (s.groupAt n).flushes.erase f ∧ (t.groupAt n).pw = f.ahead.foldl (fun l e => l.erase e) (s.groupAt n).pw ∧
      t = { s with groups := t.groups, regs := t.regs } ∧ SameButCounters [] s t := by
  have hcount : GroupsCounted s (((aheadSent s n f.port f.ahead).modGroup n fun g => { g with flushes := g.flushes.erase f }).tlpRx n f.port) :=
    (groupsCounted_aheadSent s n f.port f.ahead).trans ((groupsCounted_modGroup _ n _).trans (groupsCounted_tlpRx _ n f.port))
  have hgroup := groupAt_aheadSent (port := f.port) s hn f.ahead
  have hc : exec (.flushReadComplete n site addr) s = execFlushReadComplete n site addr s := rfl
  unfold execFlushReadComplete at hc
  refine answers_dom (t := ((aheadSent s n f.port f.ahead).modGroup n fun g => { g with flushes := g.flushes.erase f }).tlpRx n f.port)
    hc hr ?_ (by rw [hcount.rest]) (by rw [hcount.rest]) (by rw [hcount.rest]) ⟨?_, ?_, hcount.rest, hcount.counters⟩
  · simp only [hf]; rfl
  · rw [groupAt_tlpRx, groupAt_modGroup_same _ _ hn, hgroup]
  · rw [groupAt_tlpRx, groupAt_modGroup_same _ _ hn, hgroup]

/-! #### A flushing read that times out (R286) -/

theorem flushFailed_eq (s : State) (k : Nat) (f : Flush) (cause : Nat) :
    s.flushFailed k f cause = { s with sites := (s.flushFailed k f cause).sites } := rfl

/-- The Drain that a failed flush serves fails, unless it has failed before. -/
theorem drains_flushFailed {f : Flush} {id : Nat} (hs : f.site < 16) (hd : f.drain = some id) (k cause : Nat) :
    ((s.flushFailed k f cause).siteAt f.site).drains = (s.siteAt f.site).drains.map fun e =>
      if e.id = id ∧ e.fail = none then { e with fail := some (cause, k, f.addr) } else e := by
  unfold State.flushFailed
  rw [siteAt_modSite_same _ _ hs]
  simp only [hd, Bool.and_eq_true, beq_iff_eq, Option.isNone_iff_eq_none]

/-- With none, the site's next Drain is to fail. -/
theorem devFail_flushFailed {f : Flush} (hs : f.site < 16) (hd : f.drain = none) (hfail : (s.siteAt f.site).devFail = none) (k cause : Nat) :
    ((s.flushFailed k f cause).siteAt f.site).devFail = some (cause, k, f.addr) := by
  unfold State.flushFailed
  rw [siteAt_modSite_same _ _ hs]
  simp only [hd, hfail]

/-- A group gives a flushing read up. -/
def flushGivenUp (s : State) (n : Nat) (f : Flush) : State :=
  (((s.modGroup n fun g => { g with flushes := g.flushes.erase f }).flushFailed n f 1).fire (srcPCIE n 4)).fire (srcPCIE n 1)

theorem flushGivenUp_eq (s : State) (n : Nat) (f : Flush) : flushGivenUp s n f =
    { s with groups := modOf 6 {} s.groups n fun g => { g with flushes := g.flushes.erase f }
             sites := (s.flushFailed n f 1).sites, raised := s.raised ++ [srcPCIE n 4] ++ [srcPCIE n 1] } := by
  unfold flushGivenUp State.flushFailed State.fire State.modGroup State.modSite
  rfl

theorem groupAt_flushGivenUp (s : State) (hn : n < 6) (f : Flush) : (flushGivenUp s n f).groupAt n =
    { s.groupAt n with flushes := (s.groupAt n).flushes.erase f } := by
  rw [flushGivenUp_eq]
  exact groupAt_modGroup_same s (fun g => { g with flushes := g.flushes.erase f }) hn

/-- At CPL_TO the group gives a flushing read up. -/
theorem flushReadTimeout_fails {f : Flush} (hr : Running s) (hn : n < 6) (hs : site < 16) (hl : (s.groupAt n).flushes = [f]) (hsite : f.site = site)
    (haddr : f.addr = addr) (hto : f.start + f.limit ≤ s.time) : Answers (.flushReadTimeout n site addr) s fun t =>
      (t.groupAt n).flushes = [] ∧ srcPCIE n 4 ∈ t.raised ∧ t.regs = s.regs ∧
      (∀ d, f.drain = some d → (t.siteAt site).drains = (s.siteAt site).drains.map fun e =>
        if e.id = d ∧ e.fail = none then { e with fail := some (1, n, addr) } else e) ∧
      (f.drain = none → (s.siteAt site).devFail = none → (t.siteAt site).devFail = some (1, n, addr)) := by
  subst hsite haddr
  have hc : exec (.flushReadTimeout n f.site f.addr) s = execFlushReadTimeout n f.site f.addr s := rfl
  unfold execFlushReadTimeout at hc
  have hgroup := groupAt_flushGivenUp s hn f
  have hrest := flushGivenUp_eq s n f
  refine answers_dom (t := flushGivenUp s n f) hc hr ?_ ?_ ?_ ?_ ?_
  · simp [hl, hto, flushGivenUp]
  · rw [hrest]
  · rw [hrest]
  · rw [hrest]
  · have hsites : ∀ i, (flushGivenUp s n f).siteAt i = (s.flushFailed n f 1).siteAt i := siteAt_of_sites (by rw [hrest])
    refine ⟨by rw [hgroup, hl, List.erase_cons_head], by rw [hrest]; simp, by rw [hrest], fun d hd => ?_, fun hd hfail => ?_⟩
    · rw [hsites, drains_flushFailed hs hd]
    · rw [hsites, devFail_flushFailed hs hd hfail]

theorem flushReadTimeout_waits {f : Flush} (hr : Running s) (hl : (s.groupAt n).flushes = [f]) (hto : s.time < f.start + f.limit) :
    Answers (.flushReadTimeout n site addr) s fun t => t = s := by
  have hc : exec (.flushReadTimeout n site addr) s = execFlushReadTimeout n site addr s := rfl
  unfold execFlushReadTimeout at hc
  refine answers_dom (t := s) hc hr ?_ rfl rfl rfl rfl
  simp [hl, hto]

/-! #### Training of a port (R612) -/

theorem pcieLinkUp_up (hr : Running s) (hn : n < 6) (hdom : s.domState (43 + n) = 2) (hdown : s.portUp n port = false)
    (hport : portExists s.straps n port = true) : Answers (.pcieLinkUp n port) s fun t =>
      t.portUp n port = true ∧ t.raised = s.raised ++ [srcPCIE n 8] ∧ t = { s with groups := t.groups, raised := t.raised } := by
  have hc : exec (.pcieLinkUp n port) s = execPcieLinkUp n port s := rfl
  unfold execPcieLinkUp at hc
  refine answers_dom (t := (s.modGroup n fun g => { g with up := g.up ++ [port] }).fire (srcPCIE n 8)) hc hr ?_ rfl rfl rfl ⟨?_, rfl, rfl⟩
  · simp [hdom, hdown, hport]
  · have hgroup : ((s.modGroup n fun g => { g with up := g.up ++ [port] }).fire (srcPCIE n 8)).groupAt n =
        (s.modGroup n fun g => { g with up := g.up ++ [port] }).groupAt n := rfl
    rw [State.portUp, hgroup, groupAt_modGroup_same _ _ hn]
    simp

end

end Sys2Proof.Proofs
end

section
/-! ### What a port going down ends in its group (R287, R291) -/

namespace Sys2Proof.Proofs

open Sys2Proof Sys2Proof.Machine Sys2Proof.Safety

/-- The port is out of use. -/
def portShut (s : State) (n port : Nat) : State := s.modGroup n fun g => { g with up := g.up.filter (· != port) }

/-- Its flushing reads have failed. -/
def flushesEnded (s : State) (n port : Nat) : State :=
  (((portShut s n port).groupAt n).flushes.filter (·.port == port)).foldl (fun s f => s.flushFailed n f 2)
    ((portShut s n port).modGroup n fun g => { g with flushes := g.flushes.filter (·.port != port) })

/-- The writes it held are discarded. -/
def writesEnded (s : State) (n port : Nat) : State := (flushesEnded s n port).discardPw n (· == port) 2

/-- A request of a port that its device has not completed. -/
def outstandingOn (port : Nat) (q : NonPosted) : Bool := q.port == port && q.cpl.isNone

/-- Those requests are answered with ERR. -/
def requestsEnded (s : State) (n port : Nat) : State :=
  (((writesEnded s n port).groupAt n).nonp.filter (outstandingOn port)).foldl (fun s q => s.groupAnswer n q 2 (BitVec.allOnes 512)) (writesEnded s n port)

theorem portDown_eq (s : State) (n port : Nat) :
    s.portDown n port = ((List.range 16).foldl (fun s site => s.drainAdvance site) (requestsEnded s n port)).farSweep := rfl

section
variable {s t u : State} {n port : Nat}

theorem writeFailed_eq (s : State) (p : Pkt) (cause target : Nat) :
    s.writeFailed p cause target = { s with sites := (s.writeFailed p cause target).sites } := by
  unfold State.writeFailed State.writeGone
  split <;> rfl

/-! #### The buffer of posted writes -/

theorem foldl_writeFailed (s : State) (n cause : Nat) (l : List (Nat × Pkt)) :
    (l.foldl (fun s e => s.writeFailed e.2 cause n) s).groups = s.groups ∧ (l.foldl (fun s e => s.writeFailed e.2 cause n) s).regs = s.regs :=
  foldl_keeps (fun t => t.groups = s.groups ∧ t.regs = s.regs) l _ s ⟨rfl, rfl⟩ fun e _ t ht => by rw [writeFailed_eq]; exact ht

/-- The writes of some ports have left the buffer, and are counted. -/
def discardNoted (s : State) (n : Nat) (which : Nat → Bool) : State :=
  ((s.modGroup n fun g => { g with pw := g.pw.filter fun e => !which e.1 }).count (pgPCIE n) Fld.PW_DISC_COUNT
    ((s.groupAt n).pw.filter fun e => which e.1).length).fire (srcPCIE n 5)

theorem discardPw_eq (s : State) (n : Nat) (which : Nat → Bool) (cause : Nat) : s.discardPw n which cause =
    if ((s.groupAt n).pw.filter fun e => which e.1).isEmpty then s
    else ((s.groupAt n).pw.filter fun e => which e.1).foldl (fun s e => s.writeFailed e.2 cause n) (discardNoted s n which) := rfl

/-- The writes a group discards leave its buffer, and are counted (R287). -/
theorem discardPw_shows (s : State) (hn : n < 6) (which : Nat → Bool) (cause : Nat) :
    (s.discardPw n which cause).groupAt n = { s.groupAt n with pw := (s.groupAt n).pw.filter fun e => !which e.1 } ∧
    (s.discardPw n which cause).get (pgPCIE n) Fld.PW_DISC_COUNT =
      min (s.get (pgPCIE n) Fld.PW_DISC_COUNT + ((s.groupAt n).pw.filter fun e => which e.1).length) (2 ^ 32 - 1) ∧
    SameRegs [(pgPCIE n, Reg.PW_DISC)] s (s.discardPw n which cause) := by
  rw [discardPw_eq]
  split
  · rename_i hnone
    rw [List.isEmpty_iff] at hnone
    have hall : (s.groupAt n).pw.filter (fun e => !which e.1) = (s.groupAt n).pw :=
      List.filter_eq_self.mpr fun e he => by simpa using List.filter_eq_nil_iff.mp hnone e he
    have hlt : s.get (pgPCIE n) Fld.PW_DISC_COUNT < 2 ^ 32 := Nat.mod_lt _ (by decide)
    refine ⟨by rw [hall], ?_, sameRegs_refl _ _⟩
    rw [hnone]
    exact (Nat.min_eq_left (Nat.le_sub_one_of_lt hlt)).symm
  · let u := s.modGroup n fun g => { g with pw := g.pw.filter fun e => !which e.1 }
    obtain ⟨hgroups, hregs⟩ := foldl_writeFailed (discardNoted s n which) n cause ((s.groupAt n).pw.filter fun e => which e.1)
    have hnoted : (discardNoted s n which).groups = u.groups ∧
        (discardNoted s n which).regs = (u.count (pgPCIE n) Fld.PW_DISC_COUNT ((s.groupAt n).pw.filter fun e => which e.1).length).regs := ⟨rfl, rfl⟩
    refine ⟨?_, ?_, fun p off ho hno => ?_⟩
    · rw [groupAt_of_groups hgroups, groupAt_of_groups hnoted.1, groupAt_modGroup_same _ _ hn]
    · rw [get_of_regs hregs, get_of_regs hnoted.2, get_count_same _ _ _ _ (by decide)]; rfl
    · rw [reg_of_regs hregs, reg_of_regs hnoted.2]; exact sameRegs_put u _ _ Fld.PW_DISC_COUNT (by decide) p off ho hno

/-! #### Flushing reads -/

theorem foldl_flushFailed (s : State) (n cause : Nat) (l : List Flush) :
    (l.foldl (fun s f => s.flushFailed n f cause) s).groups = s.groups ∧ (l.foldl (fun s f => s.flushFailed n f cause) s).regs = s.regs :=
  foldl_keeps (fun t => t.groups = s.groups ∧ t.regs = s.regs) l _ s ⟨rfl, rfl⟩ fun f _ t ht => by rw [flushFailed_eq]; exact ht

theorem flushesEnded_shows (s : State) (hn : n < 6) :
    (flushesEnded s n port).groupAt n = { s.groupAt n with
      up := (s.groupAt n).up.filter (· != port), flushes := (s.groupAt n).flushes.filter (·.port != port) } ∧
    (flushesEnded s n port).regs = s.regs := by
  have hshut : (portShut s n port).groupAt n = { s.groupAt n with up := (s.groupAt n).up.filter (· != port) } := groupAt_modGroup_same s _ hn
  obtain ⟨hgroups, hregs⟩ := foldl_flushFailed ((portShut s n port).modGroup n fun g => { g with flushes := g.flushes.filter (·.port != port) }) n 2
    (((portShut s n port).groupAt n).flushes.filter (·.port == port))
  exact ⟨by rw [flushesEnded, groupAt_of_groups hgroups, groupAt_modGroup_same _ _ hn, hshut], hregs⟩

theorem drainsKept_writesEnded (s : State) (n port : Nat) : DrainsKept s (writesEnded s n port) :=
  .trans (.trans (.trans (drainsKept_modGroup s n _) (drainsKept_modGroup _ n _)) (drainsKept_foldl _ _ _ fun f t => drainsKept_flushFailed t n f 2))
    (drainsKept_discardPw _ n _ 2)

/-! #### Requests outstanding -/

/-- A group's answer goes into the fabric, and its request is over. -/
theorem groupAnswer_eq (s : State) (n : Nat) (q : NonPosted) (status : Nat) (data : LineData) : ∃ net, s.groupAnswer n q status data =
    { s.modGroup n fun g => { g with nonp := g.nonp.erase q } with net := net } := by
  unfold State.groupAnswer
  dsimp only
  split <;> exact ⟨_, rfl⟩

theorem groupAt_groupAnswer (s : State) (hn : n < 6) (q : NonPosted) (status : Nat) (data : LineData) :
    (s.groupAnswer n q status data).groupAt n = { s.groupAt n with nonp := (s.groupAt n).nonp.erase q } := by
  obtain ⟨_, hq⟩ := groupAnswer_eq s n q status data
  exact (groupAt_of_groups (by rw [hq]) n).trans (groupAt_modGroup_same s (fun g => { g with nonp := g.nonp.erase q }) hn)

theorem foldl_groupAnswer (s : State) (n status : Nat) (data : LineData) (l : List NonPosted) : ∃ net groups,
    l.foldl (fun s q => s.groupAnswer n q status data) s = { s with net := net, groups := groups } :=
  foldl_keeps (fun t => ∃ net groups, t = { s with net := net, groups := groups }) l _ s ⟨_, _, rfl⟩ fun q _ t ht => by
    obtain ⟨_, _, rfl⟩ := ht
    obtain ⟨_, hq⟩ := groupAnswer_eq _ n q status data
    exact ⟨_, _, hq⟩

theorem groupAt_foldl_groupAnswer (s : State) (hn : n < 6) (status : Nat) (data : LineData) (l : List NonPosted) :
    (l.foldl (fun s q => s.groupAnswer n q status data) s).groupAt n = { s.groupAt n with nonp := (s.groupAt n).nonp.diff l } := by
  induction l generalizing s with
  | nil => rfl
  | cons q l ih => rw [List.foldl_cons, ih, groupAt_groupAnswer s hn, List.diff_cons]

/-- Where every element of a kind is taken away, none is left. -/
theorem not_of_mem_diff_filter {α : Type} [DecidableEq α] {P : α → Bool} {l : List α} {a : α} (h : a ∈ l.diff (l.filter P)) : P a = false := by
  by_contra hp
  have hp : P a = true := by simpa using hp
  have hcount := List.count_pos_iff.mpr h
  rw [List.count_diff, List.count_filter hp, Nat.sub_self] at hcount
  exact absurd hcount (lt_irrefl 0)

/-- What is left of a group's port, and of the group's state, once all that the port held has ended. -/
theorem requestsEnded_shows (s : State) (hn : n < 6) :
    (requestsEnded s n port).portUp n port = false ∧ (∀ e ∈ ((requestsEnded s n port).groupAt n).pw, e.1 ≠ port) ∧
    (∀ f ∈ ((requestsEnded s n port).groupAt n).flushes, f.port ≠ port) ∧
    (∀ q ∈ ((requestsEnded s n port).groupAt n).nonp, q.port ≠ port ∨ q.cpl ≠ none) ∧
    (requestsEnded s n port).get (pgPCIE n) Fld.PW_DISC_COUNT =
      min (s.get (pgPCIE n) Fld.PW_DISC_COUNT + ((s.groupAt n).pw.filter fun e => e.1 == port).length) (2 ^ 32 - 1) ∧
    SameRegs [(pgPCIE n, Reg.PW_DISC)] s (requestsEnded s n port) := by
  obtain ⟨hflush, hregs⟩ := flushesEnded_shows (port := port) s hn
  obtain ⟨hpw, hcount, hsame⟩ := discardPw_shows (flushesEnded s n port) hn (· == port) 2
  have hgroup : (requestsEnded s n port).groupAt n = _ := groupAt_foldl_groupAnswer (writesEnded s n port) hn 2 (BitVec.allOnes 512) _
  obtain ⟨_, _, hanswer⟩ := foldl_groupAnswer (writesEnded s n port) n 2 (BitVec.allOnes 512)
    (((writesEnded s n port).groupAt n).nonp.filter (outstandingOn port))
  rw [hflush] at hpw hcount
  rw [writesEnded, hpw] at hgroup
  have hrregs : (requestsEnded s n port).regs = (writesEnded s n port).regs := by rw [requestsEnded, hanswer]
  rw [State.portUp, hgroup]
  refine ⟨by simp, fun e he => by simpa using (List.mem_filter.mp he).2, fun f hf => by simpa using (List.mem_filter.mp hf).2, fun q hq => ?_, ?_, ?_⟩
  · have hout := not_of_mem_diff_filter hq
    simp only [outstandingOn, Bool.and_eq_false_iff, beq_eq_false_iff_ne, Option.isNone_eq_false_iff, Option.isSome_iff_ne_none] at hout
    exact hout
  · rw [get_of_regs hrregs, writesEnded, hcount, get_of_regs hregs]
  · exact fun p off ho hno => (reg_of_regs hrregs p off).trans ((hsame p off ho hno).trans (reg_of_regs hregs p off))

theorem requestsEnded_kept (hd : ∀ i, (s.siteAt i).drains = []) :
    (requestsEnded s n port).off = s.off ∧ (requestsEnded s n port).pending = s.pending ∧ (requestsEnded s n port).time = s.time ∧
    (requestsEnded s n port).mem = s.mem ∧ (requestsEnded s n port).rop = s.rop ∧ ∀ i, ((requestsEnded s n port).siteAt i).drains = [] := by
  have hkept := drainsKept_writesEnded s n port
  obtain ⟨_, _, hanswer⟩ := foldl_groupAnswer (writesEnded s n port) n 2 (BitVec.allOnes 512)
    (((writesEnded s n port).groupAt n).nonp.filter (outstandingOn port))
  rw [requestsEnded, hanswer]
  generalize writesEnded s n port = u at hkept
  exact ⟨hkept.off, hkept.pending, hkept.time, hkept.mem, by rw [hkept.rest], fun i => hkept.none (hd i)⟩

/-- With no Drain in progress, what is left is the sweep of far accesses. -/
theorem portDown_sweeps (hd : ∀ i, (s.siteAt i).drains = []) : s.portDown n port = (requestsEnded s n port).farSweep := by
  obtain ⟨-, -, -, -, -, hnone⟩ := requestsEnded_kept (n := n) (port := port) hd
  rw [portDown_eq]
  generalize requestsEnded s n port = u at hnone
  exact congrArg State.farSweep (foldl_keeps (· = u) _ (fun s site => s.drainAdvance site) u rfl fun i _ t ht => by
    rw [ht, drainAdvance_of_no_need fun d hmem => by rw [hnone i] at hmem; cases hmem])

end

end Sys2Proof.Proofs
end

section
/-! ### PCIE_LINK_DOWN, and the far accesses of the port (R287, R389 to R391) -/

namespace Sys2Proof.Proofs

open Sys2Proof Sys2Proof.Machine Sys2Proof.Safety

/-- The counter of a port's failed far accesses (R391). -/
def farFailCount (write : Bool) (port : Nat) : FRef := if write then Fld.FM_WR_FAIL_COUNT port else Fld.FM_RD_FAIL_COUNT port

section
variable {s t u : State} {n port : Nat} {m : Mem}

/-- With no far access there is nothing to sweep. -/
theorem farSweep_of_near (hw : ∀ w ∈ s.mem.wr, isFar (paOf w.line) = false) (hr : ∀ r ∈ s.mem.rd, isFar (paOf r.line) = false) : s.farSweep = s := by
  have hwr : s.mem.wr.filter (fun w => isFar (paOf w.line) && s.farStop w.port != 0) = [] :=
    List.filter_eq_nil_iff.mpr fun w hmem => by simp [hw w hmem]
  have hrd : s.mem.rd.filter (fun r => isFar (paOf r.line) && s.farStop r.port != 0) = [] :=
    List.filter_eq_nil_iff.mpr fun r hmem => by simp [hr r hmem]
  simp only [State.farSweep, hwr, hrd, List.foldl_nil]

theorem farFail_port (s : State) (line : Nat) (write : Bool) (n port cause : Nat) : ∃ r : Rec,
    s.farFail line write (some (n, port)) cause = ((s.count (pgPCIE n) (farFailCount write port)).record r).fire (srcPCIE n 7) := by
  cases write <;> exact ⟨_, rfl⟩

theorem noted_farFail (s : State) (line : Nat) (write : Bool) (n port cause : Nat) : Noted s (s.farFail line write (some (n, port)) cause) := by
  obtain ⟨r, hr⟩ := farFail_port s line write n port cause
  rw [hr]
  exact ((noted_put s _ _ _).trans (noted_record _ r)).trans (noted_fire _ _)

theorem farFail_regs (s : State) (line : Nat) (write : Bool) (n port cause : Nat) :
    (s.farFail line write (some (n, port)) cause).regs = (s.count (pgPCIE n) (farFailCount write port)).regs := by
  obtain ⟨r, hr⟩ := farFail_port s line write n port cause
  rw [hr, State.fire_regs, State.record_regs]

/-- From `s` to `t` one far access of the port fails: `m` is what memory then holds, and the failure is counted. -/
structure FarFailed (write : Bool) (n port : Nat) (m : Mem) (s t : State) : Prop where
  off : t.off = s.off
  pending : t.pending = s.pending
  time : t.time = s.time
  groups : t.groups = s.groups
  mem : t.mem = m
  counted : CountsOne s t (pgPCIE n) (farFailCount write port)
  regs : RegsOnly (fun q off => q = pgPCIE n ∧ off = (farFailCount write port).off) s t

/-- The access is taken from memory before its failure is counted. -/
theorem farFailed_farFail (hmem : u.mem = m) (hpre : u = { s with mem := u.mem, rop := u.rop }) (hp : port < 4) (line : Nat) (write : Bool)
    (n cause : Nat) : FarFailed write n port m s (u.farFail line write (some (n, port)) cause) := by
  obtain ⟨hlo, hoff⟩ : (farFailCount write port).lo + (farFailCount write port).width ≤ 32 ∧ (farFailCount write port).off < 0x10000 := by
    cases write <;> simp [farFailCount, Fld.FM_WR_FAIL_COUNT, Fld.FM_RD_FAIL_COUNT] <;> omega
  have hregs := farFail_regs u line write n port cause
  have hnoted := noted_farFail u line write n port cause
  have hsame : u.regs = s.regs := by rw [hpre]
  refine ⟨by rw [hnoted.off, hpre], by rw [hnoted.pending, hpre], by rw [hnoted.time, hpre], by rw [hnoted.groups, hpre], hnoted.mem.trans hmem, ?_,
    fun q off ho hw => ?_⟩
  · rw [CountsOne, get_of_regs hregs, get_count_same _ _ _ _ hlo, get_of_regs hsame]; rfl
  · have hput := regsOnly_put (W := fun q off => q = pgPCIE n ∧ off = (farFailCount write port).off) u (pgPCIE n)
      (min (u.get (pgPCIE n) (farFailCount write port) + 1) (2 ^ (farFailCount write port).width - 1)) (farFailCount write port) hoff ⟨rfl, rfl⟩
    rw [reg_of_regs hregs, ← reg_of_regs hsame]
    exact hput q off ho hw

/-- The write leaves memory; one of an operation is noted there. -/
def farWriteGone (s : State) (w : MemWr) : State :=
  let s := { s with mem := { s.mem with wr := s.mem.wr.erase w } }
  if w.rop then { s with rop := { s.rop with err := true } } else s

/-- A far write that fails is lost (R391). -/
theorem farFailed_write (s : State) (w : MemWr) (hp : port < 4) (hw : w.port = some (n, port)) (cause : Nat) :
    FarFailed true n port { s.mem with wr := s.mem.wr.erase w } s (s.farWriteFail w cause) := by
  have hgone : s.farWriteFail w cause = (farWriteGone s w).farFail w.line true (some (n, port)) cause := by rw [State.farWriteFail, hw]; rfl
  have hmem : (farWriteGone s w).mem = { s.mem with wr := s.mem.wr.erase w } := by unfold farWriteGone; dsimp only; split <;> rfl
  have hpre : farWriteGone s w = { s with mem := (farWriteGone s w).mem, rop := (farWriteGone s w).rop } := by
    unfold farWriteGone; dsimp only; split <;> rfl
  rw [hgone]
  exact farFailed_farFail hmem hpre hp _ _ _ _

/-- A far read that fails is delivered poisoned (R390). -/
theorem farFailed_read (s : State) (r : MemRd) (hp : port < 4) (hr : r.port = some (n, port)) (cause : Nat) :
    FarFailed false n port { s.mem with rd := s.mem.rd.erase r, ret := s.mem.ret ++ [⟨r, BitVec.allOnes 512, true, false⟩] } s
      (s.farReadFail r cause) := by
  have hreturn : s.farReadFail r cause = (s.memReturn r (BitVec.allOnes 512) true false).farFail r.line false (some (n, port)) cause := by
    rw [State.farReadFail, hr]
  have hpre : s.memReturn r (BitVec.allOnes 512) true false =
      { s with mem := (s.memReturn r (BitVec.allOnes 512) true false).mem, rop := (s.memReturn r (BitVec.allOnes 512) true false).rop } := rfl
  rw [hreturn]
  exact farFailed_farFail rfl hpre hp _ _ _ _

/-- A port of a group in service that is not up stops its far accesses. -/
theorem farStop_down (hdom : s.domOn (43 + n) = true) (hup : s.portUp n port = false) : s.farStop (some (n, port)) = 2 := by
  simp [State.farStop, hdom, hup]

/-- A failed far access changes neither the domain's state nor the port's. -/
theorem FarFailed.farStop {write : Bool} (h : FarFailed write n port m s t) (hn : n < 6) : t.farStop (some (n, port)) = s.farStop (some (n, port)) := by
  have hdom : t.domState (43 + n) = s.domState (43 + n) :=
    h.regs.get (by simp only [Fld.DOM_STAT_STATE]; omega) fun hw => by simp only [pgPWR, pgPCIE] at hw; omega
  have hon : t.domOn (43 + n) = s.domOn (43 + n) := by rw [State.domOn, State.domOn, hdom]
  unfold State.farStop
  dsimp only
  rw [hon, portUp_of_groups h.groups]

/-- The one far write and the one far read that wait on a port that is down fail. -/
theorem farSweep_fails {w : MemWr} {r : MemRd} (hn : n < 6) (hp : port < 4) (hstop : s.farStop (some (n, port)) = 2)
    (hwr : s.mem.wr = [w]) (hrd : s.mem.rd = [r]) (hw : isFar (paOf w.line) = true) (hr : isFar (paOf r.line) = true)
    (hwp : w.port = some (n, port)) (hrp : r.port = some (n, port)) :
    s.farSweep.off = s.off ∧ s.farSweep.pending = s.pending ∧ s.farSweep.time = s.time ∧
    s.farSweep.mem = { s.mem with wr := [], rd := [], ret := s.mem.ret ++ [⟨r, BitVec.allOnes 512, true, false⟩] } ∧
    CountsOne s s.farSweep (pgPCIE n) (Fld.FM_WR_FAIL_COUNT port) ∧ CountsOne s s.farSweep (pgPCIE n) (Fld.FM_RD_FAIL_COUNT port) := by
  have hwrite := farFailed_write s w hp hwp 2
  have hread := farFailed_read (s.farWriteFail w 2) r hp hrp 2
  have hwrites : s.mem.wr.filter (fun w => isFar (paOf w.line) && s.farStop w.port != 0) = [w] := by simp [hwr, hw, hwp, hstop]
  have hstop' := (hwrite.farStop hn).trans hstop
  have hreads : (s.farWriteFail w 2).mem.rd.filter (fun r => isFar (paOf r.line) && (s.farWriteFail w 2).farStop r.port != 0) = [r] := by
    simp [hwrite.mem, hrd, hr, hrp, hstop']
  have hsweep : s.farSweep = (s.farWriteFail w 2).farReadFail r 2 := by
    simp only [State.farSweep, hwrites, List.foldl_cons, List.foldl_nil, hwp, hstop, hreads, hrp, hstop']
  have hwkept : ((s.farWriteFail w 2).farReadFail r 2).get (pgPCIE n) (Fld.FM_WR_FAIL_COUNT port) =
      (s.farWriteFail w 2).get (pgPCIE n) (Fld.FM_WR_FAIL_COUNT port) :=
    hread.regs.get (by simp only [Fld.FM_WR_FAIL_COUNT]; omega) fun h => by simp [farFailCount, Fld.FM_WR_FAIL_COUNT, Fld.FM_RD_FAIL_COUNT] at h
  have hrkept : (s.farWriteFail w 2).get (pgPCIE n) (Fld.FM_RD_FAIL_COUNT port) = s.get (pgPCIE n) (Fld.FM_RD_FAIL_COUNT port) :=
    hwrite.regs.get (by simp only [Fld.FM_RD_FAIL_COUNT]; omega) fun h => by simp [farFailCount, Fld.FM_WR_FAIL_COUNT, Fld.FM_RD_FAIL_COUNT] at h
  rw [hsweep]
  refine ⟨hread.off.trans hwrite.off, hread.pending.trans hwrite.pending, hread.time.trans hwrite.time, ?_, ?_, ?_⟩
  · rw [hread.mem, hwrite.mem, hwr, hrd, List.erase_cons_head, List.erase_cons_head]
  · exact hwkept.trans hwrite.counted
  · have hcount := hread.counted
    rw [CountsOne, show farFailCount false port = Fld.FM_RD_FAIL_COUNT port from rfl, hrkept] at hcount
    exact hcount

/-! #### The link goes down -/

/-- What is left after PCIE_LINK_DOWN with no Drain in progress. -/
def linkDown (s : State) (n port : Nat) (dpc : Bool) : State :=
  (requestsEnded s n port).farSweep.fire (if dpc then srcPCIE n 3 else srcPCIE n 9)

theorem answers_linkDown {P : State → Prop} {dpc : Bool} (hr : Running s) (hd : ∀ i, (s.siteAt i).drains = [])
    (hoff : (requestsEnded s n port).farSweep.off = s.off) (hpend : (requestsEnded s n port).farSweep.pending = s.pending)
    (htime : (requestsEnded s n port).farSweep.time = s.time) (hP : P (linkDown s n port dpc)) : Answers (.pcieLinkDown n port dpc) s P := by
  have hc : exec (.pcieLinkDown n port dpc) s = execPcieLinkDown n port dpc s := rfl
  unfold execPcieLinkDown at hc
  refine answers_dom (t := linkDown s n port dpc) hc hr ?_ (by rw [linkDown, State.fire_off, hoff]) (by rw [linkDown, State.fire_pending, hpend])
    (by rw [linkDown, State.fire_time, htime]) hP
  rw [linkDown, portDown_sweeps hd]
  cases dpc with
  | false => rw [if_neg Bool.false_ne_true, if_neg Bool.false_ne_true]
  | true => rw [if_pos rfl, if_pos rfl]

/-- A link that goes down takes its port out of use, with all that the port holds. -/
theorem pcieLinkDown_ends {dpc : Bool} (hr : Running s) (hn : n < 6) (hd : ∀ i, (s.siteAt i).drains = [])
    (hwr : ∀ w ∈ s.mem.wr, isFar (paOf w.line) = false) (hrd : ∀ r ∈ s.mem.rd, isFar (paOf r.line) = false) :
    Answers (.pcieLinkDown n port dpc) s fun t =>
      t.portUp n port = false ∧ (∀ e ∈ (t.groupAt n).pw, e.1 ≠ port) ∧ (∀ f ∈ (t.groupAt n).flushes, f.port ≠ port) ∧
      (∀ q ∈ (t.groupAt n).nonp, q.port ≠ port ∨ q.cpl ≠ none) ∧
      t.get (pgPCIE n) Fld.PW_DISC_COUNT =
        min (s.get (pgPCIE n) Fld.PW_DISC_COUNT + ((s.groupAt n).pw.filter fun e => e.1 == port).length) (2 ^ 32 - 1) ∧
      (if dpc then srcPCIE n 3 else srcPCIE n 9) ∈ t.raised ∧ SameRegs [(pgPCIE n, Reg.PW_DISC)] s t ∧ SameMemory s t := by
  obtain ⟨hoff, hpend, htime, hmem, -, -⟩ := requestsEnded_kept (n := n) (port := port) hd
  obtain ⟨hup, hpw, hfl, hnp, hcount, hsame⟩ := requestsEnded_shows (port := port) s hn
  have hsweep : (requestsEnded s n port).farSweep = requestsEnded s n port := farSweep_of_near (by rwa [hmem]) (by rwa [hmem])
  refine answers_linkDown hr hd (by rw [hsweep, hoff]) (by rw [hsweep, hpend]) (by rw [hsweep, htime]) ?_
  rw [linkDown, hsweep]
  generalize requestsEnded s n port = u at hmem hup hpw hfl hnp hcount hsame
  exact ⟨hup, hpw, hfl, hnp, hcount, by simp, hsame, fun a => by rw [State.fire_mem, hmem]⟩

/-- The far accesses of the port fail, and each is counted (R389 to R391). -/
theorem pcieLinkDown_farFails {dpc : Bool} {w : MemWr} {r : MemRd} (hr : Running s) (hn : n < 6) (hp : port < 4)
    (hdom : s.domOn (43 + n) = true) (hd : ∀ i, (s.siteAt i).drains = []) (hwr : s.mem.wr = [w]) (hrd : s.mem.rd = [r])
    (hwf : isFar (paOf w.line) = true) (hrf : isFar (paOf r.line) = true) (hwp : w.port = some (n, port)) (hrp : r.port = some (n, port)) :
    Answers (.pcieLinkDown n port dpc) s fun t =>
      t.mem.wr = [] ∧ t.mem.rd = [] ∧ t.mem.ret = s.mem.ret ++ [⟨r, BitVec.allOnes 512, true, false⟩] ∧
      CountsOne s t (pgPCIE n) (Fld.FM_WR_FAIL_COUNT port) ∧ CountsOne s t (pgPCIE n) (Fld.FM_RD_FAIL_COUNT port) ∧ SameMemory s t := by
  obtain ⟨hoff, hpend, htime, hmem, -, -⟩ := requestsEnded_kept (n := n) (port := port) hd
  obtain ⟨hup, -, -, -, -, hsame⟩ := requestsEnded_shows (port := port) s hn
  have hget : ∀ (p : Nat) (f : FRef), f.off < 0x10000 → f.off ≠ Reg.PW_DISC ∨ p ≠ pgPCIE n → (requestsEnded s n port).get p f = s.get p f :=
    fun p f ho hne => get_of_sameRegs hsame ho (by simpa [imp_iff_not_or] using hne.symm)
  have hudom : (requestsEnded s n port).domOn (43 + n) = true := by
    simpa only [State.domOn, State.domState,
      hget pgPWR (Fld.DOM_STAT_STATE (43 + n)) (by simp only [Fld.DOM_STAT_STATE]; omega) (.inr (by simp only [pgPWR, pgPCIE]; omega))] using hdom
  obtain ⟨hvoff, hvpend, hvtime, hvmem, hvw, hvr⟩ := farSweep_fails (s := requestsEnded s n port) hn hp (farStop_down hudom hup)
    (by rw [hmem, hwr]) (by rw [hmem, hrd]) hwf hrf hwp hrp
  rw [hmem] at hvmem
  rw [CountsOne, hget _ _ (by simp only [Fld.FM_WR_FAIL_COUNT]; omega) (.inl (by simp only [Fld.FM_WR_FAIL_COUNT, Reg.PW_DISC]; omega))] at hvw
  rw [CountsOne, hget _ _ (by simp only [Fld.FM_RD_FAIL_COUNT]; omega) (.inl (by simp only [Fld.FM_RD_FAIL_COUNT, Reg.PW_DISC]; omega))] at hvr
  refine answers_linkDown hr hd (hvoff.trans hoff) (hvpend.trans hpend) (hvtime.trans htime) ?_
  have hmem' : (linkDown s n port dpc).mem = (requestsEnded s n port).farSweep.mem := by rw [linkDown, State.fire_mem]
  have hregs : (linkDown s n port dpc).regs = (requestsEnded s n port).farSweep.regs := by rw [linkDown, State.fire_regs]
  rw [hmem', hvmem]
  exact ⟨rfl, rfl, rfl, (get_of_regs hregs _ _).trans hvw, (get_of_regs hregs _ _).trans hvr, fun a => by rw [hmem', hvmem]⟩

end

end Sys2Proof.Proofs
end

section
/-! ### Drains and flushing reads (R280 to R288, R389) -/

namespace Sys2Proof.Proofs

open Sys2Proof Sys2Proof.Machine Sys2Proof.Safety

/-- Settles O19, a lemma per command: SITE's Drains as they begin and as they are answered, the flushing reads, and a port whose link changes. -/
theorem drainsAndFlushes : Obligations.DrainsAndFlushes := by
  unfold Obligations.DrainsAndFlushes
  refine ⟨⟨fun s p => drain_inProgress, fun s p => drain_covers, fun s p n blk addr => drain_flushRead,
      fun s site d rest hr hs hl hsrc hf hop => ⟨drainComplete_ok hr hs hl hsrc hf hop, fun f => drainComplete_err hr hs hl hsrc hf hop, fun hready => ?_⟩⟩,
    ⟨fun s n site addr f => flushReadComplete_ends,
      fun s n site addr f hr hn hs hl hsite haddr => ⟨flushReadTimeout_fails hr hn hs hl hsite haddr, flushReadTimeout_waits hr hl⟩,
      fun s n port dpc => pcieLinkDown_ends, fun s n port dpc w r => pcieLinkDown_farFails, fun s n port => pcieLinkUp_up⟩⟩
  exact answers_drainComplete hr (drainComplete_waits hl hready) rfl rfl rfl rfl

end Sys2Proof.Proofs
end

section
/-! ### What a slice does to the lines of a set (R317, R331, R345) -/

namespace Sys2Proof.Proofs

open Sys2Proof Sys2Proof.Machine Sys2Proof.Safety

/-- An effect of a clocked block that leaves the package on and the queue and TIME alone answers the state it leaves. -/
theorem answers_mem {c : Instr} {s t : State} {f : State → State} {P : State → Prop} (hc : exec c s = s.actMem f) (hr : Clocked s) (ht : f s = t)
    (hoff : t.off = s.off) (hpend : t.pending = s.pending) (htime : t.time = s.time) (hP : P t) : Answers c s P := by
  subst ht
  exact answers_settle (by rw [hc, actMem_on _ _ hr.1.1 hr.1.2 hr.2]) hr.1.1 hoff hpend htime hP

/-- The far-memory decoders are in registers of the PCIe groups. -/
theorem farDec_of_pcie {s t : State} (h : ∀ n off, off < 0x10000 → t.reg (pgPCIE n) off = s.reg (pgPCIE n) off) (a : Nat) : t.farDec a = s.farDec a := by
  have hget : ∀ (n : Nat) (f : FRef), f.off < 0x10000 → t.get (pgPCIE n) f = s.get (pgPCIE n) f := fun n f ho => by
    unfold State.get; rw [h n f.off ho]
  unfold State.farDec State.flag
  apply List.find?_congr
  intro e he
  have hp : e.2 < 4 := by simp at he; rcases he with ⟨_, h, rfl⟩ | ⟨_, h, rfl⟩ <;> simpa
  dsimp only
  rw [hget e.1 (Fld.FM_BASE_LO_BASE_LO e.2) (by simp only [Fld.FM_BASE_LO_BASE_LO]; omega),
    hget e.1 (Fld.FM_BASE_HI_BASE_HI e.2) (by simp only [Fld.FM_BASE_HI_BASE_HI]; omega),
    hget e.1 (Fld.FM_BASE_LO_EN e.2) (by simp only [Fld.FM_BASE_LO_EN]; omega), hget e.1 (Fld.FM_SIZE_SIZE e.2) (by simp only [Fld.FM_SIZE_SIZE]; omega)]

/-- The registers in which slice `h` shows and counts its errors. -/
abbrev sliceErrRegs (h : Nat) : List (Nat × Nat) := [(pgHRTH h, Reg.HRTH_SSTAT), (pgHRTH h, Reg.HRTH_ERR_CNT)]

/-- What slice `h` may change as it reads and writes its lines. Where its words hold no error (`clean`), it changes what it holds and what it
writes alone. -/
structure SliceStep (clean : Prop) (h : Nat) (s t : State) : Prop where
  rest : t = { s with
    regs := t.regs, recs := t.recs, raised := t.raised, ctr := t.ctr, rop := { s.rop with err := t.rop.err }, hearths := t.hearths
    mem := { s.mem with wr := t.mem.wr } }
  regs : SameRegs (sliceErrRegs h) s t
  writes : ∀ e ∈ s.mem.wr, e ∈ t.mem.wr
  err : s.rop.err = true → t.rop.err = true
  modes : ∀ k, (t.hearthAt k).mode = (s.hearthAt k).mode
  others : ∀ k, k ≠ h → t.hearthAt k = s.hearthAt k
  calm : clean → t = { s with hearths := t.hearths, mem := { s.mem with wr := t.mem.wr } }

section
variable {clean : Prop} {h : Nat} {s t u : State}

theorem SliceStep.refl (s : State) : SliceStep clean h s s :=
  ⟨rfl, sameRegs_refl _ _, fun _ => id, id, fun _ => rfl, fun _ _ => rfl, fun _ => rfl⟩

theorem SliceStep.trans (a : SliceStep clean h s t) (b : SliceStep clean h t u) : SliceStep clean h s u where
  rest := Eq.trans b.rest (by rw [a.rest])
  regs := sameRegs_mono (sameRegs_append a.regs b.regs) (by simp)
  writes e he := b.writes e (a.writes e he)
  err he := b.err (a.err he)
  modes k := (b.modes k).trans (a.modes k)
  others k hk := (b.others k hk).trans (a.others k hk)
  calm hc := Eq.trans (b.calm hc) (by rw [a.calm hc])

theorem SliceStep.time (a : SliceStep clean h s t) : t.time = s.time := by rw [a.rest]
theorem SliceStep.off (a : SliceStep clean h s t) : t.off = s.off := by rw [a.rest]
theorem SliceStep.pending (a : SliceStep clean h s t) : t.pending = s.pending := by rw [a.rest]
theorem SliceStep.cells (a : SliceStep clean h s t) : t.mem.cells = s.mem.cells := by rw [a.rest]

theorem SliceStep.farDec (a : SliceStep clean h s t) (hh : h < 64) (pa : Nat) : t.farDec pa = s.farDec pa :=
  farDec_of_pcie (fun n off ho => a.regs _ off ho (by simp [pgPCIE, pgHRTH]; omega)) pa

theorem SliceStep.hearthOffline (a : SliceStep clean h s t) (k : Nat) : t.hearthOffline k = s.hearthOffline k := by
  unfold State.hearthOffline
  rw [get_of_sameRegs a.regs (by decide) (by simp [Fld.HRTH_GSTAT_OFFLINE, Reg.HRTH_SSTAT, Reg.HRTH_ERR_CNT])]

theorem SliceStep.run {α : Type} (l : List α) (f : α → State → State) (s : State) (hf : ∀ a ∈ l, ∀ t, SliceStep clean h t (f a t)) :
    SliceStep clean h s (forAll l f s) :=
  forAll_keeps (SliceStep clean h s) l f s (.refl s) fun a ha t ht => ht.trans (hf a ha t)

/-- A change of what a slice holds. -/
theorem sliceStep_modHearth {f : Hearth → Hearth} (hf : ∀ x, (f x).mode = x.mode) (hh : h < 64) : SliceStep clean h s (s.modHearth h f) where
  rest := rfl
  regs := sameRegs_refl _ _
  writes _ := id
  err := id
  modes k := by
    by_cases hk : k = h
    · rw [hk, hearthAt_modHearth_same _ _ _ hh, hf]
    · rw [hearthAt_modHearth_ne _ _ hk]
  others k hk := hearthAt_modHearth_ne _ _ hk
  calm _ := rfl

theorem sliceStep_memWrite (l : Nat) (d : LineData) (psn rop : Bool) : SliceStep clean h s (s.memWrite l d psn rop) :=
  ⟨rfl, sameRegs_refl _ _, fun _ he => List.mem_append_left _ he, id, fun _ => rfl, fun _ _ => rfl, fun _ => rfl⟩

/-! #### Errors in the words read -/

theorem sameRegs_countStatus (s : State) (p src : Nat) (f g : FRef) (hf : f.off < 0x10000) (hg : g.off < 0x10000) :
    SameRegs [(p, f.off), (p, g.off)] s ((s.count p f).status p g src) :=
  sameRegs_append (sameRegs_put s p _ f hf) (sameRegs_put (s.count p f) p 1 g hg)

theorem hrthUe_noted (s : State) (l : Nat) : Noted s (s.hrthUe h l) :=
  ((noted_put s _ _ _).trans ((noted_put _ _ 1 _).trans (noted_fire _ _))).trans (noted_record _ _)

theorem hrthUe_regs (s : State) (l : Nat) :
    (s.hrthUe h l).regs = ((s.count (pgHRTH h) Fld.HRTH_ERR_CNT_UE).status (pgHRTH h) Fld.HRTH_SSTAT_UE (srcHRTH h 0)).regs := by
  unfold State.hrthUe State.recHearth
  rw [record_eq]

/-- What reading a line may change: the slice's errors, and the free values of a line that cannot be corrected. -/
theorem eccTake_rest (s : State) (h l : Nat) (d : LineData) (psn : Bool) (ecc : EccOutcome) : ∃ regs recs raised ctr,
    (s.eccTake h l d psn ecc).2.2 = { s with regs := regs, recs := recs, raised := raised, ctr := ctr } ∧
    SameRegs (sliceErrRegs h) s (s.eccTake h l d psn ecc).2.2 := by
  cases ecc with
  | clean => exact ⟨_, _, _, _, rfl, sameRegs_refl _ _⟩
  | corrected =>
    exact ⟨_, _, _, _, rfl, sameRegs_mono (sameRegs_countStatus s _ _ Fld.HRTH_ERR_CNT_CE Fld.HRTH_SSTAT_CE (by decide) (by decide)) (by simp; decide)⟩
  | uncorrectable =>
    obtain ⟨u, hu⟩ : ∃ u : State, u = { s with ctr := s.ctr + 1 } := ⟨_, rfl⟩
    have hread : (s.eccTake h l d psn .uncorrectable).2.2 = u.hrthUe h l := by rw [hu]; rfl
    have hsame : SameRegs (sliceErrRegs h) u (u.hrthUe h l) := fun p off ho hn => (reg_of_regs (hrthUe_regs u l) p off).trans
      (sameRegs_mono (sameRegs_countStatus u _ _ Fld.HRTH_ERR_CNT_UE Fld.HRTH_SSTAT_UE (by decide) (by decide)) (by simp; decide) p off ho hn)
    refine ⟨_, _, _, _, hread.trans (Eq.trans (hrthUe_noted u l) (by rw [hu])), fun p off ho hn => ?_⟩
    rw [hread, hsame p off ho hn, hu]
    rfl

theorem eccTake_hearths (s : State) (h l : Nat) (d : LineData) (psn : Bool) (ecc : EccOutcome) :
    (s.eccTake h l d psn ecc).2.2.hearths = s.hearths := by
  obtain ⟨_, _, _, _, he, -⟩ := eccTake_rest s h l d psn ecc
  rw [he]

theorem hearthAt_of_hearths (hh : t.hearths = s.hearths) (k : Nat) : t.hearthAt k = s.hearthAt k := by
  unfold State.hearthAt; rw [hh]

theorem waysAt_of_hearths (hh : t.hearths = s.hearths) (k set : Nat) : t.waysAt k set = s.waysAt k set := by
  unfold State.waysAt; rw [hearthAt_of_hearths hh]

theorem sliceStep_eccTake {l : Nat} {d : LineData} {psn : Bool} {ecc : EccOutcome} (hc : clean → ecc = .clean) :
    SliceStep clean h s (s.eccTake h l d psn ecc).2.2 where
  rest := by obtain ⟨_, _, _, _, he, -⟩ := eccTake_rest s h l d psn ecc; rw [he]
  regs := by obtain ⟨_, _, _, _, -, hr⟩ := eccTake_rest s h l d psn ecc; exact hr
  writes e hm := by obtain ⟨_, _, _, _, he, -⟩ := eccTake_rest s h l d psn ecc; rwa [he]
  err hr := by obtain ⟨_, _, _, _, he, -⟩ := eccTake_rest s h l d psn ecc; rwa [he]
  modes k := by rw [hearthAt_of_hearths (eccTake_hearths ..)]
  others k _ := hearthAt_of_hearths (eccTake_hearths ..) k
  calm h := by rw [hc h]; rfl

/-- A line whose errors are corrected is read as it was. -/
theorem eccTake_correct {ecc : EccOutcome} (he : ecc ≠ .uncorrectable) (s : State) (h l : Nat) (d : LineData) (psn : Bool) :
    (s.eccTake h l d psn ecc).1 = d ∧ (s.eccTake h l d psn ecc).2.1 = psn := by
  cases ecc with
  | clean => exact ⟨rfl, rfl⟩
  | corrected => exact ⟨rfl, rfl⟩
  | uncorrectable => exact absurd rfl he

/-! #### A line written to memory -/

/-- The state after a range operation has noted an uncorrectable error (R334). -/
def ropNoted (s : State) (rop : Bool) (ecc : EccOutcome) : State :=
  if rop && ecc == .uncorrectable then { s with rop := { s.rop with err := true } } else s

theorem writeOut_eq (s : State) (h l : Nat) (d : LineData) (psn : Bool) (ecc : EccOutcome) (rop : Bool) : s.writeOut h l d psn ecc rop =
    ((s.eccTake h l d psn ecc).1, (s.eccTake h l d psn ecc).2.1,
      (ropNoted (s.eccTake h l d psn ecc).2.2 rop ecc).memWrite l (s.eccTake h l d psn ecc).1 (s.eccTake h l d psn ecc).2.1 rop) := rfl

theorem sliceStep_ropNoted {rop : Bool} {ecc : EccOutcome} (hc : clean → ecc = .clean) : SliceStep clean h s (ropNoted s rop ecc) := by
  unfold ropNoted
  split
  · next he =>
    exact ⟨rfl, sameRegs_refl _ _, fun _ => id, fun _ => rfl, fun _ => rfl, fun _ _ => rfl, fun h => by simp [hc h] at he⟩
  · exact .refl s

theorem sliceStep_writeOut {l : Nat} {d : LineData} {psn : Bool} {ecc : EccOutcome} {rop : Bool} (hc : clean → ecc = .clean) :
    SliceStep clean h s (s.writeOut h l d psn ecc rop).2.2 :=
  ((sliceStep_eccTake hc).trans (sliceStep_ropNoted hc)).trans (sliceStep_memWrite ..)

theorem writeOut_hearths (s : State) (h l : Nat) (d : LineData) (psn : Bool) (ecc : EccOutcome) (rop : Bool) :
    (s.writeOut h l d psn ecc rop).2.2.hearths = s.hearths := by
  have hnoted : ∀ t : State, (ropNoted t rop ecc).hearths = t.hearths := fun t => by unfold ropNoted; split <;> rfl
  exact (hnoted _).trans (eccTake_hearths ..)

/-- The write that leaves for memory. -/
theorem writeOut_wr (hh : h < 64) (l : Nat) (d : LineData) (psn : Bool) (ecc : EccOutcome) (rop : Bool) :
    (s.writeOut h l d psn ecc rop).2.2.mem.wr = s.mem.wr ++
      [⟨l, (s.writeOut h l d psn ecc rop).1, (s.writeOut h l d psn ecc rop).2.1, rop, s.time, s.farDec (paOf l)⟩] := by
  have hstep : SliceStep False h s (ropNoted (s.eccTake h l d psn ecc).2.2 rop ecc) :=
    (sliceStep_eccTake (fun h => h.elim)).trans (sliceStep_ropNoted (fun h => h.elim))
  have hwr : (ropNoted (s.eccTake h l d psn ecc).2.2 rop ecc).mem = s.mem := by
    have hnoted : ∀ t : State, (ropNoted t rop ecc).mem = t.mem := fun t => by unfold ropNoted; split <;> rfl
    obtain ⟨_, _, _, _, he, -⟩ := eccTake_rest s h l d psn ecc
    rw [hnoted, he]
  rw [writeOut_eq]
  simp only [State.memWrite]
  rw [hwr, hstep.time, hstep.farDec hh]

/-- The line as it then stands: as it was, or poisoned where its words cannot be corrected. -/
theorem writeOut_correct {ecc : EccOutcome} (he : ecc ≠ .uncorrectable) (s : State) (h l : Nat) (d : LineData) (psn rop : Bool) :
    (s.writeOut h l d psn ecc rop).1 = d ∧ (s.writeOut h l d psn ecc rop).2.1 = psn := eccTake_correct he ..

end

end Sys2Proof.Proofs
end

section
/-! ### A set visited for a range operation (R324, R331, R332) -/

namespace Sys2Proof.Proofs

open Sys2Proof Sys2Proof.Machine Sys2Proof.Safety

/-- Way `i` of a set. -/
def wayAt (s : State) (h set i : Nat) : HWay := nthD (s.waysAt h set) i {}

/-- What a slice reads of a way that an operation visits, and the state after it: a line that the operation writes goes to memory. -/
def readWay (h op : Nat) (rop : Bool) (es : List (Nat × EccOutcome)) (w : HWay) (s : State) : LineData × Bool × State :=
  if (State.ropWay op w).2 then s.writeOut h w.line w.data w.psn (eccOf es w.line) rop else (w.data, w.psn, s)

/-- The way as an operation leaves it, with what was read of it. -/
def wayLeft (op : Nat) (w : HWay) (d : LineData) (psn : Bool) : HWay :=
  if (State.ropWay op w).1.valid then { (State.ropWay op w).1 with data := d, psn := psn } else (State.ropWay op w).1

/-- An operation visits way `i` of a set. -/
def visitWay (h set op : Nat) (rop : Bool) (es : List (Nat × EccOutcome)) (sel : Nat → Bool) (i : Nat) (s : State) : State :=
  let w := wayAt s h set i
  let r := readWay h op rop es w s
  if w.valid && sel w.line then r.2.2.setWays h set (modOf 16 {} (r.2.2.waysAt h set) i fun _ => wayLeft op w r.1 r.2.1) else s

/-- An operation visits an entry of the victim buffer. -/
def visitEntry (h set op : Nat) (rop : Bool) (es : List (Nat × EccOutcome)) (sel : Nat → Bool) (e : VbEntry) (s : State) : State :=
  if hearthSet s.quad (paOf e.line) == set && sel e.line then
    let r := if e.dirty && op != 1 then s.writeOut h e.line e.data e.psn (eccOf es e.line) rop else (e.data, e.psn, s)
    let vb := (r.2.2.hearthAt h).vb
    if op == 2 then r.2.2.setVb h (vb.map fun x => if x == e then { x with dirty := false, data := r.1, psn := r.2.1 } else x)
    else r.2.2.setVb h (vb.erase e)
  else s

theorem ropSet_eq (s : State) (h set op : Nat) (rop : Bool) (es : List (Nat × EccOutcome)) (sel : Nat → Bool) :
    s.ropSet h set op rop es sel = forAll ((forAll (List.range 16) (visitWay h set op rop es sel) s).hearthAt h).vb (visitEntry h set op rop es sel)
      (forAll (List.range 16) (visitWay h set op rop es sel) s) := rfl

section
variable {h set op i : Nat} {rop : Bool} {es : List (Nat × EccOutcome)} {sel : Nat → Bool} {s : State}

/-- No line that the operation writes has an error in its words. -/
abbrev NoErrors (es : List (Nat × EccOutcome)) : Prop := ∀ l, eccOf es l = .clean

theorem sliceStep_readWay (w : HWay) : SliceStep (NoErrors es) h s (readWay h op rop es w s).2.2 := by
  unfold readWay
  split
  · exact sliceStep_writeOut fun hc => hc _
  · exact .refl s

theorem readWay_waysAt (w : HWay) (k n : Nat) : (readWay h op rop es w s).2.2.waysAt k n = s.waysAt k n := by
  unfold readWay
  split
  · exact waysAt_of_hearths (writeOut_hearths ..) k n
  · rfl

theorem sliceStep_visitWay (hh : h < 64) : SliceStep (NoErrors es) h s (visitWay h set op rop es sel i s) := by
  unfold visitWay
  dsimp only
  split
  · exact (sliceStep_readWay _).trans (sliceStep_modHearth (fun _ => rfl) hh)
  · exact .refl s

theorem sliceStep_visitEntry (hh : h < 64) (e : VbEntry) : SliceStep (NoErrors es) h s (visitEntry h set op rop es sel e s) := by
  have hread : SliceStep (NoErrors es) h s (if e.dirty && op != 1 then s.writeOut h e.line e.data e.psn (eccOf es e.line) rop else (e.data, e.psn, s)).2.2 := by
    split
    · exact sliceStep_writeOut fun hc => hc _
    · exact .refl s
  unfold visitEntry
  dsimp only
  split
  · split <;> exact hread.trans (sliceStep_modHearth (fun _ => rfl) hh)
  · exact .refl s

theorem waysAt_setWays_same (hh : h < 64) (ws : List HWay) : (s.setWays h set ws).waysAt h set = ws := by
  unfold State.waysAt State.setWays
  rw [hearthAt_modHearth_same _ _ _ hh, Tab.getD_putD_same]

theorem waysAt_setVb (hh : h < 64) (vb : List VbEntry) (n : Nat) : (s.setVb h vb).waysAt h n = s.waysAt h n := by
  unfold State.waysAt State.setVb
  rw [hearthAt_modHearth_same _ _ _ hh]

/-- A way with no line of the range is passed over. -/
theorem visitWay_skip (hw : (wayAt s h set i).valid = false ∨ sel (wayAt s h set i).line = false) : visitWay h set op rop es sel i s = s := by
  unfold visitWay
  exact if_neg (by rcases hw with hw | hw <;> simp [hw])

theorem visitWay_take (hv : (wayAt s h set i).valid = true) (hs : sel (wayAt s h set i).line = true) : visitWay h set op rop es sel i s =
    let r := readWay h op rop es (wayAt s h set i) s
    r.2.2.setWays h set (modOf 16 {} (r.2.2.waysAt h set) i fun _ => wayLeft op (wayAt s h set i) r.1 r.2.1) := by
  unfold visitWay
  exact if_pos (by simp [hv, hs])

theorem wayAt_visitWay_same (hh : h < 64) (hi : i < 16) (hv : (wayAt s h set i).valid = true) (hs : sel (wayAt s h set i).line = true) :
    wayAt (visitWay h set op rop es sel i s) h set i =
      wayLeft op (wayAt s h set i) (readWay h op rop es (wayAt s h set i) s).1 (readWay h op rop es (wayAt s h set i) s).2.1 := by
  rw [visitWay_take hv hs, wayAt, waysAt_setWays_same hh, nthD_modOf_same _ _ _ _ _ hi]

theorem wayAt_visitWay_ne (hh : h < 64) {j : Nat} (hj : j ≠ i) : wayAt (visitWay h set op rop es sel i s) h set j = wayAt s h set j := by
  unfold visitWay
  dsimp only
  split
  · rw [wayAt, waysAt_setWays_same hh, nthD_modOf_ne _ _ _ _ hj, readWay_waysAt, wayAt]
  · rfl

theorem waysAt_visitEntry (hh : h < 64) (e : VbEntry) (n : Nat) : (visitEntry h set op rop es sel e s).waysAt h n = s.waysAt h n := by
  have hread : (if e.dirty && op != 1 then s.writeOut h e.line e.data e.psn (eccOf es e.line) rop else (e.data, e.psn, s)).2.2.waysAt h n = s.waysAt h n := by
    split
    · exact waysAt_of_hearths (writeOut_hearths ..) h n
    · rfl
  unfold visitEntry
  dsimp only
  split
  · split <;> rw [waysAt_setVb hh, hread]
  · rfl

theorem sliceStep_ropSet (hh : h < 64) : SliceStep (NoErrors es) h s (s.ropSet h set op rop es sel) := by
  rw [ropSet_eq]
  exact (SliceStep.run _ _ s fun i _ t => sliceStep_visitWay hh).trans (SliceStep.run _ _ _ fun e _ t => sliceStep_visitEntry hh e)

/-- A run over a list without way `i` leaves that way. -/
theorem wayAt_visits (hh : h < 64) {l : List Nat} (hl : i ∉ l) :
    wayAt (forAll l (visitWay h set op rop es sel) s) h set i = wayAt s h set i :=
  forAll_keeps (fun t => wayAt t h set i = wayAt s h set i) l _ s rfl fun j hj t ht =>
    (wayAt_visitWay_ne hh fun hij => hl (by rwa [hij])).trans ht

theorem wayAt_entries (hh : h < 64) (l : List VbEntry) :
    wayAt (forAll l (visitEntry h set op rop es sel) s) h set i = wayAt s h set i :=
  forAll_keeps (fun t => wayAt t h set i = wayAt s h set i) l _ s rfl fun e _ t ht => by rwa [wayAt, waysAt_visitEntry hh]

/-- Each way of a set is visited once, as it stood before the operation. -/
theorem ropSet_visits (hh : h < 64) (hi : i < 16) : ∃ u, SliceStep (NoErrors es) h s u ∧ wayAt u h set i = wayAt s h set i ∧
    SliceStep (NoErrors es) h (visitWay h set op rop es sel i u) (s.ropSet h set op rop es sel) ∧
    wayAt (s.ropSet h set op rop es sel) h set i = wayAt (visitWay h set op rop es sel i u) h set i := by
  obtain ⟨a, b, hab⟩ := List.append_of_mem (List.mem_range.mpr hi)
  have hnd : (a ++ i :: b).Nodup := hab ▸ List.nodup_range
  have ha : i ∉ a := fun hm => (List.nodup_append.mp hnd).2.2 i hm i (List.mem_cons_self ..) rfl
  have hb : i ∉ b := (List.nodup_cons.mp (List.nodup_append.mp hnd).2.1).1
  have hrun : forAll (List.range 16) (visitWay h set op rop es sel) s =
      forAll b (visitWay h set op rop es sel) (visitWay h set op rop es sel i (forAll a (visitWay h set op rop es sel) s)) := by
    rw [hab, forAll, List.foldl_append]; rfl
  refine ⟨forAll a (visitWay h set op rop es sel) s, .run _ _ s fun j _ t => sliceStep_visitWay hh, wayAt_visits hh ha, ?_, ?_⟩
  · rw [ropSet_eq, hrun]
    exact (SliceStep.run _ _ _ fun j _ t => sliceStep_visitWay hh).trans (.run _ _ _ fun e _ t => sliceStep_visitEntry hh e)
  · rw [ropSet_eq, hrun, wayAt_entries hh, wayAt_visits hh hb]

/-! #### What the visit of a set leaves of a way -/

theorem ropSet_skip (hh : h < 64) (hi : i < 16) (hw : (wayAt s h set i).valid = false ∨ sel (wayAt s h set i).line = false) :
    wayAt (s.ropSet h set op rop es sel) h set i = wayAt s h set i := by
  obtain ⟨u, -, hu, -, hlast⟩ := ropSet_visits (es := es) (sel := sel) (op := op) (rop := rop) (s := s) (set := set) hh hi
  rw [hlast, visitWay_skip (by rwa [hu]), hu]

/-- A line that the operation does not write. -/
theorem ropSet_unwritten (hh : h < 64) (hi : i < 16) (hv : (wayAt s h set i).valid = true) (hs : sel (wayAt s h set i).line = true)
    (hwr : (State.ropWay op (wayAt s h set i)).2 = false) :
    wayAt (s.ropSet h set op rop es sel) h set i = wayLeft op (wayAt s h set i) (wayAt s h set i).data (wayAt s h set i).psn := by
  obtain ⟨u, -, hu, -, hlast⟩ := ropSet_visits (es := es) (sel := sel) (op := op) (rop := rop) (s := s) (set := set) hh hi
  have hsame := wayAt_visitWay_same (rop := rop) (es := es) (op := op) hh hi (hu ▸ hv) (hu ▸ hs)
  rw [hlast, hsame, hu, readWay, if_neg (by simp [hwr])]

/-- A line that the operation writes: the way keeps what memory is sent, which is the line as it was or, where its words cannot be corrected,
poisoned. -/
theorem ropSet_written (hh : h < 64) (hi : i < 16) (hv : (wayAt s h set i).valid = true) (hs : sel (wayAt s h set i).line = true)
    (hwr : (State.ropWay op (wayAt s h set i)).2 = true) : ∃ d psn,
      wayAt (s.ropSet h set op rop es sel) h set i = wayLeft op (wayAt s h set i) d psn ∧
      ⟨(wayAt s h set i).line, d, psn, rop, s.time, s.farDec (paOf (wayAt s h set i).line)⟩ ∈ (s.ropSet h set op rop es sel).mem.wr ∧
      (eccOf es (wayAt s h set i).line ≠ .uncorrectable → d = (wayAt s h set i).data ∧ psn = (wayAt s h set i).psn) ∧
      (eccOf es (wayAt s h set i).line = .uncorrectable → psn = true ∧ (rop = true → (s.ropSet h set op rop es sel).rop.err = true)) := by
  obtain ⟨u, hsu, hu, htail, hlast⟩ := ropSet_visits (es := es) (sel := sel) (op := op) (rop := rop) (s := s) (set := set) hh hi
  have hread : readWay h op rop es (wayAt u h set i) u = u.writeOut h (wayAt s h set i).line (wayAt s h set i).data (wayAt s h set i).psn
      (eccOf es (wayAt s h set i).line) rop := by rw [readWay, hu, if_pos hwr]
  have hsame := wayAt_visitWay_same (rop := rop) (es := es) (op := op) hh hi (hu ▸ hv) (hu ▸ hs)
  have htake := visitWay_take (rop := rop) (es := es) (op := op) (hu ▸ hv) (hu ▸ hs)
  rw [hread] at hsame htake
  refine ⟨_, _, hlast.trans (by rw [hsame, hu]), htail.writes _ ?_, fun he => writeOut_correct he .., fun he => ?_⟩
  · rw [htake]
    change _ ∈ (u.writeOut h _ _ _ _ rop).2.2.mem.wr
    rw [writeOut_wr hh, ← hsu.time, ← hsu.farDec hh]
    simp
  · rw [he] at htake ⊢
    refine ⟨rfl, fun hr => htail.err ?_⟩
    rw [htake, hr]
    rfl

/-! #### The operations of R331 on a way -/

theorem wayLeft_clean (w : HWay) (d : LineData) (psn : Bool) (hv : w.valid = true) :
    wayLeft 2 w d psn = { w with dirty := false, data := d, psn := psn } := by
  simp [wayLeft, State.ropWay, hv]

/-- A line that an operation other than CLEAN visits leaves its way, which stays reserved for it where it was locked. -/
theorem wayLeft_invalidate {w : HWay} {d : LineData} {psn : Bool} (hop : op ≠ 2) :
    (wayLeft op w d psn).valid = false ∧ (wayLeft op w d psn).dirty = false ∧ (wayLeft op w d psn).line = w.line ∧
    (w.lock = .none → (wayLeft op w d psn).lock = .none) ∧ (∀ r, w.lock = .locked r → (wayLeft op w d psn).lock = .reserved r w.line) := by
  cases hl : w.lock <;> by_cases h1 : op = 1 <;> simp [wayLeft, State.ropWay, State.releaseLocked, hl, h1]

/-- Every operation writes the dirty lines it visits, but INVALIDATE those of unlocked ways. -/
theorem ropWay_writes (op : Nat) (w : HWay) : (State.ropWay op w).2 = true ↔ w.dirty = true ∧ (op ≠ 1 ∨ ∃ r, w.lock = .locked r) := by
  cases hl : w.lock <;> by_cases h1 : op = 1 <;> by_cases h2 : op = 2 <;> simp_all [State.ropWay]

end

end Sys2Proof.Proofs
end

section
/-! ### Range operations as they start and end (R331 to R335) -/

namespace Sys2Proof.Proofs

open Sys2Proof Sys2Proof.Machine Sys2Proof.Safety

theorem flag_put_same (s : State) (p v : Nat) (f : FRef) (hw : f.width = 1) (hf : f.lo < 32) : (s.put p f v).flag p f = (v % 2 == 1) := by
  unfold State.flag
  rw [get_put_same _ _ _ _ (by omega), hw, Nat.pow_one]

theorem flag_put_beside (s : State) (p v : Nat) (f g : FRef) (ho : g.off = f.off) (hg : g.lo + g.width ≤ 32)
    (h : g.lo + g.width ≤ f.lo ∨ f.lo + f.width ≤ g.lo) : (s.put p f v).flag p g = s.flag p g := by
  unfold State.flag
  rw [get_put_beside _ _ _ _ _ ho hg h]

theorem pageAddr_of_sameRegs {l : List (Nat × Nat)} {s t : State} (h : SameRegs l s t) {p lo hi : Nat} (hlo : lo < 0x10000) (hhi : hi < 0x10000)
    (hl : (p, lo) ∉ l) (hl' : (p, hi) ∉ l) : t.pageAddr p lo hi = s.pageAddr p lo hi := by
  unfold State.pageAddr
  rw [h p lo hlo hl, h p hi hhi hl']

section
variable {s : State} {op : Nat}

/-- The first and last address of the range that the registers give. -/
abbrev ropFirst (s : State) : Nat := s.pageAddr (pgHRTH 0) Reg.ROP_BASE_LO Reg.ROP_BASE_HI
abbrev ropLast (s : State) : Nat := s.pageAddr (pgHRTH 0) Reg.ROP_LIMIT_LO Reg.ROP_LIMIT_HI + 0xFFF

/-- The range lies in near memory or in far memory, in order (R334). -/
abbrev RopGood (s : State) : Prop := ropFirst s ≤ ropLast s ∧
  ((isNear (ropFirst s) = true ∧ isNear (ropLast s) = true) ∨ (isFar (ropFirst s) = true ∧ isFar (ropLast s) = true))

/-- The registers that a range operation writes. -/
abbrev ropRegs : List (Nat × Nat) := [(pgHRTH 0, Reg.ROP_STAT)]

theorem sameRegs_ropStat (s : State) (v : Nat) {f : FRef} (hf : f.off = Reg.ROP_STAT) : SameRegs ropRegs s (s.put (pgHRTH 0) f v) := by
  have h := sameRegs_put s (pgHRTH 0) v f (by rw [hf]; decide)
  rwa [hf] at h

theorem sameRegs_again {l : List (Nat × Nat)} {s t u : State} (h : SameRegs l s t) (k : SameRegs l t u) : SameRegs l s u :=
  sameRegs_mono (sameRegs_append h k) (by simp)

/-- The state in which ROP_STAT shows operation `op` running. -/
def ropShown (s : State) (op : Nat) : State :=
  ((s.put (pgHRTH 0) Fld.ROP_STAT_BUSY 1).put (pgHRTH 0) Fld.ROP_STAT_DONE 0).put (pgHRTH 0) Fld.ROP_STAT_OP op

theorem ropShown_same (s : State) (op : Nat) : SameRegs ropRegs s (ropShown s op) :=
  sameRegs_again (sameRegs_again (sameRegs_ropStat s 1 (f := Fld.ROP_STAT_BUSY) rfl) (sameRegs_ropStat _ 0 (f := Fld.ROP_STAT_DONE) rfl))
    (sameRegs_ropStat _ op (f := Fld.ROP_STAT_OP) rfl)

theorem ropShown_eq (s : State) (op : Nat) : ropShown s op = { s with regs := (ropShown s op).regs } := rfl

theorem ropShown_shows (hop : op ≤ 4) : (ropShown s op).flag (pgHRTH 0) Fld.ROP_STAT_BUSY = true ∧
    (ropShown s op).flag (pgHRTH 0) Fld.ROP_STAT_DONE = false ∧ (ropShown s op).get (pgHRTH 0) Fld.ROP_STAT_OP = op := by
  unfold ropShown
  refine ⟨?_, ?_, ?_⟩
  · rw [flag_put_beside _ _ _ Fld.ROP_STAT_OP Fld.ROP_STAT_BUSY rfl (by decide) (by decide),
      flag_put_beside _ _ _ Fld.ROP_STAT_DONE Fld.ROP_STAT_BUSY rfl (by decide) (by decide), flag_put_same _ _ _ _ rfl (by decide)]
    rfl
  · rw [flag_put_beside _ _ _ Fld.ROP_STAT_OP Fld.ROP_STAT_DONE rfl (by decide) (by decide), flag_put_same _ _ _ _ rfl (by decide)]
    rfl
  · rw [get_put_same _ _ _ _ (by decide)]
    exact Nat.mod_eq_of_lt (Nat.lt_of_le_of_lt hop (by decide))

theorem ropShown_range (s : State) (op : Nat) : ropFirst (ropShown s op) = ropFirst s ∧ ropLast (ropShown s op) = ropLast s :=
  ⟨pageAddr_of_sameRegs (ropShown_same s op) (by decide) (by decide) (by decide) (by decide),
    congrArg (· + 0xFFF) (pageAddr_of_sameRegs (ropShown_same s op) (by decide) (by decide) (by decide) (by decide))⟩

theorem ropStart_begins (hb : s.flag (pgHRTH 0) Fld.ROP_STAT_BUSY = false) (h1 : 1 ≤ op) (h4 : op ≤ 4) (hrange : op = 4 ∨ RopGood s) :
    s.ropStart op = { ropShown s op with
      rop := { op := op, base := ropFirst s, limit := ropLast s, err := false }, hearths := s.hearths.map fun x => { x with ropSet := 0 } } := by
  obtain ⟨hfirst, hlast⟩ := ropShown_range s op
  have hbad : ¬ (op != 4 && (decide (ropLast s < ropFirst s) ||
      !((isNear (ropFirst s) && isNear (ropLast s)) || (isFar (ropFirst s) && isFar (ropLast s))))) = true := by
    rcases hrange with rfl | ⟨hle, hin⟩
    · simp
    · rcases hin with ⟨ha, hb⟩ | ⟨ha, hb⟩ <;> simp [ha, hb, hle]
  unfold State.ropStart
  dsimp only
  rw [if_neg (by simp [hb]), ← ropShown, if_neg (by simp; omega), ← ropFirst, ← ropLast, hfirst, hlast, if_neg hbad]
  rfl

theorem ropStart_bad (hb : s.flag (pgHRTH 0) Fld.ROP_STAT_BUSY = false) (h1 : 1 ≤ op) (h4 : op < 4) (hrange : ¬ RopGood s) :
    s.ropStart op = (ropShown s op).ropEnd 1 := by
  obtain ⟨hfirst, hlast⟩ := ropShown_range s op
  have hbad : (op != 4 && (decide (ropLast s < ropFirst s) || !((isNear (ropFirst s) && isNear (ropLast s)) || (isFar (ropFirst s) && isFar (ropLast s))))) =
      true := by
    simp only [RopGood, not_and_or, not_or, Bool.not_eq_true, not_le] at hrange
    rcases hrange with hlt | ⟨hn, hf⟩
    · simp [hlt]; omega
    · rcases hn with hn | hn <;> rcases hf with hf | hf <;> simp [hn, hf] <;> omega
  unfold State.ropStart
  dsimp only
  rw [if_neg (by simp [hb]), ← ropShown, if_neg (by simp; omega), ← ropFirst, ← ropLast, hfirst, hlast, if_pos hbad]

theorem ropStart_overlaps (hb : s.flag (pgHRTH 0) Fld.ROP_STAT_BUSY = true) : s.ropStart op = s.raise1 (pgHRTH 0) Fld.ROP_STAT_OVERLAP := by
  unfold State.ropStart
  exact if_pos hb

theorem Noted.rest {s t : State} (h : Noted s t) (hr : t.recs = s.recs) : t = { s with regs := t.regs, raised := t.raised } := by
  rwa [Noted, hr] at h

theorem ropEnd_noted (s : State) (status : Nat) : Noted s (s.ropEnd status) := by
  unfold State.ropEnd State.bumpMod
  exact ((((noted_put s _ _ _).trans (noted_put _ _ _ _)).trans (noted_put _ _ _ _)).trans (noted_put _ _ _ _)).trans (noted_fire _ _)

theorem ropEnd_raised (s : State) (status : Nat) : (s.ropEnd status).raised = s.raised ++ [srcWide 0] := by
  rw [State.ropEnd, State.fire_raised, State.bumpMod_raised, State.put_raised, State.put_raised, State.put_raised]

theorem ropEnd_recs (s : State) (status : Nat) : (s.ropEnd status).recs = s.recs := by
  rw [State.ropEnd, State.fire_recs, State.bumpMod_recs, State.put_recs, State.put_recs, State.put_recs]

/-- An operation that ends shows its result. -/
theorem ropEnd_shows (s : State) {status : Nat} (hs : status < 8) : (s.ropEnd status).flag (pgHRTH 0) Fld.ROP_STAT_BUSY = false ∧
    (s.ropEnd status).flag (pgHRTH 0) Fld.ROP_STAT_DONE = true ∧ (s.ropEnd status).get (pgHRTH 0) Fld.ROP_STAT_STATUS = status ∧
    SameRegs ropRegs s (s.ropEnd status) := by
  obtain ⟨u, hu⟩ : ∃ u : State, u = ((s.put (pgHRTH 0) Fld.ROP_STAT_STATUS status).put (pgHRTH 0) Fld.ROP_STAT_BUSY 0).put (pgHRTH 0) Fld.ROP_STAT_DONE 1 :=
    ⟨_, rfl⟩
  have hregs : (s.ropEnd status).regs = (u.bumpMod (pgHRTH 0) Fld.ROP_STAT_SEQ).regs := by
    rw [hu, State.ropEnd, State.fire_regs]
  have hflag : ∀ f : FRef, f.off = Reg.ROP_STAT → f.lo + f.width ≤ 24 → (s.ropEnd status).get (pgHRTH 0) f = u.get (pgHRTH 0) f := fun f ho hf => by
    rw [get_of_regs hregs, State.bumpMod, get_put_beside _ _ _ _ _ ho (by omega) (.inl hf)]
  refine ⟨?_, ?_, ?_, ?_⟩
  · rw [State.flag, hflag _ rfl (by decide), hu, ← State.flag, flag_put_beside _ _ _ Fld.ROP_STAT_DONE Fld.ROP_STAT_BUSY rfl (by decide) (by decide),
      flag_put_same _ _ _ _ rfl (by decide)]
    rfl
  · rw [State.flag, hflag _ rfl (by decide), hu, ← State.flag, flag_put_same _ _ _ _ rfl (by decide)]
    rfl
  · rw [hflag _ rfl (by decide), hu, get_put_beside _ _ _ Fld.ROP_STAT_DONE Fld.ROP_STAT_STATUS rfl (by decide) (by decide),
      get_put_beside _ _ _ Fld.ROP_STAT_BUSY Fld.ROP_STAT_STATUS rfl (by decide) (by decide), get_put_same _ _ _ _ (by decide)]
    exact Nat.mod_eq_of_lt hs
  · have hsame : SameRegs ropRegs s u := by
      rw [hu]
      exact sameRegs_again (sameRegs_again (sameRegs_ropStat s _ (f := Fld.ROP_STAT_STATUS) rfl) (sameRegs_ropStat _ 0 (f := Fld.ROP_STAT_BUSY) rfl))
        (sameRegs_ropStat _ 1 (f := Fld.ROP_STAT_DONE) rfl)
    exact fun p off ho hn => (reg_of_regs hregs p off).trans
      (sameRegs_again hsame (sameRegs_ropStat u _ (f := Fld.ROP_STAT_SEQ) rfl) p off ho hn)

theorem Noted.rop {s t : State} (h : Noted s t) : t.rop = s.rop := by rw [h]

/-- The state in which ROP_STAT shows the running operation's result. -/
def ropResult (s : State) : State := s.ropEnd (if s.rop.err then 3 else 0)

theorem ropResult_noted (s : State) : Noted s (ropResult s) := ropEnd_noted s _

/-- A range operation completes (R332, R334, R338). -/
def ropCompleted (s : State) : State :=
  if s.rop.op == 4 && !s.rop.err then (ropResult s).put (pgHRTH 0) Fld.HRTH_GSTAT_STALE_RISK 0 else ropResult s

theorem execRopComplete_done (hb : s.flag (pgHRTH 0) Fld.ROP_STAT_BUSY = true) (hd : s.onlineSlices.all (fun h => (s.hearthAt h).ropSet == 8192) = true)
    (hw : s.mem.wr.all (fun w => !w.rop || isNear (paOf w.line)) = true) (hr : Clocked s) :
    execRopComplete s = .next (s.settle (ropCompleted s)) := by
  unfold execRopComplete
  rw [actMem_on _ _ hr.1.1 hr.1.2 hr.2]
  simp only [hb, hd, hw, Bool.and_self, if_true]
  rw [← ropResult, (ropResult_noted s).rop, ropCompleted]

end

end Sys2Proof.Proofs
end

section
/-! ### Range operations, their visits and the victim buffer (R317, R331 to R338) -/

namespace Sys2Proof.Proofs

open Sys2Proof Sys2Proof.Machine Sys2Proof.Safety

section
variable {s : State} {op h set i : Nat} {c : Instr} {es : List (Nat × EccOutcome)}

/-! #### Start and end -/

theorem ropBegun_rest {u : State} (hu : u = { s with regs := u.regs }) (rop : Rop) (hearths : List Hearth) :
    { u with rop := rop, hearths := hearths } = { s with regs := u.regs, rop := rop, hearths := hearths } := by rw [hu]

theorem rop_begins (hr : Clocked s) (hc : exec c s = s.actMem (·.ropStart op)) (h1 : 1 ≤ op) (h4 : op ≤ 4)
    (hb : ¬ s.flag (pgHRTH 0) Fld.ROP_STAT_BUSY = true) (hg : op = 4 ∨ RopGood s) : Answers c s fun t =>
      t.flag (pgHRTH 0) Fld.ROP_STAT_BUSY = true ∧ t.flag (pgHRTH 0) Fld.ROP_STAT_DONE = false ∧
      t.get (pgHRTH 0) Fld.ROP_STAT_OP = op ∧ t.rop = { op := op, base := ropFirst s, limit := ropLast s, err := false } ∧ SameRegs ropRegs s t ∧
      t = { s with regs := t.regs, rop := t.rop, hearths := s.hearths.map fun x => { x with ropSet := 0 } } := by
  refine answers_mem hc hr (ropStart_begins (by simpa using hb) h1 h4 hg) rfl rfl rfl ?_
  obtain ⟨hbusy, hdone, hop⟩ := ropShown_shows (s := s) h4
  exact ⟨(flag_of_regs rfl _ _).trans hbusy, (flag_of_regs rfl _ _).trans hdone, (get_of_regs rfl _ _).trans hop, rfl,
    fun p off ho hn => (reg_of_regs rfl p off).trans (ropShown_same s op p off ho hn), ropBegun_rest (ropShown_eq s op) _ _⟩

theorem rop_badRange (hr : Clocked s) (hc : exec c s = s.actMem (·.ropStart op)) (h1 : 1 ≤ op) (h4 : op ≤ 4)
    (hb : ¬ s.flag (pgHRTH 0) Fld.ROP_STAT_BUSY = true) (hop : op ≠ 4) (hg : ¬ RopGood s) : Answers c s fun t =>
      t.flag (pgHRTH 0) Fld.ROP_STAT_BUSY = false ∧ t.flag (pgHRTH 0) Fld.ROP_STAT_DONE = true ∧ t.get (pgHRTH 0) Fld.ROP_STAT_STATUS = 1 ∧
      t.raised = s.raised ++ [srcWide 0] ∧ SameRegs ropRegs s t ∧ t = { s with regs := t.regs, raised := t.raised } := by
  have hn : Noted s ((ropShown s op).ropEnd 1) := Noted.trans (ropShown_eq s op) (ropEnd_noted _ 1)
  obtain ⟨hbusy, hdone, hstat, hsame⟩ := ropEnd_shows (ropShown s op) (status := 1) (by decide)
  exact answers_mem hc hr (ropStart_bad (by simpa using hb) h1 (by omega) hg) hn.off hn.pending hn.time
    ⟨hbusy, hdone, hstat, ropEnd_raised _ 1, sameRegs_again (ropShown_same s op) hsame, hn.rest (ropEnd_recs _ 1)⟩

theorem rop_overlaps (hr : Clocked s) (hc : exec c s = s.actMem (·.ropStart op)) (hb : s.flag (pgHRTH 0) Fld.ROP_STAT_BUSY = true) :
    Answers c s fun t => t.flag (pgHRTH 0) Fld.ROP_STAT_OVERLAP = true ∧ t.flag (pgHRTH 0) Fld.ROP_STAT_BUSY = true ∧ SameRegs ropRegs s t ∧
      t = { s with regs := t.regs } :=
  answers_mem hc hr (ropStart_overlaps hb) rfl rfl rfl
    ⟨flag_raise1_same _ _ _ rfl (by decide), (flag_put_beside _ _ _ Fld.ROP_STAT_OVERLAP Fld.ROP_STAT_BUSY rfl (by decide) (by decide)).trans hb,
      sameRegs_ropStat s 1 (f := Fld.ROP_STAT_OVERLAP) rfl, rfl⟩

/-- The registers that a range operation writes as it completes. -/
abbrev ropEndRegs : List (Nat × Nat) := [(pgHRTH 0, Reg.ROP_STAT), (pgHRTH 0, Reg.HRTH_GSTAT)]

theorem ropComplete_ends (hr : Clocked s) (hb : s.flag (pgHRTH 0) Fld.ROP_STAT_BUSY = true)
    (hd : ∀ h, h < 64 → s.hearthOffline h = false → (s.hearthAt h).ropSet = 8192)
    (hw : ∀ w ∈ s.mem.wr, w.rop = true → isNear (paOf w.line) = true) : Answers .ropComplete s fun t =>
      t.flag (pgHRTH 0) Fld.ROP_STAT_BUSY = false ∧ t.flag (pgHRTH 0) Fld.ROP_STAT_DONE = true ∧
      t.get (pgHRTH 0) Fld.ROP_STAT_STATUS = (if s.rop.err then 3 else 0) ∧ t.raised = s.raised ++ [srcWide 0] ∧
      (s.rop.op = 4 → s.rop.err = false → t.flag (pgHRTH 0) Fld.HRTH_GSTAT_STALE_RISK = false) ∧
      SameRegs ropEndRegs s t ∧ t = { s with regs := t.regs, raised := t.raised } := by
  have hdone : s.onlineSlices.all (fun h => (s.hearthAt h).ropSet == 8192) = true := by
    simp only [State.onlineSlices, List.all_filter, List.all_eq_true, List.mem_range]
    intro k hk
    cases ho : s.hearthOffline k <;> simp [hd k hk, ho]
  have hnear : s.mem.wr.all (fun w => !w.rop || isNear (paOf w.line)) = true := by
    simp only [List.all_eq_true]
    intro w hm
    cases hrop : w.rop <;> simp [hw w hm, hrop]
  have hn := ropResult_noted s
  have hrecs : (ropResult s).recs = s.recs := ropEnd_recs s _
  have hraised : (ropResult s).raised = s.raised ++ [srcWide 0] := ropEnd_raised s _
  obtain ⟨hbusy, hend, hstat, hsame⟩ := ropEnd_shows s (status := if s.rop.err then 3 else 0) (by split <;> decide)
  have hexec : exec .ropComplete s = .next (s.settle (ropCompleted s)) := execRopComplete_done hb hdone hnear hr
  rw [ropCompleted] at hexec
  rw [← ropResult] at hbusy hend hstat hsame
  generalize ropResult s = u at *
  have hput : ∀ f : FRef, f.off = Reg.ROP_STAT → (u.put (pgHRTH 0) Fld.HRTH_GSTAT_STALE_RISK 0).get (pgHRTH 0) f = u.get (pgHRTH 0) f := fun f ho =>
    get_of_sameRegs (sameRegs_put u _ _ _ (by decide)) (by rw [ho]; decide) (by rw [ho]; decide)
  by_cases hstale : (s.rop.op == 4 && !s.rop.err) = true
  · rw [if_pos hstale] at hexec
    have hn' : Noted s (u.put (pgHRTH 0) Fld.HRTH_GSTAT_STALE_RISK 0) := hn.trans (noted_put ..)
    refine answers_settle hexec hr.1.1 hn'.off hn'.pending hn'.time ⟨?_, ?_, ?_, ?_, fun _ _ => ?_, ?_, hn'.rest ((State.put_recs ..).trans hrecs)⟩
    · rw [State.flag, hput _ rfl]; exact hbusy
    · rw [State.flag, hput _ rfl]; exact hend
    · rw [hput _ rfl]; exact hstat
    · rw [State.put_raised]; exact hraised
    · rw [flag_put_same _ _ _ _ rfl (by decide)]; rfl
    · exact sameRegs_append hsame (sameRegs_put u (pgHRTH 0) 0 Fld.HRTH_GSTAT_STALE_RISK (by decide))
  · rw [if_neg hstale] at hexec
    exact answers_settle hexec hr.1.1 hn.off hn.pending hn.time ⟨hbusy, hend, hstat, hraised,
      fun h4 he => absurd (by simp [h4, he]) hstale, sameRegs_mono hsame (by simp), hn.rest hrecs⟩

end

end Sys2Proof.Proofs
end

section
/-! ### Visits, the victim buffer and cleaning (R317, R324, R331, R336 to R338, R345) -/

namespace Sys2Proof.Proofs

open Sys2Proof Sys2Proof.Machine Sys2Proof.Safety

section
variable {s : State} {op h set i : Nat} {es : List (Nat × EccOutcome)}

theorem sameButCounters_of_sameRegs {l : List (Nat × Nat)} {t : State} (hs : SameRegs l s t) : SameButCounters l s t :=
  fun p off ho _ hl => hs p off ho hl

theorem SliceStep.sameMemory {clean : Prop} {t : State} (a : SliceStep clean h s t) : SameMemory s t := fun _ => by rw [a.cells]

theorem SliceStep.calm_regs {clean : Prop} {t : State} (a : SliceStep clean h s t) (hc : clean) : t.regs = s.regs := by rw [a.calm hc]

/-- An operation leaves a line's way as it was read; a line that it writes goes to memory as it was or, where its words cannot be corrected,
poisoned. -/
theorem ropSet_left (rop : Bool) (sel : Nat → Bool) (es : List (Nat × EccOutcome)) (hh : h < 64) (hi : i < 16)
    (hv : (wayAt s h set i).valid = true) (hs : sel (wayAt s h set i).line = true) : ∃ d psn,
      wayAt (s.ropSet h set op rop es sel) h set i = wayLeft op (wayAt s h set i) d psn ∧
      ((State.ropWay op (wayAt s h set i)).2 = false ∨ eccOf es (wayAt s h set i).line ≠ .uncorrectable →
        d = (wayAt s h set i).data ∧ psn = (wayAt s h set i).psn) ∧
      ((State.ropWay op (wayAt s h set i)).2 = true →
        ⟨(wayAt s h set i).line, d, psn, rop, s.time, s.farDec (paOf (wayAt s h set i).line)⟩ ∈ (s.ropSet h set op rop es sel).mem.wr ∧
        (eccOf es (wayAt s h set i).line = .uncorrectable → psn = true ∧ (rop = true → (s.ropSet h set op rop es sel).rop.err = true))) := by
  cases hwr : (State.ropWay op (wayAt s h set i)).2 with
  | false => exact ⟨_, _, ropSet_unwritten hh hi hv hs hwr, fun _ => ⟨rfl, rfl⟩, fun h => by simp at h⟩
  | true =>
    obtain ⟨d, psn, hway, hmem, hread, hbad⟩ := ropSet_written (rop := rop) (es := es) hh hi hv hs hwr
    exact ⟨d, psn, hway, fun h => hread (h.resolve_left (by simp)), fun _ => ⟨hmem, hbad⟩⟩

/-! #### A visit for a range operation -/

/-- The slice's visit of its next set. -/
def setVisited (s : State) (h : Nat) (es : List (Nat × EccOutcome)) : State :=
  (s.ropSet h (s.hearthAt h).ropSet s.rop.op true es s.inRop).modHearth h fun x => { x with ropSet := (s.hearthAt h).ropSet + 1 }

theorem sliceStep_setVisited (hh : h < 64) : SliceStep (NoErrors es) h s (setVisited s h es) :=
  (sliceStep_ropSet hh).trans (sliceStep_modHearth (fun _ => rfl) hh)

theorem wayAt_setVisited (hh : h < 64) :
    wayAt (setVisited s h es) h set i = wayAt (s.ropSet h (s.hearthAt h).ropSet s.rop.op true es s.inRop) h set i := by
  unfold wayAt State.waysAt setVisited
  rw [hearthAt_modHearth_same _ _ _ hh]

theorem setVisited_next (hh : h < 64) : ((setVisited s h es).hearthAt h).ropSet = (s.hearthAt h).ropSet + 1 := by
  rw [setVisited, hearthAt_modHearth_same _ _ _ hh]

theorem answers_ropSetVisit {P : State → Prop} (hr : Clocked s) (hh : h < 64) (hb : s.flag (pgHRTH 0) Fld.ROP_STAT_BUSY = true)
    (hoff : s.hearthOffline h = false) (hn : (s.hearthAt h).ropSet < 8192) (hP : P (setVisited s h es)) : Answers (.ropSetVisit h es) s P := by
  have hstep : SliceStep (NoErrors es) h s (setVisited s h es) := sliceStep_setVisited hh
  refine answers_mem (f := fun s =>
    let n := (s.hearthAt h).ropSet
    if !s.flag (pgHRTH 0) Fld.ROP_STAT_BUSY || s.hearthOffline h || n ≥ 8192 then s
    else (s.ropSet h n s.rop.op true es s.inRop).modHearth h fun x => { x with ropSet := n + 1 }) rfl hr ?_ hstep.off hstep.pending hstep.time hP
  exact if_neg (by simp [hb, hoff]; omega)

/-- What a visit leaves of a line of the range. -/
theorem setVisited_way (hh : h < 64) (hi : i < 16) (hv : (wayAt s h (s.hearthAt h).ropSet i).valid = true)
    (hs : s.inRop (wayAt s h (s.hearthAt h).ropSet i).line = true) :
    let w := wayAt s h (s.hearthAt h).ropSet i
    let w' := wayAt (setVisited s h es) h (s.hearthAt h).ropSet i
    let writes := w.dirty = true ∧ (s.rop.op ≠ 1 ∨ ∃ r, w.lock = .locked r)
    w'.valid = decide (s.rop.op = 2) ∧ w'.dirty = false ∧ w'.line = w.line ∧
    (w.lock = .none → w'.lock = .none) ∧ (s.rop.op = 2 → w'.lock = w.lock) ∧
    (s.rop.op = 2 → (w.dirty = false ∨ eccOf es w.line ≠ .uncorrectable) → w'.data = w.data ∧ w'.psn = w.psn) ∧
    (∀ r, w.lock = .locked r → s.rop.op ≠ 2 → w'.lock = .reserved r w.line) ∧
    (writes → eccOf es w.line ≠ .uncorrectable →
      ⟨w.line, w.data, w.psn, true, s.time, s.farDec (paOf w.line)⟩ ∈ (setVisited s h es).mem.wr) ∧
    (writes → eccOf es w.line = .uncorrectable →
      (∃ d, ⟨w.line, d, true, true, s.time, s.farDec (paOf w.line)⟩ ∈ (setVisited s h es).mem.wr) ∧ (setVisited s h es).rop.err = true) := by
  dsimp only
  rw [wayAt_setVisited hh]
  obtain ⟨d, psn, hway, hread, hwrite⟩ := ropSet_left (op := s.rop.op) true s.inRop es hh hi hv hs
  rw [hway, setVisited, State.modHearth_mem, State.modHearth_rop]
  rw [ropWay_writes] at hwrite
  generalize s.ropSet h (s.hearthAt h).ropSet s.rop.op true es s.inRop = u at *
  generalize wayAt s h (s.hearthAt h).ropSet i = w at *
  have hwrites : (w.dirty = true ∧ (s.rop.op ≠ 1 ∨ ∃ r, w.lock = .locked r) → eccOf es w.line ≠ .uncorrectable →
        ⟨w.line, w.data, w.psn, true, s.time, s.farDec (paOf w.line)⟩ ∈ u.mem.wr) ∧
      (w.dirty = true ∧ (s.rop.op ≠ 1 ∨ ∃ r, w.lock = .locked r) → eccOf es w.line = .uncorrectable →
        (∃ d, ⟨w.line, d, true, true, s.time, s.farDec (paOf w.line)⟩ ∈ u.mem.wr) ∧ u.rop.err = true) := by
    refine ⟨fun hw he => ?_, fun hw he => ?_⟩
    · obtain ⟨rfl, rfl⟩ := hread (.inr he)
      exact (hwrite hw).1
    · obtain ⟨rfl, herr⟩ := (hwrite hw).2 he
      exact ⟨⟨d, (hwrite hw).1⟩, herr rfl⟩
  by_cases h2 : s.rop.op = 2
  · have hleft : wayLeft s.rop.op w d psn = { w with dirty := false, data := d, psn := psn } := by rw [h2, wayLeft_clean _ _ _ hv]
    rw [hleft]
    exact ⟨by simp [hv, h2], rfl, rfl, id, fun _ => rfl, fun _ hd => hread (hd.imp_left fun hd => by simp [State.ropWay, h2, hd]),
      fun _ _ hne => absurd h2 hne, hwrites⟩
  · obtain ⟨hvalid, hdirty, hline, hfree, hlocked⟩ := wayLeft_invalidate (w := w) (d := d) (psn := psn) h2
    exact ⟨by simp [hvalid, h2], hdirty, hline, hfree, fun h => absurd h h2, fun h => absurd h h2, fun r hl _ => hlocked r hl, hwrites⟩

/-! #### The victim buffer -/

/-- The oldest dirty entry of the victim buffer is written (R317). -/
def vbWritten (s : State) (h : Nat) (e : VbEntry) (ecc : EccOutcome) : State :=
  (s.writeOut h e.line e.data e.psn ecc false).2.2.setVb h ((s.hearthAt h).vb.map fun x =>
    if x == e then { x with dirty := false, data := (s.writeOut h e.line e.data e.psn ecc false).1, psn := (s.writeOut h e.line e.data e.psn ecc false).2.1 }
    else x)

theorem sliceStep_vbWritten (hh : h < 64) (e : VbEntry) (ecc : EccOutcome) : SliceStep (ecc = .clean) h s (vbWritten s h e ecc) :=
  (sliceStep_writeOut id).trans (sliceStep_modHearth (fun _ => rfl) hh)

section
variable {a b : List VbEntry} {e : VbEntry} {ecc : EccOutcome}

/-- Writing one entry changes that entry alone. -/
theorem map_entry (ha : ∀ x ∈ a, x.dirty = false) (hd : e.dirty = true) (hb : e ∉ b) (f : VbEntry → VbEntry) :
    (a ++ e :: b).map (fun x => if x == e then f x else x) = a ++ f e :: b := by
  have hkeep : ∀ l : List VbEntry, e ∉ l → l.map (fun x => if x == e then f x else x) = l := fun l hl =>
    (List.map_congr_left fun x hx => if_neg (by simpa using ne_of_mem_of_not_mem hx hl)).trans (List.map_id' l)
  rw [List.map_append, List.map_cons, hkeep a (fun hm => by simp [ha e hm] at hd), hkeep b hb, if_pos (by simp)]

theorem oldestDirty (ha : ∀ x ∈ a, x.dirty = false) (hd : e.dirty = true) : (a ++ e :: b).find? (·.dirty) = some e := by
  rw [List.find?_append, List.find?_eq_none.mpr fun x hx => by simp [ha x hx], List.find?_cons_of_pos hd]
  rfl

theorem vbWritten_vb (hh : h < 64) (hvb : (s.hearthAt h).vb = a ++ e :: b) (ha : ∀ x ∈ a, x.dirty = false) (hd : e.dirty = true) (hb : e ∉ b) :
    ((vbWritten s h e ecc).hearthAt h).vb = a ++ { e with
      dirty := false, data := (s.writeOut h e.line e.data e.psn ecc false).1, psn := (s.writeOut h e.line e.data e.psn ecc false).2.1 } :: b := by
  rw [vbWritten, State.setVb, hearthAt_modHearth_same _ _ _ hh]
  dsimp only
  rw [hvb, map_entry ha hd hb fun x => { x with
    dirty := false, data := (s.writeOut h e.line e.data e.psn ecc false).1, psn := (s.writeOut h e.line e.data e.psn ecc false).2.1 }]

theorem answers_vbWriteAccept {P : State → Prop} (hr : Clocked s) (hh : h < 64) (hvb : (s.hearthAt h).vb = a ++ e :: b)
    (ha : ∀ x ∈ a, x.dirty = false) (hd : e.dirty = true) (hP : P (vbWritten s h e ecc)) : Answers (.vbWriteAccept h ecc) s P := by
  have hstep := sliceStep_vbWritten (s := s) hh e ecc
  have hexec : exec (.vbWriteAccept h ecc) s = .next (s.settle (vbWritten s h e ecc)) := by
    change execVbWriteAccept h ecc s = _
    unfold execVbWriteAccept
    rw [actMem_on _ _ hr.1.1 hr.1.2 hr.2, hvb, oldestDirty ha hd]
    dsimp only
    rw [hearthAt_of_hearths (writeOut_hearths ..), ← vbWritten]
  exact answers_settle hexec hr.1.1 hstep.off hstep.pending hstep.time hP

/-- Each error found is shown and counted (R345). -/
theorem eccTake_corrected (s : State) (h l : Nat) (d : LineData) (psn : Bool) :
    (s.eccTake h l d psn .corrected).2.2.flag (pgHRTH h) Fld.HRTH_SSTAT_CE = true ∧
    CountsOne s (s.eccTake h l d psn .corrected).2.2 (pgHRTH h) Fld.HRTH_ERR_CNT_CE := by
  refine ⟨flag_status_same _ _ _ rfl (by decide), ?_⟩
  change (State.status _ _ _ _).get _ _ = _
  rw [get_status_ne _ _ fun hk => absurd (regKey_inj (by decide) (by decide) hk).2 (by decide), get_count_same _ _ _ _ (by decide)]
  rfl

theorem hrthUe_shows (s : State) (h l : Nat) : (s.hrthUe h l).flag (pgHRTH h) Fld.HRTH_SSTAT_UE = true ∧
    CountsOne s (s.hrthUe h l) (pgHRTH h) Fld.HRTH_ERR_CNT_UE ∧ srcHRTH h 0 ∈ (s.hrthUe h l).raised := by
  have hregs := hrthUe_regs (h := h) s l
  refine ⟨(flag_of_regs hregs _ _).trans (flag_status_same _ _ _ rfl (by decide)), (get_of_regs hregs _ _).trans ?_, ?_⟩
  · rw [get_status_ne _ _ fun hk => absurd (regKey_inj (by decide) (by decide) hk).2 (by decide), get_count_same _ _ _ _ (by decide)]
    rfl
  · rw [State.hrthUe, State.recHearth, record_eq, status_eq]
    dsimp only
    split <;> simp

end

end

end Sys2Proof.Proofs
end

section
/-! ### Acceptance of a victim write, and the end of cleaning (R317, R336, R338, R345) -/

namespace Sys2Proof.Proofs

open Sys2Proof Sys2Proof.Machine Sys2Proof.Safety

section
variable {s : State} {op h set i : Nat} {es : List (Nat × EccOutcome)} {a b : List VbEntry} {e : VbEntry} {ecc : EccOutcome}

theorem vbWritten_wr (hh : h < 64) : (vbWritten s h e ecc).mem.wr = s.mem.wr ++
    [⟨e.line, (s.writeOut h e.line e.data e.psn ecc false).1, (s.writeOut h e.line e.data e.psn ecc false).2.1, false, s.time, s.farDec (paOf e.line)⟩] := by
  rw [vbWritten, State.setVb, State.modHearth_mem, writeOut_wr hh]

/-- What the write of an entry shows is what its read showed. -/
theorem vbWritten_notes : (vbWritten s h e ecc).regs = (s.eccTake h e.line e.data e.psn ecc).2.2.regs ∧
    (vbWritten s h e ecc).raised = (s.eccTake h e.line e.data e.psn ecc).2.2.raised := by
  rw [vbWritten, State.setVb, State.modHearth_regs, State.modHearth_raised, writeOut_eq, ropNoted, if_neg (by simp)]
  exact ⟨rfl, rfl⟩

theorem vbWriteAccept_correct (hr : Clocked s) (hh : h < 64) (hvb : (s.hearthAt h).vb = a ++ e :: b) (ha : ∀ x ∈ a, x.dirty = false)
    (hd : e.dirty = true) (hb : e ∉ b) (he : ecc ≠ .uncorrectable) : Answers (.vbWriteAccept h ecc) s fun t =>
      (t.hearthAt h).vb = a ++ { e with dirty := false } :: b ∧
      t.mem.wr = s.mem.wr ++ [⟨e.line, e.data, e.psn, false, s.time, s.farDec (paOf e.line)⟩] ∧
      (ecc = .clean → t = { s with hearths := t.hearths, mem := { s.mem with wr := t.mem.wr } }) ∧
      (ecc = .corrected → t.flag (pgHRTH h) Fld.HRTH_SSTAT_CE = true ∧ CountsOne s t (pgHRTH h) Fld.HRTH_ERR_CNT_CE) ∧
      SameRegs (sliceErrRegs h) s t ∧ ∀ i, i ≠ h → t.hearthAt i = s.hearthAt i := by
  obtain ⟨hdata, hpsn⟩ := writeOut_correct he s h e.line e.data e.psn false
  have hstep := sliceStep_vbWritten (s := s) hh e ecc
  refine answers_vbWriteAccept hr hh hvb ha hd ⟨?_, ?_, hstep.calm, ?_, hstep.regs, hstep.others⟩
  · rw [vbWritten_vb hh hvb ha hd hb, hdata, hpsn]
  · rw [vbWritten_wr hh, hdata, hpsn]
  · rintro rfl
    obtain ⟨hce, hcnt⟩ := eccTake_corrected s h e.line e.data e.psn
    exact ⟨(flag_of_regs vbWritten_notes.1 _ _).trans hce, (get_of_regs vbWritten_notes.1 _ _).trans hcnt⟩

theorem vbWriteAccept_poisoned (hr : Clocked s) (hh : h < 64) (hvb : (s.hearthAt h).vb = a ++ e :: b) (ha : ∀ x ∈ a, x.dirty = false)
    (hd : e.dirty = true) (hb : e ∉ b) : Answers (.vbWriteAccept h .uncorrectable) s fun t =>
      (∃ d, (t.hearthAt h).vb = a ++ { e with dirty := false, data := d, psn := true } :: b ∧
        t.mem.wr = s.mem.wr ++ [⟨e.line, d, true, false, s.time, s.farDec (paOf e.line)⟩]) ∧
      t.flag (pgHRTH h) Fld.HRTH_SSTAT_UE = true ∧ CountsOne s t (pgHRTH h) Fld.HRTH_ERR_CNT_UE ∧ srcHRTH h 0 ∈ t.raised ∧
      SameRegs (sliceErrRegs h) s t ∧ ∀ i, i ≠ h → t.hearthAt i = s.hearthAt i := by
  have hstep := sliceStep_vbWritten (s := s) hh e .uncorrectable
  obtain ⟨hregs, hraised⟩ := vbWritten_notes (s := s) (h := h) (e := e) (ecc := .uncorrectable)
  obtain ⟨hue, hcnt, hsrc⟩ := hrthUe_shows { s with ctr := s.ctr + 1 } h e.line
  refine answers_vbWriteAccept hr hh hvb ha hd ⟨⟨_, vbWritten_vb hh hvb ha hd hb, vbWritten_wr hh⟩, (flag_of_regs hregs _ _).trans hue,
    (get_of_regs hregs _ _).trans hcnt, ?_, hstep.regs, hstep.others⟩
  rw [hraised]
  exact hsrc

/-! #### Bypass -/

/-- The registers that a slice writes as it enters bypass. -/
abbrev bypassRegs : List (Nat × Nat) := [(pgHRTH 0, Reg.HRTH_GSTAT)]

theorem bypassMode_eq (s : State) : s.bypassMode = { s with regs := s.bypassMode.regs } := by
  unfold State.bypassMode
  split <;> rfl

theorem bypassMode_same (s : State) : SameRegs bypassRegs s s.bypassMode := by
  unfold State.bypassMode
  split
  · exact sameRegs_put s _ _ Fld.HRTH_GSTAT_MODE (by decide)
  · exact sameRegs_refl _ _

theorem bypassMode_stale (s : State) : s.bypassMode.flag (pgHRTH 0) Fld.HRTH_GSTAT_STALE_RISK = s.flag (pgHRTH 0) Fld.HRTH_GSTAT_STALE_RISK := by
  unfold State.bypassMode
  split
  · exact flag_put_beside _ _ _ Fld.HRTH_GSTAT_MODE Fld.HRTH_GSTAT_STALE_RISK rfl (by decide) (by decide)
  · rfl

/-- MODE reads 2 once every online slice is in bypass (R336). -/
theorem bypassMode_all (hm : s.get (pgHRTH 0) Fld.HRTH_GSTAT_MODE ≠ 0)
    (hall : ∀ j, j < 64 → s.hearthOffline j = false → (s.hearthAt j).mode = 2) : s.bypassMode.get (pgHRTH 0) Fld.HRTH_GSTAT_MODE = 2 := by
  have hslices : s.onlineSlices.all (fun i => (s.hearthAt i).mode == 2) = true := by
    simp only [State.onlineSlices, List.all_filter, List.all_eq_true, List.mem_range]
    intro k hk
    cases ho : s.hearthOffline k <;> simp [hall k hk, ho]
  unfold State.bypassMode
  rw [if_pos (by simp [hm, hslices]), get_put_same _ _ _ _ (by decide)]
  rfl

/-- The state in which a slice is in bypass, STALE_RISK set where it is the first (R338). -/
def bypassNoted (s : State) (h : Nat) : State :=
  if s.onlineSlices.any (fun i => (s.hearthAt i).mode == 2) then s.modHearth h fun x => { x with mode := 2 }
  else (s.modHearth h fun x => { x with mode := 2 }).put (pgHRTH 0) Fld.HRTH_GSTAT_STALE_RISK 1

theorem enterBypass_eq (s : State) (h : Nat) : s.enterBypass h = (bypassNoted s h).bypassMode := by
  unfold State.enterBypass bypassNoted
  cases s.onlineSlices.any fun i => (s.hearthAt i).mode == 2 <;> rfl

theorem bypassNoted_eq (s : State) (h : Nat) : bypassNoted s h = { s with
    regs := (bypassNoted s h).regs, hearths := (s.modHearth h fun x => { x with mode := 2 }).hearths } := by
  unfold bypassNoted
  split <;> rfl

theorem bypassNoted_same (s : State) (h : Nat) : SameRegs bypassRegs s (bypassNoted s h) := by
  unfold bypassNoted
  split
  · exact fun _ _ _ _ => rfl
  · exact sameRegs_put (s.modHearth h fun x => { x with mode := 2 }) _ _ Fld.HRTH_GSTAT_STALE_RISK (by decide)

theorem bypassNoted_beside (s : State) (h : Nat) {f : FRef} (ho : f.off = Reg.HRTH_GSTAT) (hf : f.lo + f.width ≤ 2 ∨ 3 ≤ f.lo ∧ f.lo + f.width ≤ 32) :
    (bypassNoted s h).get (pgHRTH 0) f = s.get (pgHRTH 0) f := by
  unfold bypassNoted
  split
  · rfl
  · exact get_put_beside (s.modHearth h fun x => { x with mode := 2 }) _ _ Fld.HRTH_GSTAT_STALE_RISK f ho (by omega)
      (by simp only [Fld.HRTH_GSTAT_STALE_RISK]; omega)

theorem bypassNoted_stale (hfirst : ∀ j, j < 64 → s.hearthOffline j = false → (s.hearthAt j).mode ≠ 2) :
    (bypassNoted s h).flag (pgHRTH 0) Fld.HRTH_GSTAT_STALE_RISK = true := by
  have hnone : ¬ s.onlineSlices.any (fun i => (s.hearthAt i).mode == 2) = true := by
    simp only [State.onlineSlices, List.any_filter, List.any_eq_true, List.mem_range, not_exists, not_and]
    intro k hk
    cases ho : s.hearthOffline k <;> simp [hfirst k hk, ho]
  rw [bypassNoted, if_neg hnone, flag_put_same _ _ _ _ rfl (by decide)]
  rfl

theorem enterBypass_hearthAt (s : State) (h k : Nat) : (s.enterBypass h).hearthAt k = (s.modHearth h fun x => { x with mode := 2 }).hearthAt k := by
  rw [enterBypass_eq, bypassMode_eq, bypassNoted_eq]
  rfl

theorem enterBypass_rest (s : State) (h : Nat) : (s.enterBypass h).off = s.off ∧ (s.enterBypass h).pending = s.pending ∧
    (s.enterBypass h).time = s.time ∧ (s.enterBypass h).mem = s.mem := by
  rw [enterBypass_eq, bypassMode_eq, bypassNoted_eq]
  exact ⟨rfl, rfl, rfl, rfl⟩

theorem enterBypass_same (s : State) (h : Nat) : SameRegs bypassRegs s (s.enterBypass h) := by
  rw [enterBypass_eq]
  exact sameRegs_again (bypassNoted_same s h) (bypassMode_same _)

theorem enterBypass_stale (hfirst : ∀ j, j < 64 → s.hearthOffline j = false → (s.hearthAt j).mode ≠ 2) :
    (s.enterBypass h).flag (pgHRTH 0) Fld.HRTH_GSTAT_STALE_RISK = true := by
  rw [enterBypass_eq, bypassMode_stale, bypassNoted_stale hfirst]

theorem enterBypass_mode (hh : h < 64) (hm : s.get (pgHRTH 0) Fld.HRTH_GSTAT_MODE ≠ 0)
    (hall : ∀ j, j < 64 → j ≠ h → s.hearthOffline j = false → (s.hearthAt j).mode = 2) : (s.enterBypass h).get (pgHRTH 0) Fld.HRTH_GSTAT_MODE = 2 := by
  have hearth : ∀ k, (bypassNoted s h).hearthAt k = (s.modHearth h fun x => { x with mode := 2 }).hearthAt k := fun k => by
    rw [bypassNoted_eq]; rfl
  rw [enterBypass_eq]
  refine bypassMode_all (by rwa [bypassNoted_beside s h rfl (by decide)]) fun j hj ho => ?_
  rw [State.hearthOffline, bypassNoted_beside s h rfl (by decide)] at ho
  rw [hearth]
  by_cases hjh : j = h
  · rw [hjh, hearthAt_modHearth_same _ _ _ hh]
  · rw [hearthAt_modHearth_ne _ _ hjh]
    exact hall j hj hjh ho

/-! #### Cleaning -/

/-- The slice's one set is cleaned (R336). -/
def setCleaned (s : State) (h set : Nat) (es : List (Nat × EccOutcome)) : State := s.ropSet h set 2 false es fun _ => true

theorem ropSlice_one {ws : List HWay} (hvb : (s.hearthAt h).vb = []) (hways : (s.hearthAt h).ways = [(set, ws)]) :
    s.ropSlice h 2 es = setCleaned s h set es := by
  have hused : s.usedSets h = [set] := by rw [State.usedSets, hvb, hways]; rfl
  rw [State.ropSlice, hused, forAll, List.foldl_cons, List.foldl_nil, setCleaned]

theorem answers_hrthCleanDone {P : State → Prop} {ws : List HWay} (hr : Clocked s) (hh : h < 64) (hmode : (s.hearthAt h).mode = 1)
    (hvb : (s.hearthAt h).vb = []) (hways : (s.hearthAt h).ways = [(set, ws)]) (hP : P ((setCleaned s h set es).enterBypass h)) :
    Answers (.hrthCleanDone h es) s P := by
  have hstep : SliceStep (NoErrors es) h s (setCleaned s h set es) := sliceStep_ropSet hh
  have hexec : exec (.hrthCleanDone h es) s = .next (s.settle ((setCleaned s h set es).enterBypass h)) := by
    change execHrthCleanDone h es s = _
    rw [execHrthCleanDone, actMem_on _ _ hr.1.1 hr.1.2 hr.2, if_neg (by simp [hmode]), ropSlice_one hvb hways]
  obtain ⟨hoff, hpend, htime, -⟩ := enterBypass_rest (setCleaned s h set es) h
  exact answers_settle hexec hr.1.1 (hoff.trans hstep.off) (hpend.trans hstep.pending) (htime.trans hstep.time) hP

/-- What cleaning leaves of a line. -/
theorem setCleaned_way (hh : h < 64) (hi : i < 16) (hv : (wayAt s h set i).valid = true) :
    let w := wayAt s h set i
    let w' := wayAt (setCleaned s h set es) h set i
    (w'.valid = true ∧ w'.dirty = false ∧ w'.line = w.line ∧ w'.lock = w.lock) ∧
    (eccOf es w.line ≠ .uncorrectable → w' = { w with dirty := false } ∧
      (w.dirty = true → ⟨w.line, w.data, w.psn, false, s.time, s.farDec (paOf w.line)⟩ ∈ (setCleaned s h set es).mem.wr)) ∧
    (w.dirty = true → eccOf es w.line = .uncorrectable → w'.psn = true ∧
      ⟨w.line, w'.data, true, false, s.time, s.farDec (paOf w.line)⟩ ∈ (setCleaned s h set es).mem.wr) := by
  obtain ⟨d, psn, hway, hread, hwrite⟩ := ropSet_left (op := 2) false (fun _ => true) es hh hi hv rfl
  rw [wayLeft_clean _ _ _ hv] at hway
  dsimp only
  rw [setCleaned, hway]
  refine ⟨⟨hv, rfl, rfl, rfl⟩, fun he => ?_, fun hd he => ?_⟩
  · obtain ⟨rfl, rfl⟩ := hread (.inr he)
    exact ⟨rfl, fun hd => (hwrite hd).1⟩
  · obtain ⟨hmem, hbad⟩ := hwrite hd
    obtain ⟨rfl, -⟩ := hbad he
    exact ⟨rfl, hmem⟩

theorem wayAt_enterBypass (hh : h < 64) : wayAt (s.enterBypass h) h set i = wayAt s h set i := by
  unfold wayAt State.waysAt
  rw [enterBypass_hearthAt, hearthAt_modHearth_same _ _ _ hh]

theorem hrthCleanDone_bypasses {ws : List HWay} (hr : Clocked s) (hh : h < 64) (hmode : (s.hearthAt h).mode = 1) (hvb : (s.hearthAt h).vb = [])
    (hways : (s.hearthAt h).ways = [(set, ws)]) (hi : i < 16) : Answers (.hrthCleanDone h es) s fun t =>
      let w := nthD ws i {}
      let w' := nthD (t.waysAt h set) i {}
      (t.hearthAt h).mode = 2 ∧
      ((∀ j, j < 64 → s.hearthOffline j = false → (s.hearthAt j).mode ≠ 2) → t.flag (pgHRTH 0) Fld.HRTH_GSTAT_STALE_RISK = true) ∧
      (w.valid = false → w' = w) ∧
      (w.valid = true → w'.valid = true ∧ w'.dirty = false ∧ w'.line = w.line ∧ w'.lock = w.lock) ∧
      (w.valid = true → eccOf es w.line ≠ .uncorrectable → w' = { w with dirty := false } ∧
        (w.dirty = true → ⟨w.line, w.data, w.psn, false, s.time, s.farDec (paOf w.line)⟩ ∈ t.mem.wr)) ∧
      (w.valid = true → w.dirty = true → eccOf es w.line = .uncorrectable → w'.psn = true ∧
        ⟨w.line, w'.data, true, false, s.time, s.farDec (paOf w.line)⟩ ∈ t.mem.wr) ∧
      (s.get (pgHRTH 0) Fld.HRTH_GSTAT_MODE ≠ 0 →
        (∀ j, j < 64 → j ≠ h → s.hearthOffline j = false → (s.hearthAt j).mode = 2) → t.get (pgHRTH 0) Fld.HRTH_GSTAT_MODE = 2) ∧
      SameRegs [(pgHRTH 0, Reg.HRTH_GSTAT), (pgHRTH h, Reg.HRTH_SSTAT), (pgHRTH h, Reg.HRTH_ERR_CNT)] s t ∧ SameMemory s t := by
  have hstep : SliceStep (NoErrors es) h s (setCleaned s h set es) := sliceStep_ropSet hh
  have hw : nthD ws i {} = wayAt s h set i := by simp [wayAt, State.waysAt, hways, Tab.getD, Tab.get?]
  have hmem : ((setCleaned s h set es).enterBypass h).mem = (setCleaned s h set es).mem := (enterBypass_rest _ h).2.2.2
  refine answers_hrthCleanDone hr hh hmode hvb hways ?_
  dsimp only
  rw [hw, ← wayAt, wayAt_enterBypass hh, hmem]
  refine ⟨?_, fun hfirst => enterBypass_stale fun j hj ho => ?_, fun hv => ropSet_skip hh hi (.inl hv), fun hv => (setCleaned_way hh hi hv).1,
    fun hv => (setCleaned_way hh hi hv).2.1, fun hv => (setCleaned_way hh hi hv).2.2, fun hm hall => enterBypass_mode hh ?_ fun j hj hne ho => ?_,
    sameRegs_mono (sameRegs_append hstep.regs (enterBypass_same _ h)) (by simp), fun a => by rw [hmem, hstep.cells]⟩
  · rw [enterBypass_hearthAt, hearthAt_modHearth_same _ _ _ hh]
  · rw [hstep.modes]
    exact hfirst j hj (hstep.hearthOffline j ▸ ho)
  · rwa [get_of_sameRegs hstep.regs (by decide) (by simp [Fld.HRTH_GSTAT_MODE, Reg.HRTH_SSTAT, Reg.HRTH_ERR_CNT])]
  · rw [hstep.modes]
    exact hall j hj hne (hstep.hearthOffline j ▸ ho)

end

/-- Settles O16, a lemma per command: the operations as they start, visit a set and complete, the victim buffer's writes, and cleaning. -/
theorem rangeOperations : Obligations.RangeOperations := by
  unfold Obligations.RangeOperations
  refine ⟨fun s op c hr hop => ?_, ⟨fun s h i es hr hh hb hoff hn hi h1 h4 => ?_, fun s hr => ropComplete_ends hr⟩,
    ⟨fun s h a b e hr hh hvb ha hd hb => ⟨fun ecc => vbWriteAccept_correct hr hh hvb ha hd hb, vbWriteAccept_poisoned hr hh hvb ha hd hb⟩,
      fun s h set i ws es hr hh hm hvb hways hi => hrthCleanDone_bypasses hr hh hm hvb hways hi⟩⟩
  · have hc : exec c s = s.actMem (·.ropStart op) := by rcases hop with ⟨rfl, rfl⟩ | ⟨rfl, rfl⟩ | ⟨rfl, rfl⟩ | ⟨rfl, rfl⟩ <;> rfl
    have h1 : 1 ≤ op := by omega
    have h4 : op ≤ 4 := by omega
    exact ⟨rop_begins hr hc h1 h4, rop_badRange hr hc h1 h4, rop_overlaps hr hc⟩
  · have hstep : SliceStep (NoErrors es) h s (setVisited s h es) := sliceStep_setVisited hh
    exact answers_ropSetVisit hr hh hb hoff hn ⟨setVisited_next hh, fun hw => (wayAt_setVisited hh).trans (ropSet_skip hh hi hw),
      fun hv hs => setVisited_way hh hi hv hs, hstep.writes, hstep.sameMemory, sameButCounters_of_sameRegs hstep.regs,
      fun hc => ⟨sameButCounters_of_regs (hstep.calm_regs hc), hstep.calm hc⟩⟩

end Sys2Proof.Proofs
end

section
/-! ### Commands of the mailbox: as they are taken and as they end (R662, R664) -/

namespace Sys2Proof.Proofs

open Sys2Proof Sys2Proof.Machine Sys2Proof.Safety

/-- Smith firmware has taken a command: MB_STAT shows it running, and nothing else has changed. -/
structure CmdTaken (s u : State) (bmc : Bool) (code tag : Nat) (args : List Nat) : Prop where
  rest : u = { s with regs := u.regs, smith := u.smith }
  same : SameRegs [(pgSMITH, Reg.MB_STAT)] s u
  smith : u.smith = { s.smith with
    op := some code, bmc := bmc, args := mbArgs s bmc args, tag := tag % 256, phase := 0, site := 0, startPa := 0 }
  busy : u.flag pgSMITH Fld.MB_STAT_BUSY = true
  done : u.flag pgSMITH Fld.MB_STAT_DONE = false
  seq : u.get pgSMITH Fld.MB_STAT_SEQ = s.get pgSMITH Fld.MB_STAT_SEQ

/-- The state in which a command is taken. -/
def cmdTaken (s : State) (bmc : Bool) (code tag : Nat) (args : List Nat) : State :=
  ((s.put pgSMITH Fld.MB_STAT_BUSY 1).put pgSMITH Fld.MB_STAT_DONE 0).modSmith fun x => { x with
    op := some code, bmc := bmc, args := mbArgs s bmc args, tag := tag % 256, phase := 0, site := 0, startPa := 0 }

section
variable {s t u : State} {bmc : Bool} {code tag : Nat} {args : List Nat}

theorem cmdTaken_taken : CmdTaken s (cmdTaken s bmc code tag args) bmc code tag args where
  rest := rfl
  same := sameRegs_again (sameRegs_put s pgSMITH 1 Fld.MB_STAT_BUSY (by decide))
    (sameRegs_put (s.put pgSMITH Fld.MB_STAT_BUSY 1) pgSMITH 0 Fld.MB_STAT_DONE (by decide))
  smith := rfl
  busy := (flag_put_beside (s.put pgSMITH Fld.MB_STAT_BUSY 1) _ _ Fld.MB_STAT_DONE Fld.MB_STAT_BUSY rfl (by decide) (by decide)).trans
    (flag_put_same _ _ _ _ rfl (by decide))
  done := flag_put_same (s.put pgSMITH Fld.MB_STAT_BUSY 1) _ _ _ rfl (by decide)
  seq := (get_put_beside (s.put pgSMITH Fld.MB_STAT_BUSY 1) _ _ Fld.MB_STAT_DONE Fld.MB_STAT_SEQ rfl (by decide) (by decide)).trans
    (get_put_beside s _ _ Fld.MB_STAT_BUSY Fld.MB_STAT_SEQ rfl (by decide) (by decide))

/-- A mailbox that is free takes a command of its client and runs it. -/
theorem mailbox_free (hf : MbFree s) (hcode : code < 256) (hcl : bitN (State.mbClients code) (b2n bmc) = true) :
    s.mailbox bmc code tag args = (cmdTaken s bmc code tag args).mbRun code bmc := by
  obtain ⟨-, hrun, hop, hauto, hwarm, hboot⟩ := hf
  have hmod : code % 256 = code := Nat.mod_eq_of_lt hcode
  have hbusy : s.mbBusy = false := by simp [State.mbBusy, hop, hrun]
  have hnone : (cmdTaken s bmc code tag args).smith.autoOp = none := hauto
  unfold State.mailbox
  rw [if_neg (by simp [hwarm, hboot]), if_neg (by simp [hbusy]), hmod, if_neg (by simp [hcl])]
  change (if ((cmdTaken s bmc code tag args).smith.autoOp.isSome && State.inService code) = true then _ else _) = _
  rw [hnone]
  rfl

/-- A command is answered with what its run leaves, in the queue and at the TIME of its issue. -/
theorem answers_command {c : Instr} {P : State → Prop} (hf : MbFree s) (hc : exec c s = s.act (·.mailbox bmc code tag args)) (hcode : code < 256)
    (hcl : bitN (State.mbClients code) (b2n bmc) = true) (hoff : ∀ u, CmdTaken s u bmc code tag args → (u.mbRun code bmc).off = false)
    (hP : ∀ u, CmdTaken s u bmc code tag args → P { u.mbRun code bmc with pending := s.pending, time := s.time }) : Answers c s P :=
  ⟨_, by rw [hc, act_on _ _ hf.1, mailbox_free hf hcode hcl, settle_on _ _ (hoff _ cmdTaken_taken)], hP _ cmdTaken_taken⟩

/-- Queue, TIME and power as the command found them. -/
def SameFrame (s t : State) : Prop := t.off = s.off ∧ t.pending = s.pending ∧ t.time = s.time

theorem SameFrame.trans (h : SameFrame s t) (k : SameFrame t u) : SameFrame s u := ⟨k.1.trans h.1, k.2.1.trans h.2.1, k.2.2.trans h.2.2⟩

theorem CmdTaken.frame (hu : CmdTaken s u bmc code tag args) : SameFrame s u := by rw [hu.rest]; exact ⟨rfl, rfl, rfl⟩

theorem answers_command_of_frame {c : Instr} {P : State → Prop} (hf : MbFree s) (hc : exec c s = s.act (·.mailbox bmc code tag args))
    (hcode : code < 256) (hcl : bitN (State.mbClients code) (b2n bmc) = true)
    (hrun : ∀ u, CmdTaken s u bmc code tag args → ∃ t, u.mbRun code bmc = t ∧ SameFrame u t ∧ P t) : Answers c s P := by
  obtain ⟨t, ht, hframe, hP⟩ := hrun _ cmdTaken_taken
  obtain ⟨hoff, hpend, htime⟩ := cmdTaken_taken.frame.trans hframe
  exact answers_settle (by rw [hc, act_on _ _ hf.1, mailbox_free hf hcode hcl, ht]) hf.1 hoff hpend htime hP

/-! #### What a command that is taken sees -/

theorem CmdTaken.op (hu : CmdTaken s u bmc code tag args) : u.smith.op = some code := by rw [hu.smith]
theorem CmdTaken.arg (hu : CmdTaken s u bmc code tag args) (i : Nat) : u.mbArg i = mbA s bmc args i := by rw [State.mbArg, hu.smith]; rfl

theorem CmdTaken.get (hu : CmdTaken s u bmc code tag args) {p : Nat} {f : FRef} (ho : f.off < 0x10000) (hne : p ≠ pgSMITH ∨ f.off ≠ Reg.MB_STAT) :
    u.get p f = s.get p f := get_of_sameRegs hu.same ho (by simpa [imp_iff_not_or] using hne)

theorem CmdTaken.flag (hu : CmdTaken s u bmc code tag args) {p : Nat} {f : FRef} (ho : f.off < 0x10000) (hne : p ≠ pgSMITH ∨ f.off ≠ Reg.MB_STAT) :
    u.flag p f = s.flag p f := by rw [State.flag, hu.get ho hne, State.flag]

theorem CmdTaken.onlyPage (hu : CmdTaken s u bmc code tag args) : OnlyPage pgSMITH s u := fun q off hq ho => hu.same q off ho (by simp [hq])

theorem onlyPage_trans {p : Nat} (h : OnlyPage p s t) (k : OnlyPage p t u) : OnlyPage p s u :=
  fun q off hq ho => (k q off hq ho).trans (h q off hq ho)

theorem onlyPage_put (s : State) (p v : Nat) (f : FRef) (ho : f.off < 0x10000) : OnlyPage p s (s.put p f v) :=
  fun _ _ hq hoff => reg_put_ne _ _ _ _ _ _ fun hk => hq (regKey_inj hoff ho hk).1

theorem onlyPage_of_regs {p : Nat} (h : t.regs = s.regs) : OnlyPage p s t := fun q off _ _ => reg_of_regs h q off

/-! #### The end of a command -/

/-- The command still runs. -/
structure CmdRuns (s u : State) (code tag : Nat) : Prop where
  op : u.smith.op = some code
  tag : u.smith.tag = tag % 256
  seq : u.get pgSMITH Fld.MB_STAT_SEQ = s.get pgSMITH Fld.MB_STAT_SEQ

theorem CmdTaken.running (hu : CmdTaken s u bmc code tag args) : CmdRuns s u code tag := ⟨hu.op, by rw [hu.smith], hu.seq⟩

/-- MB_STAT and MB_RES show the result of a command. -/
def mbShown (s : State) (code tag status res0 res1 : Nat) : State :=
  ((((((s.put pgSMITH (Fld.MB_RES_RES 0) res0).put pgSMITH (Fld.MB_RES_RES 1) res1).put pgSMITH Fld.MB_STAT_STATUS status).put
    pgSMITH Fld.MB_STAT_CODE code).put pgSMITH Fld.MB_STAT_TAG tag).put pgSMITH Fld.MB_STAT_DONE 1).put pgSMITH Fld.MB_STAT_BUSY 0

theorem mbEnd_eq (hop : u.smith.op = some code) (status res0 res1 : Nat) : u.mbEnd status res0 res1 =
    (((mbShown u code u.smith.tag status res0 res1).bumpMod pgSMITH Fld.MB_STAT_SEQ).fire srcMbDone).modSmith fun x => { x with op := none, phase := 0 } := by
  unfold State.mbEnd
  rw [hop]
  rfl

theorem get_mbShown_stat (s : State) (code tag status res0 res1 : Nat) :
    (mbShown s code tag status res0 res1).get pgSMITH Fld.MB_STAT_STATUS = status % 8 ∧
    (mbShown s code tag status res0 res1).get pgSMITH Fld.MB_STAT_CODE = code % 256 ∧
    (mbShown s code tag status res0 res1).get pgSMITH Fld.MB_STAT_TAG = tag % 256 ∧
    (mbShown s code tag status res0 res1).get pgSMITH Fld.MB_STAT_DONE = 1 ∧
    (mbShown s code tag status res0 res1).get pgSMITH Fld.MB_STAT_BUSY = 0 := by
  unfold mbShown
  refine ⟨?_, ?_, ?_, ?_, ?_⟩
  · rw [get_put_beside _ _ _ Fld.MB_STAT_BUSY Fld.MB_STAT_STATUS rfl (by decide) (by decide),
      get_put_beside _ _ _ Fld.MB_STAT_DONE Fld.MB_STAT_STATUS rfl (by decide) (by decide),
      get_put_beside _ _ _ Fld.MB_STAT_TAG Fld.MB_STAT_STATUS rfl (by decide) (by decide),
      get_put_beside _ _ _ Fld.MB_STAT_CODE Fld.MB_STAT_STATUS rfl (by decide) (by decide),
      get_put_same _ _ _ _ (by decide)]
    rfl
  · rw [get_put_beside _ _ _ Fld.MB_STAT_BUSY Fld.MB_STAT_CODE rfl (by decide) (by decide),
      get_put_beside _ _ _ Fld.MB_STAT_DONE Fld.MB_STAT_CODE rfl (by decide) (by decide),
      get_put_beside _ _ _ Fld.MB_STAT_TAG Fld.MB_STAT_CODE rfl (by decide) (by decide),
      get_put_same _ _ _ _ (by decide)]
    rfl
  · rw [get_put_beside _ _ _ Fld.MB_STAT_BUSY Fld.MB_STAT_TAG rfl (by decide) (by decide),
      get_put_beside _ _ _ Fld.MB_STAT_DONE Fld.MB_STAT_TAG rfl (by decide) (by decide),
      get_put_same _ _ _ _ (by decide)]
    rfl
  · rw [get_put_beside _ _ _ Fld.MB_STAT_BUSY Fld.MB_STAT_DONE rfl (by decide) (by decide),
      get_put_same _ _ _ _ (by decide)]
    rfl
  · rw [get_put_same _ _ _ _ (by decide)]
    rfl

theorem get_mbShown_seq (s : State) (code tag status res0 res1 : Nat) :
    (mbShown s code tag status res0 res1).get pgSMITH Fld.MB_STAT_SEQ = s.get pgSMITH Fld.MB_STAT_SEQ := by
  unfold mbShown
  rw [get_put_beside _ _ _ Fld.MB_STAT_BUSY Fld.MB_STAT_SEQ rfl (by decide) (by decide),
    get_put_beside _ _ _ Fld.MB_STAT_DONE Fld.MB_STAT_SEQ rfl (by decide) (by decide),
    get_put_beside _ _ _ Fld.MB_STAT_TAG Fld.MB_STAT_SEQ rfl (by decide) (by decide),
    get_put_beside _ _ _ Fld.MB_STAT_CODE Fld.MB_STAT_SEQ rfl (by decide) (by decide),
    get_put_beside _ _ _ Fld.MB_STAT_STATUS Fld.MB_STAT_SEQ rfl (by decide) (by decide),
    get_put_ne _ _ _ _ _ _ (by decide), get_put_ne _ _ _ _ _ _ (by decide)]

theorem get_mbShown_res (s : State) (code tag status res0 res1 : Nat) :
    (mbShown s code tag status res0 res1).get pgSMITH (Fld.MB_RES_RES 0) = res0 % 2 ^ 32 ∧
    (mbShown s code tag status res0 res1).get pgSMITH (Fld.MB_RES_RES 1) = res1 % 2 ^ 32 := by
  unfold mbShown
  refine ⟨?_, ?_⟩
  · iterate 6 rw [get_put_ne _ _ _ _ _ _ (by decide)]
    exact get_put_same _ _ _ _ (by decide)
  · iterate 5 rw [get_put_ne _ _ _ _ _ _ (by decide)]
    exact get_put_same _ _ _ _ (by decide)

theorem mbShown_noted (s : State) (code tag status res0 res1 : Nat) : Noted s (mbShown s code tag status res0 res1) :=
  (((((noted_put s _ _ _).trans (noted_put _ _ _ _)).trans (noted_put _ _ _ _)).trans (noted_put _ _ _ _)).trans (noted_put _ _ _ _)).trans
    ((noted_put _ _ _ _).trans (noted_put _ _ _ _))

/-- The registers that show a command and its result. -/
abbrev mbRegs : List (Nat × Nat) := [(pgSMITH, Reg.MB_STAT), (pgSMITH, Reg.MB_RES 0), (pgSMITH, Reg.MB_RES 1)]

theorem sameRegs_mbPut (s : State) (v : Nat) (f : FRef) (hf : (pgSMITH, f.off) ∈ mbRegs) (ho : f.off < 0x10000) : SameRegs mbRegs s (s.put pgSMITH f v) :=
  sameRegs_mono (sameRegs_put s pgSMITH v f ho) (by simpa using hf)

theorem mbShown_same (s : State) (code tag status res0 res1 : Nat) : SameRegs mbRegs s (mbShown s code tag status res0 res1) := by
  unfold mbShown
  iterate 6 refine sameRegs_again ?_ (sameRegs_mbPut _ _ _ (by decide) (by decide))
  exact sameRegs_mbPut _ _ _ (by decide) (by decide)

/-- The end of a command changes the registers of SMITH, its own state, and the events raised. -/
structure CmdEnded (s t : State) : Prop where
  rest : t = { s with regs := t.regs, recs := t.recs, raised := t.raised, smith := t.smith }
  regs : SameRegs mbRegs s t

theorem Noted.smith (h : Noted s t) : t.smith = s.smith := by rw [h]

theorem modSmith_regs (s : State) (g : Smith → Smith) : (s.modSmith g).regs = s.regs := rfl
theorem modSmith_raised (s : State) (g : Smith → Smith) : (s.modSmith g).raised = s.raised := rfl
theorem modSmith_smith (s : State) (g : Smith → Smith) : (s.modSmith g).smith = g s.smith := rfl

theorem Noted.modSmith (h : Noted s t) (g : Smith → Smith) : t.modSmith g = { s with
    regs := (t.modSmith g).regs, recs := (t.modSmith g).recs, raised := (t.modSmith g).raised, smith := (t.modSmith g).smith } := by
  unfold State.modSmith
  rw [h]

theorem cmdEnded_mbEnd (hop : u.smith.op = some code) (status res0 res1 : Nat) : CmdEnded u (u.mbEnd status res0 res1) := by
  rw [mbEnd_eq hop]
  have hn := mbShown_noted u code u.smith.tag status res0 res1
  have ho := mbShown_same u code u.smith.tag status res0 res1
  generalize mbShown u code u.smith.tag status res0 res1 = v at *
  have hn' : Noted u ((v.bumpMod pgSMITH Fld.MB_STAT_SEQ).fire srcMbDone) := hn.trans ((noted_put v _ _ _).trans (noted_fire _ _))
  have hseq : SameRegs mbRegs v (v.bumpMod pgSMITH Fld.MB_STAT_SEQ) := sameRegs_mbPut v _ _ (by decide) (by decide)
  have hregs := (modSmith_regs ((v.bumpMod pgSMITH Fld.MB_STAT_SEQ).fire srcMbDone) fun x => { x with op := none, phase := 0 }).trans (State.fire_regs ..)
  exact ⟨hn'.modSmith _, fun p off hoff hl => (reg_of_regs hregs p off).trans (sameRegs_again ho hseq p off hoff hl)⟩

theorem mbEnds_mbEnd (hu : CmdRuns s u code tag) (hcode : code < 256) {status : Nat} (hstatus : status < 8) :
    MbEnds s (u.mbEnd status) code tag status 0 0 := by
  rw [mbEnd_eq hu.op]
  obtain ⟨hst, hco, hta, hdo, hbu⟩ := get_mbShown_stat u code u.smith.tag status 0 0
  obtain ⟨hr0, hr1⟩ := get_mbShown_res u code u.smith.tag status 0 0
  have hseq := get_mbShown_seq u code u.smith.tag status 0 0
  rw [hu.seq] at hseq
  rw [hu.tag] at hta hst hco hdo hbu hr0 hr1 hseq ⊢
  rw [Nat.mod_mod] at hta
  generalize mbShown u code (tag % 256) status 0 0 = v at *
  have hregs := (modSmith_regs ((v.bumpMod pgSMITH Fld.MB_STAT_SEQ).fire srcMbDone) fun x => { x with op := none, phase := 0 }).trans (State.fire_regs ..)
  have hraised := (modSmith_raised ((v.bumpMod pgSMITH Fld.MB_STAT_SEQ).fire srcMbDone) fun x => { x with op := none, phase := 0 }).trans
    (State.fire_raised ..)
  have hop := modSmith_smith ((v.bumpMod pgSMITH Fld.MB_STAT_SEQ).fire srcMbDone) fun x => { x with op := none, phase := 0 }
  generalize ((v.bumpMod pgSMITH Fld.MB_STAT_SEQ).fire srcMbDone).modSmith (fun x => { x with op := none, phase := 0 }) = t at *
  have hget : ∀ (f : FRef), regKey pgSMITH f.off ≠ regKey pgSMITH Reg.MB_STAT ∨ f.off = Reg.MB_STAT ∧ f.lo + f.width ≤ 24 →
      t.get pgSMITH f = v.get pgSMITH f := fun f hf => by
    rw [get_of_regs hregs]
    rcases hf with hf | ⟨ho, hf⟩
    · exact get_put_ne _ _ _ _ _ _ hf
    · exact get_put_beside _ _ _ _ _ ho (by omega) (.inl hf)
  refine ⟨by rw [hop], (hget _ (.inr (by decide))).trans ?_, (hget _ (.inr (by decide))).trans ?_, (hget _ (.inr (by decide))).trans hta, ?_, ?_, ?_,
    (hget _ (.inl (by decide))).trans hr0, (hget _ (.inl (by decide))).trans hr1, ?_⟩
  · rw [hst, Nat.mod_eq_of_lt hstatus]
  · rw [hco, Nat.mod_eq_of_lt hcode]
  · exact beq_iff_eq.mpr ((hget _ (.inr (by decide))).trans hdo)
  · exact beq_eq_false_iff_ne.mpr (ne_of_eq_of_ne ((hget _ (.inr (by decide))).trans hbu) (by decide))
  · rw [get_of_regs hregs, ← hseq]
    exact get_put_same v _ _ Fld.MB_STAT_SEQ (by decide)
  · rw [hraised]
    exact List.mem_append_right _ (List.mem_singleton_self _)

end

end Sys2Proof.Proofs
end
section
/-! ### Commands that change SMITH alone, and those that are refused (R662, R664) -/

namespace Sys2Proof.Proofs

open Sys2Proof Sys2Proof.Machine Sys2Proof.Safety

/-- From `s` to `t` only SMITH's registers and state, records and events change. -/
structure SmithOnly (s t : State) : Prop where
  rest : t = { s with regs := t.regs, recs := t.recs, raised := t.raised, smith := t.smith }
  page : OnlyPage pgSMITH s t

section
variable {s t u : State} {bmc : Bool} {code tag : Nat} {args : List Nat}

theorem SmithOnly.trans (h : SmithOnly s t) (k : SmithOnly t u) : SmithOnly s u := ⟨Eq.trans k.rest (by rw [h.rest]), onlyPage_trans h.page k.page⟩

theorem SmithOnly.frame (h : SmithOnly s t) : SameFrame s t := by rw [h.rest]; exact ⟨rfl, rfl, rfl⟩
theorem SmithOnly.flash (h : SmithOnly s t) : t.flash = s.flash := by rw [h.rest]
theorem SmithOnly.mem (h : SmithOnly s t) : t.mem = s.mem := by rw [h.rest]
theorem SmithOnly.hearths (h : SmithOnly s t) : t.hearths = s.hearths := by rw [h.rest]
theorem SmithOnly.lanes (h : SmithOnly s t) : t.lanes = s.lanes := by rw [h.rest]

theorem CmdTaken.smithOnly (hu : CmdTaken s u bmc code tag args) : SmithOnly s u := ⟨Eq.trans hu.rest (by rw [hu.rest]), hu.onlyPage⟩

theorem onlyPage_of_sameRegs {l : List (Nat × Nat)} {p : Nat} (h : SameRegs l s t) (hl : ∀ x ∈ l, x.1 = p) : OnlyPage p s t :=
  fun q off hq ho => h q off ho fun hm => hq (hl _ hm)

theorem CmdEnded.smithOnly (h : CmdEnded s t) : SmithOnly s t :=
  ⟨h.rest, onlyPage_of_sameRegs h.regs (by simp)⟩

theorem CmdEnded.frame (h : CmdEnded s t) : SameFrame s t := h.smithOnly.frame

theorem noted_smithOnly (h : Noted s t) (hr : t.regs = s.regs) : SmithOnly s t :=
  ⟨Eq.trans h (by rw [h]), onlyPage_of_regs hr⟩

/-- A command that is refused changes SMITH alone. -/
theorem answers_refused {c : Instr} {status : Nat} {P : State → Prop} (hf : MbFree s) (hc : exec c s = s.act (·.mailbox bmc code tag args))
    (hcode : code < 256) (hcl : bitN (State.mbClients code) (b2n bmc) = true) (hstatus : status < 8)
    (hrun : ∀ u, CmdTaken s u bmc code tag args → u.mbRun code bmc = u.mbEnd status)
    (hP : ∀ t, MbEnds s t code tag status 0 0 → SmithOnly s t → P t) : Answers c s P :=
  answers_command_of_frame hf hc hcode hcl fun u hu =>
    have hend := cmdEnded_mbEnd hu.op status 0 0
    ⟨_, hrun u hu, hend.frame, hP _ (mbEnds_mbEnd hu.running hcode hstatus) (hu.smithOnly.trans hend.smithOnly)⟩

theorem CmdRuns.of_eq (hu : CmdRuns s u code tag) (hsmith : t.smith = u.smith) (hseq : t.get pgSMITH Fld.MB_STAT_SEQ = u.get pgSMITH Fld.MB_STAT_SEQ) :
    CmdRuns s t code tag := ⟨by rw [hsmith, hu.op], by rw [hsmith, hu.tag], hseq.trans hu.seq⟩

/-- The command still runs where its state and MB_STAT are as it was taken with. -/
theorem mbRuns_of_taken (hu : CmdTaken s u bmc code tag args) (hop : t.smith.op = u.smith.op) (hbmc : t.smith.bmc = u.smith.bmc)
    (hargs : t.smith.args = u.smith.args) (hreg : t.reg pgSMITH Reg.MB_STAT = u.reg pgSMITH Reg.MB_STAT) : MbRuns t code bmc (mbArgs s bmc args) := by
  have hget : ∀ f : FRef, f.off = Reg.MB_STAT → t.get pgSMITH f = u.get pgSMITH f := fun f ho => by unfold State.get; rw [ho, hreg]
  refine ⟨hop.trans hu.op, by rw [hbmc, hu.smith], by rw [hargs, hu.smith], ?_, ?_⟩
  · rw [State.flag, hget _ rfl]; exact hu.busy
  · rw [State.flag, hget _ rfl]; exact hu.done

/-! #### Memory as Smith firmware reads it -/

theorem SmithOnly.get (h : SmithOnly s t) {p : Nat} {f : FRef} (hp : p ≠ pgSMITH) (ho : f.off < 0x10000) : t.get p f = s.get p f := by
  unfold State.get; rw [h.page p f.off hp ho]

theorem SmithOnly.flag (h : SmithOnly s t) {p : Nat} {f : FRef} (hp : p ≠ pgSMITH) (ho : f.off < 0x10000) : t.flag p f = s.flag p f := by
  unfold State.flag; rw [h.get hp ho]

theorem SmithOnly.quad (h : SmithOnly s t) : t.quad = s.quad := h.flag (by decide) (by decide)
theorem SmithOnly.scrWays (h : SmithOnly s t) : t.scrWays = s.scrWays := h.get (by decide) (by decide)
theorem SmithOnly.hearthAt (h : SmithOnly s t) (k : Nat) : t.hearthAt k = s.hearthAt k := hearthAt_of_hearths h.hearths k
theorem SmithOnly.waysAt (h : SmithOnly s t) (k set : Nat) : t.waysAt k set = s.waysAt k set := waysAt_of_hearths h.hearths k set

theorem SmithOnly.hearthOffline (h : SmithOnly s t) (k : Nat) : t.hearthOffline k = s.hearthOffline k := by
  unfold State.hearthOffline; rw [h.get (by decide) (by decide)]

theorem SmithOnly.findWay (h : SmithOnly s t) (k set l : Nat) : t.findWay k set l = s.findWay k set l := by
  unfold State.findWay State.cacheWays; rw [h.scrWays, h.waysAt]

theorem SmithOnly.hearthFind (h : SmithOnly s t) (k l : Nat) : t.hearthFind k l = s.hearthFind k l := by
  unfold State.hearthFind State.hearthBypass
  rw [h.hearthOffline, h.hearthAt, h.quad, h.findWay]

/-- What a slice holds of a line, its words without error. -/
theorem hearthLook_clean (s : State) (h l : Nat) : (s.hearthLook h l .clean).1 = match s.hearthFind h l with
    | .absent => none
    | .scratch => some ((s.scratchLine h l).data, (s.scratchLine h l).psn)
    | .way i => some ((nthD (s.waysAt h (hearthSet s.quad (paOf l))) i {}).data, (nthD (s.waysAt h (hearthSet s.quad (paOf l))) i {}).psn)
    | .vb e => some (e.data, e.psn) := by
  unfold State.hearthLook
  cases s.hearthFind h l <;> rfl

theorem SmithOnly.hearthLook (h : SmithOnly s t) (k l : Nat) : (t.hearthLook k l .clean).1 = (s.hearthLook k l .clean).1 := by
  rw [hearthLook_clean, hearthLook_clean, h.hearthFind, h.quad]
  unfold State.scratchLine
  rw [h.quad, h.scrWays]
  simp only [h.waysAt]

theorem SmithOnly.farDec (h : SmithOnly s t) (a : Nat) : t.farDec a = s.farDec a :=
  farDec_of_pcie (fun n off ho => h.page _ off (by simp only [pgPCIE, pgSMITH]; omega) ho) a

theorem SmithOnly.lineNow (h : SmithOnly s t) (l : Nat) : t.lineNow l = s.lineNow l := by
  have hback : t.memBacked (paOf l) = s.memBacked (paOf l) := by unfold State.memBacked; rw [h.farDec, h.scrWays]
  have hhome : t.home (paOf l) = s.home (paOf l) := by unfold State.home; rw [h.quad]
  have hhomes : ∀ k, t.homeAt k = s.homeAt k := fun k => by rw [State.homeAt, h.rest, State.homeAt]
  have hdies : t.dies = s.dies := by rw [h.rest]
  unfold State.lineNow
  simp only [hback, hhome, hhomes, hdies, h.hearthLook, State.pendingWrite, State.memLine, State.memPoison, h.mem]

theorem SmithOnly.readBytes (h : SmithOnly s t) (pa n : Nat) : t.readBytes pa n = s.readBytes pa n := by
  unfold State.readBytes
  simp only [h.lineNow]

end

end Sys2Proof.Proofs
end
section
/-! ### Firmware and channel sparing commands (R369, R370, R647, R674) -/

namespace Sys2Proof.Proofs

open Sys2Proof Sys2Proof.Machine Sys2Proof.Safety

section
variable {s t u : State} {bmc : Bool} {code tag : Nat} {args : List Nat}

theorem CmdTaken.pa (hu : CmdTaken s u bmc code tag args) (i : Nat) :
    u.mbPa i = (mbA s bmc args i + 2 ^ 32 * mbA s bmc args (i + 1)) % 2 ^ 52 := by
  unfold State.mbPa; rw [hu.arg, hu.arg]

/-! #### FW_STAGE -/

/-- The bytes that FW_STAGE reads. -/
abbrev stagedImage (s : State) (args : List Nat) : Option (List Byte) :=
  s.readBytes ((mbA s false args 0 + 2 ^ 32 * mbA s false args 1) % 2 ^ 52) (min (mbA s false args 2) 0x400000)

theorem CmdTaken.image (hu : CmdTaken s u false code tag args) : u.readBytes (u.mbPa 0) (min (u.mbArg 2) 0x400000) = stagedImage s args := by
  rw [hu.pa, hu.arg, hu.smithOnly.readBytes]

/-- A poisoned line that Smith firmware reads is recorded, and nothing else. -/
theorem readPoison_noted (s : State) (pa n : Nat) : Noted s (s.readPoison pa n) ∧ (s.readPoison pa n).regs = s.regs := by
  unfold State.readPoison
  split
  · exact ⟨noted_record _ _, by rw [record_eq]⟩
  · exact ⟨.refl s, rfl⟩

theorem fwStage_unread (hf : MbFree s) (himg : stagedImage s args = none) :
    Answers (.fwStage false tag args) s fun t => MbEnds s t 0x18 tag 6 0 0 ∧ t.flash = s.flash := by
  refine answers_command_of_frame hf rfl (by decide) (by decide) fun u hu => ?_
  obtain ⟨hn, hregs⟩ := readPoison_noted u (u.mbPa 0) (min (u.mbArg 2) 0x400000)
  have hrun : u.mbRun 0x18 false = (u.readPoison (u.mbPa 0) (min (u.mbArg 2) 0x400000)).mbEnd 6 := by
    change u.mbFwStage = _
    rw [State.mbFwStage, hu.image, himg]
  generalize u.readPoison (u.mbPa 0) (min (u.mbArg 2) 0x400000) = v at *
  have hv : CmdRuns s v 0x18 tag := hu.running.of_eq hn.smith (get_of_regs hregs _ _)
  have hend := cmdEnded_mbEnd hv.op 6 0 0
  have honly := noted_smithOnly hn hregs
  exact ⟨_, hrun, honly.frame.trans hend.frame, mbEnds_mbEnd hv (by decide) (by decide),
    ((hu.smithOnly.trans honly).trans hend.smithOnly).flash⟩

theorem fwStage_refused (hf : MbFree s) {b : List Byte} (himg : stagedImage s args = some b)
    (hbad : mbA s false args 2 = 0 ∨ 0x400000 < mbA s false args 2 ∨ Config.imageOk b = false) :
    Answers (.fwStage false tag args) s fun t => MbEnds s t 0x18 tag 4 0 0 ∧ t.flash = s.flash := by
  refine answers_refused (code := 0x18) (status := 4) hf rfl (by decide) (by decide) (by decide) (fun u hu => ?_) fun t hend honly => ⟨hend, honly.flash⟩
  change u.mbFwStage = _
  rw [State.mbFwStage, hu.image, himg]
  exact if_pos (by rw [hu.arg]; rcases hbad with h | h | h <;> simp [h])

/-- The image goes to the slot that is not in force. -/
def imageStaged (s : State) (b : List Byte) : State :=
  { s with flash := { s.flash with
      ver := modNth s.flash.ver (1 - s.flash.slot) fun _ => (Config.imageVer b).toNat
      good := modNth s.flash.good (1 - s.flash.slot) fun _ => true
      trust := modNth s.flash.trust (1 - s.flash.slot) fun _ => Config.imageTrust b } }

theorem CmdEnded.get (h : CmdEnded s t) {p : Nat} {f : FRef} (ho : f.off < 0x10000) (hl : (p, f.off) ∉ mbRegs) : t.get p f = s.get p f :=
  get_of_sameRegs h.regs ho hl

theorem CmdEnded.flag (h : CmdEnded s t) {p : Nat} {f : FRef} (ho : f.off < 0x10000) (hl : (p, f.off) ∉ mbRegs) : t.flag p f = s.flag p f := by
  unfold State.flag; rw [h.get ho hl]

theorem fwStage_stages (hf : MbFree s) {b : List Byte} (himg : stagedImage s args = some b) (h0 : 0 < mbA s false args 2)
    (hmax : mbA s false args 2 ≤ 0x400000) (hok : Config.imageOk b = true) :
    Answers (.fwStage false tag args) s fun t => MbEnds s t 0x18 tag 0 0 0 ∧ t.flag pgSMITH Fld.FW_STAT_STAGED = true ∧
      t.flash.slot = s.flash.slot ∧ OnlyPage pgSMITH s t := by
  refine answers_command_of_frame hf rfl (by decide) (by decide) fun u hu => ?_
  have hrun : u.mbRun 0x18 false = ((imageStaged u b).put pgSMITH Fld.FW_STAT_STAGED 1).mbEnd 0 := by
    change u.mbFwStage = _
    rw [State.mbFwStage, hu.image, himg]
    exact if_neg (by rw [hu.arg]; simp [hok]; omega)
  have hslot : (imageStaged u b).flash.slot = s.flash.slot := hu.smithOnly.flash ▸ rfl
  have hframe : SameFrame u (imageStaged u b) := ⟨rfl, rfl, rfl⟩
  have hregs : (imageStaged u b).regs = u.regs := rfl
  have hsmith : (imageStaged u b).smith = u.smith := rfl
  generalize imageStaged u b = v at *
  have hv : CmdRuns s (v.put pgSMITH Fld.FW_STAT_STAGED 1) 0x18 tag :=
    hu.running.of_eq ((State.put_smith ..).trans hsmith) ((get_put_ne _ _ _ _ _ _ (by decide)).trans (get_of_regs hregs _ _))
  have hend := cmdEnded_mbEnd hv.op 0 0 0
  refine ⟨_, hrun, (hframe.trans ⟨rfl, rfl, rfl⟩).trans hend.frame, mbEnds_mbEnd hv (by decide) (by decide), ?_, ?_, ?_⟩
  · rw [hend.flag (by decide) (by decide), flag_put_same _ _ _ _ rfl (by decide)]; rfl
  · rw [hend.smithOnly.flash, State.put_flash, hslot]
  · exact onlyPage_trans (onlyPage_trans (onlyPage_trans hu.onlyPage (onlyPage_of_regs hregs)) (onlyPage_put v _ _ _ (by decide))) hend.smithOnly.page

/-! #### SMITH_RESTART and FW_ACTIVATE -/

theorem smithDown_shows (u : State) : (u.smithDown).smith = { u.smith with running := false, down := u.time, bmcBusy := none } ∧
    SameFrame u u.smithDown ∧ CountsOne u u.smithDown pgSMITH Fld.RESET_CAUSE_SMITH_RST ∧ u.smithDown.flash = u.flash ∧
    SameRegs [(pgSMITH, Reg.RESET_CAUSE)] u u.smithDown := by
  have hregs : u.smithDown.regs = (u.count pgSMITH Fld.RESET_CAUSE_SMITH_RST).regs := modSmith_regs _ _
  refine ⟨rfl, ⟨rfl, rfl, rfl⟩, (get_of_regs hregs _ _).trans (get_count_same u _ 1 _ (by decide)), rfl, fun p off ho hl => ?_⟩
  exact (reg_of_regs hregs p off).trans (sameRegs_put u pgSMITH _ Fld.RESET_CAUSE_SMITH_RST (by decide) p off ho hl)

theorem smithRestart_restarts (hf : MbFree s) : Answers (.smithRestart bmc tag args) s fun t =>
    MbRuns t 0x1A bmc (mbArgs s bmc args) ∧ t.smith.running = false ∧ CountsOne s t pgSMITH Fld.RESET_CAUSE_SMITH_RST ∧ OnlyPage pgSMITH s t := by
  refine answers_command_of_frame hf rfl (by decide) (by cases bmc <;> decide) fun u hu => ?_
  obtain ⟨hsmith, hframe, hcount, -, hsame⟩ := smithDown_shows u
  refine ⟨u.smithDown, rfl, hframe, ?_⟩
  generalize u.smithDown = t at *
  refine ⟨mbRuns_of_taken hu (by rw [hsmith]) (by rw [hsmith]) (by rw [hsmith]) (hsame _ _ (by decide) (by decide)), by rw [hsmith], ?_,
    onlyPage_trans hu.onlyPage (onlyPage_of_sameRegs hsame (by simp))⟩
  rwa [CountsOne, hu.get (by decide) (.inr (by decide))] at hcount

theorem fwActivate_refused (hf : MbFree s) (hst : s.flag pgSMITH Fld.FW_STAT_STAGED = false) :
    Answers (.fwActivate false tag args) s fun t => MbEnds s t 0x19 tag 4 0 0 ∧ t.flash = s.flash := by
  refine answers_refused (code := 0x19) (status := 4) hf rfl (by decide) (by decide) (by decide) (fun u hu => ?_) fun t hend honly => ⟨hend, honly.flash⟩
  change u.mbFwActivate = _
  rw [State.mbFwActivate, hu.flag (by decide) (.inr (by decide)), hst]
  rfl

/-- The other image is in force, on trial (R674). -/
def imageTried (s : State) : State :=
  { s with flash := { s.flash with slot := 1 - s.flash.slot } }.put pgSMITH Fld.FW_STAT_TRIAL 1

theorem imageTried_shows (s : State) : (imageTried s).smith = s.smith ∧ SameFrame s (imageTried s) ∧ (imageTried s).flash.slot = 1 - s.flash.slot ∧
    (imageTried s).flag pgSMITH Fld.FW_STAT_TRIAL = true ∧ SameRegs [(pgSMITH, Reg.FW_STAT)] s (imageTried s) := by
  obtain ⟨v, hv⟩ : ∃ v : State, v = { s with flash := { s.flash with slot := 1 - s.flash.slot } } := ⟨_, rfl⟩
  have hsame : SameRegs [(pgSMITH, Reg.FW_STAT)] v (v.put pgSMITH Fld.FW_STAT_TRIAL 1) := sameRegs_put v pgSMITH 1 Fld.FW_STAT_TRIAL (by decide)
  refine ⟨rfl, ⟨rfl, rfl, rfl⟩, rfl, ?_, fun p off ho hl => ?_⟩
  · exact flag_put_same _ _ _ _ rfl (by decide)
  · rw [imageTried, ← hv, hsame p off ho hl, hv]
    rfl

theorem fwActivate_restarts (hf : MbFree s) (hst : s.flag pgSMITH Fld.FW_STAT_STAGED = true) : Answers (.fwActivate false tag args) s fun t =>
    MbRuns t 0x19 false (mbArgs s false args) ∧ t.smith.running = false ∧ t.flash.slot = 1 - s.flash.slot ∧
    t.flag pgSMITH Fld.FW_STAT_TRIAL = true ∧ t.smith.trial = some s.time ∧ CountsOne s t pgSMITH Fld.RESET_CAUSE_SMITH_RST := by
  refine answers_command_of_frame hf rfl (by decide) (by decide) fun u hu => ?_
  have hrun : u.mbRun 0x19 false = (imageTried u).smithDown.modSmith fun x => { x with trial := some u.time, phase := 1 } := by
    change u.mbFwActivate = _
    rw [State.mbFwActivate, hu.flag (by decide) (.inr (by decide)), hst]
    rfl
  obtain ⟨hsmith, hframe, hslot, htrial, hsame⟩ := imageTried_shows u
  rw [hu.smithOnly.flash] at hslot
  generalize imageTried u = v at *
  obtain ⟨hdown, hframe', hcount, hflash, hsame'⟩ := smithDown_shows v
  generalize v.smithDown = w at *
  have hregs := modSmith_regs w fun x => { x with trial := some u.time, phase := 1 }
  have htime : u.time = s.time := hu.frame.2.2
  refine ⟨_, hrun, (hframe.trans hframe').trans ⟨rfl, rfl, rfl⟩, mbRuns_of_taken hu ?_ ?_ ?_ ?_, ?_, ?_, ?_, ?_, ?_⟩
  · rw [modSmith_smith, hdown, hsmith]
  · rw [modSmith_smith, hdown, hsmith]
  · rw [modSmith_smith, hdown, hsmith]
  · rw [reg_of_regs hregs, hsame' _ _ (by decide) (by decide), hsame _ _ (by decide) (by decide)]
  · rw [modSmith_smith, hdown]
  · rw [← hslot, ← hflash]; rfl
  · rw [flag_of_regs hregs, State.flag, get_of_sameRegs hsame' (by decide) (by decide)]; exact htrial
  · rw [modSmith_smith, htime]
  · rw [CountsOne, get_of_regs hregs, hcount, get_of_sameRegs hsame (by decide) (by decide), hu.get (by decide) (.inr (by decide))]

/-! #### CHAN_SPARE -/

theorem chanSpare_badArg (hf : MbFree s) (hbad : 12 ≤ mbA s false args 0 ∨ 16 ≤ mbA s false args 1) :
    Answers (.chanSpare false tag args) s fun t => MbEnds s t 0x20 tag 2 0 0 := by
  refine answers_refused (code := 0x20) (status := 2) hf rfl (by decide) (by decide) (by decide) (fun u hu => ?_) fun t hend _ => hend
  change u.mbChanSpare = _
  rw [State.mbChanSpare, hu.arg, hu.arg]
  exact if_pos (by simpa using hbad)

theorem CmdTaken.chanSpareRefused (hu : CmdTaken s u bmc code tag args) (st : Nat) : u.chanSpareRefused st = s.chanSpareRefused st := by
  have hpage : pgSTK st ≠ pgSMITH := by simp only [pgSTK, pgSMITH]; omega
  unfold State.chanSpareRefused
  rw [hu.flag (by decide) (.inl hpage), hu.flag (by decide) (.inl hpage), hu.get (by decide) (.inl (by decide))]

theorem chanSpare_refused (hf : MbFree s) (h0 : mbA s false args 0 < 12) (h1 : mbA s false args 1 < 16)
    (hbad : s.flag (pgSTK (mbA s false args 0)) Fld.STK_STAT_SPARE_USED = true ∨ s.flag (pgSTK (mbA s false args 0)) Fld.STK_STAT_SPARE_BUSY = true ∨
      s.get pgPWR Fld.PWR_STAT_STATE ≠ 0) : Answers (.chanSpare false tag args) s fun t => MbEnds s t 0x20 tag 4 0 0 ∧ t.mem = s.mem := by
  refine answers_refused (code := 0x20) (status := 4) hf rfl (by decide) (by decide) (by decide) (fun u hu => ?_) fun t hend honly => ⟨hend, honly.mem⟩
  change u.mbChanSpare = _
  rw [State.mbChanSpare, hu.arg, hu.arg, if_neg (by simp; omega), hu.chanSpareRefused, if_pos]
  rcases hbad with h | h | h <;> simp [State.chanSpareRefused, h]

theorem chanSpareStart_shows (s : State) (st k : Nat) : (s.chanSpareStart st k).smith = s.smith ∧ SameFrame s (s.chanSpareStart st k) ∧
    (s.chanSpareStart st k).flag (pgSTK st) Fld.STK_STAT_SPARE_BUSY = true ∧ Tab.get? st (s.chanSpareStart st k).mem.spareChan = some k ∧
    (s.chanSpareStart st k).mem.cells = s.mem.cells ∧ (s.chanSpareStart st k).reg pgSMITH Reg.MB_STAT = s.reg pgSMITH Reg.MB_STAT := by
  obtain ⟨v, hv⟩ : ∃ v : State, v = (s.put (pgSTK st) Fld.STK_STAT_SPARE_BUSY 1).put (pgSTK st) Fld.STK_STAT_PROGRESS 0 := ⟨_, rfl⟩
  have hregs : (s.chanSpareStart st k).regs = v.regs := by rw [hv]; rfl
  have hpage : ∀ f : FRef, f.off < 0x10000 → regKey pgSMITH Reg.MB_STAT ≠ regKey (pgSTK st) f.off := fun f ho hk => by
    have := (regKey_inj (by decide) ho hk).1
    simp only [pgSTK, pgSMITH] at this
    omega
  refine ⟨rfl, ⟨rfl, rfl, rfl⟩, ?_, Tab.get?_put_same _ _ _, rfl, ?_⟩
  · rw [flag_of_regs hregs, hv, flag_put_beside _ _ _ Fld.STK_STAT_PROGRESS Fld.STK_STAT_SPARE_BUSY rfl (by decide) (by decide),
      flag_put_same _ _ _ _ rfl (by decide)]
    rfl
  · rw [reg_of_regs hregs, hv, reg_put_ne _ _ _ _ _ _ (hpage _ (by decide)), reg_put_ne _ _ _ _ _ _ (hpage _ (by decide))]

theorem chanSpare_starts (hf : MbFree s) (h0 : mbA s false args 0 < 12) (h1 : mbA s false args 1 < 16)
    (hused : s.flag (pgSTK (mbA s false args 0)) Fld.STK_STAT_SPARE_USED = false) (hbusy : s.flag (pgSTK (mbA s false args 0)) Fld.STK_STAT_SPARE_BUSY = false)
    (hpwr : s.get pgPWR Fld.PWR_STAT_STATE = 0) : Answers (.chanSpare false tag args) s fun t => MbRuns t 0x20 false (mbArgs s false args) ∧
      t.flag (pgSTK (mbA s false args 0)) Fld.STK_STAT_SPARE_BUSY = true ∧ Tab.get? (mbA s false args 0) t.mem.spareChan = some (mbA s false args 1) ∧
      SameMemory s t := by
  refine answers_command_of_frame hf rfl (by decide) (by decide) fun u hu => ?_
  have hrun : u.mbRun 0x20 false = (u.modSmith fun x => { x with site := mbA s false args 0 }).chanSpareStart (mbA s false args 0) (mbA s false args 1) := by
    change u.mbChanSpare = _
    rw [State.mbChanSpare, hu.arg, hu.arg, if_neg (by simp; omega), hu.chanSpareRefused, if_neg (by simp [State.chanSpareRefused, hused, hbusy, hpwr])]
  have hmem : (u.modSmith fun x => { x with site := mbA s false args 0 }).mem = s.mem := hu.smithOnly.mem
  have hsmith := modSmith_smith u fun x => { x with site := mbA s false args 0 }
  have hregs := modSmith_regs u fun x => { x with site := mbA s false args 0 }
  have hframe : SameFrame u (u.modSmith fun x => { x with site := mbA s false args 0 }) := ⟨rfl, rfl, rfl⟩
  generalize (u.modSmith fun x => { x with site := mbA s false args 0 }) = v at *
  obtain ⟨hsmith', hframe', hbusy', hchan, hcells, hreg⟩ := chanSpareStart_shows v (mbA s false args 0) (mbA s false args 1)
  generalize v.chanSpareStart (mbA s false args 0) (mbA s false args 1) = t at *
  rw [hmem] at hcells
  exact ⟨_, hrun, hframe.trans hframe', mbRuns_of_taken hu (by rw [hsmith', hsmith]) (by rw [hsmith', hsmith]) (by rw [hsmith', hsmith])
    (hreg.trans (reg_of_regs hregs _ _)), hbusy', hchan, fun a => by rw [hcells]⟩

end

end Sys2Proof.Proofs
end
section
/-! ### Hearth commands (R343, R344, R614 to R616) -/

namespace Sys2Proof.Proofs

open Sys2Proof Sys2Proof.Machine Sys2Proof.Safety

section
variable {s t u : State} {bmc : Bool} {code tag : Nat} {args : List Nat} {d : Nat}

/-! #### Slot 0 of a Hearth group's domain -/

/-- The slots after Smith firmware's own vote for a domain that is no site's. -/
theorem bitN_voteNew_own (s : State) (hd : 16 ≤ d) (on : Bool) {i : Nat} (hi : i < 8) :
    bitN (voteNew s d (b2n on * 2 ^ 0) (2 ^ 0)) i = if i = 0 then on else bitN (s.votes d) i := by
  have habs : (decide (d < 16) && !bitN s.pop d) = false := by simp; omega
  have hone : bitN (2 ^ 0) i = decide (i = 0) := by interval_cases i <;> rfl
  unfold voteNew
  rw [(maskOf_filter_range _ 32).2]
  simp only [habs, hone]
  by_cases h0 : i = 0
  · subst h0; cases on <;> rfl
  · simp [h0, show i < 32 by omega, show i < 10 by omega]

theorem regsAlone_trans (h : t = { s with regs := t.regs }) (k : u = { t with regs := u.regs }) : u = { s with regs := u.regs } :=
  Eq.trans k (by rw [h])

theorem regsAlone_put (s : State) (p v : Nat) (f : FRef) : s.put p f v = { s with regs := (s.put p f v).regs } := rfl

theorem votePut_eq (s : State) (d n : Nat) : votePut s d n = { s with regs := (votePut s d n).regs } := by
  have hput := regsAlone_trans (regsAlone_put s pgPWR (n % 2 ^ 10) (Fld.VOTE_SLOT_LO d)) (regsAlone_put _ pgPWR (n / 2 ^ 16) (Fld.VOTE_SLOT_HI d))
  rw [votePut]
  generalize (s.put pgPWR (Fld.VOTE_SLOT_LO d) (n % 2 ^ 10)).put pgPWR (Fld.VOTE_SLOT_HI d) (n / 2 ^ 16) = w at *
  rcases levelHold_eq w d with h | h <;> rw [h]
  · exact hput
  · exact regsAlone_trans hput (regsAlone_put ..)

/-- The votes and the target of a domain after a vote. -/
def voted (s : State) (d v mask : Nat) : State :=
  (votePut s d (voteNew s d v mask)).put pgPWR (Fld.DOM_STAT_TARGET d) (b2n ((votePut s d (voteNew s d v mask)).voteTarget d))

theorem domState_voted (hd : d < 50) (v mask : Nat) : (voted s d v mask).domState d = s.domState d := by
  have hkeep : RegsOnly (VoteReg d) s (votePut s d (voteNew s d v mask)) := (bootFrame_votePut s hd _).regs
  unfold voted State.domState
  rw [get_put_beside _ _ _ (Fld.DOM_STAT_TARGET d) (Fld.DOM_STAT_STATE d) rfl (by simp [Fld.DOM_STAT_STATE])
    (.inl (by simp [Fld.DOM_STAT_STATE, Fld.DOM_STAT_TARGET])),
    hkeep.get (by simp [Fld.DOM_STAT_STATE]; omega) (by simp [VoteReg, Fld.DOM_STAT_STATE, Reg.VOTE])]

/-- A vote that leaves a domain without a target, or finds it OFF in Run, has no other effect (R616, R618, R620). -/
theorem setVotes_calm (hd : d < 50) (v mask : Nat) (hcalm : (votePut s d (voteNew s d v mask)).voteTarget d = false ∨
    s.domState d = 0 ∧ s.get pgPWR Fld.PWR_STAT_STATE = 0) : s.setVotes d v mask = voted s d v mask := by
  have hkeep : RegsOnly (VoteReg d) s (votePut s d (voteNew s d v mask)) := (bootFrame_votePut s hd _).regs
  have hret : (votePut s d (voteNew s d v mask)).retarget d = voted s d v mask := by
    unfold State.retarget
    change (if ((votePut s d (voteNew s d v mask)).voteTarget d && (voted s d v mask).domState d == 3) = true then _ else voted s d v mask) = _
    rw [domState_voted hd, if_neg]
    rcases hcalm with h | ⟨h, -⟩ <;> simp [h]
  unfold State.setVotes
  rw [if_neg (by omega)]
  change (if (State.flag (State.retarget (votePut s d (voteNew s d v mask)) d) pgPWR (Fld.DOM_STAT_TARGET d) && _) = true then
    State.leaveBanked (State.retarget (votePut s d (voteNew s d v mask)) d) true State.wakeUnitSrc
    else State.retarget (votePut s d (voteNew s d v mask)) d) = _
  rw [hret]
  split
  · next hrise =>
    rcases hcalm with h | ⟨-, h⟩
    · have hflag : (voted s d v mask).flag pgPWR (Fld.DOM_STAT_TARGET d) = false := by
        unfold voted
        rw [h, flag_put_same _ _ _ _ rfl (by simp [Fld.DOM_STAT_TARGET])]
        rfl
      simp [hflag] at hrise
    · have hstate : (voted s d v mask).get pgPWR Fld.PWR_STAT_STATE = 0 := by
        rw [voted, get_put_ne _ _ _ _ _ _ (by simp [regKey, Fld.PWR_STAT_STATE, Fld.DOM_STAT_TARGET]; omega),
          hkeep.get (by decide) (by simp [VoteReg, Fld.PWR_STAT_STATE, Reg.VOTE]; omega), h]
      unfold State.leaveBanked
      rw [hstate]
      rfl
  · rfl

/-- A vote that has no other effect changes the registers of its domain alone. -/
theorem voted_frame (hd : d < 50) (v mask : Nat) : voted s d v mask = { s with regs := (voted s d v mask).regs } ∧
    RegsOnly (DomReg d) s (voted s d v mask) := by
  have heq := votePut_eq s d (voteNew s d v mask)
  have hkeep : RegsOnly (DomReg d) s (votePut s d (voteNew s d v mask)) := (bootFrame_votePut s hd _).regs.mono fun p off hv => ⟨hv.1, .inl hv.2⟩
  unfold voted
  generalize votePut s d (voteNew s d v mask) = w at *
  exact ⟨regsAlone_trans heq (regsAlone_put ..), hkeep.trans (regsOnly_put w _ _ _ (by simp [Fld.DOM_STAT_TARGET]; omega) ⟨rfl, .inr rfl⟩)⟩

theorem votes_voted (s : State) (d v mask : Nat) : (voted s d v mask).votes d = (votePut s d (voteNew s d v mask)).votes d := by
  unfold State.votes voted
  rw [get_put_ne _ _ _ _ _ _ (by simp [regKey, Fld.VOTE_SLOT_LO, Fld.DOM_STAT_TARGET]),
    get_put_ne _ _ _ _ _ _ (by simp [regKey, Fld.VOTE_SLOT_HI, Fld.DOM_STAT_TARGET])]

/-- Smith firmware's own slot alone decides the target of a Hearth group's domain where no other slot is set, and makes it ON where set. -/
theorem voteTarget_own (h28 : 28 ≤ d) (hd : d < 36) (on : Bool) (hothers : on = true ∨ ∀ j, 0 < j → j < 8 → bitN (s.votes d) j = false) :
    (votePut s d (voteNew s d (b2n on * 2 ^ 0) (2 ^ 0))).voteTarget d = on := by
  have hbit : ∀ i, i < 8 → bitN ((votePut s d (voteNew s d (b2n on * 2 ^ 0) (2 ^ 0))).votes d) i = if i = 0 then on else bitN (s.votes d) i :=
    fun i hi => (bitN_votes_votePut s d _ (by omega)).trans (bitN_voteNew_own s (by omega) on hi)
  unfold State.voteTarget countingSlots
  rw [if_pos hd]
  cases on with
  | true => exact List.any_eq_true.mpr ⟨0, by simp, by rw [hbit 0 (by omega)]; rfl⟩
  | false =>
    refine List.any_eq_false.mpr fun i hi => ?_
    have hi8 : i < 8 := List.mem_range.mp hi
    rw [hbit i hi8]
    by_cases h0 : i = 0
    · simp [h0]
    · simp [h0, hothers.resolve_left (by decide) i (by omega) hi8]

/-- What Smith firmware's vote for a Hearth group's domain leaves. -/
structure OwnVote (d : Nat) (on : Bool) (s t : State) : Prop where
  rest : t = { s with regs := t.regs }
  regs : RegsOnly (DomReg d) s t
  vote : bitN (t.votes d) 0 = on
  target : t.flag pgPWR (Fld.DOM_STAT_TARGET d) = on
  dom : t.domState d = s.domState d

theorem ownVote_setSlot (h28 : 28 ≤ d) (hd : d < 36) (on : Bool) (hothers : on = true ∨ ∀ j, 0 < j → j < 8 → bitN (s.votes d) j = false)
    (hcalm : on = false ∨ s.domState d = 0 ∧ s.get pgPWR Fld.PWR_STAT_STATE = 0) : OwnVote d on s (s.setSlot d 0 on) := by
  have htarget := voteTarget_own h28 hd on hothers
  have hset : s.setSlot d 0 on = voted s d (b2n on * 2 ^ 0) (2 ^ 0) :=
    setVotes_calm (by omega) _ _ (hcalm.imp_left fun hoff => htarget.trans hoff)
  obtain ⟨hrest, hregs⟩ := voted_frame (s := s) (d := d) (by omega) (b2n on * 2 ^ 0) (2 ^ 0)
  rw [hset]
  refine ⟨hrest, hregs, ?_, ?_, ?_⟩
  · rw [votes_voted, bitN_votes_votePut _ _ _ (by omega), bitN_voteNew_own s (by omega) on (by omega), if_pos rfl]
  · rw [voted, htarget, flag_put_same _ _ _ _ rfl (by simp [Fld.DOM_STAT_TARGET])]
    cases on <;> rfl
  · exact domState_voted (by omega) _ _

theorem OwnVote.smith {on : Bool} (h : OwnVote d on s t) : t.smith = s.smith := by rw [h.rest]
theorem OwnVote.hearths {on : Bool} (h : OwnVote d on s t) : t.hearths = s.hearths := by rw [h.rest]
theorem OwnVote.frame {on : Bool} (h : OwnVote d on s t) : SameFrame s t := by rw [h.rest]; exact ⟨rfl, rfl, rfl⟩

theorem OwnVote.reg_smith {on : Bool} (h : OwnVote d on s t) {off : Nat} (ho : off < 0x10000) : t.reg pgSMITH off = s.reg pgSMITH off :=
  h.regs _ _ ho (by simp [DomReg, pgPWR, pgSMITH])

/-! #### HEARTH_ONLINE -/

theorem hearth_badArg (hf : MbFree s) (hbad : 8 ≤ mbA s false args 0) :
    Answers (.hearthOffline false tag args) s (fun t => MbEnds s t 0x21 tag 2 0 0) ∧
    Answers (.hearthOnline false tag args) s fun t => MbEnds s t 0x22 tag 2 0 0 := by
  refine ⟨answers_refused (code := 0x21) (status := 2) hf rfl (by decide) (by decide) (by decide) (fun u hu => ?_) fun t hend _ => hend,
    answers_refused (code := 0x22) (status := 2) hf rfl (by decide) (by decide) (by decide) (fun u hu => ?_) fun t hend _ => hend⟩
  · change u.mbHearthOffline = _
    rw [State.mbHearthOffline, hu.arg, if_pos hbad]
  · change u.mbHearthOnline = _
    rw [State.mbHearthOnline, hu.arg, if_pos hbad]

theorem CmdTaken.offline (hu : CmdTaken s u bmc code tag args) : u.get (pgHRTH 0) Fld.HRTH_GSTAT_OFFLINE = s.get (pgHRTH 0) Fld.HRTH_GSTAT_OFFLINE :=
  hu.get (by decide) (.inl (by decide))

theorem hearthOnline_refused (hf : MbFree s) (h8 : mbA s false args 0 < 8)
    (hon : bitN (s.get (pgHRTH 0) Fld.HRTH_GSTAT_OFFLINE) (mbA s false args 0) = false) :
    Answers (.hearthOnline false tag args) s fun t => MbEnds s t 0x22 tag 4 0 0 ∧ t.hearths = s.hearths := by
  refine answers_refused (code := 0x22) (status := 4) hf rfl (by decide) (by decide) (by decide) (fun u hu => ?_)
    fun t hend honly => ⟨hend, honly.hearths⟩
  change u.mbHearthOnline = _
  rw [State.mbHearthOnline, hu.arg, if_neg (by omega), hu.offline, hon]
  rfl

theorem hearthOnline_votes (hf : MbFree s) (h8 : mbA s false args 0 < 8)
    (hoff : bitN (s.get (pgHRTH 0) Fld.HRTH_GSTAT_OFFLINE) (mbA s false args 0) = true) (hdom : s.domState (28 + mbA s false args 0) = 0)
    (hpwr : s.get pgPWR Fld.PWR_STAT_STATE = 0) : Answers (.hearthOnline false tag args) s fun t =>
      MbRuns t 0x22 false (mbArgs s false args) ∧ bitN (t.votes (28 + mbA s false args 0)) 0 = true ∧
      t.flag pgPWR (Fld.DOM_STAT_TARGET (28 + mbA s false args 0)) = true := by
  refine answers_command_of_frame hf rfl (by decide) (by decide) fun u hu => ?_
  have hrun : u.mbRun 0x22 false = (if ((u.modSmith fun x => { x with site := mbA s false args 0 }).setSlot (28 + mbA s false args 0) 0 true).domState
      (28 + mbA s false args 0) == 2 then ((u.modSmith fun x => { x with site := mbA s false args 0 }).setSlot (28 + mbA s false args 0) 0 true).hearthBack
        (mbA s false args 0) else (u.modSmith fun x => { x with site := mbA s false args 0 }).setSlot (28 + mbA s false args 0) 0 true) := by
    change u.mbHearthOnline = _
    rw [State.mbHearthOnline, hu.arg, if_neg (by omega), hu.offline, hoff]
    rfl
  have hsmith := modSmith_smith u fun x => { x with site := mbA s false args 0 }
  have hregs := modSmith_regs u fun x => { x with site := mbA s false args 0 }
  have hframe : SameFrame u (u.modSmith fun x => { x with site := mbA s false args 0 }) := ⟨rfl, rfl, rfl⟩
  generalize (u.modSmith fun x => { x with site := mbA s false args 0 }) = v at *
  generalize mbA s false args 0 = g at *
  have hget : ∀ f : FRef, f.off < 0x10000 → v.get pgPWR f = s.get pgPWR f := fun f ho =>
    (get_of_regs hregs _ _).trans (hu.get ho (.inl (by decide)))
  have hdom' : v.domState (28 + g) = 0 := (hget _ (by simp [Fld.DOM_STAT_STATE]; omega)).trans hdom
  have hvote : OwnVote (28 + g) true v (v.setSlot (28 + g) 0 true) :=
    ownVote_setSlot (by omega) (by omega) true (.inl rfl) (.inr ⟨hdom', (hget _ (by decide)).trans hpwr⟩)
  generalize v.setSlot (28 + g) 0 true = w at *
  rw [if_neg (by rw [hvote.dom, hdom']; decide)] at hrun
  exact ⟨w, hrun, hframe.trans hvote.frame, mbRuns_of_taken hu (by rw [hvote.smith, hsmith]) (by rw [hvote.smith, hsmith]) (by rw [hvote.smith, hsmith])
    ((hvote.reg_smith (by decide)).trans (reg_of_regs hregs _ _)), hvote.vote, hvote.target⟩

end

end Sys2Proof.Proofs
end
section
/-! ### HEARTH_OFFLINE (R343) -/

namespace Sys2Proof.Proofs

open Sys2Proof Sys2Proof.Machine Sys2Proof.Safety

/-- From `s` to `t` slice `h` alone changes, with the registers of its page. -/
structure SliceOnly (h : Nat) (s t : State) : Prop where
  smith : t.smith = s.smith
  frame : SameFrame s t
  page : OnlyPage (pgHRTH h) s t
  others : ∀ k, k ≠ h → t.hearthAt k = s.hearthAt k

section
variable {s t u : State} {bmc : Bool} {code tag g h : Nat} {args : List Nat}

theorem SliceOnly.refl (s : State) : SliceOnly h s s := ⟨rfl, ⟨rfl, rfl, rfl⟩, fun _ _ _ _ => rfl, fun _ _ => rfl⟩

theorem SliceOnly.trans (a : SliceOnly h s t) (b : SliceOnly h t u) : SliceOnly h s u :=
  ⟨b.smith.trans a.smith, a.frame.trans b.frame, onlyPage_trans a.page b.page, fun k hk => (b.others k hk).trans (a.others k hk)⟩

theorem SliceOnly.run {α : Type} (l : List α) (f : α → State → State) (s : State) (hf : ∀ a ∈ l, ∀ t, SliceOnly h t (f a t)) :
    SliceOnly h s (forAll l f s) :=
  forAll_keeps (SliceOnly h s) l f s (.refl s) fun a ha t ht => ht.trans (hf a ha t)

theorem SliceStep.smith {clean : Prop} (a : SliceStep clean h s t) : t.smith = s.smith := by rw [a.rest]

theorem SliceStep.sliceOnly {clean : Prop} (a : SliceStep clean h s t) : SliceOnly h s t :=
  ⟨a.smith, ⟨a.off, a.pending, a.time⟩, onlyPage_of_sameRegs a.regs (by simp), a.others⟩

theorem sliceOnly_modHearth (s : State) (h : Nat) (f : Hearth → Hearth) : SliceOnly h s (s.modHearth h f) :=
  ⟨rfl, ⟨rfl, rfl, rfl⟩, fun _ _ _ _ => rfl, fun _ hk => hearthAt_modHearth_ne _ _ hk⟩

theorem sliceOnly_count (s : State) (h n : Nat) (f : FRef) (ho : f.off < 0x10000) : SliceOnly h s (s.count (pgHRTH h) f n) :=
  ⟨rfl, ⟨rfl, rfl, rfl⟩, onlyPage_put s (pgHRTH h) _ f ho, fun _ _ => rfl⟩

theorem sliceOnly_unlockAll (s : State) (h : Nat) : SliceOnly h s (s.unlockAll h) :=
  .run _ _ s fun _ _ t => (sliceOnly_modHearth t h _).trans (sliceOnly_count _ h _ Fld.HRTH_LOCK_OVF_COUNT (by decide))

theorem sliceOnly_ropSlice (hh : h < 64) (s : State) (op : Nat) : SliceOnly h s (s.ropSlice h op) :=
  .run _ _ s fun _ _ _ => (sliceStep_ropSet hh).sliceOnly

/-- A slice cleans and leaves. -/
def sliceLeft (g i : Nat) (s : State) : State :=
  ((s.unlockAll (8 * g + i)).ropSlice (8 * g + i) 3).modHearth (8 * g + i) fun _ => { mode := 2 }

theorem sliceOnly_sliceLeft {i : Nat} (hg : g < 8) (hi : i < 8) (s : State) : SliceOnly (8 * g + i) s (sliceLeft g i s) :=
  ((sliceOnly_unlockAll s _).trans (sliceOnly_ropSlice (by omega) _ 3)).trans (sliceOnly_modHearth _ _ _)

/-- What the group's slices leave. -/
structure GroupLeft (g : Nat) (s t : State) : Prop where
  smith : t.smith = s.smith
  frame : SameFrame s t
  regs : ∀ p off, (p < pgHRTH (8 * g) ∨ pgHRTH (8 * g + 7) < p) → off < 0x10000 → t.reg p off = s.reg p off

theorem groupLeft_slices (hg : g < 8) (s : State) : GroupLeft g s (forAll (List.range 8) (sliceLeft g) s) ∧
    ∀ i, i < 8 → (forAll (List.range 8) (sliceLeft g) s).hearthAt (8 * g + i) = { mode := 2 } := by
  obtain ⟨hkept, hleft⟩ := foldl_establishes (GroupLeft g s) (fun i t => t.hearthAt (8 * g + i) = { mode := 2 }) (fun t i => sliceLeft g i t)
    (List.range 8) s ⟨rfl, ⟨rfl, rfl, rfl⟩, fun _ _ _ _ => rfl⟩
    (fun i hi t ht => by
      have hstep := sliceOnly_sliceLeft hg (List.mem_range.mp hi) t
      refine ⟨hstep.smith.trans ht.smith, ht.frame.trans hstep.frame, fun p off hp ho => (hstep.page p off ?_ ho).trans (ht.regs p off hp ho)⟩
      have := List.mem_range.mp hi
      simp only [pgHRTH] at hp ⊢
      omega)
    (fun i hi t _ => hearthAt_modHearth_same _ _ _ (by have := List.mem_range.mp hi; omega))
    (fun i j hj t _ hQ => by
      by_cases hij : i = j
      · subst hij
        exact hearthAt_modHearth_same _ _ _ (by have := List.mem_range.mp hj; omega)
      · exact ((sliceOnly_sliceLeft hg (List.mem_range.mp hj) t).others _ (by omega)).trans hQ)
  exact ⟨hkept, fun i hi => hleft i (.inl (List.mem_range.mpr hi))⟩

theorem bypassMode_offline (s : State) : s.bypassMode.get (pgHRTH 0) Fld.HRTH_GSTAT_OFFLINE = s.get (pgHRTH 0) Fld.HRTH_GSTAT_OFFLINE := by
  unfold State.bypassMode
  split
  · exact get_put_beside _ _ _ Fld.HRTH_GSTAT_MODE Fld.HRTH_GSTAT_OFFLINE rfl (by decide) (by decide)
  · rfl

theorem bitN_setBits_same (v : Nat) (i : Nat) : bitN (setBits v i 1 1) i = true := by
  change (bits _ i 1 == 1) = true
  rw [bits_setBits_same]
  rfl

/-- The group reads offline. -/
def groupOffline (s : State) (g : Nat) : State :=
  (s.put (pgHRTH 0) Fld.HRTH_GSTAT_OFFLINE (setBits (s.get (pgHRTH 0) Fld.HRTH_GSTAT_OFFLINE) g 1 1)).bypassMode

theorem groupOffline_shows (hg : g < 8) (s : State) : bitN ((groupOffline s g).get (pgHRTH 0) Fld.HRTH_GSTAT_OFFLINE) g = true ∧
    groupOffline s g = { s with regs := (groupOffline s g).regs } ∧ OnlyPage (pgHRTH 0) s (groupOffline s g) := by
  refine ⟨?_, regsAlone_trans (regsAlone_put ..) (bypassMode_eq _), onlyPage_trans (onlyPage_put _ _ _ _ (by decide))
    (onlyPage_of_sameRegs (bypassMode_same _) (by simp))⟩
  rw [groupOffline, bypassMode_offline, get_put_same _ _ _ _ (by decide)]
  change bitN (_ % 2 ^ 8) g = true
  rw [bitN_mod_two_pow hg, bitN_setBits_same]

theorem hearthOffline_refused (hf : MbFree s) (h8 : mbA s false args 0 < 8)
    (hbad : mbA s false args 0 = 0 ∨ s.scrWays ≠ 0 ∨ s.flag (pgHRTH 0) Fld.ROP_STAT_BUSY = true) :
    Answers (.hearthOffline false tag args) s fun t => MbEnds s t 0x21 tag 4 0 0 ∧ t.hearths = s.hearths := by
  refine answers_refused (code := 0x21) (status := 4) hf rfl (by decide) (by decide) (by decide) (fun u hu => ?_)
    fun t hend honly => ⟨hend, honly.hearths⟩
  change u.mbHearthOffline = _
  rw [State.mbHearthOffline, hu.arg, if_neg (by omega), hu.smithOnly.scrWays, hu.flag (by decide) (.inl (by decide)), if_pos]
  rcases hbad with h | h | h <;> simp [h]

theorem hearthOffline_leaves (hf : MbFree s) (h0 : 0 < mbA s false args 0) (h8 : mbA s false args 0 < 8) (hscr : s.scrWays = 0)
    (hrop : s.flag (pgHRTH 0) Fld.ROP_STAT_BUSY = false) (hon : bitN (s.get (pgHRTH 0) Fld.HRTH_GSTAT_OFFLINE) (mbA s false args 0) = false)
    (hvotes : ∀ j, 0 < j → j < 8 → bitN (s.votes (28 + mbA s false args 0)) j = false) :
    Answers (.hearthOffline false tag args) s fun t => MbRuns t 0x21 false (mbArgs s false args) ∧
      bitN (t.get (pgHRTH 0) Fld.HRTH_GSTAT_OFFLINE) (mbA s false args 0) = true ∧
      (∀ i, i < 8 → t.hearthAt (8 * mbA s false args 0 + i) = { mode := 2 }) ∧
      t.flag pgPWR (Fld.DOM_STAT_TARGET (28 + mbA s false args 0)) = false := by
  refine answers_command_of_frame hf rfl (by decide) (by decide) fun u hu => ?_
  have hrun : u.mbRun 0x21 false =
      (if ((groupOffline (forAll (List.range 8) (sliceLeft (mbA s false args 0)) (u.modSmith fun x => { x with site := mbA s false args 0 }))
          (mbA s false args 0)).setSlot (28 + mbA s false args 0) 0 false).flag pgPWR (Fld.DOM_STAT_TARGET (28 + mbA s false args 0)) = true
        then ((groupOffline (forAll (List.range 8) (sliceLeft (mbA s false args 0)) (u.modSmith fun x => { x with site := mbA s false args 0 }))
          (mbA s false args 0)).setSlot (28 + mbA s false args 0) 0 false).mbEnd 0
        else (groupOffline (forAll (List.range 8) (sliceLeft (mbA s false args 0)) (u.modSmith fun x => { x with site := mbA s false args 0 }))
          (mbA s false args 0)).setSlot (28 + mbA s false args 0) 0 false) := by
    change u.mbHearthOffline = _
    rw [State.mbHearthOffline, hu.arg, if_neg (by omega), hu.smithOnly.scrWays, hu.flag (by decide) (.inl (by decide)), hu.offline,
      if_neg (by simp [hscr, hrop, hon]; omega)]
    rfl
  have hsmith := modSmith_smith u fun x => { x with site := mbA s false args 0 }
  have hregs := modSmith_regs u fun x => { x with site := mbA s false args 0 }
  have hframe : SameFrame u (u.modSmith fun x => { x with site := mbA s false args 0 }) := ⟨rfl, rfl, rfl⟩
  generalize (u.modSmith fun x => { x with site := mbA s false args 0 }) = v at *
  generalize mbA s false args 0 = g at *
  obtain ⟨hgroup, hmodes⟩ := groupLeft_slices h8 v
  generalize forAll (List.range 8) (sliceLeft g) v = w at *
  obtain ⟨hbit, hrest, hpage⟩ := groupOffline_shows h8 w
  generalize groupOffline w g = x at *
  have hreg : ∀ p off, p < pgHRTH 0 → off < 0x10000 → x.reg p off = s.reg p off ∨ p = pgSMITH := fun p off hp ho => by
    by_cases hsm : p = pgSMITH
    · exact .inr hsm
    · rw [hpage p off (by omega) ho, hgroup.regs p off (.inl (by simp only [pgHRTH] at hp ⊢; omega)) ho, reg_of_regs hregs,
        hu.onlyPage p off hsm ho]
      exact .inl rfl
  have hx : ∀ j, 0 < j → j < 8 → bitN (x.votes (28 + g)) j = false := fun j hj hj8 => by
    have hval : x.votes (28 + g) = s.votes (28 + g) := by
      unfold State.votes State.get
      rw [(hreg pgPWR (Fld.VOTE_SLOT_LO (28 + g)).off (by decide) (by simp [Fld.VOTE_SLOT_LO]; omega)).resolve_right (by decide),
        (hreg pgPWR (Fld.VOTE_SLOT_HI (28 + g)).off (by decide) (by simp [Fld.VOTE_SLOT_HI]; omega)).resolve_right (by decide)]
    rw [hval]
    exact hvotes j hj hj8
  have hvote : OwnVote (28 + g) false x (x.setSlot (28 + g) 0 false) := ownVote_setSlot (by omega) (by omega) false (.inr hx) (.inl rfl)
  generalize x.setSlot (28 + g) 0 false = t at *
  rw [hvote.target, if_neg (by decide)] at hrun
  have hxsmith : x.smith = w.smith := by rw [hrest]
  have hxhearths : x.hearths = w.hearths := by rw [hrest]
  have hxframe : SameFrame w x := by rw [hrest]; exact ⟨rfl, rfl, rfl⟩
  have htsmith : t.smith = v.smith := hvote.smith.trans (hxsmith.trans hgroup.smith)
  refine ⟨t, hrun, hframe.trans (hgroup.frame.trans (hxframe.trans hvote.frame)), mbRuns_of_taken hu (by rw [htsmith, hsmith]) (by rw [htsmith, hsmith])
    (by rw [htsmith, hsmith]) ?_, ?_, fun i hi => ?_, hvote.target⟩
  · rw [hvote.reg_smith (by decide), hpage _ _ (by decide) (by decide), hgroup.regs _ _ (.inl (by simp only [pgHRTH, pgSMITH]; omega)) (by decide),
      reg_of_regs hregs]
  · rwa [hvote.regs.get (by decide) (by simp [DomReg, pgHRTH, pgPWR])]
  · rw [hearthAt_of_hearths (hvote.hearths.trans hxhearths)]
    exact hmodes i hi

end

end Sys2Proof.Proofs
end
section
/-! ### What the network leaves alone: SMITH's command and quench, every port's PORT_CFG, and the modules released (R526, R541) -/

namespace Sys2Proof.Proofs

open Sys2Proof Sys2Proof.Machine Sys2Proof.Safety

/-- What the network's own work leaves alone of the state: SMITH's command, the quench, power, MB_STAT, PORT_CFG of every port, and RELEASED of
every module. -/
def netView (s : State) : Smith × Quench × Bool × Nat × (Fin 4 → Nat) × (Fin 4 → Nat) :=
  (s.smith, s.quench, s.off, s.reg pgSMITH Reg.MB_STAT, fun n => s.reg (pgNEP n) Reg.PORT_CFG, fun e => s.get (pgEMB e) Fld.EMB_STAT_RELEASED)

section
variable (s : State)

/-! #### Fields and registers -/

/-- A register that is neither MB_STAT nor, at a port or a module, PORT_CFG or EMB_STAT, which stand at one offset. -/
def netReg (p off : Nat) : Bool := off < 0x10000 && p != pgSMITH && (off != Reg.PORT_CFG || decide (p < pgNEP 0))

theorem netReg_iff {p off : Nat} : netReg p off = true ↔ off < 0x10000 ∧ p ≠ pgSMITH ∧ (off ≠ Reg.PORT_CFG ∨ p < pgNEP 0) := by
  simp [netReg, and_assoc]

theorem netView_of_regsOnly {s t : State} (hsmith : t.smith = s.smith) (hquench : t.quench = s.quench) (hoff : t.off = s.off)
    (hregs : RegsOnly (netReg · ·) s t) : netView t = netView s := by
  have hmb : t.reg pgSMITH Reg.MB_STAT = s.reg pgSMITH Reg.MB_STAT := hregs _ _ (by decide) (by decide)
  have hcfg : ∀ n : Fin 4, t.reg (pgNEP n) Reg.PORT_CFG = s.reg (pgNEP n) Reg.PORT_CFG := fun n => hregs _ _ (by decide) (by revert n; decide)
  have hemb : ∀ e : Fin 4, t.get (pgEMB e) Fld.EMB_STAT_RELEASED = s.get (pgEMB e) Fld.EMB_STAT_RELEASED := fun e =>
    hregs.get (by decide) (by revert e; decide)
  simp only [netView, hsmith, hquench, hoff, hmb, hcfg, hemb]

@[simp] theorem netView_setReg {p off : Nat} (h : netReg p off = true) (v : Nat) : netView (s.setReg p off v) = netView s :=
  netView_of_regsOnly rfl rfl rfl fun q b hb hq => reg_setReg_ne _ _ _ _ _ _ fun hk => hq (by
    obtain ⟨rfl, rfl⟩ := regKey_inj hb (netReg_iff.mp h).1 hk
    exact h)

@[simp] theorem netView_put {p : Nat} {f : FRef} (h : netReg p f.off = true) (v : Nat) : netView (s.put p f v) = netView s := netView_setReg s h _
@[simp] theorem netView_count {p : Nat} {f : FRef} (h : netReg p f.off = true) (n : Nat) : netView (s.count p f n) = netView s := netView_put s h _
@[simp] theorem netView_raise1 {p : Nat} {f : FRef} (h : netReg p f.off = true) : netView (s.raise1 p f) = netView s := netView_put s h _
@[simp] theorem netView_status {p : Nat} {f : FRef} (h : netReg p f.off = true) (src : Nat) : netView (s.status p f src) = netView s :=
  netView_raise1 s h

@[simp] theorem netView_fire (n : Nat) : netView (s.fire n) = netView s := rfl

@[simp] theorem netView_record (r : Rec) : netView (s.record r) = netView s := by rw [record_eq]; rfl

/-- The counters of a page stand at other offsets. -/
@[simp] theorem netView_bump (p code q : Nat) (a b c : Option Nat) : netView (s.bump p code q a b c) = netView s := by
  have hreg : ∀ r off, off < 0x3040 → (s.bump p code q a b c).reg r off = s.reg r off := fun r off ho =>
    bump_reg s p code q r off a b c (by omega) (.inr (.inl ho))
  have hrest := bump_eq s p code q a b c
  generalize s.bump p code q a b c = t at *
  simp only [netView, State.get, hreg _ Reg.MB_STAT (by decide), hreg _ Reg.PORT_CFG (by decide), hreg _ Fld.EMB_STAT_RELEASED.off (by decide)]
  rw [hrest]

@[simp] theorem netView_ite (c : Prop) [Decidable c] (s t : State) : netView (if c then s else t) = if c then netView s else netView t :=
  apply_ite netView c s t

theorem netView_of_ite {s a b : State} {c : Prop} [Decidable c] (ha : netView a = netView s) (hb : netView b = netView s) :
    netView (if c then a else b) = netView s := by split <;> assumption

theorem netView_foldl {α : Type} (l : List α) (f : State → α → State) (h : ∀ t a, netView (f t a) = netView t) : netView (l.foldl f s) = netView s :=
  foldl_keeps (fun t => netView t = netView s) l f s rfl fun a _ t ht => (h t a).trans ht

@[simp] theorem netView_modNe (g : Ne → Ne) : netView (s.modNe g) = netView s := rfl
@[simp] theorem netView_modFn (f : Nat) (g : Fn → Fn) : netView (s.modFn f g) = netView s := rfl
@[simp] theorem netView_modIxu (g : Ixu → Ixu) : netView (s.modIxu g) = netView s := rfl
@[simp] theorem netView_modDma (id : Nat) (g : Dma → Dma) : netView (s.modDma id g) = netView s := rfl
@[simp] theorem netView_modQp (f q : Nat) (g : Qp → Qp) : netView (s.modQp f q g) = netView s := rfl
@[simp] theorem netView_modCtx (c : Nat) (g : Ctx → Ctx) : netView (s.modCtx c g) = netView s := rfl
@[simp] theorem netView_jobNew (j : NeJob) : netView (s.jobNew j) = netView s := rfl
@[simp] theorem netView_send (p : Pkt) (dst : BitVec 8) : netView (s.send p dst) = netView s := rfl
@[simp] theorem netView_setWalk (id : Nat) (w : Walk) : netView (s.setWalk id w) = netView s := rfl

/-! #### The agents' requests (R169, R172) -/

@[simp] theorem netView_agentSend (p : Pkt) (dst : BitVec 8) (use : AgUse) : netView (s.agentSend p dst use) = netView s := by
  unfold State.agentSend
  dsimp only
  split <;> rfl

@[simp] theorem netView_agentEnd (n : BitVec 8) (txn : Nat) : netView (s.agentEnd n txn) = netView s := by
  unfold State.agentEnd
  dsimp only
  split
  · rfl
  · exact netView_agentSend _ _ _ _

@[simp] theorem netView_agentRead (n : BitVec 8) (pa : Nat) (use : AgUse) : netView (s.agentRead n pa use) = netView s := netView_agentSend ..

@[simp] theorem netView_agentWrite (n : BitVec 8) (pa : Nat) (data : LineData) (mask : ByteMask) (use : AgUse) :
    netView (s.agentWrite n pa data mask use) = netView s := netView_agentSend ..

/-! #### The end of a DMA (R272, R273) -/

@[simp] theorem netView_dmaGone (id : Nat) : netView (s.dmaGone id) = netView s := rfl

@[simp] theorem netView_tlpTx (n port : Nat) : netView (s.tlpTx n port) = netView s := netView_bump ..

@[simp] theorem netView_deviceTold (d : Dma) (status : Nat) (data : LineData) (ep : Bool) : netView (s.deviceTold d status data ep) = netView s := by
  unfold State.deviceTold
  extract_lets t
  have ht : netView t = netView s := (netView_ite ..).trans (by rw [netView_tlpTx, ite_self])
  split
  · exact ht
  · split <;> exact ht

@[simp] theorem netView_dmaEnd (id status : Nat) (data : LineData) (ep : Bool) : netView (s.dmaEnd id status data ep) = netView s := by
  unfold State.dmaEnd
  split
  · rfl
  · simp (disch := decide)

@[simp] theorem netView_dmaRelease : netView s.dmaRelease = netView s :=
  netView_foldl _ _ _ fun t e => by
    split
    · simp only [netView_ite, netView_deviceTold, netView_dmaGone, ite_self]
    · rfl

@[simp] theorem netView_dmaPart (id status : Nat) (data : LineData) (mask : ByteMask) (ep : Bool) :
    netView (s.dmaPart id status data mask ep) = netView s := by
  unfold State.dmaPart
  split <;> simp

@[simp] theorem netView_dmaSweep : netView s.dmaSweep = netView s :=
  netView_foldl _ _ _ fun t e => by
    split
    · simp only [netView_ite, netView_dmaGone, netView_dmaPart, netView_agentEnd, ite_self]
    · rfl

/-! #### Translation (R482 to R498, R516 to R518) -/

@[simp] theorem netView_recIxu (sub src stream : Nat) (va : Option Nat) : netView (s.recIxu sub src stream va) = netView s := netView_record ..

@[simp] theorem netView_fqDrop : netView s.fqDrop = netView s := by simp (disch := decide) [State.fqDrop]

@[simp] theorem netView_fqPump : netView s.fqPump = netView s := by
  unfold State.fqPump
  split
  · rfl
  · split <;> simp

@[simp] theorem netView_dmaFault (id : Nat) (d : Dma) (stage level typ bind entPa ipa : Nat) :
    netView (s.dmaFault id d stage level typ bind entPa ipa) = netView s := by
  unfold State.dmaFault
  simp only [netView_dmaEnd, netView_ite, netView_fqPump, netView_modIxu, netView_fqDrop, netView_bump, ite_self]

@[simp] theorem netView_dmaGrant (id : Nat) (d : Dma) (t : Tlb) : netView (s.dmaGrant id d t) = netView s := by
  unfold State.dmaGrant
  dsimp only
  split
  · rfl
  · split <;> rfl

@[simp] theorem netView_walkFault (id : Nat) (d : Dma) (w : Walk) (typ entPa : Nat) : netView (s.walkFault id d w typ entPa) = netView s :=
  netView_dmaFault ..

@[simp] theorem netView_walkRead (id : Nat) (d : Dma) (w : Walk) (pa : Nat) : netView (s.walkRead id d w pa) = netView s := by
  simp [State.walkRead]

@[simp] theorem netView_walkStage2 (id : Nat) (d : Dma) (w : Walk) (ipa why : Nat) : netView (s.walkStage2 id d w ipa why) = netView s := by
  simp [State.walkStage2]

@[simp] theorem netView_walkStage1 (id : Nat) (d : Dma) (w : Walk) : netView (s.walkStage1 id d w) = netView s := by simp [State.walkStage1]

@[simp] theorem netView_walkTop (id : Nat) (d : Dma) (w : Walk) (cached : Bool) : netView (s.walkTop id d w cached) = netView s := by
  unfold State.walkTop
  extract_lets _ _ _ hit
  refine netView_of_ite (netView_walkFault ..) ?_
  cases hit <;> exact netView_walkStage1 ..

@[simp] theorem netView_softInfo : netView s.softInfo = netView s := by
  unfold State.softInfo
  dsimp only
  split <;> simp (disch := decide)

@[simp] theorem netView_softStall (id : Nat) : netView (s.softStall id) = netView s := by simp (disch := decide) [State.softStall]

@[simp] theorem netView_dmaBound (id : Nat) (d : Dma) (bind : Nat) : netView (s.dmaBound id d bind) = netView s := by
  unfold State.dmaBound
  split
  · exact netView_dmaFault ..
  split
  · simp only [netView_ite, netView_dmaFault, netView_modDma, ite_self]
  split
  · rfl
  split
  · rfl
  extract_lets _ ne
  cases ne with
  | some t => exact netView_dmaGrant ..
  | none =>
    dsimp only
    split
    · simp only [netView_dmaGrant, netView_ite, netView_modNe, ite_self]
    · exact (netView_walkTop ..).trans (netView_bump ..)

@[simp] theorem netView_dmaTranslate (id : Nat) (d : Dma) : netView (s.dmaTranslate id d) = netView s := by
  unfold State.dmaTranslate
  split
  · exact netView_dmaEnd ..
  rw [← netView_bump s pgIXU 0x060]
  generalize s.bump pgIXU 0x060 = s
  dsimp only
  split
  · simp (disch := decide) only [netView_dmaEnd, netView_ite, netView_bump, netView_recIxu, netView_modIxu, netView_status, ite_self]
  · split
    · rfl
    · split
      · exact netView_dmaFault ..
      · split
        · simp only [netView_dmaGrant, netView_ite, netView_dmaFault, ite_self]
        · simp only [netView_dmaEnd, netView_ite, netView_softStall, ite_self]
  · split
    · exact netView_dmaBound ..
    · split
      · exact netView_dmaFault ..
      · simp only [netView_dmaFault, netView_ite, netView_agentRead, netView_bump, netView_setWalk, ite_self]

@[simp] theorem netView_dmaNew (d : Dma) : netView (s.dmaNew d) = netView s := by
  unfold State.dmaNew
  dsimp only
  split
  · rfl
  · exact netView_dmaTranslate ..

/-! #### Forwarded SYNCs (R503, R505) -/


@[simp] theorem netView_syncPump : netView s.syncPump = netView s := by
  unfold State.syncPump
  extract_lets s1 s2 ready s3 s4 live done s5
  calc netView (done.foldl (fun s e => s.neAcked.xlatAck nodeNE e.1 false) s5)
    _ = netView s4 := netView_foldl _ _ _ fun t e => rfl
    _ = netView s3 := netView_foldl _ _ _ fun t y => by split <;> rfl
    _ = netView s1 := rfl
    _ = netView s := (netView_dmaRelease _).trans (netView_dmaSweep s)

end

end Sys2Proof.Proofs
end
section
/-! ### What the NE leaves alone (R543 to R599) -/

namespace Sys2Proof.Proofs

open Sys2Proof Sys2Proof.Machine Sys2Proof.Safety

section
variable (s : State)

/-! #### Jobs -/

@[simp] theorem netView_neRead (kind : NeKind) (f va n : Nat) : netView (s.neRead kind f va n) = netView s :=
  (netView_foldl _ _ _ fun _ _ => netView_dmaNew ..).trans (netView_jobNew ..)

@[simp] theorem netView_neWrite (kind : NeKind) (f va : Nat) (data : List Byte) (mode : Nat) : netView (s.neWrite kind f va data mode) = netView s :=
  (netView_foldl _ _ _ fun _ _ => netView_dmaNew ..).trans (netView_jobNew ..)

@[simp] theorem netView_nePhysRead (kind : NeKind) (f pa n : Nat) : netView (s.nePhysRead kind f pa n) = netView s :=
  (netView_foldl _ _ _ fun _ _ => netView_dmaNew ..).trans (netView_jobNew ..)

@[simp] theorem netView_nePhysWrite (kind : NeKind) (f rid pa : Nat) (data : List Byte) (dk : Nat) :
    netView (s.nePhysWrite kind f rid pa data dk) = netView s := (netView_dmaNew ..).trans (netView_jobNew ..)

@[simp] theorem netView_jobPurge (id : Nat) : netView (s.jobPurge id) = netView s := rfl

@[simp] theorem netView_recEndpoint (sub src page word tag : Nat) : netView (s.recEndpoint sub src page word tag) = netView s := netView_record ..

/-! #### Completions and messages (R586 to R597) -/

@[simp] theorem netView_cplPost (f q : Nat) (entry : Option Nat) : netView (s.cplPost f q entry) = netView s := by cases entry <;> rfl

@[simp] theorem netView_sqDrain (f q n : Nat) : netView (s.sqDrain f q n) = netView s := by
  induction n generalizing s with
  | zero => rfl
  | succ n ih =>
    unfold State.sqDrain
    repeat' split
    all_goals simp only [ih, netView_cplPost, netView_modQp]

@[simp] theorem netView_sqFlow (f q : Nat) : netView (s.sqFlow f q) = netView s := netView_sqDrain ..
@[simp] theorem netView_sqMark (f q idx status : Nat) : netView (s.sqMark f q idx status) = netView s := rfl

@[simp] theorem netView_sqDone (f q idx status : Nat) : netView (s.sqDone f q idx status) = netView s := netView_sqFlow ..

@[simp] theorem netView_ctxToError (c : Nat) : netView (s.ctxToError c) = netView s := by
  have habort : netView (s.ctxAbort c) = netView s := (netView_foldl _ _ _ fun _ _ => netView_sqDone ..).trans (netView_modCtx ..)
  unfold State.ctxToError
  simp (disch := decide) only [netView_ite, netView_status, netView_count, habort, ite_self]

theorem netView_ctxsToError (l : List Nat) : netView (l.foldl (fun s c => s.ctxToError c) s) = netView s :=
  netView_foldl _ _ _ fun t c => netView_ctxToError t c

@[simp] theorem netView_msixPost (f v : Nat) : netView (s.msixPost f v) = netView s := by
  unfold State.msixPost
  simp only [netView_ite, netView_modFn, netView_nePhysWrite, ite_self]

@[simp] theorem netView_msixSend (f v : Nat) : netView (s.msixSend f v) = netView s := by
  unfold State.msixSend
  simp only [netView_ite, netView_msixPost, netView_recEndpoint, netView_fire, netView_ctxsToError, netView_modFn, ite_self]

@[simp] theorem netView_fnError (f cause : Nat) : netView (s.fnError f cause) = netView s := by
  unfold State.fnError
  simp only [netView_ite, netView_msixSend, netView_recEndpoint, netView_fire, netView_ctxsToError, netView_modFn, ite_self]

@[simp] theorem netView_qpKick (f q : Nat) : netView (s.qpKick f q) = netView s := by
  unfold State.qpKick
  split
  · rfl
  · simp only [netView_ite, netView_neRead, netView_modQp, ite_self]

/-! #### Frames and packets sent (R524, R525, R547, R553) -/

@[simp] theorem netView_recNet (sub src page m result : Nat) : netView (s.recNet sub src page m result) = netView s := netView_record ..

/-- A port's registers other than PORT_CFG. -/
theorem netReg_nep (n : Nat) {off : Nat} (h : off < 0x10000) (hne : off ≠ Reg.PORT_CFG) : netReg (pgNEP n) off = true :=
  netReg_iff.mpr ⟨h, by simp [pgNEP, pgSMITH], .inl hne⟩

@[simp] theorem netView_bufError (n : Nat) (buf : EccOutcome) : netView (s.bufError n buf) = netView s := by
  cases buf with
  | clean => rfl
  | corrected => exact netView_raise1 _ (netReg_nep n (by decide) (by decide))
  | uncorrectable =>
    exact (netView_recNet ..).trans ((netView_status _ (netReg_nep n (by decide) (by decide)) _).trans
      (netView_count _ (netReg_nep n (by decide) (by decide)) _))

/-- The counters of a port's interfaces (R524, R545). -/
theorem netReg_frames (n k : Nat) : netReg (pgNEP n) (Fld.TX_DOWN_COUNT (k % 4)).off = true ∧ netReg (pgNEP n) (Fld.TX_FRAMES_COUNT (k % 4)).off = true ∧
    netReg (pgNEP n) (Fld.RX_DROP_BUF_COUNT (k % 4)).off = true := by
  refine ⟨?_, ?_, ?_⟩ <;> refine netReg_nep n ?_ ?_ <;>
    simp [Fld.TX_DOWN_COUNT, Fld.TX_FRAMES_COUNT, Fld.RX_DROP_BUF_COUNT, Reg.PORT_CFG] <;> omega

@[simp] theorem netView_frameOut (i : Nat) (fr : Frame) (buf : EccOutcome) : netView (s.frameOut i fr buf) = netView s := by
  unfold State.frameOut
  simp only [netView_ite, netView_count _ (netReg_frames _ _).1, netView_count _ (netReg_frames _ _).2.1, netView_modNe, netView_bump,
    netView_bufError, ite_self]

@[simp] theorem netView_chainTx (c : Nat) (p : ChainPkt) (retx : Bool) (buf : EccOutcome) : netView (s.chainTx c p retx buf) = netView s := by
  unfold State.chainTx
  simp (disch := decide) only [netView_ite, netView_frameOut, netView_modNe, netView_bump, netView_status, netView_modCtx, netView_ctxToError, ite_self]

@[simp] theorem netView_chainAck (c : Nat) : netView (s.chainAck c) = netView s := (netView_modCtx ..).trans (netView_chainTx ..)
@[simp] theorem netView_chainNak (c psn reason : Nat) : netView (s.chainNak c psn reason) = netView s := netView_chainTx ..

/-! #### Operations of connections (R555 to R573) -/

@[simp] theorem netView_payloadDone (c op n : Nat) (j : NeJob) : netView (s.payloadDone c op n j) = netView s := by
  unfold State.payloadDone
  dsimp only
  split
  · rfl
  · simp only [netView_ite, netView_ctxToError, netView_sqMark, netView_modCtx, ite_self]

@[simp] theorem netView_opFinish (c : Nat) (o : ChOp) (status : Nat) : netView (s.opFinish c o status) = netView s :=
  (netView_qpKick ..).trans (netView_sqDone ..)

@[simp] theorem netView_opsCheck (c : Nat) : netView (s.opsCheck c) = netView s := netView_foldl _ _ _ fun _ _ => netView_opFinish ..

@[simp] theorem netView_rxDrain (f q n : Nat) : netView (s.rxDrain f q n) = netView s := by
  induction n generalizing s with
  | zero => rfl
  | succ n ih =>
    unfold State.rxDrain
    repeat' split
    all_goals simp only [ih, netView_cplPost, netView_modQp]

@[simp] theorem netView_rxDone (f q idx entry : Nat) : netView (s.rxDone f q idx entry) = netView s := netView_rxDrain ..

@[simp] theorem netView_rxPerformed (c psn : Nat) : netView (s.rxPerformed c psn) = netView s := by
  unfold State.rxPerformed
  extract_lets s1 x ended s2 s3 asked s4
  have h3 : netView s3 = netView s := calc
    netView s3 = netView s2 := by
      refine netView_foldl s2 ended _ fun _ _ => ?_
      exact netView_rxDone ..
    _ = netView s1 := netView_modCtx ..
    _ = netView s := netView_modCtx ..
  have h4 : netView s4 = netView s := (netView_modCtx ..).trans h3
  exact netView_of_ite ((netView_chainAck s4 c).trans h4) h4

@[simp] theorem netView_respRefuse (rid reason : Nat) : netView (s.respRefuse rid reason) = netView s := by
  unfold State.respRefuse
  split
  · rfl
  · simp only [netView_ite, netView_modCtx, netView_rxPerformed, netView_chainNak, netView_modNe, ite_self]

@[simp] theorem netView_respEnd (rid : Nat) : netView (s.respEnd rid) = netView s := by
  unfold State.respEnd
  split
  · rfl
  · exact netView_rxPerformed ..

@[simp] theorem netView_sendPlace (rid : Nat) (r : RespOp) (b : RecvBuf) : netView (s.sendPlace rid r b) = netView s :=
  (netView_neWrite ..).trans (netView_modCtx ..)

@[simp] theorem netView_sendStart (rid : Nat) (r : RespOp) : netView (s.sendStart rid r) = netView s := by
  unfold State.sendStart
  dsimp only
  split
  · exact netView_sendPlace ..
  · refine netView_of_ite (netView_modCtx ..) ?_
    split
    · exact netView_respRefuse ..
    · exact netView_of_ite (netView_respRefuse ..) (netView_neRead ..)

@[simp] theorem netView_respChecked (rid : Nat) (r : RespOp) (e : Nat) : netView (s.respChecked rid r e) = netView s := by
  unfold State.respChecked
  refine netView_of_ite (netView_respRefuse ..) (netView_of_ite (netView_respRefuse ..) (netView_of_ite (netView_respRefuse ..) ?_))
  split
  · exact netView_neWrite ..
  · exact netView_neRead ..
  · exact (netView_dmaNew ..).trans (netView_jobNew ..)

@[simp] theorem netView_readResp (c psn : Nat) (data : List Byte) (off n : Nat) : netView (s.readResp c psn data off n) = netView s := by
  induction n generalizing s off with
  | zero => rfl
  | succ n ih =>
    unfold State.readResp
    simp only [netView_ite, ih, netView_chainTx, ite_self]

@[simp] theorem netView_respAccessed (rid : Nat) (j : NeJob) : netView (s.respAccessed rid j) = netView s := by
  unfold State.respAccessed
  split
  · rfl
  · refine netView_of_ite (netView_modNe ..) (netView_of_ite (netView_respRefuse ..) ?_)
    split <;> simp only [netView_respEnd, netView_readResp, netView_chainTx, netView_modCtx]

@[simp] theorem netView_rqFetched (q rid : Nat) (j : NeJob) : netView (s.rqFetched q rid j) = netView s := by
  unfold State.rqFetched
  split
  · rfl
  · refine netView_of_ite (netView_fnError ..) ?_
    exact (netView_foldl _ _ _ fun _ _ => netView_sendStart ..).trans ((netView_modCtx ..).trans (netView_sendPlace ..))

@[simp] theorem netView_placeDone (c op off n : Nat) (bad : Bool) : netView (s.placeDone c op off n bad) = netView s :=
  netView_of_ite ((netView_ctxToError ..).trans (netView_foldl _ _ _ fun _ _ => netView_sqMark ..)) (netView_opsCheck ..)

/-! #### Raw frames and the flow table (R548 to R551, R584 to R591) -/

@[simp] theorem netView_rawDeliver (f q ingress : Nat) (fr : Frame) : netView (s.rawDeliver f q ingress fr) = netView s := by
  unfold State.rawDeliver
  split
  · rfl
  · simp only [netView_ite, netView_count _ (netReg_frames _ _).2.2, netView_neRead, netView_modNe, netView_modQp, ite_self]

@[simp] theorem netView_toFn (f ingress : Nat) (fr : Frame) : netView (s.toFn f ingress fr) = netView s := by
  unfold State.toFn
  split
  · exact netView_rawDeliver ..
  · rfl

@[simp] theorem netView_toExc (ingress : Nat) (fr : Frame) : netView (s.toExc ingress fr) = netView s := by
  unfold State.toExc
  split
  · exact netView_rawDeliver ..
  · exact netView_count _ (by decide) _

@[simp] theorem netView_rawFetched (q id : Nat) (j : NeJob) : netView (s.rawFetched q id j) = netView s := by
  unfold State.rawFetched
  split
  · rfl
  · exact netView_of_ite (netView_fnError ..) (netView_neWrite ..)

@[simp] theorem netView_rawPlaced (q idx ingress e : Nat) (j : NeJob) : netView (s.rawPlaced q idx ingress e j) = netView s := by
  unfold State.rawPlaced
  simp only [netView_ite, netView_rxDone, netView_count _ (netReg_frames _ _).2.2, ite_self]

@[simp] theorem netView_flowAct (ingress : Nat) (fr : Frame) (e : Nat) : netView (s.flowAct ingress fr e) = netView s := by
  unfold State.flowAct
  dsimp only
  split
  · exact netView_of_ite (netView_toFn ..) (netView_frameOut ..)
  · exact netView_toExc ..
  · rfl

@[simp] theorem netView_flowMiss (ingress : Nat) (fr : Frame) : netView (s.flowMiss ingress fr) = netView s :=
  netView_of_ite (netView_toExc ..) (netView_count _ (by decide) _)

@[simp] theorem netView_flowPick (ingress : Nat) (fr : Frame) (entries : List Nat) : netView (s.flowPick ingress fr entries) = netView s := by
  unfold State.flowPick
  dsimp only
  split
  · exact netView_flowAct ..
  · exact netView_flowMiss ..

@[simp] theorem netView_flowLookup (ingress : Nat) (fr : Frame) : netView (s.flowLookup ingress fr) = netView s := by
  unfold State.flowLookup
  refine netView_of_ite (netView_flowMiss ..) ?_
  dsimp only
  split
  · exact netView_flowPick ..
  · simp only [netView_nePhysRead, netView_bump, netView_modNe]

@[simp] theorem netView_flowFetched (id b : Nat) (j : NeJob) : netView (s.flowFetched id b j) = netView s := by
  unfold State.flowFetched
  split
  · rfl
  · exact netView_of_ite (netView_flowMiss ..) (netView_flowPick ..)

/-! #### Admin commands and the end of a job (R598) -/

@[simp] theorem netView_aqKick (f : Nat) : netView (s.aqKick f) = netView s := netView_of_ite rfl (netView_neRead ..)

@[simp] theorem netView_acqPost (f status result : Nat) : netView (s.acqPost f status result) = netView s := by
  unfold State.acqPost
  dsimp only
  split
  · rfl
  · exact netView_neWrite ..

@[simp] theorem netView_acqWritten (f : Nat) (j : NeJob) : netView (s.acqWritten f j) = netView s := by
  unfold State.acqWritten
  simp only [netView_ite, netView_fnError, netView_aqKick, netView_msixSend, netView_modFn, ite_self]

@[simp] theorem netView_aqFetched (f : Nat) (j : NeJob) : netView (s.aqFetched f j) = netView s := by
  unfold State.aqFetched
  simp only [netView_ite, netView_fnError, netView_neRead, netView_acqPost, netView_modFn, ite_self]

@[simp] theorem netView_aqParamDone (f : Nat) (j : NeJob) : netView (s.aqParamDone f j) = netView s :=
  netView_of_ite (netView_acqPost ..) (netView_modFn ..)

@[simp] theorem netView_sqFetched (f q idx : Nat) (j : NeJob) : netView (s.sqFetched f q idx j) = netView s := by
  unfold State.sqFetched
  simp only [netView_ite, netView_fnError, netView_qpKick, netView_sqFlow, netView_modQp, ite_self]

@[simp] theorem netView_jobDone (j : NeJob) : netView (s.jobDone j) = netView s := by
  unfold State.jobDone
  dsimp only
  cases j.kind with
  | cplWrite q =>
    refine netView_of_ite (netView_fnError ..) ?_
    split
    · exact netView_of_ite (netView_neWrite ..) rfl
    · rfl
  | winRead r i =>
    dsimp only
    split
    · rfl
    · exact netView_of_ite (netView_respRefuse ..) (netView_respChecked ..)
  | _ =>
    simp only [netView_ite, netView_sqFetched, netView_rqFetched, netView_rawFetched, netView_payloadDone, netView_sqDone, netView_flowLookup,
      netView_respAccessed, netView_placeDone, netView_fnError, netView_aqFetched, netView_aqParamDone, netView_acqPost, netView_acqWritten,
      netView_flowFetched, netView_rawPlaced, ite_self]

@[simp] theorem netView_nePump (n : Nat) : netView (s.nePump n) = netView s := by
  induction n generalizing s with
  | zero => rfl
  | succ n ih =>
    have hpurge : ∀ l : List (Nat × NeJob), netView (l.foldl (fun s e => s.jobPurge e.1) s) = netView s := fun l =>
      netView_foldl _ _ _ fun _ _ => netView_jobPurge ..
    unfold State.nePump
    dsimp only
    split
    · exact hpurge _
    · simp only [ih, netView_jobDone, netView_modNe, hpurge]

/-- What follows a command in the network leaves SMITH's command and the ports' modes alone. -/
theorem netView_afterDma : netView s.afterDma = netView s := (netView_syncPump _).trans ((netView_nePump ..).trans (netView_dmaSweep s))

end

end Sys2Proof.Proofs
end
section
/-! ### What ports, interfaces and lanes leave alone (R524 to R531) -/

namespace Sys2Proof.Proofs

open Sys2Proof Sys2Proof.Machine Sys2Proof.Safety

section
variable (s : State)

@[simp] theorem netView_upStat (n : Nat) : netView (s.upStat n) = netView s := netView_put _ (netReg_nep n (by decide) (by decide)) _

@[simp] theorem netView_modIntf (i : Nat) (g : Intf → Intf) : netView (s.modIntf i g) = netView s := (netView_upStat ..).trans (netView_modNe ..)

@[simp] theorem netView_intfDown (i : Nat) : netView (s.intfDown i) = netView s := by
  unfold State.intfDown
  simp only [netView_ite, netView_fire, netView_setReg _ (netReg_nep _ (off := Reg.PORT_STAT) (by decide) (by decide)), netView_modIntf, ite_self]

@[simp] theorem netView_setLfault (i v : Nat) : netView (s.setLfault i v) = netView s := netView_put _ (netReg_nep _ (by decide) (by decide)) _

@[simp] theorem netView_alignLost (i : Nat) : netView (s.alignLost i) = netView s := by
  unfold State.alignLost
  simp only [netView_ite, netView_intfDown, netView_modIntf, netView_setLfault, ite_self]

@[simp] theorem netView_pfcUpdate (n : Nat) : netView (s.pfcUpdate n) = netView s := rfl

/-- The apply edge of a port's MODE (R526). -/
theorem netView_portModeApplied (n : Nat) : netView (s.portModeApplied n) = netView s := by
  unfold State.portModeApplied
  extract_lets p s1 s2 s3 gone
  calc netView (gone.foldl (fun s e => s.ctxToError e.1) s3)
    _ = netView s3 := netView_foldl _ _ _ fun _ _ => netView_ctxToError ..
    _ = netView s2 := netView_foldl _ _ _ fun _ _ => netView_intfDown ..
    _ = netView s1 := netView_modNe ..
    _ = netView s := netView_foldl _ _ _ fun t e => netView_count t (netReg_frames n e.1).2.2 1

/-! #### Lanes (R528 to R531) -/

/-- The registers of an optical engine and of its modules that lanes show themselves in. -/
theorem netReg_opt (o : Nat) {off : Nat} (h : off < 0x10000) (hne : off ≠ Reg.PORT_CFG) : netReg (pgOPT o) off = true :=
  netReg_iff.mpr ⟨h, by simp [pgOPT, pgSMITH], .inl hne⟩

theorem netReg_emb (e : Nat) {off : Nat} (h : off < 0x10000) (hne : off ≠ Reg.PORT_CFG) : netReg (pgEMB e) off = true :=
  netReg_iff.mpr ⟨h, by simp [pgEMB, pgSMITH], .inl hne⟩

/-- LIT stands beside RELEASED in EMB_STAT. -/
@[simp] theorem netView_putLit (e v : Nat) : netView (s.put (pgEMB e) Fld.EMB_STAT_LIT v) = netView s := by
  have hreg : ∀ q off, off < 0x10000 → q < pgEMB 0 → (s.put (pgEMB e) Fld.EMB_STAT_LIT v).reg q off = s.reg q off := fun q off ho hq =>
    reg_put_ne _ _ _ _ _ _ fun hk => by
      have := (regKey_inj ho (by decide) hk).1
      simp only [pgEMB] at this hq
      omega
  have hemb : ∀ i : Fin 4, (s.put (pgEMB e) Fld.EMB_STAT_LIT v).get (pgEMB i) Fld.EMB_STAT_RELEASED = s.get (pgEMB i) Fld.EMB_STAT_RELEASED := fun i => by
    by_cases hi : (i : Nat) = e
    · rw [hi]
      exact get_put_beside s (pgEMB e) v Fld.EMB_STAT_LIT Fld.EMB_STAT_RELEASED rfl (by decide) (by decide)
    · exact get_put_ne _ _ _ _ _ _ fun hk => by
        have := (regKey_inj (by decide) (by decide) hk).1
        simp only [pgEMB] at this
        omega
  have hcfg : ∀ n : Fin 4, (s.put (pgEMB e) Fld.EMB_STAT_LIT v).reg (pgNEP n) Reg.PORT_CFG = s.reg (pgNEP n) Reg.PORT_CFG := fun n =>
    hreg _ _ (by decide) (by simp only [pgNEP, pgEMB]; omega)
  simp only [netView, hreg pgSMITH Reg.MB_STAT (by decide) (by decide), hcfg, hemb, State.put_smith, State.put_quench, State.put_off]

@[simp] theorem netView_modEmb (e : Nat) (g : Ember → Ember) : netView (s.modEmb e g) = netView s := rfl
@[simp] theorem netView_laneUnlit (o k : Nat) : netView (s.laneUnlit o k) = netView s := rfl

@[simp] theorem netView_setLaneBit (o k : Nat) {f : FRef} (h : f.off < 0x10000) (hne : f.off ≠ Reg.PORT_CFG) (v : Nat) :
    netView (s.setLaneBit o k f v) = netView s :=
  netView_put _ (netReg_opt o h hne) _

@[simp] theorem netView_laneDark (o k : Nat) : netView (s.laneDark o k) = netView s := by
  unfold State.laneDark
  simp (disch := decide) only [netView_ite, netView_alignLost, netView_status _ (netReg_opt o (off := Fld.OPT_STAT_DARK.off) (by decide) (by decide)),
    netView_setLaneBit, netView_laneUnlit, ite_self]

@[simp] theorem netView_laneStep (o k : Nat) : netView (s.laneStep o k) = netView s := by
  unfold State.laneStep
  extract_lets keep t e p eol fault q
  have ht : netView t = netView s := rfl
  have hmove : ∀ v e why, netView v = netView s → netView (v.laneMove o k e why) = netView s := fun v e why hv => hv
  refine netView_of_ite rfl (netView_of_ite rfl (netView_of_ite ht (netView_of_ite ?_ (netView_of_ite ?_ ?_))))
  · exact netView_of_ite (hmove _ _ _ ht) ((netView_setLaneBit _ _ _ (by decide) (by decide) _).trans ht)
  · exact netView_of_ite (hmove _ _ _ ht) (netView_of_ite ht (netView_of_ite (hmove _ _ _ ht) (netView_of_ite ((netView_laneDark ..).trans ht) ht)))
  · exact netView_of_ite (hmove _ _ _ ht) (netView_of_ite ht (netView_of_ite (hmove _ _ _ ht) ht))

@[simp] theorem netView_embShow (e : Nat) : netView (s.embShow e) = netView s := by
  unfold State.embShow
  simp only [netView_putLit, netView_put _ (netReg_emb e (off := Fld.EMB_CHAN_STAT_CH_USED.off) (by decide) (by decide)),
    netView_put _ (netReg_emb e (off := Fld.EMB_CHAN_STAT_CH_STBY.off) (by decide) (by decide)), netView_modEmb]

theorem netView_optRefresh (o : Nat) : netView (s.optRefresh o) = netView s := by
  unfold State.optRefresh
  simp only [netView_embShow, netView_ite, netView_foldl _ _ _ fun t k => netView_laneStep t o k, ite_self]

end

end Sys2Proof.Proofs
end
section
/-! ### A quench that carries one port's MODE (R90 to R98, R526, R574) -/

namespace Sys2Proof.Proofs

open Sys2Proof Sys2Proof.Machine Sys2Proof.Safety

section
variable {s t u x : State} {n p mask mode : Nat}

/-! #### Pending values of groups -/

theorem mem_allPages (h : (pageRow p).isSome = true) : p ∈ allPages := by
  obtain ⟨r, hr⟩ := Option.isSome_iff_exists.mp h
  have hp := List.find?_some hr
  simp only [Bool.and_eq_true, decide_eq_true_eq] at hp
  exact List.mem_flatMap.mpr ⟨r, List.mem_of_find?_eq_some hr, List.mem_map.mpr ⟨p - r.first, List.mem_range.mpr (by omega), by omega⟩⟩

theorem pageRow_of_selected (h : s.qSelected p mask = true) : (pageRow p).isSome = true := by
  unfold State.qSelected at h
  split at h
  · exact pageRow_of_qGroup ‹_›
  · cases h

/-- A group without pending values: none of its pages holds one. -/
theorem pagePending_of_calm (h : s.groupPending mask = false) (hsel : s.qSelected p mask = true) : s.pagePending p = false := by
  have hnil : s.qPages mask = [] := by simpa [State.groupPending] using h
  have hp := List.filter_eq_nil_iff.mp hnil p (mem_allPages (pageRow_of_selected hsel))
  simpa [hsel] using hp

/-- The group of the ports. -/
theorem selected_ports : s.qSelected p 0x100 = true ↔ s.qGroup p = some 8 := by
  have hbit : ∀ g, bitN 0x100 g = decide (8 = g) := fun g => (bitN_eq_testBit _ g).trans (Nat.testBit_two_pow (n := 8))
  unfold State.qSelected
  cases s.qGroup p with
  | none => simp
  | some g => simp [hbit, eq_comm]

theorem qGroup_of_get (h : t.get p Fld.PAGE_QGRP_GROUP = s.get p Fld.PAGE_QGRP_GROUP) : t.qGroup p = s.qGroup p := by
  unfold State.qGroup; rw [h]

/-! #### A port's MODE is written -/

/-- The port is ready for the mode: its group holds nothing pending and no quench runs, and the mode passes the port's check (R574). -/
structure PortReady (u : State) (n mode : Nat) : Prop where
  n4 : n < 4
  group : u.qGroup (pgNEP n) = some 8
  routes : ∀ k, k < 6 → u.qGroup (pgFAB k) ≠ some 8
  calm : u.groupPending 0x100 = false
  free : u.quench.busy = false
  held : u.quench.held = []
  mode3 : mode < 3
  frames : 1518 ≤ u.get (pgNEP n) Fld.PORT_CFG_MAXFRAME ∧ u.get (pgNEP n) Fld.PORT_CFG_MAXFRAME ≤ 9216
  pfc : u.get (pgNEP n) Fld.PORT_CFG_PFC_EN = 0
  thr : u.get (pgNEP n) Fld.PFC_THR_XOFF < u.get (pgNEP n) Fld.PFC_THR_XON

/-- PORT_CFG as the command leaves it pending. -/
def cfgWith (u : State) (n mode : Nat) : Nat :=
  u.shadowOrLive (pgNEP n) Reg.PORT_CFG - (u.shadowOrLive (pgNEP n) Reg.PORT_CFG &&& 3) + (mode &&& 3)

/-- A page without pending values has none of its registers pending. -/
theorem shadow?_of_calm (h : s.pagePending p = false) {off : Nat} (ho : off < 0x10000) : s.shadow? p off = none := by
  unfold State.pagePending at h
  simp only [Bool.or_eq_false_iff, List.any_eq_false, beq_iff_eq] at h
  obtain ⟨⟨⟨hsh, -⟩, -⟩, -⟩ := h
  refine Option.map_eq_none_iff.mpr (Option.eq_none_iff_forall_ne_some.mpr fun v hv => hsh _ (mem_of_get? hv) ?_)
  unfold regKey
  omega

theorem bits_of_testBit {a b lo w : Nat} (h : ∀ i, lo ≤ i → i < lo + w → a.testBit i = b.testBit i) : bits a lo w = bits b lo w := by
  refine Nat.eq_of_testBit_eq fun i => ?_
  unfold bits
  rw [Nat.testBit_mod_two_pow, Nat.testBit_mod_two_pow, Nat.testBit_div_two_pow, Nat.testBit_div_two_pow]
  by_cases hi : i < w
  · simp [hi, h (i + lo) (by omega) (by omega)]
  · simp [hi]

/-- The bits that a masked write selects, and those it leaves. -/
theorem bits_masked_in {a m v lo w : Nat} (h : ∀ i, lo ≤ i → i < lo + w → m.testBit i = true) : bits (a - (a &&& m) + (v &&& m)) lo w = bits v lo w :=
  bits_of_testBit fun i hlo hi => by rw [testBit_masked, h i hlo hi, if_pos rfl]

theorem bits_masked_out {a m v lo w : Nat} (h : ∀ i, lo ≤ i → i < lo + w → m.testBit i = false) : bits (a - (a &&& m) + (v &&& m)) lo w = bits a lo w :=
  bits_of_testBit fun i hlo hi => by rw [testBit_masked, h i hlo hi, if_neg (by decide)]

theorem testBit_three {i : Nat} : (3 : Nat).testBit i = decide (i < 2) := by
  rw [show (3 : Nat) = 2 ^ 2 - 1 from rfl, Nat.testBit_two_pow_sub_one]

namespace PortReady

/-- The port's page holds nothing pending. -/
theorem cfg_live (h : PortReady u n mode) {off : Nat} (ho : off < 0x10000) : u.shadowOrLive (pgNEP n) off = u.reg (pgNEP n) off := by
  unfold State.shadowOrLive
  rw [shadow?_of_calm (pagePending_of_calm h.calm (selected_ports.mpr h.group)) ho, Option.getD_none]

theorem mode_cfgWith (h : PortReady u n mode) : bits (cfgWith u n mode) 0 2 = mode := by
  unfold cfgWith
  rw [bits_masked_in fun i _ hi => by rw [testBit_three]; simpa using hi]
  have := h.mode3
  simp [bits]; omega

theorem bits_cfgWith (h : PortReady u n mode) {lo w : Nat} (hlo : 2 ≤ lo) : bits (cfgWith u n mode) lo w = bits (u.reg (pgNEP n) Reg.PORT_CFG) lo w := by
  unfold cfgWith
  rw [bits_masked_out fun i hi _ => by rw [testBit_three]; simp; omega, h.cfg_live (by decide)]

end PortReady

/-- What the command writes waits in the port's page alone. -/
def modeWritten (u : State) (n mode : Nat) : State := u.shadowPut (pgNEP n) Reg.PORT_CFG 3 mode

theorem modeWritten_eq (u : State) (n mode : Nat) :
    modeWritten u n mode = { u with shadow := Tab.put (regKey (pgNEP n) Reg.PORT_CFG) (BitVec.ofNat 32 (cfgWith u n mode)) u.shadow } := rfl

/-- The page of a register. -/
theorem regKey_div {p off : Nat} (ho : off < 0x10000) : regKey p off / 0x10000 = p := by unfold regKey; omega

/-- Only the port's page holds more than before. -/
theorem pagePending_modeWritten (hp : p ≠ pgNEP n) (h : (modeWritten u n mode).pagePending p = true) : u.pagePending p = true := by
  unfold State.pagePending at h ⊢
  rw [modeWritten_eq] at h
  simp only [Bool.or_eq_true, List.any_eq_true, beq_iff_eq] at h ⊢
  refine h.imp_left (Or.imp_left (Or.imp_left ?_))
  rintro ⟨e, he, hpage⟩
  rcases Tab.mem_put he with rfl | he
  · exact absurd (hpage.symm.trans (regKey_div (by decide))) hp
  · exact ⟨e, he, hpage⟩

/-- A quench of groups in progress, its pending values not yet moved. -/
def inProgress (q : Quench) (mask : Nat) : Quench := { q with busy := true, cancel := false, applied := false, gmask := mask, rej := 0 }

/-- The quench is accepted, its checks still to be made. -/
def quenchBegun (s : State) (mask : Nat) : State :=
  ({ s with quench := inProgress s.quench mask }.put pgSMITH Fld.QUENCH_STAT_DONE 0).put pgSMITH Fld.QUENCH_STAT_BUSY 1

theorem quenchBegun_reg (s : State) (mask : Nat) {q off : Nat} (ho : off < 0x10000) (hne : q ≠ pgSMITH ∨ off ≠ Reg.QUENCH_STAT) :
    (quenchBegun s mask).reg q off = s.reg q off := by
  have hk : regKey q off ≠ regKey pgSMITH Reg.QUENCH_STAT := fun hk => by
    obtain ⟨rfl, rfl⟩ := regKey_inj ho (by decide) hk
    simp at hne
  exact (reg_put_ne _ _ _ _ _ _ hk).trans (reg_put_ne _ _ _ _ _ _ hk)

theorem quenchBegun_rest (s : State) (mask : Nat) :
    quenchBegun s mask = { s with regs := (quenchBegun s mask).regs, quench := inProgress s.quench mask } :=
  regsAlone_trans (s := { s with quench := inProgress s.quench mask }) (regsAlone_put ..) (regsAlone_put ..)

/-- A quench whose values pass every check is accepted with nothing rejected. -/
theorem quenchAccept_valid (hroutes : ∀ k, k < 6 → (quenchBegun s mask).qSelected (pgFAB k) mask = false)
    (hvalid : ∀ q ∈ (quenchBegun s mask).qChecked mask, (quenchBegun s mask).pageBad q = []) : s.quenchAccept mask false = quenchBegun s mask := by
  have hrej : forAll (List.range 6) (fun k t => if t.qSelected (pgFAB k) mask then t.setRtRej (pgFAB k) else t) (quenchBegun s mask) = quenchBegun s mask :=
    forAll_keeps (· = quenchBegun s mask) _ _ _ rfl fun k hk t ht => by
      rw [ht, hroutes k (List.mem_range.mp hk)]
      rfl
  unfold State.quenchAccept
  change List.foldl (fun (t : State) p => t.qCheck p) (forAll (List.range 6)
      (fun k t => if t.qSelected (pgFAB k) mask then t.setRtRej (pgFAB k) else t) (quenchBegun s mask))
    ((forAll (List.range 6) (fun k t => if t.qSelected (pgFAB k) mask then t.setRtRej (pgFAB k) else t) (quenchBegun s mask)).qChecked mask) = _
  rw [hrej]
  exact foldl_keeps (· = quenchBegun s mask) _ _ _ rfl fun q hq t ht => by
    rw [ht, State.qCheck, hvalid q hq]

end

end Sys2Proof.Proofs
end
section
/-! ### PORT_MODE's quench (R90 to R98, R526, R665) -/

namespace Sys2Proof.Proofs

open Sys2Proof Sys2Proof.Machine Sys2Proof.Safety

/-- The quench that carries a port's mode, accepted. -/
def modeQuench (u : State) (n mode : Nat) : State := quenchBegun (modeWritten u n mode) 0x100

section
variable {s t u : State} {n p mode : Nat}

theorem modeQuench_rest (u : State) (n mode : Nat) : modeQuench u n mode = { u with
    regs := (modeQuench u n mode).regs
    quench := inProgress u.quench 0x100
    shadow := Tab.put (regKey (pgNEP n) Reg.PORT_CFG) (BitVec.ofNat 32 (cfgWith u n mode)) u.shadow } :=
  (quenchBegun_rest (modeWritten u n mode) 0x100).trans (by rw [modeWritten_eq]; rfl)

theorem modeQuench_shadow (u : State) (n mode : Nat) :
    (modeQuench u n mode).shadow = Tab.put (regKey (pgNEP n) Reg.PORT_CFG) (BitVec.ofNat 32 (cfgWith u n mode)) u.shadow := by rw [modeQuench_rest]

theorem modeQuench_quench (u : State) (n mode : Nat) : (modeQuench u n mode).quench = inProgress u.quench 0x100 := by rw [modeQuench_rest]

theorem modeQuench_reg (u : State) (n mode : Nat) {q off : Nat} (ho : off < 0x10000) (hne : q ≠ pgSMITH ∨ off ≠ Reg.QUENCH_STAT) :
    (modeQuench u n mode).reg q off = u.reg q off := (quenchBegun_reg _ _ ho hne).trans (reg_of_regs rfl q off)

theorem modeQuench_qGroup (u : State) (n mode p : Nat) : (modeQuench u n mode).qGroup p = u.qGroup p :=
  qGroup_of_get (by unfold State.get; rw [modeQuench_reg u n mode (by decide) (.inr (by decide))])

theorem modeQuench_pending (u : State) (n mode p : Nat) : (modeQuench u n mode).pagePending p = (modeWritten u n mode).pagePending p := by
  unfold State.pagePending modeQuench
  rw [quenchBegun_rest]

namespace PortReady

/-- Of the pages of the ports' group only this port's holds a pending value. -/
theorem only_port (h : PortReady u n mode) (hsel : (modeQuench u n mode).qSelected p 0x100 = true)
    (hpend : (modeQuench u n mode).pagePending p = true) : p = pgNEP n := by
  by_contra hne
  rw [selected_ports, modeQuench_qGroup] at hsel
  rw [modeQuench_pending] at hpend
  have hcalm := pagePending_of_calm h.calm (selected_ports.mpr hsel)
  simp [pagePending_modeWritten hne hpend] at hcalm

theorem checked (h : PortReady u n mode) (hp : p ∈ (modeQuench u n mode).qChecked 0x100) : p = pgNEP n := by
  simp only [State.qChecked, List.mem_filter, Bool.and_eq_true, Bool.or_eq_true, decide_eq_true_eq] at hp
  obtain ⟨-, hsel, hpend | hfab⟩ := hp
  · exact h.only_port hsel hpend
  · rw [selected_ports, modeQuench_qGroup] at hsel
    simp only [pgFAB] at hfab
    exact absurd hsel (by simpa [pgFAB, show 8 + (p - 8) = p by omega] using h.routes (p - 8) (by omega))

/-- The value that a quench of the port would leave in PORT_CFG, and in every other register of the port. -/
theorem qv_cfg (h : PortReady u n mode) : (modeQuench u n mode).qv (pgNEP n) Reg.PORT_CFG = cfgWith u n mode % 2 ^ 32 := by
  have hsel : (modeQuench u n mode).qSelected (pgNEP n) (modeQuench u n mode).quench.gmask = true := by
    rw [modeQuench_quench]
    exact selected_ports.mpr ((modeQuench_qGroup u n mode _).trans h.group)
  unfold State.qv
  rw [if_pos hsel, State.shadowOrLive, State.shadow?, modeQuench_shadow, Tab.get?_put_same, Option.map_some, Option.getD_some, BitVec.toNat_ofNat]

theorem qv_other (h : PortReady u n mode) {off : Nat} (ho : off < 0x10000) (hne : off ≠ Reg.PORT_CFG) :
    (modeQuench u n mode).qv (pgNEP n) off = u.reg (pgNEP n) off := by
  have hpend : (modeQuench u n mode).shadow? (pgNEP n) off = none := by
    rw [State.shadow?, modeQuench_shadow, Tab.get?_put_ne fun hk => hne (regKey_inj ho (by decide) hk).2]
    exact shadow?_of_calm (pagePending_of_calm h.calm (selected_ports.mpr h.group)) ho
  unfold State.qv State.shadowOrLive
  rw [hpend, Option.getD_none, ite_self, modeQuench_reg u n mode ho (.inl (by simp [pgNEP, pgSMITH]))]

/-- The mode passes the port's check (R574). -/
theorem valid (h : PortReady u n mode) : (modeQuench u n mode).pageBad (pgNEP n) = [] := by
  have htyp : ((pageRow (pgNEP n)).map (·.typ)).getD 0 = 0x39 := by
    have := h.n4
    interval_cases n <;> decide
  have hcfg : ∀ f : FRef, f.off = Reg.PORT_CFG → f.lo + f.width ≤ 32 → (modeQuench u n mode).qf (pgNEP n) f = bits (cfgWith u n mode) f.lo f.width :=
    fun f ho hw => by rw [State.qf, ho, h.qv_cfg, bits_mod32 _ _ _ hw]
  have hkept : ∀ f : FRef, f.off = Reg.PORT_CFG → f.lo + f.width ≤ 32 → 2 ≤ f.lo → (modeQuench u n mode).qf (pgNEP n) f = u.get (pgNEP n) f :=
    fun f ho hw hlo => by rw [hcfg f ho hw, h.bits_cfgWith hlo, State.get, ho]
  have hthr : ∀ f : FRef, f.off = Reg.PFC_THR → (modeQuench u n mode).qf (pgNEP n) f = u.get (pgNEP n) f :=
    fun f ho => by rw [State.qf, ho, h.qv_other (by decide) (by decide), State.get, ho]
  have hmode : (modeQuench u n mode).qf (pgNEP n) Fld.PORT_CFG_MODE = mode := (hcfg _ rfl (by decide)).trans h.mode_cfgWith
  have hbad : (modeQuench u n mode).badNep (pgNEP n) = [] := by
    unfold State.badNep
    rw [hmode, hkept Fld.PORT_CFG_MAXFRAME rfl (by decide) (by decide), hkept Fld.PORT_CFG_PFC_EN rfl (by decide) (by decide), h.pfc,
      hthr Fld.PFC_THR_XON rfl, hthr Fld.PFC_THR_XOFF rfl]
    have := h.mode3
    have := h.frames
    have := h.thr
    simp
    omega
  unfold State.pageBad
  rw [htyp]
  exact hbad

/-- The quench is accepted with nothing rejected (R92). -/
theorem accepted (h : PortReady u n mode) : (modeWritten u n mode).quenchAccept 0x100 false = modeQuench u n mode :=
  quenchAccept_valid (fun k hk => by
    rw [← Bool.not_eq_true, selected_ports]
    exact fun hg => h.routes k hk ((modeQuench_qGroup u n mode _).symm.trans hg)) fun q hq => by
    rw [h.checked hq]
    exact h.valid

end PortReady

end

end Sys2Proof.Proofs
end
section
/-! ### The apply edge and the end of PORT_MODE's quench (R94, R98, R526) -/

namespace Sys2Proof.Proofs

open Sys2Proof Sys2Proof.Machine Sys2Proof.Safety

section
variable {s t u : State} {n p mode : Nat}

/-- One pending value moves to its live register (R94). -/
def moveLive (t : State) (e : Nat × BitVec 32) : State :=
  let m := ((findReg (e.1 / 0x10000) (e.1 % 0x10000)).map (·.rwqMask)).getD 0
  let old := t.reg (e.1 / 0x10000) (e.1 % 0x10000)
  t.setReg (e.1 / 0x10000) (e.1 % 0x10000) (old - (old &&& m) + (e.2.toNat &&& m))

/-- Pending values of registers that move at the edge. -/
def movers (s : State) (mask : Nat) : List (Nat × BitVec 32) := s.shadow.filter fun e => s.qSelected (e.1 / 0x10000) mask

/-- Registers, SMITH, the quench and power are the same. -/
structure SameLive (s t : State) : Prop where
  regs : t.regs = s.regs
  smith : t.smith = s.smith
  quench : t.quench = s.quench
  off : t.off = s.off

/-- Without the pending values of the groups of `mask`. -/
def unpended (s : State) (mask : Nat) : State := { s with
  shadow := s.shadow.filter (not ∘ fun e => s.qSelected (e.1 / 0x10000) mask)
  routesPend := s.routesPend.filter (not ∘ fun e => s.qSelected (State.routePage e.1) mask)
  weightsPend := s.weightsPend.filter (not ∘ fun e => s.qSelected (State.weightPage e.1) mask)
  routeBasePend := s.routeBasePend.filter (not ∘ fun e => s.qSelected (pgFAB e.1) mask) }

theorem unpended_sameLive (s : State) (mask : Nat) : SameLive s (unpended s mask) := ⟨rfl, rfl, rfl, rfl⟩

/-- Of the registers, SMITH, the quench and power, the pending values of registers alone change anything as they move. -/
theorem qMove_live (s : State) (mask : Nat) : SameLive ((movers s mask).foldl moveLive (unpended s mask)) (s.qMove mask true) := by
  unfold State.qMove movers
  simp only [List.partition_eq_filter_filter, Bool.not_true, Bool.false_eq_true, if_false]
  exact ⟨rfl, rfl, rfl, rfl⟩

/-- PORT_CFG of the port alone may have changed. -/
structure CfgMoved (n : Nat) (s t : State) : Prop where
  smith : t.smith = s.smith
  quench : t.quench = s.quench
  off : t.off = s.off
  regs : RegsOnly (fun p off => p = pgNEP n ∧ off = Reg.PORT_CFG) s t

theorem CfgMoved.trans (h : CfgMoved n s t) (k : CfgMoved n t u) : CfgMoved n s u :=
  ⟨k.smith.trans h.smith, k.quench.trans h.quench, k.off.trans h.off, h.regs.trans k.regs⟩

theorem SameLive.cfgMoved (h : SameLive s t) : CfgMoved n s t := ⟨h.smith, h.quench, h.off, .of_regs h.regs⟩

namespace PortReady

/-- The mode alone moves. -/
theorem mem_movers (h : PortReady u n mode) {e : Nat × BitVec 32} (he : e ∈ movers (modeQuench u n mode) 0x100) :
    e = (regKey (pgNEP n) Reg.PORT_CFG, BitVec.ofNat 32 (cfgWith u n mode)) := by
  obtain ⟨hmem, hsel⟩ := List.mem_filter.mp he
  have hpend : (modeQuench u n mode).pagePending (e.1 / 0x10000) = true := by
    unfold State.pagePending
    simp only [Bool.or_eq_true, List.any_eq_true, beq_iff_eq]
    exact .inl (.inl (.inl ⟨e, hmem, rfl⟩))
  rw [modeQuench_shadow] at hmem
  refine (Tab.mem_put hmem).resolve_right fun hold => ?_
  have hcalm := pagePending_of_calm h.calm (selected_ports.mpr h.group)
  rw [← h.only_port hsel hpend] at hcalm
  unfold State.pagePending at hcalm
  simp only [Bool.or_eq_false_iff, List.any_eq_false, beq_iff_eq] at hcalm
  exact hcalm.1.1.1 e hold rfl

theorem mode_moves (h : PortReady u n mode) :
    (regKey (pgNEP n) Reg.PORT_CFG, BitVec.ofNat 32 (cfgWith u n mode)) ∈ movers (modeQuench u n mode) 0x100 := by
  refine List.mem_filter.mpr ⟨?_, ?_⟩
  · rw [modeQuench_shadow]
    exact mem_of_get? (Tab.get?_put_same ..)
  · rw [regKey_div (by decide), selected_ports, modeQuench_qGroup]
    exact h.group

/-- The mode moves to PORT_CFG. -/
theorem moveLive_mode (h : PortReady u n mode) (t : State) :
    CfgMoved n t (moveLive t (regKey (pgNEP n) Reg.PORT_CFG, BitVec.ofNat 32 (cfgWith u n mode))) ∧
    (moveLive t (regKey (pgNEP n) Reg.PORT_CFG, BitVec.ofNat 32 (cfgWith u n mode))).get (pgNEP n) Fld.PORT_CFG_MODE = mode := by
  have hmask : ∀ i, i < 2 → (((findReg (pgNEP n) Reg.PORT_CFG).map RegDef.rwqMask).getD 0).testBit i = true := by
    have := h.n4
    interval_cases n <;> decide
  unfold moveLive
  dsimp only
  rw [regKey_div (by decide), show regKey (pgNEP n) Reg.PORT_CFG % 0x10000 = Reg.PORT_CFG by unfold regKey; simp [Reg.PORT_CFG]]
  generalize ((findReg (pgNEP n) Reg.PORT_CFG).map RegDef.rwqMask).getD 0 = m at *
  refine ⟨⟨rfl, rfl, rfl, fun q off ho hne => reg_setReg_ne _ _ _ _ _ _ fun hk => hne ?_⟩, ?_⟩
  · exact regKey_inj ho (by decide) hk
  · change bits ((t.setReg (pgNEP n) Reg.PORT_CFG _).reg (pgNEP n) Reg.PORT_CFG) 0 2 = mode
    rw [reg_setReg_same, bits_mod32 _ _ _ (by decide), bits_masked_in fun i _ hi => hmask i (by omega), BitVec.toNat_ofNat,
      bits_mod32 _ _ _ (by decide), h.mode_cfgWith]

/-- The apply edge moves the mode to PORT_CFG, and changes no other register (R94). -/
theorem edge (h : PortReady u n mode) : CfgMoved n (modeQuench u n mode) ((modeQuench u n mode).qMove 0x100 true) ∧
    ((modeQuench u n mode).qMove 0x100 true).get (pgNEP n) Fld.PORT_CFG_MODE = mode := by
  have hmove := qMove_live (modeQuench u n mode) 0x100
  obtain ⟨hmoved, hmode⟩ := foldl_establishes (CfgMoved n (modeQuench u n mode)) (fun _ t => t.get (pgNEP n) Fld.PORT_CFG_MODE = mode) moveLive
    (movers (modeQuench u n mode) 0x100) (unpended (modeQuench u n mode) 0x100) (unpended_sameLive ..).cfgMoved
    (fun e he t ht => by rw [h.mem_movers he]; exact ht.trans (h.moveLive_mode t).1)
    (fun e he t _ => by rw [h.mem_movers he]; exact (h.moveLive_mode t).2)
    (fun _ e he t _ _ => by rw [h.mem_movers he]; exact (h.moveLive_mode t).2)
  exact ⟨hmoved.trans hmove.cfgMoved, (get_of_regs hmove.regs _ _).trans (hmode _ (.inl h.mode_moves))⟩

end PortReady

end

end Sys2Proof.Proofs
end
section
/-! ### PORT_MODE (R526, R665) -/

namespace Sys2Proof.Proofs

open Sys2Proof Sys2Proof.Machine Sys2Proof.Safety

section
variable {s t u x : State} {bmc : Bool} {n p mask tag mode : Nat} {args : List Nat}

/-! #### What the new mode does at once -/

theorem netView_applyPort (s old : State) (n : Nat) : netView (s.applyPort old n) = netView s :=
  netView_of_ite ((netView_afterDma _).trans ((netView_optRefresh ..).trans (netView_portModeApplied ..)))
    (netView_of_ite (netView_pfcUpdate ..) rfl)

/-- Where a port's page alone had pending values, the edge acts in the network alone. -/
theorem netView_applyEffects {old : State} (hn : n < 4) (honly : ∀ q, old.qSelected q mask = true → old.pagePending q = true → q = pgNEP n) :
    netView (s.applyEffects old mask) = netView s := by
  have hnone : ∀ q, q ≠ pgNEP n → ¬ (old.qSelected q mask && old.pagePending q) = true := fun q hq hh =>
    hq (honly q (Bool.and_eq_true_iff.mp hh).1 (Bool.and_eq_true_iff.mp hh).2)
  unfold State.applyEffects
  extract_lets had s1 s2 s3 s4 s5
  have h1 : s1 = s := if_neg (hnone _ (by simp [pgHRTH, pgNEP]; omega))
  have h2 : s2 = s1 := forAll_keeps (· = s1) _ _ _ rfl fun i hi t ht => by
    rw [if_neg (hnone _ (by simp [pgSITE, pgNEP] at hi ⊢; omega)), ht]
  have h3 : s3 = s2 := if_neg (hnone _ (by simp [pgPWR, pgNEP]; omega))
  have h4 : s4 = s3 := if_neg (hnone _ (by simp [pgFB, pgNEP]; omega))
  have h5 : netView s5 = netView s4 := forAll_keeps (fun t => netView t = netView s4) _ _ _ rfl fun m _ t ht =>
    netView_of_ite (s := s4) ((netView_applyPort ..).trans ht) ht
  rw [if_neg (hnone _ (by simp [pgIXU, pgNEP]; omega)), h5, h4, h3, h2, h1]

/-- The edge of a quench that is not a cancel and rejects nothing. -/
theorem quenchApply_begun {q : Quench} (hq : x.quench = inProgress q mask) : x.quenchApply =
    ({ x.qMove mask true with quench := { (x.qMove mask true).quench with applied := true } } : State).applyEffects x mask := by
  unfold State.quenchApply
  rw [hq]
  simp [inProgress]

/-! #### The end of the quench (R98) -/

/-- A quench that has rejected nothing ends: REJ is 0, and nothing but QUENCH_STAT has changed. -/
structure QuenchEnded (s t : State) : Prop where
  smith : t.smith = s.smith
  off : t.off = s.off
  rej : t.get pgSMITH Fld.QUENCH_STAT_REJ = 0
  regs : SameRegs [(pgSMITH, Reg.QUENCH_STAT)] s t

/-- QUENCH_STAT shows the quench complete, with the groups it rejected. -/
def quenchShown (s : State) (rej : Nat) : State :=
  (((s.put pgSMITH Fld.QUENCH_STAT_REJ rej).put pgSMITH Fld.QUENCH_STAT_BUSY 0).put pgSMITH Fld.QUENCH_STAT_DONE 1).bumpMod pgSMITH
    Fld.QUENCH_STAT_SEQ

theorem quenchShown_rej (s : State) (rej : Nat) : (quenchShown s rej).get pgSMITH Fld.QUENCH_STAT_REJ = rej % 2 ^ 16 := by
  unfold quenchShown State.bumpMod
  rw [get_put_beside _ _ _ Fld.QUENCH_STAT_SEQ Fld.QUENCH_STAT_REJ rfl (by decide) (by decide),
    get_put_beside _ _ _ Fld.QUENCH_STAT_DONE Fld.QUENCH_STAT_REJ rfl (by decide) (by decide),
    get_put_beside _ _ _ Fld.QUENCH_STAT_BUSY Fld.QUENCH_STAT_REJ rfl (by decide) (by decide), get_put_same _ _ _ _ (by decide)]
  rfl

/-- From `s` to `t` the register QUENCH_STAT alone changes. -/
structure StatOnly (s t : State) : Prop where
  rest : t = { s with regs := t.regs }
  regs : SameRegs [(pgSMITH, Reg.QUENCH_STAT)] s t

theorem StatOnly.trans (h : StatOnly s t) (k : StatOnly t u) : StatOnly s u := ⟨regsAlone_trans h.rest k.rest, sameRegs_again h.regs k.regs⟩

theorem statOnly_put (s : State) (v : Nat) (f : FRef) (ho : f.off = Reg.QUENCH_STAT) : StatOnly s (s.put pgSMITH f v) :=
  ⟨regsAlone_put .., ho ▸ sameRegs_put s pgSMITH v f (by rw [ho]; decide)⟩

theorem statOnly_bumpMod (s : State) : StatOnly s (s.bumpMod pgSMITH Fld.QUENCH_STAT_SEQ) := statOnly_put s _ _ rfl

theorem quenchShown_statOnly (s : State) (rej : Nat) : StatOnly s (quenchShown s rej) :=
  (((statOnly_put s rej Fld.QUENCH_STAT_REJ rfl).trans (statOnly_put _ 0 Fld.QUENCH_STAT_BUSY rfl)).trans
    (statOnly_put _ 1 Fld.QUENCH_STAT_DONE rfl)).trans (statOnly_bumpMod _)

/-- The quench no longer runs, and holds no writes. -/
def quenchFree (s : State) : State := { s with quench := { s.quench with busy := false, held := [] } }

/-- The end of a quench: QUENCH_STAT and the event, and the writes held are released. -/
theorem quenchDone_eq (hbusy : s.quench.busy = true) (happlied : s.quench.applied = true) : s.quenchDone = s.quench.held.foldl
    (fun s w => s.releaseHeld w) (quenchFree ((quenchShown s (if s.quench.cancel then 0 else s.quench.rej)).fire srcQuenchDone)) :=
  if_neg (by simp [hbusy, happlied])

theorem StatOnly.ended (h : StatOnly s t) (hrej : t.get pgSMITH Fld.QUENCH_STAT_REJ = 0) : QuenchEnded s t :=
  ⟨by rw [h.rest], by rw [h.rest], hrej, h.regs⟩

theorem QuenchEnded.fire (h : QuenchEnded s t) (n : Nat) : QuenchEnded s (t.fire n) := ⟨h.smith, h.off, h.rej, h.regs⟩

theorem QuenchEnded.free (h : QuenchEnded s t) : QuenchEnded s (quenchFree t) := ⟨h.smith, h.off, h.rej, h.regs⟩

theorem quenchDone_clean (hbusy : s.quench.busy = true) (happlied : s.quench.applied = true) (hrej : s.quench.rej = 0)
    (hheld : s.quench.held = []) : QuenchEnded s s.quenchDone := by
  rw [quenchDone_eq hbusy happlied, hheld, hrej, ite_self]
  exact (((quenchShown_statOnly s 0).ended (quenchShown_rej s 0)).fire _).free

/-! #### The command -/

/-- The port's mode has been applied and the quench has ended. -/
def modeApplied (u : State) (n mode : Nat) : State := (modeQuench u n mode).quenchApply.quenchDone

/-- What PORT_MODE's quench leaves: SMITH's command, MB_STAT, and the new mode. -/
structure ModeSet (u : State) (n mode : Nat) (t : State) : Prop where
  smith : t.smith = u.smith
  off : t.off = u.off
  rej : t.get pgSMITH Fld.QUENCH_STAT_REJ = 0
  stat : t.reg pgSMITH Reg.MB_STAT = u.reg pgSMITH Reg.MB_STAT
  set : t.get (pgNEP n) Fld.PORT_CFG_MODE = mode

theorem PortReady.modeSet (h : PortReady u n mode) : ModeSet u n mode (modeApplied u n mode) := by
  have hq := modeQuench_quench u n mode
  have hbegun : (modeQuench u n mode).smith = u.smith ∧ (modeQuench u n mode).off = u.off := by rw [modeQuench_rest]; exact ⟨rfl, rfl⟩
  have hstat := modeQuench_reg u n mode (q := pgSMITH) (off := Reg.MB_STAT) (by decide) (.inr (by decide))
  have hedge := quenchApply_begun hq
  have honly := fun p => h.only_port (p := p)
  obtain ⟨hmoved, hmode⟩ := h.edge
  unfold modeApplied
  generalize modeQuench u n mode = x at *
  generalize x.qMove 0x100 true = y at *
  have hview := netView_applyEffects (s := { y with quench := { y.quench with applied := true } }) h.n4 honly
  rw [← hedge] at hview
  generalize x.quenchApply = z at *
  simp only [netView, Prod.mk.injEq] at hview
  obtain ⟨hsmith, hquench, hoff, hmb, hcfg, -⟩ := hview
  have hzq : z.quench = { y.quench with applied := true } := hquench
  rw [hmoved.quench, hq] at hzq
  have hend := quenchDone_clean (s := z) (by rw [hzq]; rfl) (by rw [hzq]) (by rw [hzq]; rfl) (by rw [hzq]; exact h.held)
  generalize z.quenchDone = t at *
  refine ⟨?_, ?_, hend.rej, ?_, ?_⟩
  · rw [hend.smith, hsmith, hmoved.smith, hbegun.1]
  · rw [hend.off, hoff, hmoved.off, hbegun.2]
  · rw [hend.regs pgSMITH Reg.MB_STAT (by decide) (by decide), hmb, ← hstat]
    exact hmoved.regs _ _ (by decide) (by simp [pgSMITH, pgNEP]; omega)
  · have hport : z.reg (pgNEP n) Reg.PORT_CFG = y.reg (pgNEP n) Reg.PORT_CFG := congrFun hcfg ⟨n, h.n4⟩
    rw [← hmode]
    unfold State.get
    rw [show Fld.PORT_CFG_MODE.off = Reg.PORT_CFG from rfl, hend.regs (pgNEP n) Reg.PORT_CFG (by decide) (by simp [pgNEP, pgSMITH]), hport]

/-- PORT_MODE for a port that is ready ends with its mode applied. -/
theorem PortReady.mbPortMode (h : PortReady u n mode) (hn : u.mbArg 0 = n) (hm : u.mbArg 1 = mode) (hon : u.pageOff (pgNEP n) = false) :
    u.mbPortMode = (modeApplied u n mode).mbEnd 0 := by
  have hwritten : u.shadowPut (pgNEP n) Fld.PORT_CFG_MODE.off ((2 ^ Fld.PORT_CFG_MODE.width - 1) * 2 ^ Fld.PORT_CFG_MODE.lo)
      (mode * 2 ^ Fld.PORT_CFG_MODE.lo) = modeWritten u n mode := by
    rw [show Fld.PORT_CFG_MODE.lo = 0 from rfl, pow_zero, mul_one, mul_one]
    rfl
  have hrun : (modeWritten u n mode).smithQuench 0x100 false =
      ((modeApplied u n mode).get pgSMITH Fld.QUENCH_STAT_REJ, modeApplied u n mode) := by
    unfold State.smithQuench modeApplied
    rw [h.accepted]
  unfold State.mbPortMode
  rw [hn, hm, h.free, if_neg Bool.false_ne_true]
  dsimp only
  rw [hon, if_neg Bool.false_ne_true, hwritten, hrun]
  exact if_pos (by rw [h.modeSet.rej]; rfl)

/-! #### What the command finds as it is taken -/

theorem CmdTaken.qGroup {code : Nat} (hu : CmdTaken s u bmc code tag args) (p : Nat) : u.qGroup p = s.qGroup p :=
  qGroup_of_get (hu.get (by decide) (.inr (by decide)))

theorem CmdTaken.pagePending {code : Nat} (hu : CmdTaken s u bmc code tag args) (p : Nat) : u.pagePending p = s.pagePending p := by
  unfold State.pagePending; rw [hu.rest]

theorem CmdTaken.groupPending {code : Nat} (hu : CmdTaken s u bmc code tag args) (mask : Nat) : u.groupPending mask = s.groupPending mask := by
  unfold State.groupPending State.qPages State.qSelected
  simp only [hu.qGroup, hu.pagePending]

theorem CmdTaken.quench {code : Nat} (hu : CmdTaken s u bmc code tag args) : u.quench = s.quench := by rw [hu.rest]

theorem CmdTaken.domState {code : Nat} (hu : CmdTaken s u bmc code tag args) {d : Nat} (hd : d < 50) : u.domState d = s.domState d :=
  hu.get (by simp [Fld.DOM_STAT_STATE]; omega) (.inl (by decide))

theorem CmdTaken.pageOff_port {code : Nat} (hu : CmdTaken s u bmc code tag args) (hn : n < 4) : u.pageOff (pgNEP n) = s.pageOff (pgNEP n) := by
  have hdom : pageDom (pgNEP n) = some (36 + n) := by interval_cases n <;> decide
  unfold State.pageOff State.domOn
  rw [hdom]
  simp only [hu.domState (show 36 + n < 50 by omega)]

/-- PORT_MODE's cases (R665). -/
theorem mbRun_portMode (u : State) (bmc : Bool) : u.mbRun 0x28 bmc =
    if 4 ≤ u.mbArg 0 || 3 ≤ u.mbArg 1 then u.mbEnd 2 else if u.groupPending 0x100 then u.mbEnd 4 else u.mbPortMode := rfl

theorem portMode_badArg (hf : MbFree s) (hbad : 4 ≤ mbA s bmc args 0 ∨ 3 ≤ mbA s bmc args 1) :
    Answers (.portMode bmc tag args) s fun t => MbEnds s t 0x28 tag 2 0 0 :=
  answers_refused (code := 0x28) (status := 2) hf rfl (by decide) (by cases bmc <;> decide) (by decide)
    (fun u hu => by rw [mbRun_portMode, hu.arg, hu.arg, if_pos (by simpa using hbad)]) fun _ hend _ => hend

theorem portMode_refused (hf : MbFree s) (h0 : mbA s bmc args 0 < 4) (h1 : mbA s bmc args 1 < 3) (hpend : s.groupPending 0x100 = true) :
    Answers (.portMode bmc tag args) s fun t => MbEnds s t 0x28 tag 4 0 0 ∧ OnlyPage pgSMITH s t :=
  answers_refused (code := 0x28) (status := 4) hf rfl (by decide) (by cases bmc <;> decide) (by decide)
    (fun u hu => by rw [mbRun_portMode, hu.arg, hu.arg, if_neg (by simp; omega), hu.groupPending, if_pos hpend]) fun _ hend honly => ⟨hend, honly.page⟩

/-- The end of a command is as it was after the events that wait have been taken up. -/
theorem mbEnds_later {code status r0 r1 : Nat} (h : MbEnds s t code tag status r0 r1) (l : List Instr) (time : Nat) :
    MbEnds s { t with pending := l, time := time } code tag status r0 r1 := h

end

end Sys2Proof.Proofs
end
section
/-! ### PORT_MODE as it ends, and EMBER_RELEASE (R541, R665) -/

namespace Sys2Proof.Proofs

open Sys2Proof Sys2Proof.Machine Sys2Proof.Safety

section
variable {s t u : State} {bmc : Bool} {e k n tag mode : Nat} {args : List Nat}

/-- A command that ends in the state its work has left, with its own state and MB_STAT as they were. -/
theorem answers_ended {c : Instr} {code status : Nat} {P : State → Prop} (hf : MbFree s) (hc : exec c s = s.act (·.mailbox bmc code tag args))
    (hcode : code < 256) (hcl : bitN (State.mbClients code) (b2n bmc) = true) (hstatus : status < 8)
    (hrun : ∀ u, CmdTaken s u bmc code tag args → ∃ t, u.mbRun code bmc = t.mbEnd status ∧ CmdRuns s t code tag ∧ t.off = u.off ∧
      ∀ v, CmdEnded t v → P v) (hP : ∀ v l time, P v → P { v with pending := l, time := time }) :
    Answers c s fun t => MbEnds s t code tag status 0 0 ∧ P t := by
  refine answers_command hf hc hcode hcl (fun u hu => ?_) fun u hu => ?_
  · obtain ⟨t, ht, hruns, hoff, -⟩ := hrun u hu
    rw [ht, (cmdEnded_mbEnd hruns.op status 0 0).frame.1, hoff, hu.frame.1, hf.1]
  · obtain ⟨t, ht, hruns, -, hkept⟩ := hrun u hu
    have hend := mbEnds_mbEnd hruns hcode hstatus
    have hp := hkept _ (cmdEnded_mbEnd hruns.op status 0 0)
    rw [ht]
    generalize t.mbEnd status = v at *
    exact ⟨mbEnds_later hend _ _, hP v _ _ hp⟩

theorem CmdRuns.of_stat {code : Nat} (hu : CmdRuns s u code tag) (hsmith : t.smith = u.smith) (hstat : t.reg pgSMITH Reg.MB_STAT = u.reg pgSMITH Reg.MB_STAT) :
    CmdRuns s t code tag := hu.of_eq hsmith (by unfold State.get; rw [show Fld.MB_STAT_SEQ.off = Reg.MB_STAT from rfl, hstat])

/-- PORT_MODE finds the port as it was. -/
theorem CmdTaken.portReady {code : Nat} (hu : CmdTaken s u bmc code tag args) (h : PortReady s n mode) : PortReady u n mode := by
  have hget : ∀ f : FRef, f.off < 0x10000 → u.get (pgNEP n) f = s.get (pgNEP n) f := fun f ho => hu.get ho (.inl (by simp [pgNEP, pgSMITH]))
  refine ⟨h.n4, (hu.qGroup _).trans h.group, fun k hk => ?_, (hu.groupPending _).trans h.calm, ?_, ?_, h.mode3, ?_, ?_, ?_⟩
  · rw [hu.qGroup]; exact h.routes k hk
  · rw [hu.quench]; exact h.free
  · rw [hu.quench]; exact h.held
  · rw [hget _ (by decide)]; exact h.frames
  · rw [hget _ (by decide)]; exact h.pfc
  · rw [hget _ (by decide), hget _ (by decide)]; exact h.thr

theorem portMode_sets (hf : MbFree s) (hn : mbA s bmc args 0 = n) (h : PortReady s n (mbA s bmc args 1)) (hon : s.pageOff (pgNEP n) = false) :
    Answers (.portMode bmc tag args) s fun t => MbEnds s t 0x28 tag 0 0 0 ∧ t.get (pgNEP n) Fld.PORT_CFG_MODE = mbA s bmc args 1 := by
  refine answers_ended hf rfl (by decide) (by cases bmc <;> decide) (by decide) (fun u hu => ?_) fun v _ _ hv => hv
  have hready := hu.portReady h
  have hset := hready.modeSet
  refine ⟨modeApplied u n (mbA s bmc args 1), ?_, hu.running.of_stat hset.smith hset.stat, hset.off, fun v hv => ?_⟩
  · have := h.n4
    have := h.mode3
    rw [mbRun_portMode, hu.arg, hu.arg, if_neg (by simp; omega), hready.calm, if_neg Bool.false_ne_true]
    exact hready.mbPortMode ((hu.arg 0).trans hn) (hu.arg 1) ((hu.pageOff_port h.n4).trans hon)
  · rw [hv.get (by decide) (by simp [pgNEP, pgSMITH])]
    exact hset.set

/-! #### EMBER_RELEASE -/

/-- EMBER_RELEASE's cases (R541). -/
theorem mbRun_emberRelease (u : State) (bmc : Bool) : u.mbRun 0x30 bmc = u.embRelease (u.mbArg 0) := rfl

theorem emberRelease_badArg (hf : MbFree s) (hbad : 4 ≤ mbA s bmc args 0) :
    Answers (.emberRelease bmc tag args) s fun t => MbEnds s t 0x30 tag 2 0 0 :=
  answers_refused (code := 0x30) (status := 2) hf rfl (by decide) (by cases bmc <;> decide) (by decide)
    (fun u hu => by rw [mbRun_emberRelease, hu.arg]; exact if_pos hbad) fun _ hend _ => hend

section
variable {code : Nat} (hu : CmdTaken s u bmc code tag args)
include hu

theorem CmdTaken.embAt (e : Nat) : u.embAt e = s.embAt e := by rw [State.embAt, hu.rest, State.embAt]

theorem CmdTaken.get_emb (e : Nat) {f : FRef} (ho : f.off < 0x10000) : u.get (pgEMB e) f = s.get (pgEMB e) f :=
  hu.get ho (.inl (by simp [pgEMB, pgSMITH]))

theorem CmdTaken.laneInUse {o k : Nat} (ho : o < 2) (hk : k < 8) : u.laneInUse o k = s.laneInUse o k := by
  unfold State.laneInUse
  rw [hu.domState (by simp only [lanePort]; omega), hu.domState (by omega)]

theorem CmdTaken.laneSrc (o k : Nat) : u.laneSrc o k = s.laneSrc o k := by
  rw [State.laneSrc, hu.get (by decide) (.inl (by simp [pgOPT, pgSMITH])), State.laneSrc]

theorem CmdTaken.laneFed (o k : Nat) : u.laneFed o k = s.laneFed o k := by rw [State.laneFed, hu.laneSrc, hu.embAt, State.laneFed]

theorem CmdTaken.chanUsable {e : Nat} (he : e < 4) (k : Nat) : u.chanUsable e k = s.chanUsable e k := by
  have hpower : u.power = s.power := by rw [hu.rest]
  unfold State.chanUsable State.chanHealthy State.laserOk State.flag
  dsimp only
  rw [hu.get_emb e (by decide), hu.get_emb e (by decide), hu.get_emb e (by decide), hu.get_emb e (by decide), hu.get_emb e (by decide),
    hu.domState (by omega), hu.embAt, hpower]

end

/-- The lanes that a module feeds. -/
def fedBy (s : State) (e : Nat) : List Nat := (List.range 8).filter fun k => s.laneInUse (e / 2) k && s.laneSrc (e / 2) k == e && s.laneFed (e / 2) k

theorem embRelease_eq (u : State) (e : Nat) : u.embRelease e =
    if 4 ≤ e then u.mbEnd 2
    else if (fedBy u e).any fun k => !u.chanUsable (State.emPartner e) k then u.mbEnd 4
    else ((fedBy u e).foldl (fun s k => s.laneMove (e / 2) k (State.emPartner e) 1) (u.modSmith fun x => { x with site := e })).releaseAdvance := rfl

theorem emberRelease_refused (hf : MbFree s) (h0 : mbA s bmc args 0 = e) (he : e < 4) (hk : k < 8) (huse : s.laneInUse (e / 2) k = true)
    (hsrc : s.laneSrc (e / 2) k = e) (hfed : s.laneFed (e / 2) k = true) (hpartner : s.chanUsable (State.emPartner e) k = false) :
    Answers (.emberRelease bmc tag args) s fun t => MbEnds s t 0x30 tag 4 0 0 ∧ t.lanes = s.lanes := by
  refine answers_refused (code := 0x30) (status := 4) hf rfl (by decide) (by cases bmc <;> decide) (by decide) (fun u hu => ?_)
    fun _ hend honly => ⟨hend, honly.lanes⟩
  have hp : State.emPartner e < 4 := by interval_cases e <;> decide
  have hfeeds : k ∈ fedBy u e := by
    simp only [fedBy, List.mem_filter, List.mem_range, hk, hu.laneInUse (show e / 2 < 2 by omega) hk, hu.laneSrc, hu.laneFed, huse, hsrc, hfed,
      beq_self_eq_true, Bool.and_self, and_self]
  rw [mbRun_emberRelease, hu.arg, h0, embRelease_eq, if_neg (by omega),
    if_pos (List.any_eq_true.mpr ⟨k, hfeeds, by rw [hu.chanUsable hp, hpartner]; rfl⟩)]

/-- The module feeds no lane, and no lane moves. -/
def Unfed (s : State) (e : Nat) : Prop := s.lanes = [] ∧ ∀ k, k < 8 → s.laneSrc (e / 2) k ≠ e ∨ s.laneFed (e / 2) k = false

theorem Unfed.lane (h : Unfed s e) (hk : k < 8) : (s.laneSrc (e / 2) k == e && s.laneFed (e / 2) k) = false := by
  rcases h.2 k hk with h | h <;> simp [h]

theorem Unfed.fedBy (h : Unfed s e) : fedBy s e = [] :=
  List.filter_eq_nil_iff.mpr fun k hk => by rw [Bool.and_assoc, h.lane (List.mem_range.mp hk), Bool.and_false]; exact Bool.false_ne_true

/-- The module is released, and its engine brought up to date. -/
def released (s : State) (e : Nat) : State := (s.put (pgEMB e) Fld.EMB_STAT_RELEASED 1).optRefresh (e / 2)

/-- A release is complete where the module feeds no lane (R541). -/
theorem releaseAdvance_unfed (hop : s.smith.op = some 0x30) (hsite : s.smith.site = e) (h : Unfed s e) :
    s.releaseAdvance = (released s e).mbEnd 0 := by
  have hquiet : ((List.range 8).any fun k => s.laneInUse (e / 2) k && ((s.laneSrc (e / 2) k == e && s.laneFed (e / 2) k) ||
      (Tab.get? (8 * (e / 2) + k) s.lanes).isSome)) = false :=
    List.any_eq_false.mpr fun k hk => by rw [h.lane (List.mem_range.mp hk), h.1]; simp
  unfold State.releaseAdvance
  rw [hop, if_neg (by simp), hsite]
  exact if_neg (by rw [hquiet]; exact Bool.false_ne_true)

theorem embRelease_unfed (he : e < 4) (hop : s.smith.op = some 0x30) (h : Unfed s e) :
    s.embRelease e = (released (s.modSmith fun x => { x with site := e }) e).mbEnd 0 := by
  have hrelease := releaseAdvance_unfed (s := s.modSmith fun x => { x with site := e }) (e := e) hop rfl h
  rw [embRelease_eq, if_neg (by omega), h.fedBy, if_neg (by simp)]
  exact hrelease

/-- What the release leaves of SMITH's command, and RELEASED. -/
theorem released_view (he : e < 4) (s : State) : (released s e).smith = s.smith ∧ (released s e).off = s.off ∧
    (released s e).reg pgSMITH Reg.MB_STAT = s.reg pgSMITH Reg.MB_STAT ∧ (released s e).get (pgEMB e) Fld.EMB_STAT_RELEASED = 1 := by
  have hview := netView_optRefresh (s.put (pgEMB e) Fld.EMB_STAT_RELEASED 1) (e / 2)
  have hset : (s.put (pgEMB e) Fld.EMB_STAT_RELEASED 1).get (pgEMB e) Fld.EMB_STAT_RELEASED = 1 := get_put_same _ _ _ _ (by decide)
  have hstat : (s.put (pgEMB e) Fld.EMB_STAT_RELEASED 1).reg pgSMITH Reg.MB_STAT = s.reg pgSMITH Reg.MB_STAT :=
    reg_put_ne _ _ _ _ _ _ fun hk => by
      have := (regKey_inj (by decide) (by decide) hk).1
      simp only [pgEMB, pgSMITH] at this
      omega
  unfold released
  generalize (s.put (pgEMB e) Fld.EMB_STAT_RELEASED 1).optRefresh (e / 2) = t at *
  simp only [netView, Prod.mk.injEq, State.put_smith, State.put_off, hstat] at hview
  obtain ⟨hsmith, -, hoff, hmb, -, hemb⟩ := hview
  exact ⟨hsmith, hoff, hmb, (congrFun hemb ⟨e, he⟩).trans hset⟩

theorem emberRelease_releases (hf : MbFree s) (h0 : mbA s bmc args 0 = e) (he : e < 4) (hlanes : s.lanes = [])
    (hcalm : ∀ k, k < 8 → s.laneSrc (e / 2) k ≠ e ∨ s.laneFed (e / 2) k = false) :
    Answers (.emberRelease bmc tag args) s fun t => MbEnds s t 0x30 tag 0 0 0 ∧ t.flag (pgEMB e) Fld.EMB_STAT_RELEASED = true := by
  refine answers_ended hf rfl (by decide) (by cases bmc <;> decide) (by decide) (fun u hu => ?_) fun v _ _ hv => hv
  have hunfed : Unfed u e := ⟨by rw [hu.rest]; exact hlanes, fun k hk => by rw [hu.laneSrc, hu.laneFed]; exact hcalm k hk⟩
  obtain ⟨hsmith, hoff, hstat, hset⟩ := released_view he (u.modSmith fun x => { x with site := e })
  refine ⟨_, by rw [mbRun_emberRelease, hu.arg, h0, embRelease_unfed he hu.op hunfed], ?_, hoff, fun v hv => ?_⟩
  · have hmod : CmdRuns s (u.modSmith fun x => { x with site := e }) 0x30 tag := ⟨hu.running.op, hu.running.tag, hu.running.seq⟩
    exact hmod.of_stat hsmith hstat
  · rw [hv.flag (by decide) (by simp [pgEMB, pgSMITH]), State.flag, hset]
    rfl

end

end Sys2Proof.Proofs
end
section
/-! ### The statement -/

namespace Sys2Proof.Proofs

open Sys2Proof Sys2Proof.Machine Sys2Proof.Safety

/-- Settles O51, a lemma per command and case: each command is answered with what its run leaves of the state in which it is taken; PORT_MODE's
quench carries the one value that the command wrote, and what the new mode does at once stays in the network. -/
theorem serviceCommands : Obligations.ServiceCommands := by
  unfold Obligations.ServiceCommands
  refine ⟨fun s tag args hf => ?_, fun s bmc tag args hf => ?_⟩
  · exact ⟨fwStage_unread hf, fun b himg hbad => fwStage_refused hf himg hbad, fun b himg h0 hmax hok => fwStage_stages hf himg h0 hmax hok,
      fwActivate_refused hf, fwActivate_restarts hf, chanSpare_badArg hf, chanSpare_refused hf, chanSpare_starts hf, hearth_badArg hf,
      hearthOffline_refused hf, fun h0 h8 hscr hrop hon hothers _ => hearthOffline_leaves hf h0 h8 hscr hrop hon hothers, hearthOnline_refused hf,
      hearthOnline_votes hf⟩
  · refine ⟨smithRestart_restarts hf, portMode_badArg hf, portMode_refused hf, ?_, emberRelease_badArg hf, ?_, ?_⟩
    · intro n hn h4 h3 hcalm hfree hheld hon hgroup hroutes _ hmin hmax hpfc hthr
      exact portMode_sets hf hn ⟨h4, hgroup, hroutes, hcalm, hfree, hheld, h3, ⟨hmin, hmax⟩, hpfc, hthr⟩ hon
    · exact fun e k h0 he hk huse hsrc hfed hpartner => emberRelease_refused hf h0 he hk huse hsrc hfed hpartner
    · exact fun e h0 he hlanes hcalm => emberRelease_releases hf h0 he hlanes hcalm

end Sys2Proof.Proofs
end
